-- ==== Sys2Proof/Word.lean ====
section
/-! DEFINITION. The words the machine is built from: bytes, register words, stream
words, and the index types of the units that the spec numbers (R21, R24, R26). -/

namespace Sys2Proof

/-- One byte of any memory (R9). -/
abbrev Byte := BitVec 8
/-- One control register, scalar register or accumulator element. -/
abbrev W32 := BitVec 32
/-- Steps, fabric times, addresses of a LO/HI pair. -/
abbrev W64 := BitVec 64
/-- The 256-byte payload of a stream word, byte k in bits [8k+7:8k] (R261). -/
abbrev Payload := BitVec 2048

/-- Global logical core index (R21). -/
abbrev Core := Fin 256
/-- Device stack number, die * 4 + stack (R24). -/
abbrev Stack := Fin 8
/-- 0 west, 1 east (R21). -/
abbrev Die := Fin 2
/-- 0-15 OE0-OE15, 16-18 BL0-BL2 (R502). -/
abbrev Port := Fin 19
/-- Save-port drive (R605). -/
abbrev Drive := Fin 4
/-- Physical function: 0 PF0, 1 PF1 (R674). -/
abbrev Func := Fin 2

/-- A sparse table: key and entry, in the canonical form that `Tab.Wf` states. -/
abbrev Tab (α : Type) := List (Nat × α)

end Sys2Proof
end

