-- ==== Sys2Proof/Syntax.lean ====
section
/-! DEFINITION. The commands of the block: one constructor of `Instr` per row of the
opcode table, and the records that their operands are made of.  The four slots of a
bundle keep every bit of their layouts, reserved bits included (R226, R237-R261). -/

namespace Sys2Proof

/-- Who makes a register access (R743). -/
inductive Requester | jusia | pf0 | pf1 | smbus
  deriving DecidableEq, Repr

/-- The register space accessed: the control space of PF0, or the requester's own BAR4 (R675). -/
inductive Bar | bar0 | bar4
  deriving DecidableEq, Repr

/-- The two job slots. -/
inductive JobSlot | a | b
  deriving DecidableEq, Repr

/-- The three command contexts of a bank engine (R371). -/
inductive BeCtx | a | b | h
  deriving DecidableEq, Repr

/-- The four translation buffers (R415). -/
inductive XBuf | host | dma | remw | reme
  deriving DecidableEq, Repr

/-- Packet error code of an SMBus transfer: not sent, correct, or wrong (R690, R693). -/
inductive Pec | absent | good | bad
  deriving DecidableEq, Repr

/-- A cell: its 16-byte header, byte k in bits [8k+7:8k], and its payload (R509). -/
structure Cell where
  hdr : BitVec 128
  payload : Payload
  deriving DecidableEq, Repr

/-- A frame as it arrives: its 64-byte header and its cells (R507). -/
structure Frame where
  hdr : BitVec 512
  cells : List Cell
  deriving DecidableEq, Repr

/-- What the receiver of a port finds of a slot beside its frame (R518): the frame came, and its own
command measured the slot marker; a marker came without a frame, at an offset in 1/32 tk; or no slot
marker came. -/
inductive SlotMark
  | framed
  | alone (delta : BitVec 8)
  | absent
  deriving DecidableEq, Repr

/-- The placement of a slot at a port: what the receiver finds of the slot beside its frame (R514, R518). -/
structure PlacedSlot where
  port : Port
  mark : SlotMark
  deriving DecidableEq, Repr

/-- An NVMe completion entry as the save unit finds it, with the bytes the command
brought into device memory when it was a Read or Identify (R611, R613). -/
structure NvmeEntry where
  cid : BitVec 16
  sqid : BitVec 16
  sqhead : BitVec 16
  status : BitVec 16
  data : List Byte
  deriving DecidableEq, Repr

/-! ### Control-slot layouts (R237); the opcode is not part of the record. -/

/-- Format N: [17:0] reserved. -/
structure FmtN where
  rsv : BitVec 18
  deriving DecidableEq, Repr
/-- Format R: D, A, I and the low seven bits (B and reserved, or IMM7). -/
structure FmtR where
  d : BitVec 5
  a : BitVec 5
  i : BitVec 1
  low : BitVec 7
  deriving DecidableEq, Repr
/-- Format M. -/
structure FmtM where
  d : BitVec 5
  a : BitVec 5
  imm : BitVec 8
  deriving DecidableEq, Repr
/-- Format F. -/
structure FmtF where
  d : BitVec 5
  sel : BitVec 4
  rsv : BitVec 9
  deriving DecidableEq, Repr
/-- Format K3. -/
structure FmtK3 where
  md : BitVec 3
  ma : BitVec 3
  mb : BitVec 3
  rsv : BitVec 9
  deriving DecidableEq, Repr
/-- Format KF. -/
structure FmtKF where
  md : BitVec 3
  a : BitVec 5
  rsv : BitVec 10
  deriving DecidableEq, Repr
/-- Format KP. -/
structure FmtKP where
  d : BitVec 5
  ma : BitVec 3
  rsv : BitVec 10
  deriving DecidableEq, Repr
/-- Format BR. -/
structure FmtBR where
  a : BitVec 5
  off : BitVec 13
  deriving DecidableEq, Repr
/-- Format BM. -/
structure FmtBM where
  ma : BitVec 3
  rsv : BitVec 2
  off : BitVec 13
  deriving DecidableEq, Repr
/-- Format LP: N, I, bits [14:7] (CNT8, or A and reserved), END7. -/
structure FmtLP where
  n : BitVec 2
  i : BitVec 1
  cnt : BitVec 8
  endo : BitVec 7
  deriving DecidableEq, Repr
/-- Format SM: I, [16:14] reserved, [13:0] IMM14, or reserved and A. -/
structure FmtSM where
  i : BitVec 1
  rsv : BitVec 3
  imm : BitVec 14
  deriving DecidableEq, Repr
/-- Format WC. -/
structure FmtWC where
  n : BitVec 6
  rsv : BitVec 12
  deriving DecidableEq, Repr
/-- Format FN. -/
structure FmtFN where
  kind : BitVec 3
  rsv : BitVec 15
  deriving DecidableEq, Repr
/-- Format DN. -/
structure FmtDN where
  code : BitVec 8
  rsv : BitVec 10
  deriving DecidableEq, Repr
/-- Format U. -/
structure FmtU where
  d : BitVec 5
  imm : BitVec 16
  deriving DecidableEq, Repr

/-! ### Array-slot layouts (R243-R245). -/

/-- ANOP: every other bit of the slot (R231). -/
structure FmtZ29 where
  rsv : BitVec 29
  deriving DecidableEq, Repr
/-- AMAC (R243). -/
structure FmtAmac where
  amask : BitVec 4
  tile : BitVec 4
  ow : BitVec 1
  neg : BitVec 1
  asc : BitVec 1
  sreg : BitVec 5
  ovf : BitVec 1
  ka : BitVec 3
  kb : BitVec 3
  rsv : BitVec 6
  deriving DecidableEq, Repr
/-- ADRQ (R244). -/
structure FmtAdrq where
  amask : BitVec 4
  tile : BitVec 4
  w : BitVec 2
  pol : BitVec 1
  sreg : BitVec 5
  ovf : BitVec 1
  rnd : BitVec 1
  h : BitVec 5
  dst : BitVec 5
  rsv : BitVec 1
  deriving DecidableEq, Repr
/-- ADRW, ALDT and ASTT (R245). -/
structure FmtTileMove where
  amask : BitVec 4
  tile : BitVec 4
  rsva : BitVec 3
  sreg : BitVec 5
  rsvb : BitVec 13
  deriving DecidableEq, Repr

/-! ### Vector-slot layouts (R249, R252, R254, R256, R257). -/

/-- VNOP: every other bit of the slot. -/
structure FmtZ34 where
  rsv : BitVec 34
  deriving DecidableEq, Repr
/-- Lane format L. -/
structure FmtL where
  d : BitVec 5
  a : BitVec 5
  b : BitVec 5
  mask : BitVec 3
  ovf : BitVec 1
  rnd : BitVec 1
  racc : BitVec 2
  rop : BitVec 3
  ns : BitVec 1
  n : BitVec 7
  rsv : BitVec 1
  deriving DecidableEq, Repr
/-- Memory format M. -/
structure FmtVM where
  v : BitVec 5
  sa : BitVec 5
  vb : BitVec 5
  mask : BitVec 3
  ovf : BitVec 1
  size : BitVec 2
  imm : BitVec 13
  deriving DecidableEq, Repr
/-- VXFR. -/
structure FmtXfr where
  dir : BitVec 1
  km1 : BitVec 4
  sc : BitVec 5
  sp : BitVec 5
  rsv : BitVec 19
  deriving DecidableEq, Repr
/-- VTILE. -/
structure FmtVtile where
  amask : BitVec 4
  mode : BitVec 3
  w : BitVec 2
  pol : BitVec 1
  h : BitVec 5
  rnd : BitVec 1
  ovf : BitVec 1
  sbase : BitVec 5
  sdst : BitVec 5
  stride : BitVec 4
  rsv : BitVec 3
  deriving DecidableEq, Repr
/-- Reduction format R. -/
structure FmtRed where
  racc : BitVec 2
  kind : BitVec 3
  sd : BitVec 5
  sh : BitVec 5
  rsv : BitVec 19
  deriving DecidableEq, Repr

/-! ### Stream-slot layouts (R260). -/

/-- SNOP: every other bit of the slot. -/
structure FmtZ20 where
  rsv : BitVec 20
  deriving DecidableEq, Repr
/-- SRECV, SSEND, SDROP and SLEVEL. -/
structure FmtS where
  port : BitVec 5
  v : BitVec 5
  last : BitVec 1
  lend : BitVec 1
  rsv : BitVec 8
  deriving DecidableEq, Repr

/-- The rest of the bundle that a core-operation command issues: its format and
slot-valid bits and the raw bits of its slots.  The field of the slot that the command
itself names is not used: the command's own operation stands there (R226). -/
structure Others where
  fmt : BitVec 4
  slotv : BitVec 4
  ctl : BitVec 24
  arr : BitVec 32
  vec : BitVec 40
  str : BitVec 24
  deriving DecidableEq, Repr

/-- The commands: one constructor per row of the opcode table, in its order. -/
inductive Instr
  /-- A write to a register that has no row of its own stores its RW fields, subject to the reserved-value rules. (R14) -/
  | registerWrite (r : Requester) (bar : Bar) (off : BitVec 26) (size : BitVec 13) (v : BitVec 64)
  /-- A read of the _LO register of a pair latches the _HI half for the requester that read it. (R742) -/
  | loReadLatch (r : Requester) (bar : Bar) (off : BitVec 26) (size : BitVec 13)
  /-- Scalar add, wrapping at 32 bits. (R187) -/
  | sadd (c : Core) (f : FmtR) (rest : Others)
  /-- Scalar subtract, wrapping at 32 bits. (R187) -/
  | ssub (c : Core) (f : FmtR) (rest : Others)
  /-- Scalar bitwise AND. (R187) -/
  | sand (c : Core) (f : FmtR) (rest : Others)
  /-- Scalar bitwise OR. (R187) -/
  | sor (c : Core) (f : FmtR) (rest : Others)
  /-- Scalar bitwise XOR. (R187) -/
  | sxor (c : Core) (f : FmtR) (rest : Others)
  /-- Scalar left shift, wrapping at 32 bits. (R187) -/
  | sshl (c : Core) (f : FmtR) (rest : Others)
  /-- Scalar logical right shift. (R187) -/
  | sshr (c : Core) (f : FmtR) (rest : Others)
  /-- Scalar arithmetic right shift. (R187) -/
  | ssra (c : Core) (f : FmtR) (rest : Others)
  /-- Signed scalar minimum. (R187) -/
  | smin (c : Core) (f : FmtR) (rest : Others)
  /-- Signed scalar maximum. (R187) -/
  | smax (c : Core) (f : FmtR) (rest : Others)
  /-- Sets the destination to 1 if a is less than b, else 0. (R187) -/
  | sslt (c : Core) (f : FmtR) (rest : Others)
  /-- Scalar multiply, wrapping at 32 bits, with latency 2 cy. (R187) -/
  | smul (c : Core) (f : FmtR) (rest : Others)
  /-- Loads a sign-extended 16-bit immediate into a scalar register. (R238) -/
  | sli (c : Core) (f : FmtU) (rest : Others)
  /-- Replaces the upper 16 bits of a scalar register with an immediate. (R238) -/
  | slui (c : Core) (f : FmtU) (rest : Others)
  /-- Loads a 32-bit scratchpad word into a scalar register, after alignment and range checks. (R188) -/
  | sld (c : Core) (f : FmtM) (rest : Others)
  /-- Stores a scalar register to a 32-bit scratchpad word, after alignment and range checks. (R188) -/
  | sst (c : Core) (f : FmtM) (rest : Others)
  /-- Reads a special value (core, step, slot or loop count) into a scalar register. (R189) -/
  | smfs (c : Core) (f : FmtF) (rest : Others)
  /-- AND of two mask registers. (R187) -/
  | mand (c : Core) (f : FmtK3) (rest : Others)
  /-- OR of two mask registers. (R187) -/
  | mor (c : Core) (f : FmtK3) (rest : Others)
  /-- XOR of two mask registers. (R187) -/
  | mxor (c : Core) (f : FmtK3) (rest : Others)
  /-- Computes Ma AND NOT Mb into a mask register. (R187) -/
  | mandn (c : Core) (f : FmtK3) (rest : Others)
  /-- Sets the low min(a, 64) bits of a mask register. (R187) -/
  | mfill (c : Core) (f : FmtKF) (rest : Others)
  /-- Counts the 1 bits of a mask register into a scalar register. (R187) -/
  | mpop (c : Core) (f : FmtKP) (rest : Others)
  /-- Unconditional branch with one delay slot. (R191) -/
  | branch (c : Core) (f : FmtBR) (rest : Others)
  /-- Branches when the scalar register is zero. (R191) -/
  | beqz (c : Core) (f : FmtBR) (rest : Others)
  /-- Branches when the scalar register is non-zero. (R191) -/
  | bnez (c : Core) (f : FmtBR) (rest : Others)
  /-- Branches when the scalar register is negative. (R191) -/
  | bltz (c : Core) (f : FmtBR) (rest : Others)
  /-- Branches when the scalar register is non-negative. (R191) -/
  | bgez (c : Core) (f : FmtBR) (rest : Others)
  /-- Branches when the mask register has any 1 bit. (R191) -/
  | bmany (c : Core) (f : FmtBM) (rest : Others)
  /-- Branches when the mask register has no 1 bit. (R191) -/
  | bmnone (c : Core) (f : FmtBM) (rest : Others)
  /-- Starts a hardware loop level with its start, end and count. (R194) -/
  | loop (c : Core) (f : FmtLP) (rest : Others)
  /-- Writes the mode register; the new mode takes effect after two shadow bundles. (R200) -/
  | setmode (c : Core) (f : FmtSM) (rest : Others)
  /-- Holds until a comparator's pending bit is set, then issues and clears the bit. (R203) -/
  | waitcal (c : Core) (f : FmtWC) (rest : Others)
  /-- Issues a fence of a given kind; later bundles hold until it completes. (R190) -/
  | fence (c : Core) (f : FmtFN) (rest : Others)
  /-- Posts a completion code to the core's posting FIFO. (R298) -/
  | done (c : Core) (f : FmtDN) (rest : Others)
  /-- Raises BREAK after the bundle issues, or ILLEGAL if the image is not a debug image. (R221) -/
  | brk (c : Core) (f : FmtN) (rest : Others)
  /-- Control-slot no operation. (R231) -/
  | cnop (c : Core) (f : FmtN) (rest : Others)
  /-- A pending fence completes once its covered words are placed or performed, releasing held bundles. (R291) -/
  | fenceComplete (c : Core)
  /-- A pending asynchronous exception is taken at the next bundle boundary and stops the core. (R208) -/
  | asyncException (c : Core)
  /-- At a window boundary PREEMPT is taken in every core the window names. (R213) -/
  | preempt (n : Fin 64)
  /-- After PREEMPT the core finishes issued work, saves the outgoing slot and restores the incoming one. (R437) -/
  | contextSwitch (c : Core)
  /-- A write of SEQ_CTL.RESUME resumes a core stopped by BREAK. (R222) -/
  | seqResume (r : Requester) (c : Core)
  /-- A write of SEQ_CTL.STEP runs one bundle of a core stopped by BREAK and then raises BREAK. (R222) -/
  | seqStep (r : Requester) (c : Core)
  /-- A write of SEQ_CTL.HALT raises BREAK at the next boundary of a running core. (R222) -/
  | seqHalt (r : Requester) (c : Core)
  /-- Issues an accumulate instruction to the quad, latching its flags and SREG value. (R92) -/
  | amac (c : Core) (f : FmtAmac) (rest : Others)
  /-- An AMAC takes one k-step slot when every feeder has its vector, adding or skipping products. (R101) -/
  | amacSlot (c : Core)
  /-- Issues a quantised drain of a tile to a stream port. (R111) -/
  | adrq (c : Core) (f : FmtAdrq) (rest : Others)
  /-- Issues a full-width drain of a tile and its descriptor to the operand cache. (R114) -/
  | adrw (c : Core) (f : FmtTileMove) (rest : Others)
  /-- Issues a load of a tile, its scale and flags from the scratchpad. (R117) -/
  | aldt (c : Core) (f : FmtTileMove) (rest : Others)
  /-- Issues a store of a tile, its scale and flags to the scratchpad. (R117) -/
  | astt (c : Core) (f : FmtTileMove) (rest : Others)
  /-- Array-slot no operation. (R242) -/
  | anop (c : Core) (f : FmtZ29) (rest : Others)
  /-- A waiting drain, ALDT or ASTT starts once the tile is readable and the drain unit free, and runs to its last cy. (R109) -/
  | drainStart (c : Core)
  /-- A write of ARR_CTL.CLRCNT clears the lifetime counters of all four arrays. (R120) -/
  | arrClrcnt (r : Requester) (c : Core)
  /-- Lane-wise add. (R148) -/
  | vadd (c : Core) (f : FmtL) (rest : Others)
  /-- Lane-wise subtract. (R148) -/
  | vsub (c : Core) (f : FmtL) (rest : Others)
  /-- Lane-wise minimum. (R148) -/
  | vmin (c : Core) (f : FmtL) (rest : Others)
  /-- Lane-wise maximum. (R148) -/
  | vmax (c : Core) (f : FmtL) (rest : Others)
  /-- Lane-wise absolute value. (R148) -/
  | vabs (c : Core) (f : FmtL) (rest : Others)
  /-- Lane-wise negation. (R148) -/
  | vneg (c : Core) (f : FmtL) (rest : Others)
  /-- Lane-wise bitwise AND. (R148) -/
  | vand (c : Core) (f : FmtL) (rest : Others)
  /-- Lane-wise bitwise OR. (R148) -/
  | vor (c : Core) (f : FmtL) (rest : Others)
  /-- Lane-wise bitwise XOR. (R148) -/
  | vxor (c : Core) (f : FmtL) (rest : Others)
  /-- Lane-wise left shift. (R148) -/
  | vshl (c : Core) (f : FmtL) (rest : Others)
  /-- Lane-wise arithmetic right shift. (R148) -/
  | vshr (c : Core) (f : FmtL) (rest : Others)
  /-- Lane-wise rounding right shift. (R148) -/
  | vrshr (c : Core) (f : FmtL) (rest : Others)
  /-- Lane-wise narrowing to width w. (R148) -/
  | vnarrow (c : Core) (f : FmtL) (rest : Others)
  /-- Lane-wise equality compare into a mask register. (R148) -/
  | vcmpEq (c : Core) (f : FmtL) (rest : Others)
  /-- Lane-wise inequality compare into a mask register. (R148) -/
  | vcmpNe (c : Core) (f : FmtL) (rest : Others)
  /-- Lane-wise less-than compare into a mask register. (R148) -/
  | vcmpLt (c : Core) (f : FmtL) (rest : Others)
  /-- Lane-wise less-or-equal compare into a mask register. (R148) -/
  | vcmpLe (c : Core) (f : FmtL) (rest : Others)
  /-- Lane-wise select by mask, writing every lane. (R148) -/
  | vsel (c : Core) (f : FmtL) (rest : Others)
  /-- Copies a vector register. (R148) -/
  | vmov (c : Core) (f : FmtL) (rest : Others)
  /-- Broadcasts a scalar register to every lane. (R148) -/
  | vbcast (c : Core) (f : FmtL) (rest : Others)
  /-- Lane-wise multiply. (R148) -/
  | vmul (c : Core) (f : FmtL) (rest : Others)
  /-- Lane-wise multiply with rounding shift. (R148) -/
  | vmulr (c : Core) (f : FmtL) (rest : Others)
  /-- Lane-wise multiply-accumulate with rounding shift. (R148) -/
  | vmac (c : Core) (f : FmtL) (rest : Others)
  /-- Lane-wise integer 2^x. (R160) -/
  | vexp2 (c : Core) (f : FmtL) (rest : Others)
  /-- Lane-wise integer e^x. (R160) -/
  | vexp (c : Core) (f : FmtL) (rest : Others)
  /-- Lane-wise integer log2. (R161) -/
  | vlog2 (c : Core) (f : FmtL) (rest : Others)
  /-- Lane-wise integer reciprocal. (R162) -/
  | vrcp (c : Core) (f : FmtL) (rest : Others)
  /-- Lane-wise integer reciprocal square root. (R163) -/
  | vrsq (c : Core) (f : FmtL) (rest : Others)
  /-- Loads one element per active lane from the operand cache. (R148) -/
  | vld (c : Core) (f : FmtVM) (rest : Others)
  /-- Stores one element per active lane to the operand cache. (R148) -/
  | vst (c : Core) (f : FmtVM) (rest : Others)
  /-- Gathers elements from the operand cache by an index vector. (R148) -/
  | vldx (c : Core) (f : FmtVM) (rest : Others)
  /-- Scatters elements to the operand cache by an index vector. (R146) -/
  | vstx (c : Core) (f : FmtVM) (rest : Others)
  /-- Moves 4 KiB blocks between the operand cache and the scratchpad through port F. (R254) -/
  | vxfr (c : Core) (f : FmtXfr) (rest : Others)
  /-- Combines wide tiles by MODE and quantises them into output tiles. (R153) -/
  | vtile (c : Core) (f : FmtVtile) (rest : Others)
  /-- Sets a reduction accumulator's kind and starting state. (R165) -/
  | rclr (c : Core) (f : FmtRed) (rest : Others)
  /-- Moves a word or the index of a reduction accumulator to a scalar register. (R168) -/
  | rget (c : Core) (f : FmtRed) (rest : Others)
  /-- Moves a normalised reduction value and its shift to two scalar registers. (R168) -/
  | rgetn (c : Core) (f : FmtRed) (rest : Others)
  /-- Vector-slot no operation. (R231) -/
  | vnop (c : Core) (f : FmtZ34) (rest : Others)
  /-- A lane instruction's fold reaches its reduction accumulator in issue order. (R168) -/
  | reductionFold (c : Core)
  /-- A write of VEC_CTL.CLRCNT clears the vector engine's lifetime counters. (R173) -/
  | vecClrcnt (r : Requester) (c : Core)
  /-- Pops one word from an incoming port into a vector register. (R261) -/
  | srecv (c : Core) (f : FmtS) (rest : Others)
  /-- Pushes a vector register as one word to an outgoing port. (R261) -/
  | ssend (c : Core) (f : FmtS) (rest : Others)
  /-- Discards words from a port up to and including the next word marked LAST. (R261) -/
  | sdrop (c : Core) (f : FmtS) (rest : Others)
  /-- Reads a port's waiting words or free places into a scalar register. (R261) -/
  | slevel (c : Core) (f : FmtS) (rest : Others)
  /-- Stream-slot no operation. (R231) -/
  | snop (c : Core) (f : FmtZ20) (rest : Others)
  /-- A word leaves its source in one of its route's offsets when a credit is held. (R277) -/
  | routeWordSend (j : JobSlot) (route : Fin 4096) (o : Fin 16)
  /-- A word reaches its destination queue or endpoint buffer L cy after leaving. (R275) -/
  | routeWordArrive (j : JobSlot) (route : Fin 4096)
  /-- A freed destination place returns one credit to the route's source L cy later. (R277) -/
  | creditReturn (j : JobSlot) (route : Fin 4096)
  /-- A scratchpad sink writes an arrived word to its next tile or payload position. (R274) -/
  | sinkWrite (c : Core) (k : Fin 4)
  /-- A Mule delivery route delivers a capacity slot once it has arrived, or as INVALID at close. (R283) -/
  | muleDelivery (t : Fin 16) (e : Fin 4096)
  /-- A die's collector takes up to 8 posted completions into its queue in round-robin order. (R299) -/
  | collectorTake (die : Die)
  /-- The reporter writes up to 8 queue entries to the completion ring of their job slot. (R300) -/
  | completionReport
  /-- Each 8-cy memory slot serves each bank group's scheduled owner and advances the schedule index. (R286) -/
  | memorySlot (d : Stack) (waiting : BitVec 112)
  /-- A write of IMG_CTL.GO starts an image load from memory or a drive. (R331) -/
  | imgGo (r : Requester) (v : BitVec 32)
  /-- A write of IMG_CTL.ABORT ends a load in progress with status ABORTED. (R336) -/
  | imgAbort (r : Requester) (v : BitVec 32)
  /-- A write of IMG_CTL.FORCE forces a pending partial reload to switch each core. (R344) -/
  | imgForce (r : Requester) (v : BitVec 32)
  /-- A write of IMG_CTL.DEFAULT requests the default image for job slot A. (R346) -/
  | imgDefault (r : Requester) (v : BitVec 32)
  /-- The loader finishes reading and hashing the image and checks its header and section table; what it has
  read is the device's own state, so that its operand says nothing. (R334) -/
  | loadRead (rd : Unit)
  /-- The loader finishes verifying the image signature against the fused keys. (R328) -/
  | loadAuth
  /-- The loader finishes checking the sections and resources. (R334) -/
  | loadCheck
  /-- The loader finishes writing the shadow planes and waits for the swap time. (R337) -/
  | loadStage
  /-- At the swap time the shadow planes become active on both dies. (R337) -/
  | imageSwap
  /-- A core of a partially reloaded stage switches to its new program at a qualifying boundary. (R342) -/
  | coreSwitch (c : Core)
  /-- The default image takes effect at the next FMARK at which slot A is idle. (R346) -/
  | defaultImageApply
  /-- A command token's last word arrives and the command enters its context queue. (R372) -/
  | bankCommandToken (d : Stack) (ep : Fin 240)
  /-- A write of MEM_HRTAIL posts host-ring entries that context H fetches in order. (R372) -/
  | memHrtail (r : Requester) (v : BitVec 32)
  /-- Folds a batch of subsampled rows into a Kronecker factor block. (R378) -/
  | beFema (d : Stack) (x : BeCtx) (n : BitVec 32)
  /-- Applies the speculative owner update to momentum, master and working weights. (R379) -/
  | beOwnupd (d : Stack) (x : BeCtx) (n : BitVec 32)
  /-- Reverts momentum and master weights from the log and recomputes the working tile. (R381) -/
  | beUndo (d : Stack) (x : BeCtx) (n : BitVec 32)
  /-- Copies I16S tiles with logged deltas, including scale bytes. (R382) -/
  | beXwrite (d : Stack) (x : BeCtx) (n : BitVec 32)
  /-- XORs source words into destination words. (R383) -/
  | bePapply (d : Stack) (x : BeCtx) (n : BitVec 32)
  /-- Computes a 64-bit digest of a word range. (R384) -/
  | beDigest (d : Stack) (x : BeCtx) (n : BitVec 32)
  /-- Computes an in-place matrix-vector product over row-run weights. (R385) -/
  | beWread (d : Stack) (x : BeCtx) (n : BitVec 32)
  /-- Sends words as they stood at the last commit to the save port. (R386) -/
  | beSnap (d : Stack) (x : BeCtx) (n : BitVec 32)
  /-- A bank-engine command completes when every engine has finished and every word sent is placed. (R374) -/
  | bankCommandComplete (d : Stack) (x : BeCtx)
  /-- A write of MEM_CTL.CLRCNT clears the stacks' ECC, command and saturation counters. (R393) -/
  | memClrcnt (r : Requester) (v : BitVec 32)
  /-- A page-table walk completes, filling a buffer entry or ending in a fault. (R402) -/
  | tableWalk (b : XBuf)
  /-- A write of XLT_INV starts an invalidation in all four translation buffers. (R419) -/
  | xltInv (r : Requester) (v : BitVec 32)
  /-- An invalidation completes and INVBUSY clears. (R419) -/
  | invalidationComplete
  /-- An unresolved window translation fault becomes an exception when its timeout expires. (R411) -/
  | xltTimeout (d : Stack) (ep : Fin 240)
  /-- A write of XLT_CTL.CLRCNT clears the translation counters. (R442) -/
  | xltClrcnt (r : Requester) (v : BitVec 32)
  /-- A write of DMA_CHn_TAIL posts descriptors for the channel to fetch and start. (R421) -/
  | dmaTail (r : Requester) (ch : Fin 16) (v : BitVec 32)
  /-- A DMA descriptor copies 256-byte words from source to destination. (R423) -/
  | dmaCopy (ch : Fin 16)
  /-- A DMA descriptor writes an 8-byte pattern over words. (R423) -/
  | dmaFill (ch : Fin 16)
  /-- A DMA descriptor converts IEEE tiles to a scaled tensor. (R425) -/
  | importTiles (ch : Fin 16)
  /-- A DMA descriptor converts scaled tiles to IEEE values. (R426) -/
  | exportTiles (ch : Fin 16)
  /-- A descriptor completes in ring order, writing STAT and advancing HEAD. (R432) -/
  | descriptorComplete (ch : Fin 16)
  /-- A write of RESUME restarts a stopped descriptor at unit PROG. (R431) -/
  | dmaResume (r : Requester) (ch : Fin 16) (v : BitVec 32)
  /-- A write of SKIP abandons a stopped descriptor and moves on. (R431) -/
  | dmaSkip (r : Requester) (ch : Fin 16) (v : BitVec 32)
  /-- A write of DMA_CTL.CLRCNT clears the DMA counters. (R442) -/
  | dmaClrcnt (r : Requester) (v : BitVec 32)
  /-- A comparator fires at a matching fabric time and is delivered to its assigned units. (R492) -/
  | calendarFiring (n : Fin 64)
  /-- An FMARK marker arrives and is judged valid or wrong against fabric time. (R486) -/
  | marker
  /-- At each frame boundary the gate opens and each die's lateness is judged. (R521) -/
  | frameBoundary
  /-- FREF stopping for more than 1 µs stops fabric time and takes every port DOWN. (R488) -/
  | frefLost
  /-- A write of FAB_PCHIP sets the device's physical chip number. (R483) -/
  | fabPchip (r : Requester) (v : BitVec 32)
  /-- A write of FAB_TCTL.APPLY loads FAB_TSET into the frame number at the next boundary. (R489) -/
  | fabApply (r : Requester) (v : BitVec 32)
  /-- Light or signal appears on a port, which leaves DOWN and begins bring-up. (R498) -/
  | portSignalDetect (p : Port)
  /-- Light or signal is lost on a port, which goes DOWN. (R498) -/
  | portSignalLoss (p : Port)
  /-- A TRAIN frame is received, checking identity and version and measuring flight time. (R499) -/
  | frameTrain (p : Port) (f : Frame) (ago : BitVec 16)
  /-- A port not UP within 50 ms of LIGHT fails with the code of the failed check. (R501) -/
  | bringupTimeout (p : Port)
  /-- A FAILED port with AUTO set is retried at most once per 100 ms. (R501) -/
  | portRetry (p : Port)
  /-- A write of FAB_PCTLp.RETRAIN restarts bring-up from DOWN. (R498) -/
  | retrain (r : Requester) (p : Port) (v : BitVec 32)
  /-- An engine composes the frame of a slot 4 tk before its tick 0. (R512) -/
  | frameCompose (p : Port)
  /-- A DATA frame arrives and its drift is measured. (R508) -/
  | frameData (p : Port) (f : Frame) (delta : BitVec 8)
  /-- A CONS frame arrives carrying consensus cells. (R508) -/
  | frameCons (p : Port) (f : Frame) (delta : BitVec 8)
  /-- A MAINT frame arrives for calibration or test. (R508) -/
  | frameMaint (p : Port) (f : Frame) (delta : BitVec 8)
  /-- An IDLE frame arrives with no cells. (R508) -/
  | frameIdle (p : Port) (f : Frame) (delta : BitVec 8)
  /-- A frame of reserved type or wrong version is dropped, counted and answered. (R511) -/
  | frameUnknownType (p : Port) (f : Frame) (delta : BitVec 8)
  /-- At tick 30 a receiver places the expected frame's cells, or INVALID words for a lost frame. (R514) -/
  | framePlacement (p : PlacedSlot)
  /-- A laser power change or temperature step makes the synthesiser relock and settle. (R524) -/
  | synthRelock (p : Fin 16)
  /-- Laser input below 14 dBm for 1 ms fails the engine's port with OPTPWR. (R759) -/
  | laserLow (p : Port)
  /-- A remote READ request arrives and is translated and answered, or forwarded. (R526) -/
  | remreqRead (p : Port)
  /-- A remote WRITE request arrives and is translated and performed, or forwarded. (R526) -/
  | remreqWrite (p : Port)
  /-- A remote FENCE request arrives from a HERD fence. (R529) -/
  | remreqFence (p : Port)
  /-- A member answers a FENCE request once its time and deliveries reach the bound. (R529) -/
  | fenceAnswer
  /-- A remote response arrives and ends its request, or is discarded if stale. (R527) -/
  | remrsp (p : Port)
  /-- A request with no response within REMTMO slots ends REMOTE_LOST. (R527) -/
  | remoteTimeout (tag : BitVec 16)
  /-- The collective unit performs up to two add or copy word operations per cy. (R551) -/
  | collectiveWordOp (k : Fin 32)
  /-- A router descriptor is accepted, its selections assigned capacity slots and copies sent. (R561) -/
  | muleDescriptor (t : Fin 16)
  /-- A Mule token arrives and is written to its owner slot or forwarded. (R567) -/
  | muleToken (chan : Fin 4096)
  /-- An expert stage returns an output token, sent back to its source. (R568) -/
  | muleReturn (t : Fin 16)
  /-- The combine emits a token once its residual arrives and every selection is resolved. (R570) -/
  | muleCombine (t : Fin 16)
  /-- A write of HRD_CTL.CLRCNT clears the HRD lifetime counters. (R572) -/
  | hrdClrcnt (r : Requester) (v : BitVec 32)
  /-- A write of MUL_CTL.CLRCNT clears the MUL lifetime counters. (R572) -/
  | mulClrcnt (r : Requester) (v : BitVec 32)
  /-- Jusia sets a group's PERIOD with an apply step. (R464) -/
  | cadenceSet (g : Fin 64) (period : BitVec 16) (step : BitVec 64)
  /-- Jusia requests a microbatch count, which hardware accepts or refuses. (R478) -/
  | batchSteerRequest (count : BitVec 16) (step : BitVec 64)
  /-- A write of BWT_CTL.ARM arms Bellwether if every arm check passes. (R573) -/
  | bwtArm (r : Requester) (v : BitVec 32)
  /-- A write of BWT_CTL.DISARM sets STATE to IDLE from HALTED. (R603) -/
  | bwtDisarm (r : Requester) (v : BitVec 32)
  /-- A write of BWT_CTL.HALTREQ gives a pending halt cause HOST. (R591) -/
  | bwtHaltreq (r : Requester) (v : BitVec 32)
  /-- A write of BWT_CTL.CLRCNT clears the Bellwether counters. (R603) -/
  | bwtClrcnt (r : Requester) (v : BitVec 32)
  /-- A SEND entry places a CONS cell carrying a register on its ports. (R582) -/
  | consensusSend
  /-- A RECV entry combines a neighbour's CONS cell into a register. (R582) -/
  | consensusRecv
  /-- A COPY entry copies one consensus register to another. (R582) -/
  | consensusCopy
  /-- The DECIDE entry applies the decision function to the reduced word. (R586) -/
  | consensusDecide
  /-- A write of BWT_RESOLVE decides an undecided attempt as COMMIT or SKIP. (R593) -/
  | bwtResolve (r : Requester) (v : BitVec 32)
  /-- A write of SAV_CTL.REQ asks Jusia for a clutch. (R617) -/
  | savReq (r : Requester) (v : BitVec 32)
  /-- Jusia grants a clutch, which enters WAIT. (R617) -/
  | clutchGrant
  /-- A write of SAV_CTL.ABORT ends a clutch with code ABORTED. (R622) -/
  | savAbort (r : Requester) (v : BitVec 32)
  /-- A write of SAV_CTL.RESTORE starts a restore from the drives. (R633) -/
  | savRestore (r : Requester) (v : BitVec 32)
  /-- A write of SAV_CTL.CLRCNT clears the save-port lifetime counters. (R641) -/
  | savClrcnt (r : Requester) (v : BitVec 32)
  /-- The save unit reads a piece as it stood at CSTEP when it is ready to read it. (R618) -/
  | pieceRead (i : BitVec 16)
  /-- A record is captured into a freed ring place and its CRC computed. (R624) -/
  | recordCapture
  /-- Once every record is written the clutch is flushed and its manifest and header written. (R630) -/
  | clutchSeal
  /-- A write of SAV_DRVn_CTL.RESET re-attaches a drive. (R607) -/
  | driveReset (r : Requester) (n : Drive) (v : BitVec 32)
  /-- An NVMe completion entry arrives and ends its command, with retry or failure on error. (R612) -/
  | nvmeCompletion (n : Drive) (e : NvmeEntry)
  /-- A drive command without completion after TMO resets the controller or fails the drive. (R612) -/
  | nvmeTimeout (n : Drive) (cid : BitVec 16)
  /-- A save-port link going down fails its drive with cause LINK. (R612) -/
  | driveLinkDown (n : Drive)
  /-- A drive memory request outside its queues and PRP ranges is refused. (R736) -/
  | driveMemoryRequest (n : Drive) (addr : BitVec 64) (len : BitVec 13)
  /-- VHOLD_SENSE is converted and the hold-up estimate reconciled. (R636) -/
  | holdupSample (mv : BitVec 12)
  /-- 50 ms without a successful gauge read sets GSTALE and uses e_v alone. (R637) -/
  | gstale
  /-- Jusia stages a multiplier for a phase, or the staging is refused. (R649) -/
  | oppointStage (ph : Fin 4) (m : BitVec 5)
  /-- A die's idle PLL locks to the pending multiplier and the die switches. (R651) -/
  | pllLock (die : Die)
  /-- A quadrant voltage below VREQ less 20 mV holds its die's clocks. (R652) -/
  | voltageHold (q : Fin 8) (mv : BitVec 11)
  /-- Every 8 tk each die's controller sets its hold level from rail currents. (R656) -/
  | currentEvaluation (iavg : List (BitVec 16))
  /-- A single-tk current above ACT plus a quarter sets the die's level to 8. (R657) -/
  | fastCurrent (rail : Fin 11) (cur : BitVec 16)
  /-- At each 1 µs sample the package controller runs or holds both dies. (R659) -/
  | ceilingSample (e : BitVec 16)
  /-- The 20 temperature sensors are read every 1,024 tk. (R662) -/
  | temperatureRead (temps : List (BitVec 12))
  /-- Jusia writes EN = 1 to a load switch, starting a ramp unless the retry cap refuses it. (R666) -/
  | optEnable (q : Fin 4)
  /-- Jusia writes EN = 0, opening the load switch. (R666) -/
  | optDisable (q : Fin 4)
  /-- The switch output reaches 3.20 V and the switch enters ON. (R666) -/
  | rampComplete (q : Fin 4)
  /-- An output 0.40 V behind the ramp for 2 µs trips the switch. (R667) -/
  | rampshort (q : Fin 4)
  /-- An output current above 24 A for 2 µs trips the switch. (R668) -/
  | overcurrent (q : Fin 4)
  /-- An output below 3.00 V for 2 µs trips the switch. (R668) -/
  | undervolt (q : Fin 4)
  /-- 10 s after the oldest retry a BLOCKED switch returns to TRIPPED. (R669) -/
  | blockedEnd (q : Fin 4)
  /-- A write of PWR_CTL.CLRCNT clears the power lifetime counters. (R672) -/
  | pwrClrcnt (r : Requester) (v : BitVec 32)
  /-- A write of MBX_CTL.POST submits the mailbox request. (R684) -/
  | mbxPost (fn : Func) (v : BitVec 32)
  /-- Mailbox command returning architecture, Jusia version and firmware state. (R686) -/
  | mbxVersion (fn : Func)
  /-- Mailbox command that loads and verifies Jusia, at the request of a function, or of the boot responder
  itself for FWAUTO. (R689, R703) -/
  | mbxFwLoad (fn : Func) (auto : Bool)
  /-- Mailbox command that sets SETLIMIT and may clear RSTART. (R686) -/
  | mbxCeiling (fn : Func) (clearRstart : Bool) (refuse : Bool)
  /-- Mailbox command that enables or disables VDD_OPT switches. (R686) -/
  | mbxOptPower (fn : Func) (refuse : Bool)
  /-- Mailbox command that programs an owner key slot. (R686) -/
  | mbxKeyProg (fn : Func)
  /-- Mailbox command that irreversibly revokes an owner key slot. (R686) -/
  | mbxKeyRevoke (fn : Func)
  /-- Mailbox command that grants job slot B memory and DMA channels. (R686) -/
  | mbxSlotbGrant (fn : Func)
  /-- Mailbox command that loads a job slot B image. (R686) -/
  | mbxSlotbLoad (fn : Func)
  /-- Mailbox command that resumes a slot A core stopped by a non-BREAK exception. (R686) -/
  | mbxCoreResume (fn : Func) (refuse : Bool)
  /-- Mailbox command that refills a translation-window page. (R409) -/
  | mbxWinRefill (fn : Func) (refuse : Bool)
  /-- Mailbox command that runs an I²C transaction. (R686) -/
  | mbxI2cXfer (fn : Func) (refuse : Bool)
  /-- A request unanswered for 10 s completes with TIMEOUT and the firmware state becomes HUNG. (R688) -/
  | mailboxTimeout (fn : Func)
  /-- A write of DBELLn acts as a write of the channel's TAIL if the function owns it. (R678) -/
  | dbell (fn : Func) (n : Fin 16) (v : BitVec 32) (dw0 : BitVec 32)
  /-- A write of DBELLHR acts as a write of MEM_HRTAIL. (R678) -/
  | dbellhr (fn : Func) (v : BitVec 32)
  /-- Setting CRING_CTL.EN from 0 to 1 enables the ring and zeroes HEAD and TAIL. (R683) -/
  | cringEnable (fn : Func) (v : BitVec 32)
  /-- Unmasking an MSI-X vector with its pending bit set sends the message once. (R681) -/
  | msixUnmask (fn : Func) (vec : Fin 32)
  /-- SMBus command setting the BAR0 offset for the next READ or WRITE. (R691) -/
  | smbSetaddr (count : BitVec 8) (data : BitVec 32) (pec : Pec)
  /-- SMBus command reading the register at the offset and advancing it. (R692) -/
  | smbRead (pec : Pec)
  /-- SMBus command writing the register at the offset, effective only for MGT_RSTCTL.WARM. (R692) -/
  | smbWrite (count : BitVec 8) (data : BitVec 32) (pec : Pec)
  /-- SMBus command returning READY, DENIED, PROTO and FWRUN. (R691) -/
  | smbStatus
  /-- SMBCLK low for more than 30 ms makes the target release the bus and reset. (R693) -/
  | smbusTimeout
  /-- The free I²C controller starts the first waiting gauge read, transfer or poll. (R695) -/
  | i2cTransaction
  /-- An I²C transaction ends OK or NACK and records its result. (R694) -/
  | i2cTransactionEnd (ack : Bool) (data : List (BitVec 8))
  /-- Clock stretching beyond 25 ms abandons the transaction with TIMEOUT. (R694) -/
  | i2cStretchTimeout (sdaLow : Bool)
  /-- A bus-clear attempt pulses SCL until SDA is released or nine pulses fail. (R698) -/
  | busClearAttempt (pulses : Fin 11)
  /-- A write of MGT_I2CCTL.RESET resets the I²C controller and checks the bus. (R698) -/
  | i2cReset (r : Requester) (v : BitVec 32) (sdaLow : Bool)
  /-- A write of MGT_I2CCTL.CLEAR runs three new bus-clear attempts. (R699) -/
  | i2cClear (r : Requester) (v : BitVec 32)
  /-- TAP instruction EXTEST, a boundary-scan hold. (R700) -/
  | tapExtest
  /-- TAP instruction SAMPLE/PRELOAD. (R700) -/
  | tapSample
  /-- TAP instruction selecting the identification register. (R701) -/
  | tapIdcode
  /-- TAP instruction CLAMP, a boundary-scan hold. (R700) -/
  | tapClamp
  /-- TAP instruction HIGHZ, a boundary-scan hold. (R700) -/
  | tapHighz
  /-- IEEE 1149.6 TAP instruction, a boundary-scan hold. (R700) -/
  | tapExtestPulse
  /-- IEEE 1149.6 TAP instruction, a boundary-scan hold. (R700) -/
  | tapExtestTrain
  /-- TAP instruction BYPASS, also taken by reserved codes. (R700) -/
  | tapBypass (code : BitVec 8)
  /-- Entering Test-Logic-Reset ends a boundary-scan hold and completes a warm reset. (R702) -/
  | tapTestLogicReset
  /-- PWROK rises, sampling straps and bringing the device up on the power-up timeline. (R708) -/
  | pwrokRise (straps : BitVec 3) (fref : Bool)
  /-- PWROK falling starts a cold reset. (R705) -/
  | pwrokFall
  /-- A supply below its threshold for 10 µs starts a cold reset. (R753) -/
  | supplySag
  /-- A write of MGT_RSTCTL.WARM starts a warm reset. (R705) -/
  | warmReset (r : Requester) (v : BitVec 32)
  /-- A write of MGT_RSTCTL.FW restarts the boot responder. (R705) -/
  | firmwareReset (r : Requester) (v : BitVec 32)
  /-- PERST# assertion resets the host port, or warm-resets with PERSTWARM set. (R706) -/
  | perst
  /-- A Function Level Reset of PF0 or PF1 resets that function's state. (R707) -/
  | flr (fn : Func)
  /-- A host BAR2 read is translated and performed in a BG slot. (R397) -/
  | bar2Read (fn : Func) (addr : BitVec 39) (len : BitVec 13) (dw0 : BitVec 32)
  /-- A host BAR2 write is translated and performed in a BG slot in arrival order. (R294) -/
  | bar2Write (fn : Func) (addr : BitVec 39) (data : List (BitVec 8)) (poisoned : Bool) (dw0 : BitVec 32)
  /-- A malformed TLP is discarded and reported through AER. (R736) -/
  | malformed (fn : Func) (addr : BitVec 64) (dw0 : BitVec 32)
  /-- A host completion with no outstanding tag is discarded. (R736) -/
  | unexpcpl (fn : Func) (tag : BitVec 10) (dw0 : BitVec 32)
  /-- A host completion arrives for an outstanding device read. (R736) -/
  | hostCompletion (tag : BitVec 10) (ok : Bool) (data : List (BitVec 8))
  /-- A device read to the host without completion in 50 ms ends with HOST_ERR. (R736) -/
  | cpltimeout (tag : BitVec 10)
  /-- Each one-second window restarts the correctable-error counts. (R714) -/
  | cstormWindow
  /-- A write of ERR_CTL.CLRCNT clears the ERR lifetime counters. (R738) -/
  | errClrcnt (r : Requester) (v : BitVec 32)
  /-- A write of ERR_CTL.CLRLOG sets ERR_HEAD to ERR_TAIL. (R723) -/
  | errClrlog (r : Requester) (v : BitVec 32)
  /-- A write of ERR_SDREQ with GO queues the named Sheepdog test. (R724) -/
  | errSdreq (r : Requester) (v : BitVec 32)
  /-- Sheepdog starts a march test of an SRAM bank once it is eligible. (R725) -/
  | sdMarch
  /-- Sheepdog starts the array BIST once the core holds no job context. (R725) -/
  | sdAbist
  /-- Sheepdog starts a stack row test in TEST-class slots. (R364) -/
  | sdRow
  /-- Sheepdog starts a bank-engine BIST once the engine is idle. (R725) -/
  | sdEbist
  /-- Sheepdog starts a port PRBS test at the next CAL62 firing. (R725) -/
  | sdPrbs
  /-- A test ends and Sheepdog classifies the unit TRANSIENT or LASTING. (R729) -/
  | sheepdogTestEnd (errors : BitVec 32) (bits : BitVec 32)
  /-- A queued test not eligible within DEFER seconds leaves the queue as DEFERRED. (R728) -/
  | sdDeferred
  /-- A die that has run its FCY pipeline cy of the frame closes its gate, stopping CCLK and BCLK until the next frame boundary; a LATE die instead begins the next frame's FCY at once. (R521) -/
  | fcyComplete (die : Die)
  /-- A quadrant's sensed voltage reaches VREQ or VREQ minus 10 mV, setting VOK and releasing a VOLTAGE hold or letting a pending raise switch PLLs. (R652) -/
  | vokRise (q : Fin 8) (mv : BitVec 11)
  /-- An optical engine's transmit synthesiser finishes settling after a relock, and the engine sends frame and marker codewords again. (R524) -/
  | synthSettled (p : Fin 16)
  /-- A port in LIGHT locks its clock recovery and moves to ALIGN, where it begins sending TRAIN frames. (R498) -/
  | clockRecoveryLock (p : Port)
  /-- A port in ALIGN achieves codeword lock and lane deskew, so that it can decode TRAIN frames and move on to IDENT. (R498) -/
  | codewordLock (p : Port)
  /-- PERST# is deasserted, and host-port link training begins within 1 ms, or at 20 ms after PWROK. (R708) -/
  | perstDeassert
  /-- After a supply sag reset, every supply has been within its recommended range for 1 ms, and the device runs the power-up timeline as from a rise of PWROK. (R753) -/
  | supplyInRange
  /-- FREF starts running after PWROK has risen, and after 1 ms of FREF the later rows of the power-up timeline proceed. (R751) -/
  | frefRunning
  /-- VAUX becomes valid, and within 10 ms the SMBus target answers with READY = 0. (R708) -/
  | vauxValid
  /-- Jusia decides that a held window translation fault becomes an asynchronous exception in the core at the other end of the route. (R411) -/
  | jusiaFaultDecision (d : Stack) (ep : Fin 240)
  /-- Jusia marks a translation-window page MISSING through the mailbox. (R408) -/
  | winMarkMissing (j : JobSlot) (w : Fin 256) (page : BitVec 16)
  deriving DecidableEq, Repr

end Sys2Proof
end

