-- ==== Sys2Proof/Decode.lean ====
section
/-! DEFINITION. The table's words: no row of the opcode table gives bits, so no word spells
a command.  The bundle encodings of R226-R261, which the core commands carry, are decoded in
Machine/Bundle.lean. -/

namespace Sys2Proof

/-- The command that a word of the opcode table spells: none, since its rows give no bits. -/
def decodeTableWord (_nbits _w : Nat) : Option Instr := none

end Sys2Proof
end

