-- ==== Sys2Proof/Machine/Image.lean ====
section
/-! DEFINITION. The typed contents of a configuration image: one record per section
type, as the sections' layout tables give them (R305-R327, R355, R405, R451-R454, R493,
R502-R505, R534-R537, R548, R558, R559, R696). -/

namespace Sys2Proof.Machine

open Sys2Proof

/-- One entry of the PHASE section (R310). -/
structure PhaseCfg where
  minMult : Nat
  dlat : Nat
  start : Nat
  deriving DecidableEq, Repr

/-- A port binding of one stream plane (R312). -/
structure PortBind where
  route : Nat
  user : Nat
  out : Bool
  deriving DecidableEq, Repr

/-- A feeder entry of one feeder plane (R312, R297). -/
structure FeederCfg where
  decl : Bool
  fromPort : Bool
  port : Nat
  trans : Bool
  base : Nat
  deriving DecidableEq, Repr

/-- A statistic tap (R312, R170). -/
structure TapCfg where
  en : Bool
  cls : Nat
  layerMode : Bool
  out : Bool
  port : Nat
  scale : Int
  table : Nat
  deriving DecidableEq, Repr

/-- A scratchpad sink (R312, R274). -/
structure SinkCfg where
  en : Bool
  mbase : Nat
  sbase : Nat
  fmt : Nat
  deriving DecidableEq, Repr

/-- A CORE section (R311): binding p of plane q is entry 32q + p of `binds`, feeder f of
plane q is entry 5q + f of `feeders`. -/
structure CoreCfg where
  core : Nat
  stage : Nat
  savex : Nat
  fherd : Nat
  pxreg : Nat
  vstrm : List W32
  calmask : W64
  depth : List Nat
  binds : List PortBind
  feeders : List FeederCfg
  taps : List TapCfg
  sinks : List SinkCfg
  bundles : List (BitVec 128)
  deriving DecidableEq, Repr

/-- A route (R314); a hop is its output and its lane. -/
structure RouteCfg where
  src : Nat
  dst : Nat
  offs : BitVec 16
  slane : Nat
  tile : Bool
  hops : List (Nat × Nat)
  deriving DecidableEq, Repr

/-- A stack endpoint descriptor (R356); `kind` is its KIND byte. -/
structure EpCfg where
  typ : Nat
  kind : Byte
  route : Nat
  base : Nat
  sbase : Nat
  tfirst : Nat
  str : List Int
  cnt : List Nat
  deriving DecidableEq, Repr

/-- A BANKSCHED section (R355): byte g of a schedule entry is the owner of group g. -/
structure BankSchedCfg where
  stack : Nat
  phase : Nat
  entries : List (BitVec 128)
  eps : List EpCfg
  deriving DecidableEq, Repr

/-- A CALENDAR entry (R493). -/
structure CalCfg where
  comp : Nat
  period : Nat
  phase : Nat
  deriving DecidableEq, Repr

/-- An allocation of a template (R504). -/
structure AllocCfg where
  chan : Nat
  route : Nat
  count : Nat
  cls : Nat
  deriving DecidableEq, Repr

/-- A landing channel (R505). -/
structure ChanCfg where
  port : Nat
  route : Nat
  depth : Nat
  deriving DecidableEq, Repr

/-- The fabric tables (R502): entry 1024p + n of `tx` and `rx` is port p, slot n;
template t is entry t - 1 of `tpls`. -/
structure FabricCfg where
  hdly : Nat
  remtmo : Nat
  cum : List Nat
  ldly : List Nat
  tx : Tab (BitVec 16)
  rx : Tab (BitVec 16)
  tpls : List (List AllocCfg)
  chans : List ChanCfg
  fwd : List (Nat × Nat)
  deriving DecidableEq, Repr

/-- A herd (R535). -/
structure HerdCfg where
  axmask : BitVec 4
  lo : List Nat
  ext : List Nat
  thresh : Nat
  deriving DecidableEq, Repr

/-- A collective (R537). -/
structure CollCfg where
  herd : Nat
  op : Nat
  raw32 : Bool
  red : Nat
  fin : Byte
  h : Nat
  win : Nat
  sfix : Int
  nt : Nat
  chunk : Nat
  nbuf : Nat
  root : Nat
  stg : Nat
  inroute : Nat
  outroute : Nat
  start : Nat
  close : Nat
  linkbase : Nat
  nlink : Nat
  stream : W32
  tfirst : Nat
  deriving DecidableEq, Repr

/-- A link entry (R536). -/
structure LinkCfg where
  peer : Nat
  route : Nat
  chan : Nat
  deriving DecidableEq, Repr

/-- The HERD section (R534). -/
structure HerdSect where
  herds : List HerdCfg
  colls : List CollCfg
  links : List LinkCfg
  deriving DecidableEq, Repr

/-- A Mule table (R558). -/
structure MuleCfg where
  herd : Nat
  k : Nat
  nexp : Nat
  q : Nat
  nex : Nat
  pw : Nat
  i16 : Bool
  openCal : Nat
  dclose : Nat
  rclose : Nat
  stg : Nat
  dinroute : Nat
  retroute : Nat
  resroute : Nat
  coutroute : Nat
  gscale : Int
  rscale : Int
  cscale : Int
  expbase : Nat
  tmax : Nat
  twords : Nat
  deriving DecidableEq, Repr

/-- The MULE section: tables, and expert entries as owner rank and DELROUTE (R558, R559). -/
structure MuleSect where
  tabs : List MuleCfg
  experts : List (Nat × Nat)
  deriving DecidableEq, Repr

/-- A bubble window (R317). -/
structure WindowCfg where
  openCal : Nat
  closeCal : Nat
  test : Bool
  margin : Nat
  cores : BitVec 256
  deriving DecidableEq, Repr

/-- A detour variant (R323) with its replacement fabric tables, if any. -/
structure VariantCfg where
  kind : Nat
  failed : Nat
  port : Nat
  spare : Nat
  fabric : Option FabricCfg
  deriving DecidableEq, Repr

/-- The CHIPMAP section (R322). -/
structure ChipMapCfg where
  logical : List Nat
  spares : List Nat
  variants : List VariantCfg
  deriving DecidableEq, Repr

/-- A translation window (R405). -/
structure WinCfg where
  stack : Nat
  r : Bool
  w : Bool
  big : Bool
  ipage : Nat
  npage : Nat
  vbase : Nat
  deriving DecidableEq, Repr

/-- A PRESET entry (R548). -/
structure PresetCfg where
  coll : Nat
  pscale : Int
  deriving DecidableEq, Repr

/-- A staging region (R318). -/
structure StagingCfg where
  cluster : Nat
  owner : Nat
  owneridx : Nat
  offset : Nat
  length : Nat
  deriving DecidableEq, Repr

/-- A poll entry of the MGMT section (R696). -/
structure PollCfg where
  addr : Nat
  reg : Byte
  len : Nat
  period : Nat
  deriving DecidableEq, Repr

/-- The MGMT section (R696). -/
structure MgmtCfg where
  source : Bool
  polls : List PollCfg
  deriving DecidableEq, Repr

/-- The GRANT section (R319); `raw` is the whole section, which R340 compares. -/
structure GrantCfg where
  cores : BitVec 256
  cal : W64
  offs : BitVec 16
  ports : List W32
  endpoints : List (BitVec 240)
  raw : List Byte
  deriving DecidableEq, Repr

/-- A cadence group (R452). -/
structure GroupCfg where
  period : Nat
  offset : Nat
  lag : Nat
  pmax : Nat
  deriving DecidableEq, Repr

/-- A factor block (R453). -/
structure BlockCfg where
  group : Nat
  lp : Nat
  n : Nat
  damp : Nat
  imax : Nat
  tol : Nat
  rh : Nat
  bshift : Nat
  stack : Nat
  rscale : Int
  kk : Nat
  side : Nat
  layer : Nat
  bases : List Nat
  hdr : Nat
  deriving DecidableEq, Repr

/-- The SECOND section (R451-R454). -/
structure SecondCfg where
  subk : Nat
  substream : W32
  stepwaddr : Nat
  startcal : Nat
  lrs : Int
  nshift : Nat
  stepwcores : BitVec 256
  mbmin : Nat
  mbmax : Nat
  mbinit : Nat
  steermin : Nat
  ndp : Nat
  tpm : Nat
  knum : Nat
  gcap : Nat
  groups : List GroupCfg
  blocks : List BlockCfg
  points : List (Nat × Nat)
  deriving DecidableEq, Repr

/-- A whole image (R304-R308): header fields and the sections it holds. -/
structure Image where
  slotb : Bool
  debug : Bool
  portex : Bool
  partImg : Bool
  id : W64
  baseId : W64
  seed : W64
  phases : List PhaseCfg
  cores : List CoreCfg
  routes : List RouteCfg
  scheds : List BankSchedCfg
  cals : List CalCfg
  fabric : Option FabricCfg
  herd : Option HerdSect
  mule : Option MuleSect
  windows : List WindowCfg
  chipmap : Option ChipMapCfg
  xltwin : Option (List WinCfg)
  preset : List PresetCfg
  staging : List StagingCfg
  mgmt : Option MgmtCfg
  grant : Option GrantCfg
  second : Option SecondCfg
  deriving DecidableEq, Repr

end Sys2Proof.Machine
end

