-- ==== Sys2Proof/Config.lean ====
section
/-! DEFINITION. What an implementation fixes: the free values that the spec leaves open
(no body, so no proof can see them), the cryptographic functions that the spec takes from
FIPS standards (no body either), and the fuses of the modelled part. -/

namespace Sys2Proof

/-- The fuses and the retirement fuses (R4, R23, R328, R647, R653, R711, R732). -/
structure Fuses where
  es : Bool
  spareW : BitVec 4
  spareE : BitVec 4
  serial : W64
  vendor : BitVec 16
  maxMult : BitVec 5
  vtab : List (BitVec 11)
  ilim : List (BitVec 16)
  keyHash : List (BitVec 384)
  owner : BitVec 4
  revoked : BitVec 4
  debug : Bool
  minSvn : BitVec 16
  deriving DecidableEq, Repr

/-- SHA-384 of FIPS 180, which the spec names and does not define (R328, R330, R631). -/
opaque Config.sha384 : List Byte → BitVec 384

/-- ECDSA P-384 verification of FIPS 186-5 (R328): public key point, message, r, s. -/
opaque Config.ecdsaP384 : List Byte → List Byte → BitVec 384 → BitVec 384 → Bool

/-- ECDSA P-384 verification under the vendor's key (R686): message, r, s. -/
opaque Config.vendorSig : List Byte → BitVec 384 → BitVec 384 → Bool

/-- The free value of an open register word, one per value of the counter `State.fresh`. -/
opaque Config.freeWord : Nat → BitVec 64

/-- Where the data of a drive command stands that the spec gives no place in device memory, by its place among
the PRP lists of the four drives (R609, log entry 28). -/
opaque Config.savBuffer : Nat → BitVec 64

/-- The period of a comparator of Sheepdog or Jusia, CAL62 or CAL63, and its phase before reduction: the
spec gives neither (R494, log entry 80). -/
opaque Config.servicePeriod : Nat → BitVec 32
opaque Config.servicePhase : Nat → BitVec 64

/-- The fuses of the modelled part. DESIGN CHOICE, inside R23, R648, R653 and R746: a
production part with four spare cores on each die, no owner key and debug images refused. -/
def Config.fuses : Fuses where
  es := false
  spareW := 4
  spareE := 4
  serial := 0
  vendor := 0
  maxMult := 17
  vtab := [700, 710, 720, 730, 740, 750, 760, 780, 800, 820]
  ilim := [500, 500, 500, 500, 500, 500, 500, 500, 560, 1280, 80, 360, 72, 72, 72, 72, 72]
  keyHash := [0, 0, 0, 0, 0]
  owner := 0
  revoked := 0
  debug := false
  minSvn := 0

end Sys2Proof
end

