-- ==== Sys2Proof/Machine/Tab.lean ====
section
/-! DEFINITION. Operations on sparse tables.  A table is in canonical form when its keys
rise strictly and no entry equals what an unlisted key reads as, so that equal contents are
equal data.  Words and bytes are written by `Tab.put`, which keeps that form; records of
units, which never go back to unlisted, are written by `Tab.ins`. -/

namespace Sys2Proof.Machine

open Sys2Proof

/-- The entry at a key; `d` says what an unlisted key reads as. -/
def Tab.look {α : Type} (d : Nat → α) (t : Tab α) (k : Nat) : α :=
  ((t.find? (·.1 == k)).map (·.2)).getD (d k)

/-- Write an entry at its place in the rising order of keys. -/
def Tab.ins {α : Type} (t : Tab α) (k : Nat) (v : α) : Tab α :=
  match t with
  | [] => [(k, v)]
  | (a, b) :: r =>
    if k < a then (k, v) :: (a, b) :: r
    else if a = k then (k, v) :: r
    else (a, b) :: Tab.ins r k v

/-- Unlist a key. -/
def Tab.del {α : Type} (t : Tab α) (k : Nat) : Tab α := t.filter (·.1 != k)

/-- Write an entry, unlisting the key when the entry is what an unlisted key reads as. -/
def Tab.put {α : Type} [DecidableEq α] (d : Nat → α) (t : Tab α) (k : Nat) (v : α) : Tab α :=
  if v = d k then Tab.del t k else Tab.ins t k v

/-- The canonical form. -/
def Tab.wf {α : Type} [DecidableEq α] (d : Nat → α) (t : Tab α) : Bool :=
  decide (t.Pairwise (·.1 < ·.1)) && t.all (fun e => e.2 != d e.1)

/-- Write consecutive entries from a key on. -/
def Tab.putList {α : Type} [DecidableEq α] (d : Nat → α) (t : Tab α) (k : Nat) : List α → Tab α
  | [] => t
  | v :: r => Tab.putList d (Tab.put d t k v) (k + 1) r

/-- The entries of `n` consecutive keys from `k` on. -/
def Tab.window {α : Type} (t : Tab α) (k n : Nat) : Tab α :=
  t.filter fun e => decide (k ≤ e.1) && decide (e.1 < k + n)

/-- Read `n` consecutive entries from a key on. -/
def Tab.lookList {α : Type} (d : Nat → α) (t : Tab α) (k n : Nat) : List α :=
  (List.range n).map fun i => Tab.look d (Tab.window t k n) (k + i)

/-- The keys of a table. -/
def Tab.keys {α : Type} (t : Tab α) : List Nat := t.map (·.1)

/-- Unlist every key that a test names. -/
def Tab.drop {α : Type} (t : Tab α) (p : Nat → Bool) : Tab α := t.filter (fun e => !p e.1)

end Sys2Proof.Machine
end

