-- ==== Sys2Proof/Machine/RegMap.lean ====
section
/-! DEFINITION. The register map of BAR0 below the core windows (R739-R741): the address of
each register, the place of each field, and for each register the masks of its RW and W1C
bits and its cold-reset value, written from the field maps of the chapters (R121, R174, R223, R441,
R603, R641, R709, R737). -/

namespace Sys2Proof.Machine

open Sys2Proof

/-- A field of a control register: its BAR0 address, lowest bit and width. -/
structure Fld where
  off : Nat
  lo : Nat
  width : Nat
  deriving DecidableEq, Repr

/-- A run of registers: first address, two counts and strides, RW bits, W1C bits, reset. -/
structure RegRow where
  base : Nat
  count : Nat
  stride : Nat
  count2 : Nat
  rw : W32
  w1c : W32
  reset : W32
  deriving DecidableEq, Repr

/-! ### Addresses -/

/-- IMG_CTL. -/
def rImgCtl : Nat := 0x200000
/-- IMG_STATUS. -/
def rImgStatus : Nat := 0x200004
/-- IMG_SRC_LO. -/
def rImgSrcLo : Nat := 0x200008
/-- IMG_SRC_HI. -/
def rImgSrcHi : Nat := 0x20000C
/-- IMG_LEN. -/
def rImgLen : Nat := 0x200010
/-- IMG_DRV. -/
def rImgDrv : Nat := 0x200014
/-- IMG_LBA_LO. -/
def rImgLbaLo : Nat := 0x200018
/-- IMG_LBA_HI. -/
def rImgLbaHi : Nat := 0x20001C
/-- IMG_APPLYT_LO. -/
def rImgApplytLo : Nat := 0x200020
/-- IMG_APPLYT_HI. -/
def rImgApplytHi : Nat := 0x200024
/-- IMG_IDA_LO. -/
def rImgIdaLo : Nat := 0x200028
/-- IMG_IDA_HI. -/
def rImgIdaHi : Nat := 0x20002C
/-- IMG_IDB_LO. -/
def rImgIdbLo : Nat := 0x200030
/-- IMG_IDB_HI. -/
def rImgIdbHi : Nat := 0x200034
/-- IMG_FORCECNT. -/
def rImgForcecnt : Nat := 0x200038
/-- IMG_KEYS. -/
def rImgKeys : Nat := 0x20003C
/-- IMG_DIGESTn. -/
def rImgDigest (n : Nat) : Nat := 0x200040 + 4 * n
/-- MEM_STATUS. -/
def rMemStatus : Nat := 0x500000
/-- MEM_CTL. -/
def rMemCtl : Nat := 0x500004
/-- MEM_SAVEDL. -/
def rMemSavedl : Nat := 0x500008
/-- MEM_BGCFGc. -/
def rMemBgcfg (n : Nat) : Nat := 0x500010 + 4 * n
/-- MEM_BGLVLd. -/
def rMemBglvl (n : Nat) : Nat := 0x500040 + 4 * n
/-- MEM_ECCd. -/
def rMemEcc (n : Nat) : Nat := 0x500100 + 32 * n
/-- MEM_SPAREd. -/
def rMemSpare (n : Nat) : Nat := 0x500104 + 32 * n
/-- MEM_BEDONEd. -/
def rMemBedone (n : Nat) : Nat := 0x500108 + 32 * n
/-- MEM_BEREJd. -/
def rMemBerej (n : Nat) : Nat := 0x50010C + 32 * n
/-- MEM_BERETd_LO. -/
def rMemBeretLo (n : Nat) : Nat := 0x500110 + 32 * n
/-- MEM_BERETd_HI. -/
def rMemBeretHi (n : Nat) : Nat := 0x500114 + 32 * n
/-- MEM_SATd. -/
def rMemSat (n : Nat) : Nat := 0x500118 + 32 * n
/-- MEM_HRBASE_LO. -/
def rMemHrbaseLo : Nat := 0x500200
/-- MEM_HRBASE_HI. -/
def rMemHrbaseHi : Nat := 0x500204
/-- MEM_HRSIZE. -/
def rMemHrsize : Nat := 0x500208
/-- MEM_HRHEAD. -/
def rMemHrhead : Nat := 0x50020C
/-- MEM_HRTAIL. -/
def rMemHrtail : Nat := 0x500210
/-- XLT_STATUS. -/
def rXltStatus : Nat := 0x300000
/-- XLT_CTL. -/
def rXltCtl : Nat := 0x300004
/-- XLT_TBASEA_LO. -/
def rXltTbaseaLo : Nat := 0x300008
/-- XLT_TBASEA_HI. -/
def rXltTbaseaHi : Nat := 0x30000C
/-- XLT_TBASEB_LO. -/
def rXltTbasebLo : Nat := 0x300010
/-- XLT_TBASEB_HI. -/
def rXltTbasebHi : Nat := 0x300014
/-- XLT_B2BASE. -/
def rXltB2base : Nat := 0x300018
/-- XLT_INV. -/
def rXltInv : Nat := 0x30001C
/-- XLT_INVVA_LO. -/
def rXltInvvaLo : Nat := 0x300020
/-- XLT_INVVA_HI. -/
def rXltInvvaHi : Nat := 0x300024
/-- XLT_TIMEOUT. -/
def rXltTimeout : Nat := 0x300028
/-- XLT_MISSCNT. -/
def rXltMisscnt : Nat := 0x30002C
/-- XLT_FLTCNT. -/
def rXltFltcnt : Nat := 0x300030
/-- XLT_WMISS. -/
def rXltWmiss : Nat := 0x300034
/-- XLT_ABANDON. -/
def rXltAbandon : Nat := 0x300038
/-- XLT_BMAPn. -/
def rXltBmap (n : Nat) : Nat := 0x300040 + 4 * n
/-- DMA_STATUS. -/
def rDmaStatus : Nat := 0x400000
/-- DMA_SATTOT. -/
def rDmaSattot : Nat := 0x400004
/-- DMA_DOMTOT. -/
def rDmaDomtot : Nat := 0x400008
/-- DMA_CTL. -/
def rDmaCtl : Nat := 0x40000C
/-- DMA_CHn_CTL. -/
def rDmaChCtl (n : Nat) : Nat := 0x400100 + 64 * n
/-- DMA_CHn_STATUS. -/
def rDmaChStatus (n : Nat) : Nat := 0x400104 + 64 * n
/-- DMA_CHn_BASE_LO. -/
def rDmaChBaseLo (n : Nat) : Nat := 0x400108 + 64 * n
/-- DMA_CHn_BASE_HI. -/
def rDmaChBaseHi (n : Nat) : Nat := 0x40010C + 64 * n
/-- DMA_CHn_SIZE. -/
def rDmaChSize (n : Nat) : Nat := 0x400110 + 64 * n
/-- DMA_CHn_HEAD. -/
def rDmaChHead (n : Nat) : Nat := 0x400114 + 64 * n
/-- DMA_CHn_TAIL. -/
def rDmaChTail (n : Nat) : Nat := 0x400118 + 64 * n
/-- DMA_CHn_PROG. -/
def rDmaChProg (n : Nat) : Nat := 0x40011C + 64 * n
/-- DMA_CHn_DONE. -/
def rDmaChDone (n : Nat) : Nat := 0x400120 + 64 * n
/-- BWT_SOCTL. -/
def rBwtSoctl : Nat := 0xA00800
/-- BWT_SOMB. -/
def rBwtSomb : Nat := 0xA00804
/-- BWT_SOMBAPPLY. -/
def rBwtSombapply : Nat := 0xA00808
/-- BWT_SOLATE. -/
def rBwtSolate : Nat := 0xA0080C
/-- BWT_SOREJ. -/
def rBwtSorej : Nat := 0xA00810
/-- BWT_SOCADg. -/
def rBwtSocad (n : Nat) : Nat := 0xA00840 + 16 * n
/-- BWT_SOROUNDg. -/
def rBwtSoround (n : Nat) : Nat := 0xA00844 + 16 * n
/-- BWT_SODONEg. -/
def rBwtSodone (n : Nat) : Nat := 0xA00848 + 16 * n
/-- BWT_SOGSTATg. -/
def rBwtSogstat (n : Nat) : Nat := 0xA0084C + 16 * n
/-- FAB_TIME_LO. -/
def rFabTimeLo : Nat := 0x600000
/-- FAB_TIME_HI. -/
def rFabTimeHi : Nat := 0x600004
/-- FAB_TSTAT. -/
def rFabTstat : Nat := 0x600008
/-- FAB_TCTL. -/
def rFabTctl : Nat := 0x60000C
/-- FAB_TSET_LO. -/
def rFabTsetLo : Nat := 0x600010
/-- FAB_TSET_HI. -/
def rFabTsetHi : Nat := 0x600014
/-- FAB_PCHIP. -/
def rFabPchip : Nat := 0x600018
/-- FAB_GATE. -/
def rFabGate : Nat := 0x60001C
/-- FAB_LATECNT. -/
def rFabLatecnt : Nat := 0x600020
/-- FAB_REMCNT. -/
def rFabRemcnt : Nat := 0x600024
/-- CALn_NEXT_LO. -/
def rCalNextLo (n : Nat) : Nat := 0xE00000 + 16 * n
/-- CALn_NEXT_HI. -/
def rCalNextHi (n : Nat) : Nat := 0xE00004 + 16 * n
/-- CALn_PERIOD. -/
def rCalPeriod (n : Nat) : Nat := 0xE00008 + 16 * n
/-- CALn_CFG. -/
def rCalCfg (n : Nat) : Nat := 0xE0000C + 16 * n
/-- HRD_STATUS. -/
def rHrdStatus : Nat := 0x800000
/-- HRD_SATTOT. -/
def rHrdSattot : Nat := 0x800004
/-- HRD_INCOMP. -/
def rHrdIncomp : Nat := 0x800008
/-- HRD_STALE. -/
def rHrdStale : Nat := 0x80000C
/-- HRD_CTL. -/
def rHrdCtl : Nat := 0x800010
/-- HRD_HRANKg. -/
def rHrdHrank (n : Nat) : Nat := 0x800100 + 8 * n
/-- HRD_HSIZEg. -/
def rHrdHsize (n : Nat) : Nat := 0x800104 + 8 * n
/-- HRD_COLLc. -/
def rHrdColl (n : Nat) : Nat := 0x801000 + 4 * n
/-- MUL_CTL. -/
def rMulCtl : Nat := 0x900000
/-- MUL_DROPt. -/
def rMulDrop (n : Nat) : Nat := 0x900100 + 32 * n
/-- MUL_LOSTt. -/
def rMulLost (n : Nat) : Nat := 0x900104 + 32 * n
/-- MUL_LATEt. -/
def rMulLate (n : Nat) : Nat := 0x900108 + 32 * n
/-- MUL_BADt. -/
def rMulBad (n : Nat) : Nat := 0x90010C + 32 * n
/-- MUL_STEPt. -/
def rMulStep (n : Nat) : Nat := 0x900110 + 32 * n
/-- MUL_EXCHt. -/
def rMulExch (n : Nat) : Nat := 0x900114 + 32 * n
/-- BWT_CTL. -/
def rBwtCtl : Nat := 0xA00000
/-- BWT_STATUS. -/
def rBwtStatus : Nat := 0xA00004
/-- BWT_CFG. -/
def rBwtCfg : Nat := 0xA00008
/-- BWT_CONSOFF. -/
def rBwtConsoff : Nat := 0xA0000C
/-- BWT_CPBASE_LO. -/
def rBwtCpbaseLo : Nat := 0xA00010
/-- BWT_CPBASE_HI. -/
def rBwtCpbaseHi : Nat := 0xA00014
/-- BWT_CPLEN. -/
def rBwtCplen : Nat := 0xA00018
/-- BWT_CLBASE_LO. -/
def rBwtClbaseLo : Nat := 0xA00020
/-- BWT_CLBASE_HI. -/
def rBwtClbaseHi : Nat := 0xA00024
/-- BWT_CLLEN. -/
def rBwtCllen : Nat := 0xA00028
/-- BWT_SLBASE_LO. -/
def rBwtSlbaseLo : Nat := 0xA00030
/-- BWT_SLBASE_HI. -/
def rBwtSlbaseHi : Nat := 0xA00034
/-- BWT_SLLEN. -/
def rBwtSllen : Nat := 0xA00038
/-- BWT_STEP_LO. -/
def rBwtStepLo : Nat := 0xA00040
/-- BWT_STEP_HI. -/
def rBwtStepHi : Nat := 0xA00044
/-- BWT_LAST_LO. -/
def rBwtLastLo : Nat := 0xA00048
/-- BWT_LAST_HI. -/
def rBwtLastHi : Nat := 0xA0004C
/-- BWT_DEC. -/
def rBwtDec : Nat := 0xA00050
/-- BWT_RSTEP_LO. -/
def rBwtRstepLo : Nat := 0xA00058
/-- BWT_RSTEP_HI. -/
def rBwtRstepHi : Nat := 0xA0005C
/-- BWT_RESUMET_LO. -/
def rBwtResumetLo : Nat := 0xA00060
/-- BWT_RESUMET_HI. -/
def rBwtResumetHi : Nat := 0xA00064
/-- BWT_RESOLVE. -/
def rBwtResolve : Nat := 0xA00068
/-- BWT_PSW. -/
def rBwtPsw : Nat := 0xA0006C
/-- BWT_PGRP. -/
def rBwtPgrp : Nat := 0xA00070
/-- BWT_COMMITS. -/
def rBwtCommits : Nat := 0xA00080
/-- BWT_SKIPS. -/
def rBwtSkips : Nat := 0xA00084
/-- BWT_HOLDS. -/
def rBwtHolds : Nat := 0xA00088
/-- BWT_HALTS. -/
def rBwtHalts : Nat := 0xA0008C
/-- BWT_MISS. -/
def rBwtMiss : Nat := 0xA00090
/-- BWT_LISTLATE. -/
def rBwtListlate : Nat := 0xA00094
/-- BWT_STREAK. -/
def rBwtStreak : Nat := 0xA00098
/-- BWT_WORDn. -/
def rBwtWord (n : Nat) : Nat := 0xA00100 + 4 * n
/-- BWT_OWNn. -/
def rBwtOwn (n : Nat) : Nat := 0xA00140 + 4 * n
/-- BWT_JSRn. -/
def rBwtJsr (n : Nat) : Nat := 0xA00200 + 4 * n
/-- SAV_CTL. -/
def rSavCtl : Nat := 0xB00000
/-- SAV_STATUS. -/
def rSavStatus : Nat := 0xB00004
/-- SAV_CFG. -/
def rSavCfg : Nat := 0xB00008
/-- SAV_PLAN_LO. -/
def rSavPlanLo : Nat := 0xB00010
/-- SAV_PLAN_HI. -/
def rSavPlanHi : Nat := 0xB00014
/-- SAV_PLANLEN. -/
def rSavPlanlen : Nat := 0xB00018
/-- SAV_RING_LO. -/
def rSavRingLo : Nat := 0xB00020
/-- SAV_RING_HI. -/
def rSavRingHi : Nat := 0xB00024
/-- SAV_RINGLEN. -/
def rSavRinglen : Nat := 0xB00028
/-- SAV_QBASE_LO. -/
def rSavQbaseLo : Nat := 0xB00030
/-- SAV_QBASE_HI. -/
def rSavQbaseHi : Nat := 0xB00034
/-- SAV_AREALEN. -/
def rSavArealen : Nat := 0xB00038
/-- SAV_CID_LO. -/
def rSavCidLo : Nat := 0xB00040
/-- SAV_CID_HI. -/
def rSavCidHi : Nat := 0xB00044
/-- SAV_CSTEP_LO. -/
def rSavCstepLo : Nat := 0xB00048
/-- SAV_CSTEP_HI. -/
def rSavCstepHi : Nat := 0xB0004C
/-- SAV_CAPREC. -/
def rSavCaprec : Nat := 0xB00050
/-- SAV_DRNREC. -/
def rSavDrnrec : Nat := 0xB00054
/-- SAV_HOLDCNT. -/
def rSavHoldcnt : Nat := 0xB00058
/-- SAV_REREAD. -/
def rSavReread : Nat := 0xB0005C
/-- SAV_RSTR. -/
def rSavRstr : Nat := 0xB00060
/-- SAV_RSTRERR. -/
def rSavRstrerr : Nat := 0xB00064
/-- SAV_HCFG. -/
def rSavHcfg : Nat := 0xB00070
/-- SAV_HVOLT. -/
def rSavHvolt : Nat := 0xB00074
/-- SAV_HGAUGE. -/
def rSavHgauge : Nat := 0xB00078
/-- SAV_HNEED. -/
def rSavHneed : Nat := 0xB0007C
/-- SAV_HESTV. -/
def rSavHestv : Nat := 0xB00080
/-- SAV_HESTG. -/
def rSavHestg : Nat := 0xB00084
/-- SAV_HSTAT. -/
def rSavHstat : Nat := 0xB00088
/-- SAV_DRVn_CTL. -/
def rSavDrvCtl (n : Nat) : Nat := 0xB00100 + 16 * n
/-- SAV_DRVn_STAT. -/
def rSavDrvStat (n : Nat) : Nat := 0xB00104 + 16 * n
/-- SAV_DRVn_BASE_LO. -/
def rSavDrvBaseLo (n : Nat) : Nat := 0xB00108 + 16 * n
/-- SAV_DRVn_BASE_HI. -/
def rSavDrvBaseHi (n : Nat) : Nat := 0xB0010C + 16 * n
/-- PWR_CAP. -/
def rPwrCap : Nat := 0x100000
/-- PWR_OPPOINT. -/
def rPwrOppoint : Nat := 0x100004
/-- PWR_PHMULT. -/
def rPwrPhmult : Nat := 0x100008
/-- PWR_CEIL. -/
def rPwrCeil : Nat := 0x10000C
/-- PWR_PKG. -/
def rPwrPkg : Nat := 0x100010
/-- PWR_STRETCH. -/
def rPwrStretch : Nat := 0x100014
/-- PWR_HELDW. -/
def rPwrHeldw : Nat := 0x100018
/-- PWR_HELDE. -/
def rPwrHelde : Nat := 0x10001C
/-- PWR_THCFG. -/
def rPwrThcfg : Nat := 0x100020
/-- PWR_THSTAT. -/
def rPwrThstat : Nat := 0x100024
/-- PWR_CTL. -/
def rPwrCtl : Nat := 0x100028
/-- PWR_VQq. -/
def rPwrVq (n : Nat) : Nat := 0x100040 + 4 * n
/-- PWR_VTABn. -/
def rPwrVtab (n : Nat) : Nat := 0x100060 + 4 * n
/-- PWR_ILIMr. -/
def rPwrIlim (n : Nat) : Nat := 0x100100 + 8 * n
/-- PWR_IMEASr. -/
def rPwrImeas (n : Nat) : Nat := 0x100104 + 8 * n
/-- PWR_TEMPs. -/
def rPwrTemp (n : Nat) : Nat := 0x100200 + 4 * n
/-- PWR_OPTq_CTL. -/
def rPwrOptCtl (n : Nat) : Nat := 0x100300 + 8 * n
/-- PWR_OPTq_STAT. -/
def rPwrOptStat (n : Nat) : Nat := 0x100304 + 8 * n
/-- MGT_STRAP. -/
def rMgtStrap : Nat := 0xD00000
/-- MGT_RSTCTL. -/
def rMgtRstctl : Nat := 0xD00004
/-- MGT_RSTSTAT. -/
def rMgtRststat : Nat := 0xD00008
/-- MGT_RSTCFG. -/
def rMgtRstcfg : Nat := 0xD0000C
/-- MGT_FWSTAT. -/
def rMgtFwstat : Nat := 0xD00010
/-- MGT_GPIOCFG. -/
def rMgtGpiocfg : Nat := 0xD00014
/-- MGT_GPIODATA. -/
def rMgtGpiodata : Nat := 0xD00018
/-- MGT_SMBSTAT. -/
def rMgtSmbstat : Nat := 0xD00020
/-- MGT_SMBCFG. -/
def rMgtSmbcfg : Nat := 0xD00024
/-- MGT_I2CCFG. -/
def rMgtI2ccfg : Nat := 0xD00030
/-- MGT_I2CCTL. -/
def rMgtI2cctl : Nat := 0xD00034
/-- MGT_I2CSTAT. -/
def rMgtI2cstat : Nat := 0xD00038
/-- MGT_I2CERR. -/
def rMgtI2cerr : Nat := 0xD0003C
/-- MGT_TAPSTAT. -/
def rMgtTapstat : Nat := 0xD00040
/-- MGT_POLLi_k. -/
def rMgtPoll (n : Nat) (k : Nat) : Nat := 0xD01000 + 64 * n + 4 * k
/-- ERR_STATUS. -/
def rErrStatus : Nat := 0xC00000
/-- ERR_CTL. -/
def rErrCtl : Nat := 0xC00004
/-- ERR_HEAD. -/
def rErrHead : Nat := 0xC00008
/-- ERR_TAIL. -/
def rErrTail : Nat := 0xC0000C
/-- ERR_LOST. -/
def rErrLost : Nat := 0xC00010
/-- ERR_SDCFG. -/
def rErrSdcfg : Nat := 0xC00020
/-- ERR_SDSTAT. -/
def rErrSdstat : Nat := 0xC00024
/-- ERR_SDREQ. -/
def rErrSdreq : Nat := 0xC00028
/-- ERR_SDCNT. -/
def rErrSdcnt : Nat := 0xC0002C
/-- ERR_SDSUB. -/
def rErrSdsub : Nat := 0xC00030
/-- ERR_CLASSCNTc. -/
def rErrClasscnt (n : Nat) : Nat := 0xC00040 + 4 * n
/-- ERR_LOGi_k. -/
def rErrLog (n : Nat) (k : Nat) : Nat := 0xC08000 + 32 * n + 4 * k
/-- CAP_ARCH. -/
def rCapArch : Nat := 0x8
/-- CAP_CONFIG. -/
def rCapConfig : Nat := 0x10
/-- CAP_SERIAL_LO. -/
def rCapSerialLo : Nat := 0x18
/-- CAP_SERIAL_HI. -/
def rCapSerialHi : Nat := 0x1C
/-- CAP_PCIID. -/
def rCapPciid : Nat := 0x20
/-- The first register of a port: FAB_PSTATp for OE0-OE15, BRD_PSTATk for BL0-BL2 (R530). -/
def rPort (n : Nat) : Nat := if n < 16 then 0x600100 + 0x20 * n else 0x700100 + 0x20 * (n - 16)
/-- FAB_PSTATp or BRD_PSTATk. -/
def rFabPstat (n : Nat) : Nat := rPort n + 0
/-- FAB_PCTLp or BRD_PCTLk. -/
def rFabPctl (n : Nat) : Nat := rPort n + 4
/-- FAB_PLOSTp or BRD_PLOSTk. -/
def rFabPlost (n : Nat) : Nat := rPort n + 8
/-- FAB_PDROPp or BRD_PDROPk. -/
def rFabPdrop (n : Nat) : Nat := rPort n + 12
/-- FAB_PUNSp or BRD_PUNSk. -/
def rFabPuns (n : Nat) : Nat := rPort n + 16

/-! ### Fields -/

/-- CAP_ARCH.LEVEL. -/
def fCapArchLevel : Fld := ⟨rCapArch, 0, 8⟩
/-- CAP_ARCH.STEPPING. -/
def fCapArchStepping : Fld := ⟨rCapArch, 8, 8⟩
/-- CAP_ARCH.ES. -/
def fCapArchEs : Fld := ⟨rCapArch, 16, 1⟩
/-- CAP_CONFIG.CORES_W. -/
def fCapConfigCores_w : Fld := ⟨rCapConfig, 0, 8⟩
/-- CAP_CONFIG.CORES_E. -/
def fCapConfigCores_e : Fld := ⟨rCapConfig, 8, 8⟩
/-- CAP_CONFIG.SPARE_W. -/
def fCapConfigSpare_w : Fld := ⟨rCapConfig, 16, 4⟩
/-- CAP_CONFIG.SPARE_E. -/
def fCapConfigSpare_e : Fld := ⟨rCapConfig, 20, 4⟩
/-- CAP_CONFIG.STACKS. -/
def fCapConfigStacks : Fld := ⟨rCapConfig, 24, 4⟩
/-- CAP_CONFIG.CPROC. -/
def fCapConfigCproc : Fld := ⟨rCapConfig, 28, 3⟩
/-- IMG_CTL.GO. -/
def fImgCtlGo : Fld := ⟨rImgCtl, 0, 1⟩
/-- IMG_CTL.ABORT. -/
def fImgCtlAbort : Fld := ⟨rImgCtl, 1, 1⟩
/-- IMG_CTL.FORCE. -/
def fImgCtlForce : Fld := ⟨rImgCtl, 2, 1⟩
/-- IMG_CTL.DEFAULT. -/
def fImgCtlDefault : Fld := ⟨rImgCtl, 3, 1⟩
/-- IMG_CTL.SRC. -/
def fImgCtlSrc : Fld := ⟨rImgCtl, 4, 2⟩
/-- IMG_CTL.SLOT. -/
def fImgCtlSlot : Fld := ⟨rImgCtl, 6, 1⟩
/-- IMG_CTL.FORCEOPT. -/
def fImgCtlForceopt : Fld := ⟨rImgCtl, 7, 1⟩
/-- IMG_CTL.VARIANT. -/
def fImgCtlVariant : Fld := ⟨rImgCtl, 8, 12⟩
/-- IMG_STATUS.STATE. -/
def fImgStatusState : Fld := ⟨rImgStatus, 0, 4⟩
/-- IMG_STATUS.CODE. -/
def fImgStatusCode : Fld := ⟨rImgStatus, 4, 8⟩
/-- IMG_STATUS.SLOT. -/
def fImgStatusSlot : Fld := ⟨rImgStatus, 12, 1⟩
/-- IMG_STATUS.DONE. -/
def fImgStatusDone : Fld := ⟨rImgStatus, 13, 1⟩
/-- IMG_DRV.DRIVE. -/
def fImgDrvDrive : Fld := ⟨rImgDrv, 0, 2⟩
/-- IMG_KEYS.VENDOR. -/
def fImgKeysVendor : Fld := ⟨rImgKeys, 0, 1⟩
/-- IMG_KEYS.OWNER. -/
def fImgKeysOwner : Fld := ⟨rImgKeys, 1, 4⟩
/-- IMG_KEYS.REVOKED. -/
def fImgKeysRevoked : Fld := ⟨rImgKeys, 5, 4⟩
/-- IMG_KEYS.DEBUG. -/
def fImgKeysDebug : Fld := ⟨rImgKeys, 9, 1⟩
/-- MEM_STATUS.READY. -/
def fMemStatusReady : Fld := ⟨rMemStatus, 0, 8⟩
/-- MEM_STATUS.RETIRED. -/
def fMemStatusRetired : Fld := ⟨rMemStatus, 8, 8⟩
/-- MEM_CTL.CLRCNT. -/
def fMemCtlClrcnt : Fld := ⟨rMemCtl, 0, 1⟩
/-- MEM_CTL.SCRUBEN. -/
def fMemCtlScruben : Fld := ⟨rMemCtl, 1, 1⟩
/-- MEM_SAVEDL.HIGHTK. -/
def fMemSavedlHightk : Fld := ⟨rMemSavedl, 0, 16⟩
/-- MEM_SAVEDL.URGTK. -/
def fMemSavedlUrgtk : Fld := ⟨rMemSavedl, 16, 16⟩
/-- MEM_BGCFGc.BASE. -/
def fMemBgcfgBase (n : Nat) : Fld := ⟨rMemBgcfg n, 0, 2⟩
/-- MEM_BGCFGc.AGE1. -/
def fMemBgcfgAge1 (n : Nat) : Fld := ⟨rMemBgcfg n, 2, 8⟩
/-- MEM_BGCFGc.AGE2. -/
def fMemBgcfgAge2 (n : Nat) : Fld := ⟨rMemBgcfg n, 10, 10⟩
/-- MEM_BGCFGc.AGE3. -/
def fMemBgcfgAge3 (n : Nat) : Fld := ⟨rMemBgcfg n, 20, 12⟩
/-- MEM_BGLVLd.LEVEL. -/
def fMemBglvlLevel (n : Nat) : Fld := ⟨rMemBglvl n, 0, 14⟩
/-- MEM_ECCd.CORR. -/
def fMemEccCorr (n : Nat) : Fld := ⟨rMemEcc n, 0, 16⟩
/-- MEM_ECCd.UNCORR. -/
def fMemEccUncorr (n : Nat) : Fld := ⟨rMemEcc n, 16, 16⟩
/-- MEM_SPAREd.USED. -/
def fMemSpareUsed (n : Nat) : Fld := ⟨rMemSpare n, 0, 16⟩
/-- MEM_SPAREd.NOSPARE. -/
def fMemSpareNospare (n : Nat) : Fld := ⟨rMemSpare n, 16, 16⟩
/-- MEM_HRSIZE.LOG2. -/
def fMemHrsizeLog2 : Fld := ⟨rMemHrsize, 0, 5⟩
/-- MEM_HRHEAD.HEAD. -/
def fMemHrheadHead : Fld := ⟨rMemHrhead, 0, 16⟩
/-- MEM_HRTAIL.TAIL. -/
def fMemHrtailTail : Fld := ⟨rMemHrtail, 0, 16⟩
/-- XLT_STATUS.INVBUSY. -/
def fXltStatusInvbusy : Fld := ⟨rXltStatus, 0, 1⟩
/-- XLT_STATUS.BLOADED. -/
def fXltStatusBloaded : Fld := ⟨rXltStatus, 1, 1⟩
/-- XLT_CTL.B2XLT. -/
def fXltCtlB2xlt : Fld := ⟨rXltCtl, 0, 1⟩
/-- XLT_CTL.CLRCNT. -/
def fXltCtlClrcnt : Fld := ⟨rXltCtl, 1, 1⟩
/-- XLT_B2BASE.BASEG. -/
def fXltB2baseBaseg : Fld := ⟨rXltB2base, 0, 9⟩
/-- XLT_INV.SCOPE. -/
def fXltInvScope : Fld := ⟨rXltInv, 0, 2⟩
/-- XLT_INV.SLOT. -/
def fXltInvSlot : Fld := ⟨rXltInv, 2, 1⟩
/-- XLT_TIMEOUT.SLOTS. -/
def fXltTimeoutSlots : Fld := ⟨rXltTimeout, 0, 16⟩
/-- XLT_FLTCNT.WIN. -/
def fXltFltcntWin : Fld := ⟨rXltFltcnt, 0, 16⟩
/-- XLT_FLTCNT.BUF. -/
def fXltFltcntBuf : Fld := ⟨rXltFltcnt, 16, 16⟩
/-- XLT_WMISS.A. -/
def fXltWmissA : Fld := ⟨rXltWmiss, 0, 16⟩
/-- XLT_WMISS.B. -/
def fXltWmissB : Fld := ⟨rXltWmiss, 16, 16⟩
/-- DMA_STATUS.RUN. -/
def fDmaStatusRun : Fld := ⟨rDmaStatus, 0, 16⟩
/-- DMA_STATUS.STOP. -/
def fDmaStatusStop : Fld := ⟨rDmaStatus, 16, 16⟩
/-- DMA_CTL.CLRCNT. -/
def fDmaCtlClrcnt : Fld := ⟨rDmaCtl, 0, 1⟩
/-- DMA_CHn_CTL.EN. -/
def fDmaChCtlEn (n : Nat) : Fld := ⟨rDmaChCtl n, 0, 1⟩
/-- DMA_CHn_CTL.RESUME. -/
def fDmaChCtlResume (n : Nat) : Fld := ⟨rDmaChCtl n, 1, 1⟩
/-- DMA_CHn_CTL.SKIP. -/
def fDmaChCtlSkip (n : Nat) : Fld := ⟨rDmaChCtl n, 2, 1⟩
/-- DMA_CHn_CTL.SLOT. -/
def fDmaChCtlSlot (n : Nat) : Fld := ⟨rDmaChCtl n, 3, 1⟩
/-- DMA_CHn_STATUS.STATE. -/
def fDmaChStatusState (n : Nat) : Fld := ⟨rDmaChStatus n, 0, 2⟩
/-- DMA_CHn_STATUS.CODE. -/
def fDmaChStatusCode (n : Nat) : Fld := ⟨rDmaChStatus n, 2, 8⟩
/-- DMA_CHn_SIZE.LOG2. -/
def fDmaChSizeLog2 (n : Nat) : Fld := ⟨rDmaChSize n, 0, 5⟩
/-- DMA_CHn_HEAD.HEAD. -/
def fDmaChHeadHead (n : Nat) : Fld := ⟨rDmaChHead n, 0, 16⟩
/-- DMA_CHn_TAIL.TAIL. -/
def fDmaChTailTail (n : Nat) : Fld := ⟨rDmaChTail n, 0, 16⟩
/-- BWT_SOCTL.EN. -/
def fBwtSoctlEn : Fld := ⟨rBwtSoctl, 0, 1⟩
/-- BWT_SOCTL.NGRP. -/
def fBwtSoctlNgrp : Fld := ⟨rBwtSoctl, 1, 7⟩
/-- BWT_SOMB.CUR. -/
def fBwtSombCur : Fld := ⟨rBwtSomb, 0, 13⟩
/-- BWT_SOMB.NEXT. -/
def fBwtSombNext : Fld := ⟨rBwtSomb, 13, 13⟩
/-- BWT_SOREJ.COUNT. -/
def fBwtSorejCount : Fld := ⟨rBwtSorej, 0, 16⟩
/-- BWT_SOCADg.PERIOD. -/
def fBwtSocadPeriod (n : Nat) : Fld := ⟨rBwtSocad n, 0, 16⟩
/-- BWT_SOCADg.LAG. -/
def fBwtSocadLag (n : Nat) : Fld := ⟨rBwtSocad n, 16, 16⟩
/-- BWT_SOGSTATg.INROUND. -/
def fBwtSogstatInround (n : Nat) : Fld := ⟨rBwtSogstat n, 0, 1⟩
/-- BWT_SOGSTATg.READY. -/
def fBwtSogstatReady (n : Nat) : Fld := ⟨rBwtSogstat n, 1, 1⟩
/-- BWT_SOGSTATg.RVALID. -/
def fBwtSogstatRvalid (n : Nat) : Fld := ⟨rBwtSogstat n, 2, 1⟩
/-- BWT_SOGSTATg.DVALID. -/
def fBwtSogstatDvalid (n : Nat) : Fld := ⟨rBwtSogstat n, 3, 1⟩
/-- FAB_TSTAT.LOCK. -/
def fFabTstatLock : Fld := ⟨rFabTstat, 0, 1⟩
/-- FAB_TSTAT.FRAMESET. -/
def fFabTstatFrameset : Fld := ⟨rFabTstat, 1, 1⟩
/-- FAB_TSTAT.SOURCE. -/
def fFabTstatSource : Fld := ⟨rFabTstat, 2, 1⟩
/-- FAB_TSTAT.FREFLOST. -/
def fFabTstatFreflost : Fld := ⟨rFabTstat, 3, 1⟩
/-- FAB_TSTAT.MISSING. -/
def fFabTstatMissing : Fld := ⟨rFabTstat, 4, 8⟩
/-- FAB_TSTAT.MARKERR. -/
def fFabTstatMarkerr : Fld := ⟨rFabTstat, 12, 8⟩
/-- FAB_TCTL.APPLY. -/
def fFabTctlApply : Fld := ⟨rFabTctl, 0, 1⟩
/-- FAB_PCHIP.CHIP. -/
def fFabPchipChip : Fld := ⟨rFabPchip, 0, 16⟩
/-- FAB_PCHIP.VALID. -/
def fFabPchipValid : Fld := ⟨rFabPchip, 16, 1⟩
/-- FAB_PCHIP.BIDX. -/
def fFabPchipBidx : Fld := ⟨rFabPchip, 17, 2⟩
/-- FAB_GATE.LATEW. -/
def fFabGateLatew : Fld := ⟨rFabGate, 0, 1⟩
/-- FAB_GATE.LATEE. -/
def fFabGateLatee : Fld := ⟨rFabGate, 1, 1⟩
/-- FAB_LATECNT.WEST. -/
def fFabLatecntWest : Fld := ⟨rFabLatecnt, 0, 16⟩
/-- FAB_LATECNT.EAST. -/
def fFabLatecntEast : Fld := ⟨rFabLatecnt, 16, 16⟩
/-- FAB_REMCNT.LOST. -/
def fFabRemcntLost : Fld := ⟨rFabRemcnt, 0, 16⟩
/-- FAB_REMCNT.STALE. -/
def fFabRemcntStale : Fld := ⟨rFabRemcnt, 16, 16⟩
/-- FAB_PSTATp.STATE. -/
def fFabPstatState (n : Nat) : Fld := ⟨rFabPstat n, 0, 3⟩
/-- FAB_PSTATp.FAIL. -/
def fFabPstatFail (n : Nat) : Fld := ⟨rFabPstat n, 3, 4⟩
/-- FAB_PSTATp.WARN. -/
def fFabPstatWarn (n : Nat) : Fld := ⟨rFabPstat n, 7, 1⟩
/-- FAB_PSTATp.LDLYMIN. -/
def fFabPstatLdlymin (n : Nat) : Fld := ⟨rFabPstat n, 8, 5⟩
/-- FAB_PSTATp.DRIFT. -/
def fFabPstatDrift (n : Nat) : Fld := ⟨rFabPstat n, 13, 8⟩
/-- FAB_PCTLp.EN. -/
def fFabPctlEn (n : Nat) : Fld := ⟨rFabPctl n, 0, 1⟩
/-- FAB_PCTLp.RETRAIN. -/
def fFabPctlRetrain (n : Nat) : Fld := ⟨rFabPctl n, 1, 1⟩
/-- FAB_PCTLp.AUTO. -/
def fFabPctlAuto (n : Nat) : Fld := ⟨rFabPctl n, 2, 1⟩
/-- FAB_PLOSTp.FRAMES. -/
def fFabPlostFrames (n : Nat) : Fld := ⟨rFabPlost n, 0, 16⟩
/-- FAB_PLOSTp.DRIFTDROP. -/
def fFabPlostDriftdrop (n : Nat) : Fld := ⟨rFabPlost n, 16, 16⟩
/-- FAB_PDROPp.TXWORDS. -/
def fFabPdropTxwords (n : Nat) : Fld := ⟨rFabPdrop n, 0, 16⟩
/-- FAB_PDROPp.LANDWORDS. -/
def fFabPdropLandwords (n : Nat) : Fld := ⟨rFabPdrop n, 16, 16⟩
/-- FAB_PUNSp.UNKNOWN. -/
def fFabPunsUnknown (n : Nat) : Fld := ⟨rFabPuns n, 0, 16⟩
/-- FAB_PUNSp.CELLCRC. -/
def fFabPunsCellcrc (n : Nat) : Fld := ⟨rFabPuns n, 16, 16⟩
/-- HRD_STATUS.ACTIVE. -/
def fHrdStatusActive : Fld := ⟨rHrdStatus, 0, 16⟩
/-- HRD_CTL.CLRCNT. -/
def fHrdCtlClrcnt : Fld := ⟨rHrdCtl, 0, 1⟩
/-- HRD_HRANKg.RANK. -/
def fHrdHrankRank (n : Nat) : Fld := ⟨rHrdHrank n, 0, 16⟩
/-- HRD_HRANKg.MEMBER. -/
def fHrdHrankMember (n : Nat) : Fld := ⟨rHrdHrank n, 16, 1⟩
/-- HRD_HSIZEg.N. -/
def fHrdHsizeN (n : Nat) : Fld := ⟨rHrdHsize n, 0, 17⟩
/-- HRD_COLLc.ALG. -/
def fHrdCollAlg (n : Nat) : Fld := ⟨rHrdColl n, 0, 2⟩
/-- HRD_COLLc.ACTIVE. -/
def fHrdCollActive (n : Nat) : Fld := ⟨rHrdColl n, 2, 1⟩
/-- HRD_COLLc.LASTINC. -/
def fHrdCollLastinc (n : Nat) : Fld := ⟨rHrdColl n, 3, 1⟩
/-- HRD_COLLc.PORTEX. -/
def fHrdCollPortex (n : Nat) : Fld := ⟨rHrdColl n, 4, 1⟩
/-- HRD_COLLc.CHUNKS. -/
def fHrdCollChunks (n : Nat) : Fld := ⟨rHrdColl n, 16, 16⟩
/-- MUL_CTL.CLRCNT. -/
def fMulCtlClrcnt : Fld := ⟨rMulCtl, 0, 1⟩
/-- MUL_LATEt.LATE. -/
def fMulLateLate (n : Nat) : Fld := ⟨rMulLate n, 0, 16⟩
/-- MUL_LATEt.DUP. -/
def fMulLateDup (n : Nat) : Fld := ⟨rMulLate n, 16, 16⟩
/-- MUL_BADt.BADDESC. -/
def fMulBadBaddesc (n : Nat) : Fld := ⟨rMulBad n, 0, 16⟩
/-- MUL_BADt.TRANSIT. -/
def fMulBadTransit (n : Nat) : Fld := ⟨rMulBad n, 16, 16⟩
/-- MUL_STEPt.DROPSTEP. -/
def fMulStepDropstep (n : Nat) : Fld := ⟨rMulStep n, 0, 16⟩
/-- MUL_STEPt.LOSTSTEP. -/
def fMulStepLoststep (n : Nat) : Fld := ⟨rMulStep n, 16, 16⟩
/-- MUL_EXCHt.NEXTX. -/
def fMulExchNextx (n : Nat) : Fld := ⟨rMulExch n, 0, 6⟩
/-- MUL_EXCHt.DOPEN. -/
def fMulExchDopen (n : Nat) : Fld := ⟨rMulExch n, 6, 7⟩
/-- MUL_EXCHt.ROPEN. -/
def fMulExchRopen (n : Nat) : Fld := ⟨rMulExch n, 13, 7⟩
/-- BWT_CTL.ARM. -/
def fBwtCtlArm : Fld := ⟨rBwtCtl, 0, 1⟩
/-- BWT_CTL.DISARM. -/
def fBwtCtlDisarm : Fld := ⟨rBwtCtl, 1, 1⟩
/-- BWT_CTL.HALTREQ. -/
def fBwtCtlHaltreq : Fld := ⟨rBwtCtl, 2, 1⟩
/-- BWT_CTL.CLRCNT. -/
def fBwtCtlClrcnt : Fld := ⟨rBwtCtl, 3, 1⟩
/-- BWT_STATUS.STATE. -/
def fBwtStatusState : Fld := ⟨rBwtStatus, 0, 2⟩
/-- BWT_STATUS.UNDEC. -/
def fBwtStatusUndec : Fld := ⟨rBwtStatus, 2, 1⟩
/-- BWT_STATUS.REBUILT. -/
def fBwtStatusRebuilt : Fld := ⟨rBwtStatus, 3, 1⟩
/-- BWT_STATUS.LISTBUSY. -/
def fBwtStatusListbusy : Fld := ⟨rBwtStatus, 4, 1⟩
/-- BWT_STATUS.HCAUSE. -/
def fBwtStatusHcause : Fld := ⟨rBwtStatus, 5, 8⟩
/-- BWT_STATUS.ARMERR. -/
def fBwtStatusArmerr : Fld := ⟨rBwtStatus, 13, 8⟩
/-- BWT_CFG.STARTCAL. -/
def fBwtCfgStartcal : Fld := ⟨rBwtCfg, 0, 6⟩
/-- BWT_CFG.DIGMAX. -/
def fBwtCfgDigmax : Fld := ⟨rBwtCfg, 6, 4⟩
/-- BWT_CFG.PSMAX. -/
def fBwtCfgPsmax : Fld := ⟨rBwtCfg, 10, 7⟩
/-- BWT_CONSOFF.SLOTS. -/
def fBwtConsoffSlots : Fld := ⟨rBwtConsoff, 0, 16⟩
/-- BWT_CPLEN.ENTRIES. -/
def fBwtCplenEntries : Fld := ⟨rBwtCplen, 0, 9⟩
/-- BWT_CLLEN.ENTRIES. -/
def fBwtCllenEntries : Fld := ⟨rBwtCllen, 0, 24⟩
/-- BWT_SLLEN.ENTRIES. -/
def fBwtSllenEntries : Fld := ⟨rBwtSllen, 0, 24⟩
/-- BWT_DEC.KIND. -/
def fBwtDecKind : Fld := ⟨rBwtDec, 0, 2⟩
/-- BWT_DEC.HALTED. -/
def fBwtDecHalted : Fld := ⟨rBwtDec, 2, 1⟩
/-- BWT_RESOLVE.GO. -/
def fBwtResolveGo : Fld := ⟨rBwtResolve, 0, 1⟩
/-- BWT_RESOLVE.DECISION. -/
def fBwtResolveDecision : Fld := ⟨rBwtResolve, 1, 1⟩
/-- BWT_RESOLVE.STEP16. -/
def fBwtResolveStep16 : Fld := ⟨rBwtResolve, 16, 16⟩
/-- BWT_PSW.ADDR. -/
def fBwtPswAddr : Fld := ⟨rBwtPsw, 2, 20⟩
/-- BWT_PSW.PSHIFT. -/
def fBwtPswPshift : Fld := ⟨rBwtPsw, 22, 8⟩
/-- BWT_PGRP.GROUP. -/
def fBwtPgrpGroup : Fld := ⟨rBwtPgrp, 0, 16⟩
/-- BWT_PGRP.MEMBER. -/
def fBwtPgrpMember : Fld := ⟨rBwtPgrp, 16, 4⟩
/-- BWT_STREAK.SKIPS. -/
def fBwtStreakSkips : Fld := ⟨rBwtStreak, 0, 16⟩
/-- BWT_STREAK.DIG. -/
def fBwtStreakDig : Fld := ⟨rBwtStreak, 16, 4⟩
/-- SAV_CTL.REQ. -/
def fSavCtlReq : Fld := ⟨rSavCtl, 0, 1⟩
/-- SAV_CTL.ABORT. -/
def fSavCtlAbort : Fld := ⟨rSavCtl, 1, 1⟩
/-- SAV_CTL.RESTORE. -/
def fSavCtlRestore : Fld := ⟨rSavCtl, 2, 1⟩
/-- SAV_CTL.CLRCNT. -/
def fSavCtlClrcnt : Fld := ⟨rSavCtl, 3, 1⟩
/-- SAV_STATUS.STATE. -/
def fSavStatusState : Fld := ⟨rSavStatus, 0, 3⟩
/-- SAV_STATUS.CODE. -/
def fSavStatusCode : Fld := ⟨rSavStatus, 3, 8⟩
/-- SAV_STATUS.DONE. -/
def fSavStatusDone : Fld := ⟨rSavStatus, 11, 1⟩
/-- SAV_CFG.TMO. -/
def fSavCfgTmo : Fld := ⟨rSavCfg, 0, 16⟩
/-- SAV_PLANLEN.ENTRIES. -/
def fSavPlanlenEntries : Fld := ⟨rSavPlanlen, 0, 17⟩
/-- SAV_RINGLEN.PLACES. -/
def fSavRinglenPlaces : Fld := ⟨rSavRinglen, 0, 20⟩
/-- SAV_RSTR.AREA. -/
def fSavRstrArea : Fld := ⟨rSavRstr, 0, 2⟩
/-- SAV_RSTR.DRVMASK. -/
def fSavRstrDrvmask : Fld := ⟨rSavRstr, 2, 4⟩
/-- SAV_HCFG.CAP. -/
def fSavHcfgCap : Fld := ⟨rSavHcfg, 0, 16⟩
/-- SAV_HCFG.DIV. -/
def fSavHcfgDiv : Fld := ⟨rSavHcfg, 16, 8⟩
/-- SAV_HCFG.TOL. -/
def fSavHcfgTol : Fld := ⟨rSavHcfg, 24, 4⟩
/-- SAV_HVOLT.VMIN. -/
def fSavHvoltVmin : Fld := ⟨rSavHvolt, 0, 16⟩
/-- SAV_HVOLT.VFAIL. -/
def fSavHvoltVfail : Fld := ⟨rSavHvolt, 16, 16⟩
/-- SAV_HGAUGE.ADDR. -/
def fSavHgaugeAddr : Fld := ⟨rSavHgauge, 0, 7⟩
/-- SAV_HGAUGE.REG. -/
def fSavHgaugeReg : Fld := ⟨rSavHgauge, 8, 8⟩
/-- SAV_HGAUGE.UNIT. -/
def fSavHgaugeUnit : Fld := ⟨rSavHgauge, 16, 16⟩
/-- SAV_HNEED.FLUSHE. -/
def fSavHneedFlushe : Fld := ⟨rSavHneed, 0, 16⟩
/-- SAV_HNEED.SEALE. -/
def fSavHneedSeale : Fld := ⟨rSavHneed, 16, 16⟩
/-- SAV_HSTAT.VMEAS. -/
def fSavHstatVmeas : Fld := ⟨rSavHstat, 0, 16⟩
/-- SAV_HSTAT.HUPLOW. -/
def fSavHstatHuplow : Fld := ⟨rSavHstat, 16, 1⟩
/-- SAV_HSTAT.HDIS. -/
def fSavHstatHdis : Fld := ⟨rSavHstat, 17, 1⟩
/-- SAV_HSTAT.GSTALE. -/
def fSavHstatGstale : Fld := ⟨rSavHstat, 18, 1⟩
/-- SAV_HSTAT.PFAIL. -/
def fSavHstatPfail : Fld := ⟨rSavHstat, 19, 1⟩
/-- SAV_DRVn_CTL.EN. -/
def fSavDrvCtlEn (n : Nat) : Fld := ⟨rSavDrvCtl n, 0, 1⟩
/-- SAV_DRVn_CTL.RESET. -/
def fSavDrvCtlReset (n : Nat) : Fld := ⟨rSavDrvCtl n, 1, 1⟩
/-- SAV_DRVn_STAT.READY. -/
def fSavDrvStatReady (n : Nat) : Fld := ⟨rSavDrvStat n, 0, 1⟩
/-- SAV_DRVn_STAT.SPEED. -/
def fSavDrvStatSpeed (n : Nat) : Fld := ⟨rSavDrvStat n, 1, 3⟩
/-- SAV_DRVn_STAT.FAIL. -/
def fSavDrvStatFail (n : Nat) : Fld := ⟨rSavDrvStat n, 4, 4⟩
/-- SAV_DRVn_STAT.STRAY. -/
def fSavDrvStatStray (n : Nat) : Fld := ⟨rSavDrvStat n, 16, 16⟩
/-- PWR_CAP.MAXMULT. -/
def fPwrCapMaxmult : Fld := ⟨rPwrCap, 0, 5⟩
/-- PWR_CAP.LIMMAX. -/
def fPwrCapLimmax : Fld := ⟨rPwrCap, 16, 16⟩
/-- PWR_OPPOINT.MULT. -/
def fPwrOppointMult : Fld := ⟨rPwrOppoint, 0, 5⟩
/-- PWR_OPPOINT.PHASE. -/
def fPwrOppointPhase : Fld := ⟨rPwrOppoint, 5, 2⟩
/-- PWR_OPPOINT.SWPEND. -/
def fPwrOppointSwpend : Fld := ⟨rPwrOppoint, 7, 1⟩
/-- PWR_OPPOINT.PLLREADY. -/
def fPwrOppointPllready : Fld := ⟨rPwrOppoint, 8, 1⟩
/-- PWR_PHMULT.M0. -/
def fPwrPhmultM0 : Fld := ⟨rPwrPhmult, 0, 5⟩
/-- PWR_PHMULT.M1. -/
def fPwrPhmultM1 : Fld := ⟨rPwrPhmult, 5, 5⟩
/-- PWR_PHMULT.M2. -/
def fPwrPhmultM2 : Fld := ⟨rPwrPhmult, 10, 5⟩
/-- PWR_PHMULT.M3. -/
def fPwrPhmultM3 : Fld := ⟨rPwrPhmult, 15, 5⟩
/-- PWR_CEIL.LIMIT. -/
def fPwrCeilLimit : Fld := ⟨rPwrCeil, 0, 11⟩
/-- PWR_CEIL.CEILING. -/
def fPwrCeilCeiling : Fld := ⟨rPwrCeil, 11, 1⟩
/-- PWR_CEIL.RSTART. -/
def fPwrCeilRstart : Fld := ⟨rPwrCeil, 12, 1⟩
/-- PWR_CEIL.RDEFAULT. -/
def fPwrCeilRdefault : Fld := ⟨rPwrCeil, 13, 1⟩
/-- PWR_CEIL.RHALT. -/
def fPwrCeilRhalt : Fld := ⟨rPwrCeil, 14, 1⟩
/-- PWR_CEIL.HOLDING. -/
def fPwrCeilHolding : Fld := ⟨rPwrCeil, 15, 1⟩
/-- PWR_CEIL.SETLIMIT. -/
def fPwrCeilSetlimit : Fld := ⟨rPwrCeil, 16, 11⟩
/-- PWR_PKG.AVGW. -/
def fPwrPkgAvgw : Fld := ⟨rPwrPkg, 0, 16⟩
/-- PWR_PKG.SAMPW. -/
def fPwrPkgSampw : Fld := ⟨rPwrPkg, 16, 16⟩
/-- PWR_STRETCH.LEVELW. -/
def fPwrStretchLevelw : Fld := ⟨rPwrStretch, 0, 4⟩
/-- PWR_STRETCH.LEVELE. -/
def fPwrStretchLevele : Fld := ⟨rPwrStretch, 4, 4⟩
/-- PWR_STRETCH.CAUSEW. -/
def fPwrStretchCausew : Fld := ⟨rPwrStretch, 8, 7⟩
/-- PWR_STRETCH.CAUSEE. -/
def fPwrStretchCausee : Fld := ⟨rPwrStretch, 16, 7⟩
/-- PWR_THCFG.TTHR. -/
def fPwrThcfgTthr : Fld := ⟨rPwrThcfg, 0, 8⟩
/-- PWR_THCFG.TCRIT. -/
def fPwrThcfgTcrit : Fld := ⟨rPwrThcfg, 8, 8⟩
/-- PWR_THCFG.TJMAX. -/
def fPwrThcfgTjmax : Fld := ⟨rPwrThcfg, 16, 8⟩
/-- PWR_THSTAT.THROTW. -/
def fPwrThstatThrotw : Fld := ⟨rPwrThstat, 0, 1⟩
/-- PWR_THSTAT.THROTE. -/
def fPwrThstatThrote : Fld := ⟨rPwrThstat, 1, 1⟩
/-- PWR_THSTAT.CRIT. -/
def fPwrThstatCrit : Fld := ⟨rPwrThstat, 2, 1⟩
/-- PWR_THSTAT.HOT. -/
def fPwrThstatHot : Fld := ⟨rPwrThstat, 3, 5⟩
/-- PWR_THSTAT.TMAX. -/
def fPwrThstatTmax : Fld := ⟨rPwrThstat, 8, 12⟩
/-- PWR_CTL.CLRCNT. -/
def fPwrCtlClrcnt : Fld := ⟨rPwrCtl, 0, 1⟩
/-- PWR_VQq.VREQ. -/
def fPwrVqVreq (n : Nat) : Fld := ⟨rPwrVq n, 0, 11⟩
/-- PWR_VQq.VSENSE. -/
def fPwrVqVsense (n : Nat) : Fld := ⟨rPwrVq n, 16, 11⟩
/-- PWR_VQq.VOK. -/
def fPwrVqVok (n : Nat) : Fld := ⟨rPwrVq n, 27, 1⟩
/-- PWR_VTABn.MV. -/
def fPwrVtabMv (n : Nat) : Fld := ⟨rPwrVtab n, 0, 11⟩
/-- PWR_ILIMr.ACT. -/
def fPwrIlimAct (n : Nat) : Fld := ⟨rPwrIlim n, 0, 16⟩
/-- PWR_ILIMr.FUSED. -/
def fPwrIlimFused (n : Nat) : Fld := ⟨rPwrIlim n, 16, 16⟩
/-- PWR_IMEASr.IAVG. -/
def fPwrImeasIavg (n : Nat) : Fld := ⟨rPwrImeas n, 0, 16⟩
/-- PWR_IMEASr.OVER. -/
def fPwrImeasOver (n : Nat) : Fld := ⟨rPwrImeas n, 16, 1⟩
/-- PWR_TEMPs.TEMP. -/
def fPwrTempTemp (n : Nat) : Fld := ⟨rPwrTemp n, 0, 12⟩
/-- PWR_TEMPs.VALID. -/
def fPwrTempValid (n : Nat) : Fld := ⟨rPwrTemp n, 12, 1⟩
/-- PWR_OPTq_CTL.EN. -/
def fPwrOptCtlEn (n : Nat) : Fld := ⟨rPwrOptCtl n, 0, 1⟩
/-- PWR_OPTq_STAT.STATE. -/
def fPwrOptStatState (n : Nat) : Fld := ⟨rPwrOptStat n, 0, 3⟩
/-- PWR_OPTq_STAT.CAUSE. -/
def fPwrOptStatCause (n : Nat) : Fld := ⟨rPwrOptStat n, 3, 3⟩
/-- PWR_OPTq_STAT.RETRIES. -/
def fPwrOptStatRetries (n : Nat) : Fld := ⟨rPwrOptStat n, 6, 2⟩
/-- PWR_OPTq_STAT.TRIPS. -/
def fPwrOptStatTrips (n : Nat) : Fld := ⟨rPwrOptStat n, 8, 16⟩
/-- MGT_STRAP.BIDX. -/
def fMgtStrapBidx : Fld := ⟨rMgtStrap, 0, 2⟩
/-- MGT_STRAP.FWAUTO. -/
def fMgtStrapFwauto : Fld := ⟨rMgtStrap, 2, 1⟩
/-- MGT_RSTCTL.WARM. -/
def fMgtRstctlWarm : Fld := ⟨rMgtRstctl, 0, 1⟩
/-- MGT_RSTCTL.FW. -/
def fMgtRstctlFw : Fld := ⟨rMgtRstctl, 1, 1⟩
/-- MGT_RSTSTAT.CAUSE. -/
def fMgtRststatCause : Fld := ⟨rMgtRststat, 0, 3⟩
/-- MGT_RSTSTAT.FWRST. -/
def fMgtRststatFwrst : Fld := ⟨rMgtRststat, 3, 1⟩
/-- MGT_RSTCFG.PERSTWARM. -/
def fMgtRstcfgPerstwarm : Fld := ⟨rMgtRstcfg, 0, 1⟩
/-- MGT_FWSTAT.STATE. -/
def fMgtFwstatState : Fld := ⟨rMgtFwstat, 0, 2⟩
/-- MGT_GPIOCFG.OE. -/
def fMgtGpiocfgOe : Fld := ⟨rMgtGpiocfg, 0, 4⟩
/-- MGT_GPIODATA.IN. -/
def fMgtGpiodataIn : Fld := ⟨rMgtGpiodata, 0, 8⟩
/-- MGT_GPIODATA.OUT. -/
def fMgtGpiodataOut : Fld := ⟨rMgtGpiodata, 8, 4⟩
/-- MGT_SMBSTAT.DENIED. -/
def fMgtSmbstatDenied : Fld := ⟨rMgtSmbstat, 0, 1⟩
/-- MGT_SMBSTAT.PROTO. -/
def fMgtSmbstatProto : Fld := ⟨rMgtSmbstat, 1, 1⟩
/-- MGT_SMBSTAT.TIMEOUT. -/
def fMgtSmbstatTimeout : Fld := ⟨rMgtSmbstat, 2, 1⟩
/-- MGT_SMBSTAT.VIOL. -/
def fMgtSmbstatViol : Fld := ⟨rMgtSmbstat, 16, 16⟩
/-- MGT_SMBCFG.PECREQ. -/
def fMgtSmbcfgPecreq : Fld := ⟨rMgtSmbcfg, 0, 1⟩
/-- MGT_I2CCFG.SPEED. -/
def fMgtI2ccfgSpeed : Fld := ⟨rMgtI2ccfg, 0, 2⟩
/-- MGT_I2CCTL.RESET. -/
def fMgtI2cctlReset : Fld := ⟨rMgtI2cctl, 0, 1⟩
/-- MGT_I2CCTL.CLEAR. -/
def fMgtI2cctlClear : Fld := ⟨rMgtI2cctl, 1, 1⟩
/-- MGT_I2CSTAT.STATE. -/
def fMgtI2cstatState : Fld := ⟨rMgtI2cstat, 0, 2⟩
/-- MGT_I2CSTAT.ATTEMPT. -/
def fMgtI2cstatAttempt : Fld := ⟨rMgtI2cstat, 2, 2⟩
/-- MGT_I2CSTAT.PULSES. -/
def fMgtI2cstatPulses : Fld := ⟨rMgtI2cstat, 4, 4⟩
/-- MGT_I2CERR.NACK. -/
def fMgtI2cerrNack : Fld := ⟨rMgtI2cerr, 0, 16⟩
/-- MGT_I2CERR.TIMEOUT. -/
def fMgtI2cerrTimeout : Fld := ⟨rMgtI2cerr, 16, 8⟩
/-- MGT_I2CERR.STUCK. -/
def fMgtI2cerrStuck : Fld := ⟨rMgtI2cerr, 24, 8⟩
/-- MGT_TAPSTAT.IR. -/
def fMgtTapstatIr : Fld := ⟨rMgtTapstat, 0, 8⟩
/-- MGT_TAPSTAT.HELD. -/
def fMgtTapstatHeld : Fld := ⟨rMgtTapstat, 8, 1⟩
/-- CAP_PCIID.VENDOR. -/
def fCapPciidVendor : Fld := ⟨rCapPciid, 0, 16⟩
/-- CAP_PCIID.DEVICE. -/
def fCapPciidDevice : Fld := ⟨rCapPciid, 16, 16⟩
/-- ERR_STATUS.OVF. -/
def fErrStatusOvf : Fld := ⟨rErrStatus, 0, 1⟩
/-- ERR_STATUS.SDBUSY. -/
def fErrStatusSdbusy : Fld := ⟨rErrStatus, 1, 1⟩
/-- ERR_CTL.CLRCNT. -/
def fErrCtlClrcnt : Fld := ⟨rErrCtl, 0, 1⟩
/-- ERR_CTL.CLRLOG. -/
def fErrCtlClrlog : Fld := ⟨rErrCtl, 1, 1⟩
/-- ERR_HEAD.HEAD. -/
def fErrHeadHead : Fld := ⟨rErrHead, 0, 10⟩
/-- ERR_TAIL.TAIL. -/
def fErrTailTail : Fld := ⟨rErrTail, 0, 10⟩
/-- ERR_SDCFG.RECUR. -/
def fErrSdcfgRecur : Fld := ⟨rErrSdcfg, 0, 4⟩
/-- ERR_SDCFG.RWIN. -/
def fErrSdcfgRwin : Fld := ⟨rErrSdcfg, 4, 12⟩
/-- ERR_SDCFG.DEFER. -/
def fErrSdcfgDefer : Fld := ⟨rErrSdcfg, 16, 8⟩
/-- ERR_SDCFG.CTHR. -/
def fErrSdcfgCthr : Fld := ⟨rErrSdcfg, 24, 8⟩
/-- ERR_SDSTAT.QLEVEL. -/
def fErrSdstatQlevel : Fld := ⟨rErrSdstat, 0, 7⟩
/-- ERR_SDSTAT.QFULL. -/
def fErrSdstatQfull : Fld := ⟨rErrSdstat, 8, 16⟩
/-- ERR_SDREQ.UNIT. -/
def fErrSdreqUnit : Fld := ⟨rErrSdreq, 0, 16⟩
/-- ERR_SDREQ.TEST. -/
def fErrSdreqTest : Fld := ⟨rErrSdreq, 16, 8⟩
/-- ERR_SDREQ.GO. -/
def fErrSdreqGo : Fld := ⟨rErrSdreq, 31, 1⟩
/-- ERR_SDSUB.SUB. -/
def fErrSdsubSub : Fld := ⟨rErrSdsub, 0, 24⟩
/-- ERR_SDCNT.TRANSIENT. -/
def fErrSdcntTransient : Fld := ⟨rErrSdcnt, 0, 16⟩
/-- ERR_SDCNT.LASTING. -/
def fErrSdcntLasting : Fld := ⟨rErrSdcnt, 16, 16⟩

/-! ### Access masks and reset values -/

/-- Registers of the IMG block that can be written or whose reset value is not 0. -/
def regRowsImg : List RegRow := [
  ⟨0x200000, 1, 4, 1, 0xFFFF0#32, 0x0#32, 0x0#32⟩,
  ⟨0x200004, 1, 4, 1, 0x0#32, 0x2000#32, 0x0#32⟩,
  ⟨0x200008, 1, 4, 1, 0xFFFFFFFF#32, 0x0#32, 0x0#32⟩,
  ⟨0x20000C, 1, 4, 1, 0xFFFF#32, 0x0#32, 0x0#32⟩,
  ⟨0x200010, 1, 4, 1, 0xFFFFFFFF#32, 0x0#32, 0x0#32⟩,
  ⟨0x200014, 1, 4, 1, 0x3#32, 0x0#32, 0x0#32⟩,
  ⟨0x200018, 1, 4, 1, 0xFFFFFFFF#32, 0x0#32, 0x0#32⟩,
  ⟨0x20001C, 1, 4, 1, 0xFFFFFFFF#32, 0x0#32, 0x0#32⟩,
  ⟨0x200020, 1, 4, 1, 0xFFFFFFFF#32, 0x0#32, 0x0#32⟩,
  ⟨0x200024, 1, 4, 1, 0xFFFFFFFF#32, 0x0#32, 0x0#32⟩,
  ⟨0x20003C, 1, 4, 1, 0x0#32, 0x0#32, 0x1#32⟩]

/-- Registers of the MEM block that can be written or whose reset value is not 0. -/
def regRowsMem : List RegRow := [
  ⟨0x500004, 1, 4, 1, 0x2#32, 0x0#32, 0x2#32⟩,
  ⟨0x500008, 1, 4, 1, 0xFFFFFFFF#32, 0x0#32, 0x1000400#32⟩,
  ⟨0x500010, 1, 4, 1, 0xFFFFFFFF#32, 0x0#32, 0x10010042#32⟩,
  ⟨0x500014, 2, 4, 1, 0xFFFFFFFF#32, 0x0#32, 0x10010041#32⟩,
  ⟨0x50001C, 4, 4, 1, 0xFFFFFFFF#32, 0x0#32, 0x10010040#32⟩,
  ⟨0x500040, 8, 4, 1, 0x0#32, 0x0#32, 0x16#32⟩,
  ⟨0x500200, 1, 4, 1, 0xFFFFFFFF#32, 0x0#32, 0x0#32⟩,
  ⟨0x500204, 1, 4, 1, 0xFFFF#32, 0x0#32, 0x0#32⟩,
  ⟨0x500208, 1, 4, 1, 0x1F#32, 0x0#32, 0x4#32⟩,
  ⟨0x500210, 1, 4, 1, 0xFFFF#32, 0x0#32, 0x0#32⟩]

/-- Registers of the XLT block that can be written or whose reset value is not 0. -/
def regRowsXlt : List RegRow := [
  ⟨0x300004, 1, 4, 1, 0x1#32, 0x0#32, 0x0#32⟩,
  ⟨0x300008, 1, 4, 1, 0xFFFFFFFF#32, 0x0#32, 0x0#32⟩,
  ⟨0x30000C, 1, 4, 1, 0xFFFF#32, 0x0#32, 0x0#32⟩,
  ⟨0x300018, 1, 4, 1, 0x1FF#32, 0x0#32, 0x0#32⟩,
  ⟨0x300020, 1, 4, 1, 0xFFFFFFFF#32, 0x0#32, 0x0#32⟩,
  ⟨0x300024, 1, 4, 1, 0xFFFF#32, 0x0#32, 0x0#32⟩,
  ⟨0x300028, 1, 4, 1, 0xFFFF#32, 0x0#32, 0x400#32⟩]

/-- Registers of the DMA block that can be written or whose reset value is not 0. -/
def regRowsDma : List RegRow := [
  ⟨0x400100, 16, 64, 1, 0x1#32, 0x0#32, 0x0#32⟩,
  ⟨0x400108, 16, 64, 1, 0xFFFFFFFF#32, 0x0#32, 0x0#32⟩,
  ⟨0x40010C, 16, 64, 1, 0xFFFF#32, 0x0#32, 0x0#32⟩,
  ⟨0x400110, 16, 64, 1, 0x1F#32, 0x0#32, 0x4#32⟩,
  ⟨0x400118, 16, 64, 1, 0xFFFF#32, 0x0#32, 0x0#32⟩]

/-- Registers of the FAB block that can be written or whose reset value is not 0. -/
def regRowsFab : List RegRow := [
  ⟨0x600010, 1, 4, 1, 0xFFFFFFFF#32, 0x0#32, 0x0#32⟩,
  ⟨0x600014, 1, 4, 1, 0x1FFFF#32, 0x0#32, 0x0#32⟩,
  ⟨0x600018, 1, 4, 1, 0xFFFF#32, 0x0#32, 0x0#32⟩,
  ⟨0x600104, 16, 32, 1, 0x5#32, 0x0#32, 0x5#32⟩,
  ⟨0x700104, 3, 32, 1, 0x5#32, 0x0#32, 0x5#32⟩]

/-- Registers of the BWT block that can be written or whose reset value is not 0. -/
def regRowsBwt : List RegRow := [
  ⟨0xA00004, 1, 4, 1, 0x0#32, 0x8#32, 0x0#32⟩,
  ⟨0xA00008, 1, 4, 1, 0x1FFFF#32, 0x0#32, 0xC0#32⟩,
  ⟨0xA0000C, 1, 4, 1, 0xFFFF#32, 0x0#32, 0x1#32⟩,
  ⟨0xA00010, 1, 4, 1, 0xFFFFFFFF#32, 0x0#32, 0x0#32⟩,
  ⟨0xA00014, 1, 4, 1, 0xFFFF#32, 0x0#32, 0x0#32⟩,
  ⟨0xA00018, 1, 4, 1, 0x1FF#32, 0x0#32, 0x1#32⟩,
  ⟨0xA00020, 1, 4, 1, 0xFFFFFFFF#32, 0x0#32, 0x0#32⟩,
  ⟨0xA00024, 1, 4, 1, 0xFFFF#32, 0x0#32, 0x0#32⟩,
  ⟨0xA00028, 1, 4, 1, 0xFFFFFF#32, 0x0#32, 0x0#32⟩,
  ⟨0xA00030, 1, 4, 1, 0xFFFFFFFF#32, 0x0#32, 0x0#32⟩,
  ⟨0xA00034, 1, 4, 1, 0xFFFF#32, 0x0#32, 0x0#32⟩,
  ⟨0xA00038, 1, 4, 1, 0xFFFFFF#32, 0x0#32, 0x0#32⟩,
  ⟨0xA00058, 1, 4, 1, 0xFFFFFFFF#32, 0x0#32, 0x0#32⟩,
  ⟨0xA0005C, 1, 4, 1, 0xFFFFFFFF#32, 0x0#32, 0x0#32⟩,
  ⟨0xA00060, 1, 4, 1, 0xFFFFFFFF#32, 0x0#32, 0x0#32⟩,
  ⟨0xA00064, 1, 4, 1, 0xFFFFFFFF#32, 0x0#32, 0x0#32⟩,
  ⟨0xA0006C, 1, 4, 1, 0x3FFFFC#32, 0x0#32, 0x0#32⟩,
  ⟨0xA00070, 1, 4, 1, 0xFFFFF#32, 0x0#32, 0x0#32⟩,
  ⟨0xA00200, 64, 4, 1, 0xFFFFFFFF#32, 0x0#32, 0x0#32⟩]

/-- Registers of the SAV block that can be written or whose reset value is not 0. -/
def regRowsSav : List RegRow := [
  ⟨0xB00004, 1, 4, 1, 0x0#32, 0x800#32, 0x0#32⟩,
  ⟨0xB00008, 1, 4, 1, 0xFFFF#32, 0x0#32, 0x7D0#32⟩,
  ⟨0xB00010, 1, 4, 1, 0xFFFFFFFF#32, 0x0#32, 0x0#32⟩,
  ⟨0xB00014, 1, 4, 1, 0xFFFF#32, 0x0#32, 0x0#32⟩,
  ⟨0xB00018, 1, 4, 1, 0x1FFFF#32, 0x0#32, 0x0#32⟩,
  ⟨0xB00020, 1, 4, 1, 0xFFFFFFFF#32, 0x0#32, 0x0#32⟩,
  ⟨0xB00024, 1, 4, 1, 0xFFFF#32, 0x0#32, 0x0#32⟩,
  ⟨0xB00028, 1, 4, 1, 0xFFFFF#32, 0x0#32, 0x40#32⟩,
  ⟨0xB00030, 1, 4, 1, 0xFFFFFFFF#32, 0x0#32, 0x0#32⟩,
  ⟨0xB00034, 1, 4, 1, 0xFFFF#32, 0x0#32, 0x0#32⟩,
  ⟨0xB00038, 1, 4, 1, 0xFFFFFFFF#32, 0x0#32, 0x0#32⟩,
  ⟨0xB00060, 1, 4, 1, 0x3F#32, 0x0#32, 0x3E#32⟩,
  ⟨0xB00070, 1, 4, 1, 0xFFFFFFF#32, 0x0#32, 0x2040000#32⟩,
  ⟨0xB00074, 1, 4, 1, 0xFFFFFFFF#32, 0x0#32, 0x0#32⟩,
  ⟨0xB00078, 1, 4, 1, 0xFFFFFF7F#32, 0x0#32, 0x0#32⟩,
  ⟨0xB0007C, 1, 4, 1, 0xFFFFFFFF#32, 0x0#32, 0x0#32⟩,
  ⟨0xB00088, 1, 4, 1, 0x0#32, 0x20000#32, 0x0#32⟩,
  ⟨0xB00100, 4, 16, 1, 0x1#32, 0x0#32, 0x1#32⟩,
  ⟨0xB00108, 4, 16, 1, 0xFFFFFFFF#32, 0x0#32, 0x0#32⟩,
  ⟨0xB0010C, 4, 16, 1, 0xFFFFFFFF#32, 0x0#32, 0x0#32⟩]

/-- Registers of the PWR block that can be written or whose reset value is not 0. -/
def regRowsPwr : List RegRow := [
  ⟨0x100000, 1, 4, 1, 0x0#32, 0x0#32, 0x5780000#32⟩,
  ⟨0x100004, 1, 4, 1, 0x0#32, 0x0#32, 0x8#32⟩,
  ⟨0x100008, 1, 4, 1, 0x0#32, 0x0#32, 0x42108#32⟩,
  ⟨0x10000C, 1, 4, 1, 0x0#32, 0x0#32, 0x5783990#32⟩,
  ⟨0x100020, 1, 4, 1, 0x0#32, 0x0#32, 0x5F7369#32⟩]

/-- Registers of the MGT block that can be written or whose reset value is not 0. -/
def regRowsMgt : List RegRow := [
  ⟨0xD00008, 1, 4, 1, 0x0#32, 0x8#32, 0x0#32⟩,
  ⟨0xD0000C, 1, 4, 1, 0x1#32, 0x0#32, 0x0#32⟩,
  ⟨0xD00014, 1, 4, 1, 0xF#32, 0x0#32, 0x0#32⟩,
  ⟨0xD00018, 1, 4, 1, 0xF00#32, 0x0#32, 0x0#32⟩,
  ⟨0xD00020, 1, 4, 1, 0x0#32, 0x7#32, 0x0#32⟩,
  ⟨0xD00024, 1, 4, 1, 0x1#32, 0x0#32, 0x0#32⟩,
  ⟨0xD00030, 1, 4, 1, 0x3#32, 0x0#32, 0x1#32⟩,
  ⟨0xD00040, 1, 4, 1, 0x0#32, 0x0#32, 0x2#32⟩]

/-- Registers of the ERR block that can be written or whose reset value is not 0. -/
def regRowsErr : List RegRow := [
  ⟨0xC00000, 1, 4, 1, 0x0#32, 0x1#32, 0x0#32⟩,
  ⟨0xC00008, 1, 4, 1, 0x3FF#32, 0x0#32, 0x0#32⟩,
  ⟨0xC00020, 1, 4, 1, 0xFFFFFFFF#32, 0x0#32, 0x403C5A03#32⟩,
  ⟨0xC00030, 1, 4, 1, 0xFFFFFF#32, 0x0#32, 0x0#32⟩]

/-- Registers of the CAP block that can be written or whose reset value is not 0. -/
def regRowsCap : List RegRow := [
  ⟨0x8, 1, 4, 1, 0x0#32, 0x0#32, 0x1010#32⟩,
  ⟨0x10, 1, 4, 1, 0x0#32, 0x0#32, 0x48008080#32⟩,
  ⟨0x20, 1, 4, 1, 0x0#32, 0x0#32, 0x5120000#32⟩]

/-- The block of an address (R739) and its rows. -/
def regRows (off : Nat) : List RegRow :=
  if off / 0x100000 = 2 then regRowsImg else
  if off / 0x100000 = 5 then regRowsMem else
  if off / 0x100000 = 3 then regRowsXlt else
  if off / 0x100000 = 4 then regRowsDma else
  if 0x600000 ≤ off ∧ off < 0x800000 then regRowsFab else
  if off / 0x100000 = 10 then regRowsBwt else
  if off / 0x100000 = 11 then regRowsSav else
  if off / 0x100000 = 1 then regRowsPwr else
  if off / 0x100000 = 13 then regRowsMgt else
  if off / 0x100000 = 12 then regRowsErr else
  if off / 0x100000 = 0 then regRowsCap else
  []

/-- Whether a run of registers holds an address. -/
def RegRow.has (r : RegRow) (off : Nat) : Bool :=
  r.base ≤ off && (off - r.base) / r.stride < r.count && (off - r.base) % r.stride < 4 * r.count2
    && off % 4 == 0

/-- The row of an address, if it has one. -/
def regRow (off : Nat) : Option RegRow := (regRows off).find? (·.has off)

/-- The cold-reset value of a register word (R741); an unassigned address reads 0 (R19). -/
def regReset (off : Nat) : W32 := ((regRow off).map (·.reset)).getD 0

/-- The RW bits of a register (R13). -/
def regRw (off : Nat) : W32 := ((regRow off).map (·.rw)).getD 0

/-- The W1C bits of a register (R13). -/
def regW1c (off : Nat) : W32 := ((regRow off).map (·.w1c)).getD 0

/-- The register words that the fuses load, with their other bits at reset (R4, R23, R348,
R672, R711). -/
def fuseWords (f : Fuses) : List (Nat × W32) :=
  [(rCapArch, regReset rCapArch ||| (if f.es then 0x10000#32 else 0)),
   (rCapConfig, regReset rCapConfig ||| (f.spareW.setWidth 32 <<< 16) ||| (f.spareE.setWidth 32 <<< 20)),
   (rCapSerialLo, f.serial.setWidth 32),
   (rCapSerialHi, (f.serial >>> 32).setWidth 32),
   (rCapPciid, regReset rCapPciid ||| f.vendor.setWidth 32),
   (rPwrCap, regReset rPwrCap ||| f.maxMult.setWidth 32),
   (rImgKeys, regReset rImgKeys ||| (f.owner.setWidth 32 <<< 1) ||| (f.revoked.setWidth 32 <<< 5)
      ||| (if f.debug then 0x200#32 else 0))]
  ++ (List.range 8).map (fun q => (rPwrVq q, ((f.vtab.getD 0 0).setWidth 32 : W32)))
  ++ f.vtab.mapIdx (fun n v => (rPwrVtab n, (v.setWidth 32 : W32)))
  ++ f.ilim.mapIdx (fun r v => (rPwrIlim r, (v.setWidth 32 : W32) ||| ((v.setWidth 32 : W32) <<< 16)))

/-- The register table after a cold reset: the fuse words over the values of R741. -/
def regCold (f : Fuses) : Tab W32 :=
  (fuseWords f).foldl (fun t e => Tab.put regReset t e.1 e.2) []

end Sys2Proof.Machine
end

