-- ==== Sys2Proof/Machine/State.lean ====
section
/-! DEFINITION. The state of the block: everything the spec gives the device, as plain
data, the queue of commands that wait, and the state right after reset (R741). -/

namespace Sys2Proof.Machine

open Sys2Proof

/-- The reasons for which a command would stop the machine: there is none, because the
spec gives every command an effect or says what the device answers in its place. -/
inductive Fault
  deriving DecidableEq, Repr

/-- The reasons for which the model has no meaning for a command. -/
inductive Refusal
  /-- Raised by the dispatcher alone, for a row not modelled yet; safe: the machine stops. -/
  | notModelled (mnemonic : String)
  deriving DecidableEq, Repr

/-- Condition of a SECDED codeword: correct, a single-bit error, a double-bit error, or
stored with its check bits inverted (R99, R360, R362). -/
inductive Ecc | good | single | double | poisoned
  deriving DecidableEq, Repr, Inhabited

/-- A stream word with its sideband (R265). `tw` is t of R266, the words per tile of the
token's format, where the unit that made the token knows it (the drain unit, a TILE
reader); 0 where it does not. -/
structure SWord where
  data : Payload
  last : Bool
  lend : Bool
  poison : Bool
  invalid : Bool
  tw : Nat
  deriving DecidableEq, Repr

/-! ### A core -/

/-- An AMAC that has issued: its array-slot word, its latched SREG value and its place in
the issue order of the quad's work (R97, R102, R110). -/
structure AmacJob where
  word : W32
  sreg : W32
  order : Nat
  deriving DecidableEq, Repr

/-- The AMAC in progress (R107, R131). -/
structure AmacRun where
  job : AmacJob
  knext : Nat
  started : Bool
  deriving DecidableEq, Repr

/-- The drain, ALDT or ASTT that waits (R109), with the stream plane in force at issue
(R247), the vector stream identifier and, under PXV, the PXREG value that it latched at
issue (R779). -/
structure DrainJob where
  word : W32
  sreg : W32
  order : Nat
  plane : Nat
  strm : W32
  px : Option W32
  deriving DecidableEq, Repr

/-- The quad: MAC path, drain unit, the last stop (R102, R109, R122). -/
structure Quad where
  run : Option AmacRun
  queued : Option AmacJob
  drain : Option DrainJob
  order : Nat
  stopped : Bool
  cause : Nat
  deriving DecidableEq, Repr

/-- One array: accumulator elements at tile * 1024 + row * 32 + column, scales and flags
of T0-T15, counters (R98, R118, R120). -/
structure ArrayRec where
  elem : Tab W32
  ecc : Tab Ecc
  sacc : Tab (BitVec 10)
  sat : BitVec 16
  poison : BitVec 16
  satStep : BitVec 16
  sclStep : BitVec 16
  satTot : W32
  sclTot : W32
  corr : BitVec 16
  uncorr : BitVec 16
  deriving DecidableEq, Repr

/-- A feeder's position (R297): 0 row feeder, 1-4 column feeders. -/
structure FeederSt where
  tile : Nat
  kpos : Nat
  complete : Bool
  poison : Bool
  addr : W32
  deriving DecidableEq, Repr

/-- A stream port: its queue, each word with the route that it came by or leaves by, the
fault that holds its route, the drain tile counter
(R779), whether the last word that passed was not LAST (R342), whether the rest of a token
is to be discarded as it arrives (R344), and the token words a tap has seen (R169). -/
structure PortSt where
  queue : List (Nat × SWord)
  fault : Bool
  drainTile : Nat
  mid : Bool
  discard : Bool
  tapWords : List SWord
  deriving DecidableEq, Repr

/-- A reduction accumulator (R165). -/
structure RAcc where
  kind : BitVec 3
  val : W64
  idx : W32
  ecnt : W32
  deriving DecidableEq, Repr

/-- A fold or an RCLR that has issued and not reached its accumulator (R168): the
accumulator, the operation, the lane values and the active lanes; `clr` for an RCLR. -/
structure FoldItem where
  racc : Nat
  clr : Bool
  op : BitVec 3
  lanes : Payload
  act : W64
  deriving DecidableEq, Repr

/-- A statistic tap (R169, R171). -/
structure TapSt where
  acc : W64
  layer : BitVec 16
  deriving DecidableEq, Repr

/-- A hardware loop level (R194). -/
structure LoopLv where
  ls : BitVec 12
  le : BitVec 12
  lc : BitVec 20
  act : Bool
  deriving DecidableEq, Repr

/-- The pending asynchronous exceptions, each with its detail and information (R208,
R212): the faults of several ports wait in the order in which they arose, because each that
is not taken stays pending; `preempt` holds the comparator of the window boundary. -/
structure PendExc where
  cal : Option Nat
  xlt : List (Nat × W64)
  prot : List (Nat × W64)
  brk : Option Nat
  preempt : Option Nat
  deriving DecidableEq, Repr

/-- A pending fence (R190, R291): its kind; for a HERD fence whose requests have been sent,
the tags not yet answered; and what its own bundle pushed, which it does not cover: routes
with numbers of words, and the place in the issue order of an ADRQ; `later` is when a word that it does
not cover was composed into a frame while it was pending. -/
structure FenceSt where
  kind : BitVec 3
  asked : Option (List Nat)
  own : List (Nat × Nat)
  ownDrain : Option Nat
  later : Option W64
  deriving DecidableEq, Repr

/-- What a context keeps across a save beside its record: the quad's queue with the values
latched at issue and its order of issue (R97, R129, R779), and the pending exceptions with
their details (R208, R439). -/
structure KeptCtx where
  quad : Quad
  pend : PendExc
  deriving DecidableEq, Repr

/-- A completion entry (R302). -/
structure CmpEntry where
  core : Nat
  code : Byte
  slotb : Bool
  drop : Bool
  step : W32
  ftime : W64
  deriving DecidableEq, Repr

/-- A logical core; `bare` says that a bubble window's switch restored nothing, so that the
core holds no job context (R727); `lastComp` is the fabric time at which a word of it was last composed
into a frame since its last HERD fence completed (R529). -/
structure CoreSt where
  slot : JobSlot
  cfgA : Option CoreCfg
  cfgB : Option CoreCfg
  nextA : Option CoreCfg
  nextB : Option CoreCfg
  emptyA : Bool
  emptyB : Bool
  keptA : Option KeptCtx
  keptB : Option KeptCtx
  switching : Bool
  bare : Bool
  storeEcc : Tab Ecc
  sregs : Tab W32
  sEcc : Tab Ecc
  mregs : Tab W64
  mEcc : Tab Ecc
  vregs : Tab Payload
  ocache : Tab Byte
  ocEcc : Tab Ecc
  spad : Tab Byte
  spEcc : Tab Ecc
  pc : BitVec 12
  ds : Bool
  dst : BitVec 12
  loops : Tab LoopLv
  mode : W32
  pmode : W32
  pcount : Nat
  calPend : W64
  stopped : Bool
  exc : W32
  excInfo : W32
  excPc : BitVec 12
  hcause : Nat
  bksup : Bool
  stepping : Bool
  bkpt : BitVec 13
  pend : PendExc
  fence : Option FenceSt
  quad : Quad
  arrays : Tab ArrayRec
  feeders : Tab FeederSt
  ports : Tab PortSt
  raccs : Tab RAcc
  folds : List FoldItem
  taps : Tab TapSt
  vseq : BitVec 22
  satStep : BitVec 16
  domStep : BitVec 16
  satTot : W32
  domTot : W32
  ocCorr : BitVec 16
  ocUncorr : BitVec 16
  fifo : List CmpEntry
  dropped : Bool
  lastComp : Option W64
  deriving DecidableEq, Repr

/-! ### Streams, collectors, stacks -/

/-- A route: credits at its source, words in flight in order, credits in flight (R277); the
words that a collective or a Mule table has put out by it and that have not left, each with the chunk
that it belongs to or the place of the transit part in which its payload waits, and the
words that it brought to one and that are not taken (R537, R558). -/
structure RouteSt where
  credits : Nat
  flight : List SWord
  creditsBack : Nat
  src : List (Option Nat × SWord)
  dst : List SWord
  deriving DecidableEq, Repr

/-- A plain staging region, first in, first out: the words that it holds, each with its
place in the region and its sideband (its payload stands in the staging memory), and the
next place to be written (R315, R318). -/
structure RegionSt where
  held : List (Nat × SWord)
  wr : Nat
  deriving DecidableEq, Repr

/-- A scratchpad sink: its buffer, each word with its route, tiles written, bytes of RAW payload written, words of
the token so far, and whether the rest of a malformed token is being discarded (R274). -/
structure SinkSt where
  buf : List (Nat × SWord)
  tiles : Nat
  raw : Nat
  words : Nat
  discard : Bool
  deriving DecidableEq, Repr

/-- A fault that holds a stack endpoint (R282, R411): its class (an XLT_FAULT or a PROT),
detail, faulting virtual offset, the fabric time of its detection, and whether it has been
turned into an exception. -/
structure HeldFault where
  xlt : Bool
  detail : Nat
  off : W64
  since : W64
  raised : Bool
  deriving DecidableEq, Repr

/-- A stack endpoint: next access of its walk, words held, the scale word that a striped
reader is gathering and whether it is poisoned, fault (R281, R357, R358, R413). -/
structure EpSt where
  walk : Nat
  buf : List SWord
  sword : Payload
  spois : Bool
  fault : Option HeldFault
  abandoned : Bool
  deriving DecidableEq, Repr

/-- A die's completion collector (R299, R303): its queue, the core after the last one
served, and the lifetime completions of each job slot dropped on the die. -/
structure DieColl where
  queue : List CmpEntry
  start : Nat
  dropA : BitVec 16
  dropB : BitVec 16
  deriving DecidableEq, Repr

/-- The device reporter (R300): its side (false west), whether it holds, consecutive cy on
its side while the other queue held entries, and whether it is idle. -/
structure Reporter where
  side : Bool
  held : Bool
  used : Nat
  idle : Bool
  deriving DecidableEq, Repr

/-- Where a bank-engine command came from: a command endpoint (its route's key), a list of
Bellwether (the number of its run), the host ring, or the save unit for a piece (R372, R588, R618). -/
inductive BeOrigin | route (n : Nat) | list (run : Nat) | ring (idx : Nat) | save (piece : Nat)
  deriving DecidableEq, Repr

/-- A bank-engine command in a context queue (R372, R373): its 64 bytes, payload, origin,
queue position, units run, whether a unit read an uncorrectable codeword (R387), the digest
so far and the rows of WREAD's output word so far, each with its poison mark (R384, R385). -/
structure BeCmd where
  cmd : BitVec 512
  payload : List Byte
  origin : BeOrigin
  pos : Nat
  units : Nat
  poisoned : Bool
  acc : W64
  res : List (W32 × Bool)
  deriving DecidableEq, Repr

/-- What the memory slot in progress gives a bank group beside its endpoints: nothing, the engines
of a context, or a background class that it serves (R371, R389). -/
inductive Given | nothing | ctx (x : BeCtx) | cls (c : Nat)
  deriving DecidableEq, Repr

/-- A memory stack: schedule index (R286), what the slot in progress gives each group, the three
context queues, the holder of operand buffer 1 and the claims on it in order, each a CMD endpoint of
job slot B or the host ring (none) (R372), the per-step saturation
count (R376), the age of each background class (R390), the spare rows in use of each bank
(R364), the next word that SCRUB reads in each group (R363) the rows redirected for
good, and the context-A commands completed since the step start (R618). -/
structure StackSt where
  sched : Nat
  given : List Given
  qa : List BeCmd
  qb : List BeCmd
  qh : List BeCmd
  buf1 : Option BeCtx
  claims : List (Option Nat)
  satStep : Nat
  ages : Tab Nat
  spareUsed : Tab Nat
  scrub : Tab Nat
  redirected : List Nat
  doneA : List (BitVec 512)
  deriving DecidableEq, Repr

/-- The host ring of context H (R372): the next entry to fetch, and the entries fetched and
not yet passed by HEAD, each with whether it has completed. -/
structure HRing where
  fetch : Nat
  pend : List (Nat × Bool)
  deriving DecidableEq, Repr

/-! ### Loader, translation, DMA -/

/-- A window page (R407): state 0 PRESENT, 1 MISSING, 2 DENIED, and the leaf. -/
structure WinPage where
  state : Nat
  phys : W64
  r : Bool
  w : Bool
  deriving DecidableEq, Repr

/-- The load in progress (R331): the fields latched at GO, whether a drive read has failed, the image bytes
once read, and the window pages once staged (R407). -/
structure Loader where
  drive : Bool
  slot : JobSlot
  force : Bool
  variant : Nat
  src : W64
  len : W32
  drv : BitVec 2
  lba : W64
  applyt : W64
  viaMailbox : Option Func
  failed : Bool
  bytes : List Byte
  img : Option Image
  pages : Tab WinPage
  deriving DecidableEq, Repr

/-- A translation-buffer entry (R416). -/
structure XEntry where
  slot : JobSlot
  big : Bool
  vpage : Nat
  ppage : Nat
  r : Bool
  w : Bool
  deriving DecidableEq, Repr

/-- A DMA descriptor that has started (R421, R428-R430): its ring index, its 64 bytes, the units
done, its status and whether it has been performed; for the unit in progress, the accesses read so
far with their poison marks and the writes performed so far; whether a request or a walk of it is
outstanding, and whether a unit's source was poisoned. -/
structure DmaDesc where
  idx : Nat
  desc : BitVec 512
  units : Nat
  stat : Nat
  performed : Bool
  got : List (List Byte × Bool)
  sent : Nat
  waiting : Bool
  pois : Bool
  deriving DecidableEq, Repr

/-- A DMA channel: the descriptors that have started; after a stop, the unit at which the stopped one
restarts and whether its source was poisoned before; and the fetch of the next descriptor: that it
waits for a walk, or what it read (R416, R421, R431). -/
structure DmaCh where
  started : List DmaDesc
  resumeAt : Option (Nat × Bool)
  fetch : Option (Option (BitVec 512))
  deriving DecidableEq, Repr

/-- Why a channel writes into a ring entry: a descriptor completes, stops, or is skipped. -/
inductive DmaEnd | complete | stop | skip
  deriving DecidableEq, Repr

/-- What waits for a walk (R416): a host access to BAR2, a remote request, or a DMA channel's access of
a unit, fetch of a descriptor or write into a ring entry; nothing any more; or a doorbell that waits
for the BAR2 writes before it (R294). -/
inductive Waiter
  | none
  | unit (ch : Fin 16) (idx : Nat)
  | desc (ch : Fin 16) (idx : Nat)
  | back (ch : Fin 16) (x : DmaDesc) (e : DmaEnd)
  | read (fn : Func) (off : W64) (len : Nat)
  | write (fn : Func) (off : W64) (data : List Byte) (poison : Bool) (dw0 : W32)
  | remote (p : Port) (ftime : W64) (cell : Cell)
  | bell (fn : Func) (n : Nat) (v : W32) (dw0 : W32)
  deriving DecidableEq, Repr

/-- A walk in flight (R416): slot, virtual offset, whether an invalidation began after it (its
fill is discarded where that one covers it, R419), whether it is a walk at all or an access that waits
behind one in order (R294), and the access that waits. -/
structure XWalk where
  slot : JobSlot
  va : W64
  old : Bool
  miss : Bool
  waiter : Waiter
  deriving DecidableEq, Repr

/-- A translation buffer: entries in fill order, walks in flight in order, and the offset of the
level-2 table that the front walk has found (R402, R416). -/
structure XBufSt where
  entries : List XEntry
  walks : List XWalk
  ptr : Option W64
  deriving DecidableEq, Repr

/-! ### Second order, fabric, exchange -/

/-- A cadence group (R457, R461, R464, R465): PERIOD, the periods to come with their apply steps, the
snapshot step of the round in progress, ROUNDSRC, DONESRC, and the step whose word carries GO for a
round resumed at arming. -/
structure GroupSt where
  period : Nat
  next : List (Nat × Nat)
  round : Option Nat
  roundSrc : Option Nat
  doneSrc : Option Nat
  resumed : Option Nat
  deriving DecidableEq, Repr

/-- Second-order state that no register holds (R465, R476, R478): the groups, the apply step of the
last change of the microbatch count, that of the pending one, and the noise averages. -/
structure SecondSt where
  groups : Tab GroupSt
  lastApply : Option Nat
  apply : W64
  noiseA : Int
  noiseC : Int
  deriving DecidableEq, Repr

/-- Fabric time and its markers (R485-R489, R521): the last wrong phase and how many
consecutive markers had it, the time of the last valid marker, the FCY that each die has still to
finish in frames, whether an APPLY waits, the last frame boundary that was judged, and by how much the
jumps of fabric time since reset have moved it. -/
structure FabSt where
  time : W64
  wrongPhase : BitVec 15
  wrongCount : Nat
  lastMark : Option W64
  owedW : Nat
  owedE : Nat
  setPend : Bool
  boundary : Option W64
  jumped : W64
  deriving DecidableEq, Repr

/-- What a port knows that no register holds (R498-R525): its signal, the times of LIGHT and of
the last retry, the neighbour's chip number and port, READY in both directions, the flight time in
1/32 tk, the alignment point, its counts of slots, the unsupported reply to send and the last one
received, the frames that wait for their place, settling, frames since the last calibration, the
last slots composed and placed, words delivered to the engine and words owed by route, remote
cells to send, remote cells received with the FTIME of their frame, and CONS cells to send, each with
tick 0 of its slot (R582). -/
structure FabPort where
  signal : Bool
  lightAt : W64
  retriedAt : Option W64
  neighbour : Option (Nat × Nat)
  readyIn : Bool
  readyOut : Bool
  flight : Nat
  align : Int
  okRun : Nat
  sinceAlign : Nat
  lossRun : Nat
  driftRun : Nat
  ukind : Byte
  uval : Byte
  ucount : BitVec 16
  peerUkind : Byte
  framesIn : List Frame
  settling : Bool
  sinceCal : Nat
  lastSlot : Option W64
  lastRx : Option W64
  delivered : Tab (List SWord)
  owed : Tab Nat
  remq : List Cell
  remin : List (W64 × Cell)
  consq : List (W64 × Cell)
  deriving DecidableEq, Repr

/-- A landing channel (R516, R566): its words, debts, whether a Mule token is being skipped, and the
words placed in it or owed as debts so far. -/
structure ChanSt where
  words : List SWord
  debts : Nat
  skip : Bool
  placed : Nat
  deriving DecidableEq, Repr

/-- A comparator (R492): owner 0 none, 1 slot A, 2 slot B, 3 device. -/
structure CalSt where
  period : Nat
  phase : Nat
  next : W64
  owner : Nat
  armed : Bool
  deriving DecidableEq, Repr

/-- What a remote request is for (R526); `dead` when nothing waits for its answer any more. -/
inductive RemUse | dma (ch : Fin 16) (idx : Nat) | fence (c : Core) | dead
  deriving DecidableEq, Repr

/-- A remote request outstanding (R527). -/
structure RemReq where
  tag : Nat
  use : RemUse
  chip : Nat
  deadline : W64
  deriving DecidableEq, Repr

/-- A FENCE request that a member has not answered yet (R529): its TF, and once its time has come what had
been placed in each landing channel until then. -/
structure FenceReq where
  cell : Cell
  tf : W64
  marks : Option (List Nat)
  deriving DecidableEq, Repr

/-- Remote requests of this device, tags at rest with their release time, and FENCE
requests held (R527-R529). -/
structure RemSt where
  reqs : List RemReq
  resting : List (Nat × W64)
  nextTag : Nat
  fences : List FenceReq
  deriving DecidableEq, Repr

/-- A chunk of a collective (R550), whose words and working scales stand in its staging buffer: the marks of
its words (bit 0 INVALID, bit 1 POISON), the input scales of its tiles, the marks of the scale words that
came with them, its phase (0 input, 1 scale phase, 2 sum or copy, 3 put out, 4 its result has entered
OUTROUTE), the step of the phase's algorithm, the units of input taken, and the words received in the
step. -/
structure ChunkSt where
  idx : Nat
  marks : Tab (BitVec 2)
  scales : Tab Int
  smark : BitVec 2
  phase : Nat
  step : Nat
  took : Nat
  rcvd : Nat
  deriving DecidableEq, Repr

/-- A collective (R551-R553): the chunks in its buffers, the next chunk, and the words of the
input token in progress. -/
structure CollSt where
  chunks : List ChunkSt
  nextChunk : Nat
  inWords : List SWord
  deriving DecidableEq, Repr

/-- A descriptor that waits for its combine (R570): its TOKEN, its exchange, and per selection its
state (0 waiting, 1 returned, 2 dropped, 3 lost) and the returned scale; its word and the outputs stand in
the source part. -/
structure MuleDesc where
  token : Nat
  exch : Nat
  sels : List (Nat × Int)
  deriving DecidableEq, Repr

/-- A Mule table (R560-R570). An exchange is numbered 64 * step + index, the steps counted from
the load: the step, the next index, the exchanges open for dispatch and for return, oldest first,
the counts of the experts, TOKEN + 1 of the last descriptor of an exchange, the places of the owner
part by exchange, expert and slot (1 filled, 2 delivered), whose tokens stand in the staging memory, the
next slot that each expert is delivered, and the descriptors that wait. -/
structure MuleSt where
  gen : Nat
  nextX : Nat
  dOpen : List Nat
  rOpen : List Nat
  counts : Tab Nat
  prevTok : Tab Nat
  owner : Tab Nat
  delivered : Tab Nat
  descs : List MuleDesc
  deriving DecidableEq, Repr

/-! ### Bellwether, save port, power -/

/-- A consensus programme run (R581, R582): the fabric time of tick 0 of the consensus
slot, the next entry, and the cells already taken per port and send slot. -/
structure ProgRun where
  cs : W64
  idx : Nat
  taken : Tab Nat
  deriving DecidableEq, Repr

/-- A CONS cell received (R583): port, fabric time of its frame's slot at the sender. -/
structure ConsCell where
  port : Nat
  slot : W64
  cell : Cell
  deriving DecidableEq, Repr

/-- A commit or skip list in progress (R588, R589): its number, whether it is a commit list,
its commands that have not entered a queue, each with its stack, and whether one has failed. -/
structure ListRun where
  run : Nat
  commit : Bool
  left : List (Nat × BitVec 512)
  bad : Bool
  deriving DecidableEq, Repr

/-- Bellwether (R573-R604): the programme as it was armed, the consensus registers, the programme
run, the CONS cells, the lists in progress, oldest first, what the attempt has gathered for its word, whether a
step start has been delivered since the arm, whether the attempt has been decided COMMIT or SKIP,
whether a halt bars step starts until a new arm, the PSHIFT in force, and the pending halt cause (0
none). -/
structure BwtSt where
  code : List W64
  c : Tab (BitVec 512)
  prog : Option ProgRun
  cons : List ConsCell
  lists : List ListRun
  incomp : Bool
  doneBD : Bool
  doneBE : Bool
  pexsat : Bool
  started : Bool
  decided : Bool
  barred : Bool
  pshift : Int
  haltPend : Nat
  deriving DecidableEq, Repr

/-- A plan entry (R614). -/
structure PlanEnt where
  stack : Nat
  layout : Nat
  am : Nat
  log : Nat
  nt : Nat
  route : Nat
  deriving DecidableEq, Repr

/-- A record of a clutch (R624-R629): captured, drive and place once assigned, its
write issued, written, CRC and POISON map. -/
structure RecSt where
  captured : Bool
  drive : Option Nat
  place : Nat
  issued : Bool
  written : Bool
  crc : W64
  poison : BitVec 4096
  deriving DecidableEq, Repr

/-- A piece of the plan (R618-R620): 0 not read, 1 being read, 2 read; the command
that SNAP named; whether the deltas of its log are applied after; its bytes and its poisoned
words. -/
structure PieceSt where
  phase : Nat
  named : Option (BitVec 512)
  log : Bool
  bytes : Tab Byte
  poison : List Nat
  deriving DecidableEq, Repr

/-- The clutch in progress; `sealStep` is 0 before the seal, 1 to 4 while the record flushes, the
manifest writes, their flushes and the header writes of R630 are outstanding, and 5 once PFAIL
has stopped the clutch (R639); `gone` lists the drives that failed during it (R629). -/
structure Clutch where
  id : W64
  plan : List PlanEnt
  jsr : BitVec 2048
  imageId : W64
  cstep : W64
  pieces : Tab PieceSt
  recs : Tab RecSt
  degraded : Bool
  poisoned : Bool
  huplow : Bool
  lastDrive : Option Nat
  sealStep : Nat
  gone : List Nat
  deriving DecidableEq, Repr

/-- The restore in progress (R633-R635): the phase (0 headers, 1 manifest, 2 records), the headers found, by
drive and area, the header in use and the area in which it was found, the manifest, records still to read. -/
structure Restore where
  phase : Nat
  headers : Tab (List Byte)
  header : List Byte
  area : Nat
  tried : List Nat
  manifest : List Byte
  recIdx : Nat
  buf : Tab Byte
  deriving DecidableEq, Repr

/-- The save unit; `stale` counts the words of abandoned reads still to arrive on a route
(R619). -/
structure SavSt where
  clutch : Option Clutch
  restore : Option Restore
  gaugeAt : Option W64
  stale : Tab Nat
  deriving DecidableEq, Repr

/-- What a drive command is for. -/
inductive NvmeUse
  | zero | record (i : Nat) | flush | manifest | header
  | rhead (a : Nat) | rman | rrec (i : Nat) | image (k : Nat) | fw (k : Nat) | attach | dead
  deriving DecidableEq, Repr

/-- An NVMe command outstanding (R608-R612): opcodes are those of NVMe, admin ones plus 0x100; `lba` is dwords
10 and 11, `blocks` the 4 KiB of data that it moves, `addr` the device memory where the spec gives that data a
place, `data` what a Write carries; `sent` is its place among the PRP lists once its entry is in a submission
queue, `since` the time of that; `timed` says that it has timed out once. -/
structure NvmeCmd where
  cid : BitVec 16
  opc : Nat
  lba : W64
  blocks : Nat
  fua : Bool
  addr : Option W64
  data : List Byte
  use : NvmeUse
  retried : Bool
  sent : Option Nat
  since : W64
  timed : Bool
  deriving DecidableEq, Repr

/-- A queue pair (R610, R611): the tail of its submission queue, the head of its completion queue and the
phase bit that its next entry has. -/
structure QueuePair where
  tail : Nat
  head : Nat
  phase : Bool
  deriving DecidableEq, Repr

/-- A drive (R607-R612, R736): commands outstanding, next command identifier, attachment step, whether the
attachment follows a timeout, the admin and the I/O queue pair, whether the latter exists in the controller,
and the times of refused memory requests. -/
structure DriveSt where
  cmds : List NvmeCmd
  nextCid : BitVec 16
  attach : Nat
  resetTried : Bool
  admin : QueuePair
  io : QueuePair
  paired : Bool
  badReqs : List W64
  deriving DecidableEq, Repr

/-- Power state that no register holds (R650-R669): the multiplier of the pending change, the dies
that have switched and whose idle PLL is locked, whether the change is being made, the phase whose
change waits for it, the lower multiplier to which VREQ falls in the next tk, the charges and energies of past
samples, the load switches that tripped since
they were last ON, the times of their retries, and the dies that hold with cause VOLTAGE and show
cause FAST. -/
structure PwrSt where
  target : Option Nat
  switched : Tab Bool
  pll : Tab Bool
  waiting : Bool
  deferred : Option Nat
  vfall : Option Nat
  charges : List Nat
  samples : List Nat
  tripped : Tab Bool
  retries : Tab (List W64)
  vholdW : Bool
  vholdE : Bool
  fastW : Bool
  fastE : Bool
  deriving DecidableEq, Repr

/-! ### Host, management, errors -/

/-- A read of host memory outstanding (R736): its tag, the channel and the descriptor that made
it (none when that was abandoned), its length, and when it was sent. -/
structure HostReq where
  tag : Nat
  ch : Fin 16
  idx : Option Nat
  len : Nat
  since : W64
  deriving DecidableEq, Repr

/-- Host-port state that no register holds (R675, R684, R688, R705): the BAR2 size in GiB, when
each mailbox was posted and in which order they wait, the host accesses outstanding, PERST# and the link. -/
structure HostSt where
  bar2 : Nat
  postAt : Tab W64
  posts : List Nat
  reqs : List HostReq
  perst : Bool
  linkReady : Bool
  deriving DecidableEq, Repr

/-- A transaction of the I2C controller (R694): a gauge read, a mailbox transfer or a poll. -/
inductive I2cTx | gauge | xfer (fn : Func) | poll (i : Nat)
  deriving DecidableEq, Repr

/-- A Jusia image that is read from a drive (R689, R703): the function whose request asked for it, none where
FWAUTO did; its length, none where the header gives it; MGT_FWSTAT.STATE before it; the bytes read, by their
place in the image; and whether a Read failed. -/
structure FwLoad where
  fn : Option Func
  len : Option Nat
  was : Nat
  buf : Tab Byte
  failed : Bool
  deriving DecidableEq, Repr

/-- The management units (R690-R704, R749-R754), with the version and SVN of the Jusia image that
was loaded last (R686, R689). -/
structure MgtSt where
  version : W32
  svn : BitVec 16
  smbOff : W32
  pwrok : Bool
  fref : Bool
  vaux : Bool
  booted : Bool
  fw : Option FwLoad
  sag : Bool
  tx : Option I2cTx
  gaugeDue : W64
  xfer : Option Func
  pollDue : Tab W64
  deriving DecidableEq, Repr

/-- A Sheepdog test (R724, R781): test code, unit code, target within the unit, time queued. -/
structure SdTest where
  test : Nat
  unit : Nat
  sub : Nat
  at_ : W64
  deriving DecidableEq, Repr

/-- Sheepdog (R724-R732): its queue, the test in progress, its history, retirements that
wait for an apply, staging banks remapped, correctable counts of the window, units that
have logged CSTORM in it (R714), and the ports that are retired. -/
structure SdSt where
  queue : List SdTest
  running : Option SdTest
  hist : List (Nat × Nat × Nat × W64)
  retired : List Nat
  remapped : List (Nat × Nat)
  remapPend : List (Nat × Nat)
  corr : Tab Nat
  storm : List Nat
  portsOut : List Nat
  deriving DecidableEq, Repr

/-- A codeword of a lane before its check symbols (R497): its lane, its index in the slot, its 20-bit
marker and its 640 frame bytes. -/
structure Codeword where
  lane : Nat
  idx : Nat
  marker : BitVec 20
  data : List Byte
  deriving DecidableEq, Repr

/-- A message that left the device. -/
inductive Out
  | msix (fn : Func) (vec : Nat)
  | hostWrite (addr : W64) (data : List Byte) (poison : Bool)
  | hostRead (tag : Nat) (addr : W64) (len : Nat)
  | remWrite (addr : W64) (data : List Byte)
  | readData (r : Requester) (bar : Bar) (off : Nat) (v : W64)
  | readAbort (r : Requester) (bar : Bar) (off : Nat)
  | bar2Data (fn : Func) (data : List Byte) (poison : Bool)
  | bar2Abort (fn : Func) (unsupported : Bool)
  | frame (p : Port) (f : Frame)
  | codewords (p : Port) (l : List Codeword)
  | fmark
  | service
  | enumerate (n : Drive) (bus : Nat)
  | enable (n : Drive) (page asq acq : Nat)
  | nvme (n : Drive) (admin : Bool) (sqe data : List Byte)
  | ur (n : Drive)
  | smbus (data : List Byte) (nack : Bool)
  | i2c (addr : Nat) (bytes : List Byte) (rlen : Nat)
  | tdo (v : W32)
  | jusia (core : Nat) (exc : W32)
  | clutchAsk
  | refusal (phase mult : Nat)
  | stream (port : Nat) (w : SWord)
  | aer (fn : Func)
  deriving DecidableEq, Repr

/-- A requester's latch of a register pair, and its held write of a _LO half (R742). -/
structure Latch where
  who : Requester
  off : Nat
  val : W32
  deriving DecidableEq, Repr

/-- The device. `defPend` is a DEFAULT write that waits (R346), `unloadB` an unloading of job slot
B's image that waits until the slot is not resident (R707), `winOpen` the numbers of the bubble
windows that are open (R213, R317). -/
structure State where
  pending : List Instr
  reg : Tab W32
  bar4 : Tab W32
  latches : List Latch
  heldLo : List Latch
  fuses : Fuses
  cores : Tab CoreSt
  routes : Tab RouteSt
  sinks : Tab SinkSt
  eps : Tab EpSt
  staging : Tab Byte
  stgEcc : Tab Ecc
  regions : Tab RegionSt
  coll : Tab DieColl
  reporter : Reporter
  imgA : Option Image
  imgB : Option Image
  loader : Option Loader
  defPend : Bool
  unloadB : Bool
  winOpen : List Nat
  fabApplied : Option FabricCfg
  logical : Option (List Nat)
  mem : Tab Byte
  memEcc : Tab Ecc
  stks : Tab StackSt
  hring : HRing
  pages : Tab WinPage
  xbufs : Tab XBufSt
  invBusy : Option (Nat × JobSlot × W64)
  dma : Tab DmaCh
  second : SecondSt
  fab : FabSt
  ports : Tab FabPort
  chans : Tab ChanSt
  cals : Tab CalSt
  rem : RemSt
  colls : Tab CollSt
  mule : Tab MuleSt
  bwt : BwtSt
  sav : SavSt
  drives : Tab DriveSt
  pwr : PwrSt
  host : HostSt
  mgt : MgtSt
  sd : SdSt
  fresh : Nat
  out : List Out
  deriving DecidableEq, Repr

/-! ### The state right after reset

A field for which the spec gives no reset value holds what log entries 2 and 3 name. -/

/-- An idle quad (R102, R109, R124). -/
def Quad.reset : Quad where
  run := none
  queued := none
  drain := none
  order := 0
  stopped := false
  cause := 0

/-- An array after reset (R98, R124). -/
def ArrayRec.reset : ArrayRec where
  elem := []
  ecc := []
  sacc := []
  sat := 0
  poison := 0
  satStep := 0
  sclStep := 0
  satTot := 0
  sclTot := 0
  corr := 0
  uncorr := 0

/-- A feeder at the start of its operand (R297). -/
def FeederSt.reset : FeederSt := ⟨0, 0, false, false, 0⟩

/-- An empty stream port. -/
def PortSt.reset : PortSt := ⟨[], false, 0, false, false, []⟩

/-- A reduction accumulator of kind NONE (R175). -/
def RAcc.reset : RAcc := ⟨0, 0, 0, 0⟩

/-- A statistic tap with nothing folded (R175). -/
def TapSt.reset : TapSt := ⟨0, 0⟩

/-- An inactive loop level (R224). -/
def LoopLv.reset : LoopLv := ⟨0, 0, 0, false⟩

/-- No exception pending. -/
def PendExc.none : PendExc := ⟨.none, [], [], .none, .none⟩

/-- A core under the default image (R224, R345). -/
def CoreSt.reset : CoreSt where
  slot := .a
  cfgA := none
  cfgB := none
  nextA := none
  nextB := none
  emptyA := true
  emptyB := true
  keptA := none
  keptB := none
  switching := false
  bare := false
  storeEcc := []
  sregs := []
  sEcc := []
  mregs := []
  mEcc := []
  vregs := []
  ocache := []
  ocEcc := []
  spad := []
  spEcc := []
  pc := 0
  ds := false
  dst := 0
  loops := []
  mode := 0
  pmode := 0
  pcount := 0
  calPend := 0
  stopped := false
  exc := 0
  excInfo := 0
  excPc := 0
  hcause := 0
  bksup := false
  stepping := false
  bkpt := 0
  pend := PendExc.none
  fence := none
  quad := Quad.reset
  arrays := []
  feeders := []
  ports := []
  raccs := []
  folds := []
  taps := []
  vseq := 0
  satStep := 0
  domStep := 0
  satTot := 0
  domTot := 0
  ocCorr := 0
  ocUncorr := 0
  fifo := []
  dropped := false
  lastComp := none

/-- A route with no image. -/
def RouteSt.reset : RouteSt := ⟨0, [], 0, [], []⟩

/-- An empty plain staging region. -/
def RegionSt.reset : RegionSt := ⟨[], 0⟩

/-- A sink at the start of its region. -/
def SinkSt.reset : SinkSt := ⟨[], 0, 0, 0, false⟩

/-- An endpoint at the start of its walk. -/
def EpSt.reset : EpSt := ⟨0, [], 0, false, none, false⟩

/-- An empty collector. -/
def DieColl.reset : DieColl := ⟨[], 0, 0, 0⟩

/-- A stack whose bank engines are idle. -/
def StackSt.reset : StackSt where
  sched := 0
  given := []
  qa := []
  qb := []
  qh := []
  buf1 := none
  claims := []
  satStep := 0
  ages := []
  spareUsed := []
  scrub := []
  redirected := []
  doneA := []

/-- A window page that Jusia has not refilled (R407). -/
def WinPage.reset : WinPage := ⟨1, 0, false, false⟩

/-- An empty translation buffer. -/
def XBufSt.reset : XBufSt := ⟨[], [], none⟩

/-- An idle DMA channel. -/
def DmaCh.reset : DmaCh := ⟨[], none, none⟩

/-- A cadence group with no step (R480). -/
def GroupSt.reset : GroupSt := ⟨0, [], none, none, none, none⟩

/-- A port that is DOWN. -/
def FabPort.reset : FabPort where
  signal := false
  lightAt := 0
  retriedAt := none
  neighbour := none
  readyIn := false
  readyOut := false
  flight := 0
  align := 0
  okRun := 0
  sinceAlign := 0
  lossRun := 0
  driftRun := 0
  ukind := 0
  uval := 0
  ucount := 0
  peerUkind := 0
  framesIn := []
  settling := false
  sinceCal := 0
  lastSlot := none
  lastRx := none
  delivered := []
  owed := []
  remq := []
  remin := []
  consq := []

/-- An empty landing channel. -/
def ChanSt.reset : ChanSt := ⟨[], 0, false, 0⟩

/-- An unarmed comparator (R531). -/
def CalSt.reset : CalSt := ⟨0, 0, 0, 0, false⟩

/-- A collective with no instance in progress. -/
def CollSt.reset : CollSt := ⟨[], 0, []⟩

/-- A Mule table with no exchange open. -/
def MuleSt.reset : MuleSt := ⟨0, 0, [], [], [], [], [], [], []⟩

/-- Bellwether at reset (R603). -/
def BwtSt.reset : BwtSt where
  code := []
  c := []
  prog := none
  cons := []
  lists := []
  incomp := false
  doneBD := false
  doneBE := false
  pexsat := false
  started := false
  decided := false
  barred := false
  pshift := 0
  haltPend := 0

/-- The save unit at reset. -/
def SavSt.reset : SavSt := ⟨none, none, none, []⟩

/-- A drive that is not attached. -/
def DriveSt.reset : DriveSt := ⟨[], 0, 0, false, ⟨0, 0, true⟩, ⟨0, 0, true⟩, false, []⟩

/-- Power control at reset. -/
def PwrSt.reset : PwrSt where
  target := none
  switched := []
  pll := []
  waiting := false
  deferred := none
  vfall := none
  charges := []
  samples := []
  tripped := []
  retries := []
  vholdW := false
  vholdE := false
  fastW := false
  fastE := false

/-- The host port at reset. -/
def HostSt.reset : HostSt := ⟨64, [], [], [], false, false⟩

/-- Fabric time at reset (R531). -/
def FabSt.reset : FabSt := ⟨0, 0, 0, none, 0, 0, false, none, 0⟩

/-- The management units at reset. -/
def MgtSt.reset : MgtSt where
  version := 0
  svn := 0
  smbOff := 0
  pwrok := false
  fref := false
  vaux := false
  booted := false
  fw := none
  sag := false
  tx := none
  gaugeDue := 0
  xfer := none
  pollDue := []

/-- Sheepdog with nothing queued. -/
def SdSt.reset : SdSt := ⟨[], none, [], [], [], [], [], [], []⟩

/-- The device after a cold reset: every register at the value of R741, the default image
in job slot A and none in job slot B (R345), no command waiting. -/
def State.reset : State where
  pending := []
  reg := regCold Config.fuses
  bar4 := []
  latches := []
  heldLo := []
  fuses := Config.fuses
  cores := []
  routes := []
  sinks := []
  eps := []
  staging := []
  stgEcc := []
  regions := []
  coll := []
  reporter := ⟨false, false, 0, true⟩
  imgA := none
  imgB := none
  loader := none
  defPend := false
  unloadB := false
  winOpen := []
  fabApplied := none
  logical := none
  mem := []
  memEcc := []
  stks := []
  hring := ⟨0, []⟩
  pages := []
  xbufs := []
  invBusy := none
  dma := []
  second := ⟨[], none, 0, 0, 0⟩
  fab := FabSt.reset
  ports := []
  chans := []
  cals := []
  rem := ⟨[], [], 0, []⟩
  colls := []
  mule := []
  bwt := BwtSt.reset
  sav := SavSt.reset
  drives := []
  pwr := PwrSt.reset
  host := HostSt.reset
  mgt := MgtSt.reset
  sd := SdSt.reset
  fresh := 0
  out := []

end Sys2Proof.Machine
end

