-- ==== Sys2Proof/Machine/Bundle.lean ====
section
/-! DEFINITION. The 128-bit bundle: its four slots, the operation each slot encodes, the
words they are encoded in, and the checks that need nothing but those words
(R226-R262). -/

namespace Sys2Proof.Machine

open Sys2Proof

/-! ### Operations -/

/-- The scalar operations of format R, in opcode order (R240). -/
inductive AluOp
  | sadd | ssub | sand | sor | sxor | sshl | sshr | ssra | smin | smax | sslt | smul
  deriving DecidableEq, Repr

/-- The mask operations of format K3, in opcode order. -/
inductive MaskOp | mand | mor | mxor | mandn
  deriving DecidableEq, Repr

/-- The branches of format BR, in opcode order. -/
inductive BrOp | always | eqz | nez | ltz | gez
  deriving DecidableEq, Repr

/-- A control-slot operation (R237, R240). -/
inductive CtlOp
  | cnop (f : FmtN)
  | alu (o : AluOp) (f : FmtR)
  | sld (f : FmtM)
  | sst (f : FmtM)
  | smfs (f : FmtF)
  | mask (o : MaskOp) (f : FmtK3)
  | mfill (f : FmtKF)
  | mpop (f : FmtKP)
  | br (o : BrOp) (f : FmtBR)
  | bmany (f : FmtBM)
  | bmnone (f : FmtBM)
  | loop (f : FmtLP)
  | setmode (f : FmtSM)
  | waitcal (f : FmtWC)
  | fence (f : FmtFN)
  | done (f : FmtDN)
  | brk (f : FmtN)
  | sli (f : FmtU)
  | slui (f : FmtU)
  | undef (w : BitVec 24)
  deriving DecidableEq, Repr

/-- An array-slot operation (R242). -/
inductive ArrOp
  | anop (f : FmtZ29)
  | amac (f : FmtAmac)
  | adrq (f : FmtAdrq)
  | adrw (f : FmtTileMove)
  | aldt (f : FmtTileMove)
  | astt (f : FmtTileMove)
  | undef (w : BitVec 32)
  deriving DecidableEq, Repr

/-- The lane operations, in opcode order (R259). -/
inductive LaneOp
  | vadd | vsub | vmin | vmax | vabs | vneg | vand | vor | vxor | vshl | vshr | vrshr
  | vnarrow | vcmpEq | vcmpNe | vcmpLt | vcmpLe | vsel | vmov | vbcast | vmul | vmulr
  | vmac | vexp2 | vexp | vlog2 | vrcp | vrsq
  deriving DecidableEq, Repr

/-- The operand-cache accesses, in opcode order. -/
inductive MemOp | vld | vst | vldx | vstx
  deriving DecidableEq, Repr

/-- A vector-slot operation (R259). -/
inductive VecOp
  | vnop (f : FmtZ34)
  | lane (o : LaneOp) (f : FmtL)
  | mem (o : MemOp) (f : FmtVM)
  | vxfr (f : FmtXfr)
  | vtile (f : FmtVtile)
  | rclr (f : FmtRed)
  | rget (f : FmtRed)
  | rgetn (f : FmtRed)
  | undef (w : BitVec 40)
  deriving DecidableEq, Repr

/-- A stream-slot operation (R261). -/
inductive StrOp
  | snop (f : FmtZ20)
  | srecv (f : FmtS)
  | ssend (f : FmtS)
  | sdrop (f : FmtS)
  | slevel (f : FmtS)
  | undef (w : BitVec 24)
  deriving DecidableEq, Repr

/-! ### Layouts of the slots -/

/-- Format R (R237). -/
def FmtR.dec (w : BitVec 24) : FmtR :=
  ⟨w.extractLsb' 13 5, w.extractLsb' 8 5, w.extractLsb' 7 1, w.extractLsb' 0 7⟩
/-- Format M. -/
def FmtM.dec (w : BitVec 24) : FmtM :=
  ⟨w.extractLsb' 13 5, w.extractLsb' 8 5, w.extractLsb' 0 8⟩
/-- Format K3. -/
def FmtK3.dec (w : BitVec 24) : FmtK3 :=
  ⟨w.extractLsb' 15 3, w.extractLsb' 12 3, w.extractLsb' 9 3, w.extractLsb' 0 9⟩
/-- Format BR. -/
def FmtBR.dec (w : BitVec 24) : FmtBR := ⟨w.extractLsb' 13 5, w.extractLsb' 0 13⟩
/-- Format BM. -/
def FmtBM.dec (w : BitVec 24) : FmtBM :=
  ⟨w.extractLsb' 15 3, w.extractLsb' 13 2, w.extractLsb' 0 13⟩
/-- Format U. -/
def FmtU.dec (w : BitVec 24) : FmtU := ⟨w.extractLsb' 16 5, w.extractLsb' 0 16⟩
/-- The layout of ADRW, ALDT and ASTT (R245). -/
def FmtTileMove.dec (w : BitVec 32) : FmtTileMove :=
  ⟨w.extractLsb' 25 4, w.extractLsb' 21 4, w.extractLsb' 18 3, w.extractLsb' 13 5,
   w.extractLsb' 0 13⟩
/-- The layout of AMAC (R243). -/
def FmtAmac.dec (w : BitVec 32) : FmtAmac :=
  ⟨w.extractLsb' 25 4, w.extractLsb' 21 4, w.extractLsb' 20 1, w.extractLsb' 19 1,
   w.extractLsb' 18 1, w.extractLsb' 13 5, w.extractLsb' 12 1, w.extractLsb' 9 3,
   w.extractLsb' 6 3, w.extractLsb' 0 6⟩
/-- The layout of ADRQ (R244). -/
def FmtAdrq.dec (w : BitVec 32) : FmtAdrq :=
  ⟨w.extractLsb' 25 4, w.extractLsb' 21 4, w.extractLsb' 19 2, w.extractLsb' 18 1,
   w.extractLsb' 13 5, w.extractLsb' 12 1, w.extractLsb' 11 1, w.extractLsb' 6 5,
   w.extractLsb' 1 5, w.extractLsb' 0 1⟩
/-- Lane format L (R249). -/
def FmtL.dec (w : BitVec 40) : FmtL :=
  ⟨w.extractLsb' 29 5, w.extractLsb' 24 5, w.extractLsb' 19 5, w.extractLsb' 16 3,
   w.extractLsb' 15 1, w.extractLsb' 14 1, w.extractLsb' 12 2, w.extractLsb' 9 3,
   w.extractLsb' 8 1, w.extractLsb' 1 7, w.extractLsb' 0 1⟩
/-- Memory format M (R252). -/
def FmtVM.dec (w : BitVec 40) : FmtVM :=
  ⟨w.extractLsb' 29 5, w.extractLsb' 24 5, w.extractLsb' 19 5, w.extractLsb' 16 3,
   w.extractLsb' 15 1, w.extractLsb' 13 2, w.extractLsb' 0 13⟩
/-- The layout of VXFR (R254). -/
def FmtXfr.dec (w : BitVec 40) : FmtXfr :=
  ⟨w.extractLsb' 33 1, w.extractLsb' 29 4, w.extractLsb' 24 5, w.extractLsb' 19 5,
   w.extractLsb' 0 19⟩
/-- The layout of VTILE (R256). -/
def FmtVtile.dec (w : BitVec 40) : FmtVtile :=
  ⟨w.extractLsb' 30 4, w.extractLsb' 27 3, w.extractLsb' 25 2, w.extractLsb' 24 1,
   w.extractLsb' 19 5, w.extractLsb' 18 1, w.extractLsb' 17 1, w.extractLsb' 12 5,
   w.extractLsb' 7 5, w.extractLsb' 3 4, w.extractLsb' 0 3⟩
/-- Reduction format R (R257). -/
def FmtRed.dec (w : BitVec 40) : FmtRed :=
  ⟨w.extractLsb' 32 2, w.extractLsb' 29 3, w.extractLsb' 24 5, w.extractLsb' 19 5,
   w.extractLsb' 0 19⟩
/-- The stream-slot layout (R260). -/
def FmtS.dec (w : BitVec 24) : FmtS :=
  ⟨w.extractLsb' 15 5, w.extractLsb' 10 5, w.extractLsb' 9 1, w.extractLsb' 8 1,
   w.extractLsb' 0 8⟩

/-! ### Decoding (R240, R242, R259, R261) -/

/-- The operation of a control-slot word. -/
def decodeCtl (w : BitVec 24) : CtlOp :=
  match (w.extractLsb' 18 6).toNat with
  | 0x00 => .cnop ⟨w.extractLsb' 0 18⟩
  | 0x01 => .alu .sadd (FmtR.dec w)
  | 0x02 => .alu .ssub (FmtR.dec w)
  | 0x03 => .alu .sand (FmtR.dec w)
  | 0x04 => .alu .sor (FmtR.dec w)
  | 0x05 => .alu .sxor (FmtR.dec w)
  | 0x06 => .alu .sshl (FmtR.dec w)
  | 0x07 => .alu .sshr (FmtR.dec w)
  | 0x08 => .alu .ssra (FmtR.dec w)
  | 0x09 => .alu .smin (FmtR.dec w)
  | 0x0A => .alu .smax (FmtR.dec w)
  | 0x0B => .alu .sslt (FmtR.dec w)
  | 0x0C => .alu .smul (FmtR.dec w)
  | 0x0D => .sld (FmtM.dec w)
  | 0x0E => .sst (FmtM.dec w)
  | 0x0F => .smfs ⟨w.extractLsb' 13 5, w.extractLsb' 9 4, w.extractLsb' 0 9⟩
  | 0x10 => .mask .mand (FmtK3.dec w)
  | 0x11 => .mask .mor (FmtK3.dec w)
  | 0x12 => .mask .mxor (FmtK3.dec w)
  | 0x13 => .mask .mandn (FmtK3.dec w)
  | 0x14 => .mfill ⟨w.extractLsb' 15 3, w.extractLsb' 10 5, w.extractLsb' 0 10⟩
  | 0x15 => .mpop ⟨w.extractLsb' 13 5, w.extractLsb' 10 3, w.extractLsb' 0 10⟩
  | 0x18 => .br .always (FmtBR.dec w)
  | 0x19 => .br .eqz (FmtBR.dec w)
  | 0x1A => .br .nez (FmtBR.dec w)
  | 0x1B => .br .ltz (FmtBR.dec w)
  | 0x1C => .br .gez (FmtBR.dec w)
  | 0x1D => .bmany (FmtBM.dec w)
  | 0x1E => .bmnone (FmtBM.dec w)
  | 0x20 => .loop ⟨w.extractLsb' 16 2, w.extractLsb' 15 1, w.extractLsb' 7 8, w.extractLsb' 0 7⟩
  | 0x21 => .setmode ⟨w.extractLsb' 17 1, w.extractLsb' 14 3, w.extractLsb' 0 14⟩
  | 0x22 => .waitcal ⟨w.extractLsb' 12 6, w.extractLsb' 0 12⟩
  | 0x23 => .fence ⟨w.extractLsb' 15 3, w.extractLsb' 0 15⟩
  | 0x24 => .done ⟨w.extractLsb' 10 8, w.extractLsb' 0 10⟩
  | 0x25 => .brk ⟨w.extractLsb' 0 18⟩
  | n =>
    if 0x30 ≤ n then
      if w.getLsbD 21 then .slui (FmtU.dec w) else .sli (FmtU.dec w)
    else .undef w

/-- The operation of an array-slot word. -/
def decodeArr (w : BitVec 32) : ArrOp :=
  match (w.extractLsb' 29 3).toNat with
  | 0 => .anop ⟨w.extractLsb' 0 29⟩
  | 1 => .amac (FmtAmac.dec w)
  | 2 => .adrq (FmtAdrq.dec w)
  | 3 => .adrw (FmtTileMove.dec w)
  | 4 => .aldt (FmtTileMove.dec w)
  | 5 => .astt (FmtTileMove.dec w)
  | _ => .undef w

/-- The operation of a vector-slot word. -/
def decodeVec (w : BitVec 40) : VecOp :=
  match (w.extractLsb' 34 6).toNat with
  | 0x00 => .vnop ⟨w.extractLsb' 0 34⟩
  | 0x01 => .lane .vadd (FmtL.dec w)
  | 0x02 => .lane .vsub (FmtL.dec w)
  | 0x03 => .lane .vmin (FmtL.dec w)
  | 0x04 => .lane .vmax (FmtL.dec w)
  | 0x05 => .lane .vabs (FmtL.dec w)
  | 0x06 => .lane .vneg (FmtL.dec w)
  | 0x07 => .lane .vand (FmtL.dec w)
  | 0x08 => .lane .vor (FmtL.dec w)
  | 0x09 => .lane .vxor (FmtL.dec w)
  | 0x0A => .lane .vshl (FmtL.dec w)
  | 0x0B => .lane .vshr (FmtL.dec w)
  | 0x0C => .lane .vrshr (FmtL.dec w)
  | 0x0D => .lane .vnarrow (FmtL.dec w)
  | 0x0E => .lane .vcmpEq (FmtL.dec w)
  | 0x0F => .lane .vcmpNe (FmtL.dec w)
  | 0x10 => .lane .vcmpLt (FmtL.dec w)
  | 0x11 => .lane .vcmpLe (FmtL.dec w)
  | 0x12 => .lane .vsel (FmtL.dec w)
  | 0x13 => .lane .vmov (FmtL.dec w)
  | 0x14 => .lane .vbcast (FmtL.dec w)
  | 0x15 => .lane .vmul (FmtL.dec w)
  | 0x16 => .lane .vmulr (FmtL.dec w)
  | 0x17 => .lane .vmac (FmtL.dec w)
  | 0x18 => .lane .vexp2 (FmtL.dec w)
  | 0x19 => .lane .vexp (FmtL.dec w)
  | 0x1A => .lane .vlog2 (FmtL.dec w)
  | 0x1B => .lane .vrcp (FmtL.dec w)
  | 0x1C => .lane .vrsq (FmtL.dec w)
  | 0x20 => .mem .vld (FmtVM.dec w)
  | 0x21 => .mem .vst (FmtVM.dec w)
  | 0x22 => .mem .vldx (FmtVM.dec w)
  | 0x23 => .mem .vstx (FmtVM.dec w)
  | 0x24 => .vxfr (FmtXfr.dec w)
  | 0x25 => .vtile (FmtVtile.dec w)
  | 0x26 => .rclr (FmtRed.dec w)
  | 0x27 => .rget (FmtRed.dec w)
  | 0x28 => .rgetn (FmtRed.dec w)
  | _ => .undef w

/-- The operation of a stream-slot word. -/
def decodeStr (w : BitVec 24) : StrOp :=
  match (w.extractLsb' 20 4).toNat with
  | 0 => .snop ⟨w.extractLsb' 0 20⟩
  | 1 => .srecv (FmtS.dec w)
  | 2 => .ssend (FmtS.dec w)
  | 3 => .sdrop (FmtS.dec w)
  | 4 => .slevel (FmtS.dec w)
  | _ => .undef w

/-! ### Encoding -/

/-- The opcode of a scalar operation (R240). -/
def AluOp.code : AluOp → BitVec 6
  | .sadd => 1 | .ssub => 2 | .sand => 3 | .sor => 4 | .sxor => 5 | .sshl => 6 | .sshr => 7
  | .ssra => 8 | .smin => 9 | .smax => 10 | .sslt => 11 | .smul => 12

/-- The opcode of a mask operation. -/
def MaskOp.code : MaskOp → BitVec 6
  | .mand => 0x10 | .mor => 0x11 | .mxor => 0x12 | .mandn => 0x13

/-- The opcode of a branch. -/
def BrOp.code : BrOp → BitVec 6
  | .always => 0x18 | .eqz => 0x19 | .nez => 0x1A | .ltz => 0x1B | .gez => 0x1C

/-- The control-slot word of an operation (R237). -/
def encodeCtl : CtlOp → BitVec 24
  | .cnop f => (0 : BitVec 6) ++ f.rsv
  | .alu o f => o.code ++ f.d ++ f.a ++ f.i ++ f.low
  | .sld f => (0x0D : BitVec 6) ++ f.d ++ f.a ++ f.imm
  | .sst f => (0x0E : BitVec 6) ++ f.d ++ f.a ++ f.imm
  | .smfs f => (0x0F : BitVec 6) ++ f.d ++ f.sel ++ f.rsv
  | .mask o f => o.code ++ f.md ++ f.ma ++ f.mb ++ f.rsv
  | .mfill f => (0x14 : BitVec 6) ++ f.md ++ f.a ++ f.rsv
  | .mpop f => (0x15 : BitVec 6) ++ f.d ++ f.ma ++ f.rsv
  | .br o f => o.code ++ f.a ++ f.off
  | .bmany f => (0x1D : BitVec 6) ++ f.ma ++ f.rsv ++ f.off
  | .bmnone f => (0x1E : BitVec 6) ++ f.ma ++ f.rsv ++ f.off
  | .loop f => (0x20 : BitVec 6) ++ f.n ++ f.i ++ f.cnt ++ f.endo
  | .setmode f => (0x21 : BitVec 6) ++ f.i ++ f.rsv ++ f.imm
  | .waitcal f => (0x22 : BitVec 6) ++ f.n ++ f.rsv
  | .fence f => (0x23 : BitVec 6) ++ f.kind ++ f.rsv
  | .done f => (0x24 : BitVec 6) ++ f.code ++ f.rsv
  | .brk f => (0x25 : BitVec 6) ++ f.rsv
  | .sli f => (0b110 : BitVec 3) ++ f.d ++ f.imm
  | .slui f => (0b111 : BitVec 3) ++ f.d ++ f.imm
  | .undef w => w

/-- The array-slot word of an operation (R243-R245). -/
def encodeArr : ArrOp → BitVec 32
  | .anop f => (0 : BitVec 3) ++ f.rsv
  | .amac f => (1 : BitVec 3) ++ f.amask ++ f.tile ++ f.ow ++ f.neg ++ f.asc ++ f.sreg ++ f.ovf
      ++ f.ka ++ f.kb ++ f.rsv
  | .adrq f => (2 : BitVec 3) ++ f.amask ++ f.tile ++ f.w ++ f.pol ++ f.sreg ++ f.ovf ++ f.rnd
      ++ f.h ++ f.dst ++ f.rsv
  | .adrw f => (3 : BitVec 3) ++ f.amask ++ f.tile ++ f.rsva ++ f.sreg ++ f.rsvb
  | .aldt f => (4 : BitVec 3) ++ f.amask ++ f.tile ++ f.rsva ++ f.sreg ++ f.rsvb
  | .astt f => (5 : BitVec 3) ++ f.amask ++ f.tile ++ f.rsva ++ f.sreg ++ f.rsvb
  | .undef w => w

/-- The opcode of a lane operation (R259). -/
def LaneOp.code : LaneOp → BitVec 6
  | .vadd => 0x01 | .vsub => 0x02 | .vmin => 0x03 | .vmax => 0x04 | .vabs => 0x05
  | .vneg => 0x06 | .vand => 0x07 | .vor => 0x08 | .vxor => 0x09 | .vshl => 0x0A
  | .vshr => 0x0B | .vrshr => 0x0C | .vnarrow => 0x0D | .vcmpEq => 0x0E | .vcmpNe => 0x0F
  | .vcmpLt => 0x10 | .vcmpLe => 0x11 | .vsel => 0x12 | .vmov => 0x13 | .vbcast => 0x14
  | .vmul => 0x15 | .vmulr => 0x16 | .vmac => 0x17 | .vexp2 => 0x18 | .vexp => 0x19
  | .vlog2 => 0x1A | .vrcp => 0x1B | .vrsq => 0x1C

/-- The opcode of an operand-cache access. -/
def MemOp.code : MemOp → BitVec 6
  | .vld => 0x20 | .vst => 0x21 | .vldx => 0x22 | .vstx => 0x23

/-- The vector-slot word of an operation (R249, R252, R254, R256, R257). -/
def encodeVec : VecOp → BitVec 40
  | .vnop f => (0 : BitVec 6) ++ f.rsv
  | .lane o f => o.code ++ f.d ++ f.a ++ f.b ++ f.mask ++ f.ovf ++ f.rnd ++ f.racc ++ f.rop
      ++ f.ns ++ f.n ++ f.rsv
  | .mem o f => o.code ++ f.v ++ f.sa ++ f.vb ++ f.mask ++ f.ovf ++ f.size ++ f.imm
  | .vxfr f => (0x24 : BitVec 6) ++ f.dir ++ f.km1 ++ f.sc ++ f.sp ++ f.rsv
  | .vtile f => (0x25 : BitVec 6) ++ f.amask ++ f.mode ++ f.w ++ f.pol ++ f.h ++ f.rnd ++ f.ovf
      ++ f.sbase ++ f.sdst ++ f.stride ++ f.rsv
  | .rclr f => (0x26 : BitVec 6) ++ f.racc ++ f.kind ++ f.sd ++ f.sh ++ f.rsv
  | .rget f => (0x27 : BitVec 6) ++ f.racc ++ f.kind ++ f.sd ++ f.sh ++ f.rsv
  | .rgetn f => (0x28 : BitVec 6) ++ f.racc ++ f.kind ++ f.sd ++ f.sh ++ f.rsv
  | .undef w => w

/-- The stream-slot word of an operation (R260). -/
def encodeStr : StrOp → BitVec 24
  | .snop f => (0 : BitVec 4) ++ f.rsv
  | .srecv f => (1 : BitVec 4) ++ f.port ++ f.v ++ f.last ++ f.lend ++ f.rsv
  | .ssend f => (2 : BitVec 4) ++ f.port ++ f.v ++ f.last ++ f.lend ++ f.rsv
  | .sdrop f => (3 : BitVec 4) ++ f.port ++ f.v ++ f.last ++ f.lend ++ f.rsv
  | .slevel f => (4 : BitVec 4) ++ f.port ++ f.v ++ f.last ++ f.lend ++ f.rsv
  | .undef w => w

/-! ### A bundle -/

/-- A bundle as its slots' operations. -/
structure Bundle where
  fmt : BitVec 4
  slotv : BitVec 4
  ctl : CtlOp
  arr : ArrOp
  vec : VecOp
  str : StrOp
  deriving DecidableEq, Repr

/-- The bundle whose slots' words a command carries. -/
def Bundle.ofOthers (r : Others) : Bundle where
  fmt := r.fmt
  slotv := r.slotv
  ctl := decodeCtl r.ctl
  arr := decodeArr r.arr
  vec := decodeVec r.vec
  str := decodeStr r.str

/-- The bundle of a 128-bit word (R226). -/
def Bundle.decode (w : BitVec 128) : Bundle where
  fmt := w.extractLsb' 124 4
  slotv := w.extractLsb' 120 4
  ctl := decodeCtl (w.extractLsb' 96 24)
  arr := decodeArr (w.extractLsb' 64 32)
  vec := decodeVec (w.extractLsb' 24 40)
  str := decodeStr (w.extractLsb' 0 24)

/-- The 128-bit word of a bundle (R226). -/
def Bundle.encode (b : Bundle) : BitVec 128 :=
  b.fmt ++ b.slotv ++ encodeCtl b.ctl ++ encodeArr b.arr ++ encodeVec b.vec ++ encodeStr b.str

/-! ### Fields that must be 0, and operands that the word alone makes illegal (R230-R233) -/

/-- ILLEGAL details (R212). -/
def dUndefOp : Nat := 1
/-- RSV_FIELD. -/
def dRsvField : Nat := 2
/-- BAD_OPERAND. -/
def dBadOperand : Nat := 3
/-- MISALIGN. -/
def dMisalign : Nat := 4
/-- CTL_IN_DS. -/
def dCtlInDs : Nat := 5
/-- LOOP_END. -/
def dLoopEnd : Nat := 6
/-- LOOP_NEST. -/
def dLoopNest : Nat := 7
/-- MODE_SHADOW. -/
def dModeShadow : Nat := 8
/-- MODE_PLANE. -/
def dModePlane : Nat := 9
/-- WRITE_CONFLICT. -/
def dWriteConflict : Nat := 10
/-- PC_RANGE. -/
def dPcRange : Nat := 11
/-- BRK_NODEBUG. -/
def dBrkNodebug : Nat := 12

/-- The output width w of a W code (R236). -/
def wBits (w : BitVec 2) : Nat := 4 * 2 ^ w.toNat

/-- A reserved field of a control operation is not 0 (R237). -/
def CtlOp.rsv : CtlOp → Bool
  | .cnop f | .brk f => f.rsv != 0
  | .alu _ f => f.i == 0 && f.low.extractLsb' 0 2 != 0
  | .smfs f => f.rsv != 0
  | .mask _ f => f.rsv != 0
  | .mfill f => f.rsv != 0
  | .mpop f => f.rsv != 0
  | .br .always f => f.a != 0
  | .bmany f | .bmnone f => f.rsv != 0
  | .loop f => f.i == 0 && f.cnt.extractLsb' 0 3 != 0
  | .setmode f => f.rsv != 0 || (f.i == 0 && f.imm.extractLsb' 5 9 != 0)
  | .waitcal f => f.rsv != 0
  | .fence f => f.rsv != 0
  | .done f => f.rsv != 0
  | .br _ _ | .sld _ | .sst _ | .sli _ | .slui _ | .undef _ => false

/-- A control operand that R239 makes illegal whatever the registers hold. -/
def CtlOp.bad : CtlOp → Bool
  | .loop f => f.n == 3 || f.endo == 0
  | .smfs f => 6 ≤ f.sel.toNat
  | .fence f => 5 ≤ f.kind.toNat
  | _ => false

/-- Whether a kind is I8 or a limb kind (R95). -/
def kindLimb (k : BitVec 3) : Bool := k == 0 || 3 ≤ k.toNat

/-- A legal pairing of operand kinds (R95). -/
def pairLegal (ka kb : BitVec 3) : Bool :=
  (ka == 1 && kb == 1) || (ka == 1 && kb == 0) || (ka == 0 && kb == 1) || (ka == 2 && kb == 0)
    || (ka == 0 && kb == 2) || (kindLimb ka && kindLimb kb)

/-- A reserved field of an array operation is not 0 (R243-R245). -/
def ArrOp.rsv : ArrOp → Bool
  | .anop f => f.rsv != 0
  | .amac f => f.rsv != 0 || (f.asc == 0 && f.sreg != 0)
  | .adrq f => f.rsv != 0 || (f.pol == 1 && f.sreg != 0) || (f.pol == 0 && f.h != 0)
  | .adrw f | .aldt f | .astt f => f.rsva != 0 || f.rsvb != 0
  | .undef _ => false

/-- An array operand that R246 makes illegal whatever the registers hold. -/
def ArrOp.bad : ArrOp → Bool
  | .amac f => f.amask == 0 || !pairLegal f.ka f.kb
  | .adrq f => f.amask == 0 || (f.pol == 1 && decide (wBits f.w - 3 < f.h.toNat))
  | .adrw f | .aldt f | .astt f => f.amask == 0
  | .anop _ | .undef _ => false

/-- The use that a lane operation makes of its fields (R250): B as a vector register, B as
QI, the range of N (none: N must be 0), RND, OVF, RED. -/
structure LaneUse where
  b : Bool
  qi : Bool
  n : Option (Nat × Nat)
  rnd : Bool
  ovf : Bool
  red : Bool
  deriving DecidableEq, Repr

/-- The rows of R250; VNARROW's width code is checked apart. -/
def LaneOp.use : LaneOp → LaneUse
  | .vadd | .vsub | .vmul => ⟨true, false, none, false, true, true⟩
  | .vmin | .vmax | .vand | .vor | .vxor => ⟨true, false, none, false, false, true⟩
  | .vabs | .vneg => ⟨false, false, none, false, true, true⟩
  | .vshl => ⟨false, false, some (0, 31), false, true, true⟩
  | .vshr => ⟨false, false, some (0, 31), false, false, true⟩
  | .vrshr => ⟨false, false, some (0, 63), true, true, true⟩
  | .vnarrow => ⟨false, false, some (0, 4), false, true, true⟩
  | .vcmpEq | .vcmpNe | .vcmpLt | .vcmpLe => ⟨true, false, none, false, false, false⟩
  | .vsel => ⟨true, false, none, false, false, true⟩
  | .vmov | .vbcast => ⟨false, false, none, false, false, true⟩
  | .vmulr | .vmac => ⟨true, false, some (0, 63), true, true, true⟩
  | .vexp2 | .vexp => ⟨false, false, some (0, 30), true, true, true⟩
  | .vlog2 => ⟨false, false, some (0, 31), false, true, true⟩
  | .vrcp | .vrsq => ⟨false, true, some (0, 31), true, true, true⟩

/-- Whether a lane operation writes a mask register (R249). -/
def LaneOp.cmp : LaneOp → Bool
  | .vcmpEq | .vcmpNe | .vcmpLt | .vcmpLe => true
  | _ => false

/-- A field that must be 0 in a lane operation is not (R249-R251). -/
def laneRsv (o : LaneOp) (f : FmtL) : Bool :=
  let u := o.use
  f.rsv != 0 || (o.cmp && f.d.extractLsb' 3 2 != 0)
    || (!u.b && !u.qi && f.b != 0)
    || (u.n.isNone && (f.n != 0 || f.ns != 0))
    || (o == .vnarrow && f.ns != 0)
    || (!u.rnd && f.rnd != 0) || (!u.ovf && f.ovf != 0)
    || (!u.red && (f.racc != 0 || f.rop != 0))
    || (f.rop == 0 && f.racc != 0)
    || (u.n.isSome && f.ns == 1 && f.n.extractLsb' 5 2 != 0)

/-- A lane operand that the word alone makes illegal: a reserved ROP or an immediate N
outside its range (R250, R251). -/
def laneBad (o : LaneOp) (f : FmtL) : Bool :=
  6 ≤ f.rop.toNat ||
    (f.ns == 0 && match o.use.n with
      | none => false
      | some (lo, hi) => decide (f.n.toInt < lo) || decide (f.n.toInt > hi))

/-- A reserved field of a vector operation is not 0. -/
def VecOp.rsv : VecOp → Bool
  | .vnop f => f.rsv != 0
  | .lane o f => laneRsv o f
  | .mem .vld f => f.vb != 0 || f.ovf != 0
  | .mem .vst f => f.vb != 0
  | .mem .vldx f => f.ovf != 0
  | .mem .vstx _ => false
  | .vxfr f => f.rsv != 0
  | .vtile f => f.rsv != 0
  | .rclr f => f.rsv != 0 || f.sd != 0 || f.sh != 0
  | .rget f => f.rsv != 0 || f.kind.extractLsb' 0 1 != 0 || f.sh != 0
  | .rgetn f => f.rsv != 0 || f.kind != 0
  | .undef _ => false

/-- A vector operand that the word alone makes illegal (R251, R256-R258). -/
def VecOp.bad : VecOp → Bool
  | .lane o f => laneBad o f
  | .vtile f => f.amask == 0 || 5 ≤ f.mode.toNat || decide (f.stride.toNat < 5)
      || (f.pol == 1 && decide (wBits f.w - 3 < f.h.toNat))
  | .rclr f => 6 ≤ f.kind.toNat
  | .rget f => f.kind.extractLsb' 1 2 == 3
  | .rgetn f => f.sd == f.sh
  | .vnop _ | .mem _ _ | .vxfr _ | .undef _ => false

/-- A reserved field of a stream operation is not 0 (R260). -/
def StrOp.rsv : StrOp → Bool
  | .snop f => f.rsv != 0
  | .srecv f | .slevel f => f.rsv != 0 || f.last != 0 || f.lend != 0
  | .ssend f => f.rsv != 0
  | .sdrop f => f.rsv != 0 || f.last != 0 || f.lend != 0 || f.v != 0
  | .undef _ => false

/-- A stream operand that the word alone makes illegal (R262). -/
def StrOp.bad : StrOp → Bool
  | .ssend f => f.lend == 1 && f.last == 0
  | _ => false

/-- An undefined control opcode. -/
def CtlOp.undefd : CtlOp → Bool
  | .undef _ => true
  | _ => false
/-- An undefined array opcode. -/
def ArrOp.undefd : ArrOp → Bool
  | .undef _ => true
  | _ => false
/-- An undefined vector opcode. -/
def VecOp.undefd : VecOp → Bool
  | .undef _ => true
  | _ => false
/-- An undefined stream opcode. -/
def StrOp.undefd : StrOp → Bool
  | .undef _ => true
  | _ => false

/-- The slot-valid bits: control 3, array 2, vector 1, stream 0 (R226). -/
def Bundle.valid (b : Bundle) (slot : Nat) : Bool := b.slotv.getLsbD (3 - slot)

/-- FMT, then SLOTV (R229, R230): the slot and the detail of the first failure. -/
def Bundle.headErr (b : Bundle) : Option (Nat × Nat) :=
  if b.fmt ≠ 0 then some (0, dUndefOp)
  else if ¬ b.valid 0 ∧ b.ctl ≠ .cnop ⟨0⟩ then some (0, dRsvField)
  else if ¬ b.valid 1 ∧ b.arr ≠ .anop ⟨0⟩ then some (1, dRsvField)
  else if ¬ b.valid 2 ∧ b.vec ≠ .vnop ⟨0⟩ then some (2, dRsvField)
  else if ¬ b.valid 3 ∧ b.str ≠ .snop ⟨0⟩ then some (3, dRsvField)
  else none

/-- Whether decoding alone rejects the bundle. -/
def Bundle.illegal (b : Bundle) : Bool :=
  b.headErr.isSome || b.ctl.undefd || b.ctl.rsv || b.ctl.bad || b.arr.undefd || b.arr.rsv
    || b.arr.bad || b.vec.undefd || b.vec.rsv || b.vec.bad || b.str.undefd || b.str.rsv
    || b.str.bad

/-! ### Registers that a bundle reads and writes -/

/-- A register of the core. -/
inductive RegName
  | s (n : BitVec 5) | m (n : BitVec 3) | v (n : BitVec 5)
  deriving DecidableEq, Repr

/-- Scalar and mask registers that a control operation reads (R238). -/
def CtlOp.reads : CtlOp → List RegName
  | .alu _ f => .s f.a :: (if f.i = 0 then [.s (f.low.extractLsb' 2 5)] else [])
  | .sld f => [.s f.a]
  | .sst f => [.s f.a, .s f.d]
  | .mask _ f => [.m f.ma, .m f.mb]
  | .mfill f => [.s f.a]
  | .mpop f => [.m f.ma]
  | .br .always _ => []
  | .br _ f => [.s f.a]
  | .bmany f | .bmnone f => [.m f.ma]
  | .loop f => if f.i = 0 then [.s (f.cnt.extractLsb' 3 5)] else []
  | .setmode f => if f.i = 0 then [.s (f.imm.extractLsb' 0 5)] else []
  | .slui f => [.s f.d]
  | _ => []

/-- Registers that a control operation writes. -/
def CtlOp.writes : CtlOp → List RegName
  | .alu _ f => [.s f.d]
  | .sld f => [.s f.d]
  | .smfs f => [.s f.d]
  | .mask _ f => [.m f.md]
  | .mfill f => [.m f.md]
  | .mpop f => [.s f.d]
  | .sli f | .slui f => [.s f.d]
  | _ => []

/-- Scalar registers that an array operation reads at issue (R97). -/
def ArrOp.reads : ArrOp → List RegName
  | .amac f => if f.asc = 1 then [.s f.sreg] else []
  | .adrq f => if f.pol = 0 then [.s f.sreg] else []
  | .adrw f | .aldt f | .astt f => [.s f.sreg]
  | _ => []

/-- Scalar and mask registers that a vector operation reads. -/
def VecOp.reads : VecOp → List RegName
  | .lane o f => .m f.mask :: (if o = .vbcast then [.s f.a] else [])
      ++ (if f.ns = 1 then .s (f.n.extractLsb' 0 5) :: (if o.use.qi then [.s f.b] else []) else [])
  | .mem _ f => [.m f.mask, .s f.sa]
  | .vxfr f => [.s f.sc, .s f.sp]
  | .vtile f => [.s f.sbase, .s f.sdst] ++ (if f.pol = 0 then [.s f.h] else [])
  | _ => []

/-- Registers that a vector operation writes. -/
def VecOp.writes : VecOp → List RegName
  | .lane o f => if o.cmp then [.m (f.d.extractLsb' 0 3)] else [.v f.d]
  | .mem .vld f | .mem .vldx f => [.v f.v]
  | .rget f => [.s f.sd]
  | .rgetn f => [.s f.sd, .s f.sh]
  | _ => []

/-- Registers that a stream operation writes. -/
def StrOp.writes : StrOp → List RegName
  | .srecv f => [.v f.v]
  | .slevel f => [.s f.v]
  | _ => []

/-- S0 and M0 may be named as a destination by any number of slots (R182). -/
def RegName.exempt (r : RegName) : Bool := r == .s 0 || r == .m 0

/-- Whether two slots write one register (R182, R235). -/
def clash (a b : List RegName) : Bool := a.any fun r => !r.exempt && b.contains r

/-- The first of two slots that write one register (R234 step 4). -/
def Bundle.conflict (b : Bundle) : Option Nat :=
  if clash b.ctl.writes (b.vec.writes ++ b.str.writes) then some 0
  else if clash b.vec.writes b.str.writes then some 2
  else none

end Sys2Proof.Machine
end

