-- ==== Sys2Proof/Machine/Arith.lean ====
section
/-! DEFINITION. Byte order, plain formats and the exact arithmetic of the integer helpers
(R9, R10, R50-R91). -/

namespace Sys2Proof.Machine

open Sys2Proof

/-! ### Bytes, words and lanes -/

/-- The unsigned value of bytes, little-endian (R9). -/
def leNat : List Byte → Nat
  | [] => 0
  | b :: r => b.toNat + 256 * leNat r

/-- The `n` little-endian bytes of a value, taken modulo 2^(8n) (R9). -/
def leBytes : Nat → Nat → List Byte
  | 0, _ => []
  | n + 1, v => BitVec.ofNat 8 v :: leBytes n (v / 256)

/-- A value in two's complement at width `w` as an integer. -/
def toS (w : Nat) (v : Nat) : Int :=
  if v % 2 ^ w < 2 ^ (w - 1) then (v % 2 ^ w : Nat) else (v % 2 ^ w : Nat) - (2 ^ w : Nat)

/-- The little-endian bytes of a signed value. -/
def leInt (n : Nat) (x : Int) : List Byte := leBytes n (x % (2 ^ (8 * n) : Nat)).toNat

/-- Bytes `o` to `o + n - 1` of a byte list as an unsigned value; bytes past its end read 0. -/
def fieldLe (l : List Byte) (o n : Nat) : Nat := leNat ((l.drop o).take n)

/-- Cut a list into groups of `n` (the last may be shorter). -/
def groupsOf {α : Type} (n : Nat) : Nat → List α → List (List α)
  | 0, _ => []
  | _ + 1, [] => []
  | fuel + 1, l => l.take n :: groupsOf n fuel (l.drop n)

/-- The bytes of a payload, byte 0 first. -/
def Payload.bytes (p : Payload) : List Byte := leBytes 256 p.toNat

/-- The payload of up to 256 bytes; missing bytes are 0. -/
def Payload.ofBytes (l : List Byte) : Payload := BitVec.ofNat 2048 (leNat (l.take 256))

/-- Lane `i`, 32 bits (R137). -/
def lane (p : Payload) (i : Nat) : W32 := p.extractLsb' (32 * i) 32

/-- The 64 lanes of a payload. -/
def lanes (p : Payload) : List W32 := (List.range 64).map (lane p)

/-- The unsigned value of a list of 32-bit words, the first least significant. -/
def wordsNat : List W32 → Nat
  | [] => 0
  | w :: r => w.toNat + 4294967296 * wordsNat r

/-- The payload of up to 64 lanes. -/
def ofLanes (l : List W32) : Payload := BitVec.ofNat 2048 (wordsNat (l.take 64))

/-- The sum of a list of naturals. -/
def sumNat (l : List Nat) : Nat := l.foldl (· + ·) 0

/-! ### Saturation, wrapping and need (R57-R59) -/

/-- satw (R57). -/
def satw (x : Int) (w : Nat) : Int :=
  if x < -((2 ^ (w - 1) : Nat) : Int) then -((2 ^ (w - 1) : Nat) : Int)
  else if x > ((2 ^ (w - 1) : Nat) : Int) - 1 then ((2 ^ (w - 1) : Nat) : Int) - 1
  else x

/-- wrapw (R57). -/
def wrapw (x : Int) (w : Nat) : Int :=
  if x % (2 ^ w : Nat) < (2 ^ (w - 1) : Nat) then x % (2 ^ w : Nat)
  else x % (2 ^ w : Nat) - (2 ^ w : Nat)

/-- ovfw (R57): the value under WRAP or SAT, and whether a saturation event counts (R58). -/
def ovfw (x : Int) (w : Nat) (wrap : Bool) : Int × Bool :=
  if wrap then (wrapw x w, decide (wrapw x w ≠ x)) else (satw x w, decide (satw x w ≠ x))

/-- need (R59): the bits of the shortest two's-complement field that holds `x`. -/
def need (x : Int) : Nat :=
  if (if 0 ≤ x then x else -x - 1) = 0 then 1
  else Nat.log2 (if 0 ≤ x then x else -x - 1).toNat + 2

/-! ### Rounding by shift (R60-R62) and the counter-based generator (R63, R64) -/

/-- Arithmetic shift: floor of `x / 2^n`. -/
def asr (x : Int) (n : Nat) : Int := x / (2 ^ n : Nat)

/-- Left shift, exact. -/
def shl (x : Int) (n : Nat) : Int := x * (2 ^ n : Nat)

/-- rne_shr (R60). -/
def rneShr (x : Int) (n : Nat) : Int :=
  if n = 0 then x
  else if x % (2 ^ n : Nat) > (2 ^ (n - 1) : Nat)
      ∨ (x % (2 ^ n : Nat) = (2 ^ (n - 1) : Nat) ∧ asr x n % 2 = 1) then asr x n + 1
  else asr x n

/-- sr_shr (R61). -/
def srShr (x : Int) (n : Nat) (r : W32) : Int :=
  if n = 0 then x
  else asr (x + (if n ≤ 32 then (r.toNat >>> (32 - n) : Nat) else (r.toNat <<< (n - 32) : Nat))) n

/-- shift_round (R62); `r` is none under RNE and the random word under SR. -/
def shiftRound (x : Int) (n : Int) (r : Option W32) : Int :=
  if n ≤ 0 then shl x (-n).toNat
  else match r with
    | none => rneShr x n.toNat
    | some w => srShr x n.toNat w

/-- One of the four rounds of the generator. -/
def rndRound (x : W64) : W64 :=
  let y := (x ^^^ (x >>> 29)) * 0xB5E38A6D2C4791F3#64
  y ^^^ (y >>> 32)

/-- rnd32 (R63). -/
def rnd32 (seed : W64) (stream : W32) (ctr : W64) : W32 :=
  let x := seed ^^^ (stream.setWidth 64 * 0x9A3C5E71D0B42F87#64) ^^^ (ctr * 0xC2B17E4D63A9F015#64)
  (rndRound (rndRound (rndRound (rndRound x))) >>> 32).setWidth 32

/-- The element counter (R64); `e` is 32 * row + col. -/
def srCtr (step : W32) (tseq : Nat) (e : Nat) : W64 :=
  step ++ (BitVec.ofNat 22 tseq ++ BitVec.ofNat 10 e : W32)

/-- What SR takes its words from: seed, stream identifier and step. -/
structure SrKey where
  seed : W64
  stream : W32
  step : W32
  deriving DecidableEq, Repr

/-- The random word of element `e` of tile `tseq`; none under RNE. -/
def srWord (k : Option SrKey) (tseq e : Nat) : Option W32 :=
  k.map fun k => rnd32 k.seed k.stream (srCtr k.step tseq e)

/-! ### Scales (R67-R71) and quant (R76-R79) -/

/-- align (R70). -/
def align (p : Int) (sp sacc : Int) : Int :=
  if sacc ≤ sp then shl p (sp - sacc).toNat else rneShr p (sacc - sp).toNat

/-- The result of quant: mantissas, output scale, saturation events, scale event. -/
structure Quant where
  y : List Int
  scale : Int
  sats : Nat
  clamp : Bool
  deriving DecidableEq, Repr

/-- The largest need of a list. -/
def maxNeed (t : List Int) : Nat := t.foldl (fun m x => max m (need x)) 0

/-- Round every element by the same shift; `r e` is the random word of element `e`. -/
def roundAll (t : List Int) (n : Int) (r : Nat → Option W32) : List Int :=
  t.mapIdx fun e x => shiftRound x n (r e)

/-- The last two steps of quant: ovfw of every element, and -128 for an all-zero AUTO tile. -/
def quantEnd (y : List Int) (sOut : Int) (w : Nat) (fixed wrap clamp : Bool) : Quant :=
  let z := y.map fun x => ovfw x w wrap
  let v := z.map (·.1)
  { y := v
    scale := if !fixed && v.all (· == 0) then -128 else sOut
    sats := z.countP (·.2)
    clamp := clamp }

/-- The shift, the output scale and whether AUTO clamped it, before rounding (R76). -/
def quantScale (mx : Nat) (sT : Int) (w h : Nat) : Int × Int × Bool :=
  let n : Int := max 0 ((mx : Int) + h - w)
  if sT + n < -128 then (-128 - sT, -128, true)
  else if sT + n > 127 then (127 - sT, 127, true)
  else (n, sT + n, false)

/-- quant (R55, R56, R76): `fix` is the scale of POL = FIXED, none under AUTO. -/
def quant (t : List Int) (sT : Int) (w : Nat) (fix : Option Int) (h : Nat)
    (r : Nat → Option W32) (wrap : Bool) : Quant :=
  match fix with
  | some sFix => quantEnd (roundAll t (sFix - sT) r) sFix w true wrap false
  | none =>
    if t.all (· == 0) then { y := t.map fun _ => 0, scale := -128, sats := 0, clamp := false }
    else
      let q := quantScale (maxNeed t) sT w h
      let y := roundAll t q.1 r
      if q.2.1 < 127 ∧ y.any (fun x => need x > w - h) then
        quantEnd (roundAll t (q.1 + 1) r) (q.2.1 + 1) w false wrap q.2.2
      else quantEnd y q.2.1 w false wrap q.2.2

/-! ### Limbs (R80-R83) -/

/-- A lower limb, unsigned (R80). -/
def limb8 (x : Int) (i : Nat) : Int := asr x (8 * i) % 256

/-- The top limb, signed (R80). -/
def limb8s (x : Int) (i : Nat) : Int := asr x (8 * i)

/-- combine16 before its sat64 (R83). -/
def combine16 (t0 t8 t16 : Int) : Int := shl t16 16 + shl t8 8 + t0

/-- combine24 before its sat64 (R83). -/
def combine24 (t0 t8 t16 t24 t32 : Int) : Int :=
  shl t32 32 + shl t24 24 + shl t16 16 + shl t8 8 + t0

/-- trunc24 before its sat64 (R83). -/
def trunc24 (t16 t24 t32 : Int) : Int := shl t32 32 + shl t24 24 + shl t16 16

/-! ### Stored formats (R50-R53) -/

/-- Mantissa width of a format code 0 I4S, 1 I8S, 2 I16S, 3 I32S. -/
def fmtWidth (f : Nat) : Nat := 4 * 2 ^ (f % 4)

/-- Mantissa bytes of a tile of a format code (R53). -/
def fmtBytes (f : Nat) : Nat := 512 * 2 ^ (f % 4)

/-- Pack mantissas of width 4, 8, 16 or 32 into bytes (R50, R51). -/
def packMant (w : Nat) (y : List Int) : List Byte :=
  if w = 4 then
    (groupsOf 2 y.length y).map fun g =>
      BitVec.ofNat 8 ((g.getD 0 0 % 16).toNat + 16 * (g.getD 1 0 % 16).toNat)
  else y.flatMap fun x => leInt (w / 8) x

/-- Unpack bytes into mantissas of width 4, 8, 16 or 32 (R50, R51). -/
def unpackMant (w : Nat) (b : List Byte) : List Int :=
  if w = 4 then b.flatMap fun x => [toS 4 x.toNat, toS 4 (x.toNat / 16)]
  else (groupsOf (w / 8) b.length b).map fun g => toS w (leNat g)

/-- Saturating increment of a counter field of width `w`. -/
def incSat (w v n : Nat) : Nat := min (v + n) (2 ^ w - 1)

end Sys2Proof.Machine
end

