-- ==== Sys2Proof/Machine/Ops.lean ====
section
/-! DEFINITION. The named operations that every unit uses: control registers and their
fields, BAR4 words, messages to the host, the error log with Sheepdog's queue, the
incomplete bit, and access to the records of cores, stacks and ports. -/

namespace Sys2Proof.Machine

open Sys2Proof

/-! ### Control registers (R13, R739-R742) -/

/-- The stored word of a control register. -/
def State.rd (s : State) (off : Nat) : W32 := Tab.look regReset s.reg off

/-- Store a word of a control register. -/
def State.wr (s : State) (off : Nat) (v : W32) : State :=
  { s with reg := Tab.put regReset s.reg off v }

/-- The mask of a field in its register. -/
def Fld.mask (f : Fld) : W32 := BitVec.ofNat 32 ((2 ^ f.width - 1) * 2 ^ f.lo)

/-- A field of a register word. -/
def Fld.get (f : Fld) (w : W32) : Nat := w.toNat / 2 ^ f.lo % 2 ^ f.width

/-- A register word with a field replaced by `v` modulo its width. -/
def Fld.set (f : Fld) (w : W32) (v : Nat) : W32 :=
  (w &&& ~~~f.mask) ||| BitVec.ofNat 32 (v % 2 ^ f.width * 2 ^ f.lo)

/-- The value of a register field. -/
def State.getF (s : State) (f : Fld) : Nat := f.get (s.rd f.off)

/-- A one-bit field as a Bool. -/
def State.bitF (s : State) (f : Fld) : Bool := s.getF f == 1

/-- Set a register field. -/
def State.setF (s : State) (f : Fld) (v : Nat) : State := s.wr f.off (f.set (s.rd f.off) v)

/-- Set a one-bit field. -/
def State.setB (s : State) (f : Fld) (b : Bool) : State := s.setF f (if b then 1 else 0)

/-- Count `n` events in a field that stops at its largest value. -/
def State.bumpF (s : State) (f : Fld) (n : Nat) : State := s.setF f (incSat f.width (s.getF f) n)

/-- Count `n` events in a whole register that stops at its largest value. -/
def State.bump (s : State) (off : Nat) (n : Nat) : State :=
  s.wr off (BitVec.ofNat 32 (incSat 32 (s.rd off).toNat n))

/-- What a write stores in a register word: its RW bits, and 0 in the W1C bits written 1 (R13, R14). -/
def regStored (off : Nat) (old v : W32) : W32 :=
  ((old &&& ~~~(regRw off)) ||| (v &&& regRw off)) &&& ~~~(v &&& regW1c off)

/-- Store a written value in the RW and W1C bits of a register. -/
def State.store (s : State) (off : Nat) (v : W32) : State := s.wr off (regStored off (s.rd off) v)

/-- The value of a LO/HI pair whose LO register is at `off`. -/
def State.rd64 (s : State) (off : Nat) : W64 := s.rd (off + 4) ++ s.rd off

/-- Store a LO/HI pair. -/
def State.wr64 (s : State) (off : Nat) (v : W64) : State :=
  (s.wr off (v.setWidth 32)).wr (off + 4) ((v >>> 32).setWidth 32)

/-- Store consecutive register words. -/
def State.wrList (s : State) (off : Nat) : List W32 → State
  | [] => s
  | v :: r => (s.wr off v).wrList (off + 4) r

/-- Clear `n` consecutive registers at stride `st`. -/
def State.clearRegs (s : State) (off st : Nat) : Nat → State
  | 0 => s
  | n + 1 => (s.wr off 0).clearRegs (off + st) st n

/-! ### BAR4 words (R677) -/

/-- The reset value of a BAR4 word: CRING_SIZE 8 (R682); vector control masked (log entry 6). -/
def bar4Reset (off : Nat) : W32 :=
  if off % 65536 = 0x2008 then 8 else if off % 65536 < 0x200 ∧ off % 16 = 12 then 1 else 0

/-- A word of a function's BAR4. -/
def State.rd4 (s : State) (fn : Func) (off : Nat) : W32 :=
  Tab.look bar4Reset s.bar4 (fn.val * 65536 + off)

/-- Store a word of a function's BAR4. -/
def State.wr4 (s : State) (fn : Func) (off : Nat) (v : W32) : State :=
  { s with bar4 := Tab.put bar4Reset s.bar4 (fn.val * 65536 + off) v }

/-! ### Messages that leave the device -/

/-- Append a message. -/
def State.emit (s : State) (o : Out) : State := { s with out := s.out ++ [o] }

/-- An event on an MSI-X vector: sent, or pending while the vector is masked (R681). -/
def State.msix (s : State) (fn : Func) (vec : Nat) : State :=
  if (s.rd4 fn (16 * vec + 12)).getLsbD 0 then
    s.wr4 fn 0x800 (s.rd4 fn 0x800 ||| BitVec.ofNat 32 (2 ^ vec))
  else s.emit (.msix fn vec)

/-! ### Time and step numbers -/

/-- Fabric time (R12, R485). -/
def State.time (s : State) : Nat := s.fab.time.toNat

/-- The control clock, in tk since the last reset that clears configuration: no jump of fabric time moves it
(R644, log entry 54). -/
def State.clock (s : State) : W64 := s.fab.time - s.fab.jumped

/-- The tk since a moment of the control clock. -/
def State.age (s : State) (t : W64) : Nat := (s.clock - t).toNat

/-- The number of the current attempt's step (R603). -/
def State.stepA (s : State) : W64 := s.rd64 rBwtStepLo

/-- The step number of a job slot; slot B has none and reads 0 (log entry 7). -/
def State.stepOf (s : State) (j : JobSlot) : W64 := if j = .a then s.stepA else 0

/-- The image of a job slot. -/
def State.image (s : State) (j : JobSlot) : Option Image := if j = .a then s.imgA else s.imgB

/-- The other die. -/
def otherDie (d : Die) : Die := if d = 0 then 1 else 0

/-- The bubble windows that are open: OPEN has fired, and CLOSE has not since (R213, R317). -/
def State.openWindows (s : State) : List WindowCfg :=
  s.winOpen.filterMap fun n => s.imgA.bind fun i => i.windows[n]?

/-- 0 for job slot A, 1 for job slot B. -/
def slotNat (j : JobSlot) : Nat := if j = .a then 0 else 1

/-- The job slot of a function (R674). -/
def funcSlot (fn : Func) : JobSlot := if fn = 0 then .a else .b

/-! ### The error log (R712-R724) -/

/-- An error to be logged; `incomp` says that it sets job slot A's incomplete bit. -/
structure ErrRec where
  cls : Nat
  detail : Nat
  unit : Nat
  slotb : Bool
  incomp : Bool
  info0 : Nat
  info1 : Nat
  deriving DecidableEq, Repr

/-- UNIT codes (R716). -/
def unitDevice : Nat := 0
/-- A core's unit code. -/
def unitCore (c : Nat) : Nat := 1 * 2048 + c
/-- An array's unit code. -/
def unitArray (c n : Nat) : Nat := 2 * 2048 + 4 * c + n
/-- A cluster's unit code. -/
def unitCluster (k : Nat) : Nat := 3 * 2048 + k
/-- A stack's unit code. -/
def unitStack (d : Nat) : Nat := 4 * 2048 + d
/-- A bank engine's unit code. -/
def unitEngine (d e : Nat) : Nat := 5 * 2048 + 64 * d + e
/-- A port's unit code. -/
def unitPort (p : Nat) : Nat := 6 * 2048 + p
/-- A drive's unit code. -/
def unitDrive (n : Nat) : Nat := 7 * 2048 + n
/-- A function's unit code. -/
def unitFunc (fn : Nat) : Nat := 8 * 2048 + fn
/-- A rail's unit code. -/
def unitRail (r : Nat) : Nat := 9 * 2048 + r
/-- A temperature sensor's unit code. -/
def unitSensor (n : Nat) : Nat := 10 * 2048 + n
/-- An I2C target's unit code; 128 is the SMBus controller. -/
def unitBus (a : Nat) : Nat := 11 * 2048 + a
/-- A DMA channel's unit code. -/
def unitChannel (n : Nat) : Nat := 12 * 2048 + n

/-- The test that a record queues, as test code, unit and target within the unit (R724). -/
def ErrRec.test (e : ErrRec) : Option (Nat × Nat × Nat) :=
  if e.cls = 9 ∧ (e.detail % 256 = 1 ∨ e.detail % 256 = 2) then
    match e.detail / 256 with
    | 3 => some (1, if e.unit / 2048 = 2 then unitCore (e.unit % 2048 / 4) else e.unit, 3)
    | 5 => some (1, e.unit, e.info0 / 0x80000)
    | 6 => some (3, e.unit, e.info0 / 0x1000)
    | m => some (1, e.unit, m)
  else if e.cls = 4 ∧ e.detail = 1 then some (1, e.unit, 1)
  else if e.cls = 4 ∧ e.detail = 4 then some (1, e.unit, 2)
  else if e.cls = 12 ∧ (e.detail = 2 ∨ e.detail = 7 ∨ e.detail = 8) then some (5, e.unit, 0)
  else none

/-- Whether Sheepdog holds this test on this target, queued or running (R724). -/
def SdSt.holds (d : SdSt) (t u sub : Nat) : Bool :=
  (d.queue ++ d.running.toList).any fun x => x.test == t && x.unit == u && x.sub == sub

/-- Queue a test unless it is held already; a full queue counts in QFULL (R724). -/
def State.sdQueue (s : State) (t u sub : Nat) : State :=
  if s.sd.holds t u sub then s
  else if 64 ≤ s.sd.queue.length then s.bumpF fErrSdstatQfull 1
  else
    { s with sd := { s.sd with queue := s.sd.queue ++ [(⟨t, u, sub, s.clock⟩ : SdTest)] } }.setF
      fErrSdstatQlevel (s.sd.queue.length + 1)

/-- The core of a core test: that of its unit, or the one that holds the array. -/
def SdTest.core (t : SdTest) : Option Nat :=
  if t.test = 1 ∧ t.unit / 2048 = 1 then some (t.unit % 2048)
  else if t.test = 2 then some (t.unit % 2048 / 4) else none

/-- A core test in progress goes back to the front of the queue where its core comes to hold a job
context, because a test runs only on a core that holds none (R135; log entry 72). -/
def State.sdYield (s : State) (held : Nat → Bool) : State :=
  match s.sd.running with
  | none => s
  | some t =>
    if (t.core.map held).getD false then
      ({ s with sd := { s.sd with running := none, queue := t :: s.sd.queue } }.setB fErrStatusSdbusy
        false).setF fErrSdstatQlevel (s.sd.queue.length + 1)
    else s

/-- Whether a test would be queued now (R715, the TEST flag). -/
def State.sdWould (s : State) (e : ErrRec) : Bool :=
  match e.test with
  | none => false
  | some (t, u, sub) => !s.sd.holds t u sub && s.sd.queue.length < 64

/-- The eight words of a record (R715). -/
def ErrRec.words (e : ErrRec) (test : Bool) (time step : W64) : List W32 :=
  [BitVec.ofNat 32 (e.cls + 256 * (e.detail % 65536) + 2 ^ 24 *
      ((if e.slotb then 1 else 0) + (if e.incomp ∧ ¬ e.slotb then 2 else 0) + (if test then 4 else 0))),
   BitVec.ofNat 32 (e.unit + 65536),
   time.setWidth 32, (time >>> 32).setWidth 32,
   BitVec.ofNat 32 e.info0, BitVec.ofNat 32 (e.info0 / 2 ^ 32),
   step.setWidth 32, BitVec.ofNat 32 e.info1]

/-- The address of word `k` of record `i` of the log. -/
def rLog (i k : Nat) : Nat := rErrLog i k

/-- Whether an error coalesces into the newest record (R720). -/
def State.coalesces (s : State) (e : ErrRec) : Bool :=
  let t := s.getF fErrTailTail
  let n := (t + 1023) % 1024
  t != s.getF fErrHeadHead
    && (s.rd (rLog n 0)).toNat % 2 ^ 24 == e.cls + 256 * (e.detail % 65536)
    && (s.rd (rLog n 0)).getLsbD 24 == e.slotb
    && (s.rd (rLog n 1)).toNat % 65536 == e.unit
    && decide (s.time < (s.rd64 (rLog n 2)).toNat + 2 ^ 17)

/-- Add the error to the log: coalesce, append, or count as lost (R719, R720). -/
def State.append (s : State) (e : ErrRec) : State :=
  let t := s.getF fErrTailTail
  if s.coalesces e then
    let n := (t + 1023) % 1024
    let w := s.rd (rLog n 1)
    s.wr (rLog n 1) (BitVec.ofNat 32 (w.toNat % 65536 + 65536 * incSat 16 (w.toNat / 65536) 1))
  else if (t + 1) % 1024 = s.getF fErrHeadHead then
    (s.bump rErrLost 1).setB fErrStatusOvf true
  else
    ((s.wrList (rLog t 0) (e.words (s.sdWould e) s.fab.time
      (s.stepOf (if e.slotb then .b else .a)))).setF fErrTailTail ((t + 1) % 1024)).msix 0 5

/-- Set the incomplete bit of job slot A's attempt (R579, R712). -/
def State.setIncomp (s : State) : State := { s with bwt := { s.bwt with incomp := true } }

/-- Queue the test that a record calls for. -/
def State.sdFor (s : State) (e : ErrRec) : State :=
  match e.test with
  | none => s
  | some (t, u, sub) => s.sdQueue t u sub

/-- Whether the log drops this error: neither coalesced nor room for it (R719). -/
def State.logFull (s : State) (e : ErrRec) : Bool :=
  !s.coalesces e && (s.getF fErrTailTail + 1) % 1024 == s.getF fErrHeadHead

/-- Log an error: its class counter, its record, its test, and the incomplete bit where the
record says that it sets it (R713, R719-R724). -/
def State.log (s : State) (e : ErrRec) : State :=
  let s1 := if e.incomp ∧ ¬ e.slotb then s.setIncomp else s
  if s1.logFull e then s1.append e
  else (((s1.append e).bump (rErrClasscnt e.cls) 1)).sdFor e

/-- A CSR record (R718): detail, address, value written. -/
def State.logCsr (s : State) (detail off : Nat) (v : Nat) : State :=
  s.log ⟨8, detail, unitDevice, false, false, off, v⟩

/-- A correctable error of memory `mem` of a unit, with the CSTORM record of R714. -/
def State.countCorr (s : State) (mem u addr : Nat) (slotb : Bool) : State :=
  let k := 16 * u + mem
  let n := Tab.look (fun _ => 0) s.sd.corr k + 1
  let s1 := { s with sd := { s.sd with corr := Tab.put (fun _ => 0) s.sd.corr k n } }
  if n > 16 * s.getF fErrSdcfgCthr ∧ ¬ s.sd.storm.contains k then
    { s1 with sd := { s1.sd with storm := s1.sd.storm ++ [k] } }.log
      ⟨9, 256 * mem + 2, u, slotb, false, addr, n⟩
  else s1

/-- An SMBus access that is denied: the flag, and the record of R736 with the command code. -/
def State.smbDenied (s : State) (cmd n : Nat) : State :=
  (s.setB fMgtSmbstatDenied true).log ⟨16, 0x20, unitBus 128, false, false, cmd, n⟩

/-- A write that reaches BAR0: Jusia and PF0 reach it, PF1 has no BAR0, and an SMBus write is
dropped and sets DENIED (R675, R692). -/
def State.bar0 (s : State) (r : Requester) (k : State → State) : State :=
  match r with
  | .jusia | .pf0 => k s
  | .pf1 => s
  | .smbus => s.smbDenied 3 4

/-! ### Records of units -/

/-- A core. -/
def State.core (s : State) (c : Nat) : CoreSt := Tab.look (fun _ => CoreSt.reset) s.cores c

/-- Replace a core. -/
def State.setCore (s : State) (c : Nat) (x : CoreSt) : State :=
  { s with cores := Tab.ins s.cores c x }

/-- A stack. -/
def State.stk (s : State) (d : Nat) : StackSt := Tab.look (fun _ => StackSt.reset) s.stks d

/-- Replace a stack. -/
def State.setStk (s : State) (d : Nat) (x : StackSt) : State :=
  { s with stks := Tab.ins s.stks d x }

/-- A fabric port. -/
def State.port (s : State) (p : Nat) : FabPort := Tab.look (fun _ => FabPort.reset) s.ports p

/-- Replace a fabric port. -/
def State.setPort (s : State) (p : Nat) (x : FabPort) : State :=
  { s with ports := Tab.ins s.ports p x }

/-- A comparator. -/
def State.cal (s : State) (n : Nat) : CalSt := Tab.look (fun _ => CalSt.reset) s.cals n

/-- Replace a comparator. -/
def State.setCal (s : State) (n : Nat) (x : CalSt) : State :=
  { s with cals := Tab.ins s.cals n x }

/-- A DMA channel. -/
def State.chan (s : State) (n : Nat) : DmaCh := Tab.look (fun _ => DmaCh.reset) s.dma n

/-- Replace a DMA channel. -/
def State.setChan (s : State) (n : Nat) (x : DmaCh) : State :=
  { s with dma := Tab.ins s.dma n x }

/-- A save-port drive. -/
def State.drive (s : State) (n : Nat) : DriveSt := Tab.look (fun _ => DriveSt.reset) s.drives n

/-- Replace a save-port drive. -/
def State.setDrive (s : State) (n : Nat) (x : DriveSt) : State :=
  { s with drives := Tab.ins s.drives n x }

/-- The route key of a job slot. -/
def routeKey (j : JobSlot) (r : Nat) : Nat := 4096 * slotNat j + r

/-- A route. -/
def State.route (s : State) (j : JobSlot) (r : Nat) : RouteSt :=
  Tab.look (fun _ => RouteSt.reset) s.routes (routeKey j r)

/-- Replace a route. -/
def State.setRoute (s : State) (j : JobSlot) (r : Nat) (x : RouteSt) : State :=
  { s with routes := Tab.ins s.routes (routeKey j r) x }

/-- The endpoint key of a job slot, stack and endpoint. -/
def epKey (j : JobSlot) (d n : Nat) : Nat := 1920 * slotNat j + 240 * d + n

/-- A stack endpoint. -/
def State.ep (s : State) (j : JobSlot) (d n : Nat) : EpSt :=
  Tab.look (fun _ => EpSt.reset) s.eps (epKey j d n)

/-- Replace a stack endpoint. -/
def State.setEp (s : State) (j : JobSlot) (d n : Nat) (x : EpSt) : State :=
  { s with eps := Tab.ins s.eps (epKey j d n) x }

/-- The sink key of a job slot, core and sink. -/
def sinkKey (j : JobSlot) (c k : Nat) : Nat := 1024 * slotNat j + 4 * c + k

/-- A scratchpad sink. -/
def State.sink (s : State) (j : JobSlot) (c k : Nat) : SinkSt :=
  Tab.look (fun _ => SinkSt.reset) s.sinks (sinkKey j c k)

/-- Replace a scratchpad sink. -/
def State.setSink (s : State) (j : JobSlot) (c k : Nat) (x : SinkSt) : State :=
  { s with sinks := Tab.ins s.sinks (sinkKey j c k) x }

/-- A die's collector. -/
def State.dieColl (s : State) (d : Nat) : DieColl :=
  Tab.look (fun _ => DieColl.reset) s.coll d

/-- Replace a die's collector. -/
def State.setDieColl (s : State) (d : Nat) (x : DieColl) : State :=
  { s with coll := Tab.ins s.coll d x }

/-- A collective. -/
def State.collc (s : State) (k : Nat) : CollSt := Tab.look (fun _ => CollSt.reset) s.colls k

/-- Replace a collective. -/
def State.setColl (s : State) (k : Nat) (x : CollSt) : State :=
  { s with colls := Tab.ins s.colls k x }

/-- A Mule table. -/
def State.muleT (s : State) (t : Nat) : MuleSt := Tab.look (fun _ => MuleSt.reset) s.mule t

/-- Replace a Mule table. -/
def State.setMule (s : State) (t : Nat) (x : MuleSt) : State :=
  { s with mule := Tab.ins s.mule t x }

/-- A landing channel. -/
def State.landing (s : State) (n : Nat) : ChanSt := Tab.look (fun _ => ChanSt.reset) s.chans n

/-- Replace a landing channel. -/
def State.setLanding (s : State) (n : Nat) (x : ChanSt) : State :=
  { s with chans := Tab.ins s.chans n x }

/-- A cadence group. -/
def State.group (s : State) (g : Nat) : GroupSt :=
  Tab.look (fun _ => GroupSt.reset) s.second.groups g

/-- Replace a cadence group. -/
def State.setGroup (s : State) (g : Nat) (x : GroupSt) : State :=
  { s with second := { s.second with groups := Tab.ins s.second.groups g x } }

/-- A translation buffer's place in the state. -/
def xbufNat : XBuf → Nat
  | .host => 0 | .dma => 1 | .remw => 2 | .reme => 3

/-- A translation buffer. -/
def State.xbuf (s : State) (b : XBuf) : XBufSt :=
  Tab.look (fun _ => XBufSt.reset) s.xbufs (xbufNat b)

/-- Replace a translation buffer. -/
def State.setXbuf (s : State) (b : XBuf) (x : XBufSt) : State :=
  { s with xbufs := Tab.ins s.xbufs (xbufNat b) x }

/-! ### Held clocks and the idle step (R645, R656-R664) -/

/-- Whether a cause of its own holds a die in every tk while nothing changes: VOLTAGE, SWITCH, THERMAL or
CEILING. -/
def State.heldNow (s : State) (die : Nat) : Bool :=
  (if die = 0 then s.pwr.vholdW || s.bitF fPwrThstatThrotw else s.pwr.vholdE || s.bitF fPwrThstatThrote)
    || s.bitF fPwrThstatCrit || s.bitF fPwrCeilHolding
    || (s.pwr.waiting && !Tab.look (fun _ => false) s.pwr.switched die)

/-- The current level of a die. -/
def State.heldLevel (s : State) (die : Nat) : Nat :=
  if die = 0 then s.getF fPwrStretchLevelw else s.getF fPwrStretchLevele

/-- Whether the current controller holds a die in this tk: the first `level` tk of each 8 (R656). -/
def State.currentHold (s : State) (die : Nat) : Bool := decide (s.time % 8 < s.heldLevel die)

/-- Whether the bridge ties the dies (R278): a record crosses in each cy of each die, so while job slot A
has an image a die cannot run in a tk in which the other is held (log entry 46). -/
def State.bridged (s : State) : Bool := s.imgA.isSome

/-- Whether a die is held in this tk with cause BRIDGE: the other one is held, and no cause of its own holds
it. -/
def State.bridgeHold (s : State) (die : Nat) : Bool :=
  s.bridged && (s.heldNow (1 - die) || s.currentHold (1 - die)) && !(s.heldNow die || s.currentHold die)

/-- The held tk of a die among the next `n`, each counted once. -/
def State.heldTk (s : State) (die n : Nat) : Nat :=
  let l := if s.bridged then max (s.heldLevel 0) (s.heldLevel 1) else s.heldLevel die
  if s.heldNow die ∨ s.bridged ∧ s.heldNow (1 - die) then n
  else n / 8 * l + (List.range (n % 8)).countP fun i => decide ((s.time + i) % 8 < l)

/-- The PWR_VTAB entry of a multiplier. -/
def State.vtabOf (s : State) (m : Nat) : Nat := s.getF (fPwrVtabMv (m - 8))

/-- The quadrants of a die. -/
def quadrants (die : Nat) : List Nat := [0, 1, 2, 3].map (4 * die + ·)

/-- A quadrant's VOK follows VSENSE and VREQ. -/
def State.vokShow (s : State) (q : Nat) : State :=
  s.setB (fPwrVqVok q) (decide (s.getF (fPwrVqVreq q) ≤ s.getF (fPwrVqVsense q)))

/-- The quadrants of a die whose voltage is `d` mV or more below what is required. -/
def State.vlow (s : State) (die d : Nat) : List Nat :=
  (quadrants die).filter fun q => decide (s.getF (fPwrVqVsense q) + d < s.getF (fPwrVqVreq q))

/-- VREQ of every quadrant takes a value, and VOK follows. -/
def State.putVreq (s : State) (mv : Nat) : State :=
  (List.range 8).foldl (fun t q => (t.setF (fPwrVqVreq q) mv).vokShow q) s

/-- One tk after both dies have switched to a lower multiplier, VREQ falls to its entry; a die whose voltages
then suffice is held for VOLTAGE no more (R651, R652). -/
def State.vreqFall (s : State) : State :=
  match s.pwr.vfall with
  | none => s
  | some m =>
    let s1 := s.putVreq (s.vtabOf m)
    { s1 with pwr := { s1.pwr with
      vfall := none
      vholdW := s1.pwr.vholdW && !(s1.vlow 0 10).isEmpty
      vholdE := s1.pwr.vholdE && !(s1.vlow 1 10).isEmpty } }

/-- Fabric time advances by `n` tk, one at least, and the held tk of each die are counted. -/
def State.passTime (s : State) (n : Nat) : State :=
  let s1 := (s.bump rPwrHeldw (s.heldTk 0 n)).bump rPwrHelde (s.heldTk 1 n)
  ({ s1 with fab := { s1.fab with time := s1.fab.time + BitVec.ofNat 64 n } } : State).vreqFall

/-- Whether fabric time counts FREF: PWROK high, FREF running and not lost, and no reset in force
(R485, R488, R702, R751, R753). -/
def State.counts (s : State) : Bool :=
  s.mgt.pwrok && s.mgt.fref && !s.mgt.sag && !s.bitF fMgtTapstatHeld && !s.bitF fFabTstatFreflost

/-- A step with no command waiting: one tick of fabric time passes while it runs (log entry 8). -/
def idle (s : State) : Host.Outcome State Fault Refusal := .next (if s.counts then s.passTime 1 else s)

end Sys2Proof.Machine
end

