-- ==== Sys2Proof/Machine/Operands.lean ====
section
/-! DEFINITION. The operands of a core: its registers, its modes, the binding of its ports,
and the reads and writes of its scratchpad and operand cache with their SECDED codewords
(R137, R138, R147, R184, R202, R312, R777, R778). -/

namespace Sys2Proof.Machine

open Sys2Proof

/-! ### Registers -/

/-- A scalar register; S0 reads as 0 (R184). -/
def CoreSt.sreg (x : CoreSt) (n : BitVec 5) : W32 :=
  if n = 0 then 0 else Tab.look (fun _ => 0) x.sregs n.toNat

/-- Write a scalar register; a write to S0 is ignored (R184). The codeword becomes correct. -/
def CoreSt.setS (x : CoreSt) (n : BitVec 5) (v : W32) : CoreSt :=
  if n = 0 then x
  else { x with sregs := Tab.put (fun _ => 0) x.sregs n.toNat v, sEcc := Tab.del x.sEcc n.toNat }

/-- A mask register; M0 reads as all ones (R138). -/
def CoreSt.mreg (x : CoreSt) (n : BitVec 3) : W64 :=
  if n = 0 then BitVec.allOnes 64 else Tab.look (fun _ => 0) x.mregs n.toNat

/-- Write a mask register; a write to M0 is ignored (R138). The codeword becomes correct. -/
def CoreSt.setM (x : CoreSt) (n : BitVec 3) (v : W64) : CoreSt :=
  if n = 0 then x
  else { x with mregs := Tab.put (fun _ => 0) x.mregs n.toNat v, mEcc := Tab.del x.mEcc n.toNat }

/-- A vector register (R137). -/
def CoreSt.vreg (x : CoreSt) (n : BitVec 5) : Payload := Tab.look (fun _ => 0) x.vregs n.toNat

/-- Write a vector register. -/
def CoreSt.setV (x : CoreSt) (n : BitVec 5) (v : Payload) : CoreSt :=
  { x with vregs := Tab.put (fun _ => 0) x.vregs n.toNat v }

/-! ### The mode register (R202) -/

/-- The feeder plane in force. -/
def CoreSt.fplane (x : CoreSt) : Nat := (x.mode.extractLsb' 0 2).toNat
/-- The stream plane in force. -/
def CoreSt.splane (x : CoreSt) : Nat := (x.mode.extractLsb' 2 2).toNat
/-- Which vector stream identifier is in force. -/
def CoreSt.vsel (x : CoreSt) : Nat := (x.mode.extractLsb' 4 2).toNat
/-- Whether tap `t` is enabled. -/
def CoreSt.tapen (x : CoreSt) (t : Nat) : Bool := x.mode.getLsbD (6 + t)
/-- Whether PXREG supplies the sequence numbers of SR. -/
def CoreSt.pxv (x : CoreSt) : Bool := x.mode.getLsbD 14

/-! ### What the image declares for the core (R311, R312) -/

/-- The CORE section in force: that of the resident job slot. -/
def CoreSt.cfg (x : CoreSt) : Option CoreCfg := if x.slot = .a then x.cfgA else x.cfgB

/-- The program length; 0 without a program. -/
def CoreSt.plen (x : CoreSt) : Nat := (x.cfg.map (·.bundles.length)).getD 0

/-- The scalar register that PXREG names. -/
def CoreSt.pxreg (x : CoreSt) : BitVec 5 := BitVec.ofNat 5 ((x.cfg.map (·.pxreg)).getD 0)

/-- The vector stream identifier that SEQ_MODE.VSTRM selects. -/
def CoreSt.vstream (x : CoreSt) : W32 := ((x.cfg.map (·.vstrm)).getD []).getD x.vsel 0

/-- The binding of a port in a stream plane; none when it is unbound there. -/
def CoreSt.bindIn (x : CoreSt) (plane p : Nat) : Option PortBind :=
  match x.cfg with
  | none => none
  | some c => (c.binds[32 * plane + p]?).filter fun b => b.user ≠ 0

/-- The binding of a port in the plane in force (R247). -/
def CoreSt.bind (x : CoreSt) (p : Nat) : Option PortBind := x.bindIn x.splane p

/-- The queue depth of a port. -/
def CoreSt.depth (x : CoreSt) (p : Nat) : Nat := ((x.cfg.map (·.depth)).getD []).getD p 0

/-- The entry of feeder `f` in the feeder plane in force: 0 row, 1 + n column feeder n. -/
def CoreSt.feederCfg (x : CoreSt) (f : Nat) : Option FeederCfg :=
  match x.cfg with
  | none => none
  | some c => (c.feeders[5 * x.fplane + f]?).filter (·.decl)

/-! ### The core's records -/

/-- A stream port. -/
def CoreSt.port (x : CoreSt) (p : Nat) : PortSt := Tab.look (fun _ => PortSt.reset) x.ports p

/-- Replace a stream port. -/
def CoreSt.setPort (x : CoreSt) (p : Nat) (v : PortSt) : CoreSt :=
  { x with ports := Tab.ins x.ports p v }

/-- Free places of a port's queue (R303). -/
def CoreSt.free (x : CoreSt) (p : Nat) : Nat := x.depth p - (x.port p).queue.length

/-- An array. -/
def CoreSt.arr (x : CoreSt) (n : Nat) : ArrayRec := Tab.look (fun _ => ArrayRec.reset) x.arrays n

/-- Replace an array. -/
def CoreSt.setArr (x : CoreSt) (n : Nat) (v : ArrayRec) : CoreSt :=
  { x with arrays := Tab.ins x.arrays n v }

/-- A feeder's position. -/
def CoreSt.feeder (x : CoreSt) (f : Nat) : FeederSt :=
  Tab.look (fun _ => FeederSt.reset) x.feeders f

/-- Replace a feeder's position. -/
def CoreSt.setFeeder (x : CoreSt) (f : Nat) (v : FeederSt) : CoreSt :=
  { x with feeders := Tab.ins x.feeders f v }

/-- A reduction accumulator. -/
def CoreSt.racc (x : CoreSt) (n : Nat) : RAcc := Tab.look (fun _ => RAcc.reset) x.raccs n

/-- Replace a reduction accumulator. -/
def CoreSt.setRacc (x : CoreSt) (n : Nat) (v : RAcc) : CoreSt :=
  { x with raccs := Tab.ins x.raccs n v }

/-- A statistic tap. -/
def CoreSt.tap (x : CoreSt) (n : Nat) : TapSt := Tab.look (fun _ => TapSt.reset) x.taps n

/-- Replace a statistic tap. -/
def CoreSt.setTap (x : CoreSt) (n : Nat) (v : TapSt) : CoreSt :=
  { x with taps := Tab.ins x.taps n v }

/-- A hardware loop level. -/
def CoreSt.loop (x : CoreSt) (n : Nat) : LoopLv := Tab.look (fun _ => LoopLv.reset) x.loops n

/-- Replace a hardware loop level. -/
def CoreSt.setLoop (x : CoreSt) (n : Nat) (v : LoopLv) : CoreSt :=
  { x with loops := Tab.ins x.loops n v }

/-- Apply a change to one core. -/
def State.modCore (s : State) (c : Nat) (f : CoreSt → CoreSt) : State := s.setCore c (f (s.core c))

/-- Whether the core's resident context belongs to job slot B. -/
def CoreSt.isB (x : CoreSt) : Bool := x.slot == .b

/-- The job seed of a job slot (R66). -/
def State.seedOf (s : State) (j : JobSlot) : W64 := ((s.image j).map (·.seed)).getD 0

/-- Set the incomplete bit for a core that runs job slot A (R100, R210). -/
def State.incompFor (s : State) (c : Nat) : State :=
  if (s.core c).slot = .a then s.setIncomp else s

/-- A free value of 64 bits, and the state in which the counter has moved on (log entry 1). -/
def State.takeFree (s : State) : W64 × State :=
  (Config.freeWord s.fresh, { s with fresh := s.fresh + 1 })

/-! ### SRAM with SECDED codewords of `cw` bytes (R777) -/

/-- The codewords that hold `n` bytes from `a` on. -/
def codewords (cw a n : Nat) : List Nat :=
  if n = 0 then [] else (List.range ((a + n - 1) / cw - a / cw + 1)).map (a / cw + ·)

/-- The codewords of a range that are in one of the given conditions. -/
def eccIn (e : Tab Ecc) (cw a n : Nat) (p : Ecc → Bool) : List Nat :=
  if n = 0 then []
  else (e.filter fun x => decide (a / cw ≤ x.1) && decide (x.1 ≤ (a + n - 1) / cw) && p x.2).map (·.1)

/-- An uncorrectable codeword, poisoned or not. -/
def Ecc.bad : Ecc → Bool
  | .double | .poisoned => true
  | .good | .single => false

/-- What a read of an SRAM gives: the bytes, those of uncorrectable codewords as 0; the
uncorrectable codewords; the codewords corrected. -/
structure RamRead where
  bytes : List Byte
  bad : List Nat
  fixed : List Nat
  deriving DecidableEq, Repr

/-- Read `n` bytes from `a` on. -/
def ramRead (m : Tab Byte) (e : Tab Ecc) (cw a n : Nat) : RamRead :=
  let bad := eccIn e cw a n Ecc.bad
  let raw := Tab.lookList (fun _ => 0) m a n
  { bytes := if bad.isEmpty then raw else raw.mapIdx fun i b => if bad.contains ((a + i) / cw) then 0 else b
    bad := bad
    fixed := eccIn e cw a n (· == .single) }

/-- The check bits after the single-bit errors of some codewords are corrected. -/
def eccFixed (e : Tab Ecc) (fixed : List Nat) : Tab Ecc := e.filter fun x => !fixed.contains x.1

/-- Whether a write of `n` bytes from `a` on covers codeword `w` whole. -/
def coversWord (cw a n w : Nat) : Bool := decide (a ≤ cw * w) && decide (cw * w + cw ≤ a + n)

/-- The codewords that a write of `n` bytes from `a` on covers only in part, and so reads. -/
def partialWords (cw a n : Nat) : List Nat :=
  (codewords cw a n).filter fun w => !coversWord cw a n w

/-- The check bits after a write (R777): a codeword covered whole becomes correct; one
covered in part is corrected, or keeps its error as inverted check bits. -/
def eccWritten (e : Tab Ecc) (cw a n : Nat) : Tab Ecc :=
  if n = 0 then e
  else (e.filter fun x =>
      !(decide (a / cw ≤ x.1) && decide (x.1 ≤ (a + n - 1) / cw) && (coversWord cw a n x.1 || x.2 == .single))).map
    fun x => if a / cw ≤ x.1 ∧ x.1 ≤ (a + n - 1) / cw then (x.1, .poisoned) else x

/-- Store codewords with their check bits inverted (R362, R777). -/
def eccPoison (e : Tab Ecc) : List Nat → Tab Ecc
  | [] => e
  | w :: r => eccPoison (Tab.ins e w .poisoned) r

/-! ### The scratchpad (R270, R433, R778) -/

/-- Whether a bubble window of job slot A's image names the core (R433). -/
def State.windowed (s : State) (c : Nat) : Bool :=
  match s.imgA with
  | none => false
  | some i => i.windows.any fun w => w.cores.getLsbD c

/-- The scratchpad ranges of a job slot in a core, as start and end (R433). -/
def State.spadRange (s : State) (j : JobSlot) (c : Nat) : Nat × Nat :=
  if s.windowed c then if j = .a then (0, 0x0EC000) else (0x0EC000, 0x1D8000)
  else if j = .a then (0, 0x2E0000) else (0, 0)

/-- Whether `n` bytes from `a` on lie in the job slot's ranges (R434). -/
def State.spadOk (s : State) (j : JobSlot) (c : Nat) (a : Int) (n : Nat) : Bool :=
  decide (((s.spadRange j c).1 : Int) ≤ a) && decide (a + n ≤ ((s.spadRange j c).2 : Int))

/-- The record of an uncorrectable word of a core's memory (R147, R778). -/
def memRec (x : CoreSt) (c mem addr : Nat) : ErrRec := ⟨9, 256 * mem + 1, unitCore c, x.isB, !x.isB, addr, 0⟩

/-- Log a record for each of some words of a core's memory. -/
def State.logWords (s : State) (c mem : Nat) : List Nat → State
  | [] => s
  | w :: r => (s.log (memRec (s.core c) c mem (4 * w))).logWords c mem r

/-- Count a correctable error in each of some words of a core's memory. -/
def State.corrWords (s : State) (c mem : Nat) : List Nat → State
  | [] => s
  | w :: r => (s.countCorr mem (unitCore c) (4 * w) (s.core c).isB).corrWords c mem r

/-- Read the scratchpad for a reader other than SLD (R778): the bytes, the uncorrectable
words, and the state after the correction, the records and the tests. -/
def State.spadRead (s : State) (c a n : Nat) : RamRead × State :=
  let x := s.core c
  let r := ramRead x.spad x.spEcc 4 a n
  (r, ((s.setCore c { x with spEcc := eccFixed x.spEcc r.fixed }).corrWords c 2 r.fixed).logWords c 2 r.bad)

/-- Write the scratchpad; a word covered in part is read first (R777). -/
def State.spadWrite (s : State) (c a : Nat) (l : List Byte) : State :=
  let x := s.core c
  let p := partialWords 4 a l.length
  let bad := p.filter fun w => (Tab.look (fun _ => Ecc.good) x.spEcc w).bad
  let fixed := p.filter fun w => Tab.look (fun _ => Ecc.good) x.spEcc w == .single
  ((s.setCore c { x with
      spad := Tab.putList (fun _ => 0) x.spad a l
      spEcc := eccWritten x.spEcc 4 a l.length }).corrWords c 2 fixed).logWords c 2 bad

/-! ### The operand cache (R143, R147) -/

/-- Size of the operand cache. -/
def ocSize : Nat := 0x40000

/-- Whether `n` bytes from `a` on lie in the operand cache (R142). -/
def ocOk (a : Int) (n : Nat) : Bool := decide (0 ≤ a) && decide (a + n ≤ (ocSize : Int))

/-- Count corrected and uncorrectable words in VEC_ECCCNT (R147, R175). -/
def CoreSt.ocCount (x : CoreSt) (corr bad : Nat) : CoreSt :=
  { x with
    ocCorr := BitVec.ofNat 16 (incSat 16 x.ocCorr.toNat corr)
    ocUncorr := BitVec.ofNat 16 (incSat 16 x.ocUncorr.toNat bad) }

/-- Read the operand cache (R147). -/
def State.ocRead (s : State) (c a n : Nat) : RamRead × State :=
  let x := s.core c
  let r := ramRead x.ocache x.ocEcc 4 a n
  (r, ((s.setCore c { x.ocCount r.fixed.length r.bad.length with
      ocEcc := eccFixed x.ocEcc r.fixed }).corrWords c 4 r.fixed).logWords c 4 r.bad)

/-- Write the operand cache; a word covered in part is read first (R777). -/
def State.ocWrite (s : State) (c a : Nat) (l : List Byte) : State :=
  let x := s.core c
  let p := partialWords 4 a l.length
  let bad := p.filter fun w => (Tab.look (fun _ => Ecc.good) x.ocEcc w).bad
  let fixed := p.filter fun w => Tab.look (fun _ => Ecc.good) x.ocEcc w == .single
  ((s.setCore c { x.ocCount fixed.length bad.length with
      ocache := Tab.putList (fun _ => 0) x.ocache a l
      ocEcc := eccWritten x.ocEcc 4 a l.length }).corrWords c 4 fixed).logWords c 4 bad

end Sys2Proof.Machine
end

