-- ==== Sys2Proof/Machine/Flags.lean ====
section
/-! DEFINITION. The event counts of a core's units: saturation, scale and domain events
of the arrays and of the vector engine, and the tile flags that they set (R58, R98, R112,
R118-R120, R164, R173). -/

namespace Sys2Proof.Machine

open Sys2Proof

/-- Add `n` to a 16-bit count that stops at 0xFFFF. -/
def inc16 (v : BitVec 16) (n : Nat) : BitVec 16 := BitVec.ofNat 16 (incSat 16 v.toNat n)

/-- Add `n` to a 32-bit count that stops at its largest value. -/
def inc32 (v : W32) (n : Nat) : W32 := BitVec.ofNat 32 (incSat 32 v.toNat n)

/-- Set bit `t` of a set of flags if `b`. -/
def orBit (v : BitVec 16) (t : Nat) (b : Bool) : BitVec 16 :=
  if b then v ||| BitVec.ofNat 16 (2 ^ t) else v

/-- Make bit `t` of a set of flags equal `b`. -/
def putBit (v : BitVec 16) (t : Nat) (b : Bool) : BitVec 16 :=
  orBit (v &&& ~~~BitVec.ofNat 16 (2 ^ t)) t b

/-- Count saturation and scale events of an array on tile `t` (R112, R118, R120); either
sets the tile's SAT flag (R98, R112). -/
def ArrayRec.count (a : ArrayRec) (t sats scls : Nat) : ArrayRec :=
  { a with
    satStep := inc16 a.satStep sats
    satTot := inc32 a.satTot sats
    sclStep := inc16 a.sclStep scls
    sclTot := inc32 a.sclTot scls
    sat := orBit a.sat t (decide (0 < sats) || decide (0 < scls)) }

/-- Count saturation events of the vector engine (R173). -/
def CoreSt.vsat (x : CoreSt) (n : Nat) : CoreSt :=
  { x with satStep := inc16 x.satStep n, satTot := inc32 x.satTot n }

/-- Count domain events, or scale events of VTILE (R173). -/
def CoreSt.vdom (x : CoreSt) (n : Nat) : CoreSt :=
  { x with domStep := inc16 x.domStep n, domTot := inc32 x.domTot n }

/-- Clear what the step-start event of the owning job slot clears in an array (R118). -/
def ArrayRec.stepStart (a : ArrayRec) : ArrayRec := { a with satStep := 0, sclStep := 0 }

/-- Clear an array's lifetime counters (R120). -/
def ArrayRec.clrcnt (a : ArrayRec) : ArrayRec :=
  { a with satTot := 0, sclTot := 0, corr := 0, uncorr := 0 }

/-- Clear the vector engine's lifetime counters (R173). -/
def CoreSt.vecClr (x : CoreSt) : CoreSt :=
  { x with satTot := 0, domTot := 0, ocCorr := 0, ocUncorr := 0 }

end Sys2Proof.Machine
end

