-- ==== Sys2Proof/Machine/Functions.lean ====
section
/-! DEFINITION. The integer exponential, logarithm, reciprocal and reciprocal square root
(R158-R164): the tables, the normalisation, and the five lane functions.  Each function
answers the value, whether a saturation event counts, and whether a domain event counts. -/

namespace Sys2Proof.Machine

open Sys2Proof

/-! ### The tables (R158) -/

/-- Entry i is the integer nearest to 2^30 * 2^(i/64). -/
def tabE : List Int :=
  [1073741824, 1085434106, 1097253708, 1109202018, 1121280436, 1133490379, 1145833280, 1158310587]
    ++ [1170923762, 1183674286, 1196563654, 1209593378, 1222764986, 1236080024, 1249540052, 1263146652]
    ++ [1276901417, 1290805962, 1304861917, 1319070932, 1333434672, 1347954824, 1362633090, 1377471191]
    ++ [1392470869, 1407633882, 1422962010, 1438457051, 1454120821, 1469955159, 1485961921, 1502142985]
    ++ [1518500250, 1535035634, 1551751076, 1568648537, 1585730000, 1602997467, 1620452965, 1638098541]
    ++ [1655936265, 1673968228, 1692196547, 1710623359, 1729250827, 1748081133, 1767116489, 1786359126]
    ++ [1805811301, 1825475297, 1845353420, 1865448001, 1885761398, 1906295993, 1927054196, 1948038440]
    ++ [1969251188, 1990694927, 2012372174, 2034285470, 2056437387, 2078830522, 2101467502, 2124350982]

/-- Entry i is the integer nearest to 2^16 * log2(1 + i/64). -/
def tabL : List Int :=
  [0, 1466, 2909, 4331, 5732, 7112, 8473, 9814]
    ++ [11136, 12440, 13727, 14996, 16248, 17484, 18704, 19909]
    ++ [21098, 22272, 23433, 24579, 25711, 26830, 27936, 29029]
    ++ [30109, 31178, 32234, 33279, 34312, 35334, 36346, 37346]
    ++ [38336, 39316, 40286, 41246, 42196, 43137, 44068, 44990]
    ++ [45904, 46809, 47705, 48593, 49472, 50344, 51207, 52063]
    ++ [52911, 53751, 54584, 55410, 56229, 57040, 57845, 58643]
    ++ [59434, 60219, 60997, 61769, 62534, 63294, 64047, 64794]
    ++ [65536]

/-- Entry i is the integer nearest to 2^36 / (64 + i). -/
def tabRC : List Int :=
  [1073741824, 1057222719, 1041204193, 1025663832, 1010580540, 995934445, 981706811, 967879954]
    ++ [954437177, 941362695, 928641578, 916259690, 904203641, 892460737, 881018933, 869866794]
    ++ [858993459, 848388602, 838042399, 827945503, 818089009, 808464432, 799063683, 789879043]
    ++ [780903145, 772128952, 763549742, 755159085, 746950834, 738919105, 731058263, 723362913]
    ++ [715827883, 708448214, 701219150, 694136129, 687194767, 680390859, 673720360, 667179386]
    ++ [660764199, 654471207, 648296950, 642238100, 636291451, 630453915, 624722516, 619094385]
    ++ [613566757, 608136962, 602802428, 597560667, 592409282, 587345955, 582368447, 577474594]
    ++ [572662306, 567929560, 563274399, 558694933, 554189329, 549755814, 545392673, 541098242]
    ++ [536870912]

/-- Entry i is the integer nearest to 2^33 / sqrt(64 + i). -/
def tabS0 : List Int :=
  [1073741824, 1065450257, 1057347856, 1049427536, 1041682578, 1034106604, 1026693558, 1019437682]
    ++ [1012333500, 1005375799, 998559613, 991880210, 985333074, 978913898, 972618566, 966443148]
    ++ [960383883, 954437177, 948599586, 942867814, 937238702, 931709222, 926276469, 920937655]
    ++ [915690104, 910531246, 905458609, 900469818, 895562589, 890734723, 885984104, 881308694]
    ++ [876706528, 872175715, 867714429, 863320910, 858993459, 854730438, 850530263, 846391405]
    ++ [842312387, 838291779, 834328203, 830420321, 826566842, 822766514, 819018128, 815320510]
    ++ [811672525, 808073073, 804521086, 801015531, 797555404, 794139734, 790767575, 787438013]
    ++ [784150157, 780903145, 777696137, 774528319, 771398898, 768307107, 765252196, 762233438]
    ++ [759250125]

/-- Entry i is the integer nearest to 2^33 / sqrt(128 + 2i). -/
def tabS1 : List Int :=
  [759250125, 753387102, 747657839, 742057327, 736580814, 731223792, 725981977, 720851298]
    ++ [715827883, 710908045, 706088274, 701365222, 696735698, 692196655, 687745184, 683378504]
    ++ [679093957, 674889000, 670761200, 666708225, 662727842, 658817909, 654976372, 651201261]
    ++ [647490682, 643842818, 640255922, 636728315, 633258380, 629844563, 626485368, 623179354]
    ++ [619925131, 616721362, 613566757, 610460069, 607400100, 604385689, 601415717, 598489102]
    ++ [595604800, 592761802, 589959130, 587195840, 584471019, 581783781, 579133272, 576518662]
    ++ [573939147, 571393950, 568882316, 566403514, 563956835, 561541591, 559157115, 556802759]
    ++ [554477894, 552181909, 549914212, 547674226, 545461392, 543275165, 541115017, 538980433]
    ++ [536870912]

/-! ### The functions -/

/-- norm (R159), for a > 0: exponent, mantissa, table index and position between entries. -/
def norm (a : Int) : Int × Int × Nat × Int :=
  let e : Int := (need a : Int) - 2
  let m := if e ≤ 30 then shl a (30 - e).toNat else asr a 1
  (e, m, (asr m 24 % 64).toNat, asr m 8 % 65536)

/-- interp (R159). -/
def interp (t : List Int) (i : Nat) (d : Int) : Int :=
  t.getD i 0 + rneShr ((t.getD (i + 1) 0 - t.getD i 0) * d) 16

/-- A value with the event of its ovfw and no domain event. -/
def noDom (r : Int × Bool) : Int × Bool × Bool := (r.1, r.2, false)

/-- A domain event: it counts as a saturation event too (R164). -/
def domain (v : Int) : Int × Bool × Bool := (v, true, true)

/-- vexp2 (R160). -/
def vexp2 (a : Int) (q : Int) (wrap : Bool) (r : Option W32) : Int × Bool × Bool :=
  let n := asr a 16
  let f := a % 65536
  let i := (asr f 10).toNat
  let d := f % 1024
  let p := shl 1 30 + rneShr (d * 45426) 2 + rneShr ((d * 45426) * (d * 45426)) 35
  let m := rneShr (tabE.getD i 0 * p) 30
  noDom (ovfw (shiftRound m (30 - n - q) r) 32 wrap)

/-- vexp (R160). -/
def vexp (a : Int) (q : Int) (wrap : Bool) (r : Option W32) : Int × Bool × Bool :=
  vexp2 (rneShr (a * 94548) 16) q wrap r

/-- vlog2 (R161). -/
def vlog2 (a : Int) (qi : Int) (wrap : Bool) : Int × Bool × Bool :=
  if a ≤ 0 then domain (-(2 ^ 31))
  else
    let (e, _, i, d) := norm a
    noDom (ovfw ((e - qi) * 65536 + interp tabL i d) 32 wrap)

/-- vrcp (R162). -/
def vrcp (a : Int) (qi qo : Int) (wrap : Bool) (r : Option W32) : Int × Bool × Bool :=
  if a = 0 then domain 0x7FFFFFFF
  else
    let (e, m, i, d) := norm (if a < 0 then -a else a)
    let r0 := tabRC.getD i 0 - rneShr ((tabRC.getD i 0 - tabRC.getD (i + 1) 0) * d) 16
    let err := shl 1 60 - m * r0
    let r1 := r0 + rneShr (r0 * err) 60
    let y := shiftRound r1 (30 + e - qi - qo) r
    noDom (ovfw (if a < 0 then -y else y) 32 wrap)

/-- vrsq (R163). -/
def vrsq (a : Int) (qi qo : Int) (wrap : Bool) (r : Option W32) : Int × Bool × Bool :=
  if a ≤ 0 then domain 0x7FFFFFFF
  else
    let (e, m, i, d) := norm a
    let odd := (e - qi) % 2 = 1
    let k := if odd then e - qi - 1 else e - qi
    let v := if odd then m * 2 else m
    let t := if odd then tabS1 else tabS0
    let r0 := t.getD i 0 - rneShr ((t.getD i 0 - t.getD (i + 1) 0) * d) 16
    let w := rneShr (v * rneShr (r0 * r0) 30) 30
    let r1 := r0 + rneShr (r0 * (shl 1 30 - w)) 31
    noDom (ovfw (shiftRound r1 (30 + asr k 1 - qo) r) 32 wrap)

end Sys2Proof.Machine
end

