-- ==== Sys2Proof/Machine/Routes.lean ====
section
/-! DEFINITION. Routes and their endpoints as a job slot's image declares them, the credit
that a freed place returns, and the condition on which each kind of fence completes
(R264, R276, R277, R291, R314, R315). -/

namespace Sys2Proof.Machine

open Sys2Proof

/-! ### Endpoint codes (R315) -/

/-- The kind of an endpoint code: 0 PORT, 1 STACK, 2 STAGING, 3 SINK, 4 BLOCK. -/
def epKind (code : Nat) : Nat := code / 8192

/-- The index of an endpoint code. -/
def epIdx (code : Nat) : Nat := code % 8192

/-- The die of a core. -/
def coreDie (c : Nat) : Nat := c / 128

/-- The die of an endpoint, for the kinds that lie on one (R21, R24, R263, R315, R318). -/
def State.epDie (s : State) (j : JobSlot) (code : Nat) : Nat :=
  match epKind code with
  | 0 => epIdx code / 32 / 128
  | 1 => epIdx code / 240 / 4
  | 2 => (((s.image j).bind fun i => i.staging[epIdx code]?).map fun r => r.cluster / 16).getD 0
  | 3 => epIdx code / 4 / 128
  | _ =>
    if epIdx code < 16 then epIdx code % 2
    else if epIdx code = 17 ∨ epIdx code = 20 then 1 else 0

/-- A route of a job slot's image. -/
def State.routeCfg (s : State) (j : JobSlot) (r : Nat) : Option RouteCfg :=
  (s.image j).bind fun i => i.routes[r]?

/-- The routes of a job slot's image that begin at a core's ports. -/
def State.coreRoutes (s : State) (j : JobSlot) (c : Nat) : List (Nat × RouteCfg) :=
  match s.image j with
  | none => []
  | some i => (List.range i.routes.length).filterMap fun r =>
      (i.routes[r]?).bind fun cf =>
        if epKind cf.src = 0 ∧ epIdx cf.src / 32 = c then some (r, cf) else none

/-- The endpoint descriptor of endpoint `n` of stack `d` (R355); the last schedule of the
stack that describes it is used, since all phases describe the same endpoints. -/
def State.epCfg (s : State) (j : JobSlot) (d n : Nat) : Option EpCfg :=
  (s.image j).bind fun i =>
    ((i.scheds.find? fun b => b.stack == d && b.phase == s.getF fPwrOppointPhase).or
      (i.scheds.find? fun b => b.stack == d)).bind fun b => b.eps[n]?

/-- The depth of a route's destination, where the route starts with its credits (R274, R277,
R281); of a command endpoint, a staging region and a block the model chooses it (log entry 11). -/
def State.destDepth (s : State) (j : JobSlot) (code : Nat) : Nat :=
  match epKind code with
  | 0 =>
    let x := s.core (epIdx code / 32)
    ((if j = .a then x.cfgA else x.cfgB).map (·.depth)).getD [] |>.getD (epIdx code % 32) 0
  | 1 =>
    match s.epCfg j (epIdx code / 240) (epIdx code % 240) with
    | some e => if e.typ = 3 then 257 else 64
    | none => 64
  | 2 => (((s.image j).bind fun i => i.staging[epIdx code]?).map fun r => r.length / 256).getD 0
  | 3 => 64
  | _ => 4096

/-- A place at a route's destination is freed: one credit sets out for the source (R277). -/
def State.creditBack (s : State) (j : JobSlot) (r : Nat) : State :=
  s.setRoute j r { s.route j r with creditsBack := (s.route j r).creditsBack + 1 }

/-- Free a place for each route of a list. -/
def State.creditsBack (s : State) (j : JobSlot) : List Nat → State
  | [] => s
  | r :: t => (s.creditBack j r).creditsBack j t

/-! ### Fences (R291) -/

/-- Whether a bank-engine command that came by a route is still queued in a stack. -/
def StackSt.holdsRoute (k : StackSt) (key : Nat) : Bool :=
  (k.qa ++ k.qb ++ k.qh).any fun b => b.origin == .route key

/-- The words that a route has delivered to an engine. -/
def FabPort.words (x : FabPort) (r : Nat) : List SWord := Tab.look (fun _ => []) x.delivered (routeKey .a r)

/-- Words that came by a route and wait at its destination. -/
def State.atDest (s : State) (j : JobSlot) (r : Nat) (cf : RouteCfg) : Nat :=
  match epKind cf.dst with
  | 1 => (s.ep j (epIdx cf.dst / 240) (epIdx cf.dst % 240)).buf.length
  | 3 => (s.sink j (epIdx cf.dst / 4) (epIdx cf.dst % 4)).buf.countP fun w => w.1 == r
  | _ => 0

/-- Whether no bank-engine command that came by a route is still to complete. -/
def State.cmdsDone (s : State) (j : JobSlot) (r : Nat) (cf : RouteCfg) : Bool :=
  epKind cf.dst != 1 || !(s.stk (epIdx cf.dst / 240)).holdsRoute (routeKey j r)

/-- Words pushed on a route and not yet placed at its destination. -/
def State.unplaced (s : State) (c : Nat) (r : Nat × RouteCfg) : Nat :=
  (((s.core c).port (epIdx r.2.src % 32)).queue.countP fun w => w.1 == r.1)
    + (s.route (s.core c).slot r.1).flight.length

/-- Words pushed on a route to an engine and not yet composed into a frame. -/
def State.uncomposed (s : State) (c : Nat) (r : Nat × RouteCfg) : Nat :=
  s.unplaced c r + ((s.port (epIdx r.2.dst)).words r.1).length

/-- Words on a route that a fence does not cover: those that its own bundle pushed. -/
def FenceSt.allow (f : FenceSt) (r : Nat) : Nat :=
  sumNat ((f.own.filter fun p => p.1 == r).map (·.2))

/-- Whether no ADRQ that the fence covers waits to push its token. -/
def CoreSt.noAdrq (x : CoreSt) (f : FenceSt) : Bool :=
  match x.quad.drain with
  | some d => (d.word >>> 29).toNat != 2 || f.ownDrain == some d.order
  | none => true

/-- Whether the words of a route that a fence covers are placed. -/
def State.placed (s : State) (c : Nat) (f : FenceSt) (r : Nat × RouteCfg) : Bool :=
  decide (s.unplaced c r ≤ f.allow r.1)

/-- Whether the words of a route that a fence covers are performed at its destination, with
any bank-engine command that they carried. -/
def State.performed (s : State) (c : Nat) (f : FenceSt) (r : Nat × RouteCfg) : Bool :=
  decide (s.unplaced c r + s.atDest (s.core c).slot r.1 r.2 ≤ f.allow r.1)
    && s.cmdsDone (s.core c).slot r.1 r.2

/-- Whether the words that a core's fence covers meet its kind, apart from the answers of a
herd (R291). While the fence is pending the core issues nothing, so it covers every word
that the core has pushed but those of its own bundle. -/
def State.fenceMet (s : State) (c : Nat) (f : FenceSt) : Bool :=
  let x := s.core c
  let rs := s.coreRoutes x.slot c
  let here (cf : RouteCfg) : Bool := s.epDie x.slot cf.dst == coreDie c
  x.noAdrq f && rs.all (s.placed c f)
    && (match f.kind.toNat with
        | 0 => true
        | 1 => rs.all fun r => !(epKind r.2.dst == 1 && here r.2) || s.performed c f r
        | 2 => rs.all fun r => !here r.2 || s.performed c f r
        | _ => rs.all fun r => s.performed c f r)

end Sys2Proof.Machine
end

