-- ==== Sys2Proof/Machine/Herd.lean ====
section
/-! DEFINITION. Chip numbers, and herds: the coordinates of a member, its rank, and the members of the
group to which this device belongs (R27, R322, R394-R396, R532, R533). -/

namespace Sys2Proof.Machine

open Sys2Proof

/-! ### Chip numbers (R27, R322, R394-R396) -/

/-- The device's physical chip number. -/
def State.physChip (s : State) : Nat := s.getF fFabPchipChip

/-- The device's logical chip number: its place in the logical table; under an image with no
chip map it is the physical one; a standby spare has none. -/
def State.logChip (s : State) : Option Nat :=
  match s.logical with
  | none => some s.physChip
  | some l => l.findIdx? (· == s.physChip)

/-- The physical chip number of a logical one; none is a CHIP_RANGE fault. -/
def State.resolveChip (s : State) (n : Nat) : Option Nat :=
  match s.logical with
  | none => if n = s.physChip then some n else none
  | some l => l[n]?

/-- The coordinate of a chip number on an axis: 0 W to 3 Z. -/
def coord (chip axis : Nat) : Nat := chip / 16 ^ (3 - axis) % 16

/-! ### Herds (R532, R533) -/

/-- A herd of job slot A's image. -/
def State.herdCfg (s : State) (h : Nat) : Option HerdCfg :=
  ((s.imgA.bind (·.herd)).map (·.herds)).bind fun l => l[h]?

/-- The masked axes, W first. -/
def HerdCfg.axes (h : HerdCfg) : List Nat := [0, 1, 2, 3].filter fun a => h.axmask.getLsbD a

/-- LO of an axis. -/
def HerdCfg.loOf (h : HerdCfg) (a : Nat) : Nat := h.lo.getD a 0

/-- EXT of an axis. -/
def HerdCfg.extOf (h : HerdCfg) (a : Nat) : Nat := max 1 (h.ext.getD a 1)

/-- Whether a logical chip number lies in the sub-block. -/
def HerdCfg.has (h : HerdCfg) (l : Nat) : Bool :=
  h.axes.all fun a => decide (h.loOf a ≤ coord l a) && decide (coord l a < h.loOf a + h.extOf a)

/-- The group size. -/
def HerdCfg.size (h : HerdCfg) : Nat := h.axes.foldl (fun n a => n * h.extOf a) 1

/-- The digits of a member, in axis order. -/
def HerdCfg.digits (h : HerdCfg) (l : Nat) : List Nat := h.axes.map fun a => coord l a - h.loOf a

/-- The rank of a member in its group. -/
def HerdCfg.rank (h : HerdCfg) (l : Nat) : Nat :=
  h.axes.foldl (fun n a => n * h.extOf a + (coord l a - h.loOf a)) 0

/-- The digits of a rank, in axis order. -/
def rankDigits : List Nat → Nat → List Nat
  | [], _ => []
  | e :: r, n => n / (r.foldl (· * ·) 1) % e :: rankDigits r n

/-- A logical chip number with one coordinate replaced. -/
def setCoord (l a v : Nat) : Nat := l - coord l a * 16 ^ (3 - a) + v * 16 ^ (3 - a)

/-- The logical chip number of the member of a rank in the group of `l`. -/
def HerdCfg.member (h : HerdCfg) (l r : Nat) : Nat :=
  (h.axes.zip (rankDigits (h.axes.map h.extOf) r)).foldl (fun n p => setCoord n p.1 (h.loOf p.1 + p.2)) l

/-- This device's logical chip number where it belongs to a herd; a standby spare belongs to
none. -/
def State.herdMe (s : State) (h : HerdCfg) : Option Nat :=
  s.logChip.bind fun l => if h.has l then some l else none

/-- The rank of this device in a herd. -/
def State.herdRank (s : State) (h : HerdCfg) : Option Nat := (s.herdMe h).map h.rank

/-- The other members of this device's group, as physical chip numbers. -/
def State.herdPeers (s : State) (h : HerdCfg) : List Nat :=
  match s.herdMe h with
  | none => []
  | some l => (((List.range h.size).map (h.member l)).filter (· != l)).map fun m =>
      (s.resolveChip m).getD m

/-- The fence herd of the resident context of a core (R292). -/
def State.fenceHerd (s : State) (c : Nat) : Option HerdCfg :=
  ((s.core c).cfg.map (·.fherd)).bind s.herdCfg

/-- The other members of a core's fence herd, as physical chip numbers. -/
def State.fencePeers (s : State) (c : Nat) : List Nat := ((s.fenceHerd c).map s.herdPeers).getD []

/-- Whether every word that a HERD fence covers has left this device in a frame, or stays on it (R529). -/
def State.composed (s : State) (c : Nat) (f : FenceSt) : Bool :=
  (s.coreRoutes (s.core c).slot c).all fun r =>
    !(epKind r.2.dst == 4 && decide (epIdx r.2.dst < 19)) || decide (s.uncomposed c r ≤ f.allow r.1)

/-- Whether a HERD fence has nothing to wait for beyond this device: no other member, or no word of the
core composed into a frame since its last HERD fence (R293, R529). -/
def State.herdDone (s : State) (c : Nat) (f : FenceSt) : Bool :=
  s.composed c f && ((s.core c).lastComp.isNone || (s.fencePeers c).isEmpty)

/-- G: ceil(log2 N), and 0 for one member (R533). -/
def HerdCfg.g (h : HerdCfg) : Nat := if h.size ≤ 1 then 0 else need ((h.size : Int) - 1) - 1

end Sys2Proof.Machine
end

