-- ==== Sys2Proof/Machine/Scalar.lean ====
section
/-! DEFINITION. The control slot and the stream slot of a bundle: what each operation
computes, the checks made when it is due to issue, the conditions on which it holds, and
the advance of the sequencer (R184-R204, R234, R238, R239, R247, R248, R261, R279). -/

namespace Sys2Proof.Machine

open Sys2Proof

/-! ### Scalar and mask values (R187) -/

/-- The value of a format-R operation. -/
def aluVal (o : AluOp) (a b : W32) : W32 :=
  match o with
  | .sadd => a + b
  | .ssub => a - b
  | .sand => a &&& b
  | .sor => a ||| b
  | .sxor => a ^^^ b
  | .sshl => a <<< (b.toNat % 32)
  | .sshr => a >>> (b.toNat % 32)
  | .ssra => a.sshiftRight (b.toNat % 32)
  | .smin => if a.slt b then a else b
  | .smax => if a.slt b then b else a
  | .sslt => if a.slt b then 1 else 0
  | .smul => a * b

/-- The operand b of format R (R238). -/
def CoreSt.opB (x : CoreSt) (f : FmtR) : W32 :=
  if f.i = 0 then x.sreg (f.low.extractLsb' 2 5) else f.low.signExtend 32

/-- The value of a mask operation. -/
def maskVal (o : MaskOp) (a b : W64) : W64 :=
  match o with
  | .mand => a &&& b
  | .mor => a ||| b
  | .mxor => a ^^^ b
  | .mandn => a &&& ~~~b

/-- The value of MFILL. -/
def fillVal (a : W32) : W64 := BitVec.ofNat 64 (2 ^ min a.toNat 64 - 1)

/-- The number of 1 bits of a mask. -/
def popVal (a : W64) : W32 := BitVec.ofNat 32 ((List.range 64).countP fun i => a.getLsbD i)

/-- The value that SMFS returns (R189). -/
def State.special (s : State) (c : Nat) (x : CoreSt) (sel : Nat) : W32 :=
  match sel with
  | 0 => BitVec.ofNat 32 c
  | 1 => (s.stepOf x.slot).setWidth 32
  | 2 => BitVec.ofNat 32 (slotNat x.slot)
  | n => if (x.loop (n - 3)).act then (x.loop (n - 3)).lc.setWidth 32 else 0

/-- The scratchpad address of SLD and SST; the scalar register is read as a signed value (R238, log
entry 21). -/
def CoreSt.ldAddr (x : CoreSt) (f : FmtM) : Int := (x.sreg f.a).toInt + 4 * f.imm.toInt

/-- The count of a LOOP (R194, R238). -/
def CoreSt.loopCount (x : CoreSt) (f : FmtLP) : Nat :=
  if f.i = 1 then f.cnt.toNat else (x.sreg (f.cnt.extractLsb' 3 5)).toNat % 2 ^ 20

/-- The value that SETMODE writes (R238). -/
def CoreSt.modeVal (x : CoreSt) (f : FmtSM) : W32 :=
  if f.i = 1 then f.imm.setWidth 32 else x.sreg (f.imm.extractLsb' 0 5)

/-- Whether a branch is taken (R187). -/
def brTaken (o : BrOp) (a : W32) : Bool :=
  match o with
  | .always => true
  | .eqz => a == 0
  | .nez => a != 0
  | .ltz => a.msb
  | .gez => !a.msb

/-- A branch of the control slot: whether it is taken, and its offset. -/
def CoreSt.branch (x : CoreSt) : CtlOp → Option (Bool × Int)
  | .br o f => some (brTaken o (x.sreg f.a), f.off.toInt)
  | .bmany f => some (x.mreg f.ma != 0, f.off.toInt)
  | .bmnone f => some (x.mreg f.ma == 0, f.off.toInt)
  | _ => none

/-! ### Checks of the control slot, in the order of R234 -/

/-- The end indexes of the active loop levels. -/
def CoreSt.loopEnds (x : CoreSt) : List Nat :=
  ([0, 1, 2].filter fun n => (x.loop n).act).map fun n => (x.loop n).le.toNat

/-- Whether the image declares a feeder plane for the core: it declares a feeder in it (log entry 9). -/
def CoreSt.declF (x : CoreSt) (q : Nat) : Bool :=
  match x.cfg with
  | none => false
  | some cf => ((cf.feeders.drop (5 * q)).take 5).any (·.decl)

/-- Whether the image declares a stream plane for the core: it binds a port in it (log entry 9). -/
def CoreSt.declS (x : CoreSt) (q : Nat) : Bool :=
  match x.cfg with
  | none => false
  | some cf => ((cf.binds.drop (32 * q)).take 32).any fun b => b.user != 0

/-- The first detail of a list of checks that fails. -/
def firstFail : List (Bool × Nat) → Option Nat
  | [] => none
  | (b, d) :: r => if b then some d else firstFail r

/-- Operands of the control slot that the core's state makes illegal (R203, R239, R292). -/
def CoreSt.ctlBad (x : CoreSt) (op : CtlOp) : Bool :=
  op.bad || (match op with
    | .setmode f => (x.modeVal f).toNat ≥ 2 ^ 15
    | .waitcal f => !(((x.cfg.map CoreCfg.calmask).getD 0).getLsbD f.n.toNat)
    | .fence f => f.kind == 4 && ((x.cfg.map CoreCfg.fherd).getD 255) == 255
    | _ => false)

/-- A control-flow operation in a delay slot (R193). -/
def CoreSt.ctlInDs (x : CoreSt) (op : CtlOp) : Bool :=
  x.ds && ((x.branch op).isSome || (match op with
    | .loop _ => true
    | _ => false))

/-- A LOOP that R196 forbids. -/
def CoreSt.loopNest (x : CoreSt) (op : CtlOp) : Bool :=
  match op with
  | .loop f =>
    let e := x.pc.toNat + f.endo.toNat
    ([0, 1, 2].any fun n => decide (f.n.toNat ≤ n) && (x.loop n).act)
      || x.loopEnds.any (fun l => decide (l < e)) || decide (x.plen ≤ e)
      || x.loopEnds.contains x.pc.toNat
  | _ => false

/-- A SETMODE that names an undeclared plane (R201). -/
def CoreSt.modePlane (x : CoreSt) (op : CtlOp) : Bool :=
  match op with
  | .setmode f =>
    !(x.declF ((x.modeVal f).extractLsb' 0 2).toNat && x.declS ((x.modeVal f).extractLsb' 2 2).toNat)
  | _ => false

/-- Whether the operation is a SETMODE. -/
def CtlOp.isSetmode : CtlOp → Bool
  | .setmode _ => true
  | _ => false

/-- Whether the operation is BRK. -/
def CtlOp.isBrk : CtlOp → Bool
  | .brk _ => true
  | _ => false

/-- Whether the address of an SLD or SST is misaligned (R239). -/
def CoreSt.ctlMisaligned (x : CoreSt) : CtlOp → Bool
  | .sld f | .sst f => x.ldAddr f % 4 != 0
  | _ => false

/-- Whether a branch's target lies outside 0 to 4,095 (R193). -/
def CoreSt.badTarget (x : CoreSt) (op : CtlOp) : Bool :=
  match x.branch op with
  | some (_, off) => decide (x.pc.toNat + off < 0) || decide (4095 < x.pc.toNat + off)
  | none => false

/-- A branch at the end of an active loop body, or whose delay slot ends one (R197). -/
def CoreSt.loopEnd (x : CoreSt) (op : CtlOp) : Bool :=
  (x.branch op).isSome && (x.loopEnds.contains x.pc.toNat || x.loopEnds.contains (x.pc.toNat + 1))

/-- The ILLEGAL detail that the control slot raises; `dbg` is the image's debug flag. -/
def CoreSt.ctlIll (x : CoreSt) (dbg : Bool) (op : CtlOp) : Option Nat :=
  firstFail
    [(op.undefd, dUndefOp), (op.rsv, dRsvField), (x.ctlMisaligned op, dMisalign),
     (x.ctlBad op, dBadOperand), (x.badTarget op, dPcRange), (x.ctlInDs op, dCtlInDs),
     (x.loopEnd op, dLoopEnd), (x.loopNest op, dLoopNest),
     (op.isSetmode && x.pcount != 0, dModeShadow), (x.modePlane op, dModePlane),
     (op.isBrk && !dbg, dBrkNodebug)]

/-- The scratchpad access of an SLD or SST that lies outside the slot's ranges: its address (R188, R434). -/
def State.ctlProt (s : State) (c : Nat) (x : CoreSt) : CtlOp → Option Int
  | .sld f | .sst f => if s.spadOk x.slot c (x.ldAddr f) 4 then none else some (x.ldAddr f)
  | _ => none

/-! ### Effects of the control slot -/

/-- A DONE posts its completion, or drops it while the FIFO is full (R298, R303). -/
def State.post (s : State) (c : Nat) (code : Byte) : State :=
  let x := s.core c
  if x.fifo.length < 4 then
    s.setCore c { x with
      fifo := x.fifo ++ [⟨c, code, x.isB, x.dropped, (s.stepOf x.slot).setWidth 32, s.fab.time⟩]
      dropped := false }
  else
    let d := s.dieColl (coreDie c)
    ((s.setCore c { x with dropped := true }).setDieColl (coreDie c)
      (if x.isB then { d with dropB := inc16 d.dropB 1 } else { d with dropA := inc16 d.dropA 1 })).log
      ⟨13, 0x0200, unitCore c, x.isB, false, c + 65536 * code.toNat, ((s.stepOf x.slot).setWidth 32 : W32).toNat⟩

/-- Replace a cadence group, and show it in the gate registers (R481). -/
def State.putGroup (s : State) (g : Nat) (x : GroupSt) : State :=
  let lo (o : Option Nat) : W32 := BitVec.ofNat 32 (o.getD 0)
  let st := (if x.round.isSome then 1 else 0) + (if x.doneSrc.isSome ∧ x.doneSrc = x.roundSrc then 2 else 0)
    + (if x.roundSrc.isSome then 4 else 0) + (if x.doneSrc.isSome then 8 else 0)
  ((((s.setGroup g x).wr (rBwtSoround g) (lo x.roundSrc)).wr (rBwtSodone g) (lo x.doneSrc)).wr
    (rBwtSogstat g) (BitVec.ofNat 32 st)).setF (fBwtSocadPeriod g) x.period

/-- A DONE of the root gate's codes: DONESRC takes ROUNDSRC within a round of a declared group (R461). -/
def State.gateDone (s : State) (g : Nat) : State :=
  let n := ((s.imgA.bind (·.second)).map (·.groups.length)).getD 0
  if g < n ∧ (s.group g).round.isSome then
    s.putGroup g { s.group g with doneSrc := (s.group g).roundSrc }
  else s

/-- What a DONE of job slot A means to the root gate and to Bellwether (R461, R579, R600). -/
def State.doneMeaning (s : State) (c : Nat) (code : Byte) : State :=
  if (s.core c).isB then s
  else if 0xC0 ≤ code.toNat then s.gateDone (code.toNat - 0xC0)
  else if code = 0xBC then s.setB fBwtStatusRebuilt true
  else if code = 0xBD then { s with bwt := { s.bwt with doneBD := true } }
  else if code = 0xBE then { s with bwt := { s.bwt with doneBE := true } }
  else s

/-- A FENCE becomes pending, or is complete at once when nothing is left to wait for (R190, R293). -/
def State.startFence (s : State) (c : Nat) (f : FenceSt) : State :=
  if s.fenceMet c f = true ∧ (f.kind ≠ 4 ∨ s.herdDone c f = true) then
    s.modCore c fun x => if f.kind = 4 then { x with lastComp := none } else x
  else s.modCore c fun x => { x with fence := some f }

/-- The word that SLD reads, corrected where it has a single-bit error. -/
def State.loadWord (s : State) (c : Nat) (a : Nat) : W32 × State :=
  let r := s.spadRead c a 4
  (BitVec.ofNat 32 (leNat r.1.bytes), r.2)

/-- The effect of the control slot, its sources read from `x`, the core as it was before the
bundle issued (R181); the change of the pc, the loops
and the mode is `CoreSt.advance`, and a FENCE starts after every slot of its bundle. -/
def State.ctlEff (s : State) (c : Nat) (x : CoreSt) : CtlOp → State
  | .alu o f => s.modCore c fun y => y.setS f.d (aluVal o (x.sreg f.a) (x.opB f))
  | .sld f =>
    let r := s.loadWord c (x.ldAddr f).toNat
    r.2.modCore c fun y => y.setS f.d r.1
  | .sst f => s.spadWrite c (x.ldAddr f).toNat (leBytes 4 (x.sreg f.d).toNat)
  | .smfs f => s.modCore c fun y => y.setS f.d (s.special c x f.sel.toNat)
  | .mask o f => s.modCore c fun y => y.setM f.md (maskVal o (x.mreg f.ma) (x.mreg f.mb))
  | .mfill f => s.modCore c fun y => y.setM f.md (fillVal (x.sreg f.a))
  | .mpop f => s.modCore c fun y => y.setS f.d (popVal (x.mreg f.ma))
  | .waitcal f => s.modCore c fun y => { y with calPend := y.calPend &&& ~~~BitVec.ofNat 64 (2 ^ f.n.toNat) }
  | .done f => (s.post c f.code).doneMeaning c f.code
  | .brk _ => s.modCore c fun y => { y with pend := { y.pend with brk := some 1 } }
  | .sli f => s.modCore c fun y => y.setS f.d (f.imm.signExtend 32)
  | .slui f => s.modCore c fun y =>
      y.setS f.d ((x.sreg f.d &&& 0xFFFF) ||| (f.imm.setWidth 32 <<< 16))
  | .cnop _ | .br _ _ | .bmany _ | .bmnone _ | .loop _ | .setmode _ | .fence _ | .undef _ => s

/-! ### The advance of the sequencer (the pseudocode after R199) -/

/-- The loop test at the bundle that issues: the levels after it and the next index (R198). -/
def CoreSt.loopTest (x : CoreSt) : List Nat → CoreSt × Nat
  | [] => (x, x.pc.toNat + 1)
  | n :: r =>
    if (x.loop n).act then
      if (x.loop n).le = x.pc then
        if 1 < (x.loop n).lc.toNat then
          (x.setLoop n { x.loop n with lc := (x.loop n).lc - 1 }, (x.loop n).ls.toNat)
        else (x.setLoop n { x.loop n with act := false }).loopTest r
      else (x, x.pc.toNat + 1)
    else x.loopTest r

/-- Deactivate every active level that does not contain the target (R199). -/
def CoreSt.leave (x : CoreSt) (tgt : Nat) : List Nat → CoreSt
  | [] => x
  | n :: r =>
    if (x.loop n).act ∧ (tgt < (x.loop n).ls.toNat ∨ (x.loop n).le.toNat < tgt) then
      (x.setLoop n { x.loop n with act := false }).leave tgt r
    else x.leave tgt r

/-- The feeders of the plane in force return to BASE (R780). -/
def CoreSt.feedersToBase (x : CoreSt) : List Nat → CoreSt
  | [] => x
  | f :: r =>
    match x.feederCfg f with
    | some cf =>
      if cf.fromPort then x.feedersToBase r
      else (x.setFeeder f { x.feeder f with addr := BitVec.ofNat 32 cf.base }).feedersToBase r
    | none => x.feedersToBase r

/-- One shadow bundle has issued: the new mode takes effect after the second (R200). -/
def CoreSt.shadow (x : CoreSt) : CoreSt :=
  if x.pcount = 0 then x
  else if x.pcount = 1 then
    ({ x with pcount := 0, mode := x.pmode }).feedersToBase [0, 1, 2, 3, 4]
  else { x with pcount := x.pcount - 1 }

/-- The sequencer's state after the bundle at PC issues with control operation `op`; the
condition and the operands come from `x0`, the core before the issue (R181). -/
def CoreSt.advance (x x0 : CoreSt) (op : CtlOp) : CoreSt :=
  let t : CoreSt × Nat :=
    if x.ds then ({ x with ds := false }, x.dst.toNat) else x.loopTest [2, 1, 0]
  let t2 : CoreSt × Nat :=
    match x0.branch op with
    | some (taken, off) =>
      let tgt := (x.pc.toNat + off).toNat
      let y := if taken then t.1.leave tgt [0, 1, 2] else t.1
      ({ y with ds := true, dst := BitVec.ofNat 12 (if taken then tgt else x.pc.toNat + 2) },
        x.pc.toNat + 1)
    | none => t
  let t3 : CoreSt × Nat :=
    match op with
    | .loop f =>
      let e := x.pc.toNat + f.endo.toNat
      if x0.loopCount f = 0 then (t2.1, e + 1)
      else
        (t2.1.setLoop f.n.toNat
          ⟨x.pc + 1, BitVec.ofNat 12 e, BitVec.ofNat 20 (x0.loopCount f), true⟩, t2.2)
    | _ => t2
  let y := t3.1.shadow
  let z : CoreSt :=
    match op with
    | .setmode f => { y with pmode := x0.modeVal f, pcount := 2 }
    | _ => y
  { z with pc := BitVec.ofNat 12 t3.2 }

/-! ### The stream slot -/

/-- Whether a port is bound to the stream slot in the direction that an operation needs (R248). -/
def CoreSt.strPort (x : CoreSt) (p : BitVec 5) (out : Bool) : Bool :=
  match x.bind p.toNat with
  | some b => b.user == 1 && b.out == out
  | none => false

/-- The ILLEGAL detail that the stream slot raises (R232, R248, R262). -/
def CoreSt.strIll (x : CoreSt) (op : StrOp) : Option Nat :=
  firstFail
    [(op.undefd, dUndefOp), (op.rsv, dRsvField),
     (op.bad || (match op with
       | .srecv f | .sdrop f => !x.strPort f.port false
       | .ssend f => !x.strPort f.port true
       | .slevel f => (x.bind f.port.toNat).isNone
       | _ => false), dBadOperand)]

/-- The words of a queue up to and including the first word marked LAST, whether there is
one, and the words after it. -/
def splitLast : List (Nat × SWord) → List (Nat × SWord) × Bool × List (Nat × SWord)
  | [] => ([], false, [])
  | w :: r =>
    if w.2.last then ([w], true, r)
    else
      let t := splitLast r
      (w :: t.1, t.2.1, t.2.2)

/-- Whether the stream slot holds (R279). -/
def CoreSt.strHold (x : CoreSt) : StrOp → Bool
  | .srecv f => x.strPort f.port false && (x.port f.port.toNat).queue.isEmpty
  | .ssend f => x.strPort f.port true && x.free f.port.toNat == 0
  | .sdrop f => x.strPort f.port false && !(splitLast (x.port f.port.toNat).queue).2.1
  | _ => false

/-- Pop the front word of an incoming port. -/
def State.popWord (s : State) (c p : Nat) : Option SWord × State :=
  let x := s.core c
  match (x.port p).queue with
  | [] => (none, s)
  | w :: r =>
    (some w.2, (s.setCore c (x.setPort p { x.port p with queue := r, mid := !w.2.last })).creditBack
      x.slot w.1)

/-- Push a word to an outgoing port, to leave by the route that a plane binds it to. -/
def CoreSt.pushWord (x : CoreSt) (plane p : Nat) (w : SWord) : CoreSt :=
  x.setPort p { x.port p with
    queue := (x.port p).queue ++ [(((x.bindIn plane p).map (·.route)).getD 0, w)]
    mid := !w.last }

/-- Discard words up to and including the next word marked LAST (R261). -/
def State.dropWords (s : State) (c p : Nat) : State :=
  let x := s.core c
  let t := splitLast (x.port p).queue
  match t.1.getLast? with
  | none => s
  | some w =>
    (s.setCore c (x.setPort p { x.port p with queue := t.2.2, mid := !w.2.last })).creditsBack
      x.slot (t.1.map (·.1))

/-- The level of a port that SLEVEL reads (R261, R303). -/
def CoreSt.level (x : CoreSt) (p : Nat) : Nat :=
  match x.bind p with
  | some b => if b.out then x.free p else (x.port p).queue.length
  | none => 0

/-- The effect of the stream slot, its sources read from `x` (R261); a poisoned word sets job slot
A's incomplete bit and raises nothing (R273). -/
def State.strEff (s : State) (c : Nat) (x : CoreSt) : StrOp → State
  | .srecv f =>
    match s.popWord c f.port.toNat with
    | (some w, s') =>
      let s2 := s'.modCore c fun y => y.setV f.v w.data
      if w.poison then s2.incompFor c else s2
    | (none, s') => s'
  | .ssend f => s.modCore c fun y =>
      y.pushWord x.splane f.port.toNat ⟨x.vreg f.v, f.last == 1, f.lend == 1, false, false, 0⟩
  | .sdrop f => s.dropWords c f.port.toNat
  | .slevel f => s.modCore c fun y => y.setS f.v (BitVec.ofNat 32 (x.level f.port.toNat))
  | .snop _ | .undef _ => s

end Sys2Proof.Machine
end

