-- ==== Sys2Proof/Machine/Quad.lean ====
section
/-! DEFINITION. The quad: what the feeders deliver, a k-step slot of an AMAC, the drain
unit, and the array slot of a bundle (R92-R117, R246, R247, R267, R268, R271, R272, R779,
R780). -/

namespace Sys2Proof.Machine

open Sys2Proof

/-! ### Operand kinds (R94, R95, R780) -/

/-- The stored format of an operand kind: 0 I4S, 1 I8S, 2 I16S, 3 I32S. -/
def kindFmt (k : Nat) : Nat :=
  match k with
  | 0 => 1 | 1 => 0 | 2 => 2 | 3 => 2 | 4 => 2 | _ => 3

/-- The mantissa bytes of a k-tile of an operand kind. -/
def kindBytes (k : Nat) : Nat := fmtBytes (kindFmt k)

/-- Words per tile of an operand kind (R266). -/
def kindWords (k : Nat) : Nat := kindBytes k / 256

/-- The cell operand of a stored element, and whether sat9 or sat24 changed it (R94). -/
def cellOp (k : Nat) (x : Int) : Int × Bool :=
  match k with
  | 0 | 1 => (x, false)
  | 2 => (satw x 9, satw x 9 != x)
  | 3 => (limb8 x 0, false)
  | 4 => (limb8s x 1, false)
  | 5 => (limb8 (satw x 24) 0, false)
  | 6 => (limb8 (satw x 24) 1, false)
  | _ => (limb8s (satw x 24) 2, satw x 24 != x)

/-- Whether a changed operand of kind `k` counts an event beside kind `o` on the other side:
P9 always; L24_2 only on the pass with I8, L16_0 or L24_0 (R94). -/
def countsEvent (k o : Nat) : Bool := k == 2 || (k == 7 && (o == 0 || o == 3 || o == 5))

/-- The k-step slots of an AMAC: 16 when both sides are I4, else 32 (R95). -/
def kSlots (ka kb : Nat) : Nat := if ka = 1 ∧ kb = 1 then 16 else 32

/-- The k indexes of slot `k` (R72, R73). -/
def kIdx (ka kb k : Nat) : List Nat := if ka = 1 ∧ kb = 1 then [2 * k, 2 * k + 1] else [k]

/-- The place in a stored tile of element `i` of the vector at index `kk`: the row operand is
read down a column and the column operand along a row, the other way when transposed. -/
def elemPos (row trans : Bool) (kk i : Nat) : Nat :=
  if row != trans then i * 32 + kk else kk * 32 + i

/-- Element `e` of a tile stored at width `w`. -/
def elemOf (w : Nat) (b : List Byte) (e : Nat) : Int :=
  if w = 4 then
    toS 4 (if e % 2 = 0 then (b.getD (e / 2) 0).toNat else (b.getD (e / 2) 0).toNat / 16)
  else toS w (fieldLe b (e * (w / 8)) (w / 8))

/-! ### What a feeder delivers -/

/-- A vector that a feeder delivers: its elements for each k index, valid bit, scale. -/
structure FeedVec where
  vals : List (List Int)
  valid : Bool
  scale : Int
  deriving DecidableEq, Repr

/-- A token at the front of a feeder's port: words, tiles, and whether it is malformed (R271). -/
structure Token where
  words : List (Nat × SWord)
  m : Nat
  bad : Bool
  deriving DecidableEq, Repr

/-- The complete token at the front of a port, for `t` words per tile. -/
def frontToken (q : List (Nat × SWord)) (t : Nat) : Option Token :=
  let p := splitLast q
  if p.2.1 then
    let n := p.1.length - 1
    some ⟨p.1, n / t, n % t != 0 || n / t == 0 || decide (4 < n / t)⟩
  else none

/-- Whether a feeder can deliver: it waits for a token, its address is out of the slot's
ranges, or it has its vector (R105, R271, R434, R780). -/
inductive FeedReady | missing | fault (a : Nat) | ready
  deriving DecidableEq, Repr

/-- Whether feeder `f` can deliver an operand of kind `k`. -/
def State.feedReady (s : State) (c f k : Nat) : FeedReady :=
  let x := s.core c
  match x.feederCfg f with
  | none => .missing
  | some cf =>
    if cf.fromPort then
      if (frontToken (x.port cf.port).queue (kindWords k)).isSome then .ready else .missing
    else
      let a := (x.feeder f).addr.toNat
      if s.spadOk x.slot c a (kindBytes k + 16) then .ready else .fault a

/-- The vector at k indexes `ks` from a tile's bytes. -/
def pickVec (k : Nat) (row trans : Bool) (ks : List Nat) (b : List Byte) : List (List Int) :=
  ks.map fun kk => (List.range 32).map fun i => elemOf (fmtWidth (kindFmt k)) b (elemPos row trans kk i)

/-- The places in a tile of the elements at k indexes `ks`. -/
def vecPos (row trans : Bool) (ks : List Nat) : List Nat :=
  ks.flatMap fun kk => (List.range 32).map fun i => elemPos row trans kk i

/-- The vector from the scratchpad (R780), with the corrections and records of R778. -/
def State.feedSpad (s : State) (c f k : Nat) (row : Bool) (ks : List Nat) (cf : FeederCfg) :
    FeedVec × State :=
  let x := s.core c
  let a := (x.feeder f).addr.toNat
  let r := ramRead x.spad x.spEcc 4 a (kindBytes k + 1)
  let used := ((a + kindBytes k) / 4) ::
    (vecPos row cf.trans ks).map fun e => (a + e * fmtWidth (kindFmt k) / 8) / 4
  let bad := r.bad.filter used.contains
  let fixed := r.fixed.filter used.contains
  let s1 := ((s.setCore c { x with spEcc := eccFixed x.spEcc fixed }).corrWords c 2 fixed).logWords c 2 bad
  (⟨pickVec k row cf.trans ks r.bytes, bad.isEmpty, toS 8 (r.bytes.getD (kindBytes k) 0).toNat⟩,
    if bad.isEmpty then s1 else s1.incompFor c)

/-- The vector from the front token of a port (R104, R271, R272). The scale of a malformed
token is open: a free value. -/
def State.feedPort (s : State) (c f k knext : Nat) (row : Bool) (ks : List Nat) (cf : FeederCfg) :
    FeedVec × State :=
  let x := s.core c
  match frontToken (x.port cf.port).queue (kindWords k) with
  | none => (⟨[], false, 0⟩, s)
  | some tok =>
    let poisoned := tok.words.any fun w => w.2.poison
    if tok.bad then
      let v := s.takeFree
      (⟨ks.map fun _ => List.replicate 32 0, false, toS 8 v.1.toNat⟩,
        if knext = 0 then
          v.2.log ⟨3, cf.port, unitCore c, x.isB, !x.isB, 0, x.pc.toNat⟩
        else v.2)
    else
      let t := kindWords k
      let j := (x.feeder f).tile % tok.m
      let ws := (tok.words.drop (j * t)).take t
      let sw := tok.words.getLast?
      let inv := (match sw with
        | some w => w.2.invalid
        | none => true) || (vecPos row cf.trans ks).any fun e =>
          match ws[e * fmtWidth (kindFmt k) / 8 / 256]? with
          | some w => w.2.invalid
          | none => true
      let sc := match sw with
        | some w => toS 8 (w.2.data.extractLsb' (8 * j) 8).toNat
        | none => 0
      (⟨pickVec k row cf.trans ks (ws.flatMap fun w => Payload.bytes w.2.data), !poisoned && !inv, sc⟩,
        (if poisoned then s.incompFor c else s).modCore c fun y =>
          y.setFeeder f { y.feeder f with complete := true, poison := poisoned })

/-- The vector of a feeder. -/
def State.feed (s : State) (c f k knext : Nat) (row : Bool) (ks : List Nat) : FeedVec × State :=
  match (s.core c).feederCfg f with
  | none => (⟨[], false, 0⟩, s)
  | some cf => if cf.fromPort then s.feedPort c f k knext row ks cf else s.feedSpad c f k row ks cf

/-- A feeder after a slot: after the last slot on a k-tile it goes on to the next, and frees
the token's words after its last tile (R271, R780). -/
def State.feedNext (s : State) (c f k knext : Nat) (last : Bool) : State :=
  let x := s.core c
  let fs := x.feeder f
  if !last then s.setCore c (x.setFeeder f { fs with kpos := knext + 1 })
  else
    match x.feederCfg f with
    | none => s
    | some cf =>
      if !cf.fromPort then
        s.setCore c (x.setFeeder f { fs with
          kpos := 0, addr := fs.addr + BitVec.ofNat 32 (kindBytes k + 16) })
      else
        match frontToken (x.port cf.port).queue (kindWords k) with
        | none => s
        | some tok =>
          if tok.bad ∨ tok.m ≤ fs.tile + 1 then
            let y := x.setPort cf.port { x.port cf.port with
              queue := (x.port cf.port).queue.drop tok.words.length, mid := false }
            (s.setCore c (y.setFeeder f ⟨0, 0, false, false, fs.addr⟩)).creditsBack x.slot
              (tok.words.map (·.1))
          else s.setCore c (x.setFeeder f { fs with kpos := 0, tile := fs.tile + 1 })

/-! ### Accumulator memory (R68, R98, R99) -/

/-- The arrays of a mask. -/
def masked (m : BitVec 4) : List Nat := [0, 1, 2, 3].filter fun n => m.getLsbD n

/-- The elements of a tile, row-major. -/
def ArrayRec.tile (a : ArrayRec) (t : Nat) : List W32 := Tab.lookList (fun _ => 0) a.elem (1024 * t) 1024

/-- The accumulator scale of a tile. -/
def ArrayRec.scale (a : ArrayRec) (t : Nat) : Int := (Tab.look (fun _ => (0 : BitVec 10)) a.sacc t).toInt

/-- Write a whole tile; its codewords become correct. -/
def ArrayRec.setTile (a : ArrayRec) (t : Nat) (l : List W32) : ArrayRec :=
  { a with
    elem := Tab.putList (fun _ => 0) (Tab.drop a.elem fun k => k / 1024 == t) (1024 * t) (l.take 1024)
    ecc := Tab.drop a.ecc fun k => k / 1024 == t }

/-- Set a tile's scale. -/
def ArrayRec.setScale (a : ArrayRec) (t : Nat) (v : BitVec 10) : ArrayRec :=
  { a with sacc := Tab.put (fun _ => 0) a.sacc t v }

/-- Log an uncorrectable accumulator element (R99, R100). -/
def State.logAcc (s : State) (c n : Nat) : List Nat → State
  | [] => s
  | e :: r =>
    (s.log ⟨9, 0x0301, unitArray c n, (s.core c).isB, !(s.core c).isB, 4 * e, 0⟩).logAcc c n r

/-- Count correctable accumulator elements (R714). -/
def State.corrAcc (s : State) (c n : Nat) : List Nat → State
  | [] => s
  | e :: r => (s.countCorr 3 (unitArray c n) (4 * e) (s.core c).isB).corrAcc c n r

/-- Read a tile through its SECDED codewords (R99): single-bit errors are corrected and
written back; a double-bit error makes its element 0 and sets the tile's POISON flag. -/
def State.scanTile (s : State) (c n t : Nat) : State :=
  let x := s.core c
  let a := x.arr n
  let here := a.ecc.filter fun e => e.1 / 1024 == t
  if here.isEmpty then s
  else
    let one := (here.filter fun e => e.2 == .single).map (·.1)
    let bad := (here.filter fun e => e.2.bad).map (·.1)
    let a' : ArrayRec := { a with
      elem := Tab.drop a.elem bad.contains
      ecc := Tab.drop a.ecc fun k => k / 1024 == t
      corr := inc16 a.corr one.length
      uncorr := inc16 a.uncorr bad.length
      poison := orBit a.poison t (!bad.isEmpty) }
    ((s.setCore c (x.setArr n a')).corrAcc c n one).logAcc c n bad

/-- The descriptor of a tile (R115). -/
def ArrayRec.desc (a : ArrayRec) (t : Nat) : List Byte :=
  leInt 2 (a.scale t)
    ++ [BitVec.ofNat 8 ((if a.sat.getLsbD t then 1 else 0) + (if a.poison.getLsbD t then 2 else 0)),
        0, 0, 0, 0, 0]

/-- Load a tile and its descriptor (R116, R117); `bad` marks uncorrectable data (R778). -/
def ArrayRec.load (a : ArrayRec) (t : Nat) (data desc : List Byte) (bad : Bool) : ArrayRec :=
  let b := (a.setTile t ((groupsOf 4 1024 data).map fun g => BitVec.ofNat 32 (leNat g))).setScale t
    (BitVec.ofNat 10 (fieldLe desc 0 2))
  { b with
    sat := putBit b.sat t ((desc.getD 2 0).getLsbD 0)
    poison := putBit b.poison t ((desc.getD 2 0).getLsbD 1 || bad) }

/-- The bytes of a tile at full width (R114). -/
def ArrayRec.tileBytes (a : ArrayRec) (t : Nat) : List Byte :=
  (a.tile t).flatMap fun e => leBytes 4 e.toNat

/-! ### A k-step slot (R101-R108) -/

/-- The layout of a stored array-slot word, for an AMAC. -/
def AmacJob.f (j : AmacJob) : FmtAmac := FmtAmac.dec j.word

/-- An AMAC with OW = 1 starts on a tile (R69, R98, R107). -/
def ArrayRec.start (a : ArrayRec) (j : AmacJob) (sp : Int) : ArrayRec :=
  if j.f.ow = 0 then a
  else
    let t := j.f.tile.toNat
    let b := (a.setTile t []).setScale t
      (BitVec.ofInt 10 (if j.f.asc = 1 then satw j.sreg.toInt 10 else sp))
    { b with sat := putBit b.sat t false, poison := putBit b.poison t false }

/-- The operands of a vector after the feeder has formed them, and the events they count. -/
def cellVec (k o : Nat) (v : List (List Int)) : List (List Int) × Nat :=
  (v.map fun l => l.map fun e => (cellOp k e).1,
    if countsEvent k o then sumNat (v.map fun l => l.countP fun e => (cellOp k e).2) else 0)

/-- The product of cell (i, j), or the pair sum of I4 operands, negated under NEG (R72, R73, R86). -/
def cellProd (neg : Bool) (a b : List (List Int)) (i j : Nat) : Int :=
  let p := (List.zipWith (fun u v => u.getD i 0 * v.getD j 0) a b).foldl (· + ·) 0
  if neg then -p else p

/-- One array adds a slot's products; the array and its saturation events (R72, R73, R93). An
event of a feeder counts on each array that the slot drives: R94 says so of sat24; for the sat9
of the row feeder, on which it says nothing, this is the model's choice (log entry 67). -/
def ArrayRec.addSlot (a : ArrayRec) (j : AmacJob) (row col : FeedVec) : ArrayRec × Nat :=
  let t := j.f.tile.toNat
  let ra := cellVec j.f.ka.toNat j.f.kb.toNat row.vals
  let cb := cellVec j.f.kb.toNat j.f.ka.toNat col.vals
  let r := (a.tile t).mapIdx fun e v =>
    ovfw (v.toInt + align (cellProd (j.f.neg == 1) ra.1 cb.1 (e / 32) (e % 32))
      (row.scale + col.scale) (a.scale t)) 32 (j.f.ovf == 1)
  let n := ra.2 + cb.2 + r.countP (·.2)
  ((a.setTile t (r.map fun p => BitVec.ofInt 32 p.1)).count t n 0, n)

/-- Saturation events of job slot A that its PORTEX image reports in PEXSAT (R89, R579). -/
def State.pexSat (s : State) (n : Nat) : State :=
  if 0 < n ∧ (s.imgA.map (·.portex)).getD false = true then
    { s with bwt := { s.bwt with pexsat := true } }
  else s

/-- The slot in one array: the start, then the products unless a vector is invalid (R104, R107). -/
def State.slotArray (s : State) (c n : Nat) (run : AmacRun) (row col : FeedVec) : State :=
  let s1 := if run.started then s
    else s.modCore c fun y => y.setArr n ((y.arr n).start run.job (row.scale + col.scale))
  if row.valid ∧ col.valid then
    let s2 := s1.scanTile c n run.job.f.tile.toNat
    let r := ((s2.core c).arr n).addSlot run.job row col
    let s3 := s2.modCore c fun y => y.setArr n r.1
    if run.job.f.asc = 1 ∧ ¬ (s2.core c).isB then s3.pexSat r.2 else s3
  else s1

/-- The slot in each selected array, with its own column vector (R92). -/
def State.slotArrays (s : State) (c : Nat) (run : AmacRun) (row : FeedVec) (ks : List Nat) :
    List Nat → State
  | [] => s
  | n :: r =>
    let v := s.feed c (n + 1) run.job.f.kb.toNat run.knext false ks
    (v.2.slotArray c n run row v.1).slotArrays c run row ks r

/-- Advance the feeders of the selected arrays after a slot. -/
def State.feedsNext (s : State) (c kb knext : Nat) (last : Bool) : List Nat → State
  | [] => s
  | n :: r => (s.feedNext c (n + 1) kb knext last).feedsNext c kb knext last r

/-- The AMAC in progress after a slot, or the one that waited (R102). -/
def Quad.slotDone (q : Quad) (run : AmacRun) (last : Bool) : Quad :=
  if last then { q with run := q.queued.map fun j => ⟨j, 0, false⟩, queued := none }
  else { q with run := some { run with knext := run.knext + 1, started := true } }

/-- Whether the waiting drain reads the AMAC's tile in a selected array (R110). -/
def Quad.drainBlocks (q : Quad) (run : AmacRun) : Bool :=
  !run.started && match q.drain with
    | some d => decide (d.order < run.job.order)
        && (FmtTileMove.dec d.word).tile == run.job.f.tile
        && ((FmtTileMove.dec d.word).amask &&& run.job.f.amask) != 0
    | none => false

/-- The feeders that an AMAC needs, each with its operand kind (R105). -/
def AmacJob.feeds (j : AmacJob) : List (Nat × Nat) :=
  (0, j.f.ka.toNat) :: (masked j.f.amask).map fun n => (n + 1, j.f.kb.toNat)

/-- The first feeder fault of an AMAC's slot, with its address. -/
def firstFault : List FeedReady → Option Nat
  | [] => none
  | .fault a :: _ => some a
  | _ :: r => firstFault r

/-- A PROT becomes pending beside those that wait, once (R208). -/
def PendExc.addProt (p : PendExc) (e : Nat × W64) : PendExc :=
  { p with prot := if p.prot.contains e then p.prot else p.prot ++ [e] }

/-- An XLT_FAULT becomes pending beside those that wait, once (R208). -/
def PendExc.addXlt (p : PendExc) (e : Nat × W64) : PendExc :=
  { p with xlt := if p.xlt.contains e then p.xlt else p.xlt ++ [e] }

/-- The AMAC in progress takes its next slot, if every feeder has its vector (R101, R105);
a feeder address outside the slot's ranges raises PROT with detail 0x0101 (R270, R780). -/
def State.amacSlot (s : State) (c : Nat) : State :=
  let x := s.core c
  match x.quad.run with
  | none => s
  | some run =>
    if x.quad.stopped ∨ x.switching ∨ x.quad.drainBlocks run then s
    else
      let rd := run.job.feeds.map fun p => s.feedReady c p.1 p.2
      if rd.contains .missing then s
      else match firstFault rd with
      | some a => s.setCore c { x with pend := x.pend.addProt (0x0101, BitVec.ofNat 64 a) }
      | none =>
        let f := run.job.f
        let ks := kIdx f.ka.toNat f.kb.toNat run.knext
        let last := run.knext + 1 == kSlots f.ka.toNat f.kb.toNat
        let row := s.feed c 0 f.ka.toNat run.knext true ks
        let s1 := row.2.slotArrays c run row.1 ks (masked f.amask)
        let s2 := (s1.feedNext c 0 f.ka.toNat run.knext last).feedsNext c f.kb.toNat run.knext last
          (masked f.amask)
        s2.modCore c fun y => { y with quad := y.quad.slotDone run last }

/-! ### The drain unit (R109-R117) -/

/-- Whether an AMAC issued before a drain still targets its tile in a selected array (R110). -/
def Quad.amacBlocks (q : Quad) (d : DrainJob) : Bool :=
  ((q.run.map (·.job)).toList ++ q.queued.toList).any fun j =>
    decide (j.order < d.order) && j.f.tile == (FmtTileMove.dec d.word).tile
      && (j.f.amask &&& (FmtTileMove.dec d.word).amask) != 0

/-- The words of an ADRQ's token (R266): the tiles of width `w` for `m` arrays. -/
def tokenWords (w : BitVec 2) (m : Nat) : Nat := m * (fmtBytes w.toNat / 256) + 1

/-- What SR of an ADRQ takes its words from (R779). -/
def State.drainKey (s : State) (x : CoreSt) (f : FmtAdrq) (d : DrainJob) : Option SrKey :=
  if f.rnd = 0 then none
  else some ⟨s.seedOf x.slot, d.strm ^^^ BitVec.ofNat 32 ((f.dst.toNat + 1) * 2 ^ 24),
    (s.stepOf x.slot).setWidth 32⟩

/-- The first tile sequence number of an ADRQ's token (R779). -/
def CoreSt.drainSeq (x : CoreSt) (f : FmtAdrq) (d : DrainJob) : Nat :=
  match d.px with
  | some v => v.toNat
  | none => (x.port f.dst.toNat).drainTile

/-- Drain one array's tile through quant(): its bytes and scale, and the state after its
events (R76, R111, R112). -/
def State.drainTile (s : State) (c n : Nat) (f : FmtAdrq) (d : DrainJob) (key : Option SrKey)
    (tseq : Nat) : (List Byte × Byte × Bool) × State :=
  let s1 := s.scanTile c n f.tile.toNat
  let a := (s1.core c).arr n
  let t := f.tile.toNat
  let q := quant ((a.tile t).map (·.toInt)) (a.scale t) (wBits f.w)
    (if f.pol = 0 then some (satw d.sreg.toInt 8) else none) f.h.toNat (srWord key tseq) (f.ovf == 1)
  ((packMant (wBits f.w) q.y, BitVec.ofInt 8 q.scale, a.poison.getLsbD t),
    s1.modCore c fun y => y.setArr n ((y.arr n).count t q.sats (if q.clamp then 1 else 0)))

/-- Drain the selected arrays in array order. -/
def State.drainTiles (s : State) (c : Nat) (f : FmtAdrq) (d : DrainJob) (key : Option SrKey)
    (tseq : Nat) : List Nat → List (List Byte × Byte × Bool) × State
  | [] => ([], s)
  | n :: r =>
    let v := s.drainTile c n f d key tseq
    let w := v.2.drainTiles c f d key (tseq + 1) r
    (v.1 :: w.1, w.2)

/-- Push a list of words to an outgoing port. -/
def CoreSt.pushWords (x : CoreSt) (plane p : Nat) : List SWord → CoreSt
  | [] => x
  | w :: r => (x.pushWord plane p w).pushWords plane p r

/-- The words of a TILE token (R266, R267); a poisoned tile marks every word of its token (R113). -/
def tileToken (tw : Nat) (tiles : List (List Byte × Byte × Bool)) : List SWord :=
  let pois := tiles.any fun t => t.2.2
  ((tiles.flatMap fun t => groupsOf 256 t.1.length t.1).map fun b =>
      (⟨Payload.ofBytes b, false, false, pois, false, tw⟩ : SWord))
    ++ [⟨Payload.ofBytes (tiles.map fun t => t.2.1), true, false, pois, false, tw⟩]

/-- ADRQ runs (R111-R113, R267, R268, R779). -/
def State.runAdrq (s : State) (c : Nat) (f : FmtAdrq) (d : DrainJob) : State :=
  let x := s.core c
  let m := (masked f.amask).length
  if x.free f.dst.toNat < tokenWords f.w m then s
  else
    let v := s.drainTiles c f d (s.drainKey x f d) (x.drainSeq f d) (masked f.amask)
    v.2.modCore c fun y =>
      let z := y.pushWords d.plane f.dst.toNat (tileToken (fmtBytes f.w.toNat / 256) v.1)
      let p := z.port f.dst.toNat
      { z.setPort f.dst.toNat (if d.px.isSome then p else { p with drainTile := p.drainTile + m })
        with quad := { z.quad with drain := none } }

/-- ADRW writes the tile and descriptor of each selected array (R114). -/
def State.runAdrw (s : State) (c base t : Nat) : List Nat → State
  | [] => s
  | n :: r =>
    let s1 := s.scanTile c n t
    let a := (s1.core c).arr n
    (((s1.ocWrite c (base + n * 0x1000) (a.tileBytes t)).ocWrite c (base + 0x4000 + n * 8)
      (a.desc t))).runAdrw c base t r

/-- ALDT loads the tile and descriptor of each selected array (R117, R778). -/
def State.runAldt (s : State) (c base t : Nat) : List Nat → State
  | [] => s
  | n :: r =>
    let u := s.spadRead c (base + n * 0x2000) 4096
    let v := u.2.spadRead c (base + n * 0x2000 + 0x1000) 8
    (v.2.modCore c fun y => y.setArr n ((y.arr n).load t u.1.bytes v.1.bytes
      (!u.1.bad.isEmpty || !v.1.bad.isEmpty))).runAldt c base t r

/-- ASTT stores the tile and descriptor of each selected array (R117). -/
def State.runAstt (s : State) (c base t : Nat) : List Nat → State
  | [] => s
  | n :: r =>
    let s1 := s.scanTile c n t
    let a := (s1.core c).arr n
    ((s1.spadWrite c (base + n * 0x2000) (a.tileBytes t)).spadWrite c (base + n * 0x2000 + 0x1000)
      (a.desc t)).runAstt c base t r

/-- The drain unit is free again. -/
def CoreSt.drainDone (x : CoreSt) : CoreSt := { x with quad := { x.quad with drain := none } }

/-- A drain runs to its last cy. -/
def State.runDrain (s : State) (c : Nat) (d : DrainJob) : State :=
  let f := FmtTileMove.dec d.word
  match decodeArr d.word with
  | .adrq g => s.runAdrq c g d
  | .adrw _ => (s.runAdrw c d.sreg.toNat f.tile.toNat (masked f.amask)).modCore c CoreSt.drainDone
  | .aldt _ => (s.runAldt c d.sreg.toNat f.tile.toNat (masked f.amask)).modCore c CoreSt.drainDone
  | .astt _ => (s.runAstt c d.sreg.toNat f.tile.toNat (masked f.amask)).modCore c CoreSt.drainDone
  | .anop _ | .amac _ | .undef _ => s.modCore c CoreSt.drainDone

/-- The waiting drain starts, once the tile is readable (R109, R110); one that waits in a
stopped quad does not start (R127). -/
def State.drainStart (s : State) (c : Nat) : State :=
  let x := s.core c
  match x.quad.drain with
  | none => s
  | some d => if x.quad.stopped ∨ x.switching ∨ x.quad.amacBlocks d then s else s.runDrain c d

/-! ### The array slot of a bundle -/

/-- Whether the array slot holds: the queue that it needs is taken (R102, R109). -/
def CoreSt.arrHold (x : CoreSt) : ArrOp → Bool
  | .amac _ => x.quad.run.isSome && x.quad.queued.isSome
  | .adrq _ | .adrw _ | .aldt _ | .astt _ => x.quad.drain.isSome
  | .anop _ | .undef _ => false

/-- Whether the ADRQ's DST names an outgoing port bound to the drain unit (R247). -/
def CoreSt.drainPort (x : CoreSt) (p : BitVec 5) : Bool :=
  match x.bind p.toNat with
  | some b => b.user == 3 && b.out
  | none => false

/-- Operands that the core's state makes illegal (R114, R246, R247, R268). -/
def CoreSt.arrBad (x : CoreSt) (op : ArrOp) : Bool :=
  op.bad || (match op with
    | .amac f => (0 :: (masked f.amask).map (· + 1)).any fun k => (x.feederCfg k).isNone
    | .adrq f => !x.drainPort f.dst
        || decide (x.depth f.dst.toNat < tokenWords f.w (masked f.amask).length)
    | .adrw f => decide (0x3B000 < (x.sreg f.sreg).toNat)
    | _ => false)

/-- Whether the base address is not a multiple of 0x1000 (R114, R117). -/
def CoreSt.arrMisaligned (x : CoreSt) : ArrOp → Bool
  | .adrw f | .aldt f | .astt f => (x.sreg f.sreg).toNat % 0x1000 != 0
  | _ => false

/-- The ILLEGAL detail that the array slot raises. -/
def CoreSt.arrIll (x : CoreSt) (op : ArrOp) : Option Nat :=
  firstFail [(op.undefd, dUndefOp), (op.rsv, dRsvField), (x.arrMisaligned op, dMisalign),
    (x.arrBad op, dBadOperand)]

/-- The bytes that ALDT or ASTT touches (R117). -/
def moveLen (m : BitVec 4) : Nat := ((masked m).getLastD 0) * 0x2000 + 0x1008

/-- The first byte of a range that lies outside a job slot's ranges. -/
def State.spadFault (s : State) (j : JobSlot) (c : Nat) (a : Int) (n : Nat) : Option Int :=
  if s.spadOk j c a n then none
  else if ((s.spadRange j c).1 : Int) ≤ a ∧ a < ((s.spadRange j c).2 : Int) then
    some ((s.spadRange j c).2 : Int)
  else some a

/-- The scratchpad address at which ALDT or ASTT raises PROT (R117). -/
def State.arrProt (s : State) (c : Nat) (x : CoreSt) : ArrOp → Option Int
  | .aldt f | .astt f => s.spadFault x.slot c (x.sreg f.sreg).toNat (moveLen f.amask)
  | _ => none

/-- An AMAC enters the MAC path (R97, R102). -/
def Quad.amac (q : Quad) (j : AmacJob) : Quad :=
  match q.run with
  | none => { q with run := some ⟨j, 0, false⟩, order := q.order + 1 }
  | some _ => { q with queued := some j, order := q.order + 1 }

/-- The PXREG value that a drain latches while PXV = 1 (R779). -/
def CoreSt.pxLatch (x : CoreSt) : Option W32 := if x.pxv then some (x.sreg x.pxreg) else none

/-- The drain that an operation makes. -/
def CoreSt.drainJob (x : CoreSt) (op : ArrOp) (sreg : BitVec 5) : DrainJob :=
  ⟨encodeArr op, x.sreg sreg, x.quad.order, x.splane, x.vstream, x.pxLatch⟩

/-- A drain enters the drain unit's queue (R109). -/
def Quad.drainIn (q : Quad) (d : DrainJob) : Quad := { q with drain := some d, order := q.order + 1 }

/-- The effect of the array slot, its sources read from `x` (R97). -/
def State.arrEff (s : State) (c : Nat) (x : CoreSt) (op : ArrOp) : State :=
  match op with
  | .amac f => s.modCore c fun y =>
      { y with quad := y.quad.amac ⟨encodeArr op, x.sreg f.sreg, y.quad.order⟩ }
  | .adrq f => s.modCore c fun y => { y with quad := y.quad.drainIn (x.drainJob op f.sreg) }
  | .adrw f | .aldt f | .astt f =>
    s.modCore c fun y => { y with quad := y.quad.drainIn (x.drainJob op f.sreg) }
  | .anop _ | .undef _ => s

end Sys2Proof.Machine
end

