-- ==== Sys2Proof/Machine/Lanes.lean ====
section
/-! DEFINITION. The vector slot of a bundle: the lane instructions, the accesses to the
operand cache, VXFR, VTILE and the reduction unit (R137-R168, R249-R258). -/

namespace Sys2Proof.Machine

open Sys2Proof

/-! ### Lane instructions (R139-R141, R148, R151, R152) -/

/-- A signed 7-bit field from a scalar register (R140). -/
def CoreSt.low7 (x : CoreSt) (n : BitVec 5) : Int := ((x.sreg n).extractLsb' 0 7).toInt

/-- The N value of a lane instruction. -/
def CoreSt.laneN (x : CoreSt) (f : FmtL) : Int :=
  if f.ns = 1 then x.low7 (f.n.extractLsb' 0 5) else f.n.toInt

/-- The QI value of VRCP and VRSQ. -/
def CoreSt.laneQi (x : CoreSt) (f : FmtL) : Int :=
  if f.ns = 1 then x.low7 f.b else (f.b.toNat : Int)

/-- The width that VNARROW names (R251). -/
def narrowWidth (n : Int) : Nat :=
  if n = 0 then 4 else if n = 1 then 8 else if n = 2 then 9 else if n = 3 then 16 else 24

/-- A lane result that counts no event. -/
def plain (v : Int) : Int × Bool × Bool := (v, false, false)

/-- The result of a lane instruction in one lane: the value, whether a saturation event
counts, whether a domain event counts; `a` and `b` are the sources, `c` the old destination,
`r` the random word under SR (R148). Compares and VSEL are apart. -/
def laneVal (o : LaneOp) (wrap : Bool) (n qi : Int) (a b c : W32) (r : Option W32) :
    Int × Bool × Bool :=
  let A := a.toInt
  let B := b.toInt
  match o with
  | .vadd => noDom (ovfw (A + B) 32 wrap)
  | .vsub => noDom (ovfw (A - B) 32 wrap)
  | .vmin => plain (min A B)
  | .vmax => plain (max A B)
  | .vabs => noDom (ovfw (if A < 0 then -A else A) 32 wrap)
  | .vneg => noDom (ovfw (-A) 32 wrap)
  | .vand => plain (a &&& b).toInt
  | .vor => plain (a ||| b).toInt
  | .vxor => plain (a ^^^ b).toInt
  | .vshl => noDom (ovfw (shl A n.toNat) 32 wrap)
  | .vshr => plain (asr A n.toNat)
  | .vrshr => noDom (ovfw (shiftRound A n r) 32 wrap)
  | .vnarrow => noDom (ovfw A (narrowWidth n) wrap)
  | .vmov | .vbcast => plain A
  | .vmul => noDom (ovfw (A * B) 32 wrap)
  | .vmulr => noDom (ovfw (shiftRound (A * B) n r) 32 wrap)
  | .vmac => noDom (ovfw (c.toInt + shiftRound (A * B) n r) 32 wrap)
  | .vexp2 => vexp2 A n wrap r
  | .vexp => vexp A n wrap r
  | .vlog2 => vlog2 A n wrap
  | .vrcp => vrcp A qi n wrap r
  | .vrsq => vrsq A qi n wrap r
  | .vcmpEq | .vcmpNe | .vcmpLt | .vcmpLe | .vsel => plain A

/-- The condition of a compare. -/
def cmpVal (o : LaneOp) (a b : W32) : Bool :=
  match o with
  | .vcmpEq => a == b
  | .vcmpNe => a != b
  | .vcmpLt => a.slt b
  | _ => a.sle b

/-- The lanes that a lane instruction treats as active: VSEL writes every lane (R141). -/
def laneAct (o : LaneOp) (m : W64) : W64 := if o = .vsel then BitVec.allOnes 64 else m

/-- What SR of the vector engine takes its words from (R151). -/
def State.vecKey (s : State) (x : CoreSt) (rnd : BitVec 1) : Option SrKey :=
  if rnd = 0 then none else some ⟨s.seedOf x.slot, x.vstream, (s.stepOf x.slot).setWidth 32⟩

/-- The sequence number in force: that of PXREG while PXV = 1, else VSEQ (R151, R152). -/
def CoreSt.seqNo (x : CoreSt) : Nat := if x.pxv then (x.sreg x.pxreg).toNat else x.vseq.toNat

/-- VSEQ after `n` roundings under SR; PXV holds it (R151, R152, R156). -/
def CoreSt.seqNext (y x : CoreSt) (rnd : BitVec 1) (n : Nat) : CoreSt :=
  if rnd = 0 ∨ x.pxv then y else { y with vseq := y.vseq + BitVec.ofNat 22 n }

/-- The results of a lane instruction, lane by lane; an inactive lane has none. -/
def State.laneResults (s : State) (x : CoreSt) (o : LaneOp) (f : FmtL) : List (Option (Int × Bool × Bool)) :=
  let m := x.mreg f.mask
  let act := laneAct o m
  let key := s.vecKey x f.rnd
  (List.range 64).map fun l =>
    if act.getLsbD l then
      let a := if o = .vbcast then x.sreg f.a else lane (x.vreg f.a) l
      let b := lane (x.vreg f.b) l
      some (if o = .vsel then plain (if m.getLsbD l then a.toInt else b.toInt)
        else laneVal o (f.ovf == 1) (x.laneN f) (x.laneQi f) a b (lane (x.vreg f.d) l)
          (srWord key x.seqNo l))
    else none

/-- The effect of a lane instruction, its sources read from `x`. -/
def State.laneEff (s : State) (c : Nat) (x : CoreSt) (o : LaneOp) (f : FmtL) : State :=
  if o.cmp then
    s.modCore c fun y => y.setM (f.d.extractLsb' 0 3)
      (BitVec.ofNat 64 (sumNat ((List.range 64).map fun l =>
        if (x.mreg f.mask).getLsbD l && cmpVal o (lane (x.vreg f.a) l) (lane (x.vreg f.b) l)
        then 2 ^ l else 0)))
  else
    let rs := s.laneResults x o f
    let d := ofLanes (rs.mapIdx fun l r => match r with
      | some v => BitVec.ofInt 32 v.1
      | none => lane (x.vreg f.d) l)
    s.modCore c fun y =>
      let z := (((y.setV f.d d).vsat (rs.countP fun r => (r.map (·.2.1)).getD false)).vdom
        (rs.countP fun r => (r.map (·.2.2)).getD false)).seqNext x f.rnd 1
      if f.rop = 0 then z
      else { z with folds := z.folds ++ [⟨f.racc.toNat, false, f.rop, d, laneAct o (x.mreg f.mask)⟩] }

/-! ### Operand-cache accesses (R142, R146, R149, R252, R253) -/

/-- Bytes of an element of a SIZE code; an I4 element lies in one byte. -/
def sizeBytes (z : BitVec 2) : Nat := if z = 0 then 1 else 2 ^ (z.toNat - 1)

/-- The base address of an access; the scalar register is read as a signed value (R149, R252, log
entry 21). -/
def CoreSt.memBase (x : CoreSt) (f : FmtVM) : Int := (x.sreg f.sa).toInt + f.imm.toInt

/-- The element index of lane `l`: l, or the lane of the index vector. -/
def CoreSt.memIdx (x : CoreSt) (o : MemOp) (f : FmtVM) (l : Nat) : Int :=
  match o with
  | .vld | .vst => (l : Int)
  | .vldx | .vstx => (lane (x.vreg f.vb) l).toInt

/-- The byte address of lane `l`'s element, and the nibble of an I4 element (R149, R253). -/
def CoreSt.memAddr (x : CoreSt) (o : MemOp) (f : FmtVM) (l : Nat) : Int × Bool :=
  if f.size = 0 then (x.memBase f + asr (x.memIdx o f l) 1, x.memIdx o f l % 2 == 1)
  else (x.memBase f + x.memIdx o f l * sizeBytes f.size, false)

/-- The lowest active lane whose element lies outside the cache, and its address (R142, R212). -/
def CoreSt.memFault (x : CoreSt) (o : MemOp) (f : FmtVM) : Option (Nat × Int) :=
  ((List.range 64).find? fun l =>
    (x.mreg f.mask).getLsbD l && !ocOk (x.memAddr o f l).1 (sizeBytes f.size)).map
      fun l => (l, (x.memAddr o f l).1)

/-- The value of a loaded element, sign-extended (R148). -/
def loadElem (z : BitVec 2) (hi : Bool) (b : List Byte) : W32 :=
  if z = 0 then BitVec.ofInt 32 (toS 4 ((leNat b) / (if hi then 16 else 1)))
  else BitVec.ofInt 32 (toS (8 * sizeBytes z) (leNat b))

/-- The words of the cache that the active lanes touch. -/
def CoreSt.memWords (x : CoreSt) (o : MemOp) (f : FmtVM) : List Nat :=
  (((List.range 64).filter fun l => (x.mreg f.mask).getLsbD l).map fun l =>
    (x.memAddr o f l).1.toNat / 4).eraseDups

/-- A load or gather (R147, R148). -/
def State.loadEff (s : State) (c : Nat) (x : CoreSt) (o : MemOp) (f : FmtVM) : State :=
  let ws := x.memWords o f
  let bad := ws.filter fun w => (Tab.look (fun _ => Ecc.good) x.ocEcc w).bad
  let fixed := ws.filter fun w => Tab.look (fun _ => Ecc.good) x.ocEcc w == .single
  let d := ofLanes ((List.range 64).map fun l =>
    if (x.mreg f.mask).getLsbD l then
      let a := x.memAddr o f l
      if bad.contains (a.1.toNat / 4) then 0
      else loadElem f.size a.2 (Tab.lookList (fun _ => 0) x.ocache a.1.toNat (sizeBytes f.size))
    else lane (x.vreg f.v) l)
  ((s.modCore c fun y => { ((y.setV f.v d).ocCount fixed.length bad.length) with
      ocEcc := eccFixed y.ocEcc fixed }).corrWords c 4 fixed).logWords c 4 bad

/-- The narrowed element that a store writes, with its saturation event. -/
def storeElem (z : BitVec 2) (wrap : Bool) (v : W32) : Int × Bool :=
  ovfw v.toInt (if z = 0 then 4 else 8 * sizeBytes z) wrap

/-- The bytes that one lane stores: address, byte, mask of the bits written. -/
def storeBytes (z : BitVec 2) (a : Nat) (hi : Bool) (v : Int) : List (Nat × Byte × Byte) :=
  if z = 0 then
    [if hi then (a, BitVec.ofNat 8 ((v % 16).toNat * 16), 0xF0) else (a, BitVec.ofNat 8 (v % 16).toNat, 0x0F)]
  else (leInt (sizeBytes z) v).mapIdx fun i b => (a + i, b, 0xFF)

/-- Write masked bytes one after another, so that a later one stands (R146). -/
def putMasked (m : Tab Byte) : List (Nat × Byte × Byte) → Tab Byte
  | [] => m
  | (a, b, k) :: r =>
    putMasked (Tab.put (fun _ => 0) m a ((Tab.look (fun _ => 0) m a &&& ~~~k) ||| (b &&& k))) r

/-- Whether masked bytes together cover a 32-bit word. -/
def coversMasked (l : List (Nat × Byte × Byte)) (w : Nat) : Bool :=
  [0, 1, 2, 3].all fun i =>
    (l.foldl (fun acc e => if e.1 = 4 * w + i then acc ||| e.2.2 else acc) (0 : Byte)) == 0xFF

/-- A store or scatter (R146, R148, R777). -/
def State.storeEff (s : State) (c : Nat) (x : CoreSt) (o : MemOp) (f : FmtVM) : State :=
  let act := (List.range 64).filter fun l => (x.mreg f.mask).getLsbD l
  let el := act.map fun l => (x.memAddr o f l, storeElem f.size (f.ovf == 1) (lane (x.vreg f.v) l))
  let bs := el.flatMap fun e => storeBytes f.size e.1.1.toNat e.1.2 e.2.1
  let ws := x.memWords o f
  let part := ws.filter fun w => !coversMasked bs w
  let bad := part.filter fun w => (Tab.look (fun _ => Ecc.good) x.ocEcc w).bad
  let fixed := part.filter fun w => Tab.look (fun _ => Ecc.good) x.ocEcc w == .single
  ((s.modCore c fun y =>
    { ((y.ocCount fixed.length bad.length).vsat (el.countP fun e => e.2.2)) with
      ocache := putMasked y.ocache bs
      ocEcc := eccPoison (eccFixed y.ocEcc ws) bad }).corrWords c 4 fixed).logWords c 4 bad

/-! ### VXFR (R254, R255, R778) -/

/-- Bytes that VXFR moves. -/
def xfrLen (f : FmtXfr) : Nat := 0x1000 * (f.km1.toNat + 1)

/-- VXFR moves blocks between cache and scratchpad. -/
def State.xfrEff (s : State) (c : Nat) (x : CoreSt) (f : FmtXfr) : State :=
  let sc := (x.sreg f.sc).toNat
  let sp := (x.sreg f.sp).toNat
  if f.dir = 0 then
    let r := s.spadRead c sp (xfrLen f)
    let s1 := r.2.ocWrite c sc r.1.bytes
    s1.modCore c fun y => { y with
      ocEcc := eccPoison y.ocEcc (r.1.bad.map fun w => (sc + (4 * w - sp)) / 4) }
  else
    let r := s.ocRead c sc (xfrLen f)
    r.2.spadWrite c sp r.1.bytes

/-! ### VTILE (R153-R156) -/

/-- The shifts of the classes that a mode reads (R83, R153); CPX3 is apart. -/
def tileShifts (mode : Nat) : List Nat :=
  match mode with
  | 0 => [0] | 1 => [0, 8, 16] | 2 => [0, 8, 16, 24, 32] | 3 => [16, 24, 32] | _ => [0, 0, 0]

/-- A class that VTILE has read: elements, scale, flags, and whether a word was uncorrectable. -/
structure TileClass where
  vals : List Int
  scale : Int
  sat : Bool
  poison : Bool
  deriving DecidableEq, Repr

/-- Read class `k` of array `n`. -/
def State.readClass (s : State) (c base stride n k : Nat) : TileClass × State :=
  let u := s.ocRead c (base + k * stride + n * 0x1000) 4096
  let v := u.2.ocRead c (base + k * stride + 0x4000 + n * 8) 8
  (⟨(groupsOf 4 1024 u.1.bytes).map fun g => toS 32 (leNat g), toS 16 (fieldLe v.1.bytes 0 2),
    (v.1.bytes.getD 2 0).getLsbD 0,
    (v.1.bytes.getD 2 0).getLsbD 1 || !u.1.bad.isEmpty || !v.1.bad.isEmpty⟩, v.2)

/-- Read the classes that a mode reads. -/
def State.readClasses (s : State) (c base stride n : Nat) : List Nat → List TileClass × State
  | [] => ([], s)
  | k :: r =>
    let u := s.readClass c base stride n k
    let v := u.2.readClasses c base stride n r
    (u.1 :: v.1, v.2)

/-- Element `e` of each class. -/
def elemsAt (cls : List TileClass) (e : Nat) : List Int := cls.map fun k => k.vals.getD e 0

/-- The combine of R83 before its sat64. -/
def combineSum (sh : List Nat) (v : List Int) : Int :=
  (List.zipWith (fun n x => shl x n) sh v).foldl (· + ·) 0

/-- The values to quantise, the saturation events of the combine, and whether its sat64
changed a value (R83, R87, R154, R155). -/
def combineTile (mode : Nat) (wrap : Bool) (cls : List TileClass) : List Int × Nat × Bool :=
  let vs := (List.range 1024).map (elemsAt cls)
  if mode = 4 then
    let re := vs.map fun v => ovfw (v.getD 0 0 - v.getD 2 0) 32 wrap
    let im := vs.map fun v => ovfw (v.getD 0 0 + v.getD 1 0) 32 wrap
    ((re ++ im).map (·.1), (re ++ im).countP (·.2), false)
  else if mode = 0 then (vs.map fun v => v.getD 0 0, 0, false)
  else
    let t := vs.map fun v => combineSum (tileShifts mode) v
    (t.map fun y => satw y 64, t.countP (fun y => satw y 64 != y), t.any fun y => satw y 64 != y)

/-- Where VTILE puts the output of array `n`: first tile, second tile, scale byte, descriptor (R154). -/
def tilePlace (mode dst n : Nat) : Nat × Nat × Nat × Nat :=
  if mode = 4 then (dst + n * 0x2000, dst + n * 0x2000 + 0x1000, dst + 0x8000 + n, dst + 0x8004 + n)
  else (dst + n * 0x1000, 0, dst + 0x4000 + n, dst + 0x4004 + n)

/-- VTILE on one array; `tseq` is the sequence number of its output tile. -/
def State.tileArray (s : State) (c : Nat) (x : CoreSt) (f : FmtVtile) (n tseq : Nat) : State :=
  let mode := f.mode.toNat
  let u := s.readClasses c (x.sreg f.sbase).toNat (0x1000 * f.stride.toNat) n
    (List.range (tileShifts mode).length)
  let cls := u.1
  let st := (cls.head?.map (·.scale)).getD 0
  let cb := combineTile mode (f.ovf == 1) cls
  let q := quant cb.1 st (wBits f.w)
    (if f.pol = 0 then some (satw (x.sreg f.h).toInt 8) else none) f.h.toNat
    (fun e => srWord (u.2.vecKey x f.rnd) (tseq + e / 1024) (e % 1024)) (f.ovf == 1)
  let sat := cls.any (·.sat) || cb.2.2 || decide (0 < q.sats) || q.clamp
  let p := tilePlace mode (x.sreg f.sdst).toNat n
  let s1 := u.2.ocWrite c p.1 (packMant (wBits f.w) (q.y.take 1024))
  let s2 := if mode = 4 then s1.ocWrite c p.2.1 (packMant (wBits f.w) (q.y.drop 1024)) else s1
  let s3 := (s2.ocWrite c p.2.2.1 (leInt 1 q.scale)).ocWrite c p.2.2.2
    [BitVec.ofNat 8 ((if sat then 1 else 0) + (if cls.any (·.poison) then 2 else 0))]
  s3.modCore c fun y => (y.vsat (cb.2.1 + q.sats)).vdom
    ((if cls.any (fun k => k.scale != st) then 1 else 0) + (if q.clamp then 1 else 0))

/-- Output tiles per array. -/
def tilesPer (f : FmtVtile) : Nat := if f.mode = 4 then 2 else 1

/-- VTILE on the selected arrays, in array order (R152, R156): an array is read after the output of
the one before it is written, which is the model's choice where the two overlap (log entry 70). -/
def State.tileArrays (s : State) (c : Nat) (x : CoreSt) (f : FmtVtile) (tseq : Nat) : List Nat → State
  | [] => s
  | n :: r => (s.tileArray c x f n tseq).tileArrays c x f (tseq + tilesPer f) r

/-- VTILE. -/
def State.tileEff (s : State) (c : Nat) (x : CoreSt) (f : FmtVtile) : State :=
  (s.tileArrays c x f x.seqNo (masked f.amask)).modCore c fun y =>
    y.seqNext x f.rnd (tilesPer f * (masked f.amask).length)

/-- The first byte that VTILE reads or writes outside the cache (R154). -/
def CoreSt.tileFault (x : CoreSt) (f : FmtVtile) : Option Int :=
  let base : Int := (x.sreg f.sbase).toNat
  let dst := (x.sreg f.sdst).toNat
  let mode := f.mode.toNat
  let rd := (masked f.amask).flatMap fun n => (List.range (tileShifts mode).length).flatMap fun k =>
    [(base + k * (0x1000 * f.stride.toNat) + n * 0x1000, 0x1000),
     (base + k * (0x1000 * f.stride.toNat) + 0x4000 + n * 8, 8)]
  let wr := (masked f.amask).flatMap fun n =>
    let p := tilePlace mode dst n
    ((p.1 : Int), 128 * wBits f.w) ::
      ((if mode = 4 then [((p.2.1 : Int), 128 * wBits f.w)] else [])
        ++ [((p.2.2.1 : Int), 1), ((p.2.2.2 : Int), 1)])
  ((rd ++ wr).find? fun r => !ocOk r.1 r.2).map fun r => max r.1 (min (r.1 + r.2 - 1) (ocSize : Int))

/-! ### Reduction unit (R165-R168, R258) -/

/-- The starting state of a kind (R165); the index of a kind other than AMAX, and the value of NONE,
for which the table gives nothing, start at 0 (log entry 69). -/
def RAcc.start (k : BitVec 3) : RAcc :=
  match k.toNat with
  | 3 => ⟨k, BitVec.ofInt 64 (-(2 ^ 31)), 0, 0⟩
  | 4 => ⟨k, 0x7FFFFFFF, 0, 0⟩
  | 5 => ⟨k, BitVec.ofInt 64 (-(2 ^ 31)), 0xFFFFFFFF, 0⟩
  | _ => ⟨k, 0, 0, 0⟩

/-- The active lanes of a fold with their lane numbers. -/
def FoldItem.vals (i : FoldItem) : List (Nat × Int) :=
  ((List.range 64).filter fun l => i.act.getLsbD l).map fun l => (l, (lane i.lanes l).toInt)

/-- The greatest value of a list of lanes and the lowest lane that holds it. -/
def greatest : List (Nat × Int) → Option (Nat × Int)
  | [] => none
  | p :: r =>
    match greatest r with
    | none => some p
    | some q => if q.2 ≤ p.2 then some p else some q

/-- An accumulator after a fold, and whether a saturation event counts (R165-R167). -/
def RAcc.fold (a : RAcc) (i : FoldItem) : RAcc × Bool :=
  let v := a.val.toInt
  let b : RAcc := { a with ecnt := a.ecnt + 64 }
  match a.kind.toNat with
  | 1 =>
    let y := v + (i.vals.map (·.2)).foldl (· + ·) 0
    ({ b with val := BitVec.ofInt 64 (satw y 48) }, satw y 48 != y)
  | 2 =>
    let y := v + (i.vals.map fun p => p.2 * p.2).foldl (· + ·) 0
    ({ b with val := BitVec.ofInt 64 (satw y 64) }, satw y 64 != y)
  | 3 => ({ b with val := BitVec.ofInt 64 ((i.vals.map (·.2)).foldl max v) }, false)
  | 4 => ({ b with val := BitVec.ofInt 64 ((i.vals.map (·.2)).foldl min v) }, false)
  | 5 =>
    match greatest i.vals with
    | some (l, m) =>
      if v < m then ({ b with val := BitVec.ofInt 64 m, idx := a.ecnt + BitVec.ofNat 32 l }, false)
      else (b, false)
    | none => (b, false)
  | _ => (a, false)

/-- The oldest fold or RCLR acts on its accumulator (R168). -/
def CoreSt.foldFront (x : CoreSt) : CoreSt :=
  match x.folds with
  | [] => x
  | i :: r =>
    let y := { x with folds := r }
    if i.clr then y.setRacc i.racc (RAcc.start i.op)
    else
      let t := (y.racc i.racc).fold i
      (y.setRacc i.racc t.1).vsat (if t.2 then 1 else 0)

/-- The kind that an accumulator has for an instruction that issues now: that of the last
RCLR issued on it (R168). -/
def CoreSt.raccKind (x : CoreSt) (n : Nat) : BitVec 3 :=
  match (x.folds.filter fun i => i.clr && i.racc == n).getLast? with
  | some i => i.op
  | none => (x.racc n).kind

/-- The part of an accumulator that RGET moves (R258). -/
def RAcc.part (a : RAcc) (p : Nat) : W32 :=
  match p with
  | 0 => a.val.setWidth 32
  | 1 => (a.val >>> 32).setWidth 32
  | _ => a.idx

/-- The shift that RGETN uses (R168). -/
def RAcc.normShift (a : RAcc) : Nat := need a.val.toInt - 32

/-! ### The vector slot of a bundle -/

/-- The cache blocks that an ADRW waiting in the drain unit touches (R144). -/
def CoreSt.adrwBlocks (x : CoreSt) : List Nat :=
  match x.quad.drain with
  | some d =>
    match decodeArr d.word with
    | .adrw f => ((masked f.amask).map fun n => d.sreg.toNat / 0x1000 + n) ++ [d.sreg.toNat / 0x1000 + 4]
    | _ => []
  | none => []

/-- The cache blocks that a vector operation touches. -/
def CoreSt.vecBlocks (x : CoreSt) : VecOp → List Nat
  | .mem o f => (x.memWords o f).map fun w => w / 0x400
  | .vxfr f => (List.range (f.km1.toNat + 1)).map fun i => (x.sreg f.sc).toNat / 0x1000 + i
  | .vtile f =>
    (masked f.amask).flatMap fun n =>
      ((List.range (tileShifts f.mode.toNat).length).flatMap fun k =>
        let a := (x.sreg f.sbase).toNat + k * (0x1000 * f.stride.toNat)
        [(a + n * 0x1000) / 0x1000, (a + n * 0x1000 + 0xFFF) / 0x1000, (a + 0x4000 + n * 8) / 0x1000,
         (a + 0x4000 + n * 8 + 7) / 0x1000])
      ++ (let p := tilePlace f.mode.toNat (x.sreg f.sdst).toNat n
          [p.1 / 0x1000, p.2.2.1 / 0x1000] ++ (if f.mode = 4 then [p.2.1 / 0x1000] else []))
  | _ => []

/-- Whether the vector slot holds (R144, R168). -/
def CoreSt.vecHold (x : CoreSt) (op : VecOp) : Bool :=
  (match op with
    | .rget _ | .rgetn _ => !x.folds.isEmpty
    | _ => false)
  || (x.vecBlocks op).any x.adrwBlocks.contains

/-- An N or QI value from a scalar register outside its range (R140, R250). -/
def CoreSt.laneRange (x : CoreSt) (o : LaneOp) (f : FmtL) : Bool :=
  f.ns == 1 &&
    ((match o.use.n with
      | some (lo, hi) => decide (x.laneN f < lo) || decide (x.laneN f > hi)
      | none => false)
    || (o.use.qi && (decide (x.laneQi f < 0) || decide (x.laneQi f > 31))))

/-- Operands that the core's state makes illegal (R140, R165, R251, R258). -/
def CoreSt.vecBad (x : CoreSt) (op : VecOp) : Bool :=
  op.bad || (match op with
    | .lane o f => x.laneRange o f || (f.rop != 0 && x.raccKind f.racc.toNat != f.rop)
    | .rget f => x.raccKind f.racc.toNat == 0
        || (f.kind.extractLsb' 1 2 == 2 && x.raccKind f.racc.toNat != 5)
    | .rgetn f => x.raccKind f.racc.toNat == 0
    | _ => false)

/-- A misaligned address (R149, R154, R253, R255). -/
def CoreSt.vecMisaligned (x : CoreSt) : VecOp → Bool
  | .mem _ f => x.memBase f % sizeBytes f.size != 0
  | .vxfr f => (x.sreg f.sc).toNat % 0x1000 != 0 || (x.sreg f.sp).toNat % 0x1000 != 0
  | .vtile f => (x.sreg f.sdst).toNat % 0x1000 != 0
  | _ => false

/-- The ILLEGAL detail that the vector slot raises. -/
def CoreSt.vecIll (x : CoreSt) (op : VecOp) : Option Nat :=
  firstFail [(op.undefd, dUndefOp), (op.rsv, dRsvField), (x.vecMisaligned op, dMisalign),
    (x.vecBad op, dBadOperand)]

/-- A synchronous PROT: its detail, SEQ_EXCINFO, and the whole address (R212). -/
structure ProtInfo where
  detail : Nat
  info : Nat
  addr : Int
  deriving DecidableEq, Repr

/-- The PROT of an operand-cache address; VXFR and VTILE, which have no lanes, name lane 0 (log
entry 71). -/
def cacheProt (lane : Nat) (a : Int) : ProtInfo :=
  ⟨0x0100, lane * 2 ^ 26 + (a % 2 ^ 18).toNat, a⟩

/-- The PROT of a scratchpad address. -/
def spadProt (a : Int) : ProtInfo := ⟨0x0101, (a % 2 ^ 32).toNat, a⟩

/-- The synchronous PROT that the vector slot raises (R142, R154, R255, R434). -/
def State.vecProt (s : State) (c : Nat) (x : CoreSt) : VecOp → Option ProtInfo
  | .mem o f => (x.memFault o f).map fun p => cacheProt p.1 p.2
  | .vxfr f =>
    if ocOk (x.sreg f.sc).toNat (xfrLen f) then
      (s.spadFault x.slot c (x.sreg f.sp).toNat (xfrLen f)).map spadProt
    else some (cacheProt 0 (max ((x.sreg f.sc).toNat : Int) (ocSize : Int)))
  | .vtile f => (x.tileFault f).map (cacheProt 0)
  | _ => none

/-- The effect of the vector slot, its sources read from `x`. -/
def State.vecEff (s : State) (c : Nat) (x : CoreSt) : VecOp → State
  | .lane o f => s.laneEff c x o f
  | .mem .vld f => s.loadEff c x .vld f
  | .mem .vldx f => s.loadEff c x .vldx f
  | .mem .vst f => s.storeEff c x .vst f
  | .mem .vstx f => s.storeEff c x .vstx f
  | .vxfr f => s.xfrEff c x f
  | .vtile f => s.tileEff c x f
  | .rclr f => s.modCore c fun y =>
      if y.folds.isEmpty then y.setRacc f.racc.toNat (RAcc.start f.kind)
      else { y with folds := y.folds ++ [⟨f.racc.toNat, true, f.kind, 0, 0⟩] }
  | .rget f => s.modCore c fun y =>
      y.setS f.sd ((x.racc f.racc.toNat).part (f.kind.extractLsb' 1 2).toNat)
  | .rgetn f => s.modCore c fun y =>
      let a := x.racc f.racc.toNat
      (y.setS f.sd (BitVec.ofInt 32 (rneShr a.val.toInt a.normShift))).setS f.sh
        (BitVec.ofNat 32 a.normShift)
  | .vnop _ | .undef _ => s

end Sys2Proof.Machine
end

