-- ==== Sys2Proof/Machine/Issue.lean ====
section
/-! DEFINITION. The issue of a bundle: what is due at a bundle boundary, the stop of a core
by an exception, the order in which a bundle is checked and its slots act (R179-R183,
R205-R215, R219-R222, R234). -/

namespace Sys2Proof.Machine

open Sys2Proof

/-! ### Exceptions (R205-R212) -/

/-- An exception to be taken: class, slot, detail, kind, SEQ_EXCINFO, and the whole address
or offset for the error record. -/
structure Exc where
  cls : Nat
  slot : Nat
  detail : Nat
  async : Bool
  info : Nat
  addr : Int
  deriving DecidableEq, Repr

/-- The stop cause that an exception class gives the arrays; none for the classes that do
not stop them (R123, R206). -/
def stopCause (cls : Nat) : Option Nat :=
  match cls with
  | 1 => some 5 | 2 => some 2 | 3 => some 3 | 5 => some 1 | 6 => some 4 | _ => none

/-- The arrays stop on a k-step boundary (R125, R206). -/
def Quad.stop (q : Quad) (cls : Nat) : Quad :=
  match stopCause cls with
  | some k => { q with stopped := true, cause := k }
  | none => q

/-- The word of SEQ_EXC (R224). -/
def Exc.word (e : Exc) : W32 :=
  BitVec.ofNat 32 (e.cls + (if e.async then 8 else 0) + 16 * e.slot + 256 * (e.detail % 65536))

/-- A taken asynchronous exception is no longer pending; the next of its class stays so (R208). -/
def PendExc.clear (p : PendExc) (cls : Nat) : PendExc :=
  match cls with
  | 2 => { p with xlt := p.xlt.tail }
  | 3 => { p with prot := p.prot.tail }
  | 5 => { p with preempt := Option.none }
  | 6 => { p with brk := Option.none }
  | 7 => { p with cal := Option.none }
  | _ => p

/-- The core after it has taken an exception: the record, the stop, the arrays. PREEMPT
leaves the context's own STOPPED as it is and begins its switch, during which the core stands
stopped (R205, R206, R213, R219, `CoreSt.halted`). A step of R222 that has not issued its bundle ends
here without a BREAK, on which the spec is silent (log entry 68). -/
def CoreSt.take (x : CoreSt) (e : Exc) : CoreSt :=
  { x with
    stopped := x.stopped || e.cls != 5
    switching := x.switching || e.cls == 5
    exc := e.word
    excInfo := BitVec.ofNat 32 e.info
    excPc := x.pc
    hcause := 0
    bksup := x.bksup || (e.cls == 6 && e.detail == 2)
    stepping := false
    pend := if e.async then x.pend.clear e.cls else x.pend
    quad := x.quad.stop e.cls }

/-- Whether an exception class sets the incomplete bit of job slot A's step (R210). -/
def excIncomp (cls : Nat) : Bool := cls == 1 || cls == 2 || cls == 3 || cls == 4 || cls == 7

/-- A core takes an exception: the record in its registers, the error record, the incomplete
bit and the notice to the control processors (R205, R210, R211). -/
def State.takeExc (s : State) (c : Nat) (e : Exc) : State :=
  let x := s.core c
  let s1 := s.setCore c (x.take e)
  let s2 := if e.cls = 5 ∨ e.cls = 6 then s1
    else s1.log ⟨e.cls, e.detail, unitCore c, x.isB, excIncomp e.cls && !x.isB,
      (e.addr % 2 ^ 64).toNat, x.pc.toNat⟩
  s2.emit (.jusia c e.word)

/-! ### What is due at a bundle boundary (R208) -/

/-- Whether the image of a core's resident job slot has its debug flag set (R221). -/
def State.debugOf (s : State) (c : Nat) : Bool := ((s.image (s.core c).slot).map (·.debug)).getD false

/-- Whether the breakpoint matches the bundle at PC (R222). -/
def State.bkptHit (s : State) (c : Nat) : Bool :=
  let x := s.core c
  s.debugOf c && x.bkpt.getLsbD 12 && x.bkpt.extractLsb' 0 12 == x.pc && !x.bksup

/-- The pending PREEMPT. -/
def CoreSt.excPreempt (x : CoreSt) : Option Exc := x.pend.preempt.map fun n => ⟨5, 0, 0, true, n, 0⟩

/-- The first other asynchronous exception that is due, in the order of R208. -/
def State.excAsync (s : State) (c : Nat) : Option Exc :=
  let x := s.core c
  match x.pend.cal with
  | some n => some ⟨7, 0, n, true, 0, 0⟩
  | none =>
    match x.pend.xlt with
    | (p, off) :: _ => some ⟨2, 0, p, true, off.toNat % 2 ^ 32, off.toNat⟩
    | [] =>
      match x.pend.prot with
      | (d, a) :: _ => some ⟨3, 0, d, true, a.toNat % 2 ^ 32, a.toNat⟩
      | [] =>
        match x.pend.brk with
        | some d => some ⟨6, 0, d, true, 0, 0⟩
        | none => if s.bkptHit c then some ⟨6, 0, 2, true, 0, 0⟩ else none

/-- Whether a word of the bundle at PC is in the given condition. -/
def CoreSt.storeIs (x : CoreSt) (p : Ecc → Bool) : List Nat :=
  ((List.range 4).map fun i => 4 * x.pc.toNat + i).filter fun w =>
    p (Tab.look (fun _ => Ecc.good) x.storeEcc w)

/-- The scalar and mask registers that each slot of a bundle reads, with the slot. -/
def CoreSt.readsOf (x : CoreSt) (b : Bundle) : List (Nat × RegName) :=
  b.ctl.reads.map (fun r => (0, r))
    ++ (b.arr.reads ++ (match b.arr with
        | .adrq f => if f.rnd = 1 ∧ x.pxv then [.s x.pxreg] else []
        | _ => [])).map (fun r => (1, r))
    ++ (b.vec.reads ++ (match b.vec with
        | .lane _ f => if f.rnd = 1 ∧ x.pxv then [.s x.pxreg] else []
        | .vtile _ => if x.pxv then [.s x.pxreg] else []
        | _ => [])).map (fun r => (2, r))

/-- The condition of a register's codeword; S0 and M0 have none. -/
def CoreSt.regEcc (x : CoreSt) : RegName → Ecc
  | .s n => if n = 0 then .good else Tab.look (fun _ => Ecc.good) x.sEcc n.toNat
  | .m n => if n = 0 then .good else Tab.look (fun _ => Ecc.good) x.mEcc n.toNat
  | .v _ => .good

/-- The number of a register. -/
def RegName.num : RegName → Nat
  | .s n => n.toNat
  | .m n => n.toNat
  | .v n => n.toNat

/-- Whether a register is a mask register. -/
def RegName.isM : RegName → Bool
  | .m _ => true
  | _ => false

/-- The exception of an uncorrectable register among those that some slots of the bundle read
(R207, R212). -/
def CoreSt.excReg (x : CoreSt) (l : List (Nat × RegName)) : Option Exc :=
  (l.find? fun r => (x.regEcc r.2).bad).map fun r =>
    ⟨4, r.1, if r.2.isM then 3 else 2, false, r.2.num, r.2.num⟩

/-- The exception of an uncorrectable word that SLD would read. -/
def State.excSld (s : State) (c : Nat) (x : CoreSt) : CtlOp → Option Exc
  | .sld f =>
    let a := x.ldAddr f
    if a % 4 = 0 ∧ s.spadOk x.slot c a 4 = true
        ∧ (Tab.look (fun _ => Ecc.good) x.spEcc (a.toNat / 4)).bad = true then
      some ⟨4, 0, 4, false, a.toNat, a⟩
    else none
  | _ => none

/-- The first ILLEGAL of a bundle, in the order of R234: slot and detail. -/
def State.illegalAt (s : State) (c : Nat) (b : Bundle) : Option (Nat × Nat) :=
  let x := s.core c
  if x.plen ≤ x.pc.toNat then some (0, dPcRange)
  else b.headErr
    |>.orElse (fun _ => (x.ctlIll (s.debugOf c) b.ctl).map fun d => (0, d))
    |>.orElse (fun _ => (x.arrIll b.arr).map fun d => (1, d))
    |>.orElse (fun _ => (x.vecIll b.vec).map fun d => (2, d))
    |>.orElse (fun _ => (x.strIll b.str).map fun d => (3, d))
    |>.orElse (fun _ => b.conflict.map fun n => (n, dWriteConflict))

/-- The first synchronous PROT of a bundle: slot and information (R209). -/
def State.protAt (s : State) (c : Nat) (b : Bundle) : Option (Nat × ProtInfo) :=
  let x := s.core c
  ((s.ctlProt c x b.ctl).map fun a => (0, spadProt a))
    |>.orElse (fun _ => (s.arrProt c x b.arr).map fun a => (1, spadProt a))
    |>.orElse (fun _ => (s.vecProt c x b.vec).map fun p => (2, p))

/-- Whether a WAITCAL finds its pending bit clear (R203). -/
def CoreSt.calHold (x : CoreSt) : CtlOp → Bool
  | .waitcal f => ((x.cfg.map CoreCfg.calmask).getD 0).getLsbD f.n.toNat && !x.calPend.getLsbD f.n.toNat
  | _ => false

/-- The causes on which a bundle holds, lowest first (R183); a scalar source is never in
flight in a model in which a write lands at once. -/
def CoreSt.holds (x : CoreSt) (b : Bundle) : List Nat :=
  (if x.arrHold b.arr then [1] else []) ++ (if x.vecHold b.vec then [2] else [])
    ++ (if x.strHold b.str then [4] else []) ++ (if x.calHold b.ctl then [5] else [])
    ++ (if x.fence.isSome then [6] else [])

/-- Whether decoding alone rejects the bundle at PC, or PC lies past the program. -/
def CoreSt.early (x : CoreSt) (b : Bundle) : Bool := decide (x.plen ≤ x.pc.toNat) || b.illegal

/-- The causes that hold the bundle before its checks: a bundle that decoding rejects waits
for a pending fence only (log entry 10). -/
def CoreSt.blocked (x : CoreSt) (b : Bundle) : List Nat :=
  if x.early b then (if x.fence.isSome then [6] else []) else x.holds b

/-- The synchronous ECC_UNCORR of a bundle, which comes before its ILLEGAL (R207, R208): the first
slot in the order control, array, vector that finds an error, the control slot's SLD data after its
registers (R209). A bundle past the program is not fetched, so it reads nothing. -/
def State.excEcc (s : State) (c : Nat) (b : Bundle) : Option Exc :=
  let x := s.core c
  if x.plen ≤ x.pc.toNat then none
  else if (x.storeIs Ecc.bad).isEmpty = false then
    if x.fence.isSome then none else some ⟨4, 0, 1, false, x.pc.toNat * 16, x.pc.toNat * 16⟩
  else if (x.blocked b).isEmpty = false then none
  else ((x.excReg ((x.readsOf b).filter (·.1 == 0))).orElse fun _ => s.excSld c x b.ctl).orElse fun _ =>
    x.excReg (x.readsOf b)

/-- What happens at the boundary: an exception is taken, the bundle holds, or it issues. -/
inductive Due
  | take (e : Exc)
  | hold (cause : Nat)
  | go
  deriving DecidableEq, Repr

/-- The synchronous ILLEGAL or PROT of a bundle (R207, R209). -/
def State.excSync (s : State) (c : Nat) (b : Bundle) : Option Exc :=
  match s.illegalAt c b with
  | some (slot, d) => some ⟨1, slot, d, false, 0, 0⟩
  | none => (s.protAt c b).map fun p => ⟨3, p.1, p.2.detail, false, p.2.info, p.2.addr⟩

/-- What is due for a bundle at a boundary, in the order of R208. -/
def State.due (s : State) (c : Nat) (b : Bundle) : Due :=
  let x := s.core c
  match x.excPreempt with
  | some e => .take e
  | none =>
    match s.excEcc c b with
    | some e => .take e
    | none =>
      match s.excAsync c with
      | some e => .take e
      | none =>
        match x.blocked b with
        | k :: _ => .hold k
        | [] =>
          match s.excSync c b with
          | some e => .take e
          | none => .go

/-! ### Issue -/

/-- Registers that a bundle reads with a single-bit error are corrected. -/
def CoreSt.fixRegs (x : CoreSt) (l : List (Nat × RegName)) : CoreSt :=
  { x with
    sEcc := x.sEcc.filter fun e => !(e.2 == .single && l.any fun r => !r.2.isM && r.2.num == e.1)
    mEcc := x.mEcc.filter fun e => !(e.2 == .single && l.any fun r => r.2.isM && r.2.num == e.1) }

/-- The corrections of single-bit errors that the fetch and the register reads make (R777). -/
def State.fetchFix (s : State) (c : Nat) (b : Bundle) : State :=
  let x := s.core c
  let one := x.storeIs (· == .single)
  (s.setCore c { (x.fixRegs (x.readsOf b)) with storeEcc := eccFixed x.storeEcc one }).corrWords c 1 one

/-- What a FENCE's own bundle pushes, which the fence does not cover (R291). -/
def CoreSt.fenceOwn (x : CoreSt) (b : Bundle) (kind : BitVec 3) : FenceSt where
  kind := kind
  asked := none
  later := none
  own := (match b.str with
      | .ssend f => [(((x.bind f.port.toNat).map (·.route)).getD 0, 1)]
      | _ => [])
    ++ (match b.arr with
      | .adrq f => [(((x.bind f.dst.toNat).map (·.route)).getD 0,
          tokenWords f.w (masked f.amask).length)]
      | _ => [])
  ownDrain := match b.arr with
    | .adrq _ => some x.quad.order
    | _ => none

/-- The fence of a bundle, after its slots have acted. -/
def State.fenceEff (s : State) (c : Nat) (x : CoreSt) (b : Bundle) : State :=
  match b.ctl with
  | .fence f => s.startFence c (x.fenceOwn b f.kind)
  | _ => s

/-- After the issue: the next pc, and the single step of R222 that ends here. -/
def CoreSt.issued (y x : CoreSt) (op : CtlOp) : CoreSt :=
  let z := y.advance x op
  { z with
    hcause := 0
    bksup := false
    stepping := false
    pend := if x.stepping ∧ z.pend.brk.isNone then { z.pend with brk := some 3 } else z.pend }

/-- Every slot of a bundle acts on the sources of the core as it was before (R181). -/
def State.perform (s : State) (c : Nat) (b : Bundle) : State :=
  let s0 := s.fetchFix c b
  let x := s0.core c
  (((((s0.ctlEff c x b.ctl).arrEff c x b.arr).vecEff c x b.vec).strEff c x b.str).fenceEff c x b).modCore c
    fun y => y.issued x b.ctl

/-- While a bundle holds for its SDROP alone, the words that are there are discarded (R279). -/
def State.holdDrop (s : State) (c : Nat) (b : Bundle) : State :=
  match b.str with
  | .sdrop f =>
    if (s.core c).holds b = [4] ∧ s.excSync c b = none then s.dropWords c f.port.toNat else s
  | _ => s

/-- The bundle at a core's PC is due to issue. -/
def State.issue (s : State) (c : Nat) (b : Bundle) : State :=
  let x := s.core c
  if x.stopped ∨ x.switching ∨ x.bare ∨ x.cfg.isNone then s
  else
    match s.due c b with
    | .take e => s.takeExc c e
    | .hold k => (s.holdDrop c b).modCore c fun y => { y with hcause := k }
    | .go => s.perform c b

/-- The bundle that the program holds at PC. -/
def CoreSt.atPc (x : CoreSt) : Bundle :=
  Bundle.decode (((x.cfg.map (·.bundles)).getD []).getD x.pc.toNat 0)

/-- A pending asynchronous exception is taken at the bundle boundary (R208). -/
def State.boundary (s : State) (c : Nat) : State :=
  let x := s.core c
  if x.stopped ∨ x.switching ∨ x.bare ∨ x.cfg.isNone ∨ x.pend = PendExc.none then s
  else
    match s.due c x.atPc with
    | .take e => s.takeExc c e
    | .hold _ | .go => s

/-- A stopped core runs again (R128, R219, R222). -/
def CoreSt.resume (x : CoreSt) : CoreSt :=
  { x with stopped := false, quad := { x.quad with stopped := false, cause := 0 } }

/-- The class of the exception that stopped a core; 0 while it runs. -/
def CoreSt.stoppedBy (x : CoreSt) : Nat := if x.stopped then x.exc.toNat % 8 else 0

/-- SEQ_CTL.RESUME (R222). -/
def CoreSt.ctlResume (x : CoreSt) : CoreSt := if x.stoppedBy = 6 then x.resume else x

/-- SEQ_CTL.STEP (R222). -/
def CoreSt.ctlStep (x : CoreSt) : CoreSt :=
  if x.stoppedBy = 6 then { x.resume with stepping := true } else x

/-- Whether the core stands stopped by an exception: one that it keeps, or PREEMPT until its context
has switched (R205, R213, R224). -/
def CoreSt.halted (x : CoreSt) : Bool := x.stopped || x.switching

/-- SEQ_CTL.HALT (R222). -/
def CoreSt.ctlHalt (x : CoreSt) : CoreSt :=
  if x.halted ∨ x.cfg.isNone then x
  else { x with pend := { x.pend with brk := some (x.pend.brk.getD 4) } }

/-- PREEMPT reaches one core of a window: taken, or, in a core already stopped, the switch
of its stopped state begins (R213, R215). -/
def State.preemptCore (s : State) (c : Nat) : State :=
  let x := s.core c
  match x.pend.preempt with
  | none => s
  | some n =>
    if x.switching then s
    else if x.stopped ∨ x.bare ∨ x.cfg.isNone then
      s.setCore c { x with
        switching := true, pend := { x.pend with preempt := none }, quad := x.quad.stop 5 }
    else s.takeExc c ⟨5, 0, 0, true, n, 0⟩

/-- PREEMPT in each of some cores for which comparator `n` marks a boundary. -/
def State.preemptCores (s : State) (n : Nat) : List Nat → State
  | [] => s
  | c :: r =>
    (if (s.core c).pend.preempt = some n then s.preemptCore c else s).preemptCores n r

end Sys2Proof.Machine
end

