-- ==== Sys2Proof/Machine/ArraySlot.lean ====
section
/-! DEFINITION. The commands that issue a bundle whose array slot holds the operation that
the command names; the bundle's other slots come with it (R179, R226). -/

namespace Sys2Proof.Machine

open Sys2Proof

/-- Issues an accumulate instruction to the quad, latching its flags and SREG value. (R92) -/
def execAmac (c : Core) (f : FmtAmac) (rest : Others) (s : State) : Host.Outcome State Fault Refusal :=
  .next (s.issue c { Bundle.ofOthers rest with arr := .amac f })

/-- Issues a quantised drain of a tile to a stream port. (R111) -/
def execAdrq (c : Core) (f : FmtAdrq) (rest : Others) (s : State) : Host.Outcome State Fault Refusal :=
  .next (s.issue c { Bundle.ofOthers rest with arr := .adrq f })

/-- Issues a full-width drain of a tile and its descriptor to the operand cache. (R114) -/
def execAdrw (c : Core) (f : FmtTileMove) (rest : Others) (s : State) : Host.Outcome State Fault Refusal :=
  .next (s.issue c { Bundle.ofOthers rest with arr := .adrw f })

/-- Issues a load of a tile, its scale and flags from the scratchpad. (R117) -/
def execAldt (c : Core) (f : FmtTileMove) (rest : Others) (s : State) : Host.Outcome State Fault Refusal :=
  .next (s.issue c { Bundle.ofOthers rest with arr := .aldt f })

/-- Issues a store of a tile, its scale and flags to the scratchpad. (R117) -/
def execAstt (c : Core) (f : FmtTileMove) (rest : Others) (s : State) : Host.Outcome State Fault Refusal :=
  .next (s.issue c { Bundle.ofOthers rest with arr := .astt f })

/-- Array-slot no operation. (R242) -/
def execAnop (c : Core) (f : FmtZ29) (rest : Others) (s : State) : Host.Outcome State Fault Refusal :=
  .next (s.issue c { Bundle.ofOthers rest with arr := .anop f })

end Sys2Proof.Machine
end

