-- ==== Sys2Proof/Machine/Context.lean ====
section
/-! DEFINITION. The context switch: the four context records of a core in its context-save
area, their save and their restore (R130, R131, R176, R177, R216, R218, R297, R433-R439,
R727). -/

namespace Sys2Proof.Machine

open Sys2Proof

/-! ### Layout (R433, R435) -/

/-- The context-save area of a job slot. -/
def csaBase (j : JobSlot) : Nat := if j = .a then 0x1D8000 else 0x25C000

/-- The array context record of array `n`. -/
def csaArray (j : JobSlot) (n : Nat) : Nat := csaBase j + n * 0x10100
/-- The vector context record. -/
def csaVector (j : JobSlot) : Nat := csaBase j + 0x40400
/-- The sequencer context record. -/
def csaSeq (j : JobSlot) : Nat := csaBase j + 0x82580
/-- The stream context record. -/
def csaStream (j : JobSlot) : Nat := csaBase j + 0x82780

/-- A list of bytes filled with zeros up to a length, or cut to it. -/
def padTo (n : Nat) (l : List Byte) : List Byte := (l ++ List.replicate (n - l.length) 0).take n

/-- One bit as a number. -/
def bitNat (b : Bool) (n : Nat) : Nat := if b then n else 0

/-! ### Records -/

/-- SREGI and SREGQ of the state record (R131). -/
def AmacJob.sregRec (j : AmacJob) : Int := if j.f.asc = 1 then satw j.sreg.toInt 10 else 0

/-- The array state record (R131). -/
def stateRec (q : Quad) (a : ArrayRec) : List Byte :=
  padTo 64
    (leBytes 4 ((q.run.map fun r => r.job.word.toNat).getD 0)
      ++ leBytes 4 ((q.queued.map fun j => j.word.toNat).getD 0)
      ++ leBytes 4 ((q.drain.map fun d => d.word.toNat).getD 0)
      ++ leBytes 1 ((q.run.map (·.knext)).getD 0)
      ++ leBytes 1 (bitNat q.run.isSome 1 + bitNat q.queued.isSome 2 + bitNat q.drain.isSome 4
          + bitNat ((q.run.map (·.started)).getD false) 8)
      ++ [0, 0]
      ++ leInt 2 ((q.run.map fun r => r.job.sregRec).getD 0)
      ++ leInt 2 ((q.queued.map AmacJob.sregRec).getD 0)
      ++ leBytes 4 ((q.drain.map fun d => d.sreg.toNat).getD 0)
      ++ leBytes 2 a.satStep.toNat ++ leBytes 2 a.sclStep.toNat)

/-- The array context record, all 65,792 bytes of it (R130, R436); those that its table does not
name are 0 (R131). -/
def arrayRecBytes (q : Quad) (a : ArrayRec) : List Byte :=
  (List.range 16).flatMap a.tileBytes
    ++ padTo 128 ((List.range 16).flatMap a.desc) ++ padTo 128 (stateRec q a)

/-- A reduction accumulator's 32 bytes. -/
def RAcc.bytes (a : RAcc) : List Byte :=
  padTo 32 (leBytes 8 a.val.toNat ++ leBytes 4 a.idx.toNat ++ leBytes 4 a.ecnt.toNat
    ++ leBytes 1 a.kind.toNat)

/-- A tap's 16 bytes. -/
def TapSt.bytes (t : TapSt) : List Byte := padTo 16 (leBytes 8 t.acc.toNat ++ leBytes 2 t.layer.toNat)

/-- The operand cache's extent x in bytes (R177). -/
def CoreSt.savex (x : CoreSt) : Nat := 0x1000 * (x.cfg.map (·.savex)).getD 0

/-- The vector context record, with `oc` the bytes of the cache that it keeps (R176). -/
def vectorRecBytes (x : CoreSt) (oc : List Byte) : List Byte :=
  padTo 0x40000 oc
    ++ (List.range 32).flatMap (fun n => leBytes 256 (x.vreg (BitVec.ofNat 5 n)).toNat)
    ++ (List.range 8).flatMap (fun n =>
        leBytes 8 (if n = 0 then 0 else (x.mreg (BitVec.ofNat 3 n)).toNat))
    ++ (List.range 4).flatMap (fun n => (x.racc n).bytes)
    ++ (List.range 8).flatMap (fun t => (x.tap t).bytes)
    ++ padTo 64 (leBytes 2 x.satStep.toNat ++ leBytes 2 x.domStep.toNat ++ leBytes 4 x.vseq.toNat)

/-- A loop level's 8 bytes (R216). -/
def LoopLv.bytes (l : LoopLv) : List Byte :=
  leBytes 2 l.ls.toNat ++ leBytes 2 l.le.toNat ++ leBytes 4 l.lc.toNat

/-- The sequencer context record (R216). -/
def seqRecBytes (x : CoreSt) : List Byte :=
  padTo 0x18
    (leBytes 2 x.pc.toNat ++ leBytes 2 x.dst.toNat
      ++ leBytes 1 (bitNat x.ds 1 + bitNat x.bksup 2 + bitNat x.stopped 4 + bitNat x.fence.isSome 8)
      ++ leBytes 1 ((x.fence.map fun f => f.kind.toNat).getD 0)
      ++ leBytes 1 x.pcount
      ++ leBytes 1 (bitNat x.pend.cal.isSome 1 + bitNat (!x.pend.xlt.isEmpty) 2
          + bitNat (!x.pend.prot.isEmpty) 4 + bitNat x.pend.brk.isSome 8)
      ++ leBytes 4 x.mode.toNat ++ leBytes 4 x.pmode.toNat
      ++ leBytes 1 (bitNat (x.loop 0).act 1 + bitNat (x.loop 1).act 2 + bitNat (x.loop 2).act 4))
    ++ (x.loop 0).bytes ++ (x.loop 1).bytes ++ (x.loop 2).bytes
    ++ leBytes 8 x.calPend.toNat ++ leBytes 4 x.exc.toNat ++ leBytes 4 x.excInfo.toNat
    ++ padTo 0x40 (leBytes 2 x.excPc.toNat)
    ++ padTo 0x180 ((List.range 32).flatMap fun n => leBytes 4 (x.sreg (BitVec.ofNat 5 n)).toNat)

/-- A feeder's 8 bytes (R297). -/
def CoreSt.feederBytes (x : CoreSt) (f : Nat) : List Byte :=
  let st := x.feeder f
  leBytes 1 (match x.feederCfg f with
      | some cf => if cf.fromPort then 0x80 + cf.port else 0
      | none => 0)
    ++ leBytes 1 st.tile ++ leBytes 1 st.kpos ++ leBytes 1 (bitNat st.complete 1 + bitNat st.poison 2)
    ++ leBytes 4 st.addr.toNat

/-- The stream context record (R297). -/
def streamRecBytes (x : CoreSt) : List Byte := padTo 64 ([0, 1, 2, 3, 4].flatMap x.feederBytes)

/-! ### Save -/

/-- Every fold that has issued reaches its accumulator (R437 step 1). -/
def CoreSt.foldAll (x : CoreSt) : Nat → CoreSt
  | 0 => x
  | n + 1 => x.foldFront.foldAll n

/-- Read every tile of an array through its codewords. -/
def State.scanTiles (s : State) (c n : Nat) : List Nat → State
  | [] => s
  | t :: r => (s.scanTile c n t).scanTiles c n r

/-- Save one array context record. -/
def State.saveArray (s : State) (c : Nat) (j : JobSlot) (n : Nat) : State :=
  let s1 := s.scanTiles c n (List.range 16)
  s1.spadWrite c (csaArray j n) (arrayRecBytes (s1.core c).quad ((s1.core c).arr n))

/-- Save the array context records. -/
def State.saveArrays (s : State) (c : Nat) (j : JobSlot) (l : List Nat) : State :=
  l.foldl (fun s n => s.saveArray c j n) s

/-- What a context keeps beside its record. -/
def CoreSt.keep (x : CoreSt) : KeptCtx := ⟨x.quad, x.pend⟩

/-- The save of the resident context writes its area whole and clears EMPTY (R436). -/
def State.saveCtx (s : State) (c : Nat) : State :=
  let s0 := s.modCore c fun x => x.foldAll x.folds.length
  let x := s0.core c
  let j := x.slot
  let s1 := s0.saveArrays c j [0, 1, 2, 3]
  let oc := s1.ocRead c 0 x.savex
  let y := oc.2.core c
  let s2 := ((oc.2.spadWrite c (csaVector j) (vectorRecBytes y oc.1.bytes)).spadWrite c (csaSeq j)
    (seqRecBytes y)).spadWrite c (csaStream j) (streamRecBytes y)
  s2.modCore c fun z =>
    if j = .a then { z with emptyA := false, keptA := some z.keep }
    else { z with emptyB := false, keptB := some z.keep }

/-! ### Restore -/

/-- An array at the reset state of R339; its lifetime counters stay. -/
def ArrayRec.fresh (a : ArrayRec) : ArrayRec :=
  { a with elem := [], ecc := [], sacc := [], sat := 0, poison := 0, satStep := 0, sclStep := 0 }

/-- The resident context at the reset state of R339; what belongs to the device or stays in
place across a switch is kept (R132, R178, R296). -/
def CoreSt.freshCtx (x : CoreSt) : CoreSt :=
  ({ x with
    sregs := [], sEcc := [], mregs := [], mEcc := [], vregs := [], ocache := [], ocEcc := []
    pc := 0, ds := false, dst := 0, loops := [], mode := 0, pmode := 0, pcount := 0
    calPend := 0, stopped := false, exc := 0, excInfo := 0, excPc := 0, hcause := 0
    bksup := false, stepping := false, pend := PendExc.none, fence := none
    quad := Quad.reset, arrays := x.arrays.map fun (a : Nat × ArrayRec) => (a.1, a.2.fresh)
    feeders := [], raccs := [], folds := [], taps := [], vseq := 0
    satStep := 0, domStep := 0 }).feedersToBase [0, 1, 2, 3, 4]

/-- A sub-list of bytes. -/
def slice (l : List Byte) (o n : Nat) : List Byte := (l.drop o).take n

/-- The array that a record holds (R116, R130, R131). -/
def ArrayRec.ofRec (a : ArrayRec) (b : List Byte) : ArrayRec :=
  let st := slice b 0x10080 64
  let r := (List.range 16).foldl (fun acc t =>
    acc.load t (slice b (t * 0x1000) 4096) (slice b (0x10000 + t * 8) 8) false) a.fresh
  { r with satStep := BitVec.ofNat 16 (fieldLe st 24 2), sclStep := BitVec.ofNat 16 (fieldLe st 26 2) }

/-- Mark the tiles of a restored array whose words were uncorrectable (R778). -/
def ArrayRec.markBad (a : ArrayRec) (base : Nat) : List Nat → ArrayRec
  | [] => a
  | w :: r =>
    let o := 4 * w - base
    let t := if o < 0x10000 then o / 0x1000 else (o - 0x10000) / 8
    ({ a with poison := if t < 16 then orBit a.poison t true else a.poison }).markBad base r

/-- The quad that the state record of array 0 holds, with the values that were latched at
issue and the order of issue as they were kept. -/
def Quad.ofRec (b : List Byte) (k : Option KeptCtx) : Quad :=
  let st := slice b 0x10080 64
  let w (o : Nat) : W32 := BitVec.ofNat 32 (fieldLe st o 4)
  let fl := (st.getD 13 0)
  let q := (k.map (·.quad)).getD Quad.reset
  let sx (o : Nat) : W32 := BitVec.ofInt 32 (toS 16 (fieldLe st o 2))
  { run := if fl.getLsbD 0 then
      some ⟨⟨w 0, sx 16, (q.run.map fun r => r.job.order).getD 0⟩, fieldLe st 12 1, fl.getLsbD 3⟩
      else none
    queued := if fl.getLsbD 1 then some ⟨w 4, sx 18, (q.queued.map (·.order)).getD 1⟩ else none
    drain := if fl.getLsbD 2 then
      some (match q.drain with
        | some d => { d with word := w 8, sreg := w 20 }
        | none => ⟨w 8, w 20, 2, 0, 0, none⟩)
      else none
    order := max q.order 3
    stopped := false
    cause := 0 }

/-- Restore the arrays. -/
def State.restoreArrays (s : State) (c : Nat) (j : JobSlot) : List Nat → State
  | [] => s
  | n :: r =>
    let v := s.spadRead c (csaArray j n) 0x10100
    (v.2.modCore c fun x => x.setArr n
      (((x.arr n).ofRec v.1.bytes).markBad (csaArray j n) v.1.bad)).restoreArrays c j r

/-- The vector state that a record holds (R176, R177). -/
def CoreSt.vecOfRec (x : CoreSt) (b : List Byte) : CoreSt :=
  let c0 := slice b 0x42140 8
  let y := (List.range 32).foldl (fun (a : CoreSt) n =>
    a.setV (BitVec.ofNat 5 n) (Payload.ofBytes (slice b (0x40000 + 256 * n) 256))) { x with vregs := [] }
  let z := (List.range 8).foldl (fun (a : CoreSt) n =>
    a.setM (BitVec.ofNat 3 n) (BitVec.ofNat 64 (fieldLe b (0x42000 + 8 * n) 8))) { y with mregs := [] }
  let r := (List.range 4).foldl (fun (a : CoreSt) n =>
    let o := 0x42040 + 32 * n
    a.setRacc n ⟨BitVec.ofNat 3 (fieldLe b (o + 16) 1), BitVec.ofNat 64 (fieldLe b o 8),
      BitVec.ofNat 32 (fieldLe b (o + 8) 4), BitVec.ofNat 32 (fieldLe b (o + 12) 4)⟩) z
  let t := (List.range 8).foldl (fun (a : CoreSt) n =>
    let o := 0x420C0 + 16 * n
    a.setTap n ⟨BitVec.ofNat 64 (fieldLe b o 8), BitVec.ofNat 16 (fieldLe b (o + 8) 2)⟩) r
  { t with
    ocache := Tab.putList (fun _ => 0) [] 0 (slice b 0 x.savex)
    ocEcc := []
    folds := []
    satStep := BitVec.ofNat 16 (fieldLe c0 0 2)
    domStep := BitVec.ofNat 16 (fieldLe c0 2 2)
    vseq := BitVec.ofNat 22 (fieldLe c0 4 4) }

/-- A pending exception of a record: pending when its bit is set, with the detail kept. -/
def pendBit {α : Type} (b : Bool) (k : Option α) (d : α) : Option α := if b then some (k.getD d) else none

/-- The pending faults of a record, likewise. -/
def pendBits {α : Type} (b : Bool) (k : List α) (d : α) : List α :=
  if b then (if k.isEmpty then [d] else k) else []

/-- The sequencer state that a record holds (R216, R218). -/
def CoreSt.seqOfRec (x : CoreSt) (b : List Byte) (k : Option KeptCtx) : CoreSt :=
  let w (o n : Nat) : Nat := fieldLe b o n
  let fl := b.getD 4 0
  let pd := b.getD 7 0
  let kp := (k.map (·.pend)).getD PendExc.none
  let lv (n : Nat) : LoopLv := ⟨BitVec.ofNat 12 (w (0x18 + 8 * n) 2), BitVec.ofNat 12 (w (0x1A + 8 * n) 2),
    BitVec.ofNat 20 (w (0x1C + 8 * n) 4), (b.getD 0x10 0).getLsbD n⟩
  let y := (List.range 32).foldl (fun (a : CoreSt) n =>
    a.setS (BitVec.ofNat 5 n) (BitVec.ofNat 32 (w (0x80 + 4 * n) 4))) { x with sregs := [] }
  let z : CoreSt := { y with
    pc := BitVec.ofNat 12 (w 0 2), dst := BitVec.ofNat 12 (w 2 2), ds := fl.getLsbD 0
    bksup := fl.getLsbD 1, stopped := fl.getLsbD 2
    fence := if fl.getLsbD 3 then some ⟨BitVec.ofNat 3 (w 5 1), none, [], none, none⟩ else none
    pcount := w 6 1
    pend := ⟨pendBit (pd.getLsbD 0) kp.cal 0, pendBits (pd.getLsbD 1) kp.xlt (0, 0),
      pendBits (pd.getLsbD 2) kp.prot (0, 0), pendBit (pd.getLsbD 3) kp.brk 4, none⟩
    mode := BitVec.ofNat 32 (w 8 4), pmode := BitVec.ofNat 32 (w 12 4)
    calPend := BitVec.ofNat 64 (w 0x30 8), exc := BitVec.ofNat 32 (w 0x38 4)
    excInfo := BitVec.ofNat 32 (w 0x3C 4), excPc := BitVec.ofNat 12 (w 0x40 2)
    hcause := 0, stepping := false }
  ((z.setLoop 0 (lv 0)).setLoop 1 (lv 1)).setLoop 2 (lv 2)

/-- The feeders that a record holds (R297). -/
def CoreSt.feedersOfRec (x : CoreSt) (b : List Byte) : CoreSt :=
  [0, 1, 2, 3, 4].foldl (fun (a : CoreSt) f =>
    a.setFeeder f ⟨fieldLe b (8 * f + 1) 1, fieldLe b (8 * f + 2) 1, (b.getD (8 * f + 3) 0).getLsbD 0,
      (b.getD (8 * f + 3) 0).getLsbD 1, BitVec.ofNat 32 (fieldLe b (8 * f + 4) 4)⟩) x

/-- The quad of a restored core stands stopped when the core stands stopped by a class that
stops the arrays (R206, R219). -/
def CoreSt.quadStop (x : CoreSt) : CoreSt :=
  if x.stopped then { x with quad := x.quad.stop (x.exc.toNat % 8) } else x

/-- Restore a job slot's context: from its area, or the reset state from an EMPTY one, which
clears EMPTY (R436), with the exceptions that arose for it while its area was EMPTY (R439). -/
def State.restoreCtx (s : State) (c : Nat) (j : JobSlot) : State :=
  let x := s.core c
  let empty := if j = .a then x.emptyA else x.emptyB
  let kept := if j = .a then x.keptA else x.keptB
  let s0 := s.setCore c { x with slot := j, bare := false }
  if empty then
    s0.modCore c fun y =>
      let z : CoreSt := { y.freshCtx with pend := (kept.map (·.pend)).getD PendExc.none }
      if j = .a then { z with emptyA := false } else { z with emptyB := false }
  else
    let s1 := s0.restoreArrays c j [0, 1, 2, 3]
    let st := s1.spadRead c (csaArray j 0) 0x10100
    let v := st.2.spadRead c (csaVector j) 0x42180
    let q := v.2.spadRead c (csaSeq j) 512
    let f := q.2.spadRead c (csaStream j) 64
    f.2.modCore c fun y =>
      ((({ (y.vecOfRec v.1.bytes) with quad := Quad.ofRec st.1.bytes kept }).seqOfRec q.1.bytes
        kept).feedersOfRec f.1.bytes).quadStop

/-! ### The switch (R437, R727) -/

/-- Whether Sheepdog waits to test a core, in an open window whose TEST flag is set (R135, R727). -/
def State.testWaits (s : State) (c : Nat) : Bool :=
  (s.openWindows.any fun w => w.test && w.cores.getLsbD c) && s.sd.queue.any fun t => t.core == some c

/-- The switch of a core's context after PREEMPT. Where Sheepdog waits to test the core, the
opening switch restores nothing, and the closing one has nothing to save (R727). -/
def State.contextSwitch (s : State) (c : Nat) : State :=
  let x := s.core c
  if ¬ x.switching then s
  else
    let s1 :=
      if x.bare then s.restoreCtx c .a
      else if x.slot = .a then
        if s.testWaits c then (s.saveCtx c).modCore c fun y => { y.freshCtx with bare := true }
        else (s.saveCtx c).restoreCtx c .b
      else (s.saveCtx c).restoreCtx c .a
    s1.modCore c fun y => { y with switching := false, bkpt := y.bkpt &&& 0xFFF }

end Sys2Proof.Machine
end

