-- ==== Sys2Proof/Machine/Arrays.lean ====
section
/-! DEFINITION. The commands of the arrays, the vector engine and the reduction unit that
are no slot operation (R101, R109, R120, R168, R173). -/

namespace Sys2Proof.Machine

open Sys2Proof

/-- An AMAC takes one k-step slot when every feeder has its vector, adding or skipping
products (R101). -/
def execAmacSlot (c : Core) (s : State) : Host.Outcome State Fault Refusal := .next (s.amacSlot c)

/-- A waiting drain, ALDT or ASTT starts once the tile is readable and the drain unit free,
and runs to its last cy (R109). -/
def execDrainStart (c : Core) (s : State) : Host.Outcome State Fault Refusal := .next (s.drainStart c)

/-- The lifetime counters of all four arrays at 0 (R120). -/
def CoreSt.arraysClr (x : CoreSt) : CoreSt :=
  { x with arrays := x.arrays.map fun (a : Nat × ArrayRec) => (a.1, a.2.clrcnt) }

/-- A write of ARR_CTL.CLRCNT clears the lifetime counters of all four arrays (R120). -/
def execArrClrcnt (r : Requester) (c : Core) (s : State) : Host.Outcome State Fault Refusal :=
  .next (s.bar0 r fun s => s.modCore c CoreSt.arraysClr)

/-- A lane instruction's fold reaches its reduction accumulator in issue order (R168). -/
def execReductionFold (c : Core) (s : State) : Host.Outcome State Fault Refusal :=
  .next (s.modCore c CoreSt.foldFront)

/-- A write of VEC_CTL.CLRCNT clears the vector engine's lifetime counters (R173). -/
def execVecClrcnt (r : Requester) (c : Core) (s : State) : Host.Outcome State Fault Refusal :=
  .next (s.bar0 r fun s => s.modCore c CoreSt.vecClr)

end Sys2Proof.Machine
end

