-- ==== Sys2Proof/Machine/Mem.lean ====
section
/-! DEFINITION. Device memory: the address map of a stack, reads and writes with their
SECDED codewords, the isolation of the job slots, the page table and the translation windows
(R24, R351-R353, R360-R362, R394-R410, R443, R777). -/

namespace Sys2Proof.Machine

open Sys2Proof

/-! ### The address map (R24, R351-R353) -/

/-- The bytes of a stack. -/
def stackBytes : Nat := 0x1000000000

/-- The bytes of device memory. -/
def memTop : Nat := 0x8000000000

/-- The stack of an offset. -/
def stackOf (off : Nat) : Nat := off / stackBytes

/-- The stack-local address of an offset. -/
def localOf (off : Nat) : Nat := off % stackBytes

/-- The bank engine that owns a stack-local address. -/
def engOf (a : Nat) : Nat := a / 0x1000 % 64

/-- The bank group of a stack-local address. -/
def groupOf (a : Nat) : Nat := a / 0x4000 % 16

/-- striped (R352). -/
def striped (base e o : Nat) : Nat := base + o / 0x1000 * 0x40000 + e * 0x1000 + o % 0x1000

/-! ### Reads and writes -/

/-- The canonical form of device memory: addresses strictly rising, and no byte that an unlisted
address reads as (log entry 2). -/
abbrev Memory.wf (m : List Host.Cell) : Bool := Tab.wf (fun _ => (0 : Byte)) m

/-- Who accesses memory: job slot A's own work sets its incomplete bit; job slot B's records
say so (R100, R361). -/
inductive Acc | slotA | slotB | save | other
  deriving DecidableEq, Repr

/-- The work of a job slot. -/
def Acc.ofSlot (j : JobSlot) : Acc := if j = .a then .slotA else .slotB

/-- Whether the access is job slot A's own. -/
def Acc.isA (w : Acc) : Bool := w == .slotA

/-- Whether the access is job slot B's. -/
def Acc.isB (w : Acc) : Bool := w == .slotB

/-- Count uncorrectable codewords. -/
def State.countBad (s : State) : List Nat → State
  | [] => s
  | w :: r => (s.bumpF (fMemEccUncorr (stackOf (8 * w))) 1).countBad r

/-- Count corrected codewords. -/
def State.countFixed (s : State) (b : Bool) : List Nat → State
  | [] => s
  | w :: r =>
    let d := stackOf (8 * w)
    ((s.bumpF (fMemEccCorr d) 1).countCorr 6 (unitStack d) (localOf (8 * w)) b).countFixed b r

/-- One codeword for each accessed block of `col` bytes: the one whose error is logged, an
uncorrectable one before a poisoned one (R361, R362). -/
def firstBad (e : Tab Ecc) (col : Nat) (bad : List Nat) : List Nat :=
  ((bad.map fun w => 8 * w / col).eraseDups).filterMap fun k =>
    let here := bad.filter fun w => 8 * w / col == k
    (here.find? fun w => Tab.look (fun _ => Ecc.good) e w == .double).orElse fun _ => here.head?

/-- Log the records of uncorrectable codewords (R361, R362). -/
def State.logBad (s : State) (e : Tab Ecc) (who : Acc) : List Nat → State
  | [] => s
  | w :: r =>
    let d := stackOf (8 * w)
    let det := if Tab.look (fun _ => Ecc.good) e w == .poisoned then 3 else 1
    (s.log ⟨9, 0x600 + det, unitStack d, who.isB, who.isA, localOf (8 * w), 0⟩).logBad e who r

/-- What a read or a read-modify-write of codewords reports. -/
def State.eccReport (s : State) (who : Acc) (col : Nat) (bad fixed : List Nat) : State :=
  ((s.countFixed who.isB fixed).countBad bad).logBad s.memEcc who (firstBad s.memEcc col bad)

/-- Read `n` bytes of device memory from offset `off`, in blocks of `col` bytes: the bytes,
those of uncorrectable codewords as 0, and the reports. Nothing is rewritten (R360). -/
def State.memRead (s : State) (who : Acc) (col off n : Nat) : RamRead × State :=
  let r := ramRead s.mem s.memEcc 8 off n
  (r, s.eccReport who col r.bad r.fixed)

/-- Write bytes of device memory; a codeword covered in part is read first (R777). -/
def State.memWrite (s : State) (who : Acc) (off : Nat) (l : List Byte) : State :=
  let p := partialWords 8 off l.length
  let bad := p.filter fun w => (Tab.look (fun _ => Ecc.good) s.memEcc w).bad
  let fixed := p.filter fun w => Tab.look (fun _ => Ecc.good) s.memEcc w == .single
  let s1 := s.eccReport who 256 bad fixed
  { s1 with
    mem := Tab.putList (fun _ => 0) s1.mem off l
    memEcc := eccWritten s1.memEcc 8 off l.length }

/-- Write bytes, every codeword that they touch poisoned (R362). -/
def State.memPoison (s : State) (who : Acc) (off : Nat) (l : List Byte) : State :=
  let s1 := s.memWrite who off l
  { s1 with memEcc := eccPoison s1.memEcc (codewords 8 off l.length) }

/-- Write bytes, poisoned or not. -/
def State.memPut (s : State) (who : Acc) (off : Nat) (l : List Byte) (poison : Bool) : State :=
  if poison then s.memPoison who off l else s.memWrite who off l

/-! ### Isolation (R399) -/

/-- Whether a GiB is granted to job slot B. -/
def State.granted (s : State) (g : Nat) : Bool :=
  decide (g < 512) && (s.rd (rXltBmap (g / 32))).getLsbD (g % 32)

/-- The GiB that a range of offsets touches. -/
def gibs (off n : Nat) : List Nat :=
  if n = 0 then []
  else (List.range ((off + n - 1) / 2 ^ 30 - off / 2 ^ 30 + 1)).map (off / 2 ^ 30 + ·)

/-- Whether an access of job slot B, or of another requester, may resolve to a range. -/
def State.isoOk (s : State) (b : Bool) (off n : Nat) : Bool :=
  (gibs off n).all fun g => s.granted g == b

/-! ### Chip numbers (R394-R396) -/

/-- The global address of an offset of this device, for an error record. -/
def State.globalAddr (s : State) (off : Nat) : Nat :=
  ((s.logChip.getD s.physChip) % 65536) * 2 ^ 48 + off % 2 ^ 48

/-! ### Faults (R443) -/

/-- A translation or protection fault: its class and its detail. -/
structure XFault where
  xlt : Bool
  detail : Nat
  deriving DecidableEq, Repr

/-- NOTPRESENT. -/
def XFault.notPresent : XFault := ⟨true, 1⟩
/-- BADPTE. -/
def XFault.badPte : XFault := ⟨true, 2⟩
/-- RANGE. -/
def XFault.range : XFault := ⟨true, 3⟩
/-- TABLE_ECC. -/
def XFault.tableEcc : XFault := ⟨true, 4⟩
/-- ACCESS. -/
def XFault.access : XFault := ⟨false, 5⟩
/-- ISOLATION. -/
def XFault.isolation : XFault := ⟨false, 6⟩
/-- WINMISS. -/
def XFault.winMiss : XFault := ⟨false, 7⟩
/-- CHIP_RANGE. -/
def XFault.chipRange : XFault := ⟨false, 8⟩

/-- The error class of a fault. -/
def XFault.cls (f : XFault) : Nat := if f.xlt then 2 else 3

/-- The record of a fault on a path that is not a core: the unit, the whole offset, and the
requester: 0 BAR2, 1 DMA, 2 remote, 3 endpoint, 4 command (R718). -/
def State.logFault (s : State) (f : XFault) (unit : Nat) (b incomp : Bool) (off req : Nat) : State :=
  s.log ⟨f.cls, f.detail, unit, b, incomp, s.globalAddr off, req⟩

/-! ### The page table (R401, R402) -/

/-- A leaf that a walk found: the page offset, its size, and its permissions. -/
structure Leaf where
  page : Nat
  big : Bool
  r : Bool
  w : Bool
  deriving DecidableEq, Repr

/-- What a walk gives. -/
inductive WalkRes | leaf (l : Leaf) | fault (f : XFault)
  deriving DecidableEq, Repr

/-- The physical offset of a job slot's level-1 table. -/
def State.tbase (s : State) (j : JobSlot) : Nat :=
  (s.rd64 (if j = .a then rXltTbaseaLo else rXltTbasebLo)).toNat

/-- The ADDR field of an entry, as an offset. -/
def pteAddr (e : Nat) : Nat := e / 2 ^ 12 % 2 ^ 36 * 2 ^ 12

/-- The bits of an entry reserved at every level, [11:4] and [63:48]. -/
def pteRsv (e : Nat) : Bool := e / 16 % 256 != 0 || e / 2 ^ 48 != 0

/-- A leaf entry of a page of `sz` bytes. -/
def pteLeaf (e sz : Nat) (big : Bool) : WalkRes :=
  if pteRsv e ∨ pteAddr e % sz ≠ 0 then .fault .badPte
  else if memTop ≤ pteAddr e then .fault .range
  else .leaf ⟨pteAddr e, big, e / 4 % 2 == 1, e / 8 % 2 == 1⟩

/-- Read one entry of a page table; none where it lies beyond memory. -/
def State.pte (s : State) (a : Nat) : Option RamRead × State :=
  if memTop < a + 8 then (none, s)
  else
    let r := s.memRead .other 256 a 8
    (some r.1, r.2)

/-- Where the level-1 entry of a virtual offset stands. -/
def State.topAt (s : State) (j : JobSlot) (va : Nat) : Nat := s.tbase j + 8 * (va % 2 ^ 48 / 2 ^ 30)

/-- Where the level-2 entry of a virtual offset stands in the table at `p`. -/
def lowAt (p va : Nat) : Nat := p + 8 * (va / 2 ^ 21 % 512)

/-- What a walk has come to: its end, or the level-2 table that it reads next. -/
inductive WalkTop | ends (w : WalkRes) | table (p : Nat)
  deriving DecidableEq, Repr

/-- What a level-1 entry says. -/
def topEntry (r : RamRead) : WalkTop :=
  let e := leNat r.bytes
  if r.bad ≠ [] then .ends (.fault .tableEcc)
  else if e % 2 = 0 then .ends (.fault .notPresent)
  else if e / 2 % 2 = 1 then .ends (pteLeaf e (2 ^ 30) true)
  else if pteRsv e ∨ e / 4 % 4 ≠ 0 then .ends (.fault .badPte)
  else if memTop ≤ pteAddr e then .ends (.fault .range)
  else .table (pteAddr e)

/-- What a level-2 entry says. -/
def lowEntry (r : RamRead) : WalkRes :=
  let e := leNat r.bytes
  if r.bad ≠ [] then .fault .tableEcc
  else if e % 2 = 0 then .fault .notPresent
  else if e / 2 % 2 = 0 then .fault .badPte
  else pteLeaf e (2 ^ 21) false

/-- The first step of a walk. -/
def State.walkTop (s : State) (j : JobSlot) (va : Nat) : WalkTop × State :=
  match s.pte (s.topAt j va) with
  | (none, s1) => (.ends (.fault .range), s1)
  | (some r, s1) => (topEntry r, s1)

/-- The second step of a walk, in the level-2 table at `p`. -/
def State.walkLow (s : State) (p va : Nat) : WalkRes × State :=
  match s.pte (lowAt p va) with
  | (none, s1) => (.fault .range, s1)
  | (some r, s1) => (lowEntry r, s1)

/-- A walk of a job slot's page table for a virtual offset. -/
def State.walk (s : State) (j : JobSlot) (va : Nat) : WalkRes × State :=
  match s.walkTop j va with
  | (.ends w, s1) => (w, s1)
  | (.table p, s1) => s1.walkLow p va

/-- The bytes of a leaf's page. -/
def Leaf.size (l : Leaf) : Nat := if l.big then 2 ^ 30 else 2 ^ 21

/-- The physical offset of a virtual offset under a leaf. -/
def Leaf.phys (l : Leaf) (va : Nat) : Nat := l.page + va % l.size

/-! ### Translation windows (R405-R410) -/

/-- The windows of a job slot's image; none when the image has no XLTWIN section. -/
def State.windowsOf (s : State) (j : JobSlot) : Option (List WinCfg) := (s.image j).bind (·.xltwin)

/-- The bytes of a window's page. -/
def WinCfg.psize (w : WinCfg) : Nat := if w.big then 2 ^ 30 else 2 ^ 21

/-- The first image address of a window. -/
def WinCfg.base (w : WinCfg) : Nat := w.ipage * 2 ^ 21

/-- Whether a window covers an image address of its stack. -/
def WinCfg.covers (w : WinCfg) (d a : Nat) : Bool :=
  w.stack == d && decide (w.base ≤ a) && decide (a < w.base + w.npage * w.psize)

/-- The key of a window page. -/
def pageKey (j : JobSlot) (w p : Nat) : Nat := 2 ^ 24 * slotNat j + 2 ^ 16 * w + p

/-- A window page. -/
def State.winPage (s : State) (j : JobSlot) (w p : Nat) : WinPage :=
  Tab.look (fun _ => WinPage.reset) s.pages (pageKey j w p)

/-- Replace a window page. -/
def State.setWinPage (s : State) (j : JobSlot) (w p : Nat) (x : WinPage) : State :=
  { s with pages := Tab.put (fun _ => WinPage.reset) s.pages (pageKey j w p) x }

/-- What the translation of an image address gives: a physical offset, or a fault with the
virtual offset that it names. -/
inductive XRes | ok (off : Nat) | fault (f : XFault) (va : Nat)
  deriving DecidableEq, Repr

/-- The windows with their numbers. -/
def winIdx (l : List WinCfg) : List (Nat × WinCfg) := (List.range l.length).zip l

/-- Translate an image address of stack `d` for an endpoint or a command (R397, R399, R410);
`n` bytes are accessed, within one page. -/
def State.imgXlate (s : State) (j : JobSlot) (d a n : Nat) (write : Bool) : XRes :=
  match s.windowsOf j with
  | none =>
    if s.isoOk (j == .b) (d * stackBytes + a) n then .ok (d * stackBytes + a)
    else .fault .isolation (d * stackBytes + a)
  | some l =>
    match (winIdx l).find? fun w => w.2.covers d a with
    | none => .fault .winMiss a
    | some (i, w) =>
      let k := (a - w.base) / w.psize
      let va := w.vbase + (a - w.base)
      let p := s.winPage j i k
      if p.state = 1 then .fault .notPresent va
      else if p.state = 2 then .fault .isolation va
      else if write ∧ ¬ (p.w ∧ w.w) ∨ ¬ write ∧ ¬ (p.r ∧ w.r) then .fault .access va
      else
        let off := p.phys.toNat + (a - w.base) % w.psize
        if s.isoOk (j == .b) off n then .ok off else .fault .isolation va

/-- The state of a window page after a walk for it (R407): the virtual offset of the page. -/
def State.pageState (s : State) (j : JobSlot) (w : WinCfg) (k : Nat) : WinPage × State :=
  match s.walk j (w.vbase + k * w.psize) with
  | (.fault _, s1) => (⟨1, 0, false, false⟩, s1)
  | (.leaf l, s1) =>
    if w.big ∧ ¬ l.big then (⟨1, 0, false, false⟩, s1)
    else
      let ph := l.phys (w.vbase + k * w.psize)
      if stackOf ph ≠ w.stack ∨ ¬ s1.isoOk (j == .b) ph w.psize then (⟨2, 0, false, false⟩, s1)
      else (⟨0, BitVec.ofNat 64 ph, l.r, l.w⟩, s1)

/-- The field of XLT_WMISS of a job slot. -/
def fWmiss (j : JobSlot) : Fld := if j = .a then fXltWmissA else fXltWmissB

/-- The window pages of a job slot that are not PRESENT. -/
def State.missPages (s : State) (j : JobSlot) : Nat :=
  sumNat ((winIdx ((s.windowsOf j).getD [])).map fun w =>
    w.2.npage - (Tab.window s.pages (pageKey j w.1 0) w.2.npage).countP fun e => e.2.state == 0)

/-- Give a window page its state, and count the pages not PRESENT. -/
def State.putPage (s : State) (j : JobSlot) (w p : Nat) (x : WinPage) : State :=
  let s1 := s.setWinPage j w p x
  s1.setF (fWmiss j) (s1.missPages j)

/-- A refill of one window page (R409). -/
def State.refill (s : State) (j : JobSlot) (w : Nat) (cf : WinCfg) (p : Nat) : State :=
  let r := s.pageState j cf p
  r.2.putPage j w p r.1

/-! ### Exceptions of another path -/

/-- Make an asynchronous exception pending in a core's context of a job slot: in the core
when that context is resident, else in its saved record (R208, R439, R440); `bit` is its bit
of the record's PENDING byte. A context whose area is EMPTY has no record: the exception waits
beside it until the context is first switched in. -/
def State.pendIn (s : State) (c : Nat) (j : JobSlot) (bit : Nat) (f : PendExc → PendExc) : State :=
  let x := s.core c
  if x.slot = j ∧ ¬ x.bare then s.setCore c { x with pend := f x.pend }
  else if (if j = .a then x.emptyA else x.emptyB) then
    let k (o : Option KeptCtx) : Option KeptCtx :=
      some ⟨Quad.reset, f ((o.map (·.pend)).getD PendExc.none)⟩
    s.setCore c (if j = .a then { x with keptA := k x.keptA } else { x with keptB := k x.keptB })
  else
    let a := csaSeq j + 7
    let b := Tab.look (fun _ => (0 : Byte)) x.spad a
    let up (k : Option KeptCtx) : Option KeptCtx := k.map fun k => { k with pend := f k.pend }
    (s.setCore c (if j = .a then { x with keptA := up x.keptA } else { x with keptB := up x.keptB })).spadWrite
      c a [b ||| BitVec.ofNat 8 (2 ^ bit)]

end Sys2Proof.Machine
end

