-- ==== Sys2Proof/Machine/Streams.lean ====
section
/-! DEFINITION. Streams: words that leave a source, arrive at a destination and are taken
there, credits, statistic taps, scratchpad sinks, plain staging regions, and the completion
collectors with the device reporter (R169-R172, R261-R303, R344, R516, R682, R683). -/

namespace Sys2Proof.Machine

open Sys2Proof

/-! ### Statistic taps (R169-R171) -/

/-- The formats, as words per tile, that a TILE token of `n` words may have (R266). -/
def tokenForms (n : Nat) : List Nat :=
  [2, 4, 8, 16].filter fun t => [1, 2, 3, 4].any fun m => m * t + 1 == n

/-- The words per tile of a token: as its producer gives it, or as its length alone tells;
`none` when two formats have that length. -/
def tokenTw (ws : List SWord) : Option Nat :=
  match (ws.map (·.tw)).find? (· ≠ 0) with
  | some t => some t
  | none => match tokenForms ws.length with
    | [t] => some t
    | _ => none

/-- The bits of a mantissa whose tile takes `t` words. -/
def twWidth (t : Nat) : Nat := 2 * t

/-- What one element adds to a tap (R169). -/
def tapAdd (m s st : Int) : Int :=
  if 0 ≤ 2 * s - st then shl (m * m) (2 * s - st).toNat else rneShr (m * m) (st - 2 * s).toNat

/-- Fold elements into a tap accumulator: its value and the saturation events. -/
def tapFold (s st : Int) : Int × Nat → List Int → Int × Nat
  | a, [] => a
  | a, m :: r =>
    let v := ovfw (a.1 + tapAdd m s st) 64 false
    tapFold s st (v.1, a.2 + if v.2 then 1 else 0) r

/-- Fold the tiles of a token, each with its scale (R266); a tile with a word marked INVALID, or
whose scale word is so marked, is not folded (R169). -/
def tapTiles (t : Nat) (st : Int) (ws : List SWord) : Int × Nat → List Nat → Int × Nat
  | a, [] => a
  | a, j :: r =>
    let tw := (ws.drop (j * t)).take t
    let b := tw.flatMap fun w => Payload.bytes w.data
    let inv := tw.any (·.invalid) || (ws.getLast?.map (·.invalid)).getD false
    let sc := toS 8 (((ws.getLast?.map SWord.data).getD 0).extractLsb' (8 * j) 8).toNat
    tapTiles t st ws (if inv then a else tapFold sc st a (unpackMant (twWidth t) b)) r

/-- A tap sees a whole token: it folds the tiles of a TILE token that is not poisoned, and a
LAYER tap writes its entry at a layer end of a token of either kind (R169, R170). A token whose
format nothing tells leaves a free value in the accumulator. -/
def State.tapToken (s : State) (c t : Nat) (cf : TapCfg) (tile : Bool) (ws : List SWord) : State :=
  let x := s.core c
  let tp := x.tap t
  let clean := tile && !(ws.any fun w => w.poison) && !(tokenForms ws.length).isEmpty
  let s1 :=
    if !clean then s
    else match tokenTw ws with
      | some n =>
        let v := tapTiles n cf.scale ws (tp.acc.toInt, 0) (List.range ((ws.length - 1) / n))
        s.setCore c ((x.vsat v.2).setTap t { tp with acc := BitVec.ofInt 64 v.1 })
      | none => (s.takeFree.2).modCore c fun y => y.setTap t { tp with acc := s.takeFree.1 }
  if cf.layerMode ∧ (ws.getLast?.map SWord.lend).getD false = true then
    let tp1 := (s1.core c).tap t
    (s1.modCore c fun y => y.setTap t ⟨0, tp1.layer + 1⟩).spadWrite c
      (cf.table + 16 * tp1.layer.toNat) (leBytes 8 tp1.acc.toNat ++ leInt 2 cf.scale ++ leBytes 6 0)
  else s1

/-- The taps of the resident context that watch a port. -/
def CoreSt.tapsAt (x : CoreSt) (p : Nat) (out : Bool) : List (Nat × TapCfg) :=
  match x.cfg with
  | none => []
  | some cf => (List.range 8).filterMap fun t => (cf.taps[t]?).bind fun v =>
      if v.en ∧ x.tapen t ∧ v.port = p ∧ v.out = out then some (t, v) else none

/-- Every tap of a list sees a token. -/
def State.tapAll (s : State) (c : Nat) (tile : Bool) (ws : List SWord) : List (Nat × TapCfg) → State
  | [] => s
  | t :: r => (s.tapToken c t.1 t.2 tile ws).tapAll c tile ws r

/-- A word passes a port of a core: the taps of the context that owns the route gather the words
of a TILE token, and see the end of a RAW one (R169, R170). -/
def State.tapWord (s : State) (j : JobSlot) (c p : Nat) (out tile : Bool) (w : SWord) : State :=
  let x := s.core c
  let ts := x.tapsAt p out
  if ts.isEmpty ∨ x.slot ≠ j then s
  else
    let ws := if tile then (x.port p).tapWords ++ [w] else [w]
    if w.last then
      (s.setCore c (x.setPort p { x.port p with tapWords := [] })).tapAll c tile ws ts
    else if tile then s.setCore c (x.setPort p { x.port p with tapWords := ws })
    else s

/-! ### Plain staging regions (R315, R318, R777) -/

/-- A staging region of a job slot's image. -/
def State.stagingCfg (s : State) (j : JobSlot) (n : Nat) : Option StagingCfg :=
  (s.image j).bind fun i => i.staging[n]?

/-- The record of a plain region. -/
def State.region (s : State) (j : JobSlot) (n : Nat) : RegionSt :=
  Tab.look (fun _ => RegionSt.reset) s.regions (1024 * slotNat j + n)

/-- Replace the record of a plain region. -/
def State.setRegion (s : State) (j : JobSlot) (n : Nat) (x : RegionSt) : State :=
  { s with regions := Tab.ins s.regions (1024 * slotNat j + n) x }

/-- The first byte of a region in the staging memory of all clusters. -/
def StagingCfg.addr (r : StagingCfg) : Nat := r.cluster * 0x800000 + r.offset

/-- Words that a region holds. -/
def StagingCfg.words (r : StagingCfg) : Nat := r.length / 256

/-- Count correctable errors of staging words. -/
def State.corrStg (s : State) (b : Bool) : List Nat → State
  | [] => s
  | w :: r => (s.countCorr 5 (unitCluster (4 * w / 0x800000)) (4 * w % 0x800000) b).corrStg b r

/-- Log uncorrectable staging words. -/
def State.logStg (s : State) (j : JobSlot) : List Nat → State
  | [] => s
  | w :: r =>
    (s.log ⟨9, 0x501, unitCluster (4 * w / 0x800000), j == .b, j == .a, 4 * w % 0x800000, 0⟩).logStg j r

/-- Write bytes into the staging memory. -/
def State.stgWrite (s : State) (a : Nat) (l : List Byte) : State :=
  { s with staging := Tab.putList (fun _ => 0) s.staging a l, stgEcc := eccWritten s.stgEcc 4 a l.length }

/-- Read bytes of the staging memory for a job slot, corrected and counted, with whether some are
uncorrectable. -/
def State.stgRead (s : State) (j : JobSlot) (a n : Nat) : (List Byte × Bool) × State :=
  let rd := ramRead s.staging s.stgEcc 4 a n
  let s0 : State := { s with stgEcc := eccFixed s.stgEcc rd.fixed }
  ((rd.bytes, !rd.bad.isEmpty), (s0.corrStg (j == JobSlot.b) rd.fixed).logStg j rd.bad)

/-- Put a word into a plain region: its payload into the staging memory, its sideband and its
place into the region's record. -/
def State.regionPut (s : State) (j : JobSlot) (n : Nat) (r : StagingCfg) (w : SWord) : State :=
  let g := s.region j n
  (s.setRegion j n
    { held := g.held ++ [(g.wr, { w with data := 0 })], wr := (g.wr + 1) % max 1 r.words }).stgWrite
      (r.addr + 256 * g.wr) (Payload.bytes w.data)

/-- A word whose payload stands in a staging region, taken from there; uncorrectable data marks it POISON
(R265). -/
def State.regionWord (s : State) (j : JobSlot) (r : StagingCfg) (k : Nat) (w : SWord) : SWord × State :=
  let rd := s.stgRead j (r.addr + 256 * k) 256
  ({ w with data := Payload.ofBytes rd.1.1, poison := w.poison || rd.1.2 }, rd.2)

/-- Take the oldest word of a plain region; uncorrectable data marks it POISON (R265). -/
def State.regionGet (s : State) (j : JobSlot) (n : Nat) (r : StagingCfg) : Option SWord × State :=
  let g := s.region j n
  match g.held with
  | [] => (none, s)
  | (k, w) :: t =>
    let x := (s.setRegion j n { g with held := t }).regionWord j r k w
    (some x.1, x.2)

/-! ### A word leaves its source (R269, R275, R277, R505, R516) -/

/-- The job slot's image holds a core: the section of that slot. -/
def CoreSt.cfgOf (x : CoreSt) (j : JobSlot) : Option CoreCfg := if j = .a then x.cfgA else x.cfgB

/-- Whether a section binds a port outgoing to a route, in some plane. -/
def CoreCfg.sends (c : CoreCfg) (p r : Nat) : Bool :=
  (List.range 4).any fun q => ((c.binds[32 * q + p]?).map fun b =>
    b.user != 0 && b.out && b.route == r).getD false

/-- The landing channel whose words a route takes, with its number (R505). -/
def State.chanOf (s : State) (r p : Nat) : Option Nat :=
  match s.fabApplied with
  | none => none
  | some f => f.chans.findIdx? fun c => c.route == r && c.port == p

/-- The INVALID word that stands for a debt or for data that never came (R514, R516). -/
def SWord.bad (last : Bool) : SWord := ⟨0, last, false, false, true, 0⟩

/-- The depth of a landing channel. -/
def State.chanDepth (s : State) (n : Nat) : Nat :=
  ((s.fabApplied.bind fun f => f.chans[n]?).map (·.depth)).getD 0

/-- A place of a landing channel is free: it holds one INVALID word for a debt (R516). -/
def ChanSt.refillDebt (x : ChanSt) (depth : Nat) : ChanSt :=
  if 0 < x.debts ∧ x.words.length < depth then
    { x with words := x.words ++ [SWord.bad false], debts := x.debts - 1 }
  else x

/-- Take the next word that is ready at the source of a route. -/
def State.sourceWord (s : State) (j : JobSlot) (r : Nat) (cf : RouteCfg) : Option SWord × State :=
  match epKind cf.src with
  | 0 =>
    let c := epIdx cf.src / 32
    let p := epIdx cf.src % 32
    let x := s.core c
    match (x.port p).queue with
    | w :: t =>
      if w.1 = r ∧ ¬ (x.port p).fault ∧ ((x.cfgOf j).map fun k => k.sends p r).getD false then
        (some w.2, (s.setCore c (x.setPort p { x.port p with queue := t })).tapWord j c p true cf.tile w.2)
      else (none, s)
    | [] => (none, s)
  | 1 =>
    let d := epIdx cf.src / 240
    let n := epIdx cf.src % 240
    match (s.ep j d n).buf with
    | w :: t => (some w, s.setEp j d n { s.ep j d n with buf := t })
    | [] => (none, s)
  | 2 =>
    match s.stagingCfg j (epIdx cf.src) with
    | some g =>
      if g.owner = 0 then s.regionGet j (epIdx cf.src) g
      else match (s.route j r).src with
        | (k, w) :: t =>
          let s1 := s.setRoute j r { s.route j r with src := t }
          match g.owner, k with
          | 2, some k =>
            let x := s1.regionWord j g k w
            (some x.1, x.2)
          | _, _ => (some w, s1)
        | [] => (none, s)
    | none => (none, s)
  | _ =>
    match s.chanOf r (epIdx cf.src) with
    | none => (none, s)
    | some n =>
      match (s.landing n).words with
      | w :: t => (some w, s.setLanding n (({ s.landing n with words := t } : ChanSt).refillDebt (s.chanDepth n)))
      | [] => (none, s)

/-- A word leaves its source in an offset of its route, while the source holds a credit. -/
def State.routeSend (s : State) (j : JobSlot) (r o : Nat) : State :=
  match s.routeCfg j r with
  | none => s
  | some cf =>
    if !cf.offs.getLsbD o || (s.route j r).credits == 0 then s
    else match s.sourceWord j r cf with
      | (none, _) => s
      | (some w, s1) => s1.setRoute j r { s1.route j r with
          credits := (s1.route j r).credits - 1, flight := (s1.route j r).flight ++ [w] }

/-! ### A word arrives (R270, R280, R315, R344, R512, R553) -/

/-- Push a word to an incoming port, or discard it where a forced switch cut its token. -/
def State.portArrive (s : State) (j : JobSlot) (c p r : Nat) (tile : Bool) (w : SWord) : State :=
  let x := s.core c
  let q := x.port p
  if q.discard then
    let s1 := ((s.setCore c (x.setPort p { q with discard := !w.last })).bump rImgForcecnt 1).creditBack j r
    if j = .a then s1.setIncomp else s1
  else (s.setCore c (x.setPort p { q with queue := q.queue ++ [(r, w)] })).tapWord j c p false tile w

/-- The collectives of job slot A's image that take their words from a route: as INROUTE, or
from a landing channel of one of their links. -/
def State.collsOn (s : State) (r : Nat) : List Nat :=
  match s.imgA.bind (·.herd) with
  | none => []
  | some h => (List.range h.colls.length).filter fun k =>
      match h.colls[k]? with
      | none => false
      | some cf => cf.inroute == r || ((h.links.drop cf.linkbase).take cf.nlink).any fun l =>
          ((s.fabApplied.bind fun f => f.chans[l.chan]?).map (·.route)) == some r

/-- A word reaches a staging region: a plain one keeps it; a collective with no instance
discards it (R553); otherwise it waits for its unit. -/
def State.stageArrive (s : State) (j : JobSlot) (n r : Nat) (w : SWord) : State :=
  match s.stagingCfg j n with
  | none => s
  | some g =>
    if g.owner = 0 then (s.regionPut j n g w).creditBack j r
    else if g.owner = 1 ∧ ¬ ((s.collsOn r).any fun k => s.bitF (fHrdCollActive k)) then
      (s.bump rHrdStale 1).creditBack j r
    else s.setRoute j r { s.route j r with dst := (s.route j r).dst ++ [w] }

/-- A word reaches an engine: it waits for its frame, or is discarded where a short
allocation is owed it (R512). -/
def State.engineArrive (s : State) (j : JobSlot) (p r : Nat) (w : SWord) : State :=
  let x := s.port p
  let k := routeKey j r
  let owe := Tab.look (fun _ => 0) x.owed k
  if 0 < owe then
    ((s.setPort p { x with owed := Tab.put (fun _ => 0) x.owed k (owe - 1) }).bumpF
      (fFabPdropTxwords p) 1).creditBack j r
  else s.setPort p { x with
    delivered := Tab.put (fun _ => []) x.delivered k (Tab.look (fun _ => []) x.delivered k ++ [w]) }

/-- Whether the save unit reads a piece by a route (R618). -/
def State.savReads (s : State) (r : Nat) : Bool :=
  match s.sav.clutch with
  | none => false
  | some c => (List.range c.plan.length).any fun i =>
      (c.plan[i]?.map (·.route)) == some r && ((Tab.look (fun _ => ⟨0, none, false, [], []⟩) c.pieces i).phase == 1)

/-- A word reaches a block that is no engine: the save port keeps it for the read in progress,
or discards it as a word of an abandoned read (R619); from the host port it leaves the device. -/
def State.blockArrive (s : State) (j : JobSlot) (b r : Nat) (w : SWord) : State :=
  let left := Tab.look (fun _ => 0) s.sav.stale r
  let s1 := s.creditBack j r
  if j = .a ∧ b = 20 ∧ 0 < left then
    { s1 with sav := { s1.sav with stale := Tab.put (fun _ => 0) s1.sav.stale r (left - 1) } }
  else if j = .a ∧ b = 20 ∧ s.savReads r = true then
    s1.setRoute j r { s1.route j r with dst := (s1.route j r).dst ++ [w] }
  else s1.emit (.stream b w)

/-- The oldest word in flight reaches the route's destination (R275, R315). -/
def State.routeArrive (s : State) (j : JobSlot) (r : Nat) : State :=
  match s.routeCfg j r, (s.route j r).flight with
  | some cf, w :: t =>
    let s1 := s.setRoute j r { s.route j r with flight := t }
    match epKind cf.dst with
    | 0 => s1.portArrive j (epIdx cf.dst / 32) (epIdx cf.dst % 32) r cf.tile w
    | 1 =>
      let d := epIdx cf.dst / 240
      let n := epIdx cf.dst % 240
      s1.setEp j d n { s1.ep j d n with buf := (s1.ep j d n).buf ++ [w] }
    | 2 => s1.stageArrive j (epIdx cf.dst) r w
    | 3 =>
      let c := epIdx cf.dst / 4
      let k := epIdx cf.dst % 4
      s1.setSink j c k { s1.sink j c k with buf := (s1.sink j c k).buf ++ [(r, w)] }
    | _ =>
      if epIdx cf.dst < 19 then s1.engineArrive j (epIdx cf.dst) r w
      else s1.blockArrive j (epIdx cf.dst) r w
  | _, _ => s

/-- A credit reaches the source (R277). -/
def State.creditArrive (s : State) (j : JobSlot) (r : Nat) : State :=
  let x := s.route j r
  if x.creditsBack = 0 then s
  else s.setRoute j r { x with credits := x.credits + 1, creditsBack := x.creditsBack - 1 }

/-! ### Scratchpad sinks (R270, R274, R434) -/

/-- A sink's declaration in a job slot's image. -/
def State.sinkCfg (s : State) (j : JobSlot) (c k : Nat) : Option SinkCfg :=
  (((s.core c).cfgOf j).bind fun cf => cf.sinks[k]?).filter (·.en)

/-- Log a PROT of a sink with detail 0x0101, and set the incomplete bit for job slot A. -/
def State.sinkErr (s : State) (j : JobSlot) (c a : Nat) : State :=
  s.log ⟨3, 0x0101, unitCore c, j == .b, j == .a, a, (s.core c).pc.toNat⟩

/-- A sink writes bytes, or drops them outside the slot's ranges (R270), which also raises a PROT in its
core's context (R434, log entry 78). -/
def State.sinkPut (s : State) (j : JobSlot) (c a : Nat) (l : List Byte) : State :=
  if s.spadOk j c a l.length then s.spadWrite c a l
  else (s.sinkErr j c a).pendIn c j 2 fun q => q.addProt (0x0101, BitVec.ofNat 64 a)

/-- A word of a TILE token: word number `i` of the token, `t` words per tile. -/
def State.sinkTile (s : State) (j : JobSlot) (c k : Nat) (cf : SinkCfg) (w : SWord) : State :=
  let x := s.sink j c k
  let t := fmtBytes cf.fmt / 256
  let i := x.words
  let m := i / t
  if x.discard then s.setSink j c k { x with discard := !w.last }
  else if w.last then
    let s1 := s.setSink j c k { x with words := 0 }
    if i % t = 0 ∧ 1 ≤ m ∧ m ≤ 4 then
      (s1.setSink j c k { x with words := 0, tiles := x.tiles + m }).sinkPut j c (cf.sbase + x.tiles)
        ((Payload.bytes w.data).take m)
    else s1.sinkErr j c (cf.mbase + 256 * (x.tiles * t + i))
  else
    let s1 := s.sinkPut j c (cf.mbase + 256 * (x.tiles * t + i)) (Payload.bytes w.data)
    if i < 4 * t then s1.setSink j c k { x with words := i + 1 }
    else (s1.setSink j c k { x with words := 0, discard := true }).sinkErr j c
      (cf.mbase + 256 * (x.tiles * t + i))

/-- A sink of a job slot takes the front word of its buffer. -/
def State.sinkTake (s : State) (j : JobSlot) (c k : Nat) : State :=
  let x := s.sink j c k
  match x.buf, s.sinkCfg j c k with
  | (r, w) :: t, some cf =>
    let s1 := (s.setSink j c k { x with buf := t }).creditBack j r
    if ((s.routeCfg j r).map (·.tile)).getD false then s1.sinkTile j c k cf w
    else (s1.setSink j c k { x with buf := t, raw := x.raw + 256 }).sinkPut j c (cf.mbase + x.raw)
      (Payload.bytes w.data)
  | _, _ => s

/-- A sink writes the next word that has arrived: job slot A's first (log entry 12). -/
def State.sinkWrite (s : State) (c k : Nat) : State :=
  if (s.sink .a c k).buf.isEmpty then s.sinkTake .b c k else s.sinkTake .a c k

/-! ### The completion collectors and the reporter (R299-R303, R682, R683) -/

/-- The bytes of a completion entry (R302). -/
def CmpEntry.bytes (e : CmpEntry) : List Byte :=
  leBytes 2 e.core ++ [e.code, BitVec.ofNat 8 (bitNat e.slotb 1 + bitNat e.drop 2)]
    ++ leBytes 4 e.step.toNat ++ leBytes 8 e.ftime.toNat

/-- The cores of a die in the order in which its collector serves them. -/
def collOrder (die start : Nat) : List Nat :=
  (List.range 128).map fun i => 128 * die + (start + i) % 128

/-- Take the front completion of each of some cores. -/
def State.takeFrom (s : State) (die : Nat) : List Nat → State
  | [] => s
  | c :: r =>
    let x := s.core c
    match x.fifo with
    | [] => s.takeFrom die r
    | e :: t =>
      let d := s.dieColl die
      ((s.setCore c { x with fifo := t }).setDieColl die
        { d with queue := d.queue ++ [e], start := (c + 1) % 128 }).takeFrom die r

/-- A die's collector takes completions for one cy (R299). -/
def State.collect (s : State) (die : Nat) : State :=
  let d := s.dieColl die
  let cs := (collOrder die d.start).filter fun c => !(s.core c).fifo.isEmpty
  let s1 := s.takeFrom die (cs.take (min 8 (256 - d.queue.length)))
  if ((List.range 128).all fun i => (s1.core (128 * die + i)).fifo.isEmpty) then
    s1.setDieColl die { s1.dieColl die with start := 0 }
  else s1

/-- BAR4 offsets of the completion ring (R677). -/
def rCringBase : Nat := 0x2000
/-- CRING_SIZE. -/
def rCringSize : Nat := 0x2008
/-- CRING_CTL. -/
def rCringCtl : Nat := 0x200C
/-- CRING_HEAD. -/
def rCringHead : Nat := 0x2010
/-- CRING_TAIL. -/
def rCringTail : Nat := 0x2014

/-- The entries of a function's ring. -/
def State.cringLen (s : State) (fn : Func) : Nat := 2 ^ ((s.rd4 fn rCringSize).toNat % 32)

/-- Whether a function's completion ring is full; a disabled ring counts as full (R683). -/
def State.cringFull (s : State) (fn : Func) : Bool :=
  !(s.rd4 fn rCringCtl).getLsbD 0
    || ((s.rd4 fn rCringTail).toNat + 1) % s.cringLen fn == (s.rd4 fn rCringHead).toNat

/-- The function of an entry's job slot. -/
def CmpEntry.fn (e : CmpEntry) : Func := if e.slotb then 1 else 0

/-- Write an entry to its ring, advance TAIL and signal vector 1 (R683). -/
def State.cringWrite (s : State) (e : CmpEntry) : State :=
  let fn := e.fn
  let t := (s.rd4 fn rCringTail).toNat
  let base := s.rd4 fn (rCringBase + 4) ++ s.rd4 fn rCringBase
  (((s.emit (.hostWrite (base + BitVec.ofNat 64 (16 * t)) e.bytes false)).wr4 fn rCringTail
    (BitVec.ofNat 32 ((t + 1) % s.cringLen fn)))).msix fn 1

/-- Report entries of a die's queue in order, at most `n`, until a ring is full. -/
def State.report (s : State) (die : Nat) : Nat → State
  | 0 => s
  | n + 1 =>
    match (s.dieColl die).queue with
    | [] => s
    | e :: t =>
      if s.cringFull e.fn then { s with reporter := { s.reporter with held := true } }
      else ((s.setDieColl die { s.dieColl die with queue := t }).cringWrite e).report die n

/-- One cy of the device reporter (R300, R301). -/
def State.reportCy (s : State) : State :=
  let r := s.reporter
  let cur := if r.side then 1 else 0
  let has := !(s.dieColl cur).queue.isEmpty
  let oth := !(s.dieColl (1 - cur)).queue.isEmpty
  if oth ∧ (¬ has ∨ 16 ≤ r.used ∨ (r.idle ∧ r.side)) then
    { s with reporter := ⟨!r.side, false, 0, false⟩ }
  else if ¬ has then { s with reporter := ⟨r.side, false, 0, true⟩ }
  else ({ s with reporter := ⟨r.side, false, if oth then r.used + 1 else 0, false⟩ }).report cur 8

end Sys2Proof.Machine
end

