-- ==== Sys2Proof/Machine/Stacks.lean ====
section
/-! DEFINITION. A memory slot of a stack: the bank schedule, the walks of the stack
endpoints with their faults, and the background classes (R281, R282, R285-R289, R354-R358,
R363, R387-R391, R410-R413). -/

namespace Sys2Proof.Machine

open Sys2Proof

/-! ### The walk of an endpoint (R356-R358) -/

/-- Whether an endpoint's tokens are TILE tokens. -/
def EpCfg.tile (e : EpCfg) : Bool := e.kind.getLsbD 0
/-- m, the tiles of a token. -/
def EpCfg.m (e : EpCfg) : Nat := (e.kind.extractLsb' 1 2).toNat + 1
/-- t, the words of a tile. -/
def EpCfg.t (e : EpCfg) : Nat := 2 * 2 ^ (e.kind.extractLsb' 3 2).toNat
/-- Whether the scale plane is engine-striped. -/
def EpCfg.striped (e : EpCfg) : Bool := e.kind.getLsbD 5

/-- The words of a walk. -/
def EpCfg.total (e : EpCfg) : Nat := e.cnt.foldl (· * ·) 1

/-- The scale accesses of a token. -/
def EpCfg.scales (e : EpCfg) : Nat := if e.striped then e.m else 1

/-- The accesses of a whole walk. -/
def EpCfg.accesses (e : EpCfg) : Nat :=
  if e.tile then e.total + e.total / (e.m * e.t) * e.scales else e.total

/-- The word address of mantissa or payload word `k` of the walk, i0 innermost. -/
def EpCfg.wordAt (e : EpCfg) (k : Nat) : Int :=
  let c (n : Nat) : Nat := e.cnt.getD n 1
  let s (n : Nat) : Int := e.str.getD n 0
  (e.base * 256 : Nat) + (k % c 0 : Nat) * s 0 + (k / c 0 % c 1 : Nat) * s 1
    + (k / (c 0 * c 1) % c 2 : Nat) * s 2 + (k / (c 0 * c 1 * c 2) : Nat) * s 3

/-- An access of a walk: a whole word, with its LAST mark for a reader; or bytes of a scale
word, with their place in the token's scale word and whether the token ends there. -/
inductive EpAcc
  | word (a : Int) (last : Bool)
  | scale (a : Int) (byte n place : Nat) (final : Bool)
  deriving DecidableEq, Repr

/-- The word address of an access. -/
def EpAcc.addr : EpAcc → Int
  | .word a _ => a
  | .scale a _ _ _ _ => a

/-- Whether an access sends a word, or takes the next one received. -/
def EpAcc.moves : EpAcc → Bool
  | .word _ _ => true
  | .scale _ _ _ _ final => final

/-- Scale access `i` of token `j`. -/
def EpCfg.scaleAt (e : EpCfg) (j i : Nat) : EpAcc :=
  let t0 := e.tfirst + j * e.m
  if e.striped then
    let a := Sys2Proof.Machine.striped (e.sbase * 256) ((t0 + i) % 64) ((t0 + i) / 64)
    .scale (a / 256 * 256 : Nat) (a % 256) 1 i (i + 1 == e.m)
  else
    .scale (e.sbase * 256 + t0 / 256 * 256 : Nat) (t0 % 256) (min e.m (256 - t0 % 256)) 0 true

/-- Access number `n` of a walk; none at its end. -/
def EpCfg.access (e : EpCfg) (n : Nat) : Option EpAcc :=
  if !e.tile then
    if n < e.total then some (.word (e.wordAt n) ((n + 1) % e.cnt.getD 0 1 == 0)) else none
  else
    let w := e.m * e.t
    let j := n / (w + e.scales)
    let r := n % (w + e.scales)
    if r < w then
      if j * w + r < e.total then some (.word (e.wordAt (j * w + r)) false) else none
    else some (e.scaleAt j (r - w))

/-! ### Faults of an endpoint (R282, R411-R413) -/

/-- The core port at the other end of an endpoint's route: core and port. -/
def State.farPort (s : State) (j : JobSlot) (e : EpCfg) : Option (Nat × Nat) :=
  match s.routeCfg j e.route with
  | none => none
  | some cf =>
    let code := if e.typ = 1 then cf.dst else cf.src
    if epKind code = 0 then some (epIdx code / 32, epIdx code % 32) else none

/-- Set or clear FAULT on the core port at the other end. -/
def State.setFar (s : State) (j : JobSlot) (e : EpCfg) (b : Bool) : State :=
  match s.farPort j e with
  | some (c, p) => s.modCore c fun x => x.setPort p { x.port p with fault := b }
  | none => s

/-- A held fault becomes an exception in the core at the other end, or the endpoint abandons
its walk where no core is there. -/
def State.raiseFault (s : State) (j : JobSlot) (d n : Nat) (e : EpCfg) : State :=
  let x := s.ep j d n
  match x.fault with
  | none => s
  | some f =>
    if f.raised then s
    else match s.farPort j e with
      | some (c, p) =>
        let s1 := (s.setEp j d n { x with fault := some { f with raised := true } }).logFault
          ⟨f.xlt, f.detail⟩ (unitStack d) (j == .b) false f.off.toNat 3
        if f.xlt then s1.pendIn c j 1 fun q => q.addXlt (p, f.off)
        else s1.pendIn c j 2 fun q => q.addProt (p, f.off)
      | none =>
        ((s.setEp j d n { x with fault := none, abandoned := true }).bump rXltAbandon
          (e.accesses - x.walk)).logFault ⟨f.xlt, f.detail⟩ (unitStack d) (j == .b) (j == .a)
          f.off.toNat 3

/-- An endpoint detects a fault at its next access: it holds; a PROT becomes an exception at
once (R411). -/
def State.epFault (s : State) (j : JobSlot) (d n : Nat) (e : EpCfg) (f : XFault) (va : Nat) : State :=
  let s1 := ((s.setEp j d n { s.ep j d n with
    fault := some ⟨f.xlt, f.detail, BitVec.ofNat 64 va, s.fab.time, false⟩ }).bumpF fXltFltcntWin 1).setFar
      j e true
  if f.xlt then s1 else s1.raiseFault j d n e

/-! ### Accesses in an owned slot -/

/-- A write of the slot, performed at its end (R288). -/
structure SlotWrite where
  who : Acc
  off : Nat
  bytes : List Byte
  poison : Bool
  deriving DecidableEq, Repr

/-- A reader performs an access at a physical offset (R281, R357, R358, R361). -/
def State.epRead (s : State) (j : JobSlot) (d n : Nat) (e : EpCfg) (a : EpAcc) (off : Nat) : State :=
  let r := s.memRead (Acc.ofSlot j) 256 off 256
  let x := r.2.ep j d n
  match a with
  | .word _ last =>
    r.2.setEp j d n { x with
      walk := x.walk + 1
      buf := x.buf ++ [⟨Payload.ofBytes r.1.bytes, last, false, !r.1.bad.isEmpty, false,
        if e.tile then e.t else 0⟩] }
  | .scale _ byte k place final =>
    let w := x.sword ||| BitVec.ofNat 2048 (leNat ((r.1.bytes.drop byte).take k) * 2 ^ (8 * place))
    let p := x.spois || !r.1.bad.isEmpty
    if final then
      r.2.setEp j d n { x with
        walk := x.walk + 1, sword := 0, spois := false
        buf := x.buf ++ [⟨w, true, false, p, false, e.t⟩] }
    else r.2.setEp j d n { x with walk := x.walk + 1, sword := w, spois := p }

/-- A writer performs an access with the front word of its buffer, at the end of the slot. -/
def State.epWrite (s : State) (j : JobSlot) (d n : Nat) (e : EpCfg) (a : EpAcc) (off : Nat) (w : SWord) :
    State × SlotWrite :=
  let x := s.ep j d n
  let s1 :=
    if a.moves then (s.setEp j d n { x with walk := x.walk + 1, buf := x.buf.drop 1 }).creditBack j e.route
    else s.setEp j d n { x with walk := x.walk + 1 }
  match a with
  | .word _ _ => (s1, ⟨Acc.ofSlot j, off, Payload.bytes w.data, w.poison⟩)
  | .scale _ byte k place _ =>
    (s1, ⟨Acc.ofSlot j, off + byte, ((Payload.bytes w.data).drop place).take k, w.poison⟩)

/-- Whether a reader's route has a credit beyond those for the words that it holds, without which it
performs no scheduled read, or a writer has a word (R281). -/
def State.epReady (s : State) (j : JobSlot) (d n : Nat) (e : EpCfg) : Bool :=
  if e.typ = 1 then decide ((s.ep j d n).buf.length < (s.route j e.route).credits)
  else !(s.ep j d n).buf.isEmpty

/-- The next accesses of an endpoint in a slot that it owns for group `g`, at most `k`. -/
def State.epAccesses (s : State) (j : JobSlot) (d n g : Nat) (e : EpCfg) : Nat → State × List SlotWrite
  | 0 => (s, [])
  | k + 1 =>
    let x := s.ep j d n
    match e.access x.walk with
    | none => (s, [])
    | some a =>
      if x.fault.isSome ∨ x.abandoned ∨ ¬ s.epReady j d n e then (s, [])
      else if a.addr < 0 ∨ (stackBytes : Int) ≤ a.addr then
        (s.epFault j d n e .winMiss (a.addr % 2 ^ 48).toNat, [])
      else if groupOf a.addr.toNat ≠ g then (s, [])
      else match s.imgXlate j d a.addr.toNat 256 (e.typ == 2) with
        | .fault f va => (s.epFault j d n e f va, [])
        | .ok off =>
          if e.typ = 1 then (s.epRead j d n e a off).epAccesses j d n g e k
          else
            match x.buf with
            | [] => (s, [])
            | w :: _ =>
              let r := s.epWrite j d n e a off w
              let t := r.1.epAccesses j d n g e k
              (t.1, r.2 :: t.2)

/-! ### The bank schedule (R285-R287, R345, R354) -/

/-- The schedule of a stack in the phase in force. -/
def State.schedOf (s : State) (j : JobSlot) (d : Nat) : Option BankSchedCfg :=
  (s.image j).bind fun i => i.scheds.find? fun b => b.stack == d && b.phase == s.getF fPwrOppointPhase

/-- The number of entries of the schedule in force; 16 under the default image (log entry 13). -/
def State.schedLen (s : State) (d : Nat) : Nat :=
  max 1 (((s.schedOf .a d).map (·.entries.length)).getD 16)

/-- The owner code of group `g` in the slot at index `k` of job slot A's schedule; under the
default image every group is BG but for one REFRESH in 16 slots (log entry 13). -/
def State.ownerA (s : State) (d g k : Nat) : Nat :=
  match s.schedOf .a d with
  | none => if k % 16 = g then 1 else 3
  | some b => ((b.entries.getD k 0).extractLsb' (8 * g) 8).toNat

/-- The owner code of group `g` in job slot B's schedule. -/
def State.ownerB (s : State) (d g k : Nat) : Nat :=
  match s.schedOf .b d with
  | none => 3
  | some b => ((b.entries.getD (k % max 1 b.entries.length) 0).extractLsb' (8 * g) 8).toNat

/-- Whether a bubble window is open. -/
def State.windowOpen (s : State) : Bool := !s.openWindows.isEmpty

/-- What a group does in a slot: nothing, a background class, the bank-engine commands of a job
slot, or an endpoint of it. -/
inductive SlotUse | none | bg | eng (j : JobSlot) | ep (j : JobSlot) (n : Nat)
  deriving DecidableEq, Repr

/-- What an owner code means in a job slot's schedule (R287); in job slot B's own, BANKENG and SLOTB
both name its bank-engine commands (log entry 76). -/
def useOf (j : JobSlot) (o : Nat) : SlotUse :=
  if 0x10 ≤ o then .ep j (o - 0x10)
  else if o = 3 then .bg
  else if o = 2 ∨ o = 4 then .eng j
  else .none

/-- What group `g` does in the slot at index `k`. -/
def State.slotUse (s : State) (d g k : Nat) : SlotUse :=
  if s.ownerA d g k = 4 then
    if s.windowOpen then useOf .b (s.ownerB d g k) else .bg
  else useOf .a (s.ownerA d g k)

/-! ### Background classes (R363, R388-R391) -/

/-- Whether a class has an access waiting in a group; SCRUB waits only while it is enabled. -/
def State.bgWaits (s : State) (waiting : BitVec 112) (c g : Nat) : Bool :=
  waiting.getLsbD (16 * c + g) && (c != 6 || s.bitF fMemCtlScruben)

/-- Whether a class has an access waiting in any group. -/
def State.bgAny (s : State) (waiting : BitVec 112) (c : Nat) : Bool :=
  (List.range 16).any (s.bgWaits waiting c)

/-- The level of a class, bits 2c+1:2c of MEM_BGLVLd. -/
def State.bgLevel (s : State) (d c : Nat) : Nat := s.getF (fMemBglvlLevel d) / 4 ^ c % 4

/-- Set the level of a class. -/
def State.setBgLevel (s : State) (d c v : Nat) : State :=
  let l := s.getF (fMemBglvlLevel d)
  s.setF (fMemBglvlLevel d) (l - l / 4 ^ c % 4 * 4 ^ c + v * 4 ^ c)

/-- The level that the commit deadline gives SAVE now (R391). -/
def State.saveBoost (s : State) : Nat :=
  let k := s.cal 61
  if !k.armed then 0
  else if k.next.toNat ≤ s.time + 32 * s.getF fMemSavedlUrgtk then 3
  else if k.next.toNat ≤ s.time + 32 * s.getF fMemSavedlHightk then 2
  else 0

/-- The level that an age gives a class. -/
def State.ageLevel (s : State) (c a : Nat) : Nat :=
  if a ≥ s.getF (fMemBgcfgAge3 c) then 3
  else if a ≥ s.getF (fMemBgcfgAge2 c) then 2
  else if a ≥ s.getF (fMemBgcfgAge1 c) then 1
  else 0

/-- SAVE's level is raised while its queue holds an access, and stays so until it is empty, when it
is again the one that its base and its age give; key 7 of the ages holds the level so reached. -/
def State.boostSave (s : State) (d : Nat) (waiting : BitVec 112) : State :=
  let x := s.stk d
  let old := Tab.look (fun _ => 0) x.ages 7
  let set (b l : Nat) : State :=
    (s.setStk d { x with ages := Tab.put (fun _ => 0) x.ages 7 b }).setBgLevel d 3 l
  if s.bgAny waiting 3 then
    let b := max old s.saveBoost
    set b (max b (s.bgLevel d 3))
  else if old = 0 then s
  else set 0 (max (s.getF (fMemBgcfgBase 3)) (s.ageLevel 3 (Tab.look (fun _ => 0) x.ages 3)))

/-- The class that a BG slot of a group serves. -/
def State.bgServes (s : State) (d : Nat) (waiting : BitVec 112) (g : Nat) : Option Nat :=
  let cs := (List.range 7).filter fun c => s.bgWaits waiting c g
  cs.find? fun c => cs.all fun c' => decide (s.bgLevel d c' ≤ s.bgLevel d c)

/-- The address of word number `i` of group `g` in the order of SCRUB. -/
def scrubAddr (g i : Nat) : Nat := i % 64 * 256 + g * 0x4000 + i / 64 * 0x40000

/-- SCRUB reads a word and rewrites it when it holds a single-bit error (R363). -/
def State.scrubWord (s : State) (off : Nat) : State :=
  let r := s.memRead .other 256 off 256
  { r.2 with memEcc := eccFixed r.2.memEcc r.1.fixed }

/-- SCRUB performs up to three accesses in a group. -/
def State.scrub (s : State) (d g : Nat) : Nat → State
  | 0 => s
  | k + 1 =>
    let x := s.stk d
    let i := Tab.look (fun _ => 0) x.scrub g
    ((s.setStk d { x with scrub := Tab.put (fun _ => 0) x.scrub g ((i + 1) % 2 ^ 24) }).scrubWord
      (d * stackBytes + scrubAddr g i)).scrub d g k

/-- A class after a memory slot: it returns to its base level when it performed an access, and
ages when it waited and performed none (R390). -/
def State.bgAge (s : State) (d : Nat) (waiting : BitVec 112) (served : List Nat) (c : Nat) : State :=
  let x := s.stk d
  let base := s.getF (fMemBgcfgBase c)
  let boost := if c = 3 then Tab.look (fun _ => 0) x.ages 7 else 0
  if served.contains c then
    (s.setStk d { x with ages := Tab.put (fun _ => 0) x.ages c 0 }).setBgLevel d c (max base boost)
  else if s.bgAny waiting c then
    let a := Tab.look (fun _ => 0) x.ages c + 1
    (s.setStk d { x with ages := Tab.put (fun _ => 0) x.ages c a }).setBgLevel d c
      (max (s.ageLevel c a) (s.bgLevel d c))
  else s

/-- Every class of a list after a memory slot. -/
def State.bgAges (s : State) (d : Nat) (waiting : BitVec 112) (served : List Nat) : List Nat → State
  | [] => s
  | c :: r => (s.bgAge d waiting served c).bgAges d waiting served r

/-! ### The memory slot -/

/-- What a slot leaves to be done at its end. -/
structure SlotEnd where
  writes : List SlotWrite
  served : List Nat
  deriving DecidableEq, Repr

/-- One group in a slot. -/
def State.slotGroup (s : State) (d k : Nat) (waiting : BitVec 112) (g : Nat) (e : SlotEnd) : State × SlotEnd :=
  match s.slotUse d g k with
  | .none => (s, e)
  | .eng _ => (s, e)
  | .bg =>
    match s.bgServes d waiting g with
    | none => (s, e)
    | some c => (if c = 6 then s.scrub d g 3 else s, { e with served := c :: e.served })
  | .ep j n =>
    match s.epCfg j d n with
    | none => (s, e)
    | some cf =>
      let r := s.epAccesses j d n g cf 3
      (r.1, { e with writes := e.writes ++ r.2 })

/-- The groups of a slot in turn. -/
def State.slotGroups (s : State) (d k : Nat) (waiting : BitVec 112) (e : SlotEnd) :
    List Nat → State × SlotEnd
  | [] => (s, e)
  | g :: r =>
    let t := s.slotGroup d k waiting g e
    t.1.slotGroups d k waiting t.2 r

/-- The writes of a slot, performed at its end (R288). -/
def State.slotWrites (s : State) : List SlotWrite → State
  | [] => s
  | w :: r => (s.memPut w.who w.off w.bytes w.poison).slotWrites r

/-- What a slot gives a group beside its endpoints; a slot that serves class BECMD gives the group's
engines to context H (R371, R389). -/
def State.givenOf (s : State) (d k : Nat) (waiting : BitVec 112) (g : Nat) : Given :=
  match s.slotUse d g k with
  | .none => .nothing
  | .ep _ _ => .nothing
  | .eng j => .ctx (if j = .a then .a else .b)
  | .bg =>
    match s.bgServes d waiting g with
    | none => .nothing
    | some c => if c = 5 then .ctx .h else .cls c

/-- The entry that the front walk of a buffer reads next, an offset of device memory (R402, R404). -/
def State.walkAt (s : State) (b : XBuf) : Option Nat :=
  match (s.xbuf b).walks with
  | [] => none
  | w :: _ => some (match (s.xbuf b).ptr with
    | none => s.topAt w.slot w.va.toNat
    | some p => lowAt p.toNat w.va.toNat)

/-- The groups of a stack in which a walk of the translation buffers waits, as the bits of class
WALK. -/
def State.walkBits (s : State) (d : Nat) : BitVec 112 :=
  [XBuf.host, .dma, .remw, .reme].foldl (fun t b => match s.walkAt b with
    | some a => if stackOf a = d then t ||| BitVec.ofNat 112 (2 ^ (16 + groupOf (localOf a))) else t
    | none => t) 0

/-- One memory slot of a stack (R285-R288, R389, R390), given what waits in it. -/
def State.slotRun (s : State) (d : Nat) (waiting : BitVec 112) : State :=
  let k := (s.stk d).sched
  let s0 := s.boostSave d waiting
  let gs := (List.range 16).map (s0.givenOf d k waiting)
  let r := s0.slotGroups d k waiting ⟨[], []⟩ (List.range 16)
  let s1 := (r.1.slotWrites r.2.writes).bgAges d waiting r.2.served (List.range 7)
  s1.setStk d { s1.stk d with sched := (k + 1) % s1.schedLen d, given := gs }

/-- One memory slot: what waits is what the command says, and the walks of the translation buffers. -/
def State.memorySlot (s : State) (d : Nat) (waiting : BitVec 112) : State :=
  s.slotRun d (waiting ||| s.walkBits d)

/-- What the memory slot in progress gives the group of an offset. -/
def State.givenAt (s : State) (off : Nat) : Given :=
  (s.stk (stackOf off)).given.getD (groupOf (localOf off)) .nothing

/-- MEMORY_SLOT (R286). -/
def execMemorySlot (d : Stack) (waiting : BitVec 112) (s : State) : Host.Outcome State Fault Refusal :=
  .next (s.memorySlot d.val waiting)

end Sys2Proof.Machine
end

