-- ==== Sys2Proof/Machine/Drives.lean ====
section
/-! DEFINITION. The commands to the drives of the save port: NVMe entries, the queues and PRP lists in device
memory, and their issue; the pieces and the state of a clutch (R605-R614). -/

namespace Sys2Proof.Machine

open Sys2Proof

/-! ### The clutch in progress -/

/-- A piece of a clutch's plan. -/
def Clutch.piece (c : Clutch) (i : Nat) : PieceSt := Tab.look (fun _ => ⟨0, none, false, [], []⟩) c.pieces i

/-- Replace a piece. -/
def Clutch.setPiece (c : Clutch) (i : Nat) (p : PieceSt) : Clutch := { c with pieces := Tab.ins c.pieces i p }

/-- Replace the clutch in progress. -/
def State.setClutch (s : State) (c : Clutch) : State := { s with sav := { s.sav with clutch := some c } }

/-! ### Entries and queues (R608-R611) -/

/-- I/O Flush. -/
def opFlush : Nat := 0
/-- I/O Write. -/
def opWrite : Nat := 1
/-- I/O Read. -/
def opRead : Nat := 2

/-- Whether a command goes through the admin queue. -/
def NvmeCmd.adm (c : NvmeCmd) : Bool := decide (0x100 ≤ c.opc)

/-- The part of the queue region that belongs to a drive. -/
def State.qbase (s : State) (n : Nat) : Nat := (s.rd64 rSavQbaseLo).toNat + n * 0x40000

/-- The place of a PRP list in a drive's part. -/
def State.prpAt (s : State) (n slot : Nat) : Nat := s.qbase n + 0x4000 + 0x100 * slot

/-- The namespace that a command names: namespace 1 for Identify with CNS 0x00 and for every I/O command. -/
def NvmeCmd.nsid (c : NvmeCmd) : Nat := if c.adm then (if c.opc = 0x106 ∧ c.lba = 0 then 1 else 0) else 1

/-- Dword 12: the blocks less 1 and FUA, for Read and Write. -/
def NvmeCmd.dw12 (c : NvmeCmd) : Nat :=
  if c.opc = opWrite ∨ c.opc = opRead then c.blocks - 1 + (if c.fua then 2 ^ 30 else 0) else 0

/-- The 64 bytes of a command's entry, its data at `a` and its PRP list at `l`. -/
def NvmeCmd.sqe (c : NvmeCmd) (a l : Nat) : List Byte :=
  leBytes 1 c.opc ++ leBytes 1 0 ++ leBytes 2 c.cid.toNat ++ leBytes 4 c.nsid ++ leBytes 16 0 ++ leBytes 8 a
    ++ leBytes 8 (if c.blocks ≤ 1 then 0 else if c.blocks = 2 then a + 4096 else l) ++ leBytes 8 c.lba.toNat
    ++ leBytes 4 c.dw12 ++ leBytes 12 0

/-- The PRP list of a command whose data of more than two pages is at `a`: the pages after the first. -/
def NvmeCmd.prps (c : NvmeCmd) (a : Nat) : List Byte :=
  if c.blocks ≤ 2 then [] else (List.range (c.blocks - 1)).flatMap fun k => leBytes 8 (a + 4096 * (k + 1))

/-- Whether HUPLOW makes every drive write carry FUA (R638). -/
def State.huplow (s : State) : Bool := s.bitF fSavHstatHuplow

/-- Whether a drive is READY. -/
def State.driveReady (s : State) (n : Nat) : Bool := s.bitF (fSavDrvStatReady n)

/-- The READY drives. -/
def State.readyDrives (s : State) : List Nat := (List.range 4).filter fun n => s.driveReady n

/-- The first place among a drive's PRP lists that no command holds; an admin command takes place 64. -/
def DriveSt.freeList (d : DriveSt) (c : NvmeCmd) : Nat :=
  if c.adm then 64
  else ((List.range 64).find? fun k => d.cmds.all fun x => x.sent != some k).getD 0

/-- The next entry of a submission queue of `size` entries is filled. -/
def QueuePair.push (q : QueuePair) (size : Nat) : QueuePair := { q with tail := (q.tail + 1) % size }

/-- The next entry of a completion queue of `size` entries is taken; the phase turns as the queue wraps. -/
def QueuePair.pop (q : QueuePair) (size : Nat) : QueuePair :=
  if q.head + 1 = size then { q with head := 0, phase := !q.phase } else { q with head := q.head + 1 }

/-- The entry of a command is placed in its submission queue, with its PRP list, and leaves for the drive; while
HUPLOW is 1 every Write carries FUA (R638). -/
def State.nvmePlace (s : State) (n : Nat) (c : NvmeCmd) : State :=
  let d := s.drive n
  let k := d.freeList c
  let a := c.addr.getD (Config.savBuffer (65 * n + k))
  let c1 := { c with addr := some a, sent := some k, since := s.clock, fua := c.fua || (c.opc == opWrite && s.huplow) }
  let s1 := s.setDrive n { d with
    cmds := d.cmds.map fun x => if x.cid = c.cid then c1 else x
    admin := if c.adm then d.admin.push 16 else d.admin
    io := if c.adm then d.io else d.io.push 64 }
  let sqe := c1.sqe a.toNat (s.prpAt n k)
  ((s1.memWrite .save (s.prpAt n k) (c1.prps a.toNat)).memWrite .save
    (if c.adm then s.qbase n + 64 * d.admin.tail else s.qbase n + 0x2000 + 64 * d.io.tail) sqe).emit
      (.nvme (Fin.ofNat 4 n) c.adm sqe c.data)

/-- The next command of a drive that can enter a submission queue: an I/O command needs a READY drive and a free
entry. -/
def State.nvmeNext (s : State) (n : Nat) : Option NvmeCmd :=
  let d := s.drive n
  let room := s.driveReady n && decide ((d.cmds.filter fun c => c.sent.isSome && !c.adm).length < 63)
  d.cmds.find? fun c => c.sent.isNone && (c.adm || room)

/-- Commands that wait enter their queues in order; at most `k`. -/
def State.nvmePump (s : State) (n : Nat) : Nat → State
  | 0 => s
  | k + 1 =>
    match s.nvmeNext n with
    | none => s
    | some c => (s.nvmePlace n c).nvmePump n k

/-- Issue a command to a drive. -/
def State.nvmeIssue (s : State) (n opc : Nat) (lba : W64) (blocks : Nat) (fua : Bool) (addr : Option W64)
    (data : List Byte) (use : NvmeUse) : State :=
  let d := s.drive n
  (s.setDrive n { d with
    cmds := d.cmds ++ [⟨d.nextCid, opc, lba, blocks, fua, addr, data, use, false, none, 0, false⟩]
    nextCid := d.nextCid + 1 }).nvmePump n 64

/-- Reads of `blocks` blocks from an LBA on, 32 blocks each and the last one shorter (R609): the last `j` of `m`. -/
def State.readParts (s : State) (n : Nat) (lba : W64) (blocks : Nat) (addr : Nat → Option W64)
    (use : Nat → NvmeUse) (m : Nat) : Nat → State
  | 0 => s
  | j + 1 =>
    let k := m - (j + 1)
    (s.nvmeIssue n opRead (lba + BitVec.ofNat 64 (32 * k)) (min 32 (blocks - 32 * k)) false (addr k) []
      (use k)).readParts n lba blocks addr use m j

/-- One command to each of some drives. -/
def State.eachDrive (s : State) (f : State → Nat → State) (l : List Nat) : State := l.foldl f s

/-- The first LBA of an area of a drive (R626). -/
def State.areaLba (s : State) (n a : Nat) : Nat :=
  (s.rd64 (rSavDrvBaseLo n)).toNat + a * (s.rd rSavArealen).toNat

/-- Some commands of a drive are abandoned: those that wait leave, and the others complete without effect. -/
def DriveSt.kill (d : DriveSt) (p : NvmeUse → Bool) : DriveSt :=
  { d with cmds := (d.cmds.filter fun c => !(p c.use && c.sent.isNone)).map fun c =>
      { c with use := if p c.use then NvmeUse.dead else c.use } }

/-- Some commands of every drive are abandoned. -/
def State.killCmds (s : State) (p : NvmeUse → Bool) : State :=
  { s with drives := s.drives.map fun (x : Nat × DriveSt) => (x.1, x.2.kill p) }

end Sys2Proof.Machine
end

