-- ==== Sys2Proof/Machine/BeSpans.lean ====
section
/-! DEFINITION. What a bank-engine command says: its fields, the ranges and the pieces that it touches, the
command that a SNAP names, and when it is rejected (R371-R377, R386, R399, R414, R616). -/

namespace Sys2Proof.Machine

open Sys2Proof

/-! ### Fields (R373) -/

/-- Bytes `o` to `o + n - 1` of a command as an unsigned value. -/
def beFld (c : BitVec 512) (o n : Nat) : Nat := (c.extractLsb' (8 * o) (8 * n)).toNat

/-- OP. -/
def beOp (c : BitVec 512) : Nat := beFld c 0 1
/-- FLAGS.RND. -/
def beRnd (c : BitVec 512) : Bool := c.getLsbD 8
/-- FLAGS.OVF. -/
def beOvf (c : BitVec 512) : Bool := c.getLsbD 9
/-- NT. -/
def beNt (c : BitVec 512) : Nat := beFld c 4 4
/-- STEP. -/
def beStep (c : BitVec 512) : W32 := c.extractLsb' 64 32
/-- STREAM. -/
def beStream (c : BitVec 512) : W32 := c.extractLsb' 96 32
/-- Base `k` of AM, AS, BM, BS, CM, CS, LOG, OUT, in units of 256 KiB. -/
def beBase (c : BitVec 512) (k : Nat) : Nat := beFld c (16 + 4 * k) 4
/-- ROUTE. -/
def beRoute (c : BitVec 512) : Nat := beFld c 48 2
/-- Signed parameter `k`. -/
def beP (c : BitVec 512) (k : Nat) : Int := (c.extractLsb' (8 * (50 + k)) 8).toInt
/-- G. -/
def beG (c : BitVec 512) : Int := (c.extractLsb' 448 32).toInt
/-- TBASE. -/
def beTbase (c : BitVec 512) : Nat := beFld c 60 4

/-- The bytes that an opcode uses, as first byte and length (R377); FLAGS is listed where the
opcode's row names it. -/
def beUses (op : Nat) : List (Nat × Nat) :=
  match op with
  | 1 => [(4, 4), (16, 8), (40, 4), (48, 2), (50, 4)]
  | 2 => [(1, 1), (4, 60)]
  | 3 => [(1, 1), (4, 12), (24, 16), (40, 8), (52, 1), (60, 4)]
  | 4 => [(4, 4), (16, 8), (32, 8), (40, 8), (48, 2)]
  | 5 => [(4, 4), (16, 4), (32, 4)]
  | 6 => [(4, 4), (16, 4), (44, 4)]
  | 7 => [(4, 4), (16, 8), (44, 4), (48, 2), (50, 4)]
  | 8 => [(4, 4), (16, 4), (40, 4), (48, 2), (50, 1)]
  | _ => []

/-- Whether a byte of the command must be 0. -/
def beUnused (op i : Nat) : Bool :=
  i != 0 && !(beUses op).any fun u => decide (u.1 ≤ i) && decide (i < u.1 + u.2)

/-- Whether every unused field and every reserved bit is 0. -/
def beFieldsOk (c : BitVec 512) : Bool :=
  (List.range 64).all fun i => !beUnused (beOp c) i || beFld c i 1 == 0

/-- Whether the opcode is assigned. -/
def beKnown (op : Nat) : Bool := decide (1 ≤ op) && decide (op ≤ 8)

/-- The payload bytes that a command needs (R378, R385). -/
def bePayload (c : BitVec 512) : Nat :=
  match beOp c with
  | 1 => 2 ^ (beP c 1).toNat * (32 * (beP c 0).toNat)
  | 7 => (beP c 1).toNat * (if beP c 0 = 1 then 512 else 1024)
  | _ => 0

/-- Whether the values of the used fields are allowed (R373, R378, R379, R381, R385). -/
def beValuesOk (c : BitVec 512) (payload : Nat) : Bool :=
  decide (beFld c 1 1 < 4) && match beOp c with
  | 1 => decide (8 ≤ beP c 0 ∧ beP c 0 ≤ 64 ∧ 0 ≤ beP c 1 ∧ beP c 1 ≤ 16 ∧ 0 ≤ beP c 3 ∧ beP c 3 ≤ 15
      ∧ bePayload c ≤ 65536 ∧ bePayload c ≤ payload ∧ beNt c ≤ (beP c 0).toNat * (beP c 0).toNat)
  | 2 => decide (0 ≤ beP c 0 ∧ beP c 0 ≤ 15 ∧ 0 ≤ beP c 2 ∧ beP c 2 ≤ 5)
  | 3 => decide (0 ≤ beP c 2 ∧ beP c 2 ≤ 5)
  | 7 => decide ((beP c 0 = 0 ∨ beP c 0 = 1) ∧ 1 ≤ beP c 1 ∧ bePayload c ≤ payload)
  | _ => true

/-! ### Ranges (R352, R373, R378-R386) -/

/-- A range of 256 KiB blocks of image addresses: first block, blocks, whether it is read and
whether it is written. -/
structure BeSpan where
  base : Nat
  n : Nat
  r : Bool
  w : Bool
  deriving DecidableEq, Repr

/-- The blocks of an engine-striped tensor of `nt` tiles of `sz` bytes. -/
def stripedBlocks (nt sz : Nat) : Nat := ((nt + 63) / 64 * sz + 4095) / 4096

/-- The blocks of `nt` words in plain order. -/
def plainBlocks (nt : Nat) : Nat := (nt * 256 + 2 ^ 18 - 1) / 2 ^ 18

/-- The ranges that a command touches. -/
def beSpans (c : BitVec 512) : List BeSpan :=
  let nt := beNt c
  let b := beBase c
  match beOp c with
  | 1 => [⟨b 0, stripedBlocks nt 2048, true, true⟩, ⟨b 1, stripedBlocks nt 1, true, false⟩,
      ⟨b 6, stripedBlocks nt 2048, false, true⟩]
  | 2 => [⟨b 0, stripedBlocks nt 2048, true, false⟩, ⟨b 1, stripedBlocks nt 1, true, false⟩,
      ⟨b 2, stripedBlocks nt 2048, true, true⟩, ⟨b 3, stripedBlocks nt 1, true, false⟩,
      ⟨b 4, stripedBlocks nt 4096, true, true⟩, ⟨b 5, stripedBlocks nt 1, true, false⟩,
      ⟨b 6, stripedBlocks nt 6144, false, true⟩, ⟨b 7, stripedBlocks nt 1024, false, true⟩,
      ⟨b 7 + 1, stripedBlocks nt 1, false, true⟩]
  | 3 => [⟨b 2, stripedBlocks nt 2048, true, true⟩, ⟨b 4, stripedBlocks nt 4096, true, true⟩,
      ⟨b 5, stripedBlocks nt 1, true, false⟩, ⟨b 6, stripedBlocks nt 6144, true, false⟩,
      ⟨b 7, stripedBlocks nt 1024, false, true⟩, ⟨b 7 + 1, stripedBlocks nt 1, false, true⟩]
  | 4 => [⟨b 0, stripedBlocks nt 2048, true, false⟩, ⟨b 1, stripedBlocks nt 1, true, false⟩,
      ⟨b 4, stripedBlocks nt 2048, true, true⟩, ⟨b 5, stripedBlocks nt 1, true, true⟩,
      ⟨b 6, stripedBlocks nt 2048, false, true⟩, ⟨b 7, stripedBlocks nt 1, false, true⟩]
  | 5 => [⟨b 0, plainBlocks nt, true, false⟩, ⟨b 4, plainBlocks nt, true, true⟩]
  | 6 => [⟨b 0, plainBlocks nt, true, false⟩, ⟨b 7, 1, false, true⟩]
  | 7 =>
    let k := (beP c 1).toNat
    [⟨b 0, stripedBlocks nt (k * 512), true, false⟩, ⟨b 1, stripedBlocks nt k, true, false⟩,
      ⟨b 7, plainBlocks ((nt + 63) / 64), false, true⟩]
  | 8 => [⟨b 0, plainBlocks nt, true, false⟩]
  | _ => []

/-! ### Contexts and translation (R371, R397, R414) -/

/-- The job slot of a context; the routes of context H are those of job slot A (R375). -/
def ctxSlot : BeCtx → JobSlot
  | .a => .a | .b => .b | .h => .a

/-- Who a context's memory accesses act for. -/
def ctxAcc : BeCtx → Acc
  | .a => .slotA | .b => .slotB | .h => .other

/-- The number of a context in an error record (R718). -/
def ctxNum : BeCtx → Nat
  | .a => 0 | .b => 1 | .h => 2

/-- Whether a command is the save unit's own, which isolation does not check (R399). -/
def BeOrigin.isSave : BeOrigin → Bool
  | .save _ => true
  | _ => false

/-- Translate `n` bytes at an address of a stack for a command. -/
def State.beXlate (s : State) (x : BeCtx) (o : BeOrigin) (d a n : Nat) (write : Bool) : XRes :=
  match x with
  | .h =>
    if o.isSave = true ∨ s.isoOk false (d * stackBytes + a) n = true then .ok (d * stackBytes + a)
    else .fault .isolation (d * stackBytes + a)
  | _ => s.imgXlate (ctxSlot x) d a n write

/-- The physical offset of an address of an accepted command. -/
def State.beOff (s : State) (x : BeCtx) (o : BeOrigin) (d a : Nat) (write : Bool) : Nat :=
  match s.beXlate x o d a 1 write with
  | .ok off => off
  | .fault _ _ => d * stackBytes + a

/-- The first fault of a block of a range. -/
def State.blockFault (s : State) (x : BeCtx) (o : BeOrigin) (d : Nat) (p : BeSpan) (k : Nat) :
    Option (XFault × Nat) :=
  let look (w : Bool) : Option (XFault × Nat) :=
    match s.beXlate x o d ((p.base + k) * 2 ^ 18) (2 ^ 18) w with
    | .ok _ => none
    | .fault f va => some (f, va)
  (if p.r then look false else none).orElse fun _ => if p.w then look true else none

/-- Whether a range stays in its stack. -/
def BeSpan.inside (p : BeSpan) : Bool := decide (p.base + p.n ≤ 2 ^ 18)

/-- The first fault of a range. -/
def State.spanFault (s : State) (x : BeCtx) (o : BeOrigin) (d : Nat) (p : BeSpan) :
    Option (XFault × Nat) :=
  (List.range p.n).findSome? (s.blockFault x o d p)

/-- Word `k` of base `i` in plain order. -/
def beWord (c : BitVec 512) (i k : Nat) : Nat := beBase c i * 2 ^ 18 + 256 * k

/-! ### The command that a SNAP names (R386, R618) -/

/-- Where a striped tensor of `nt` tiles of `sz` bytes at base `k` holds a physical address of
its stack: the unit, the byte within it. -/
def State.unitOf (s : State) (d : Nat) (c : BitVec 512) (k sz a : Nat) : Option (Nat × Nat) :=
  ((List.range (min (2 ^ 18) (stripedBlocks (beNt c) sz))).find? fun j =>
    s.beOff .a (.list 0) d ((beBase c k + j) * 2 ^ 18) true == d * stackBytes + a / 2 ^ 18 * 2 ^ 18).map fun j =>
      let o := j * 4096 + a % 4096
      (o / sz * 64 + engOf a, o % sz)

/-- Where the undo log of a named command has the delta of the word at a physical address: the
unit, the delta word within the unit's, the delta words of a unit, and the bytes of its tile. -/
def State.namedUnit (s : State) (d : Nat) (c : BitVec 512) (a : Nat) : Option (Nat × Nat × Nat × Nat) :=
  let get (k sz off n : Nat) : Option (Nat × Nat × Nat × Nat) :=
    (s.unitOf d c k sz a).map fun p => (p.1, off + p.2 / 256, n, sz)
  match beOp c with
  | 1 => get 0 2048 0 8
  | 4 => get 4 2048 0 8
  | 2 => (get 2 2048 0 24).orElse fun _ => get 4 4096 8 24
  | _ => none

/-- The unit whose scale byte a named XWRITE keeps at a physical address (R382). -/
def State.namedScale (s : State) (d : Nat) (c : BitVec 512) (a : Nat) : Option Nat :=
  if beOp c = 4 then (s.unitOf d c 5 1 a).map (·.1) else none

/-- The command that a SNAP names, with the units that it has completed: the one running at
queue position P0, or the one that the save unit named, which may have completed since. -/
def State.snapNamed (s : State) (d : Nat) (b : BeCmd) : Option (BitVec 512 × Nat) :=
  let run := ((s.stk d).qa.find? fun q => (q.pos : Int) == beP b.cmd 0).map fun q => (q.cmd, q.units)
  match b.origin with
  | .save i =>
    match (s.sav.clutch.bind fun k => (k.piece i).named) with
    | none => none
    | some c => if run.map (·.1) = some c then run else some (c, beNt c)
  | _ => run

/-- The range of LOG that a SNAP reads: the deltas of the tiles that its words hold, in the layout of the
command that it names; the words of the scale-log plane, for the scale plane of an XWRITE. -/
def State.snapSpans (s : State) (d : Nat) (b : BeCmd) : List BeSpan :=
  let c := b.cmd
  let n := plainBlocks (beNt c)
  match s.snapNamed d b with
  | none => []
  | some (nc, _) =>
    match (List.range n).findSome? fun j => s.namedUnit d nc (beWord c 0 (1024 * j)) with
    | some (_, _, k, sz) => [⟨beBase c 6, ((n * 4096 + sz - 1) / sz * (k * 256) + 4095) / 4096, true, false⟩]
    | none =>
      if (List.range n).any fun j => (s.namedScale d nc (beWord c 0 (1024 * j))).isSome then
        [⟨beBase c 6, n, true, false⟩]
      else []

/-- The ranges that a command in a queue touches (R375, R386). -/
def State.beTouches (s : State) (d : Nat) (b : BeCmd) : List BeSpan :=
  beSpans b.cmd ++ if beOp b.cmd = 8 then s.snapSpans d b else []

/-! ### Rejection (R375, R414) -/

/-- Whether ROUTE is none or names a route of the slot's image that begins at an endpoint of
the stack. -/
def State.beRouteOk (s : State) (x : BeCtx) (d : Nat) (c : BitVec 512) : Bool :=
  !([1, 2, 4, 7, 8].contains (beOp c)) || beRoute c == 0xFFFF ||
    match s.routeCfg (ctxSlot x) (beRoute c) with
    | some cf => epKind cf.src == 1 && epIdx cf.src / 240 == d
    | none => false

/-- Whether a command is rejected, and the fault of its ranges, if that is why. -/
def State.beReject (s : State) (x : BeCtx) (d : Nat) (b : BeCmd) : Option (Option (XFault × Nat)) :=
  if !(beKnown (beOp b.cmd) && beFieldsOk b.cmd && beValuesOk b.cmd b.payload.length
      && (s.beTouches d b).all BeSpan.inside && s.beRouteOk x d b.cmd) then some none
  else ((s.beTouches d b).findSome? (s.spanFault x b.origin d)).map some

/-- The queue of a context. -/
def StackSt.queue (k : StackSt) : BeCtx → List BeCmd
  | .a => k.qa | .b => k.qb | .h => k.qh

/-- Replace the queue of a context. -/
def StackSt.setQueue (k : StackSt) (x : BeCtx) (q : List BeCmd) : StackSt :=
  match x with
  | .a => { k with qa := q } | .b => { k with qb := q } | .h => { k with qh := q }

/-- Log the rejection of a command, counted in MEM_BEREJd (R375). -/
def State.logReject (s : State) (x : BeCtx) (d pos : Nat) (c : BitVec 512) : State :=
  (s.bump (rMemBerej d) 1).log ⟨19, 1, unitStack d, x == .b, x == .a, beOp c + 256 * ctxNum x, pos⟩

/-- Log the fault for which a command is rejected; one of context H is no window fault (R442). -/
def State.logXfault (s : State) (x : BeCtx) (d : Nat) : Option (XFault × Nat) → State
  | none => s
  | some (f, va) =>
    (if x = .h then s else s.bumpF fXltFltcntWin 1).logFault f (unitStack d) (x == .b) (x == .a) va 4

/-! ### The pieces that a command writes (R616) -/

/-- Whether a 256 KiB block of physical memory of stack `d` belongs to a piece. -/
def PlanEnt.holds (e : PlanEnt) (d blk : Nat) : Bool :=
  e.stack == d && decide (e.am ≤ blk) && decide (blk < e.am + plainBlocks e.nt)

/-- The physical blocks of its stack that a command of context A writes. -/
def State.beWrites (s : State) (d : Nat) (c : BitVec 512) : List Nat :=
  ((beSpans c).filter (·.w)).flatMap fun p =>
    (List.range (min p.n (2 ^ 18))).map fun k =>
      s.beOff .a (.list 0) d ((p.base + k) * 2 ^ 18) true % stackBytes / 2 ^ 18

/-- Whether a command writes a piece. -/
def State.writesPiece (s : State) (d : Nat) (c : BitVec 512) (e : PlanEnt) : Bool :=
  e.stack == d && (s.beWrites d c).any (e.holds d)

/-- The pieces of a plan that a command of a stack writes, by index. -/
def State.pieceHits (s : State) (plan : List PlanEnt) (d : Nat) (c : BitVec 512) : List Nat :=
  (List.range plan.length).filter fun i =>
    match plan[i]? with
    | some e => s.writesPiece d c e
    | none => false

/-- Whether a command came from the skip list of Bellwether, which rewrites pieces as R620 says. -/
def State.skipCmd (s : State) : BeOrigin → Bool
  | .list k => s.bwt.lists.any fun l => l.run == k && !l.commit
  | _ => false

/-- Whether a command of context A writes a piece against R616. -/
def State.breaksPlan (s : State) (plan : List PlanEnt) (d : Nat) (c : BitVec 512) (o : BeOrigin) : Bool :=
  let hit := s.pieceHits plan d c
  !hit.isEmpty && !s.skipCmd o
    && (!([1, 2, 4].contains (beOp c)) || hit.any fun i => (plan[i]?.map (·.layout)).getD 1 == 0)

end Sys2Proof.Machine
end

