-- ==== Sys2Proof/Machine/Halt.lean ====
section
/-! DEFINITION. How Bellwether halts and how a clutch ends: what many units cause and no
unit owns (R579, R591, R592, R616, R619, R622, R629, R642). -/

namespace Sys2Proof.Machine

open Sys2Proof

/-! ### Bellwether (R591, R592) -/

/-- BWT_STATUS.STATE values. -/
def bwtIdle : Nat := 0
/-- ARMED. -/
def bwtArmed : Nat := 1
/-- HALTED. -/
def bwtHalted : Nat := 2

/-- Whether Bellwether is ARMED. -/
def State.armed (s : State) : Bool := s.getF fBwtStatusState == bwtArmed

/-- Whether an attempt is pending that no decision has made COMMIT or SKIP. -/
def State.undecided (s : State) : Bool := s.bwt.started && !s.bwt.decided

/-- A halt cause becomes pending, until the seal whose word takes it (R591); of two causes the higher stays,
as HCAUSE combines (R578). -/
def State.pendHalt (s : State) (cause : Nat) : State :=
  { s with bwt := { s.bwt with haltPend := max s.bwt.haltPend cause } }

/-- Show the limit in force and ceiling mode (R658). -/
def State.ceilShow (s : State) : State :=
  let on := s.bitF fPwrCeilRstart || s.bitF fPwrCeilRdefault || s.bitF fPwrCeilRhalt
  (s.setB fPwrCeilCeiling on).setF fPwrCeilLimit (if on then 400 else s.getF fPwrCeilSetlimit)

/-- A port fails: cause PORT while Bellwether is ARMED (R591). -/
def State.haltPort (s : State) : State := if s.armed then s.pendHalt 6 else s

/-! ### The clutch (R616, R619, R622, R629, R642) -/

/-- SAV_STATUS.STATE values. -/
def savIdle : Nat := 0
/-- WAIT. -/
def savWait : Nat := 1
/-- CAPTURE. -/
def savCapture : Nat := 2
/-- DRAIN. -/
def savDrain : Nat := 3
/-- SEAL. -/
def savSeal : Nat := 4
/-- RESTORE. -/
def savRestore : Nat := 5

/-- The state of the save unit. -/
def State.savState (s : State) : Nat := s.getF fSavStatusState

/-- Whether a drive command belongs to a clutch. -/
def NvmeUse.ofClutch : NvmeUse → Bool
  | .zero | .record _ | .flush | .manifest | .header => true
  | _ => false

/-- The words of a read in progress that have not arrived will be discarded as they do (R619). -/
def State.staleRead (s : State) (c : Clutch) (i : Nat) : State :=
  match c.plan[i]? with
  | none => s
  | some e =>
    let r := s.route .a e.route
    let left := e.nt - r.dst.length
    let k := Tab.look (fun _ => 0) s.sav.stale e.route + left
    { (s.setRoute .a e.route { r with dst := [] }) with
      sav := { s.sav with stale := Tab.put (fun _ => 0) s.sav.stale e.route k } }

/-- The pieces whose read is in progress. -/
def Clutch.reading (c : Clutch) : List Nat :=
  (List.range c.plan.length).filter fun i => (c.piece i).phase == 1

/-- The words still to come of every read in progress become stale. -/
def State.staleReads (s : State) (c : Clutch) : List Nat → State
  | [] => s
  | i :: r => (s.staleRead c i).staleReads c r

/-- A clutch ends with a code (R622, R630, R642). -/
def State.endClutch (s : State) (code : Nat) : State :=
  match s.sav.clutch with
  | none => s
  | some c =>
    let s1 := (s.staleReads c c.reading).killCmds NvmeUse.ofClutch
    let s2 := { s1 with sav := { s1.sav with clutch := none } }
    let s3 := ((s2.setF fSavStatusState savIdle).setF fSavStatusCode code).setB fSavStatusDone true
    if code = 0 then s3.msix 0 4
    else s3.log ⟨14, code, unitDevice, false, false, c.id.toNat, 0⟩

/-- Abandon the read of a piece in progress (R619). -/
def State.abandonRead (s : State) (i : Nat) : State :=
  match s.sav.clutch with
  | none => s
  | some c =>
    if (c.piece i).phase = 1 then
      ((s.staleRead c i).bump rSavReread 1).setClutch (c.setPiece i ⟨0, none, false, [], []⟩)
    else s

/-- Abandon the reads of some pieces. -/
def State.abandonReads (s : State) : List Nat → State
  | [] => s
  | i :: r => (s.abandonRead i).abandonReads r

/-- A SKIP decision abandons every read in progress (R620). -/
def State.abandonAll (s : State) : State :=
  s.abandonReads ((s.sav.clutch.map Clutch.reading).getD [])

/-! ### A clutch begins (R614-R617, R625) -/

/-- Read the plan's entries from memory. -/
def State.readPlan (s : State) (a : Nat) : Nat → List (List Byte) × State
  | 0 => ([], s)
  | n + 1 =>
    let r := s.memRead .save 256 a 32
    let t := r.2.readPlan (a + 32) n
    (r.1.bytes :: t.1, t.2)

/-- A plan entry from its bytes. -/
def PlanEnt.ofBytes (e : List Byte) : PlanEnt :=
  ⟨fieldLe e 0 1, fieldLe e 1 1, fieldLe e 4 4, fieldLe e 8 4, fieldLe e 12 4, fieldLe e 16 2⟩

/-- Whether a plan entry alone satisfies R614 and R615. -/
def State.planEntOk (s : State) (b : List Byte) : Bool :=
  let e := PlanEnt.ofBytes b
  decide (e.stack < 8) && decide (e.layout < 4) && fieldLe b 2 2 == 0 && fieldLe b 18 14 == 0
    && decide (1 ≤ e.nt) && decide (e.am * 2 ^ 18 + 256 * e.nt ≤ stackBytes)
    && (e.log == 0xFFFFFFFF) == (e.layout == 0)
    && match s.routeCfg .a e.route with
      | some cf => epKind cf.dst == 4 && epIdx cf.dst == 20 && epKind cf.src == 1 && epIdx cf.src / 240 == e.stack
      | none => false

/-- Whether two pieces overlap. -/
def PlanEnt.meets (e f : PlanEnt) : Bool :=
  e.stack == f.stack && decide (e.am * 2 ^ 18 < f.am * 2 ^ 18 + 256 * f.nt)
    && decide (f.am * 2 ^ 18 < e.am * 2 ^ 18 + 256 * e.nt)

/-- Whether a plan satisfies R615. -/
def State.planOk (s : State) (bs : List (List Byte)) : Bool :=
  decide (1 ≤ bs.length) && decide (bs.length ≤ 65536) && bs.all s.planEntOk
    && decide ((bs.map PlanEnt.ofBytes).Pairwise fun e f => e.meets f = false)

/-- The job state record as its 64 words. -/
def State.jsrWords (s : State) : List W32 := (List.range 64).map fun n => s.rd (rBwtJsr n)

/-- Whether a command that waits or runs in context A as CAPTURE begins writes a piece against R616. -/
def State.queuedBreach (s : State) (plan : List PlanEnt) : Bool :=
  (List.range 8).any fun d => (s.stk d).qa.any fun b => s.breaksPlan plan d b.cmd b.origin

/-- The clutch begins CAPTURE: the plan, the job state record, the zero headers (R615, R617, R625). -/
def State.beginCapture (s : State) : State :=
  match s.sav.clutch with
  | none => s
  | some c =>
    let p := s.readPlan (s.rd64 rSavPlanLo).toNat (s.getF fSavPlanlenEntries)
    let s1 := ((p.2.setF fSavStatusState savCapture).wr rSavCaprec 0).wr rSavDrnrec 0
    if ¬ s1.planOk p.1 then s1.endClutch 4
    else
      let c1 : Clutch := { c with
        plan := p.1.map PlanEnt.ofBytes
        jsr := ofLanes s.jsrWords
        cstep := s.rd64 (rBwtJsr 0)
        imageId := (s.imgA.map (·.id)).getD 0
        huplow := s.huplow }
      let s2 := s1.setClutch c1
      if s2.readyDrives.isEmpty then s2.endClutch 5
      else if s2.queuedBreach c1.plan then s2.endClutch 3
      else s2.eachDrive (fun t n => t.nvmeIssue n opWrite (BitVec.ofNat 64 (t.areaLba n (c.id.toNat % 2))) 1
        true none (List.replicate 4096 0) .zero) s2.readyDrives

/-! ### HALTED (R592) -/

/-- A clutch that waits for a step start begins CAPTURE when Bellwether is not ARMED (R617). -/
def State.waitEnds (s : State) : State := if s.savState = savWait ∧ ¬ s.armed then s.beginCapture else s

/-- Bellwether enters HALTED, unless it is HALTED already (R592); a clutch waits for no step start then. -/
def State.enterHalted (s : State) (cause : Nat) : State :=
  if s.getF fBwtStatusState = bwtHalted then s else
  let s0 := (s.setB fPwrCeilRhalt true).ceilShow
  let s1 := (s0.setF fBwtStatusState bwtHalted).setF fBwtStatusHcause cause
  let s2 := if s.undecided then s1.setB fBwtStatusUndec true else s1
  ((({ s2 with bwt := { s2.bwt with barred := true } } : State).msix 0 3).log
    ⟨13, cause, unitDevice, false, false, 0, (s.stepA.setWidth 32 : W32).toNat⟩).waitEnds

end Sys2Proof.Machine
end

