-- ==== Sys2Proof/Machine/BeCmds.lean ====
section
/-! DEFINITION. Bank-engine commands in their queues: what a command of context A means to a clutch, the host
ring and the lists of Bellwether (R371-R377, R399, R588, R589, R616-R619). -/

namespace Sys2Proof.Machine

open Sys2Proof

/-! ### A command of context A and the clutch (R616-R619) -/

/-- A command enters the queue of context A while a clutch captures: it ends the clutch with code WRITER where
it breaks R616; a writer of a piece being read, which SNAP does not name, abandons the read. -/
def State.clutchWriter (s : State) (d : Nat) (c : BitVec 512) (o : BeOrigin) : State :=
  match s.sav.clutch with
  | none => s
  | some k =>
    if s.savState ≠ savCapture then s
    else if s.breaksPlan k.plan d c o then s.endClutch 3
    else s.abandonReads (s.pieceHits k.plan d c)

/-! ### Queues (R372, R588) -/

/-- The smallest queue position that no waiting command holds. -/
def freePos (q : List BeCmd) : Nat :=
  ((List.range 8).find? fun p => !q.any fun b => b.pos == p).getD 0

/-- A command as it enters a queue. -/
def BeCmd.new (c : BitVec 512) (payload : List Byte) (o : BeOrigin) (pos : Nat) (poisoned : Bool) :
    BeCmd := ⟨c, payload, o, pos, 0, poisoned, 0, []⟩

/-- A list command fails: the list halts Bellwether at its end (R589). -/
def State.listBad (s : State) (o : BeOrigin) : State :=
  match o with
  | .list k =>
    { s with bwt := { s.bwt with lists := s.bwt.lists.map fun l => if l.run = k then { l with bad := true } else l } }
  | _ => s

/-- The bytes of a host ring entry. -/
def State.ringAddr (s : State) (idx : Nat) : Nat :=
  (s.rd64 rMemHrbaseLo).toNat + 128 * (idx % 2 ^ s.getF fMemHrsizeLog2)

/-- HEAD passes the entries at its front that are done (R372, R680). -/
def State.ringAdvance (s : State) : Nat → State
  | 0 => s
  | n + 1 =>
    match s.hring.pend with
    | (i, true) :: t =>
      ((({ s with hring := { s.hring with pend := t } } : State).setF fMemHrheadHead (i + 1)).msix 0 6).ringAdvance n
    | _ => s

/-- A ring entry is done with. -/
def State.ringDone (s : State) (idx : Nat) : State :=
  let p := s.hring.pend.map fun e => if e.1 = idx then (e.1, true) else e
  ({ s with hring := { s.hring with pend := p } } : State).ringAdvance p.length

/-- The origin of a command that leaves its queue learns of it. -/
def State.originDone (s : State) (o : BeOrigin) : State :=
  match o with
  | .ring i => s.ringDone i
  | _ => s

/-- A command leaves the front of its queue, with the buffer that it held (R372). -/
def State.beLeave (s : State) (d : Nat) (x : BeCtx) (b : BeCmd) : State :=
  let k := s.stk d
  let k1 := k.setQueue x ((k.queue x).drop 1)
  let k2 := if b.payload.isEmpty ∨ x = .a then k1 else { k1 with buf1 := none }
  (s.setStk d k2).originDone b.origin

/-- The front command is rejected whole; the queue moves on. -/
def State.beRejected (s : State) (d : Nat) (x : BeCtx) (b : BeCmd) (f : Option (XFault × Nat)) : State :=
  (((s.logXfault x d f).logReject x d b.pos b.cmd).listBad b.origin).beLeave d x b

/-- Commands with a reserved opcode are rejected as they reach the front. -/
def State.beFront (s : State) (d : Nat) (x : BeCtx) : Nat → State
  | 0 => s
  | n + 1 =>
    match (s.stk d).queue x with
    | b :: _ => if beKnown (beOp b.cmd) then s else (s.beRejected d x b none).beFront d x n
    | [] => s

/-- A command enters a context queue. -/
def State.beEnter (s : State) (d : Nat) (x : BeCtx) (c : BitVec 512) (payload : List Byte) (o : BeOrigin)
    (poisoned : Bool) : State :=
  let k := s.stk d
  let k1 := k.setQueue x (k.queue x ++ [BeCmd.new c payload o (freePos (k.queue x)) poisoned])
  let k2 := if payload.isEmpty ∨ x = .a then k1 else { k1 with buf1 := some x }
  (s.setStk d k2).beFront d x 8

/-- Whether a context can take one more command, with or without a payload. -/
def StackSt.takes (k : StackSt) (x : BeCtx) (payload : Bool) : Bool :=
  decide ((k.queue x).length < 8) &&
    (!payload || if x = .a then k.qa.all (fun b => b.payload.isEmpty) else k.buf1.isNone)

/-! ### Claims on operand buffer 1 (R372) -/

/-- Whether a claimant is first in line for buffer 1: a CMD endpoint of job slot B, or the host ring. -/
def StackSt.turn (k : StackSt) (who : Option Nat) : Bool :=
  match k.claims with
  | [] => true
  | w :: _ => w == who

/-- A command with a payload claims buffer 1, behind the claims made before. -/
def StackSt.claim (k : StackSt) (who : Option Nat) : StackSt :=
  if k.claims.contains who then k else { k with claims := k.claims ++ [who] }

/-- A claim that has been served is gone. -/
def StackSt.claimed (k : StackSt) (who : Option Nat) : StackSt :=
  { k with claims := k.claims.filter (· != who) }

/-! ### The host ring (R372) -/

/-- Whether a ring entry is well formed. -/
def ringOk (e : List Byte) : Bool :=
  decide (fieldLe e 64 1 ≤ 7) && decide (fieldLe e 66 2 ≤ 256) && fieldLe e 72 8 % 256 == 0
    && fieldLe e 65 1 == 0 && fieldLe e 68 4 == 0 && fieldLe e 80 48 == 0

/-- A malformed entry is rejected whole. -/
def State.ringReject (s : State) (idx : Nat) (e : List Byte) : State :=
  (s.log ⟨19, 1, unitDevice, false, false, fieldLe e 0 1 + 256 * 2, idx⟩).ringDone idx

/-- Whether context H may not read a range: it lies inside job slot B's grant, or beyond memory (R399). -/
def State.ringBarred (s : State) (off n : Nat) : Bool :=
  !s.isoOk false off n || decide (memTop < off + n)

/-- An entry that context H may not read, or whose payload it may not, is passed with the record of the
fault, with no effect. -/
def State.ringFault (s : State) (idx off : Nat) : State :=
  (s.logFault (if memTop ≤ off then .range else .isolation) unitDevice false false off 4).ringDone idx

/-- The host ring moves on to its next entry. -/
def State.ringNext (s : State) : State :=
  { s with hring := ⟨(s.hring.fetch + 1) % 65536, s.hring.pend ++ [(s.hring.fetch, false)]⟩ }

/-- An entry enters the queue of context H of its stack, with its payload (R372). -/
def State.ringEnter (s : State) (i : Nat) (e : List Byte) : State :=
  let d := fieldLe e 64 1
  let pl := fieldLe e 66 2
  if s.ringBarred (fieldLe e 72 8) (256 * pl) then s.ringNext.ringFault i (fieldLe e 72 8)
  else
    let p := s.memRead .other 256 (fieldLe e 72 8) (256 * pl)
    (p.2.setStk d ((p.2.stk d).claimed none)).ringNext.beEnter d .h (BitVec.ofNat 512 (leNat (e.take 64)))
      p.1.bytes (.ring i) (!p.1.bad.isEmpty)

/-- Fetch entries of the host ring in order, while their stack can take them; at most `n`. An entry with
a payload that waits claims buffer 1. -/
def State.ringFetch (s : State) : Nat → State
  | 0 => s
  | n + 1 =>
    let i := s.hring.fetch
    if i = s.getF fMemHrtailTail then s
    else if s.ringBarred (s.ringAddr i) 128 then (s.ringNext.ringFault i (s.ringAddr i)).ringFetch n
    else
      let rd := s.memRead .other 256 (s.ringAddr i) 128
      let e := rd.1.bytes
      if ¬ ringOk e ∨ rd.1.bad ≠ [] then (rd.2.ringNext.ringReject i e).ringFetch n
      else
        let d := fieldLe e 64 1
        let pl := fieldLe e 66 2 != 0
        if (s.stk d).takes .h pl ∧ (pl = false ∨ (s.stk d).turn none) then (rd.2.ringEnter i e).ringFetch n
        else if pl then s.setStk d ((s.stk d).claim none)
        else s

/-- Fetch as many entries as can be. -/
def State.ringRun (s : State) : State := s.ringFetch 65536

/-! ### The lists of Bellwether (R588, R589) -/

/-- The first command of some lists that has entered no queue: the number of its list, its stack, itself, and
the lists without it. -/
def nextEntry : List ListRun → Option (Nat × Nat × BitVec 512 × List ListRun)
  | [] => none
  | l :: r =>
    match l.left with
    | (d, c) :: t => some (l.run, d, c, { l with left := t } :: r)
    | [] => (nextEntry r).map fun z => (z.1, z.2.1, z.2.2.1, l :: z.2.2.2)

/-- Enter list commands in order, as places free; at most `n`. -/
def State.feedList (s : State) : Nat → State
  | 0 => s
  | n + 1 =>
    match nextEntry s.bwt.lists with
    | none => s
    | some (k, d, c, ls) =>
      if (s.stk d).qa.length < 8 then
        ((({ s with bwt := { s.bwt with lists := ls } } : State).beEnter d .a c [] (.list k) false).clutchWriter d c
          (.list k)).feedList n
      else s

/-- The commands of the lists that have entered no queue. -/
def State.listLeft (s : State) : List (Nat × BitVec 512) := s.bwt.lists.flatMap (·.left)

/-- Whether a command of a list has still to enter a queue or waits in one. -/
def State.listRuns (s : State) (l : ListRun) : Bool :=
  !l.left.isEmpty || (List.range 8).any fun d => (s.stk d).qa.any fun b => b.origin == .list l.run

/-- The lists that have run to their end are over: LISTBUSY clears after the last, and a failed command of
one makes Bellwether enter HALTED, with the cause for its next sealed word (R589, R591). -/
def State.listEnd (s : State) : State :=
  if s.bwt.lists.all s.listRuns then s
  else
    let rest := s.bwt.lists.filter s.listRuns
    let s1 := ({ s with bwt := { s.bwt with lists := rest } } : State).setB fBwtStatusListbusy (!rest.isEmpty)
    if s.bwt.lists.any fun l => l.bad && !s.listRuns l then (s1.pendHalt 8).enterHalted 8 else s1

/-- What follows when a place or a buffer of a queue has become free. -/
def State.afterLeave (s : State) : State :=
  ((s.feedList (s.listLeft.length + 1)).listEnd).ringRun

end Sys2Proof.Machine
end

