-- ==== Sys2Proof/Machine/BankEngines.lean ====
section
/-! DEFINITION. The bank engines: what each command does to a unit, the command tokens, the
host ring's doorbell, completion and the counters (R368-R393). -/

namespace Sys2Proof.Machine

open Sys2Proof

/-! ### Memory of a unit -/

/-- Read bytes at an image address of the command. -/
def State.beRead (s : State) (x : BeCtx) (d : Nat) (b : BeCmd) (a n : Nat) : RamRead × State :=
  s.memRead (ctxAcc x) 512 (s.beOff x b.origin d a false) n

/-- Write bytes at an image address of the command; `bad` poisons every codeword touched (R387). -/
def State.beWrite (s : State) (x : BeCtx) (d : Nat) (b : BeCmd) (a : Nat) (l : List Byte) (bad : Bool) :
    State := s.memPut (ctxAcc x) (s.beOff x b.origin d a true) l bad

/-- The address of byte `o` of engine `e`'s part of the striped tensor at base `k`. -/
def beAt (c : BitVec 512) (k e o : Nat) : Nat := striped (beBase c k * 2 ^ 18) e o

/-- The tile of unit `u` at base `k`, tiles of `sz` bytes. -/
def beTile (c : BitVec 512) (k sz u : Nat) : Nat := beAt c k (u % 64) (u / 64 * sz)

/-- Count saturation events: for job slot A also in the step's count (R376). -/
def State.beSat (s : State) (x : BeCtx) (d n : Nat) : State :=
  let k := s.stk d
  let s1 := s.bump (rMemSat d) n
  if x = .a then s1.setStk d { k with satStep := incSat 16 k.satStep n } else s1

/-- XOR of two byte lists. -/
def xorBytes (a b : List Byte) : List Byte := List.zipWith (· ^^^ ·) a b

/-- Send words on the command's route (R380). -/
def State.beSend (s : State) (x : BeCtx) (c : BitVec 512) (ws : List SWord) : State :=
  if beRoute c = 0xFFFF then s
  else
    match s.routeCfg (ctxSlot x) (beRoute c) with
    | none => s
    | some cf =>
      let d := epIdx cf.src / 240
      let n := epIdx cf.src % 240
      s.setEp (ctxSlot x) d n { s.ep (ctxSlot x) d n with buf := (s.ep (ctxSlot x) d n).buf ++ ws }

/-- Bytes as the words of one RAW token, the last marked LAST. -/
def rawToken (l : List Byte) (bad : Bool) : List SWord :=
  let g := groupsOf 256 l.length l
  g.mapIdx fun i w => ⟨Payload.ofBytes w, i + 1 == g.length, false, bad, false, 0⟩

/-- Write a unit's delta words to the undo log, `k` words per unit, from the word `w` on (R380). -/
def State.beLogWords (s : State) (x : BeCtx) (d : Nat) (b : BeCmd) (u k w : Nat) (bad : Bool) :
    List (List Byte) → State
  | [] => s
  | l :: r =>
    (s.beWrite x d b (beAt b.cmd 6 (u % 64) (u / 64 * (k * 256) + 256 * w)) l bad).beLogWords x d b u k
      (w + 1) bad r

/-- Log a unit's deltas. -/
def State.beLog (s : State) (x : BeCtx) (d : Nat) (b : BeCmd) (u k : Nat) (l : List Byte) (bad : Bool) :
    State := s.beLogWords x d b u k 0 bad (groupsOf 256 l.length l)

/-- The bytes of a unit's `k` delta words in the undo log. -/
def State.beLogRead (s : State) (x : BeCtx) (d : Nat) (b : BeCmd) (u k : Nat) : Nat → List Byte × Bool × State
  | 0 => ([], false, s)
  | n + 1 =>
    let r := s.beRead x d b (beAt b.cmd 6 (u % 64) (u / 64 * (k * 256) + 256 * (k - (n + 1)))) 256
    let t := r.2.beLogRead x d b u k n
    (r.1.bytes ++ t.1, !r.1.bad.isEmpty || t.2.1, t.2.2)

/-- A unit read an uncorrectable codeword: a list command halts Bellwether at the list's end (R589). -/
def State.beBad (s : State) (b : BeCmd) (bad : Bool) : State := if bad then s.listBad b.origin else s

/-- The signed byte of a scale. -/
def scaleOf (r : RamRead) : Int := toS 8 (leNat r.bytes)

/-! ### FEMA (R378) -/

/-- One element of a factor: the folded value and whether it saturated. -/
def femaElem (m : Int) (x : Int) (sr sf kk : Int) (b : Nat) (wrap : Bool) : Int × Bool :=
  ovfw (m + rneShr (align x (2 * sr) (sf + kk) - m) b) 16 wrap

/-- The exact sum over the batch of the products of columns `i` and `j`. -/
def femaSum (p : List Byte) (n k i j : Nat) : Int :=
  (List.range k).foldl (fun t r =>
    t + (p.getD (r * n + i) 0).toInt * (p.getD (r * n + j) 0).toInt) 0

/-- Unit `u` of a FEMA. -/
def State.femaUnit (s : State) (x : BeCtx) (d : Nat) (b : BeCmd) (u : Nat) : State :=
  let c := b.cmd
  let nn := (beP c 0).toNat
  let sc := s.beRead x d b (beTile c 1 1 u) 1
  let f := sc.2.beRead x d b (beTile c 0 2048 u) 2048
  let bad := b.poisoned || !sc.1.bad.isEmpty || !f.1.bad.isEmpty
  let y := (unpackMant 16 f.1.bytes).mapIdx fun e m =>
    femaElem m (femaSum b.payload (32 * nn) (2 ^ (beP c 1).toNat) (32 * (u / nn) + e / 32)
      (32 * (u % nn) + e % 32)) (beP c 2) (scaleOf sc.1) (beP c 1) (beP c 3).toNat (beOvf c)
  let new := packMant 16 (y.map (·.1))
  let dl := xorBytes f.1.bytes new
  (((((f.2.beWrite x d b (beTile c 0 2048 u) new bad).beLog x d b u 8 dl bad).beSend x c
    (rawToken dl bad)).beSat x d (y.countP (·.2))).beBad b bad)

/-! ### OWNUPD and UNDO (R379, R381) -/

/-- What OWNUPD makes of one element: momentum, master weight, saturation events. -/
structure OwnElem where
  m : Int
  w : Int
  sats : Nat
  deriving DecidableEq, Repr

/-- One element through OWNUPD; the scales are those of direction, momentum, weights and G. -/
def ownElem (dv m w : Int) (sd sm sw sg : Int) (bm : Nat) (g : Int) (r : Option W32) (wrap : Bool) : OwnElem :=
  let m1 := ovfw (m + rneShr (align dv sd sm - m) bm) 16 wrap
  let u := shiftRound (m1.1 * g) (sw - (sm + sg)) r
  let w1 := ovfw (w - u) 32 wrap
  ⟨m1.1, w1.1, (if m1.2 then 1 else 0) + (if w1.2 then 1 else 0)⟩

/-- What SR takes its words from in a command, for a stream; none under RNE. -/
def State.beKey (s : State) (x : BeCtx) (c : BitVec 512) (stream : W32) : Option SrKey :=
  if beRnd c then some ⟨s.seedOf (ctxSlot x), stream, beStep c⟩ else none

/-- Write the working tile of unit `u` from the master tile `w` of scale `sw`. -/
def State.workTile (s : State) (x : BeCtx) (d : Nat) (b : BeCmd) (u : Nat) (w : List Int) (sw : Int) (bad : Bool) :
    State :=
  let c := b.cmd
  let q := quant w sw 8 none (beP c 2).toNat
    (srWord (s.beKey x c (beStream c + 1)) ((beTbase c + u) % 2 ^ 22)) false
  (((s.beWrite x d b (beTile c 7 1024 u) (packMant 8 q.y) bad).beWrite x d b
    (striped ((beBase c 7 + 1) * 2 ^ 18) (u % 64) (u / 64)) (leInt 1 q.scale) bad).beSat x d q.sats)

/-- Unit `u` of an OWNUPD. -/
def State.ownUnit (s : State) (x : BeCtx) (d : Nat) (b : BeCmd) (u : Nat) : State :=
  let c := b.cmd
  let a := s.beRead x d b (beTile c 0 2048 u) 2048
  let sa := a.2.beRead x d b (beTile c 1 1 u) 1
  let m := sa.2.beRead x d b (beTile c 2 2048 u) 2048
  let sm := m.2.beRead x d b (beTile c 3 1 u) 1
  let w := sm.2.beRead x d b (beTile c 4 4096 u) 4096
  let sw := w.2.beRead x d b (beTile c 5 1 u) 1
  let bad := b.poisoned || [a.1, sa.1, m.1, sm.1, w.1, sw.1].any fun r => !r.bad.isEmpty
  let key := srWord (s.beKey x c (beStream c)) ((beTbase c + u) % 2 ^ 22)
  let ds := unpackMant 16 a.1.bytes
  let ms := unpackMant 16 m.1.bytes
  let y := (unpackMant 32 w.1.bytes).mapIdx fun e v =>
    ownElem (ds.getD e 0) (ms.getD e 0) v (scaleOf sa.1) (scaleOf sm.1) (scaleOf sw.1) (beP c 1)
      (beP c 0).toNat (beG c) (key e) (beOvf c)
  let mNew := packMant 16 (y.map (·.m))
  let wNew := packMant 32 (y.map (·.w))
  let dl := xorBytes m.1.bytes mNew ++ xorBytes w.1.bytes wNew
  ((((((sw.2.beWrite x d b (beTile c 2 2048 u) mNew bad).beWrite x d b (beTile c 4 4096 u) wNew bad).workTile
    x d b u (y.map (·.w)) (scaleOf sw.1) bad).beLog x d b u 24 dl bad).beSend x c (rawToken dl bad)).beSat x d
      (sumNat (y.map (·.sats)))).beBad b bad

/-- Unit `u` of an UNDO. -/
def State.undoUnit (s : State) (x : BeCtx) (d : Nat) (b : BeCmd) (u : Nat) : State :=
  let c := b.cmd
  let l := s.beLogRead x d b u 24 24
  let m := l.2.2.beRead x d b (beTile c 2 2048 u) 2048
  let w := m.2.beRead x d b (beTile c 4 4096 u) 4096
  let sw := w.2.beRead x d b (beTile c 5 1 u) 1
  let bad := b.poisoned || l.2.1 || [m.1, w.1, sw.1].any fun r => !r.bad.isEmpty
  let wNew := xorBytes w.1.bytes (l.1.drop 2048)
  (((sw.2.beWrite x d b (beTile c 2 2048 u) (xorBytes m.1.bytes l.1) bad).beWrite x d b (beTile c 4 4096 u)
    wNew bad).workTile x d b u (unpackMant 32 wNew) (scaleOf sw.1) bad).beBad b bad

/-! ### XWRITE (R382) -/

/-- Unit `u` of an XWRITE. -/
def State.xwriteUnit (s : State) (x : BeCtx) (d : Nat) (b : BeCmd) (u : Nat) : State :=
  let c := b.cmd
  let a := s.beRead x d b (beTile c 0 2048 u) 2048
  let sa := a.2.beRead x d b (beTile c 1 1 u) 1
  let o := sa.2.beRead x d b (beTile c 4 2048 u) 2048
  let so := o.2.beRead x d b (beTile c 5 1 u) 1
  let bad := b.poisoned || [a.1, sa.1, o.1, so.1].any fun r => !r.bad.isEmpty
  let dl := xorBytes o.1.bytes a.1.bytes
  let ds := xorBytes so.1.bytes sa.1.bytes
  let ninth := List.replicate (beTile c 5 1 u % 256) (0 : Byte) ++ ds
  (((((so.2.beWrite x d b (beTile c 4 2048 u) a.1.bytes bad).beWrite x d b (beTile c 5 1 u) sa.1.bytes bad).beLog
    x d b u 8 dl bad).beWrite x d b (beTile c 7 1 u) ds bad).beSend x c
      (rawToken (dl ++ padTo 256 ninth) bad)).beBad b bad

/-! ### PAPPLY, DIGEST, WREAD and SNAP (R383-R386) -/

/-- Unit `k` of a PAPPLY. -/
def State.papplyUnit (s : State) (x : BeCtx) (d : Nat) (b : BeCmd) (k : Nat) : State :=
  let a := s.beRead x d b (beWord b.cmd 0 k) 256
  let o := a.2.beRead x d b (beWord b.cmd 4 k) 256
  let bad := b.poisoned || !a.1.bad.isEmpty || !o.1.bad.isEmpty
  (o.2.beWrite x d b (beWord b.cmd 4 k) (xorBytes o.1.bytes a.1.bytes) bad).beBad b bad

/-- mix64 (R384). -/
def mix64 (v : W64) : W64 := rndRound (rndRound v)

/-- What the lanes of word `k` add to a digest. -/
def digestWord (l : List Byte) (k : Nat) : W64 :=
  (List.range 32).foldl (fun t i =>
    t + mix64 (BitVec.ofNat 64 (fieldLe l (8 * i) 8) ^^^
      (BitVec.ofNat 64 (32 * k + i) * 0x9E6B3C1D5A27F843#64))) 0

/-- Change the command at the front of a queue. -/
def State.modFront (s : State) (d : Nat) (x : BeCtx) (f : BeCmd → BeCmd) : State :=
  let k := s.stk d
  match k.queue x with
  | b :: t => s.setStk d (k.setQueue x (f b :: t))
  | [] => s

/-- Unit `k` of a DIGEST. -/
def State.digestUnit (s : State) (x : BeCtx) (d : Nat) (b : BeCmd) (k : Nat) : State :=
  let a := s.beRead x d b (beWord b.cmd 0 k) 256
  (a.2.modFront d x fun b => { b with
    acc := b.acc + digestWord a.1.bytes k, poisoned := b.poisoned || !a.1.bad.isEmpty }).beBad b (!a.1.bad.isEmpty)

/-- One column of WREAD added to the row's sum: the sum, its events, whether a codeword was bad. -/
structure WreadAcc where
  v : Int
  sats : Nat
  bad : Bool
  s : State

/-- The columns of a row, `n` of them from `kc` on. -/
def State.wreadCols (x : BeCtx) (d : Nat) (b : BeCmd) (r kc : Nat) (t : WreadAcc) : Nat → WreadAcc
  | 0 => t
  | n + 1 =>
    let c := b.cmd
    let o := r / 64 * (beP c 1).toNat + kc
    let w := t.s.beRead x d b (beAt c 0 (r % 64) (o * 512)) 512
    let sc := w.2.beRead x d b (beAt c 1 (r % 64) o) 1
    let ws := unpackMant (if beP c 0 = 1 then 8 else 4) w.1.bytes
    let xs := unpackMant 8 ((b.payload.drop (kc * ws.length)).take ws.length)
    let p := (List.zipWith (· * ·) ws xs).foldl (· + ·) 0
    let v := ovfw (t.v + align p (scaleOf sc.1 + beP c 2) (beP c 3)) 32 (beOvf c)
    wreadCols x d b r (kc + 1)
      ⟨v.1, t.sats + (if v.2 then 1 else 0), t.bad || !w.1.bad.isEmpty || !sc.1.bad.isEmpty, sc.2⟩ n

/-- `n` free bytes, of the unused part of a word. -/
def State.freeBytes (s : State) : Nat → List Byte × State
  | 0 => ([], s)
  | n + 1 =>
    let w := s.takeFree
    let t := w.2.freeBytes n
    (w.1.setWidth 8 :: t.1, t.2)

/-- The word of outputs that has been gathered leaves; the bytes past the last row are open. -/
def State.wreadSend (s : State) (d : Nat) (x : BeCtx) (c : BitVec 512) (res : List (W32 × Bool)) (last : Bool) :
    State :=
  let f := s.freeBytes (256 - 4 * res.length)
  (f.2.beSend x c [⟨Payload.ofBytes (res.flatMap (fun r => leBytes 4 r.1.toNat) ++ f.1), last, false,
    res.any (·.2), false, 0⟩]).modFront d x fun b => { b with res := [] }

/-- Row `r` of a WREAD. -/
def State.wreadUnit (s : State) (x : BeCtx) (d : Nat) (b : BeCmd) (r : Nat) : State :=
  let c := b.cmd
  let t := State.wreadCols x d b r 0 ⟨0, 0, b.poisoned, s⟩ (beP c 1).toNat
  let v := BitVec.ofInt 32 t.v
  let s1 := (((t.s.beWrite x d b (beBase c 7 * 2 ^ 18 + 4 * r) (leBytes 4 v.toNat) t.bad).beSat x d t.sats).modFront
    d x fun b => { b with res := b.res ++ [(v, t.bad)] }).beBad b t.bad
  if r % 64 = 63 ∨ r + 1 = beNt c then s1.wreadSend d x c (b.res ++ [(v, t.bad)]) (r + 1 == beNt c) else s1

/-- Unit `k` of a SNAP. -/
def State.snapUnit (s : State) (x : BeCtx) (d : Nat) (b : BeCmd) (k : Nat) : State :=
  let c := b.cmd
  let a := s.beRead x d b (beWord c 0 k) 256
  let last := (k + 1) % 4096 == 0 || k + 1 == beNt c
  let plain := a.2.beSend x c [⟨Payload.ofBytes a.1.bytes, last, false, !a.1.bad.isEmpty, false, 0⟩]
  let with_ (at_ : Nat) (keep : Nat → Bool) : State :=
    let l := a.2.beRead x d b at_ 256
    let dl := l.1.bytes.mapIdx fun i v => if keep i then v else 0
    l.2.beSend x c [⟨Payload.ofBytes (xorBytes a.1.bytes dl), last, false,
      !a.1.bad.isEmpty || !l.1.bad.isEmpty, false, 0⟩]
  match s.snapNamed d b with
  | none => plain
  | some (nc, units) =>
    match s.namedUnit d nc (beWord c 0 k) with
    | some (u, w, n, sz) =>
      if units ≤ u then plain
      else
        let o := k / 1024 * 4096 + beWord c 0 k % 4096
        with_ (beAt c 6 (engOf (beWord c 0 k)) (o / sz * (n * 256) + 256 * w)) fun _ => true
    | none =>
      match s.namedScale d nc (beWord c 0 k) with
      | none => plain
      | some u =>
        if units ≤ u then plain
        else with_ (beWord c 6 k) fun i => decide (u + 64 * i < units)

/-! ### Running a command (R371, R375, R377) -/

/-- One unit of a command. -/
def State.beUnit (s : State) (x : BeCtx) (d : Nat) (b : BeCmd) (u : Nat) : State :=
  match beOp b.cmd with
  | 1 => s.femaUnit x d b u
  | 2 => s.ownUnit x d b u
  | 3 => s.undoUnit x d b u
  | 4 => s.xwriteUnit x d b u
  | 5 => s.papplyUnit x d b u
  | 6 => s.digestUnit x d b u
  | 7 => s.wreadUnit x d b u
  | _ => s.snapUnit x d b u

/-- The bank group whose engine runs unit `u` of a command: word `u` of its first base, or engine `u`
mod 64 (R285, R373). -/
def beGroup (c : BitVec 512) (u : Nat) : Nat :=
  (if [5, 6, 8].contains (beOp c) then engOf (beWord c 0 u) else u % 64) / 4

/-- Whether the memory slot in progress gives the engines of the next unit of a command to its context
(R371). -/
def State.beGiven (s : State) (d : Nat) (x : BeCtx) (b : BeCmd) : Bool :=
  (s.stk d).given.getD (beGroup b.cmd b.units) .nothing == .ctx x

/-- The next `n` units of the command at the front of a queue, up to one whose engine the memory slot in
progress does not give to the context. -/
def State.beUnits (s : State) (d : Nat) (x : BeCtx) : Nat → State
  | 0 => s
  | n + 1 =>
    match (s.stk d).queue x with
    | [] => s
    | b :: _ =>
      if beNt b.cmd ≤ b.units ∨ ¬ s.beGiven d x b then s
      else ((s.beUnit x d b b.units).modFront d x fun b => { b with units := b.units + 1 }).beUnits d x n

/-- The rejection of the front command, checked before its first unit. -/
def State.beStart (s : State) (d : Nat) (x : BeCtx) (b : BeCmd) : Option (Option (XFault × Nat)) :=
  if b.units = 0 then s.beReject x d b else none

/-- The front command leaves its queue by rejection, and the next reaches the front. -/
def State.beDrop (s : State) (d : Nat) (x : BeCtx) (b : BeCmd) (f : Option (XFault × Nat)) : State :=
  ((s.beRejected d x b f).beFront d x 8).afterLeave

/-- The engines run units of the command at the front of a context queue, if its opcode is the
one that the step names; the first unit waits for the check of R375. -/
def State.beRun (s : State) (d : Nat) (x : BeCtx) (op n : Nat) : State :=
  match (s.stk d).queue x with
  | [] => s
  | b :: _ =>
    if beOp b.cmd ≠ op then s
    else match s.beStart d x b with
      | some f => s.beDrop d x b f
      | none => s.beUnits d x n

/-- Whether every word that a command sent has been placed at its destination (R374). -/
def State.beSent (s : State) (x : BeCtx) (c : BitVec 512) : Bool :=
  !([1, 2, 4, 7, 8].contains (beOp c)) || beRoute c == 0xFFFF ||
    match s.routeCfg (ctxSlot x) (beRoute c) with
    | none => true
    | some cf => (s.route (ctxSlot x) (beRoute c)).flight.isEmpty &&
        (s.ep (ctxSlot x) (epIdx cf.src / 240) (epIdx cf.src % 240)).buf.isEmpty

/-- What a command does as it completes: DIGEST writes its sum. -/
def State.beFinish (s : State) (d : Nat) (x : BeCtx) (b : BeCmd) : State :=
  if beOp b.cmd = 6 then
    s.beWrite x d b (beBase b.cmd 7 * 2 ^ 18) (padTo 256 (leBytes 8 b.acc.toNat)) b.poisoned
  else s

/-- The command at the front of a context queue completes (R374). -/
def State.beComplete (s : State) (d : Nat) (x : BeCtx) : State :=
  match (s.stk d).queue x with
  | [] => s
  | b :: _ =>
    match s.beStart d x b with
    | some f => s.beDrop d x b f
    | none =>
      if b.units < beNt b.cmd ∨ ¬ s.beSent x b.cmd then s
      else
        let s1 := ((s.beFinish d x b).bump (rMemBedone d) 1).beLeave d x b
        let k := s1.stk d
        let s2 := if x = .a then s1.setStk d { k with doneA := k.doneA ++ [b.cmd] } else s1
        (s2.beFront d x 8).afterLeave

/-! ### Command tokens (R372) -/

/-- The words of the first token of a buffer, if its last word has arrived. -/
def firstToken (l : List SWord) : Option (List SWord) :=
  (l.findIdx? (·.last)).map fun i => l.take (i + 1)

/-- A command token of a CMD endpoint enters its context queue, when the queue has a place, its
payload a buffer, and no list entry for the stack remains. -/
def State.beToken (s : State) (j : JobSlot) (d n : Nat) : State :=
  let x : BeCtx := if j = .a then .a else .b
  match s.epCfg j d n with
  | none => s
  | some e =>
    match firstToken (s.ep j d n).buf with
    | none => s
    | some [] => s
    | some (w :: p) =>
      let listed := x == .a && s.listLeft.any fun l => l.1 == d
      let pl := !p.isEmpty && x == .b
      if e.typ ≠ 3 then s
      else if listed ∨ !(s.stk d).takes x (!p.isEmpty) ∨ (pl ∧ !(s.stk d).turn (some n)) then
        if pl then s.setStk d ((s.stk d).claim (some n)) else s
      else
        let c : BitVec 512 := w.data.extractLsb' 0 512
        let s0 := if pl then s.setStk d ((s.stk d).claimed (some n)) else s
        let s1 := (s0.setEp j d n { s.ep j d n with buf := (s.ep j d n).buf.drop (p.length + 1) }).creditsBack j
          (List.replicate (p.length + 1) e.route)
        if w.data.extractLsb' 512 1536 ≠ 0 ∨ 256 < p.length then
          s1.logReject x d (freePos ((s.stk d).queue x)) c
        else
          let s2 := s1.beEnter d x c (p.flatMap fun v => Payload.bytes v.data) (.route (routeKey j e.route))
            ((w :: p).any fun v => v.poison || v.invalid)
          if x = .a then s2.clutchWriter d c (.route (routeKey j e.route)) else s2

/-- A command token at an endpoint: job slot A's before job slot B's. -/
def State.bankToken (s : State) (d n : Nat) : State :=
  if (firstToken (s.ep .a d n).buf).isSome then s.beToken .a d n else s.beToken .b d n

/-! ### The commands -/

/-- BANK_COMMAND_TOKEN (R372). -/
def execBankCommandToken (d : Stack) (ep : Fin 240) (s : State) : Host.Outcome State Fault Refusal :=
  .next (s.bankToken d.val ep.val)

/-- The distance of a posted TAIL ahead of HEAD, both counted modulo 2^16. -/
def ringAhead (tail head : Nat) : Nat := (tail + 65536 - head) % 65536

/-- A write of MEM_HRTAIL: the doorbell of the host ring (R372, R393). -/
def State.hrtail (s : State) (v : W32) : State :=
  let t := v.toNat % 65536
  if 2 ^ s.getF fMemHrsizeLog2 < ringAhead t (s.getF fMemHrheadHead) then s.logCsr 1 rMemHrtail v.toNat
  else (s.setF fMemHrtailTail t).ringRun

/-- MEM_HRTAIL (R372). -/
def execMemHrtail (r : Requester) (v : BitVec 32) (s : State) : Host.Outcome State Fault Refusal :=
  .next (s.bar0 r fun s => s.hrtail v)

/-- FEMA (R378). -/
def execBeFema (d : Stack) (x : BeCtx) (n : BitVec 32) (s : State) : Host.Outcome State Fault Refusal :=
  .next (s.beRun d.val x 1 n.toNat)

/-- OWNUPD (R379). -/
def execBeOwnupd (d : Stack) (x : BeCtx) (n : BitVec 32) (s : State) : Host.Outcome State Fault Refusal :=
  .next (s.beRun d.val x 2 n.toNat)

/-- UNDO (R381). -/
def execBeUndo (d : Stack) (x : BeCtx) (n : BitVec 32) (s : State) : Host.Outcome State Fault Refusal :=
  .next (s.beRun d.val x 3 n.toNat)

/-- XWRITE (R382). -/
def execBeXwrite (d : Stack) (x : BeCtx) (n : BitVec 32) (s : State) : Host.Outcome State Fault Refusal :=
  .next (s.beRun d.val x 4 n.toNat)

/-- PAPPLY (R383). -/
def execBePapply (d : Stack) (x : BeCtx) (n : BitVec 32) (s : State) : Host.Outcome State Fault Refusal :=
  .next (s.beRun d.val x 5 n.toNat)

/-- DIGEST (R384). -/
def execBeDigest (d : Stack) (x : BeCtx) (n : BitVec 32) (s : State) : Host.Outcome State Fault Refusal :=
  .next (s.beRun d.val x 6 n.toNat)

/-- WREAD (R385). -/
def execBeWread (d : Stack) (x : BeCtx) (n : BitVec 32) (s : State) : Host.Outcome State Fault Refusal :=
  .next (s.beRun d.val x 7 n.toNat)

/-- SNAP (R386). -/
def execBeSnap (d : Stack) (x : BeCtx) (n : BitVec 32) (s : State) : Host.Outcome State Fault Refusal :=
  .next (s.beRun d.val x 8 n.toNat)

/-- BANK_COMMAND_COMPLETE (R374). -/
def execBankCommandComplete (d : Stack) (x : BeCtx) (s : State) : Host.Outcome State Fault Refusal :=
  .next (s.beComplete d.val x)

/-- Clear the counters of a stack. -/
def State.memClr (s : State) (d : Nat) : State :=
  (((s.wr (rMemEcc d) 0).wr (rMemBedone d) 0).wr (rMemBerej d) 0).wr (rMemSat d) 0

/-- MEM_CTL.CLRCNT of every stack (R393). -/
def State.memClrAll (s : State) : State := (List.range 8).foldl (fun t d => t.memClr d) s

/-- MEM_CLRCNT: a write of MEM_CTL with CLRCNT set; SCRUBEN takes the value written (R393). -/
def execMemClrcnt (r : Requester) (v : BitVec 32) (s : State) : Host.Outcome State Fault Refusal :=
  .next (s.bar0 r fun s => (s.memClrAll).setB fMemCtlScruben (v.getLsbD 1))

end Sys2Proof.Machine
end

