-- ==== Sys2Proof/Machine/Save.lean ====
section
/-! DEFINITION. The save port: drives and their commands, the clutch from its grant to its
header, the restore, and the hold-up energy (R605-R642). -/

namespace Sys2Proof.Machine

open Sys2Proof

/-! ### CRC-64 (R627) -/

/-- One bit of the ECMA-182 code. -/
def crc64Bit (c : W64) : W64 :=
  if c.getLsbD 63 then (c <<< 1) ^^^ 0x42F0E1EBA9EA3693#64 else c <<< 1

/-- One byte. -/
def crc64Byte (c : W64) (b : Byte) : W64 :=
  (List.range 8).foldl (fun x _ => crc64Bit x) (c ^^^ (b.setWidth 64 <<< 56))

/-- CRC-64 of bytes in ascending address order. -/
def crc64 (l : List Byte) : W64 := l.foldl crc64Byte 0

/-! ### The checks of an attachment (R609) -/

/-- Whether Identify Controller data allow transfers of 128 KiB (R609). -/
def identCtlOk (l : List Byte) : Bool := fieldLe l 77 1 == 0 || decide (5 ≤ fieldLe l 77 1)

/-- Whether Identify Namespace data satisfy R609. -/
def State.identNsOk (s : State) (n : Nat) (l : List Byte) : Bool :=
  let f := 128 + 4 * (fieldLe l 26 1 % 16)
  fieldLe l (f + 2) 1 == 12 && fieldLe l f 2 == 0 &&
    decide ((s.rd64 (rSavDrvBaseLo n)).toNat + 2 * (s.rd rSavArealen).toNat ≤ fieldLe l 0 8)

/-! ### Records of the clutch (R614-R632) -/

/-- Stream bytes of a plan. -/
def planBytes (p : List PlanEnt) : Nat := 256 * sumNat (p.map (·.nt))

/-- Bytes of a record's payload. -/
def recBytes : Nat := 0x100000

/-- NREC. -/
def Clutch.nrec (c : Clutch) : Nat := (planBytes c.plan + recBytes - 1) / recBytes

/-- MBLK (R626). -/
def mblk (planlen nrec : Nat) : Nat := (32 * planlen + 16 * nrec + 48 + 4095) / 4096

/-- A record. -/
def Clutch.recd (c : Clutch) (i : Nat) : RecSt :=
  Tab.look (fun _ => ⟨false, none, 0, false, false, 0, 0⟩) c.recs i

/-- Replace a record. -/
def Clutch.setRec (c : Clutch) (i : Nat) (r : RecSt) : Clutch := { c with recs := Tab.ins c.recs i r }

/-- The records that a test names. -/
def Clutch.recsBy (c : Clutch) (p : RecSt → Bool) : List Nat := (List.range c.nrec).filter fun i => p (c.recd i)

/-- The record places of a drive. -/
def State.drivePlaces (s : State) (c : Clutch) : Nat :=
  ((s.rd rSavArealen).toNat - 1 - mblk c.plan.length c.nrec) / 257

/-- Whether a command for some use is outstanding. -/
def State.useBusy (s : State) (p : NvmeUse → Bool) : Bool :=
  s.drives.any fun d => d.2.cmds.any fun c => p c.use

/-- The record header block (R627). -/
def recHeader (id : W64) (i n : Nat) (crc : W64) (poison : BitVec 4096) : List Byte :=
  padTo 4096 (leBytes 4 0x43524C43 ++ leBytes 4 0 ++ leBytes 8 id.toNat ++ leBytes 4 i ++ leBytes 4 n
    ++ leBytes 8 crc.toNat ++ leBytes 512 poison.toNat)

/-- The stream bytes in record `i`. -/
def Clutch.recLen (c : Clutch) (i : Nat) : Nat := min recBytes (planBytes c.plan - i * recBytes)

/-- The address of a record's ring place (R624). -/
def State.ringPlace (s : State) (i : Nat) : Nat :=
  (s.rd64 rSavRingLo).toNat + i % max 1 (s.getF fSavRinglenPlaces) * recBytes

/-- Issue the eight payload Writes of a record, 128 KiB each. -/
def State.writeChunks (s : State) (n i lba a : Nat) : Nat → State
  | 0 => s
  | k + 1 =>
    let o := (7 - k) * 0x20000
    let r := s.memRead .save 256 (a + o) 0x20000
    (r.2.nvmeIssue n opWrite (BitVec.ofNat 64 (lba + (7 - k) * 32)) 32 false (some (BitVec.ofNat 64 (a + o)))
      r.1.bytes (.record i)).writeChunks n i lba a k

/-- Write a captured record to its drive (R626, R627). -/
def State.writeRecord (s : State) (c : Clutch) (i : Nat) : State :=
  let r := c.recd i
  match r.drive with
  | none => s
  | some n =>
    let lba := s.areaLba n (c.id.toNat % 2) + 1 + mblk c.plan.length c.nrec + 257 * r.place
    let s1 := s.setClutch (c.setRec i { r with issued := true })
    (s1.nvmeIssue n opWrite (BitVec.ofNat 64 lba) 1 false none (recHeader c.id i (c.recLen i) r.crc r.poison)
      (.record i)).writeChunks n i (lba + 1) (s1.ringPlace i) 8

/-- Write every captured record that waits, once the headers of the area are zero (R625) and
unless PFAIL forbids it (R639). -/
def State.writeRecords (s : State) : List Nat → State
  | [] => s
  | i :: r =>
    match s.sav.clutch with
    | none => s
    | some c =>
      (if (c.recd i).captured ∧ ¬ (c.recd i).issued ∧ ¬ s.useBusy (· == .zero) ∧ ¬ s.bitF fSavHstatPfail then
        s.writeRecord c i else s).writeRecords r

/-- Registers CAPREC and DRNREC follow the records. -/
def State.countRecs (s : State) : State :=
  match s.sav.clutch with
  | none => s
  | some c => (s.wr rSavCaprec (BitVec.ofNat 32 (c.recsBy (·.captured)).length)).wr rSavDrnrec
      (BitVec.ofNat 32 (c.recsBy (·.written)).length)

/-- A record is written once none of its commands is outstanding. -/
def State.recDone (s : State) (i : Nat) : State :=
  match s.sav.clutch with
  | none => s
  | some c =>
    if (c.recd i).issued ∧ ¬ s.useBusy (· == .record i) then
      (s.setClutch (c.setRec i { c.recd i with written := true })).countRecs
    else s

/-! ### Manifest, header and seal (R630-R632) -/

/-- A plan entry's 32 bytes (R614). -/
def PlanEnt.bytes (e : PlanEnt) : List Byte :=
  padTo 32 (leBytes 1 e.stack ++ leBytes 1 e.layout ++ leBytes 2 0 ++ leBytes 4 e.am ++ leBytes 4 e.log
    ++ leBytes 4 e.nt ++ leBytes 2 e.route)

/-- The CRC values of the records, in order. -/
def Clutch.crcs (c : Clutch) : List Byte := (List.range c.nrec).flatMap fun i => leBytes 8 (c.recd i).crc.toNat

/-- The manifest (R631), padded to its last block. -/
def Clutch.manifest (c : Clutch) : List Byte :=
  padTo (4096 * mblk c.plan.length c.nrec)
    (c.plan.flatMap PlanEnt.bytes
      ++ (List.range c.nrec).flatMap (fun i =>
          leBytes 8 (c.recd i).crc.toNat ++ leBytes 4 ((c.recd i).drive.getD 0) ++ leBytes 4 (c.recd i).place)
      ++ leBytes 48 (Config.sha384 c.crcs).toNat)

/-- The clutch header without its CRC (R632). -/
def State.clutchHead (s : State) (c : Clutch) : List Byte :=
  let on (n : Nat) : Bool := (c.recsBy fun r => r.drive == some n) != []
  padTo 4088 (padTo 128 (leBytes 4 0x48544C43 ++ leBytes 1 1 ++ leBytes 1 (c.id.toNat % 2)
      ++ leBytes 1 (bitNat (on 0) 1 + bitNat (on 1) 2 + bitNat (on 2) 4 + bitNat (on 3) 8)
      ++ leBytes 1 (bitNat c.degraded 1 + bitNat c.poisoned 2 + bitNat c.huplow 4)
      ++ leBytes 8 c.id.toNat ++ leBytes 8 c.cstep.toNat ++ leBytes 8 c.imageId.toNat
      ++ leBytes 2 (match s.logical with | none => 0xFFFF | some _ => s.logChip.getD 0xFFFF)
      ++ leBytes 2 s.physChip ++ leBytes 4 c.nrec ++ leBytes 4 c.plan.length
      ++ leBytes 4 (mblk c.plan.length c.nrec) ++ leBytes 8 (crc64 c.manifest).toNat
      ++ leBytes 48 (Config.sha384 c.crcs).toNat)
    ++ leBytes 256 c.jsr.toNat)

/-- The clutch header. -/
def State.clutchHeader (s : State) (c : Clutch) : List Byte :=
  s.clutchHead c ++ leBytes 8 (crc64 (s.clutchHead c)).toNat

/-- Write the manifest to a drive in commands of at most 32 blocks. -/
def State.writeManifest (s : State) (n lba : Nat) : List (List Byte) → State
  | [] => s
  | l :: r =>
    (s.nvmeIssue n opWrite (BitVec.ofNat 64 lba) (l.length / 4096) false none l .manifest).writeManifest n (lba + 32) r

/-- Issue the commands of a step of the seal. -/
def State.sealIssue (s : State) (c : Clutch) (k : Nat) : State :=
  let s1 := s.setClutch { c with sealStep := k }
  let a := c.id.toNat % 2
  match k with
  | 1 => s1.eachDrive (fun t n => t.nvmeIssue n opFlush 0 0 false (some 0) [] .flush)
      ((List.range 4).filter fun n => c.recsBy (fun r => r.drive == some n) != [])
  | 2 => s1.eachDrive (fun t n => t.writeManifest n (t.areaLba n a + 1)
      (groupsOf 0x20000 c.manifest.length c.manifest)) s1.readyDrives
  | 3 => s1.eachDrive (fun t n => t.nvmeIssue n opFlush 0 0 false (some 0) [] .flush) s1.readyDrives
  | 4 => s1.eachDrive (fun t n => t.nvmeIssue n opWrite (BitVec.ofNat 64 (t.areaLba n a)) 1 true none
      (s1.clutchHeader c) .header) s1.readyDrives
  | _ => s1

/-- The clutch is complete (R630). -/
def State.clutchComplete (s : State) (c : Clutch) : State :=
  ((s.wr64 rSavCidLo c.id).wr64 rSavCstepLo c.cstep).endClutch 0

/-- The seal's next step, when the commands of the last one have completed. -/
def State.sealNext (s : State) : State :=
  match s.sav.clutch with
  | none => s
  | some c =>
    if s.savState ≠ savSeal ∨ c.sealStep = 0 ∨ 5 ≤ c.sealStep ∨ s.useBusy NvmeUse.ofClutch then s
    else if c.sealStep = 4 then s.clutchComplete c
    else s.sealIssue c (c.sealStep + 1)

/-! ### Restore (R633-R635) -/

/-- Whether a header is valid. -/
def headerOk (l : List Byte) : Bool :=
  l.length == 4096 && fieldLe l 0 4 == 0x48544C43 && fieldLe l 4 1 == 1
    && fieldLe l 4088 8 == (crc64 (l.take 4088)).toNat

/-- A restore ends with a code; an error count other than 0 makes it RESTORE_CRC. -/
def State.endRestore (s : State) (code : Nat) : State :=
  let id := ((s.sav.restore.map fun r => fieldLe r.header 8 8)).getD 0
  let s1 := { s with sav := { s.sav with restore := none } }
  let s2 := ((s1.setF fSavStatusState savIdle).setF fSavStatusCode code).setB fSavStatusDone true
  if code = 0 then s2 else s2.log ⟨14, code, unitDevice, false, false, id, 0⟩

/-- Replace the restore in progress. -/
def State.setRestore (s : State) (r : Restore) : State := { s with sav := { s.sav with restore := some r } }

/-- Read blocks of a drive in commands of at most 32 blocks. -/
def State.readBlocks (s : State) (n lba : Nat) (use : NvmeUse) : Nat → Nat → State
  | 0, _ => s
  | fuel + 1, k =>
    if k = 0 then s
    else (s.nvmeIssue n opRead (BitVec.ofNat 64 lba) (min 32 k) false none [] use).readBlocks n (lba + 32) use fuel (k - 32)

/-- The plan that a manifest holds. -/
def Restore.plan (r : Restore) : List PlanEnt :=
  (List.range (fieldLe r.header 40 4)).map fun i =>
    let e := slice r.manifest (32 * i) 32
    ⟨fieldLe e 0 1, fieldLe e 1 1, fieldLe e 4 4, fieldLe e 8 4, fieldLe e 12 4, fieldLe e 16 2⟩

/-- The record entry `i` of a manifest. -/
def Restore.entry (r : Restore) (i : Nat) : List Byte :=
  slice r.manifest (32 * fieldLe r.header 40 4 + 16 * i) 16

/-- The physical offset of stream byte `q` of a plan. -/
def planAddr : List PlanEnt → Nat → Option Nat
  | [], _ => none
  | e :: t, q =>
    if q < 256 * e.nt then some (e.stack * stackBytes + e.am * 2 ^ 18 + q) else planAddr t (q - 256 * e.nt)

/-- Write stream bytes to the pieces of a plan, from stream offset `o` on, word by word; `bad`
says which words of the record are written poisoned. -/
def State.putStream (s : State) (plan : List PlanEnt) (o w : Nat) (bad : Nat → Bool) : List (List Byte) → State
  | [] => s
  | l :: r =>
    (match planAddr plan o with
      | some a => s.memPut .save a l (bad w)
      | none => s).putStream plan (o + 256) (w + 1) bad r

/-- Put a record's bytes into the pieces. -/
def State.putRecord (s : State) (r : Restore) (i : Nat) (l : List Byte) (bad : Nat → Bool) : State :=
  s.putStream r.plan (i * recBytes) 0 bad (groupsOf 256 l.length l)

/-- Whether a record that was read agrees with its header block and the manifest (R635). -/
def Restore.recOk (r : Restore) (i : Nat) (l : List Byte) : Bool :=
  let crc := (crc64 (slice l 4096 recBytes)).toNat
  fieldLe l 0 4 == 0x43524C43 && fieldLe l 8 8 == fieldLe r.header 8 8 && fieldLe l 16 4 == i
    && fieldLe l 24 8 == crc && fieldLe (r.entry i) 0 8 == crc

/-- A record fails: it is counted and all its words are written poisoned. -/
def State.restBad (s : State) (r : Restore) (i : Nat) : State :=
  let n := min recBytes (planBytes r.plan - i * recBytes)
  (s.bump rSavRstrerr 1).putRecord r i (List.replicate n 0) fun _ => true

/-- The next record, or the end. -/
def State.restNext (s : State) (r : Restore) : Nat → State
  | 0 => s
  | fuel + 1 =>
    let i := r.recIdx
    if fieldLe r.header 36 4 ≤ i then s.endRestore (if s.rd rSavRstrerr = 0 then 0 else 8)
    else
      let e := r.entry i
      let n := fieldLe e 8 1
      if n < 4 ∧ s.driveReady n then
        let lba := s.areaLba n r.area + 1 + fieldLe r.header 44 4 + 257 * fieldLe e 12 4
        (s.setRestore { r with buf := [] }).readBlocks n lba (.rrec i) 9 257
      else (s.restBad r i).restNext { r with recIdx := i + 1 } fuel

/-- A record has been read, or cannot be. -/
def State.restRecord (s : State) (r : Restore) : State :=
  let i := r.recIdx
  let l := Tab.lookList (fun _ => (0 : Byte)) r.buf 0 (257 * 4096)
  let all := r.tried.isEmpty
  let s1 :=
    if all ∧ r.recOk i l then
      s.putRecord r i (slice l 4096 (min recBytes (fieldLe l 20 4))) fun w => (l.getD (32 + w / 8) 0).getLsbD (w % 8)
    else s.restBad r i
  s1.restNext { r with recIdx := i + 1, tried := [] } (fieldLe r.header 36 4 + 2)

/-- The drives that hold the chosen header in the chosen area. -/
def Restore.holders (r : Restore) : List Nat :=
  (r.headers.filter fun h => h.2 == r.header && h.1 % 2 == r.area).map fun h => h.1 / 2

/-- Read the manifest from the next drive that holds the header, or end with NOCLUTCH. -/
def State.restManifest (s : State) (r : Restore) : State :=
  match r.holders.find? fun n => !r.tried.contains n && s.driveReady n with
  | none => (s.setRestore r).endRestore 9
  | some n =>
    let k := fieldLe r.header 44 4
    (s.setRestore { r with phase := 1, tried := r.tried ++ [n], buf := [] }).readBlocks n
      (s.areaLba n r.area + 1) .rman (k / 32 + 1) k

/-- The manifest has been read: it is used when its CRC and digest agree with the header. -/
def State.restCheck (s : State) (r : Restore) : State :=
  let m := Tab.lookList (fun _ => (0 : Byte)) r.buf 0 (4096 * fieldLe r.header 44 4)
  let nrec := fieldLe r.header 36 4
  let r1 := { r with manifest := m }
  let crcs := (List.range nrec).flatMap fun i => (r1.entry i).take 8
  let dig := fieldLe m (32 * fieldLe r.header 40 4 + 16 * nrec) 48
  if (crc64 m).toNat = fieldLe r.header 48 8 ∧ (Config.sha384 crcs).toNat = dig
      ∧ dig = fieldLe r.header 56 48 then
    s.restNext { r1 with phase := 2, tried := [], recIdx := 0 } (nrec + 2)
  else s.restManifest r

/-- Every header that could be read has been: the one with the highest CLUTCHID in the area
chosen is used. -/
def State.restHeader (s : State) (r : Restore) : State :=
  let hs := r.headers.filter fun h => headerOk h.2
  match hs.foldl (fun (b : Option (Nat × List Byte)) h =>
      match b with
      | none => some h
      | some g => if fieldLe g.2 8 8 < fieldLe h.2 8 8 then some h else some g) none with
  | none => s.endRestore 9
  | some h => s.restManifest { r with header := h.2, area := h.1 % 2, tried := [] }

/-- Whether a command of a restore is outstanding. -/
def NvmeUse.ofRestore : NvmeUse → Bool
  | .rhead _ | .rman | .rrec _ => true
  | _ => false

/-- The restore goes on when none of its commands is outstanding. -/
def State.restProgress (s : State) : State :=
  match s.sav.restore with
  | none => s
  | some r =>
    if s.useBusy NvmeUse.ofRestore then s
    else match r.phase with
      | 0 => s.restHeader r
      | 1 => s.restCheck r
      | _ => s.restRecord r

/-- Bytes that a Read of the restore brought. -/
def State.restData (s : State) (n : Nat) (c : NvmeCmd) (l : List Byte) : State :=
  match s.sav.restore with
  | none => s
  | some r =>
    match c.use with
    | .rhead a => s.setRestore { r with headers := Tab.ins r.headers (2 * n + a) l }
    | .rman => s.setRestore { r with
        buf := Tab.putList (fun _ => 0) r.buf (4096 * (c.lba.toNat - (s.areaLba n r.area + 1))) l }
    | .rrec i =>
      let lba := s.areaLba n r.area + 1 + fieldLe r.header 44 4 + 257 * fieldLe (r.entry i) 12 4
      s.setRestore { r with buf := Tab.putList (fun _ => 0) r.buf (4096 * (c.lba.toNat - lba)) l }
    | _ => s

/-- A Read failed: of a record, it makes the record fail (R635); of an image, the load (R331, R689). -/
def State.readLost (s : State) (c : NvmeCmd) : State :=
  match c.use with
  | .rrec _ =>
    match s.sav.restore with
    | some r => s.setRestore { r with tried := [0] }
    | none => s
  | .image _ => { s with loader := s.loader.map fun l => { l with failed := true } }
  | .fw _ => { s with mgt := { s.mgt with fw := s.mgt.fw.map fun f => { f with failed := true } } }
  | _ => s

/-- The bytes of 128 KiB of a Jusia image that a Read brought (R689). -/
def State.fwData (s : State) (k : Nat) (l : List Byte) : State :=
  { s with mgt := { s.mgt with
    fw := s.mgt.fw.map fun f => { f with buf := Tab.putList (fun _ => 0) f.buf (0x20000 * k) l } } }

/-- The bytes of 128 KiB of an image that a Read brought go to device memory (R331). -/
def State.imageData (s : State) (k : Nat) (l : List Byte) : State :=
  match s.loader with
  | none => s
  | some ld =>
    s.memWrite .save (ld.src.toNat + 0x20000 * k) (l.take (min 0x20000 (ld.len.toNat - 0x20000 * k)))

/-! ### The energy of the hold-up store (R636-R638) -/

/-- The energy that the drives need. -/
def State.holdNeed (s : State) : Nat :=
  let on (n : Nat) : Bool := s.driveReady n || match s.sav.clutch with
    | some c => (c.recsBy fun r => r.drive == some n) != []
    | none => false
  ((List.range 4).filter on).length * s.getF fSavHneedFlushe + s.getF fSavHneedSeale

/-- E (R637). -/
def State.holdE (s : State) : Nat :=
  let v := (s.rd rSavHestv).toNat
  if s.bitF fSavHstatGstale then v else min (s.rd rSavHestg).toNat v

/-- Whether the two estimates disagree (R637). -/
def State.holdDis (s : State) : Bool :=
  let v := (s.rd rSavHestv).toNat
  let g := (s.rd rSavHestg).toNat
  let diff := max g v - min g v
  !s.bitF fSavHstatGstale &&
    (decide (max g v * s.getF fSavHcfgTol < diff * 16) || (g == 0 && decide (s.holdNeed ≤ v))
      || (v == 0 && decide (s.holdNeed ≤ g)))

/-- HUPLOW follows the estimate; each change is logged (R638). -/
def State.holdLow (s : State) : State :=
  let low := decide (s.holdE < s.holdNeed)
  if low = s.huplow then s
  else
    let s1 := (s.setB fSavHstatHuplow low).log ⟨14, 0x200, unitDevice, false, false, 0, 0⟩
    match s1.sav.clutch with
    | some c => s1.setClutch { c with huplow := c.huplow || low }
    | none => s1

/-- Reconcile the estimates, where one of them or the energy needed has changed. -/
def State.reconcile (s : State) : State := (if s.holdDis then s.setB fSavHstatHdis true else s).holdLow

/-- A drive becomes READY or not READY, and the energy needed follows. -/
def State.setReady (s : State) (n : Nat) (on : Bool) : State := (s.setB (fSavDrvStatReady n) on).reconcile

/-! ### What follows a drive's events (R612, R624, R629, R630) -/

/-- Everything in the save unit that a completed or lost command lets go on. -/
def State.savProgress (s : State) : State :=
  let s1 := match s.sav.clutch with
    | some c => s.writeRecords (List.range c.nrec)
    | none => s
  (s1.sealNext).restProgress

/-- The pieces that overlap a record. -/
def Clutch.overlaps (c : Clutch) (i : Nat) : List Nat :=
  (List.range c.plan.length).filter fun k =>
    let a := planBytes (c.plan.take k)
    let b := planBytes (c.plan.take (k + 1))
    decide (a < (i + 1) * recBytes) && decide (i * recBytes < b)

/-- Records that a failed drive held are lost: their pieces will be read again (R629). -/
def Clutch.lose (c : Clutch) (n : Nat) : Clutch :=
  let lost := c.recsBy fun r => r.drive == some n
  let again := lost.flatMap c.overlaps
  let c1 := lost.foldl (fun (t : Clutch) i => t.setRec i ⟨false, none, 0, false, false, 0, 0⟩) c
  again.foldl (fun (t : Clutch) k => if (t.piece k).phase = 2 then t.setPiece k ⟨0, none, false, [], []⟩ else t) c1

/-- What a failed drive means to the clutch (R629). -/
def State.clutchDrive (s : State) (n : Nat) : State :=
  match s.sav.clutch with
  | none => s
  | some c =>
    let c1 := { c with degraded := true, gone := c.gone ++ [n] }
    let lost := (c.recsBy fun r => r.drive == some n) != []
    if s.savState = savWait then s
    else if s.savState = savCapture then (s.setClutch (c1.lose n)).countRecs
    else if lost then (s.setClutch c1).endClutch 7
    else s.setClutch c1

/-- Reads that a failed drive leaves unanswered. -/
def State.lostReads (s : State) : List NvmeCmd → State
  | [] => s
  | c :: r => (s.readLost c).lostReads r

/-- A drive is not used any more: its commands are lost. -/
def State.driveGone (s : State) (n : Nat) : State :=
  let d := s.drive n
  ((((s.setDrive n { d with cmds := [], attach := 0, resetTried := false }).clutchDrive n).reconcile).lostReads
    d.cmds).savProgress

/-- A drive fails (R612, R629, R736). -/
def State.failDrive (s : State) (n cause status : Nat) : State :=
  let id := ((s.sav.clutch.map fun c => c.id.toNat)).getD 0
  ((((s.setReady n false).setF (fSavDrvStatFail n) cause).log
    ⟨14, 0x100 + cause, unitDrive n, false, false, id, status⟩)).driveGone n

/-! ### Attachment (R605-R609, R612) -/

/-- The admin commands that an attachment issues, in order: opcode, dwords 10 and 11, blocks of data. They are
the deletion of the I/O submission and completion queue, Identify of the controller and of namespace 1, Number
of Queues, and the creation of the completion and submission queue: 64 entries each, physically contiguous,
interrupts disabled. -/
def attachOps : List (Nat × Nat × Nat × Nat) :=
  [(0x100, 1, 0, 0), (0x104, 1, 0, 0), (0x106, 1, 0, 1), (0x106, 0, 0, 1), (0x109, 7, 0, 0),
    (0x105, 0x3F0001, 1, 0), (0x101, 0x3F0001, 0x10001, 0)]

/-- Where the data of an admin command stands: the queue that it creates. -/
def State.attachAddr (s : State) (n opc : Nat) : Option W64 :=
  if opc = 0x105 then some (BitVec.ofNat 64 (s.qbase n + 0x3000))
  else if opc = 0x101 then some (BitVec.ofNat 64 (s.qbase n + 0x2000))
  else if opc = 0x106 then none
  else some 0

/-- Admin command `k` of an attachment. -/
def State.attachNext (s : State) (n k : Nat) : State :=
  let o := attachOps.getD (k - 1) (0, 0, 0, 0)
  (s.setDrive n { s.drive n with attach := k }).nvmeIssue n o.1 (BitVec.ofNat 64 (o.2.1 + 2 ^ 32 * o.2.2.1)) o.2.2.2
    false (s.attachAddr n o.1) [] .attach

/-- An attachment fails: with TIMEOUT where a timeout began it (R607, R612). -/
def State.attachFail (s : State) (n cause status : Nat) : State :=
  s.failDrive n (if (s.drive n).resetTried then 6 else cause) status

/-- The controller's queues are new and empty; an abandoned command is not issued again. -/
def DriveSt.renew (d : DriveSt) : DriveSt :=
  { d with
    cmds := (d.cmds.filter fun c => c.use != .attach && c.use != .dead).map fun c => { c with sent := none }
    admin := ⟨0, 0, true⟩, io := ⟨0, 0, true⟩, paired := false }

/-- Steps 1 to 3 of an attachment. The link trains at the highest rate that both ends support, the drive takes
its bus number, and its controller is disabled, then enabled with a 4 KiB page and the admin queues of R610.
What lies below the root port is a free value (log entry 29): no device (rate 0 or 7), a function 0 of another
class, a controller that is not ready within its timeout. -/
def State.attachTrain (s : State) (n : Nat) : State :=
  let f := (s.setDrive n (s.drive n).renew).takeFree
  let rate := f.1.toNat % 8
  if rate = 0 ∨ rate = 7 then (f.2.setF (fSavDrvStatSpeed n) 0).attachFail n 1 0
  else
    let s1 := (f.2.setF (fSavDrvStatSpeed n) rate).emit (.enumerate (Fin.ofNat 4 n) (n + 1))
    if f.1.toNat / 8 % 2 ^ 24 ≠ 0x010802 then s1.attachFail n 1 0
    else
      let s2 := s1.emit (.enable (Fin.ofNat 4 n) 4096 (s1.qbase n) (s1.qbase n + 0x1000))
      if f.1.getLsbD 27 then s2.attachNext n 3 else s2.attachFail n 4 0

/-- An attachment begins at the end of reset or at a RESET write, with the deletion of the old I/O queues where
the controller has them; a drive with EN = 0 is not attached (R607, R608). -/
def State.attachDrive (s : State) (n : Nat) : State :=
  let d := s.drive n
  let s1 := ((s.setReady n false).setF (fSavDrvStatFail n) 0).setDrive n
    { d with cmds := d.cmds.filter fun c => c.use != .attach, attach := 0, resetTried := false }
  if ¬ s1.bitF (fSavDrvCtlEn n) then s1.driveGone n
  else if d.paired then s1.attachNext n 1
  else s1.attachTrain n

/-- A controller is reset and attached again after a timeout (R612). -/
def State.attachAgain (s : State) (n : Nat) : State :=
  let s1 := s.setReady n false
  (s1.setDrive n { s1.drive n with attach := 0, resetTried := true }).attachTrain n

/-- An attachment ends: the drive is READY, and the commands that wait are issued, those of before a reset of
the controller too. -/
def State.attachDone (s : State) (n : Nat) : State :=
  ((s.setDrive n { s.drive n with attach := 0, resetTried := false, paired := true }).setReady n true).nvmePump n 64

/-- An admin command of an attachment completed well. -/
def State.attachStep (s : State) (n : Nat) (l : List Byte) : State :=
  let k := (s.drive n).attach
  if k = 2 then s.attachTrain n
  else if (k = 3 ∧ ¬ identCtlOk l) ∨ (k = 4 ∧ ¬ s.identNsOk n l) then s.attachFail n 3 0
  else if k = 7 then (s.attachDone n).savProgress
  else s.attachNext n (k + 1)

/-- An admin command of an attachment failed, or did not complete: the deletion of the old queues is no step of
R607, and the attachment goes on. -/
def State.attachError (s : State) (n status : Nat) : State :=
  if (s.drive n).attach ≤ 2 then s.attachStep n [] else s.attachFail n 4 status

/-! ### Completions (R611-R613) -/

/-- A command completed without error. -/
def State.cmdDone (s : State) (n : Nat) (c : NvmeCmd) (l : List Byte) : State :=
  match c.use with
  | .attach => s.attachStep n l
  | .record i => (s.recDone i).savProgress
  | .rhead _ | .rman | .rrec _ => (s.restData n c l).savProgress
  | .image k => s.imageData k l
  | .fw k => s.fwData k l
  | .zero | .flush | .manifest | .header | .dead => s.savProgress

/-- A command leaves a drive's list, and those that wait for a place enter their queue. -/
def State.cmdGone (s : State) (n : Nat) (c : NvmeCmd) : State :=
  let d := s.drive n
  (s.setDrive n { d with cmds := d.cmds.filter fun x => x.cid != c.cid }).nvmePump n 64

/-- A Read or Write with an error is issued once more (R612). -/
def State.cmdRetry (s : State) (n : Nat) (c : NvmeCmd) : State :=
  let d := s.drive n
  (s.setDrive n { d with
    cmds := d.cmds ++ [{ c with cid := d.nextCid, retried := true, sent := none }]
    nextCid := d.nextCid + 1 }).nvmePump n 64

/-- A command completed with an error status. An abandoned one is over. -/
def State.cmdError (s : State) (n : Nat) (c : NvmeCmd) (status : Nat) : State :=
  if c.use = .dead then s
  else if c.use = .attach then s.attachError n status
  else if (c.opc = opRead ∨ c.opc = opWrite) ∧ ¬ c.retried then s.cmdRetry n c
  else (s.readLost c).failDrive n 5 status

/-- The 16 bytes of a completion entry. -/
def cqeBytes (e : NvmeEntry) : List Byte :=
  leBytes 8 0 ++ leBytes 2 e.sqhead.toNat ++ leBytes 2 e.sqid.toNat ++ leBytes 2 e.cid.toNat
    ++ leBytes 2 e.status.toNat

/-- The entry at the head of a completion queue is taken (R612, R613, R736). -/
def State.cqTake (s : State) (n : Nat) (e : NvmeEntry) : State :=
  let stray := (s.bumpF (fSavDrvStatStray n) 1).log ⟨14, 0x300, unitDrive n, false, false, 0, e.status.toNat⟩
  match (s.drive n).cmds.find? fun c => c.cid == e.cid && c.sent.isSome with
  | none => stray
  | some c =>
    if e.sqid.toNat ≠ (if c.adm then 0 else 1) ∨ (if c.adm then 16 else 64) ≤ e.sqhead.toNat then stray
    else if e.status.toNat / 2 = 0 then (s.cmdGone n c).cmdDone n c e.data
    else (s.cmdGone n c).cmdError n c e.status.toNat

/-- A drive writes a completion entry at the head of a completion queue, where its phase bit shows whether it
is new (R611). -/
def State.nvmeCompletion (s : State) (n : Nat) (e : NvmeEntry) : State :=
  let d := s.drive n
  let adm := e.sqid == 0
  let q := if adm then d.admin else d.io
  let s1 := s.memWrite .save (s.qbase n + (if adm then 0x1000 else 0x3000) + 16 * q.head) (cqeBytes e)
  if e.status.getLsbD 0 ≠ q.phase then s1
  else
    (s1.setDrive n (if adm then { d with admin := q.pop 16 } else { d with io := q.pop 64 })).cqTake n e

/-- NVME_COMPLETION (R612). -/
def execNvmeCompletion (n : Drive) (e : NvmeEntry) (s : State) : Host.Outcome State Fault Refusal :=
  .next (s.nvmeCompletion n.val e)

/-- A command without completion SAV_CFG.TMO ms (125,000 tk each) after its issue: the controller is reset and
attached again once; a command that times out again fails its drive with TIMEOUT (R612). -/
def State.nvmeTimeout (s : State) (n : Nat) (cid : BitVec 16) : State :=
  let d := s.drive n
  match d.cmds.find? fun c => c.cid == cid && c.sent.isSome with
  | none => s
  | some c =>
    if s.age c.since < 125000 * s.getF fSavCfgTmo then s
    else if c.use = .attach ∧ d.attach ≤ 2 then
      (s.setDrive n { d with cmds := d.cmds.filter fun x => x.cid != cid }).attachError n 0
    else if c.timed ∨ d.resetTried then s.failDrive n 6 0
    else
      (s.setDrive n { d with cmds := d.cmds.map fun x => if x.cid = cid then { x with timed := true } else x
        }).attachAgain n

/-- NVME_TIMEOUT (R612). -/
def execNvmeTimeout (n : Drive) (cid : BitVec 16) (s : State) : Host.Outcome State Fault Refusal :=
  .next (s.nvmeTimeout n.val cid)

/-- A link goes down (R612). -/
def State.linkDown (s : State) (n : Nat) : State :=
  let s0 := s.setF (fSavDrvStatSpeed n) 0
  let s1 := s0.setDrive n { s0.drive n with paired := false }
  if s.driveReady n ∨ (s.drive n).attach ≠ 0 then s1.failDrive n 2 0 else s1

/-- DRIVE_LINK_DOWN (R612). -/
def execDriveLinkDown (n : Drive) (s : State) : Host.Outcome State Fault Refusal := .next (s.linkDown n.val)

/-- Whether a memory request of a drive lies in its queues or in the PRP ranges of its
outstanding commands (R610, R736). -/
def State.drvReqOk (s : State) (n a len : Nat) : Bool :=
  let q := (s.rd64 rSavQbaseLo).toNat + n * 0x40000
  (decide (q ≤ a) && decide (a + len ≤ q + 0x40000)) ||
    (s.drive n).cmds.any fun c =>
      c.sent.isSome && c.blocks != 0 && match c.addr with
        | some b => decide (b.toNat ≤ a) && decide (a + len ≤ b.toNat + 4096 * c.blocks)
        | none => false

/-- A refused memory request; the third within one second fails the drive. -/
def State.drvReq (s : State) (n a len : Nat) : State :=
  if s.drvReqOk n a len then s
  else
    let d := s.drive n
    let l := (d.badReqs.filter fun t => s.age t < 125000000) ++ [s.clock]
    let s1 := ((s.setDrive n { d with badReqs := l }).emit (.ur (Fin.ofNat 4 n))).log
      ⟨14, 0x301, unitDrive n, false, false, a, 0⟩
    if 3 ≤ l.length ∧ s.driveReady n then s1.failDrive n 5 0 else s1

/-- DRIVE_MEMORY_REQUEST (R736). -/
def execDriveMemoryRequest (n : Drive) (addr : BitVec 64) (len : BitVec 13) (s : State) :
    Host.Outcome State Fault Refusal := .next (s.drvReq n.val addr.toNat len.toNat)

/-- A write of SAV_DRVn_CTL with RESET (R607). -/
def execDriveReset (r : Requester) (n : Drive) (v : BitVec 32) (s : State) :
    Host.Outcome State Fault Refusal :=
  .next (s.bar0 r fun s => (s.setB (fSavDrvCtlEn n.val) (v.getLsbD 0)).attachDrive n.val)

/-! ### The clutch begins (R614-R617, R625) -/

/-- Jusia grants a clutch (R617). -/
def State.clutchGrant (s : State) : State :=
  if s.savState ≠ savIdle then s
  else
    let c : Clutch := ⟨s.rd64 rSavCidLo + 1, [], 0, 0, 0, [], [], false, false, s.huplow, none, 0, []⟩
    let s1 := (s.setClutch c).setF fSavStatusState savWait
    if s1.armed then s1 else s1.beginCapture

/-- SAV_CTL.REQ (R617). -/
def State.savReq (s : State) : State := s.emit .clutchAsk

/-- REQ (R617). -/
def execSavReq (r : Requester) (_v : BitVec 32) (s : State) : Host.Outcome State Fault Refusal :=
  .next (s.bar0 r State.savReq)

/-- CLUTCH_GRANT (R617). -/
def execClutchGrant (s : State) : Host.Outcome State Fault Refusal := .next s.clutchGrant

/-- ABORT (R622). -/
def execSavAbort (r : Requester) (_v : BitVec 32) (s : State) : Host.Outcome State Fault Refusal :=
  .next (s.bar0 r fun s => s.endClutch 1)

/-- SAV_CTL.RESTORE (R633, R634). -/
def State.savRestore (s : State) (v : W32) : State :=
  if s.armed ∨ s.savState ≠ savIdle then s.logCsr 4 rSavCtl v.toNat
  else
    let s1 := ((s.setF fSavStatusState Machine.savRestore).wr rSavRstrerr 0).setRestore ⟨0, [], [], 0, [], [], 0, []⟩
    let ar := s.getF fSavRstrArea
    let as := if ar = 2 then [0, 1] else [ar]
    let ds := (s.readyDrives).filter fun n => (s.getF fSavRstrDrvmask).testBit n
    (s1.eachDrive (fun t n => as.foldl (fun u a =>
      u.nvmeIssue n opRead (BitVec.ofNat 64 (u.areaLba n a)) 1 false none [] (.rhead a)) t) ds).savProgress

/-- RESTORE (R633). -/
def execSavRestore (r : Requester) (v : BitVec 32) (s : State) : Host.Outcome State Fault Refusal :=
  .next (s.bar0 r fun s => s.savRestore v)

/-- SAV_CTL.CLRCNT: HOLDCNT, REREAD and the stray counts are the lifetime counters (R641). -/
def State.savClr (s : State) : State :=
  [0, 1, 2, 3].foldl (fun t n => t.setF (fSavDrvStatStray n) 0) ((s.wr rSavHoldcnt 0).wr rSavReread 0)

/-- SAV_CLRCNT (R641). -/
def execSavClrcnt (r : Requester) (_v : BitVec 32) (s : State) : Host.Outcome State Fault Refusal :=
  .next (s.bar0 r State.savClr)

/-! ### Reading a piece (R618-R620, R623) -/

/-- The SNAP of a piece; P0 is the queue position of the command that it names, or -1. -/
def snapCmd (e : PlanEnt) (p0 : Int) : BitVec 512 :=
  BitVec.ofNat 512 (8 + e.nt * 2 ^ 32 + e.am * 2 ^ 128 + e.log * 2 ^ 320 + e.route * 2 ^ 384
    + (p0 % 256).toNat * 2 ^ 400)

/-- Start the read of a piece, as the writers of the attempt allow. -/
def State.pieceStart (s : State) (c : Clutch) (i : Nat) (e : PlanEnt) : State :=
  let k := s.stk e.stack
  let wait := k.qa.filter fun b => s.writesPiece e.stack b.cmd e
  let done := k.doneA.filter fun b => s.writesPiece e.stack b e
  let go (p0 : Int) (named : Option (BitVec 512)) (log : Bool) : State :=
    (s.setClutch (c.setPiece i ⟨1, named, log, [], []⟩)).beEnter e.stack .h (snapCmd e p0) [] (.save i) false
  match wait, done with
  | [], [] => go (-1) none false
  | [b], [] => go b.pos (some b.cmd) false
  | [], _ :: _ => go (-1) none true
  | _, _ => s

/-- The physical address of the delta of byte `q` of a piece, in the layout that LAYOUT selects. -/
def PlanEnt.logAddr (e : PlanEnt) (q : Nat) : Nat :=
  let a := e.am * 2 ^ 18 + q
  let o := q / 2 ^ 18 * 4096 + a % 4096
  let b := e.stack * stackBytes
  match e.layout with
  | 1 => b + e.log * 2 ^ 18 + q
  | 2 => b + striped (e.log * 2 ^ 18) (engOf a) (o / 2048 * 6144 + o % 2048)
  | _ => b + striped (e.log * 2 ^ 18) (engOf a) (o / 4096 * 6144 + 2048 + o % 4096)

/-- Words of a piece with the deltas of its log applied: bytes and poisoned words. -/
def State.applyLog (s : State) (e : PlanEnt) (k : Nat) : List SWord → List (Payload × Bool) × State
  | [] => ([], s)
  | w :: r =>
    let l := s.memRead .save 256 (e.logAddr (256 * k)) 256
    let t := l.2.applyLog e (k + 1) r
    ((w.data ^^^ Payload.ofBytes l.1.bytes, w.poison || !l.1.bad.isEmpty) :: t.1, t.2)

/-- Every word of the read has arrived: the piece holds its final bytes. -/
def State.pieceEnd (s : State) (c : Clutch) (i : Nat) (e : PlanEnt) : State :=
  let rt := s.route .a e.route
  if rt.dst.length < e.nt then s
  else
    let ws := rt.dst.take e.nt
    let s1 := s.setRoute .a e.route { rt with dst := rt.dst.drop e.nt }
    let r := if (c.piece i).log then s1.applyLog e 0 ws else (ws.map fun w => (w.data, w.poison), s1)
    let bad := (List.range e.nt).filter fun k => ((r.1[k]?).map (·.2)).getD false
    r.2.setClutch { c.setPiece i ⟨2, none, false,
        Tab.putList (fun _ => 0) [] 0 (r.1.flatMap fun p => Payload.bytes p.1), bad⟩ with
      poisoned := c.poisoned || !bad.isEmpty }

/-- Whether the save unit may start a read: not between a decision and the next step start. -/
def State.mayRead (s : State) : Bool := !(s.bwt.started && s.bwt.decided)

/-- The save unit starts the read of piece `i`, or takes its words once they have arrived. -/
def State.pieceRead (s : State) (i : Nat) : State :=
  match s.sav.clutch with
  | none => s
  | some c =>
    match c.plan[i]? with
    | none => s
    | some e =>
      if s.savState ≠ savCapture then s
      else match (c.piece i).phase with
        | 0 =>
          let same := c.reading.any fun k => (c.plan[k]?.map (·.route)) == some e.route
          if s.mayRead ∧ ¬ same ∧ (s.stk e.stack).qh.length < 8 then s.pieceStart c i e else s
        | 1 => s.pieceEnd c i e
        | _ => s

/-- PIECE_READ (R618). -/
def execPieceRead (i : BitVec 16) (s : State) : Host.Outcome State Fault Refusal := .next (s.pieceRead i.toNat)

/-! ### Capturing a record (R623, R624, R628) -/

/-- The stream bytes of a record with their poisoned words, from the pieces. -/
def Clutch.recData (c : Clutch) (i : Nat) : List Byte × BitVec 4096 :=
  let part (k : Nat) : List Byte × List Nat :=
    let a := planBytes (c.plan.take k)
    let n := 256 * ((c.plan[k]?).map (·.nt)).getD 0
    let lo := max a (i * recBytes)
    let hi := min (a + n) ((i + 1) * recBytes)
    (Tab.lookList (fun _ => 0) (c.piece k).bytes (lo - a) (hi - lo),
      ((c.piece k).poison.map fun w => a + 256 * w).filterMap fun o =>
        if lo ≤ o ∧ o < hi then some ((o - i * recBytes) / 256) else none)
  let ps := (c.overlaps i).map part
  (padTo recBytes (ps.flatMap (·.1)), (ps.flatMap (·.2)).foldl (fun m w => m ||| BitVec.ofNat 4096 (2 ^ w)) 0)

/-- The drive that takes the next record: the next READY drive with a free place that has not failed during
the clutch, in cyclic order after the drive of the record before it (R628, R629). -/
def State.recDrive (s : State) (c : Clutch) : Option Nat :=
  let from0 := match c.lastDrive with
    | some n => n + 1
    | none => 0
  ((List.range 4).map fun k => (from0 + k) % 4).find? fun n =>
    s.driveReady n && !c.gone.contains n && decide ((c.recsBy fun r => r.drive == some n).length < s.drivePlaces c)

/-- Whether the ring place of a record is free (R624). -/
def State.placeFree (s : State) (c : Clutch) (i : Nat) : Bool :=
  let m := max 1 (s.getF fSavRinglenPlaces)
  (List.range c.nrec).all fun j => j == i || j % m != i % m || !(c.recd j).captured || (c.recd j).written

/-- CAPTURE ends when every record is captured (R621). -/
def State.captureEnd (s : State) : State :=
  match s.sav.clutch with
  | none => s
  | some c => if (c.recsBy fun r => !r.captured).isEmpty then s.setF fSavStatusState savDrain else s

/-- Capture the first record that waits. -/
def State.recordCapture (s : State) : State :=
  match s.sav.clutch with
  | none => s
  | some c =>
    match c.recsBy fun r => !r.captured with
    | [] => s
    | i :: _ =>
      if s.savState ≠ savCapture ∨ ¬ s.placeFree c i ∨ ¬ ((c.overlaps i).all fun k => (c.piece k).phase == 2) then s
      else match s.recDrive c with
        | none => s.endClutch 6
        | some n =>
          let d := c.recData i
          let r : RecSt := ⟨true, some n, (c.recsBy fun r => r.drive == some n).length, false, false,
            crc64 d.1, d.2⟩
          let s1 := (s.memWrite .save (s.ringPlace i) d.1).setClutch { c.setRec i r with lastDrive := some n }
          ((s1.countRecs).captureEnd).savProgress

/-- RECORD_CAPTURE (R624). -/
def execRecordCapture (s : State) : Host.Outcome State Fault Refusal := .next s.recordCapture

/-- CLUTCH_SEAL (R630): the seal begins once every record is written. -/
def State.clutchSeal (s : State) : State :=
  match s.sav.clutch with
  | none => s
  | some c =>
    if s.savState = savDrain ∧ (c.recsBy fun r => !r.written) = [] ∧ c.sealStep = 0 then
      ((s.setF fSavStatusState savSeal).sealIssue c 1).savProgress
    else s

/-- CLUTCH_SEAL (R630). -/
def execClutchSeal (s : State) : Host.Outcome State Fault Refusal := .next s.clutchSeal

/-! ### Samples, and the loss of power (R636-R639) -/

/-- PFAIL (R639): a seal past its first step goes on when the energy suffices; otherwise every
READY drive is flushed and the clutch stops. -/
def State.pfail (s : State) : State :=
  let s1 := ((s.setB fSavHstatPfail true).log ⟨14, 0x201, unitDevice, false, false, 0, 0⟩).msix 0 4
  let on := match s.sav.clutch with
    | some c => s.savState == savSeal && decide (2 ≤ c.sealStep) && decide (s.holdNeed ≤ s.holdE)
    | none => false
  if on then s1
  else
    let s2 := match s1.sav.clutch with
      | some c => (s1.setClutch { c with sealStep := 5 })
      | none => s1
    s2.eachDrive (fun t n => t.nvmeIssue n opFlush 0 0 false (some 0) [] .dead) s2.readyDrives

/-- A conversion of VHOLD_SENSE (R636). -/
def State.holdupSample (s : State) (mv : Nat) : State :=
  let vm := mv * s.getF fSavHcfgDiv / 4
  let vmin := s.getF fSavHvoltVmin
  let ev := s.getF fSavHcfgCap * (vm * vm - vmin * vmin) / 2000000
  let s1 := ((s.setF fSavHstatVmeas (min vm 65535)).wr rSavHestv (BitVec.ofNat 32 (min ev (2 ^ 32 - 1)))).reconcile
  if vm < s1.getF fSavHvoltVfail ∧ ¬ s1.bitF fSavHstatPfail then s1.pfail else s1

/-- HOLDUP_SAMPLE (R636). -/
def execHoldupSample (mv : BitVec 12) (s : State) : Host.Outcome State Fault Refusal :=
  .next (s.holdupSample mv.toNat)

/-- GSTALE (R637): 50 ms, 6,250,000 tk, without a successful gauge read. -/
def State.gstale (s : State) : State :=
  if s.age (s.sav.gaugeAt.getD 0) < 6250000 then s else (s.setB fSavHstatGstale true).reconcile

/-- GSTALE (R637). -/
def execGstale (s : State) : Host.Outcome State Fault Refusal := .next s.gstale

end Sys2Proof.Machine
end

