-- ==== Sys2Proof/Machine/Fabric.lean ====
section
/-! DEFINITION. The fabric's shared parts: the comparators, the check codes of frames and
cells, chip coordinates and the way of a remote cell, request tags and the sending of remote
requests (R26-R28, R482, R484, R492, R494, R497, R507-R511, R526, R527). -/

namespace Sys2Proof.Machine

open Sys2Proof

/-! ### Comparators (R492, R531) -/

/-- The first fabric time at or after `t` that is H modulo P. -/
def nextFire (p h t : Nat) : Nat := if p = 0 then t else t + (h + p - t % p) % p

/-- Replace a comparator, and show it in its CAL registers. -/
def State.putCal (s : State) (n : Nat) (x : CalSt) : State :=
  (((s.setCal n x).wr64 (rCalNextLo n) (if x.armed then x.next else 0)).wr (rCalPeriod n)
    (BitVec.ofNat 32 x.period)).wr (rCalCfg n) (BitVec.ofNat 32 (x.owner + if x.armed then 4 else 0))

/-- Arm a comparator at fabric time `t`. -/
def State.armCal (s : State) (n period phase owner t : Nat) : State :=
  s.putCal n ⟨period, phase, BitVec.ofNat 64 (nextFire period phase t), owner, true⟩

/-- Disarm a comparator. -/
def State.disarmCal (s : State) (n : Nat) : State := s.putCal n CalSt.reset

/-- Each armed comparator of a list fires next at or after the current fabric time. -/
def State.retimeList (s : State) : List Nat → State
  | [] => s
  | n :: r =>
    let x := s.cal n
    (if x.armed then s.armCal n x.period x.phase x.owner s.time else s).retimeList r

/-- A port's slots begin anew where fabric time jumps. -/
def FabPort.jump (p : FabPort) : FabPort := { p with lastSlot := none }

/-- Fabric time jumps: the armed comparators follow it (R492). The frame boundary of this tick is judged in the
new time, unless it has been judged already (R521, log entry 39). -/
def State.jumpTime (s : State) (t : W64) : State :=
  ({ s with
      fab := { s.fab with
        time := t, jumped := s.fab.jumped + (t - s.fab.time), boundary := if s.fab.boundary = some s.fab.time then some t else none }
      ports := s.ports.map fun (e : Nat × FabPort) => (e.1, e.2.jump) } :
    State).retimeList (List.range 64)

/-- Arm a comparator of the device's own units that the spec gives no period (R494). -/
def State.armService (s : State) (n : Nat) : State :=
  let p := max 1 (Config.servicePeriod n).toNat
  s.armCal n p ((Config.servicePhase n).toNat % p) 3 s.time

/-- LOCK becomes 1: Sheepdog's and Jusia's comparators are armed with it (R494, log entry 80). -/
def State.setLock (s : State) : State :=
  if s.bitF fFabTstatLock then s
  else ((s.setB fFabTstatLock true).armService 62).armService 63

/-- Whether fabric time runs (R488). -/
def State.timeRuns (s : State) : Bool := !s.bitF fFabTstatFreflost

/-- Fabric time passes to a moment at which something falls due. -/
def State.reach (s : State) (t : Nat) : State :=
  if s.time < t ∧ s.timeRuns then s.passTime (t - s.time) else s

/-- Time passes until `n` tk after a moment of the control clock. -/
def State.reachFrom (s : State) (since : W64) (n : Nat) : State := s.reach (s.time + (n - s.age since))

/-! ### Check codes (R507, R509) -/

/-- One bit of the CRC-32 of IEEE 802.3, in its reflected form. -/
def crc32Bits : Nat → Nat → Nat
  | 0, c => c
  | n + 1, c => crc32Bits n (if c % 2 = 1 then (c / 2) ^^^ 0xEDB88320 else c / 2)

/-- The running CRC-32 after one more byte. -/
def crc32Byte (c : Nat) (b : Byte) : Nat := crc32Bits 8 (c ^^^ b.toNat)

/-- The CRC-32 of IEEE 802.3. -/
def crc32 (l : List Byte) : Nat := l.foldl crc32Byte 0xFFFFFFFF ^^^ 0xFFFFFFFF

/-- Bits of the CRC-16 of V.41, most significant first. -/
def crc16Bits : Nat → Nat → Nat
  | 0, c => c
  | n + 1, c => crc16Bits n ((if 0x8000 ≤ c then (2 * c) ^^^ 0x1021 else 2 * c) % 65536)

/-- The running CRC-16 after one more byte. -/
def crc16Byte (c : Nat) (b : Byte) : Nat := crc16Bits 8 (c ^^^ (256 * b.toNat))

/-- The CRC-16 of V.41 with initial value 0xFFFF. -/
def crc16 (l : List Byte) : Nat := l.foldl crc16Byte 0xFFFF

/-! ### Cells (R509, R510) -/

/-- A field of a cell's header. -/
def cellFld (c : Cell) (lo n : Nat) : Nat := c.hdr.toNat / 2 ^ lo % 2 ^ n

/-- The check code that a header and payload should carry: header bytes 8 to 15, then 0 to 5,
then the payload. -/
def cellCrc (hdr : BitVec 128) (p : Payload) : Nat :=
  let h := leBytes 16 hdr.toNat
  crc16 (h.drop 8 ++ h.take 6 ++ Payload.bytes p)

/-- Whether a cell's CRC passes. -/
def cellGood (c : Cell) : Bool := cellFld c 48 16 == cellCrc c.hdr c.payload

/-- A cell with its CRC written. -/
def cellSeal (hdr : Nat) (p : Payload) : Cell :=
  let h : BitVec 128 := BitVec.ofNat 128 hdr
  ⟨h ||| BitVec.ofNat 128 (cellCrc h p * 2 ^ 48), p⟩

/-- The empty place of a frame. -/
def cellEmpty : Cell := ⟨0, 0⟩

/-- The sideband of a word (R265). -/
def SWord.side (w : SWord) : Nat :=
  (if w.last then 1 else 0) + (if w.lend then 2 else 0) + (if w.poison then 4 else 0)
    + (if w.invalid then 8 else 0)

/-- The word that a cell carries. -/
def cellWord (c : Cell) : SWord :=
  ⟨c.payload, cellFld c 8 1 == 1, cellFld c 9 1 == 1, cellFld c 10 1 == 1, cellFld c 11 1 == 1, 0⟩

/-- A STREAM (1) or MULE (2) cell for a landing channel. -/
def wordCell (kind chan : Nat) (w : SWord) : Cell :=
  cellSeal (kind + 256 * w.side + 2 ^ 16 * (chan % 4096)) w.data

/-! ### Codewords (R497) -/

/-- The lanes of a port. -/
def portLanes (p : Nat) : Nat := if p < 16 then 8 else 32

/-- The frame codewords of a slot on one lane; the slot marker's codeword has this index. -/
def portCodewords (p : Nat) : Nat := if p < 16 then 9 else 4

/-- The bytes of a cell. -/
def cellBytes (c : Cell) : List Byte := leBytes 16 c.hdr.toNat ++ Payload.bytes c.payload

/-- The frame area that carries a frame: header, cells, and zeros. -/
def frameArea (p : Nat) (f : Frame) : List Byte :=
  padTo (640 * portLanes p * portCodewords p) (leBytes 64 f.hdr.toNat ++ f.cells.flatMap cellBytes)

/-- The marker of a codeword: lane, index, bits [9:0] of the slot index, and even parity. -/
def cwMarker (lane idx slot : Nat) : BitVec 20 :=
  let m := lane % 32 + 32 * (idx % 16) + 512 * (slot % 1024)
  BitVec.ofNat 20 (m + 2 ^ 19 * ((List.range 19).countP fun i => m.testBit i) % 2 ^ 20)

/-- The codeword that carries chunk `q` of a frame area. -/
def chunkWord (p slot : Nat) (area : List Byte) (q : Nat) : Codeword :=
  let l := q % portLanes p
  let i := q / portLanes p
  ⟨l, i, cwMarker l i slot, (area.drop (640 * q)).take 640⟩

/-- The slot-marker codeword of a lane: the fabric time of tick 0, the sender's chip number and port. -/
def slotMarker (p t0 chip lane : Nat) : Codeword :=
  ⟨lane, portCodewords p, cwMarker lane (portCodewords p) (t0 / 32),
    padTo 640 (leBytes 8 t0 ++ leBytes 2 chip ++ leBytes 1 p)⟩

/-- The codewords that a port sends in a slot: those of its frame, where it carries one, and the slot
marker on every lane. -/
def slotWords (p t0 chip : Nat) (f : Option Frame) : List Codeword :=
  (match f with
    | none => []
    | some g => (List.range (portLanes p * portCodewords p)).map (chunkWord p (t0 / 32) (frameArea p g)))
  ++ (List.range (portLanes p)).map (slotMarker p t0 chip)

/-! ### Chip coordinates (R27, R28, R482) -/

/-- The extents that an axis may have. -/
def axisSizes (axis : Nat) : List Nat := if axis = 3 then [4, 8, 16] else [2, 4, 8, 16]

/-- Whether coordinate `b` follows `a` on an axis of some permitted extent. -/
def follows (axis a b : Nat) : Bool := b == a + 1 || (b == 0 && (axisSizes axis).contains (a + 1))

/-- Whether a neighbour's chip number fits a port (R484). -/
def neighbourOk (own nb p : Nat) : Bool :=
  if p < 16 then
    let a := p / 4
    [0, 1, 2, 3].all (fun x => x == a || coord own x == coord nb x)
      && (if p / 2 % 2 = 0 then follows a (coord own a) (coord nb a)
          else follows a (coord nb a) (coord own a))
  else nb == own / 4 * 4 + (own % 4 ^^^ (p - 15))

/-- The neighbour's port at the other end of a port. -/
def peerPort (p : Nat) : Nat := if p < 16 then p ^^^ 2 else p

/-- The die of a port (R26). -/
def portDie (p : Nat) : Nat := if p < 16 then p % 2 else if p = 17 then 1 else 0

/-! ### The way of a remote cell (R526) -/

/-- The extent of an axis: the smallest permitted one that holds every chip number of the
chip map, or 16 where there is none (log entry 20). -/
def State.extent (s : State) (axis : Nat) : Nat :=
  match s.imgA.bind (·.chipmap) with
  | none => 16
  | some m =>
    let top := (((m.logical ++ m.spares).map fun c => coord c axis).foldl max 0) + 1
    ((1 :: axisSizes axis).find? fun e => top ≤ e).getD 16

/-- The axis and direction in which a cell for a chip moves next: none at its destination. -/
def State.nextHop (s : State) (own dest : Nat) : Option (Nat × Nat) :=
  ([0, 1, 2, 3].find? fun a => coord own a != coord dest a).map fun a =>
    let e := s.extent a
    let d := (coord dest a + e - coord own a % e) % e
    (a, if 2 * d ≤ e then 0 else 1)

/-- Whether a port is UP. -/
def State.portUp (s : State) (p : Nat) : Bool := s.getF (fFabPstatState p) == 5

/-- The port by which a cell leaves from a die, if one is UP. -/
def State.portFor (s : State) (die dest : Nat) : Option Nat :=
  match ((s.fabApplied.map (·.fwd)).getD []).find? fun f => f.1 == dest with
  | some f => if s.portUp f.2 then some f.2 else none
  | none =>
    match s.nextHop s.physChip dest with
    | none => none
    | some (a, d) =>
      let p := 4 * a + 2 * d
      [p + die, p + (1 - die)].find? s.portUp

/-- Queue a remote cell on its way; `none` when no port takes it. -/
def State.queueCell (s : State) (die dest : Nat) (c : Cell) : Option State :=
  match s.portFor die dest with
  | none => none
  | some p => some (s.setPort p { s.port p with remq := (s.port p).remq ++ [c] })

/-! ### Remote requests (R526, R527) -/

/-- REMTMO in tk. -/
def State.remTmo (s : State) : Nat := 32 * ((s.fabApplied.map (·.remtmo)).getD 64)

/-- Whether a tag is outstanding or still at rest. -/
def State.tagBusy (s : State) (t : Nat) : Bool :=
  s.rem.reqs.any (fun r => r.tag == t)
    || s.rem.resting.any fun r => r.1 == t && decide (s.time < r.2.toNat)

/-- The first free tag from `t` on. -/
def State.freeTag (s : State) (t : Nat) : Nat → Option Nat
  | 0 => none
  | n + 1 => if s.tagBusy (t % 65536) then s.freeTag (t + 1) n else some (t % 65536)

/-- The header of a remote cell: kind, slot, OP or STATUS, sideband, requester, tag,
destination and offset. -/
def remHdr (kind : Nat) (slotb : Bool) (op side src tag dest off : Nat) : Nat :=
  kind + (if slotb then 16 else 0) + 32 * (op % 8) + 256 * side + 2 ^ 16 * (src % 65536)
    + 2 ^ 32 * (tag % 65536) + 2 ^ 64 * (2 ^ 48 * (dest % 65536) + off % 2 ^ 48)

/-- A request ends: its tag rests for 2 × REMTMO slots. -/
def State.endTag (s : State) (t : Nat) : State :=
  { s with rem := { s.rem with
      reqs := s.rem.reqs.filter fun r => r.tag != t
      resting := (s.rem.resting.filter fun r => s.time < r.2.toNat)
        ++ [(t, BitVec.ofNat 64 (s.time + 2 * s.remTmo))] } }

/-- Count a request that ends REMOTE_LOST. -/
def State.countLost (s : State) : State := s.bumpF fFabRemcntLost 1

/-- Send a remote request. It ends REMOTE_LOST at once, and `false` is answered, when no port
can take its cell. -/
def State.remSend (s : State) (use : RemUse) (op chip off : Nat) (p : Payload) : Bool × State :=
  let n := s.rem.resting.length + s.rem.reqs.length + 1
  match s.freeTag s.rem.nextTag n with
  | none => (false, s.countLost)
  | some t =>
    match s.queueCell 0 chip (cellSeal (remHdr 3 false op 0 s.physChip t chip off) p) with
    | none => (false, s.countLost)
    | some s1 => (true, { s1 with rem := { s1.rem with
        reqs := s1.rem.reqs ++ [⟨t, use, chip, BitVec.ofNat 64 (s1.time + s1.remTmo)⟩]
        nextTag := (t + 1) % 65536 } })

end Sys2Proof.Machine
end

