-- ==== Sys2Proof/Machine/Xlate.lean ====
section
/-! DEFINITION. The four translation buffers, their walks and their invalidation, and how a
global address resolves (R394-R399, R402, R403, R415-R420). -/

namespace Sys2Proof.Machine

open Sys2Proof

/-! ### Lookup and fill (R416, R417) -/

/-- The size of an entry's page. -/
def XEntry.size (e : XEntry) : Nat := if e.big then 2 ^ 30 else 2 ^ 21

/-- Whether an entry covers a virtual offset of a job slot. -/
def XEntry.covers (e : XEntry) (j : JobSlot) (va : Nat) : Bool :=
  e.slot == j && va % 2 ^ 48 / e.size == e.vpage

/-- The entry that a walk found. -/
def XEntry.ofLeaf (j : JobSlot) (va : Nat) (l : Leaf) : XEntry :=
  ⟨j, l.big, va % 2 ^ 48 / l.size, l.page / l.size, l.r, l.w⟩

/-- The entry that a lookup hits. -/
def State.xhit (s : State) (b : XBuf) (j : JobSlot) (va : Nat) : Option XEntry :=
  (s.xbuf b).entries.find? fun e => e.covers j va

/-- What an access through an entry gives: `n` bytes from a virtual offset, within its page. -/
def State.through (s : State) (e : XEntry) (va n : Nat) (write : Bool) : XRes :=
  let ph := e.ppage * e.size + va % e.size
  if (if write then e.w else e.r) = false then .fault .access va
  else if ¬ s.isoOk (e.slot == .b) ph n then .fault .isolation va
  else .ok ph

/-- A successful walk fills one entry, unless one for the same page is present. -/
def State.xfill (s : State) (b : XBuf) (e : XEntry) : State :=
  let x := s.xbuf b
  if x.entries.any fun y => y.slot == e.slot && y.big == e.big && y.vpage == e.vpage then s
  else s.setXbuf b { x with
    entries := (if 256 ≤ x.entries.length then x.entries.drop 1 else x.entries) ++ [e] }

/-- Count a miss of a buffer. -/
def State.countMiss (s : State) : State := s.bump rXltMisscnt 1

/-- A miss starts a walk, and the access waits for it. -/
def State.xmiss (s : State) (b : XBuf) (j : JobSlot) (va : Nat) (w : Waiter) : State :=
  let x := s.xbuf b
  s.countMiss.setXbuf b { x with walks := x.walks ++ [⟨j, BitVec.ofNat 64 va, false, true, w⟩] }

/-- A DMA access: what a hit gives; a miss starts a walk, for which `w` waits. -/
def State.dmaXlate (s : State) (j : JobSlot) (va n : Nat) (write : Bool) (w : Waiter) : Option XRes × State :=
  match s.xhit .dma j va with
  | some e => (some (s.through e va n write), s)
  | none => (none, s.xmiss .dma j va w)

/-- What the access of a walk that has ended gives: through its entry, or its fault. -/
def State.walked (s : State) (e : Except XFault XEntry) (va n : Nat) (write : Bool) : XRes :=
  match e with
  | .ok x => s.through x va n write
  | .error f => .fault f va

/-! ### Global addresses (R394-R396) -/

/-- Where a global address lies: on this device, on another chip, or nowhere. -/
inductive Place | here | chip (n : Nat) | nowhere
  deriving DecidableEq, Repr

/-- The place of a global address named by a job slot. -/
def State.place (s : State) (j : JobSlot) (addr : Nat) : Place :=
  let n := addr / 2 ^ 48 % 65536
  if s.logChip = some n then .here
  else if j = .b then .nowhere
  else match s.resolveChip n with
    | none => .nowhere
    | some c => if c = s.physChip then .here else .chip c

/-! ### Invalidation (R419, R420) -/

/-- Whether an invalidation of a scope matches a job slot and a test of its virtual page. -/
def scopeHas (scope : Nat) (slot j : JobSlot) (page : Bool) : Bool :=
  scope == 2 || (slot == j && (scope == 0 || page))

/-- An invalidation begins in one buffer: matching entries leave, and the walks in flight are
older than it. -/
def XBufSt.inv (x : XBufSt) (scope : Nat) (j : JobSlot) (va : Nat) : XBufSt :=
  { x with
    entries := x.entries.filter fun e => !scopeHas scope j e.slot (e.covers j va)
    walks := (x.walks.take 4).map (fun w => { w with old := w.miss }) ++ x.walks.drop 4 }

/-- The four buffers. -/
def allBufs : List XBuf := [.host, .dma, .remw, .reme]

/-- A write of XLT_INV. -/
def State.xltInv (s : State) (v : W32) : State :=
  if s.bitF fXltStatusInvbusy then s.logCsr 2 rXltInv v.toNat
  else
    let scope := v.toNat % 4
    let j := if v.getLsbD 2 then JobSlot.b else JobSlot.a
    let va := s.rd64 rXltInvvaLo
    if scope = 3 then s.logCsr 1 rXltInv v.toNat
    else
      let s1 := allBufs.foldl (fun t b => t.setXbuf b ((t.xbuf b).inv scope j va.toNat)) s
      { s1.setB fXltStatusInvbusy true with invBusy := some (scope, j, va) }

/-- Whether the fill of a walk is discarded: it began before the invalidation in progress, which
covers it. -/
def State.fillStale (s : State) (w : XWalk) (e : XEntry) : Bool :=
  match s.invBusy with
  | some (scope, j, va) => w.old && scopeHas scope j e.slot (e.covers j va.toNat)
  | none => false

/-- The invalidation in progress completes once every walk that began before it has ended. -/
def State.invComplete (s : State) : State :=
  if s.invBusy.isSome ∧ ¬ (allBufs.any fun b => (s.xbuf b).walks.any (·.old)) then
    { s.setB fXltStatusInvbusy false with invBusy := none }
  else s

/-- XLT_INV (R419, R420). -/
def execXltInv (r : Requester) (v : BitVec 32) (s : State) : Host.Outcome State Fault Refusal :=
  .next (s.bar0 r fun s => s.xltInv v)

/-- INVALIDATION_COMPLETE (R419). -/
def execInvalidationComplete (s : State) : Host.Outcome State Fault Refusal := .next s.invComplete

/-! ### Window faults (R411) -/

/-- The fault that holds endpoint `n` of a stack in a job slot and is not yet an exception. -/
def State.heldFault (s : State) (j : JobSlot) (d n : Nat) : Option (EpCfg × HeldFault) :=
  match s.epCfg j d n, (s.ep j d n).fault with
  | some e, some f => if f.xlt ∧ ¬ f.raised then some (e, f) else none
  | _, _ => none

/-- The job slot whose endpoint holds an unresolved fault: A before B. -/
def State.faultSlot (s : State) (d n : Nat) : JobSlot :=
  if (s.heldFault .a d n).isSome then .a else .b

/-- The timeout of an unresolved window fault expires. -/
def State.xltTimeout (s : State) (d n : Nat) : State :=
  let j := s.faultSlot d n
  match s.heldFault j d n with
  | none => s
  | some (e, f) =>
    (s.reach (f.since.toNat + 32 * s.getF fXltTimeoutSlots)).raiseFault j d n e

/-- Jusia turns an unresolved window fault into an exception. -/
def State.faultDecision (s : State) (d n : Nat) : State :=
  let j := s.faultSlot d n
  match s.heldFault j d n with
  | none => s
  | some (e, _) => s.raiseFault j d n e

/-- XLT_TIMEOUT (R411). -/
def execXltTimeout (d : Stack) (ep : Fin 240) (s : State) : Host.Outcome State Fault Refusal :=
  .next (s.xltTimeout d.val ep.val)

/-- JUSIA_FAULT_DECISION (R411). -/
def execJusiaFaultDecision (d : Stack) (ep : Fin 240) (s : State) : Host.Outcome State Fault Refusal :=
  .next (s.faultDecision d.val ep.val)

/-- XLT_CTL.CLRCNT (R442). -/
def State.xltClr (s : State) : State := ((s.wr rXltMisscnt 0).wr rXltFltcnt 0).wr rXltAbandon 0

/-- XLT_CLRCNT: a write of XLT_CTL with CLRCNT set; B2XLT takes the value written. -/
def execXltClrcnt (r : Requester) (v : BitVec 32) (s : State) : Host.Outcome State Fault Refusal :=
  .next (s.bar0 r fun s => (s.store rXltCtl v).xltClr)

/-- Jusia marks a window page MISSING (R408). -/
def State.markMissing (s : State) (j : JobSlot) (w p : Nat) : State :=
  match ((s.windowsOf j).getD [])[w]? with
  | none => s
  | some cf => if p < cf.npage then s.putPage j w p WinPage.reset else s

/-- The image address at which an endpoint's walk stands. -/
def State.epAddr (s : State) (j : JobSlot) (d n : Nat) (e : EpCfg) : Int :=
  ((e.access (s.ep j d n).walk).map EpAcc.addr).getD (-1)

/-- The endpoints of a job slot on a stack that an unresolved fault holds on a page of a window: those
whose next access lies in that page. -/
def State.heldOn (s : State) (j : JobSlot) (cf : WinCfg) (p : Nat) : List Nat :=
  (List.range 240).filter fun n =>
    match s.heldFault j cf.stack n with
    | some (e, _) =>
      let a := s.epAddr j cf.stack n e
      decide (0 ≤ a) && cf.covers cf.stack a.toNat && (a.toNat - cf.base) / cf.psize == p
    | none => false

/-- An endpoint's fault is resolved: it resumes with the faulting word. -/
def State.resolve (s : State) (j : JobSlot) (d n : Nat) : State :=
  match s.epCfg j d n with
  | none => s
  | some e => (s.setEp j d n { s.ep j d n with fault := none }).setFar j e false

/-- A window refill through the mailbox (R409, R412): a page that becomes PRESENT resolves every
endpoint that an unresolved fault holds on it. -/
def State.refillPage (s : State) (j : JobSlot) (w p : Nat) : State :=
  match ((s.windowsOf j).getD [])[w]? with
  | none => s
  | some cf =>
    let s1 := s.refill j w cf p
    if (s1.winPage j w p).state = 0 then (s1.heldOn j cf p).foldl (fun t n => t.resolve j cf.stack n) s1
    else s1

/-- WIN_MARK_MISSING (R408). -/
def execWinMarkMissing (j : JobSlot) (w : Fin 256) (page : BitVec 16) (s : State) :
    Host.Outcome State Fault Refusal := .next (s.markMissing j w.val page.toNat)

end Sys2Proof.Machine
end

