-- ==== Sys2Proof/Machine/Dma.lean ====
section
/-! DEFINITION. The DMA channels: descriptors, IEEE 754 import and export, the accesses of a
unit, stops, completion, and the commands of the channels' registers (R332, R421-R432, R442). -/

namespace Sys2Proof.Machine

open Sys2Proof

/-! ### Descriptors (R422-R424) -/

/-- A field of a descriptor: `n` bytes from byte `o`. -/
def dF (d : BitVec 512) (o n : Nat) : Nat := d.toNat / 2 ^ (8 * o) % 2 ^ (8 * n)

/-- A bit of a descriptor's FLAGS. -/
def dFlag (d : BitVec 512) (b : Nat) : Bool := (dF d 1 1).testBit b

/-- OP. -/
def dOp (d : BitVec 512) : Nat := dF d 0 1
/-- NT. -/
def dNt (d : BitVec 512) : Nat := dF d 4 4
/-- W of the scaled side. -/
def dW (d : BitVec 512) : Nat := dF d 2 1 / 4 % 4

/-- The parameters ef and ff of an IEEE format. -/
def ieeeForm (f : Nat) : Nat × Nat :=
  match f % 4 with
  | 0 => (5, 10)
  | 1 => (8, 7)
  | 2 => (8, 23)
  | _ => (11, 52)

/-- The bytes of an element. -/
def ieeeBytes (f : Nat) : Nat := (1 + (ieeeForm f).1 + (ieeeForm f).2) / 8

/-- The bytes of an IEEE tile of a descriptor. -/
def dTile (d : BitVec 512) : Nat := 1024 * ieeeBytes (dF d 2 1)

/-- The tensor tile of the descriptor's tile `j`. -/
def dT (d : BitVec 512) (j : Nat) : Nat := dF d 40 4 + j

/-- The address of the scaled tile `j` from the mantissa base at byte `o` of the descriptor. -/
def dMant (d : BitVec 512) (o j : Nat) : Nat :=
  let sz := fmtBytes (dW d)
  if dFlag d 4 then striped (dF d o 8) (dT d j % 64) (dT d j / 64 * sz) else dF d o 8 + j * sz

/-- The address of the scale of tile `j`. -/
def dScale (d : BitVec 512) (j : Nat) : Nat :=
  if dFlag d 4 then striped (dF d 24 8) (dT d j % 64) (dT d j / 64) else dF d 24 8 + j

/-- The span of addresses from base `b` of what tiles of `sz` bytes occupy: first byte, and the
byte after the last; a striped tensor spans the 256 KiB blocks that it touches. -/
def dSpan (d : BitVec 512) (b sz : Nat) : Nat × Nat :=
  if dNt d = 0 then (b, b)
  else if dFlag d 4 then
    (b + dT d 0 / 64 * sz / 0x1000 * 0x40000,
      b + ((dT d (dNt d - 1) / 64 + 1) * sz + 0xFFF) / 0x1000 * 0x40000)
  else (b, b + dNt d * sz)

/-- The source spans of a descriptor, each with whether it is host memory. -/
def dSrc (d : BitVec 512) : List (Bool × Nat × Nat) :=
  let b := dF d 8 8
  match dOp d with
  | 1 => [(dFlag d 2, b, b + 256 * dNt d)]
  | 3 => [(dFlag d 2, b, b + dTile d * dNt d)]
  | 4 => [(dFlag d 2, dSpan d b (fmtBytes (dW d))), (false, dSpan d (dF d 24 8) 1)]
  | _ => []

/-- The destination spans of a descriptor. -/
def dDst (d : BitVec 512) : List (Bool × Nat × Nat) :=
  let b := dF d 16 8
  match dOp d with
  | 1 => [(dFlag d 3, b, b + 256 * dNt d)]
  | 2 => [(dFlag d 3, b, b + 256 * dNt d)]
  | 3 => [(dFlag d 3, dSpan d b (fmtBytes (dW d))), (false, dSpan d (dF d 24 8) 1)]
  | 4 => [(dFlag d 3, b, b + dTile d * dNt d)]
  | _ => []

/-- Whether two spans of the same memory overlap. -/
def spansMeet (a b : Bool × Nat × Nat) : Bool :=
  a.1 == b.1 && decide (a.2.1 < b.2.2) && decide (b.2.1 < a.2.2)

/-- Whether a span lies in one stack. -/
def oneStack (a : Nat × Nat) : Bool := a.2 ≤ a.1 || stackOf a.1 == stackOf (a.2 - 1)

/-- Whether the scaled side of an engine-striped descriptor, its mantissas from base `b` and its scale
plane, lies in one stack. -/
def dOneStack (d : BitVec 512) (b : Nat) : Bool :=
  let m := dSpan d b (fmtBytes (dW d))
  let c := dSpan d (dF d 24 8) 1
  oneStack m && oneStack c && (m.2 ≤ m.1 || stackOf m.1 == stackOf c.1)

/-- Whether a scaled descriptor's POL is AUTO: bit 4 of FMT (R236, R422). -/
def dAuto (d : BitVec 512) : Bool := (dF d 2 1).testBit 4

/-- Whether every field that the operation does not use is 0, and no field holds a reserved value. -/
def dFields (d : BitVec 512) : Bool :=
  dF d 1 1 < 128 && dF d 2 1 < 32 && dF d 3 1 < 32 && dF d 45 3 == 0 && dF d 53 11 == 0
    && (match dOp d with
        | 1 => dF d 1 1 < 16 && dF d 2 2 == 0 && dF d 24 21 == 0
        | 2 => dF d 1 1 < 16 && !dFlag d 2 && dF d 2 2 == 0 && dF d 24 21 == 0
        | 3 => true
        | 4 => dF d 1 1 < 32 && dF d 2 1 < 16 && dF d 3 1 == 0 && dF d 32 13 == 0
        | _ => false)

/-- Whether a descriptor is accepted (R424). -/
def dOk (d : BitVec 512) : Bool :=
  let scaled := if dOp d = 3 then dF d 16 8 else dF d 8 8
  dFields d
    && (dOp d == 2 || dF d 8 8 % 256 == 0) && dF d 16 8 % 256 == 0
    && (dOp d < 3 || !dFlag d 4
      || (scaled % 0x40000 == 0 && dOneStack d scaled))
    && (dOp d != 3 || !dAuto d || decide (dF d 3 1 + 3 ≤ fmtWidth (dW d)))
    && !((dSrc d).any fun a => (dDst d).any fun b => spansMeet a b)

/-! ### IEEE 754 conversion (R425, R426) -/

/-- An element decoded: its significand, its exponent, and whether it counts a saturation or a
domain event. -/
structure IeeeVal where
  sig : Int
  ex : Int
  sat : Bool
  dom : Bool
  deriving DecidableEq, Repr

/-- decode of R425. -/
def ieeeDecode (ef ff x : Nat) : IeeeVal :=
  let bias : Int := 2 ^ (ef - 1) - 1
  let neg := x / 2 ^ (ef + ff) % 2 == 1
  let ex := x / 2 ^ ff % 2 ^ ef
  let fr := x % 2 ^ ff
  let sg (v : Nat) : Int := if neg then -(v : Int) else (v : Int)
  if ex = 2 ^ ef - 1 then
    if fr ≠ 0 then ⟨0, 0, false, true⟩
    else ⟨sg (2 ^ (ff + 1) - 1), 2 ^ ef - 2 - bias - ff, true, false⟩
  else if ex = 0 then ⟨sg fr, 1 - bias - ff, false, false⟩
  else ⟨sg (fr + 2 ^ ff), ex - bias - ff, false, false⟩

/-- encode of R426: the pattern, and whether it counts a saturation event. -/
def ieeeEncode (ef ff : Nat) (m s : Int) : Nat × Bool :=
  if m = 0 then (0, false)
  else
    let bias : Int := 2 ^ (ef - 1) - 1
    let sgn := if m < 0 then 2 ^ (ef + ff) else 0
    let a : Int := m.natAbs
    let p : Int := need a - 2
    let n : Int := if p + s ≥ 1 - bias then p - ff else 1 - bias - ff - s
    let sig := shiftRound a n none
    let r : Int × Int := if sig = 2 ^ (ff + 1) then (asr sig 1, n + 1) else (sig, n)
    let ex : Int := if r.1 ≥ 2 ^ ff then s + r.2 + ff + bias else 0
    if ex ≥ 2 ^ ef - 1 then (sgn + (2 ^ ef - 1) * 2 ^ ff, true)
    else (sgn + ex.toNat * 2 ^ ff + r.1.toNat % 2 ^ ff, false)

/-- A tile imported: its bytes, its scale byte, saturation and domain events. -/
structure Imported where
  mant : List Byte
  scale : Byte
  sats : Nat
  doms : Nat
  deriving DecidableEq, Repr

/-- import_tile of R425; `seed` is the job seed of the channel's slot. R427 names no counter for the scale
event of an AUTO clamp (R79), and none counts it (DESIGN CHOICE, log entry 77). -/
def importTile (d : BitVec 512) (seed : W64) (j : Nat) (src : List Byte) : Imported :=
  let f := dF d 2 1
  let es := (groupsOf (ieeeBytes f) 1024 src).map fun b =>
    ieeeDecode (ieeeForm f).1 (ieeeForm f).2 (leNat b)
  let nz := es.filter fun v => v.sig ≠ 0
  let lo : Int := match nz with
    | [] => 0
    | v :: r => r.foldl (fun m w => min m w.ex) v.ex
  let t := es.map fun v => if v.sig = 0 then 0 else shl v.sig (v.ex - lo).toNat
  let fix : Option Int := if dAuto d then none else some (toS 8 (dF d 44 1))
  let key : Option SrKey := if dFlag d 5 then
    some ⟨seed, BitVec.ofNat 32 (dF d 36 4), BitVec.ofNat 32 (dF d 32 4)⟩ else none
  let q := quant t lo (fmtWidth (dW d)) fix (dF d 3 1) (srWord key (dT d j)) (dFlag d 6)
  { mant := packMant (fmtWidth (dW d)) q.y
    scale := BitVec.ofInt 8 q.scale
    sats := q.sats + es.countP (·.sat)
    doms := es.countP (·.dom) }

/-- A tile exported: its bytes and its saturation events. -/
def exportTile (d : BitVec 512) (mant : List Byte) (scale : Byte) : List Byte × Nat :=
  let f := dF d 2 1
  let vs := (unpackMant (fmtWidth (dW d)) mant).map fun m =>
    ieeeEncode (ieeeForm f).1 (ieeeForm f).2 m scale.toInt
  (vs.flatMap fun v => leBytes (ieeeBytes f) v.1, vs.countP (·.2))

/-! ### The accesses of a unit -/

/-- A read of a unit. -/
structure DRead where
  host : Bool
  addr : Nat
  len : Nat
  deriving DecidableEq, Repr

/-- A write of a unit. -/
structure DWrite where
  host : Bool
  addr : Nat
  bytes : List Byte
  poison : Bool
  deriving DecidableEq, Repr

/-- The 256-byte words of a range, as reads; host memory is read at once. -/
def wordReads (host : Bool) (a n : Nat) : List DRead :=
  if host then [⟨true, a, n⟩] else (List.range (n / 256)).map fun i => ⟨false, a + 256 * i, 256⟩

/-- The 256-byte words of bytes, as writes; `p` says which are poisoned. -/
def wordWrites (host : Bool) (a : Nat) (l : List Byte) (p : Nat → Bool) : List DWrite :=
  (groupsOf 256 l.length l).mapIdx fun i w => ⟨host, a + 256 * i, w, p i⟩

/-- The reads of unit `k`. A scale byte bound for another chip is merged into its word, which is
read first. -/
def State.dReads (s : State) (j : JobSlot) (d : BitVec 512) (k : Nat) : List DRead :=
  match dOp d with
  | 1 => [⟨dFlag d 2, dF d 8 8 + 256 * k, 256⟩]
  | 3 => wordReads (dFlag d 2) (dF d 8 8 + dTile d * k) (dTile d)
      ++ (match s.place j (dScale d k) with
          | .chip _ => [⟨false, dScale d k / 256 * 256, 256⟩]
          | _ => [])
  | 4 => wordReads (dFlag d 2) (dMant d 8 k) (fmtBytes (dW d)) ++ [⟨false, dScale d k, 1⟩]
  | _ => []

/-- What the reads of a unit's source gave, without the word into which a scale byte is merged. -/
def dSource (d : BitVec 512) (got : List (List Byte × Bool)) : List (List Byte × Bool) :=
  if dOp d = 3 then got.take (if dFlag d 2 then 1 else dTile d / 256) else got

/-- Whether word `i` of an exported tile holds a value that a bad word of the source affects: its scale, or
the word of one of its elements (R429). -/
def exportBad (d : BitVec 512) (got : List (List Byte × Bool)) (i : Nat) : Bool :=
  let per := 256 / ieeeBytes (dF d 2 1)
  let src := 2048 / fmtWidth (dW d)
  let n := fmtBytes (dW d) / 256
  (got.drop (if dFlag d 2 then 1 else n)).any (·.2)
    || !dFlag d 2 && (List.range n).any fun w =>
        (got.getD w ([], false)).2 && decide (w * src < (i + 1) * per) && decide (i * per < (w + 1) * src)

/-- The writes of unit `k` from what its reads gave, with the saturation and domain events. -/
def State.dWrites (s : State) (j : JobSlot) (d : BitVec 512) (k : Nat) (got : List (List Byte × Bool)) :
    List DWrite × Nat × Nat :=
  let p := (dSource d got).any (·.2)
  match dOp d with
  | 1 => ([⟨dFlag d 3, dF d 16 8 + 256 * k, got.flatMap (·.1), p⟩], 0, 0)
  | 2 => ([⟨dFlag d 3, dF d 16 8 + 256 * k,
      (List.range 32).flatMap fun _ => leBytes 8 (dF d 8 8), false⟩], 0, 0)
  | 3 =>
    let src := (got.flatMap (·.1)).take (dTile d)
    let v := importTile d (((s.image j).map (·.seed)).getD 0) k src
    let sc := dScale d k
    let rest := (got.flatMap (·.1)).drop (dTile d)
    let scw : DWrite := if rest.isEmpty then ⟨false, sc, [v.scale], p⟩
      else ⟨false, sc / 256 * 256, rest.set (sc % 256) v.scale, p⟩
    (wordWrites (dFlag d 3) (dMant d 16 k) v.mant (fun _ => p) ++ [scw], v.sats, v.doms)
  | _ =>
    let all := got.flatMap (·.1)
    let v := exportTile d (all.take (fmtBytes (dW d))) (all.getD (fmtBytes (dW d)) 0)
    (wordWrites (dFlag d 3) (dF d 16 8 + dTile d * k) v.1 (exportBad d got), v.2, 0)

/-! ### Channels -/

/-- The owner of a channel. -/
def State.chSlot (s : State) (ch : Nat) : JobSlot := if s.bitF (fDmaChCtlSlot ch) then .b else .a

/-- The function that owns a channel. -/
def State.chFunc (s : State) (ch : Nat) : Func := if s.bitF (fDmaChCtlSlot ch) then 1 else 0

/-- How a channel's accesses report errors of memory: only job slot B's records say so (R361). -/
def State.chAcc (s : State) (ch : Nat) : Acc := if s.bitF (fDmaChCtlSlot ch) then .slotB else .other

/-- The channel is STOPPED. -/
def State.chStopped (s : State) (ch : Nat) : Bool := s.getF (fDmaChStatusState ch) == 2

/-- Show a channel's state: STOPPED, RUN while it has work, IDLE otherwise. -/
def State.chShow (s : State) (ch : Nat) (stop : Bool) : State :=
  let run := !(s.chan ch).started.isEmpty
    || (s.bitF (fDmaChCtlEn ch) && s.getF (fDmaChHeadHead ch) != s.getF (fDmaChTailTail ch))
  let st := if stop then 2 else if run then 1 else 0
  let s1 := s.setF (fDmaChStatusState ch) st
  (s1.setB ⟨rDmaStatus, ch, 1⟩ (st == 1)).setB ⟨rDmaStatus, 16 + ch, 1⟩ (st == 2)

/-- The virtual offset of a ring entry. -/
def State.chEntry (s : State) (ch idx : Nat) : Nat :=
  (s.rd64 (rDmaChBaseLo ch)).toNat + 64 * (idx % 2 ^ s.getF (fDmaChSizeLog2 ch))

/-- Read a descriptor at a physical offset. -/
def State.chRead (s : State) (ch ph : Nat) : BitVec 512 × State :=
  let r := s.memRead (s.chAcc ch) 256 ph 64
  (BitVec.ofNat 512 (leNat r.1.bytes), r.2)

/-- The descriptor in the ring entry that a channel starts next: none while its fetch waits for a
walk. -/
def State.chFetch (s : State) (ch : Fin 16) (idx : Nat) : Option (Except XFault (BitVec 512)) × State :=
  match (s.chan ch).fetch with
  | some none => (none, s)
  | some (some d) => (some (.ok d), s)
  | none =>
    match s.dmaXlate (s.chSlot ch) (s.chEntry ch idx) 64 false (.desc ch idx) with
    | (none, s1) => (none, s1.setChan ch { s1.chan ch with fetch := some none })
    | (some (.fault f _), s1) => (some (.error f), s1)
    | (some (.ok ph), s1) =>
      let r := s1.chRead ch ph
      (some (.ok r.1), r.2)

/-- Whether a physical range meets the source of a load in progress (R332). -/
def State.srcLoading (s : State) (off n : Nat) : Bool :=
  match s.loader with
  | none => false
  | some l => decide (off < l.src.toNat + l.len.toNat) && decide (l.src.toNat < off + n)

/-- Drop a write into the source of a load, with its record. -/
def State.srcWrite (s : State) (unit : Nat) (b : Bool) : State :=
  s.log ⟨10, 0x0101, unit, b, false, ((s.loader.bind (·.img)).map (·.id.toNat)).getD 0,
    ((s.loader.map fun l => if l.drive then 1 else 0)).getD 0⟩

/-- The vector of a channel, on the function that owns it (R680). -/
def State.chMsix (s : State) (ch : Nat) : State := s.msix (s.chFunc ch) (8 + ch)

/-- What a channel writes into a ring entry: the place in the entry, and PROG and STAT or STAT alone. -/
def DmaEnd.bytes (e : DmaEnd) (x : DmaDesc) : Nat × List Byte :=
  match e with
  | .skip => (52, [BitVec.ofNat 8 x.stat])
  | _ => (48, leBytes 4 x.units ++ [BitVec.ofNat 8 x.stat])

/-- A channel's write into a ring entry is performed: dropped where a load reads the entry (R332), and
with the record of a fault where it does not translate (R443). -/
def State.chPut (s : State) (ch : Nat) (x : DmaDesc) (e : DmaEnd) (r : XRes) : State :=
  let b := e.bytes x
  match r with
  | .fault f va => s.logFault f (unitChannel ch) (s.bitF (fDmaChCtlSlot ch)) false va 1
  | .ok ph =>
    if s.srcLoading ph b.2.length then s.srcWrite (unitChannel ch) (s.chSlot ch == .b)
    else s.memWrite (s.chAcc ch) ph b.2

/-- Replace a descriptor that has started. -/
def State.setDesc (s : State) (ch : Nat) (x : DmaDesc) : State :=
  let c := s.chan ch
  s.setChan ch { c with started := c.started.map fun y => if y.idx = x.idx then x else y }

/-- A descriptor that has started. -/
def State.getDesc (s : State) (ch idx : Nat) : Option DmaDesc :=
  (s.chan ch).started.find? fun y => y.idx == idx

/-- A walk whose waiting access a channel has abandoned goes on alone. -/
def XWalk.abandon (w : XWalk) (ch : Nat) : XWalk :=
  match w.waiter with
  | .unit c _ => if c.val = ch then { w with waiter := .none } else w
  | .desc c _ => if c.val = ch then { w with waiter := .none } else w
  | .back c _ .complete => if c.val = ch then { w with waiter := .none } else w
  | _ => w

/-- What waited for a channel's descriptors waits no more. -/
def State.abandonReqs (s0 : State) (ch : Nat) : State :=
  let s := s0.setXbuf .dma { s0.xbuf .dma with walks := (s0.xbuf .dma).walks.map (·.abandon ch) }
  let s1 : State := { s with host := { s.host with reqs := s.host.reqs.map fun r =>
      if r.ch.val = ch then { r with idx := none } else r } }
  { s1 with rem := { s1.rem with reqs := s1.rem.reqs.map fun r => match r.use with
      | .dma c _ => if c.val = ch then { r with use := .dead } else r
      | _ => r } }

/-- The global address of a unit of a descriptor, for its record. -/
def dUnitAddr (d : BitVec 512) (k : Nat) : Nat :=
  match dOp d with
  | 1 => dF d 16 8 + 256 * k
  | 2 => dF d 16 8 + 256 * k
  | 3 => dMant d 16 k
  | _ => dF d 16 8 + dTile d * k

/-- Write into a ring entry, and go on with `k` once that is done: at once where the entry's page hits,
else when the walk for it has ended; a completed descriptor that waits so is shown as not performed. -/
def State.chWrite (s : State) (ch : Fin 16) (x : DmaDesc) (e : DmaEnd) (k : State → State) : State :=
  let b := e.bytes x
  match s.dmaXlate (s.chSlot ch) (s.chEntry ch x.idx + b.1) b.2.length true (.back ch x e) with
  | (none, s1) => s1.setDesc ch { x with performed := false, waiting := true }
  | (some r, s1) => k (s1.chPut ch x e r)

/-- The descriptor at the front of a channel has ended with a status that stops it (R430): the vector
follows the write of PROG and STAT. -/
def State.chStop (s : State) (ch : Fin 16) (x : DmaDesc) : State :=
  let s1 := (s.abandonReqs ch).setChan ch ⟨[], some (x.units, x.pois), none⟩
  let s2 := ((s1.wr (rDmaChProg ch) (BitVec.ofNat 32 x.units)).setF (fDmaChStatusCode ch) x.stat).chShow ch true
  (s2.log ⟨11, x.stat, unitChannel ch, s2.bitF (fDmaChCtlSlot ch), false, dUnitAddr x.desc x.units,
    x.units⟩).chWrite ch x .stop (·.chMsix ch)

/-- Stop the channel if its front descriptor has ended with a status that stops it. -/
def State.chFront (s : State) (ch : Fin 16) : State :=
  match (s.chan ch).started with
  | x :: _ => if 3 ≤ x.stat ∧ x.stat ≤ 7 then s.chStop ch x else s
  | [] => s

/-- A descriptor ends with a status that stops its channel. -/
def State.dEnd (s : State) (ch : Fin 16) (x : DmaDesc) (stat : Nat) : State :=
  (s.setDesc ch { x with stat := stat, waiting := false }).chFront ch

/-- A descriptor meets a fault: its record, and the stop. -/
def State.dFault (s : State) (ch : Fin 16) (x : DmaDesc) (f : XFault) (addr : Nat) : State :=
  (s.log ⟨f.cls, f.detail, unitChannel ch, s.bitF (fDmaChCtlSlot ch), false, addr, 1⟩).dEnd ch x
    (if f.xlt then 3 else 4)

/-! ### Host and remote accesses of a unit -/

/-- The first free tag of the host port. -/
def State.freeHostTag (s : State) : Nat :=
  ((List.range 1024).find? fun t => !(s.host.reqs.any fun r => r.tag == t)).getD 1023

/-- Ask the host for bytes. -/
def State.askHost (s : State) (ch : Fin 16) (x : DmaDesc) (r : DRead) : State :=
  let t := s.freeHostTag
  let s1 : State := { s with host := { s.host with
    reqs := s.host.reqs ++ [⟨t, ch, some x.idx, r.len, s.clock⟩] } }
  (s1.setDesc ch { x with waiting := true }).emit (.hostRead t (BitVec.ofNat 64 r.addr) r.len)

/-- Ask another chip for the word of a read, or for the write of a word. -/
def State.askChip (s : State) (ch : Fin 16) (x : DmaDesc) (op chip addr : Nat) (p : Payload) : State :=
  match s.remSend (.dma ch x.idx) op chip (addr % 2 ^ 48 / 256 * 256) p with
  | (true, s1) => s1.setDesc ch.val { x with waiting := true }
  | (false, s1) => s1.dEnd ch x 6

/-- A read of a unit has translated. -/
def State.readAt (s : State) (ch : Fin 16) (x : DmaDesc) (r : DRead) (a : XRes) : State :=
  match a with
  | .fault f _ => s.dFault ch x f r.addr
  | .ok ph =>
    let m := s.memRead (s.chAcc ch) 256 ph r.len
    m.2.setDesc ch { x with got := x.got ++ [(m.1.bytes, !m.1.bad.isEmpty)] }

/-- A write of a unit has translated; one into the source of a load is dropped. -/
def State.writeAt (s : State) (ch : Fin 16) (x : DmaDesc) (w : DWrite) (a : XRes) : State :=
  let x1 := { x with sent := x.sent + 1 }
  match a with
  | .fault f _ => s.dFault ch x f w.addr
  | .ok ph =>
    if s.srcLoading ph w.bytes.length then
      (s.srcWrite (unitChannel ch.val) (s.chSlot ch == .b)).setDesc ch x1
    else (s.memPut (s.chAcc ch) ph w.bytes w.poison).setDesc ch x1

/-- Perform a read of a unit. -/
def State.doRead (s : State) (ch : Fin 16) (x : DmaDesc) (r : DRead) : State :=
  if r.host then s.askHost ch x r
  else
    let j := s.chSlot ch.val
    match s.place j r.addr with
    | .nowhere => s.dFault ch x .chipRange r.addr
    | .chip c => s.askChip ch x 0 c r.addr 0
    | .here =>
      match s.dmaXlate j (r.addr % 2 ^ 48) r.len false (.unit ch x.idx) with
      | (some a, s1) => s1.readAt ch x r a
      | (none, s1) => s1.setDesc ch { x with waiting := true }

/-- Perform a write of a unit. -/
def State.doWrite (s : State) (ch : Fin 16) (x : DmaDesc) (w : DWrite) : State :=
  let x1 := { x with sent := x.sent + 1 }
  if w.host then (s.setDesc ch.val x1).emit (.hostWrite (BitVec.ofNat 64 w.addr) w.bytes w.poison)
  else
    let j := s.chSlot ch.val
    match s.place j w.addr with
    | .nowhere => s.dFault ch x .chipRange w.addr
    | .chip c => s.askChip ch x 1 c w.addr (Payload.ofBytes w.bytes)
    | .here =>
      match s.dmaXlate j (w.addr % 2 ^ 48) w.bytes.length true (.unit ch x.idx) with
      | (some a, s1) => s1.writeAt ch x w a
      | (none, s1) => s1.setDesc ch { x with waiting := true }

/-- A unit has been performed: its events count, and the next one begins. -/
def State.unitDone (s : State) (ch : Nat) (x : DmaDesc) (sats doms : Nat) : State :=
  let p := (dSource x.desc x.got).any (·.2)
  (((s.bump rDmaSattot sats).bump rDmaDomtot doms).wr (rDmaChProg ch)
    (BitVec.ofNat 32 (x.units + 1))).setDesc ch { x with
      units := x.units + 1, got := [], sent := 0, pois := x.pois || p }

/-- A descriptor goes on until it waits, ends or has performed every unit. -/
def State.dmaGo (s : State) (ch : Fin 16) (idx : Nat) : Nat → State
  | 0 => s
  | n + 1 =>
    match s.getDesc ch.val idx with
    | none => s
    | some x =>
      if x.waiting ∨ x.performed ∨ 3 ≤ x.stat then s
      else if dNt x.desc ≤ x.units then
        s.setDesc ch.val { x with performed := true, stat := if x.pois then 2 else 1 }
      else
        let j := s.chSlot ch.val
        let rs := s.dReads j x.desc x.units
        match rs[x.got.length]? with
        | some r => (s.doRead ch x r).dmaGo ch idx n
        | none =>
          let ws := s.dWrites j x.desc x.units x.got
          match ws.1[x.sent]? with
          | some w => (s.doWrite ch x w).dmaGo ch idx n
          | none => (s.unitDone ch.val x ws.2.1 ws.2.2).dmaGo ch idx n

/-- A descriptor goes on. -/
def State.dmaCont (s : State) (ch : Fin 16) (idx : Nat) : State :=
  match s.getDesc ch.val idx with
  | none => s
  | some x => s.dmaGo ch idx (80 * (dNt x.desc - x.units) + 2)

/-- A walk for an access of a unit has ended: the access is performed, and the descriptor goes on. -/
def State.dmaServe (s : State) (ch : Fin 16) (idx : Nat) (at_ : Nat → Bool → XRes) : State :=
  match s.getDesc ch idx with
  | none => s
  | some x =>
    let y := { x with waiting := false }
    let j := s.chSlot ch
    let t := match (s.dReads j x.desc x.units)[x.got.length]? with
      | some r => s.readAt ch y r (at_ r.len false)
      | none => match (s.dWrites j x.desc x.units x.got).1[x.sent]? with
        | some w => s.writeAt ch y w (at_ w.bytes.length true)
        | none => s
    t.dmaCont ch idx

/-! ### Start (R421, R424, R431) -/

/-- The ring index of the next descriptor that a channel starts. -/
def State.chNext (s : State) (ch : Nat) : Nat :=
  (s.getF (fDmaChHeadHead ch) + (s.chan ch).started.length) % 65536

/-- A descriptor as it starts, at the unit where a stopped one restarts. -/
def State.chDesc (s : State) (ch n : Nat) (d : BitVec 512) : DmaDesc :=
  let r := ((s.chan ch).resumeAt).getD (0, false)
  ⟨n, d, r.1, 0, false, [], 0, false, r.2⟩

/-- A channel starts a descriptor. -/
def State.chAdd (s : State) (ch : Nat) (x : DmaDesc) : State :=
  s.setChan ch { started := (s.chan ch).started ++ [x], resumeAt := none, fetch := none }

/-- A walk for the fetch of a descriptor has ended: the channel holds the descriptor, or stops with the
fault. -/
def State.descServe (s : State) (ch : Fin 16) (n : Nat) (a : XRes) : State :=
  match a with
  | .fault f _ => (s.chAdd ch (s.chDesc ch n 0)).dFault ch (s.chDesc ch n 0) f (s.globalAddr (s.chEntry ch.val n))
  | .ok ph =>
    let r := s.chRead ch ph
    r.2.setChan ch { r.2.chan ch with fetch := some (some r.1) }

/-- A channel starts its next descriptor when it holds operation `op`, or one that is rejected. -/
def State.dmaStart (s : State) (ch : Fin 16) (op : Nat) : State :=
  let n := s.chNext ch.val
  if !s.bitF (fDmaChCtlEn ch.val) || s.chStopped ch.val || n == s.getF (fDmaChTailTail ch.val) then s
  else
    let c := s.chan ch.val
    let x (d : BitVec 512) : DmaDesc := s.chDesc ch n d
    match s.chFetch ch n with
    | (none, s1) => s1
    | (some (.error f), s1) => (s1.chAdd ch (x 0)).dFault ch (x 0) f (s.globalAddr (s.chEntry ch.val n))
    | (some (.ok d), s1) =>
      if (dOk d ∧ dOp d ≠ op) ∨ (dFlag d 1 ∧ ¬ c.started.isEmpty) then s
      else if !dOk d then (s1.chAdd ch (x d)).dEnd ch (x d) 5
      else ((s1.chAdd ch (x d)).wr (rDmaChProg ch.val) (BitVec.ofNat 32 (x d).units)).dmaCont ch n

/-- COPY (R423). -/
def execDmaCopy (ch : Fin 16) (s : State) : Host.Outcome State Fault Refusal := .next (s.dmaStart ch 1)

/-- FILL (R423). -/
def execDmaFill (ch : Fin 16) (s : State) : Host.Outcome State Fault Refusal := .next (s.dmaStart ch 2)

/-- IMPORT (R425). -/
def execImportTiles (ch : Fin 16) (s : State) : Host.Outcome State Fault Refusal := .next (s.dmaStart ch 3)

/-- EXPORT (R426). -/
def execExportTiles (ch : Fin 16) (s : State) : Host.Outcome State Fault Refusal := .next (s.dmaStart ch 4)

/-- The front descriptor has written PROG and STAT: it leaves, HEAD passes it, and with IRQ the channel's
vector follows (R421, R432). -/
def State.descLeave (s : State) (ch : Fin 16) (x : DmaDesc) : State :=
  let c := s.chan ch
  let s1 := s.setChan ch { c with started := c.started.drop 1 }
  let s2 := ((s1.setF (fDmaChHeadHead ch) ((x.idx + 1) % 65536)).setF (fDmaChStatusCode ch) x.stat).bump
    (rDmaChDone ch) 1
  ((if dFlag x.desc 0 then s2.chMsix ch else s2).chShow ch false).chFront ch

/-- The descriptor at the front of a channel completes (R421, R432). -/
def State.descComplete (s : State) (ch : Fin 16) : State :=
  match (s.chan ch).started with
  | [] => s
  | x :: _ => if x.performed then s.chWrite ch x .complete fun t => t.descLeave ch x else s

/-- A walk for a write into a ring entry has ended: the write is performed, and what follows it. -/
def State.backServe (s : State) (ch : Fin 16) (x : DmaDesc) (e : DmaEnd) (a : XRes) : State :=
  let s1 := s.chPut ch x e a
  match e with
  | .complete => s1.descLeave ch x
  | .stop => s1.chMsix ch
  | .skip => s1

/-- DESCRIPTOR_COMPLETE (R432). -/
def execDescriptorComplete (ch : Fin 16) (s : State) : Host.Outcome State Fault Refusal :=
  .next (s.descComplete ch)

/-! ### Register writes (R421, R431, R442, R678, R679) -/

/-- Whether a requester's write reaches a channel: Jusia any, PF0 job slot A's, PF1 those of its
channel windows. -/
def State.chReach (s : State) (r : Requester) (ch : Nat) : Bool :=
  match r with
  | .jusia => true
  | .pf0 => !s.bitF (fDmaChCtlSlot ch)
  | .pf1 => s.bitF (fDmaChCtlSlot ch)
  | .smbus => false

/-- A write to a channel by a requester; an SMBus write is dropped and sets DENIED (R692). -/
def State.toCh (s : State) (r : Requester) (ch : Nat) (k : State → State) : State :=
  if r = .smbus then s.smbDenied 3 4 else if s.chReach r ch then k s else s

/-- The address of a channel register as its writer gave it: PF1 writes through its window. -/
def chOff (r : Requester) (ch o : Nat) : Nat :=
  if r = .pf1 then 2 ^ 63 + 0x4000 + 64 * ch + o else 0x400100 + 64 * ch + o

/-- A write of TAIL; `off` is the address that its record names. -/
def State.chTail (s : State) (ch off : Nat) (v : W32) : State :=
  let t := v.toNat % 65536
  if 2 ^ s.getF (fDmaChSizeLog2 ch) < (t + 65536 - s.getF (fDmaChHeadHead ch)) % 65536 then
    s.logCsr 1 off v.toNat
  else (s.setF (fDmaChTailTail ch) t).chShow ch (s.chStopped ch)

/-- DMA_TAIL (R421). -/
def execDmaTail (r : Requester) (ch : Fin 16) (v : BitVec 32) (s : State) :
    Host.Outcome State Fault Refusal :=
  .next (s.toCh r ch.val fun s => s.chTail ch.val (chOff r ch.val 0x18) v)

/-- RESUME: the channel runs again, and starts the stopped descriptor at unit PROG next. -/
def State.chResume (s : State) (ch : Nat) : State :=
  if s.chStopped ch then s.chShow ch false else s

/-- SKIP: the stopped descriptor is abandoned with STAT SKIPPED. -/
def State.chSkip (s : State) (ch : Fin 16) : State :=
  if s.chStopped ch then
    let n := s.getF (fDmaChHeadHead ch)
    let s1 := (((s.setChan ch DmaCh.reset).setF (fDmaChHeadHead ch) ((n + 1) % 65536)).setF
      (fDmaChStatusCode ch) 8).chShow ch false
    s1.chWrite ch ⟨n, 0, 0, 8, false, [], 0, false, false⟩ .skip id
  else s

/-- A write of a channel's CTL: EN, then RESUME and SKIP; RESUME leaves nothing for SKIP to do. -/
def State.chCtl (s : State) (ch : Fin 16) (v : W32) : State :=
  let s1 := (s.setB (fDmaChCtlEn ch) (v.getLsbD 0)).chShow ch (s.chStopped ch)
  let s2 := if v.getLsbD 1 then s1.chResume ch else s1
  if v.getLsbD 2 then s2.chSkip ch else s2

/-- DMA_RESUME (R431). -/
def execDmaResume (r : Requester) (ch : Fin 16) (v : BitVec 32) (s : State) :
    Host.Outcome State Fault Refusal :=
  .next (s.toCh r ch.val fun s => s.chCtl ch (v ||| 2))

/-- DMA_SKIP (R431). -/
def execDmaSkip (r : Requester) (ch : Fin 16) (v : BitVec 32) (s : State) :
    Host.Outcome State Fault Refusal :=
  .next (s.toCh r ch.val fun s => s.chCtl ch (v ||| 4))

/-- DMA_CTL.CLRCNT (R442). -/
def State.dmaClr (s : State) : State :=
  ((s.wr rDmaSattot 0).wr rDmaDomtot 0).clearRegs (rDmaChDone 0) 64 16

/-- DMA_CLRCNT (R442). -/
def execDmaClrcnt (r : Requester) (_v : BitVec 32) (s : State) : Host.Outcome State Fault Refusal :=
  .next (s.bar0 r State.dmaClr)

/-! ### Completions from the host (R430, R736) -/

/-- A completion with no outstanding tag: its record, and AER. -/
def State.unexpected (s : State) (fn : Func) (tag dw0 : Nat) : State :=
  (s.log ⟨17, 3, unitFunc fn.val, fn == 1, false, tag, dw0⟩).emit (.aer fn)

/-- A host read ends: with its bytes, or with an error. -/
def State.hostEnd (s : State) (q : HostReq) (d : Option (List Byte)) : State :=
  let s1 : State := { s with host := { s.host with reqs := s.host.reqs.filter fun r => r.tag != q.tag } }
  match q.idx.bind (s1.getDesc q.ch.val) with
  | none => s1
  | some x =>
    match d with
    | none => s1.dEnd q.ch x 7
    | some l => (s1.setDesc q.ch.val { x with
        waiting := false, got := x.got ++ [(padTo q.len l, false)] }).dmaCont q.ch x.idx

/-- The host read outstanding under a tag. -/
def State.hostReq (s : State) (tag : Nat) : Option HostReq := s.host.reqs.find? fun r => r.tag == tag

/-- HOST_COMPLETION (R736). -/
def execHostCompletion (tag : BitVec 10) (ok : Bool) (data : List (BitVec 8)) (s : State) :
    Host.Outcome State Fault Refusal :=
  .next (match s.hostReq tag.toNat with
    | none => s
    | some q => s.hostEnd q (if ok then some data else none))

/-- UNEXPCPL (R736). -/
def execUnexpcpl (fn : Func) (tag : BitVec 10) (dw0 : BitVec 32) (s : State) :
    Host.Outcome State Fault Refusal := .next (s.unexpected fn tag.toNat dw0.toNat)

/-- CPLTIMEOUT: 50 ms after the read was sent. -/
def State.cplTimeout (s : State) (tag : Nat) : State :=
  match s.hostReq tag with
  | none => s
  | some q =>
    let fn := s.chFunc q.ch.val
    let s1 := (s.reachFrom q.since 6250000).takeFree
    (s1.2.log ⟨17, 4, unitFunc fn.val, fn == 1, false, tag, s1.1.toNat % 2 ^ 32⟩).hostEnd q none

/-- CPLTIMEOUT (R736). -/
def execCpltimeout (tag : BitVec 10) (s : State) : Host.Outcome State Fault Refusal :=
  .next (s.cplTimeout tag.toNat)

end Sys2Proof.Machine
end

