-- ==== Sys2Proof/Machine/Remote.lean ====
section
/-! DEFINITION. Host accesses to BAR2 and doorbells, remote requests that arrive and their
answers, HERD fences, and the walks that these accesses wait for (R294, R397, R416, R526-R529,
R678, R736). -/

namespace Sys2Proof.Machine

open Sys2Proof

/-! ### Host accesses to BAR2 (R294, R332, R397, R399, R736) -/

/-- How a function's accesses report errors of memory (R361). -/
def funcAcc (fn : Func) : Acc := if fn = 0 then .other else .slotB

/-- A host read of device memory. -/
def State.bar2Get (s : State) (fn : Func) (ph n : Nat) : State :=
  let r := s.memRead (funcAcc fn) 256 ph n
  r.2.emit (.bar2Data fn r.1.bytes !r.1.bad.isEmpty)

/-- A host write of device memory; one into the source of a load is dropped. -/
def State.bar2Put (s : State) (fn : Func) (ph : Nat) (l : List Byte) (poison : Bool) (dw0 : W32) : State :=
  if s.srcLoading ph l.length then s.srcWrite (unitFunc fn.val) (fn == 1)
  else
    let s1 := s.memPut (funcAcc fn) ph l poison
    if poison then s1.log ⟨17, 2, unitFunc fn.val, fn == 1, false, s.globalAddr ph, dw0.toNat⟩ else s1

/-- A host access that faults: a read ends with Completer Abort, a write is dropped. -/
def State.bar2Fault (s : State) (fn : Func) (f : XFault) (off : Nat) (write : Bool) : State :=
  let s1 := s.logFault f (unitFunc fn.val) (fn == 1) false off 0
  if write then s1 else s1.emit (.bar2Abort fn false)

/-- A host access beyond device memory: Unsupported Request. -/
def State.bar2Ur (s : State) (fn : Func) (addr : Nat) (write : Bool) (dw0 : W32) : State :=
  let s1 := s.log ⟨17, 5, unitFunc fn.val, fn == 1, false, addr, dw0.toNat⟩
  if write then s1 else s1.emit (.bar2Abort fn true)

/-- What a BAR2 offset is: `none` for a physical offset, or the job slot whose page table
translates it; and the offset. -/
def State.bar2Off (s : State) (fn : Func) (addr : Nat) : Option JobSlot × Nat :=
  if fn = 0 then
    (if s.bitF fXltCtlB2xlt then some .a else none, addr + s.getF fXltB2baseBaseg * 2 ^ 30)
  else (some .b, addr)

/-- Whether a write of a function waits in the host buffer. -/
def State.writeWaits (s : State) (fn : Func) : Bool :=
  (s.xbuf .host).walks.any fun w => match w.waiter with
    | .write f _ _ _ _ => f == fn
    | .bell f _ _ _ => f == fn
    | _ => false

/-- An access waits in the host buffer behind what waits there, without a walk of its own. -/
def State.hostBehind (s : State) (j : JobSlot) (va : Nat) (w : Waiter) : State :=
  let x := s.xbuf .host
  s.setXbuf .host { x with walks := x.walks ++ [⟨j, BitVec.ofNat 64 va, false, false, w⟩] }

/-- A host read (R397). -/
def State.bar2Read (s : State) (fn : Func) (addr n : Nat) (dw0 : W32) : State :=
  if s.host.bar2 * 2 ^ 30 ≤ addr then s
  else match s.bar2Off fn addr with
    | (none, ph) =>
      if memTop < ph + n then s.bar2Ur fn addr false dw0
      else if ¬ s.isoOk false ph n then s.bar2Fault fn .isolation ph false
      else s.bar2Get fn ph n
    | (some j, va) =>
      match s.xhit .host j va with
      | some e => match s.through e va n false with
        | .ok ph => s.bar2Get fn ph n
        | .fault f v => s.bar2Fault fn f v false
      | none => s.xmiss .host j va (.read fn (BitVec.ofNat 64 va) n)

/-- A host write, in arrival order behind the function's writes that wait (R294, R397). -/
def State.bar2Write (s : State) (fn : Func) (addr : Nat) (l : List Byte) (poison : Bool) (dw0 : W32) :
    State :=
  if s.host.bar2 * 2 ^ 30 ≤ addr then s
  else match s.bar2Off fn addr with
    | (none, ph) =>
      if memTop < ph + l.length then s.bar2Ur fn addr true dw0
      else if ¬ s.isoOk false ph l.length then s.bar2Fault fn .isolation ph true
      else s.bar2Put fn ph l poison dw0
    | (some j, va) =>
      let w := Waiter.write fn (BitVec.ofNat 64 va) l poison dw0
      if s.writeWaits fn then s.hostBehind j va w
      else match s.xhit .host j va with
        | some e => match s.through e va l.length true with
          | .ok ph => s.bar2Put fn ph l poison dw0
          | .fault f v => s.bar2Fault fn f v true
        | none => s.xmiss .host j va w

/-- BAR2_READ (R397). -/
def execBar2Read (fn : Func) (addr : BitVec 39) (len : BitVec 13) (dw0 : BitVec 32) (s : State) :
    Host.Outcome State Fault Refusal := .next (s.bar2Read fn addr.toNat len.toNat dw0)

/-- BAR2_WRITE (R294). -/
def execBar2Write (fn : Func) (addr : BitVec 39) (data : List (BitVec 8)) (poisoned : Bool)
    (dw0 : BitVec 32) (s : State) : Host.Outcome State Fault Refusal :=
  .next (s.bar2Write fn addr.toNat data poisoned dw0)

/-- MALFORMED: discarded, and reported through AER (R736). -/
def execMalformed (fn : Func) (addr : BitVec 64) (dw0 : BitVec 32) (s : State) :
    Host.Outcome State Fault Refusal :=
  .next ((s.log ⟨17, 1, unitFunc fn.val, fn == 1, false, addr.toNat, dw0.toNat⟩).emit (.aer fn))

/-! ### Doorbells (R294, R678) -/

/-- A doorbell takes effect: 0 to 15 a channel's TAIL, 16 MEM_HRTAIL. -/
def State.ring (s : State) (fn : Func) (n : Nat) (v dw0 : W32) : State :=
  let off := 2 ^ 63 + 0x3000 + 4 * n
  if n = 16 then s.hrtail v
  else if s.chFunc n = fn then s.chTail n off v
  else s.log ⟨17, 6, unitFunc fn.val, fn == 1, false, off, dw0.toNat⟩

/-- A doorbell, after the function's BAR2 writes that wait. -/
def State.doorbell (s : State) (fn : Func) (n : Nat) (v dw0 : W32) : State :=
  if s.writeWaits fn then s.hostBehind (funcSlot fn) 0 (.bell fn n v dw0) else s.ring fn n v dw0

/-- DBELL (R678). -/
def execDbell (fn : Func) (n : Fin 16) (v : BitVec 32) (dw0 : BitVec 32) (s : State) :
    Host.Outcome State Fault Refusal := .next (s.doorbell fn n.val v dw0)

/-- DBELLHR: PF0 only (R677, R678). -/
def execDbellhr (fn : Func) (v : BitVec 32) (s : State) : Host.Outcome State Fault Refusal :=
  .next (if fn = 0 then s.doorbell fn 16 v 0 else s)

/-! ### Remote requests that arrive (R526, R736) -/

/-- The translation buffer of the die of a port. -/
def remBuf (p : Port) : XBuf := if portDie p.val = 0 then .remw else .reme

/-- Take the front remote cell of a port when it has a kind, and for a request an OP. -/
def State.takeRem (s : State) (p : Port) (kind op : Nat) : Option (W64 × Cell) × State :=
  match (s.port p.val).remin with
  | c :: r =>
    if cellFld c.2 0 4 = kind ∧ (kind = 4 ∨ cellFld c.2 5 3 = op) then
      (some c, s.setPort p.val { s.port p.val with remin := r })
    else (none, s)
  | [] => (none, s)

/-- Answer a request: the response starts on this device, so from its west die (R526). -/
def State.respond (s : State) (c : Cell) (status : Nat) (w : Payload) (poison : Bool) : State :=
  let src := cellFld c 16 16
  let hdr := remHdr 4 (cellFld c 4 1 == 1) status (if poison then 4 else 0) src (cellFld c 32 16) src
    (cellFld c 64 48)
  (s.queueCell 0 src (cellSeal hdr w)).getD s

/-- A request ends in a fault: its record, and the answer. -/
def State.remFault (s : State) (p : Port) (c : Cell) (f : XFault) (va : Nat) : State :=
  (s.logFault f (unitPort p.val) false false va 2).respond c (if f.xlt then 1 else 2) 0 false

/-- Perform a request of this device at a physical offset. -/
def State.remDo (s : State) (p : Port) (c : Cell) (ph : Nat) : State :=
  if cellFld c 5 3 = 0 then
    let r := s.memRead .other 256 ph 256
    r.2.respond c (if r.1.bad.isEmpty then 0 else 3) (Payload.ofBytes r.1.bytes) (!r.1.bad.isEmpty)
  else if s.srcLoading ph 256 then (s.srcWrite (unitPort p.val) false).respond c 0 0 false
  else (s.memWrite .other ph (Payload.bytes c.payload)).respond c 0 0 false

/-- The virtual offset of a request's word. -/
def remVa (c : Cell) : Nat := cellFld c 64 48 / 256 * 256

/-- A remote cell passes on to its destination. -/
def State.forward (s : State) (p : Port) (c : Cell) : State :=
  (s.queueCell (portDie p.val) (cellFld c 112 16) c).getD s

/-- A request from another device in the name of job slot B (R736). -/
def State.foreignB (s : State) (p : Port) (ft : W64) (c : Cell) : State :=
  (s.log ⟨12, 0x0203, unitPort p.val, false, false, ft.toNat, cellFld c 16 16⟩).respond c 2 0 false

/-- A READ or WRITE request. -/
def State.remReq (s : State) (p : Port) (op : Nat) : State :=
  match s.takeRem p 3 op with
  | (none, _) => s
  | (some (ft, c), s1) =>
    if cellFld c 112 16 ≠ s1.physChip then s1.forward p c
    else if cellFld c 4 1 = 1 then s1.foreignB p ft c
    else match s1.xhit (remBuf p) .a (remVa c) with
      | some e => match s1.through e (remVa c) 256 (op == 1) with
        | .ok ph => s1.remDo p c ph
        | .fault f va => s1.remFault p c f va
      | none => s1.xmiss (remBuf p) .a (remVa c) (.remote p ft c)

/-- REMREQ_READ (R526). -/
def execRemreqRead (p : Port) (s : State) : Host.Outcome State Fault Refusal := .next (s.remReq p 0)

/-- REMREQ_WRITE (R526). -/
def execRemreqWrite (p : Port) (s : State) : Host.Outcome State Fault Refusal := .next (s.remReq p 1)

/-- A FENCE request: it is held until it can be answered. -/
def State.remFence (s : State) (p : Port) : State :=
  match s.takeRem p 3 2 with
  | (none, _) => s
  | (some (ft, c), s1) =>
    if cellFld c 112 16 ≠ s1.physChip then s1.forward p c
    else if cellFld c 4 1 = 1 then s1.foreignB p ft c
    else { s1 with rem := { s1.rem with fences := s1.rem.fences ++ [⟨c, BitVec.ofNat 64 (cellFld c 64 48), none⟩] } }

/-- REMREQ_FENCE (R529). -/
def execRemreqFence (p : Port) (s : State) : Host.Outcome State Fault Refusal := .next (s.remFence p)

/-- The words that have been placed in each landing channel. -/
def State.placedAll (s : State) : List Nat :=
  (List.range ((s.fabApplied.map (·.chans.length)).getD 0)).map fun n => (s.landing n).placed

/-- How far fabric time is past TF of a FENCE request, where it is past it. -/
def State.fenceAge (s : State) (f : FenceReq) : Option Nat :=
  let d := (s.time + 2 ^ 48 - f.tf.toNat) % 2 ^ 48
  if d < 2 ^ 47 then some d else none

/-- HDLY in tk. -/
def State.hdly (s : State) : Nat := 32 * ((s.fabApplied.map (·.hdly)).getD 1)

/-- A FENCE request whose time has passed covers no word that is placed from now on (R529). -/
def State.fenceMark (s : State) : State :=
  { s with rem := { s.rem with fences := s.rem.fences.map fun f =>
      if f.marks.isNone ∧ (s.fenceAge f).any (fun d => decide (s.hdly < d)) = true then
        { f with marks := some s.placedAll }
      else f } }

/-- The words that a queued command took with it (R378, R385). -/
def BeCmd.words (b : BeCmd) : Nat := 1 + b.payload.length / 256

/-- The words of a route whose bank-engine commands are still queued in a stack. -/
def StackSt.routeWords (k : StackSt) (key : Nat) : Nat :=
  sumNat (((k.qa ++ k.qb ++ k.qh).filter fun b => b.origin == .route key).map BeCmd.words)

/-- The words that a landing channel has brought, or owes as debts, and that are not performed at their
destination (R529); a word for a core's port is performed in its queue. -/
def State.chanLeft (s : State) (n : Nat) : Nat :=
  match s.fabApplied.bind fun f => f.chans[n]? with
  | none => 0
  | some c =>
    let r := s.route .a c.route
    (s.landing n).words.length + (s.landing n).debts + r.flight.length + r.dst.length
      + (match s.routeCfg .a c.route with
          | some cf => s.atDest .a c.route cf
              + (if epKind cf.dst = 1 then (s.stk (epIdx cf.dst / 240)).routeWords (routeKey .a c.route) else 0)
          | none => 0)

/-- Whether the words of a landing channel that a FENCE request covers are performed: those placed until its
time came, and of those placed before now where no word has been placed since. -/
def State.chanDone (s : State) (f : FenceReq) (n : Nat) : Bool :=
  let placed := (s.landing n).placed
  decide (s.chanLeft n ≤ placed - ((f.marks.map fun l => l.getD n 0).getD placed))

/-- Whether a FENCE request can be answered. -/
def State.fenceReady (s : State) (f : FenceReq) : Bool :=
  (s.fenceAge f).any (fun d => decide (s.hdly ≤ d))
    && (List.range ((s.fabApplied.map (·.chans.length)).getD 0)).all (s.chanDone f)

/-- The first FENCE request held that can be answered is answered. -/
def State.fenceAnswer (s : State) : State :=
  match s.rem.fences.find? s.fenceReady with
  | none => s
  | some f => ({ s with rem := { s.rem with fences := s.rem.fences.erase f } } : State).respond f.cell
      0 0 false

/-- FENCE_ANSWER (R529). -/
def execFenceAnswer (s : State) : Host.Outcome State Fault Refusal := .next s.fenceAnswer

/-! ### Requests of this device end (R527-R529) -/

/-- A HERD fence stays incomplete, and its core takes an asynchronous PROT; R212 gives no detail
for it, so the port and the address that it names are free. -/
def State.fenceFail (s : State) (c : Nat) : State :=
  let a := s.takeFree
  let b := a.2.takeFree
  b.2.pendIn c .a 2 fun q => q.addProt (a.1.toNat % 32, b.1)

/-- A member has answered a HERD fence. -/
def State.fenceGot (s : State) (c tag : Nat) : State :=
  s.modCore c fun x => { x with fence := x.fence.map fun f =>
    { f with asked := f.asked.map fun l => l.filter (· != tag) } }

/-- A request ends with a status: 0 to 3 as a REMRSP carries it, 6 for REMOTE_LOST. -/
def State.remEnd (s : State) (q : RemReq) (status : Nat) (w : Payload) : State :=
  let s1 := s.endTag q.tag
  match q.use with
  | .dead => s1
  | .fence c => if status = 0 then s1.fenceGot c.val q.tag else s1.fenceFail c.val
  | .dma ch idx =>
    match s1.getDesc ch.val idx with
    | none => s1
    | some x =>
      if status = 0 ∨ status = 3 then
        let rs := s1.dReads (s1.chSlot ch.val) x.desc x.units
        let y := match rs[x.got.length]? with
          | some r => { x with waiting := false, got := x.got ++
              [(((Payload.bytes w).drop (r.addr % 256)).take r.len, status == 3)] }
          | none => { x with waiting := false, sent := x.sent + 1 }
        (s1.setDesc ch.val y).dmaCont ch idx
      else s1.dEnd ch x (if status = 1 then 3 else if status = 2 then 4 else 6)

/-- A request ends REMOTE_LOST. -/
def State.remLost (s : State) (q : RemReq) : State := s.countLost.remEnd q 6 0

/-- A response: passed on, matched with its request, or discarded as stale; one with a reserved status gives
no answer, and its request ends REMOTE_LOST (log entry 80). -/
def State.remRsp (s : State) (p : Port) : State :=
  match s.takeRem p 4 0 with
  | (none, _) => s
  | (some (_, c), s1) =>
    if cellFld c 112 16 ≠ s1.physChip then s1.forward p c
    else match s1.rem.reqs.find? fun r => r.tag == cellFld c 32 16 with
      | none => s1.bumpF fFabRemcntStale 1
      | some q => if cellFld c 5 3 < 4 then s1.remEnd q (cellFld c 5 3) c.payload else s1.remLost q

/-- REMRSP (R527). -/
def execRemrsp (p : Port) (s : State) : Host.Outcome State Fault Refusal := .next (s.remRsp p)

/-- A request has had no response within REMTMO slots. -/
def State.remoteTimeout (s : State) (tag : Nat) : State :=
  match s.rem.reqs.find? fun r => r.tag == tag with
  | none => s
  | some q => (s.reach q.deadline.toNat).remLost q

/-- REMOTE_TIMEOUT (R527). -/
def execRemoteTimeout (tag : BitVec 16) (s : State) : Host.Outcome State Fault Refusal :=
  .next (s.remoteTimeout tag.toNat)

/-! ### Fences complete (R291, R529) -/

/-- Send FENCE requests to chips: the tags, and whether every one was sent; one that was not keeps a place
that no answer ends. -/
def State.askFence (s : State) (c : Core) (tf : Nat) : List Nat → State × List Nat × Bool
  | [] => (s, [], true)
  | m :: r =>
    let t := (s.freeTag s.rem.nextTag (s.rem.resting.length + s.rem.reqs.length + 1)).getD 65536
    let q := s.remSend (.fence c) 2 m tf 0
    let k := q.2.askFence c tf r
    (k.1, (if q.1 then t else 65536) :: k.2.1, q.1 && k.2.2)

/-- A HERD fence completes; the words that it did not cover are left for the next one. -/
def State.herdEnd (s : State) (c : Nat) (f : FenceSt) : State :=
  s.modCore c fun x => { x with fence := none, lastComp := f.later }

/-- A core's fence completes once its kind's condition holds; a HERD fence asks the other members once every
word that it covers has been composed into a frame (R529). -/
def State.fenceComplete (s : State) (c : Core) : State :=
  match (s.core c.val).fence with
  | none => s
  | some f =>
    if ¬ s.fenceMet c.val f then s
    else if f.kind ≠ 4 then s.modCore c.val fun x => { x with fence := none }
    else match f.asked with
      | some [] => s.herdEnd c.val f
      | some _ => s
      | none =>
        if ¬ s.composed c.val f then s
        else if s.herdDone c.val f then s.herdEnd c.val f
        else
          let q := s.askFence c (((s.core c.val).lastComp.getD 0).toNat % 2 ^ 48) (s.fencePeers c.val)
          let s1 := q.1.modCore c.val fun x => { x with fence := some { f with asked := some q.2.1 } }
          if q.2.2 then s1 else s1.fenceFail c.val

/-- FENCE_COMPLETE (R291). -/
def execFenceComplete (c : Core) (s : State) : Host.Outcome State Fault Refusal :=
  .next (s.fenceComplete c)

/-! ### Walks (R402, R416) -/

/-- Perform a waiting access: it translates through an entry, or ends in a fault. -/
def State.serve (s : State) (w : XWalk) (e : Except XFault XEntry) : State :=
  let at_ (n : Nat) (write : Bool) : XRes := s.walked e w.va.toNat n write
  match w.waiter with
  | .none => s
  | .unit ch idx => s.dmaServe ch idx at_
  | .desc ch idx => s.descServe ch idx (at_ 64 false)
  | .back ch x k => s.backServe ch x k (at_ (k.bytes x).2.length true)
  | .bell fn n v d => s.ring fn n v d
  | .read fn _ n => match at_ n false with
    | .ok ph => s.bar2Get fn ph n
    | .fault f va => s.bar2Fault fn f va false
  | .write fn _ l po d => match at_ l.length true with
    | .ok ph => s.bar2Put fn ph l po d
    | .fault f va => s.bar2Fault fn f va true
  | .remote p _ c => match at_ 256 (cellFld c 5 3 == 1) with
    | .ok ph => s.remDo p c ph
    | .fault f va => s.remFault p c f va

/-- Take the front of a buffer's walks. -/
def State.popWalk (s : State) (b : XBuf) : State :=
  s.setXbuf b { s.xbuf b with walks := (s.xbuf b).walks.drop 1, ptr := none }

/-- The accesses that waited behind a walk, in order: each is performed, up to the first that
misses, whose walk begins. -/
def State.serveBehind (s : State) (b : XBuf) : Nat → State
  | 0 => s
  | n + 1 =>
    match (s.xbuf b).walks with
    | [] => s
    | w :: r =>
      if w.miss then s
      else match w.waiter with
        | .bell fn k v d => ((s.popWalk b).ring fn k v d).serveBehind b n
        | _ =>
          match s.xhit b w.slot w.va.toNat with
          | some e => ((s.popWalk b).serve w (.ok e)).serveBehind b n
          | none => s.countMiss.setXbuf b { s.xbuf b with walks := { w with miss := true } :: r }

/-- Whether the memory slot in progress of the stack that holds the entry at an offset serves class WALK in
its group (R404); no slot need come for an entry beyond device memory. -/
def State.walkServed (s : State) (a : Nat) : Bool :=
  decide (memTop < a + 8) || s.givenAt a == .cls 1

/-- A walk reads the level-2 entry in the table at `p`, in a slot that serves it. -/
def State.stepLow (s : State) (p va : Nat) : Except Nat WalkRes × State :=
  if s.walkServed (lowAt p va) then
    let r := s.walkLow p va
    (.ok r.1, r.2)
  else (.error p, s)

/-- How far the front walk of a buffer comes in the memory slots in progress: to its end, or to the level-2
table at which it waits; none where it reads nothing. -/
def State.walkStep (s : State) (b : XBuf) (w : XWalk) : Option (Except Nat WalkRes) × State :=
  match (s.xbuf b).ptr with
  | some p =>
    let r := s.stepLow p.toNat w.va.toNat
    (some r.1, r.2)
  | none =>
    if ¬ s.walkServed (s.topAt w.slot w.va.toNat) then (none, s)
    else match s.walkTop w.slot w.va.toNat with
      | (.ends r, s1) => (some (.ok r), s1)
      | (.table p, s1) =>
        let r := s1.stepLow p w.va.toNat
        (some r.1, r.2)

/-- A walk has ended: it leaves its buffer, fills an entry or fails, and its access goes on. -/
def State.walkEnd (s : State) (b : XBuf) (w : XWalk) (r : WalkRes) : State :=
  let s1 := s.popWalk b
  let s2 := match r with
    | .fault f => (s1.bumpF fXltFltcntBuf 1).serve w (.error f)
    | .leaf l =>
      let e := XEntry.ofLeaf w.slot w.va.toNat l
      (if s1.fillStale w e then s1 else s1.xfill b e).serve w (.ok e)
  s2.serveBehind b (s2.xbuf b).walks.length

/-- The front walk of a buffer reads the entries that the memory slots in progress serve, and completes when
it has read its last (R402, R404, R416). -/
def State.tableWalk (s : State) (b : XBuf) : State :=
  match (s.xbuf b).walks with
  | [] => s
  | w :: _ =>
    match s.walkStep b w with
    | (none, _) => s
    | (some (.error p), s1) => s1.setXbuf b { s1.xbuf b with ptr := some (BitVec.ofNat 64 p) }
    | (some (.ok r), s1) => s1.walkEnd b w r

/-- TABLE_WALK (R402). -/
def execTableWalk (b : XBuf) (s : State) : Host.Outcome State Fault Refusal := .next (s.tableWalk b)

end Sys2Proof.Machine
end

