-- ==== Sys2Proof/Machine/Links.lean ====
section
/-! DEFINITION. The ports: bring-up and failure, frames composed, received and placed, and the
commands of fabric time's registers (R483, R484, R488, R489, R498-R501, R507-R528, R759). -/

namespace Sys2Proof.Machine

open Sys2Proof

/-! ### Port states (R498, R528) -/

/-- DOWN. -/
def portDown : Nat := 0
/-- LIGHT. -/
def portLight : Nat := 1
/-- ALIGN. -/
def portAlign : Nat := 2
/-- IDENT. -/
def portIdent : Nat := 3
/-- TIMED. -/
def portTimed : Nat := 4
/-- UP. -/
def portIsUp : Nat := 5
/-- FAILED. -/
def portFailed : Nat := 6

/-- The state of a port. -/
def State.portState (s : State) (p : Nat) : Nat := s.getF (fFabPstatState p)

/-- The tags of this device's own requests among cells. -/
def State.ownTags (s : State) (cs : List Cell) : List Nat :=
  cs.filterMap fun c =>
    if cellFld c 0 4 = 3 ∧ cellFld c 16 16 = s.physChip then some (cellFld c 32 16) else none

/-- Requests end REMOTE_LOST. -/
def State.loseTags (s : State) : List Nat → State
  | [] => s
  | t :: r =>
    (match s.rem.reqs.find? (fun (q : RemReq) => q.tag == t) with
      | some q => s.remLost q
      | none => s).loseTags r

/-- What a link forgets when it ends: the remote and CONS cells queued for it are discarded, and
its bring-up begins afresh. -/
def State.cutLink (s : State) (p : Nat) : State :=
  let x := s.port p
  let lost := s.ownTags x.remq
  (s.setPort p { x with
    neighbour := none, readyIn := false, readyOut := false, flight := 0, align := 0, okRun := 0
    sinceAlign := 0, lossRun := 0, driftRun := 0, framesIn := [], remq := [], consq := []
    lastSlot := none, lastRx := none }).loseTags lost

/-- A port goes DOWN. -/
def State.downPort (s : State) (p : Nat) : State :=
  ((s.setF (fFabPstatState p) portDown).setB (fFabPstatWarn p) false).cutLink p

/-- A port fails with a code (R501, R520, R591); `info` is the frame's FTIME and what R718 puts
in INFO1. -/
def State.failPort (s : State) (p code : Nat) (info : Nat × Nat) : State :=
  (((((s.setF (fFabPstatState p) portFailed).setF (fFabPstatFail p) code).setB (fFabPstatWarn p) false).cutLink
    p).log ⟨12, code, unitPort p, false, false, info.1, info.2⟩).haltPort

/-- Whether a port may leave DOWN: enabled, not retired (R731), and fabric time not lost. -/
def State.portMay (s : State) (p : Nat) : Bool :=
  s.bitF (fFabPctlEn p) && !s.sd.portsOut.contains p && !s.bitF fFabTstatFreflost

/-- Bring-up begins from DOWN where light or signal is present. -/
def State.tryLight (s : State) (p : Nat) : State :=
  if s.portState p = portDown ∧ s.portMay p ∧ (s.port p).signal then
    (s.setF (fFabPstatState p) portLight).setPort p { s.port p with lightAt := s.clock }
  else s

/-- Whether an engine is powered: a board link always, an optical engine while its switch is ON. -/
def State.powered (s : State) (p : Nat) : Bool := 16 ≤ p || s.getF (fPwrOptStatState (p / 4)) == 2

/-- Light or signal appears. -/
def State.signalOn (s : State) (p : Nat) : State :=
  if s.powered p then (s.setPort p { s.port p with signal := true }).tryLight p else s

/-- Light or signal is lost. -/
def State.signalOff (s : State) (p : Nat) : State :=
  let s1 := s.setPort p { s.port p with signal := false }
  if s.portState p = portFailed then s1 else s1.downPort p

/-- Bring-up restarts from DOWN. -/
def State.restartPort (s : State) (p : Nat) : State :=
  ((s.setF (fFabPstatFail p) 0).downPort p).tryLight p

/-- A write of PCTL: EN and AUTO are stored; RETRAIN restarts the port; EN = 0 holds it DOWN, and leaves one
that has FAILED as it is, for only RETRAIN and the retry end that state (R498). -/
def State.portCtl (s : State) (p : Nat) (v : W32) : State :=
  let s1 := s.store (rFabPctl p) v
  if v.getLsbD 1 then s1.restartPort p
  else if v.getLsbD 0 then s1.tryLight p
  else if s.portState p = portDown ∨ s.portState p = portFailed then s1
  else s1.downPort p

/-- PORT_SIGNAL_DETECT (R498). -/
def execPortSignalDetect (p : Port) (s : State) : Host.Outcome State Fault Refusal := .next (s.signalOn p.val)

/-- PORT_SIGNAL_LOSS (R498). -/
def execPortSignalLoss (p : Port) (s : State) : Host.Outcome State Fault Refusal := .next (s.signalOff p.val)

/-- RETRAIN (R498). -/
def execRetrain (r : Requester) (p : Port) (v : BitVec 32) (s : State) :
    Host.Outcome State Fault Refusal :=
  .next (s.bar0 r fun s => s.portCtl p.val (v ||| 2))

/-- A port moves from one bring-up state to the next. -/
def State.portStep (s : State) (p a b : Nat) : State :=
  if s.portState p = a then s.setF (fFabPstatState p) b else s

/-- CLOCK_RECOVERY_LOCK (R498). -/
def execClockRecoveryLock (p : Port) (s : State) : Host.Outcome State Fault Refusal :=
  .next (s.portStep p.val portLight portAlign)

/-- CODEWORD_LOCK (R498). -/
def execCodewordLock (p : Port) (s : State) : Host.Outcome State Fault Refusal :=
  .next (s.portStep p.val portAlign portIdent)

/-- 50 ms after LIGHT a port that is not UP fails; no check has failed it, so with NOLOCK. -/
def State.bringupTimeout (s : State) (p : Nat) : State :=
  if 1 ≤ s.portState p ∧ s.portState p ≤ 4 then
    (s.reachFrom (s.port p).lightAt 6250000).failPort p 2 (0, 0)
  else s

/-- BRINGUP_TIMEOUT (R501). -/
def execBringupTimeout (p : Port) (s : State) : Host.Outcome State Fault Refusal :=
  .next (s.bringupTimeout p.val)

/-- The automatic retry of a FAILED port, at most once per 100 ms. -/
def State.portRetry (s : State) (p : Nat) : State :=
  if s.portState p = portFailed ∧ s.bitF (fFabPctlAuto p) then
    let s1 := match (s.port p).retriedAt with
      | some t => s.reachFrom t 12500000
      | none => s
    (s1.setPort p { s1.port p with retriedAt := some s1.clock }).restartPort p
  else s

/-- PORT_RETRY (R501). -/
def execPortRetry (p : Port) (s : State) : Host.Outcome State Fault Refusal := .next (s.portRetry p.val)

/-- LASER_LOW: an engine's port fails with OPTPWR, whatever its state (R759). -/
def execLaserLow (p : Port) (s : State) : Host.Outcome State Fault Refusal :=
  .next (if p.val < 16 then s.failPort p.val 9 (0, 0) else s)

/-- SYNTH_RELOCK (R524). -/
def execSynthRelock (p : Fin 16) (s : State) : Host.Outcome State Fault Refusal :=
  .next (s.setPort p.val { s.port p.val with settling := true })

/-- SYNTH_SETTLED (R524). -/
def execSynthSettled (p : Fin 16) (s : State) : Host.Outcome State Fault Refusal :=
  .next (s.setPort p.val { s.port p.val with settling := false })

/-! ### Headers (R499, R507) -/

/-- Bytes of a frame's header. -/
def frameFld (f : Frame) (o n : Nat) : Nat := f.hdr.toNat / 2 ^ (8 * o) % 2 ^ (8 * n)

/-- Whether HCRC passes. -/
def frameGood (f : Frame) : Bool := frameFld f 60 4 == crc32 ((leBytes 64 f.hdr.toNat).take 60)

/-- What a sender puts into a frame's header. -/
structure FrameHdr where
  typ : Nat
  ncell : Nat
  ftime : Nat
  template : Nat
  data : List Byte
  deriving DecidableEq, Repr

/-- Whether a die is LATE (R522). -/
def State.dieLate (s : State) (die : Nat) : Bool :=
  if die = 0 then s.bitF fFabGateLatew else s.bitF fFabGateLatee

/-- The bytes of a header that a port sends. -/
def State.frameHdr (s : State) (p : Nat) (h : FrameHdr) : BitVec 512 :=
  let x := s.port p
  let b := leBytes 1 h.typ ++ [1] ++ leBytes 2 h.ncell ++ leBytes 2 s.physChip ++ leBytes 1 p
    ++ leBytes 1 (if s.dieLate (portDie p) then 1 else 0) ++ leBytes 8 h.ftime ++ leBytes 2 h.template
    ++ leBytes 6 0 ++ [x.ukind, x.uval] ++ leBytes 2 x.ucount.toNat ++ padTo 32 h.data
  BitVec.ofNat 512 (leNat (b ++ leBytes 4 (crc32 b)))

/-- A port sends the codewords of a slot, with its frame where it carries one (R497). -/
def State.sendSlot (s : State) (p : Port) (t0 : Nat) (f : Option Frame) : State :=
  s.emit (.codewords p (slotWords p.val t0 s.physChip f))

/-- A port sends a frame, in the codewords of its slot; the unsupported reply has then been given. -/
def State.sendFrame (s : State) (p : Port) (h : FrameHdr) (cells : List Cell) : State :=
  let f : Frame := ⟨s.frameHdr p.val h, cells⟩
  ((s.setPort p.val { s.port p.val with ukind := 0, uval := 0, ucount := 0 }).emit (.frame p f)).sendSlot p
    h.ftime (some f)

/-! ### A TRAIN frame (R484, R498-R500) -/

/-- TFLAGS that a port sends: PCHIPV, FRAMESET, and READY once it is TIMED and its time is set. -/
def State.trainFlags (s : State) (p : Nat) : Nat :=
  (if s.bitF fFabPchipValid then 1 else 0) + (if s.bitF fFabTstatFrameset then 2 else 0)
    + (if s.portState p = portTimed ∧ s.bitF fFabTstatFrameset then 4 else 0)

/-- Send a TRAIN frame. -/
def State.sendTrain (s : State) (p : Port) (t0 : Nat) : State :=
  let fl := s.trainFlags p.val
  let s1 := s.setPort p.val { s.port p.val with readyOut := (s.port p.val).readyOut || 4 ≤ fl }
  s1.sendFrame p ⟨4, 0, t0, 0, [1, 1] ++ leBytes 2 s.physChip ++ leBytes 1 fl⟩ []

/-- What a failure by a frame puts into its record: FTIME, and the sender's chip number. -/
def frameInfo (f : Frame) : Nat × Nat := (frameFld f 8 8, frameFld f 4 2)

/-- The frame number for which this device's time fits a neighbour's within 1 tk (R498): `low` is
bits [14:0] of the own time, `target` the neighbour's time at arrival in 1/32 tk. -/
def adoptFrame (low target : Nat) : Option Nat :=
  let f := ((target : Int) - 32 * low + 2 ^ 19) / 2 ^ 20
  let d := 32 * (f * 32768 + low) - (target : Int)
  if 0 ≤ f ∧ -32 ≤ d ∧ d ≤ 32 then some f.toNat else none

/-- The flight time in 1/32 tk of a TRAIN frame whose first codeword arrived `ago` (R500): its arrival minus
the FTIME that it carries, modulo 2^15 tk where the frame number of either end is not set. -/
def State.flightOf (s : State) (f : Frame) (ago : Nat) : Int :=
  let d : Int := 32 * s.time - ago - 32 * frameFld f 8 8
  if s.bitF fFabTstatFrameset ∧ (frameFld f 32 1).testBit 1 then d else d % 2 ^ 20

/-- The timing part of a TRAIN frame, in state TIMED: a flight of a whole frame or more, or of less than 0, says
that the frame numbers of the two ends disagree (R498, log entry 80). -/
def State.trainTime (s : State) (p : Nat) (f : Frame) (ago : Nat) : State :=
  let fl := frameFld f 32 1
  let d := s.flightOf f ago
  let flight := d.toNat
  let s1 := (s.setPort p { s.port p with flight := flight, readyIn := fl.testBit 2 }).setF
    (fFabPstatLdlymin p) ((flight + 64 + 1023) / 1024)
  let own := s.time
  if d < 0 ∨ 2 ^ 20 ≤ d then s.failPort p 5 (frameInfo f)
  else if 16320 < flight then s1.failPort p 6 (frameInfo f)
  else if ¬ fl.testBit 1 then s1
  else
    match adoptFrame (own % 32768) (32 * frameFld f 8 8 + flight + ago) with
    | none => s1.failPort p 5 (frameInfo f)
    | some n =>
      if s.bitF fFabTstatFrameset then
        if n * 32768 + own % 32768 = own then s1 else s1.failPort p 5 (frameInfo f)
      else (s1.jumpTime (BitVec.ofNat 64 (n * 32768 + own % 32768))).setB fFabTstatFrameset true

/-- The identity part, in state IDENT (R484, R499). -/
def State.trainIdent (s : State) (p : Nat) (f : Frame) : State :=
  if ¬ s.bitF fFabPchipValid ∨ ¬ (frameFld f 32 1).testBit 0 then s
  else if ¬ neighbourOk s.physChip (frameFld f 30 2) p ∨ frameFld f 6 1 ≠ peerPort p then
    s.failPort p 3 (frameInfo f)
  else if 1 < frameFld f 28 1 ∨ frameFld f 29 1 < 1 then s.failPort p 4 (frameInfo f)
  else (s.setF (fFabPstatState p) portTimed).setPort p { s.port p with
    neighbour := some (frameFld f 30 2, frameFld f 6 1) }

/-- An unsupported item: counted, and answered in the next frame (R511). -/
def State.unsupported (s : State) (p : Nat) (kind val : Nat) : State :=
  let x := s.port p
  (s.setPort p { x with
    ukind := BitVec.ofNat 8 kind, uval := BitVec.ofNat 8 val
    ucount := BitVec.ofNat 16 (incSat 16 x.ucount.toNat 1) }).bumpF (fFabPunsUnknown p) 1

/-- Whether a port has agreed a version with its neighbour (R499). -/
def State.agreed (s : State) (p : Nat) : Bool := s.portState p == portTimed || s.portState p == portIsUp

/-- A TRAIN frame is received; one of another version than the agreed one is dropped (R511). -/
def State.train (s : State) (p : Nat) (f : Frame) (ago : Nat) : State :=
  if ¬ frameGood f ∨ frameFld f 0 1 ≠ 4 then s
  else if s.agreed p ∧ frameFld f 1 1 ≠ 1 then s.unsupported p 3 (frameFld f 1 1)
  else
    let s1 := if s.portState p = portIdent then s.trainIdent p f else s
    if s1.portState p = portTimed then s1.trainTime p f ago else s1

/-- TRAIN (R499, R500): `ago` is how long ago, in 1/32 tk, the frame's first codeword arrived. -/
def execFrameTrain (p : Port) (f : Frame) (ago : BitVec 16) (s : State) :
    Host.Outcome State Fault Refusal := .next (s.train p.val f ago.toNat)

/-- A port enters UP at a marker when both ends have sent READY (R498). Frames that the neighbour
sent before are TRAIN frames, so placement begins with the first slot that can hold another. -/
def State.portUpAt (s : State) (p : Nat) : State :=
  let x := s.port p
  if s.portState p = portTimed ∧ x.readyIn ∧ x.readyOut then
    let l := ((s.fabApplied.map (·.ldly)).getD []).getD p 1
    (s.setF (fFabPstatState p) portIsUp).setPort p { x with
      lastSlot := none, lastRx := some (s.fab.time + BitVec.ofNat 64 (32 * l) - 32)
      sinceCal := 0, framesIn := [], okRun := 0, sinceAlign := 0, align := 0 }
  else s

/-! ### Composition (R512, R513, R523-R526) -/

/-- The transmit-table entry of a port in a slot: MAINT in every slot under the default image, which carries
link bring-up and maintenance only (R345). -/
def State.txEntry (s : State) (p slot : Nat) : Nat :=
  match s.fabApplied with
  | none => 0xFFFF
  | some f => (Tab.look (fun _ => 0) f.tx (1024 * p + slot % 1024)).toNat

/-- The receive-table entry of a port in a slot, MAINT under the default image. -/
def State.rxEntry (s : State) (p slot : Nat) : Nat :=
  match s.fabApplied with
  | none => 0xFFFF
  | some f => (Tab.look (fun _ => 0) f.rx (1024 * p + slot % 1024)).toNat

/-- The allocations of an entry. -/
def State.allocs (s : State) (e : Nat) : List AllocCfg :=
  if e = 0 ∨ 0xFFFE ≤ e then []
  else ((s.fabApplied.map (·.tpls)).getD [])[e - 1]?.getD []

/-- The core whose port a route begins at. -/
def State.srcCore (s : State) (r : Nat) : Option Nat :=
  (s.routeCfg .a r).bind fun c => if epKind c.src = 0 then some (epIdx c.src / 32) else none

/-- Words of a core are composed into a frame at `t` (R529): those that its pending fence does not cover are
left for its next one. -/
def CoreSt.noteComp (x : CoreSt) (own : FenceSt → Bool) (t : W64) : CoreSt :=
  match x.fence with
  | some f => if own f then { x with fence := some { f with later := some t } } else { x with lastComp := some t }
  | none => { x with lastComp := some t }

/-- The first `n` words that a route has delivered are composed into a frame at `t`. -/
def State.noteComp (s : State) (r n t : Nat) : State :=
  match s.srcCore r, s.routeCfg .a r with
  | some c, some cf =>
    if n = 0 then s
    else s.modCore c fun x => x.noteComp (fun f => decide (s.uncomposed c (r, cf) ≤ f.allow r)) (BitVec.ofNat 64 t)
  | _, _ => s

/-- Replace them. -/
def FabPort.setWords (x : FabPort) (r : Nat) (l : List SWord) : FabPort :=
  { x with delivered := Tab.put (fun _ => []) x.delivered (routeKey .a r) l }

/-- Take `n` words of a route from an engine; their places are free again. -/
def State.takeWords (s : State) (p r n : Nat) : State :=
  (s.setPort p ((s.port p).setWords r (((s.port p).words r).drop n))).creditsBack .a (List.replicate n r)

/-- A short allocation (R512): the words present and those still to come, COUNT in all, are
discarded and counted. -/
def State.shortAlloc (s : State) (p : Nat) (a : AllocCfg) : State :=
  let have_ := min a.count ((s.port p).words a.route).length
  let s1 := (s.takeWords p a.route have_).bumpF (fFabPdropTxwords p) have_
  let x := s1.port p
  let k := routeKey .a a.route
  let n := Tab.look (fun _ => 0) x.owed k + (a.count - have_)
  (s1.setPort p { x with owed := Tab.put (fun _ => 0) x.owed k n }).setIncomp

/-- The cells of an allocation, with the empty places at its end. -/
def State.sendAlloc (s : State) (p t : Nat) (late : Bool) (a : AllocCfg) : List Cell × State :=
  let fill (l : List Cell) : List Cell := l ++ List.replicate (a.count - l.length) cellEmpty
  match a.cls with
  | 0 =>
    let ws := (s.port p).words a.route
    if a.count ≤ ws.length ∧ ¬ late then
      ((ws.take a.count).map (wordCell 1 a.chan), (s.noteComp a.route a.count t).takeWords p a.route a.count)
    else (List.replicate a.count (wordCell 1 a.chan (SWord.bad false)), s.shortAlloc p a)
  | 1 =>
    if late then (fill [], s)
    else
      let ws := ((s.port p).words a.route).take a.count
      (fill (ws.map (wordCell 2 a.chan)), (s.noteComp a.route ws.length t).takeWords p a.route ws.length)
  | _ =>
    let x := s.port p
    (fill (x.remq.take a.count), s.setPort p { x with remq := x.remq.drop a.count })

/-- The cells of a template's allocations, in order. -/
def State.sendAllocs (s : State) (p t : Nat) (late : Bool) : List AllocCfg → List Cell × State
  | [] => ([], s)
  | a :: r =>
    let x := s.sendAlloc p t late a
    let y := x.2.sendAllocs p t late r
    (x.1 ++ y.1, y.2)

/-- Every EXACT allocation of a slot that carries no frame is short (R524). -/
def State.shortAll (s : State) (p : Nat) : List AllocCfg → State
  | [] => s
  | a :: r => (if a.cls = 0 then s.shortAlloc p a else s).shortAll p r

/-- A slot in which an engine sends no frame. -/
def State.silentSlot (s : State) (p slot : Nat) : State := s.shortAll p (s.allocs (s.txEntry p slot))

/-- An engine calibrates. -/
def State.calibrate (s : State) (p : Nat) : State := s.setPort p { s.port p with sinceCal := 0 }

/-- Cells per frame of a port (R506). -/
def portCells (p : Nat) : Nat := if p < 16 then 169 else 300

/-- Compose the frame of a slot of a port that is UP; `t0` is tick 0 of the slot. -/
def State.composeUp (s : State) (p : Port) (t0 : Nat) : State :=
  let slot := t0 / 32
  let e := s.txEntry p.val slot
  let x := s.port p.val
  if x.settling then s.silentSlot p.val slot
  else if p.val < 16 ∧ 1024 ≤ x.sinceCal then (s.calibrate p.val).silentSlot p.val slot
  else if e = 0xFFFF then
    if p.val < 16 ∧ 256 ≤ x.sinceCal then (s.calibrate p.val).sendSlot p t0 none
    else s.sendFrame p ⟨3, 0, t0, e, []⟩ []
  else if e = 0xFFFE then
    let cs := ((x.consq.filter fun c => c.1.toNat == t0).map (·.2)).take (portCells p.val)
    s.sendFrame p ⟨2, cs.length, t0, e, []⟩ cs
  else if e = 0 then s.sendFrame p ⟨0, 0, t0, 0, []⟩ []
  else
    let k := s.sendAllocs p.val (t0 - 4) (s.dieLate (portDie p.val)) (s.allocs e)
    k.2.sendFrame p ⟨1, k.1.countP (· ≠ cellEmpty), t0, e, []⟩ k.1

/-- The first slot start whose composition time has not passed and that is after the last one. -/
def nextSlot (time : Nat) (last : Option W64) : Nat :=
  let a := (time + 4 + 31) / 32 * 32
  match last with
  | some t => max a (t.toNat + 32)
  | none => a

/-- The frame of a port's next slot is composed, 4 tk before its tick 0. While its synthesiser settles, an
engine sends idle symbols in place of frame and marker codewords, in bring-up too (R524). -/
def State.compose (s : State) (p : Port) : State :=
  let st := s.portState p.val
  if st < 2 ∨ 5 < st then s
  else
    let t0 := nextSlot s.time (s.port p.val).lastSlot
    let s1 := s.reach (t0 - 4)
    let s2 := s1.setPort p.val { s1.port p.val with
      lastSlot := some (BitVec.ofNat 64 t0)
      consq := (s1.port p.val).consq.filter fun c => decide (t0 ≤ c.1.toNat) }
    if st = 5 then s2.composeUp p t0
    else if (s2.port p.val).settling then s2
    else s2.sendTrain p t0

/-- FRAME_COMPOSE (R512). -/
def execFrameCompose (p : Port) (s : State) : Host.Outcome State Fault Refusal := .next (s.compose p)

/-! ### Arrival (R508, R511, R514, R518-R520, R583, R736) -/

/-- Move the alignment point while the port is in WARN (R519). -/
def State.alignStep (s : State) (p : Nat) (d : Int) : State :=
  let x := s.port p
  if ¬ s.bitF (fFabPstatWarn p) then s.setPort p { x with sinceAlign := 0 }
  else if x.sinceAlign < 31 then s.setPort p { x with sinceAlign := x.sinceAlign + 1 }
  else s.setPort p { x with sinceAlign := 0, align := x.align + (if 0 < d then 1 else if d < 0 then -1 else 0) }

/-- A slot without a slot marker is in no state of drift: the run of slots in OK breaks, and the alignment
point moves with the next marker (R519). -/
def State.noMarker (s : State) (p : Nat) : State :=
  let x := s.port p
  s.setPort p { x with
    okRun := 0, sinceAlign := if s.bitF (fFabPstatWarn p) then min 31 (x.sinceAlign + 1) else 0 }

/-- The offset of a slot marker, after the alignment point: whether it drops the frame of its slot. -/
def State.drift (s : State) (p : Nat) (delta : BitVec 8) : Bool × State :=
  let x := s.port p
  let d : Int := delta.toInt - x.align
  let s1 := s.setF (fFabPstatDrift p) (BitVec.ofInt 8 d).toNat
  if d.natAbs ≤ 8 then
    let n := x.okRun + 1
    let s2 := s1.setPort p { x with okRun := n, driftRun := 0 }
    (false, (if 1024 ≤ n then s2.setB (fFabPstatWarn p) false else s2).alignStep p d)
  else if d.natAbs ≤ 24 then
    (false, ((s1.setPort p { x with okRun := 0, driftRun := 0 }).setB (fFabPstatWarn p) true).alignStep p d)
  else
    (true, ((s1.setPort p { x with okRun := 0, driftRun := x.driftRun + 1 }).bumpF (fFabPlostDriftdrop p)
      1).alignStep p d)

/-- A non-zero UKIND received, recorded once per change (R736). -/
def State.peerUkind (s : State) (p : Nat) (f : Frame) : State :=
  let k := BitVec.ofNat 8 (frameFld f 24 1)
  let x := s.port p
  let s1 := s.setPort p { x with peerUkind := k }
  if k ≠ 0 ∧ k ≠ x.peerUkind then
    s1.log ⟨12, 0x0200, unitPort p, false, false, frameFld f 8 8, k.toNat + 256 * frameFld f 25 1⟩
  else s1

/-- The CONS cells of a frame are decoded as it arrives (R583); one whose CRC fails keeps its place. -/
def State.takeCons (s : State) (p : Nat) (f : Frame) : List Cell → State
  | [] => s
  | c :: r =>
    let kept : State :=
      { s with bwt := { s.bwt with cons := s.bwt.cons ++ [⟨p, BitVec.ofNat 64 (frameFld f 8 8), c⟩] } }
    (if ¬ cellGood c then kept.bumpF (fFabPunsCellcrc p) 1
     else if cellFld c 0 4 = 5 then kept
     else if cellFld c 0 4 = 0 ∨ 6 ≤ cellFld c 0 4 then s.unsupported p 2 (cellFld c 0 4)
     else s).takeCons p f r

/-- The slot at the receiver for a frame of a given FTIME. -/
def State.rxSlot (s : State) (p ftime : Nat) : Nat :=
  ftime / 32 + ((s.fabApplied.map (·.ldly)).getD []).getD p 1

/-- A frame whose header passes is kept for its placement. -/
def State.keepFrame (s : State) (p : Nat) (f : Frame) : State :=
  let x := s.port p
  let s1 := s.setPort p { x with framesIn := x.framesIn ++ [f] }
  if frameFld f 0 1 = 2 ∧ frameFld f 16 2 = 0xFFFE
      ∧ s.rxEntry p (s.rxSlot p (frameFld f 8 8)) = 0xFFFE then s1.takeCons p f f.cells
  else s1

/-- A frame that a port in IDENT or TIMED decodes, no TRAIN frame (R511): a reserved type, or another version
than the agreed one, is counted and answered. -/
def State.arriveEarly (s : State) (p : Nat) (f : Frame) : State :=
  if ¬ frameGood f then s
  else if 5 ≤ frameFld f 0 1 then s.unsupported p 1 (frameFld f 0 1)
  else if s.agreed p ∧ frameFld f 1 1 ≠ 1 then s.unsupported p 3 (frameFld f 1 1)
  else s

/-- A frame arrives at a port, at one that is UP with its slot marker `delta` in 1/32 tk from its expected
tick. -/
def State.arrive (s : State) (p : Nat) (f : Frame) (delta : BitVec 8) : State :=
  if s.portState p = portIdent ∨ s.portState p = portTimed then s.arriveEarly p f
  else if s.portState p ≠ portIsUp then s
  else
    let d := s.drift p delta
    let s1 := d.2
    if d.1 then (if 16 ≤ (s1.port p).driftRun then s1.failPort p 8 (frameInfo f) else s1)
    else if ¬ frameGood f then s1
    else if 5 ≤ frameFld f 0 1 then s1.unsupported p 1 (frameFld f 0 1)
    else if frameFld f 1 1 ≠ 1 then s1.unsupported p 3 (frameFld f 1 1)
    else if (s1.port p).neighbour ≠ some (frameFld f 4 2, frameFld f 6 1) then
      s1.log ⟨12, 0x0201, unitPort p, false, false, frameFld f 8 8, frameFld f 4 2⟩
    else (s1.peerUkind p f).keepFrame p f

/-- DATA (R508). -/
def execFrameData (p : Port) (f : Frame) (delta : BitVec 8) (s : State) :
    Host.Outcome State Fault Refusal := .next (s.arrive p.val f delta)

/-- CONS (R508). -/
def execFrameCons (p : Port) (f : Frame) (delta : BitVec 8) (s : State) :
    Host.Outcome State Fault Refusal := .next (s.arrive p.val f delta)

/-- MAINT (R508). -/
def execFrameMaint (p : Port) (f : Frame) (delta : BitVec 8) (s : State) :
    Host.Outcome State Fault Refusal := .next (s.arrive p.val f delta)

/-- IDLE (R508). -/
def execFrameIdle (p : Port) (f : Frame) (delta : BitVec 8) (s : State) :
    Host.Outcome State Fault Refusal := .next (s.arrive p.val f delta)

/-- FRAME_UNKNOWN_TYPE (R511). -/
def execFrameUnknownType (p : Port) (f : Frame) (delta : BitVec 8) (s : State) :
    Host.Outcome State Fault Refusal := .next (s.arrive p.val f delta)

/-! ### Placement (R514-R517, R520, R566) -/

/-- A word is placed in a landing channel: discarded while a Mule token is skipped, dropped with a
debt where the channel is full. -/
def State.landPut (s : State) (p n : Nat) (w : SWord) : State :=
  let x := s.landing n
  if x.skip then s.setLanding n { x with skip := !w.last }
  else if 0 < x.debts ∨ s.chanDepth n ≤ x.words.length then
    ((s.setLanding n { x with debts := x.debts + 1, placed := x.placed + 1 }).bumpF (fFabPdropLandwords p) 1).setIncomp
  else s.setLanding n { x with words := x.words ++ [w], placed := x.placed + 1 }

/-- Words are placed in a landing channel. -/
def State.landPuts (s : State) (p n : Nat) : List SWord → State
  | [] => s
  | w :: r => (s.landPut p n w).landPuts p n r

/-- A cell in the place of an EXACT allocation. -/
def State.placeExact (s : State) (p : Nat) (a : AllocCfg) (c : Cell) : State :=
  let k := cellFld c 0 4
  if ¬ cellGood c then ((s.bumpF (fFabPunsCellcrc p) 1).setIncomp).landPut p a.chan (SWord.bad false)
  else if k = 0 ∨ 6 ≤ k then (s.unsupported p 2 k).landPut p a.chan (SWord.bad false)
  else s.landPut p a.chan (if k = 1 then cellWord c else SWord.bad false)

/-- A cell in a place of an UPTO allocation. -/
def State.placeUpto (s : State) (p : Nat) (a : AllocCfg) (ft : W64) (c : Cell) : State :=
  let k := cellFld c 0 4
  if c = cellEmpty then s
  else if ¬ cellGood c then
    let s1 := s.bumpF (fFabPunsCellcrc p) 1
    if a.cls = 1 then s1.setIncomp else s1
  else if k = 0 ∨ 6 ≤ k then s.unsupported p 2 k
  else if a.cls = 1 ∧ k = 2 then s.landPut p a.chan (cellWord c)
  else if a.cls = 2 ∧ (k = 4 ∨ (k = 3 ∧ cellFld c 5 3 < 3)) then
    s.setPort p { s.port p with remin := (s.port p).remin ++ [(ft, c)] }
  else s

/-- The cells of an allocation are placed. -/
def State.placeCells (s : State) (p : Nat) (a : AllocCfg) (ft : W64) : List Cell → State
  | [] => s
  | c :: r => (if a.cls = 0 then s.placeExact p a c else s.placeUpto p a ft c).placeCells p a ft r

/-- The cells of a frame are placed by the template expected. -/
def State.placeFrame (s : State) (p : Nat) (ft : W64) (cs : List Cell) : List AllocCfg → State
  | [] => s
  | a :: r =>
    let mine := cs.take a.count
    ((s.placeCells p a ft (mine ++ List.replicate (a.count - mine.length) cellEmpty))).placeFrame p ft
      (cs.drop a.count) r

/-- A lost frame puts INVALID words into the channels of the EXACT allocations. -/
def State.placeLost (s : State) (p : Nat) : List AllocCfg → State
  | [] => s
  | a :: r =>
    (if a.cls = 0 then s.landPuts p a.chan (List.replicate a.count (SWord.bad false)) else s).placeLost p r

/-- Whether a landing channel ends at a staging region of a Mule table. -/
def State.muleChan (s : State) (c : ChanCfg) : Bool :=
  match s.routeCfg .a c.route with
  | none => false
  | some cf => epKind cf.dst == 2 && ((s.stagingCfg .a (epIdx cf.dst)).map (·.owner)) == some 2

/-- A Mule landing channel after a lost frame: what follows is discarded up to a word marked LAST,
and a token cut short ends with an INVALID word. -/
def State.skipToken (s : State) (p : Nat) (n : Nat × ChanCfg) : State :=
  if n.2.port ≠ p ∨ ¬ s.muleChan n.2 then s
  else
    let r := s.route .a n.2.route
    let x := s.landing n.1
    let seen := r.dst ++ r.flight ++ x.words
    let cut := (seen.getLast?.map fun w => !w.last).getD false
    let y : ChanSt := { x with skip := true }
    s.setLanding n.1 (if cut then { y with words := x.words ++ [SWord.bad true], placed := x.placed + 1 } else y)

/-- A lost frame cuts the Mule tokens of its port (R566). -/
def State.skipTokens (s : State) (p : Nat) : State :=
  match s.fabApplied with
  | none => s
  | some f => ((List.range f.chans.length).zip f.chans).foldl (fun t n => t.skipToken p n) s

/-- A frame is lost (R514, R517, R520): one that should carry data or consensus sets the incomplete bit. -/
def State.loseFrame (s : State) (p e slot : Nat) : State :=
  let s0 := s.bumpF (fFabPlostFrames p) 1
  let s1 := if e = 0 ∨ e = 0xFFFF then s0 else ((s0.setIncomp).skipTokens p).placeLost p (s.allocs e)
  let n := (s1.port p).lossRun + 1
  let s2 := s1.setPort p { s1.port p with lossRun := n }
  if 16 ≤ n then s2.failPort p 7 (32 * slot, ((s2.port p).neighbour.map (·.1)).getD 0) else s2

/-- The next slot whose tick 30 has not passed and that has not been placed. -/
def nextPlace (time : Nat) (last : Option W64) : Nat :=
  let a := (time + 1) / 32 * 32
  match last with
  | some t => max a (t.toNat + 32)
  | none => a

/-- What a receiver finds of a slot whose frame did not come (R518, R519): a marker that came alone is
measured as any is (log entry 80); one that did not come breaks the run of slots in OK. -/
def State.slotMark (s : State) (p : Nat) : SlotMark → State
  | .framed => s
  | .alone d => (s.drift p d).2
  | .absent => s.noMarker p

/-- The frame expected in a port's next slot is placed at tick 30. Every slot expects one: in an IDLE or a
MAINT slot too one that does not come, or is dropped, is lost (R514), and a port that has lost codeword lock
loses 16 frames in 16 slots (R520). -/
def State.place30 (s : State) (p : Nat) (m : SlotMark) : State :=
  if s.portState p ≠ portIsUp then s
  else
    let t0 := nextPlace s.time (s.port p).lastRx
    let s1 := (((s.reach (t0 + 30)).fenceMark).slotMark p m)
    let l := ((s.fabApplied.map (·.ldly)).getD []).getD p 1
    let ft := t0 - 32 * l
    let e := s1.rxEntry p (t0 / 32)
    let x := s1.port p
    let s2 := s1.setPort p { x with
      lastRx := some (BitVec.ofNat 64 t0)
      framesIn := x.framesIn.filter fun f => ft < frameFld f 8 8 }
    match x.framesIn.find? fun f => frameFld f 8 8 == ft && frameFld f 16 2 == e with
      | some f => ((s2.setPort p { s2.port p with lossRun := 0 }).placeFrame p (BitVec.ofNat 64 ft) f.cells
          (s2.allocs e))
      | none => s2.loseFrame p e (t0 / 32)

/-- FRAME_PLACEMENT (R514). -/
def execFramePlacement (p : PlacedSlot) (s : State) : Host.Outcome State Fault Refusal :=
  .next (s.place30 p.port.val p.mark)

/-! ### Fabric time's registers (R483, R488, R489) -/

/-- A write of FAB_PCHIP. -/
def State.pchip (s : State) (v : W32) : State :=
  if (s.imgA.bind (·.chipmap)).isSome then s.log ⟨12, 0x0102, unitDevice, false, false, s.time, 0⟩
  else if v.toNat % 4 ≠ s.getF fFabPchipBidx then s.logCsr 1 rFabPchip v.toNat
  else (s.setF fFabPchipChip v.toNat).setB fFabPchipValid true

/-- FAB_PCHIP (R483). -/
def execFabPchip (r : Requester) (v : BitVec 32) (s : State) : Host.Outcome State Fault Refusal :=
  .next (s.bar0 r fun s => s.pchip v)

/-- A write of FAB_TCTL.APPLY. -/
def State.fabApply (s : State) : State :=
  if s.bitF fFabTstatFrameset then s.log ⟨12, 0x0102, unitDevice, false, false, s.time, 0⟩
  else { s with fab := { s.fab with setPend := true } }

/-- APPLY (R489). -/
def execFabApply (r : Requester) (_v : BitVec 32) (s : State) : Host.Outcome State Fault Refusal :=
  .next (s.bar0 r State.fabApply)

/-- Every port goes DOWN. -/
def State.downAll (s : State) : State := (List.range 19).foldl (fun t p => t.downPort p) s

/-- FREF has stopped for more than 1 µs. -/
def State.frefLost (s : State) : State :=
  if s.bitF fFabTstatFreflost then s
  else (((s.setB fFabTstatFreflost true).downAll).log ⟨12, 0x0101, unitDevice, false, false, s.time, 0⟩).pendHalt 9

/-- FREF_LOST (R488). -/
def execFrefLost (s : State) : Host.Outcome State Fault Refusal := .next s.frefLost

end Sys2Proof.Machine
end

