-- ==== Sys2Proof/Machine/Collective.lean ====
section
/-! DEFINITION. Collectives: their shards, chunks and algorithms, the exact arithmetic of their
sums, and the commands of the HRD block (R534-R554, R571, R572). -/

namespace Sys2Proof.Machine

open Sys2Proof

/-! ### A collective on this member (R532, R533, R540, R541) -/

/-- What a collective works with on this device: its number and entry, the extents of its herd's
masked axes, this member's rank, the preset scale, if it has one, and where its staging region begins. -/
structure CollEnv where
  k : Nat
  cf : CollCfg
  exts : List Nat
  rank : Nat
  pre : Option Int
  links : List LinkCfg
  base : Nat
  deriving DecidableEq, Repr

/-- A collective of job slot A's image. -/
def State.collCfg (s : State) (k : Nat) : Option CollCfg :=
  ((s.imgA.bind (·.herd)).map (·.colls)).bind fun l => l[k]?

/-- The preset scale of a collective (R548). -/
def State.presetOf (s : State) (k : Nat) : Option Int :=
  ((s.imgA.map (·.preset)).getD []).findSome? fun p => if p.coll = k then some p.pscale else none

/-- A collective of which this device is a member; it is inert on any other (R532). -/
def State.collEnv (s : State) (k : Nat) : Option CollEnv :=
  (s.collCfg k).bind fun cf => (s.herdCfg cf.herd).bind fun h => (s.herdRank h).map fun r =>
    ⟨k, cf, h.axes.map h.extOf, r, (s.presetOf k).map (· + s.bwt.pshift),
      ((((s.imgA.bind (·.herd)).map (·.links)).getD []).drop cf.linkbase).take cf.nlink,
      ((s.stagingCfg .a cf.stg).map StagingCfg.addr).getD 0⟩

/-- N. -/
def CollEnv.n (e : CollEnv) : Nat := e.exts.foldl (· * ·) 1

/-- Whether it copies: ALLGATHER or BCAST. -/
def CollEnv.copies (e : CollEnv) : Bool := decide (3 ≤ e.cf.op)

/-- Whether it is a BCAST. -/
def CollEnv.bcast (e : CollEnv) : Bool := e.cf.op == 4

/-- The range of a shard, once for each masked axis. -/
def shardRange : List Nat → List Nat → Nat → Nat → Nat × Nat
  | e :: es, c :: cs, lo, hi => shardRange es cs (lo + c * (hi - lo) / e) (lo + (c + 1) * (hi - lo) / e)
  | _, _, lo, hi => (lo, hi)

/-- The range of shard `j`; a BCAST has the whole tensor as its one shard. -/
def CollEnv.shard (e : CollEnv) (j : Nat) : Nat × Nat :=
  if e.bcast then (0, e.cf.nt) else shardRange e.exts (rankDigits e.exts j) 0 e.cf.nt

/-- All shards, in order. -/
def CollEnv.all (e : CollEnv) : List Nat := if e.bcast then [0] else List.range e.n

/-- The units of shard `j` in chunk `k`. -/
def CollEnv.count (e : CollEnv) (k j : Nat) : Nat :=
  let r := e.shard j
  min e.cf.chunk (r.2 - r.1 - k * e.cf.chunk)

/-- The number of chunks. -/
def CollEnv.chunks (e : CollEnv) : Nat :=
  let l := (e.all.map fun j => (e.shard j).2 - (e.shard j).1).foldl max 0
  (l + e.cf.chunk - 1) / max 1 e.cf.chunk

/-- The units of some shards in chunk `k`, as shard and unit, in order. -/
def CollEnv.units (e : CollEnv) (k : Nat) (js : List Nat) : List (Nat × Nat) :=
  js.flatMap fun j => (List.range (e.count k j)).map fun u => (j, u)

/-- The index in the tensor of unit `u` of shard `j` in chunk `k`. -/
def CollEnv.index (e : CollEnv) (k : Nat) (p : Nat × Nat) : Nat := (e.shard p.1).1 + k * e.cf.chunk + p.2

/-- The shards whose units this member puts in (R541). -/
def CollEnv.inShards (e : CollEnv) : List Nat :=
  if e.bcast then (if e.rank = e.cf.root then [0] else [])
  else if e.cf.op = 3 then [e.rank] else e.all

/-- The shards whose units this member receives. -/
def CollEnv.outShards (e : CollEnv) : List Nat := if e.cf.op = 2 then [e.rank] else e.all

/-! ### The words of a chunk (R546, R550) -/

/-- Words per tile of the input format. -/
def CollEnv.tin (e : CollEnv) : Nat := fmtBytes (e.cf.win % 4) / 256

/-- Words per unit in a buffer and on a link: a RAW word, a tile of I32 contributions, or a copied
tile with its scale word. -/
def CollEnv.wpu (e : CollEnv) : Nat := if e.cf.raw32 then 1 else if e.copies then e.tin + 1 else 16

/-- The key of a word of a buffer. -/
def wordKey (p : Nat × Nat) (w : Nat) : Nat := (p.1 * 4096 + p.2) * 32 + w

/-- The key of a word of the chunk's packed scales. -/
def scaleKey (i : Nat) : Nat := 2 ^ 40 + i

/-- A chunk with those of its words that a unit has read from its buffer or is about to write. -/
structure Chunk extends ChunkSt where
  vals : Tab Payload
  deriving DecidableEq, Repr

/-- A word of a chunk. -/
def Chunk.val (c : Chunk) (k : Nat) : Payload := Tab.look (fun _ => 0) c.vals k

/-- The marks of a word. -/
def ChunkSt.mark (c : ChunkSt) (k : Nat) : BitVec 2 := Tab.look (fun _ => 0) c.marks k

/-- Give a word and its marks. -/
def Chunk.put (c : Chunk) (k : Nat) (v : Payload) (m : BitVec 2) : Chunk :=
  { c with vals := Tab.put (fun _ => 0) c.vals k v, marks := Tab.put (fun _ => 0) c.marks k m }

/-- Give consecutive words with the same marks. -/
def Chunk.puts (c : Chunk) (k : Nat) (m : BitVec 2) : List Payload → Chunk
  | [] => c
  | v :: r => (c.put k v m).puts (k + 1) m r

/-- The marks of a stream word. -/
def SWord.marks (w : SWord) : BitVec 2 :=
  (if w.invalid then 1 else 0) ||| (if w.poison then 2 else 0)

/-- A stream word with marks. -/
def markWord (v : Payload) (m : BitVec 2) (last : Bool) (tw : Nat) : SWord :=
  ⟨v, last, false, m.getLsbD 1, m.getLsbD 0, tw⟩

/-- The OR of marks. -/
def orMarks (l : List (BitVec 2)) : BitVec 2 := l.foldl (· ||| ·) 0

/-! ### Algorithms (R542, R543) -/

/-- A step of a schedule: whether it receives, the peer, the shards of the message, the shards
that a receiver keeps, and whether it adds. -/
structure Act where
  recv : Bool
  peer : Nat
  segs : List Nat
  keep : List Nat
  add : Bool
  deriving DecidableEq, Repr

/-- Whether a number is a power of two. -/
def pow2 (n : Nat) : Bool := n == 2 ^ Nat.log2 n

/-- ceil(log2 n). -/
def log2up (n : Nat) : Nat := if n ≤ 1 then 0 else Nat.log2 (n - 1) + 1

/-- rd: `keep p i` says what a copy keeps of the message of peer `p` in round `i`. -/
def actsRd (n rank : Nat) (all : List Nat) (keep : Nat → Nat → List Nat) (add : Bool) : List Act :=
  (List.range (log2up n)).flatMap fun i =>
    let p := rank ^^^ (2 ^ i)
    [⟨false, p, all, [], false⟩, ⟨true, p, all, if add then all else keep p i, add⟩]

/-- Whether rank `j` is `c` or below it in the tree. -/
def below (c : Nat) : Nat → Nat → Bool
  | 0, _ => false
  | f + 1, j => j == c || (j != 0 && below c f ((j - 1) / 2))

/-- tree over ranks relabelled by `root`; `keep c` says what a copy keeps of child `c`'s message. -/
def actsTree (n rank root : Nat) (all : List Nat) (keep : Nat → List Nat) (add : Bool) : List Act :=
  let r := (rank + n - root % n) % n
  let real (x : Nat) : Nat := (x + root) % n
  let kids := [2 * r + 1, 2 * r + 2].filter (· < n)
  let up := (r - 1) / 2
  kids.map (fun c => ⟨true, real c, all, if add then all else keep c, add⟩)
    ++ (if r = 0 then [] else [⟨false, real up, all, [], false⟩, ⟨true, real up, all, all, false⟩])
    ++ kids.map (fun c => ⟨false, real c, all, [], false⟩)

/-- The rank whose digit on axis `a` is `v` and whose others are those of `ds`. -/
def rankWith (exts ds : List Nat) (a v : Nat) : Nat :=
  (exts.zip (ds.set a v)).foldl (fun n p => n * p.1 + p.2) 0

/-- The shards that agree with digits `ds` on the axes before `a` and have digit `v` on it. -/
def axisSegs (exts ds : List Nat) (all : List Nat) (a v : Nat) : List Nat :=
  all.filter fun j =>
    let d := rankDigits exts j
    (d.take a == ds.take a) && d.getD a 0 == v

/-- ring_rs on axis `a`; `keep v` says what a copy keeps of the message of the member with digit `v`. -/
def actsRs (exts ds : List Nat) (all : List Nat) (keep : Nat → List Nat) (add : Bool) (a : Nat) : List Act :=
  let n := exts.getD a 1
  let c := ds.getD a 0
  (List.range (n - 1)).flatMap fun t =>
    let out := axisSegs exts ds all a ((c + 2 * n - t - 1) % n)
    let inn := axisSegs exts ds all a ((c + 2 * n - t - 2) % n)
    let v := (c + n - 1) % n
    [⟨false, rankWith exts ds a ((c + 1) % n), out, [], false⟩,
      ⟨true, rankWith exts ds a v, inn, if add then inn else keep v, add⟩]

/-- ring_ag on axis `a`. -/
def actsAg (exts ds : List Nat) (all : List Nat) (a : Nat) : List Act :=
  let n := exts.getD a 1
  let c := ds.getD a 0
  (List.range (n - 1)).flatMap fun t =>
    let out := axisSegs exts ds all a ((c + n - t) % n)
    let inn := axisSegs exts ds all a ((c + 2 * n - t - 1) % n)
    [⟨false, rankWith exts ds a ((c + 1) % n), out, [], false⟩,
      ⟨true, rankWith exts ds a ((c + n - 1) % n), inn, inn, false⟩]

/-- What a member keeps of ring_rs of a BCAST on axis `a`, whose one shard has rank 0: the message of the member
with digit `v` holds it where the shard has come to that member from the root, whose digits are `rs`. -/
def bcastKeep (ds rs : List Nat) (a v : Nat) : List Nat :=
  if ds.drop (a + 1) = rs.drop (a + 1) ∧ 1 ≤ rs.getD a 0 ∧ rs.getD a 0 ≤ v then [0] else []

/-- ALG: 0 RD, 1 TREE, 2 RING, 3 BUCKET (R542). -/
def collAlg (exts : List Nat) (size thresh : Nat) : Nat :=
  if size < thresh then (if pow2 (exts.foldl (· * ·) 1) then 0 else 1)
  else if (exts.filter (1 < ·)).length = 1 then 2 else 3

/-- S, in words. -/
def CollCfg.size (c : CollCfg) : Nat := if c.raw32 then c.nt else 16 * c.nt

/-- The schedule of the sum or copy phase. A copy sends the same messages as a sum (R543): under RING and BUCKET
those of ring_rs too, of which it keeps only a BCAST's shard on its way from the root (log entry 41). -/
def CollEnv.acts (e : CollEnv) (alg : Nat) : List Act :=
  let n := e.n
  let ds := rankDigits e.exts e.rank
  let ax := List.range e.exts.length
  if n ≤ 1 then []
  else match alg with
    | 0 => actsRd n e.rank e.all
        (fun p i => if e.bcast then (if p / 2 ^ i = e.cf.root / 2 ^ i then [0] else [])
          else e.all.filter fun j => j / 2 ^ i == p / 2 ^ i) (!e.copies)
    | 1 => actsTree n e.rank (if e.bcast then e.cf.root else 0) e.all
        (fun c => if e.bcast then [] else e.all.filter fun j => below c 32 j) (!e.copies)
    | _ =>
      let rs := rankDigits e.exts e.cf.root
      (ax.flatMap fun a =>
        actsRs e.exts ds e.all (if e.bcast then bcastKeep ds rs a else fun _ => []) (!e.copies) a)
        ++ (if e.cf.op = 2 then [] else ax.reverse.flatMap (actsAg e.exts ds e.all))

/-- The schedule of the scale phase: RD or TREE, by N alone (R545). -/
def CollEnv.scaleActs (e : CollEnv) : List Act :=
  if e.n ≤ 1 then []
  else if pow2 e.n then actsRd e.n e.rank [0] (fun _ _ => []) true
  else actsTree e.n e.rank 0 [0] (fun _ => []) true

/-- The words of the chunk's packed scales. -/
def CollEnv.scaleWords (e : CollEnv) (k : Nat) : Nat := ((e.units k e.all).length + 255) / 256

/-- The keys of the words of some shards' units. -/
def CollEnv.unitKeys (e : CollEnv) (k : Nat) (segs : List Nat) : List Nat :=
  (e.units k segs).flatMap fun p => (List.range e.wpu).map (wordKey p)

/-- The keys of the chunk's packed scales. -/
def CollEnv.scaleKeys (e : CollEnv) (k : Nat) : List Nat := (List.range (e.scaleWords k)).map scaleKey

/-- The keys of a message's words; in the scale phase the message is the packed scales. -/
def CollEnv.keysOf (e : CollEnv) (c : ChunkSt) (segs : List Nat) : List Nat :=
  if c.phase = 1 then e.scaleKeys c.idx else e.unitKeys c.idx segs

/-- The shard of a key. -/
def keyShard (k : Nat) : Nat := k / 32 / 4096

/-! ### The buffers (R550) -/

/-- The words of a chunk buffer. -/
def collBuf (c : CollCfg) (n : Nat) : Nat :=
  let u := if c.op = 4 then c.chunk else n * c.chunk
  if c.raw32 then u else 16 * u + (u + 127) / 128

/-- The first byte of a chunk's buffer. -/
def CollEnv.buf (e : CollEnv) (c : ChunkSt) : Nat :=
  e.base + c.idx % max 1 e.cf.nbuf * collBuf e.cf e.n * 256

/-- The place of a unit in its chunk's order. -/
def CollEnv.place (e : CollEnv) (k : Nat) (p : Nat × Nat) : Nat :=
  sumNat ((e.all.takeWhile (· != p.1)).map (e.count k)) + p.2

/-- Where the 16-bit scale of the unit at place `i` stands: behind the tiles. -/
def CollEnv.scaleAt (e : CollEnv) (c : ChunkSt) (i : Nat) : Nat :=
  e.buf c + 4096 * (if e.bcast then e.cf.chunk else e.n * e.cf.chunk) + 2 * i

/-- The unit of a key. -/
def keyUnit (k : Nat) : Nat × Nat := (keyShard k, k / 32 % 4096)

/-- Where the word of a key stands: of a copied tile's scale word only the scale is kept. -/
def CollEnv.keyAt (e : CollEnv) (c : ChunkSt) (k : Nat) : Nat :=
  let i := e.place c.idx (keyUnit k)
  if e.cf.raw32 then e.buf c + 256 * i else e.buf c + 256 * (16 * i + k % 32)

/-- Whether a key is that of a copied tile's scale word. -/
def CollEnv.isScale (e : CollEnv) (k : Nat) : Bool := !e.cf.raw32 && e.copies && k % 32 == e.tin

/-- What a working scale adds to the agreed one: w_in + G - 31 (R546). -/
def CollEnv.off (e : CollEnv) : Int := fmtWidth (e.cf.win % 4) + log2up e.n - 31

/-- The number of scales in a word of packed scales. -/
def CollEnv.scalesIn (e : CollEnv) (c : ChunkSt) (q : Nat) : Nat := min 256 ((e.units c.idx e.all).length - 256 * q)

/-- Signed 16-bit numbers of bytes. -/
def halves (b : List Byte) : List Int := (groupsOf 2 (b.length / 2) b).map fun h => toS 16 (leNat h)

/-- Read the word of a key from the buffer; uncorrectable data marks it POISON. -/
def State.fetchKey (s : State) (e : CollEnv) (c : Chunk) (k : Nat) : Chunk × State :=
  let rd (a n : Nat) : (List Byte × Bool) × State := s.stgRead .a a n
  let got (v : Payload) (bad : Bool) : Chunk := c.put k v (c.mark k ||| if bad then 2 else 0)
  if 2 ^ 40 ≤ k then
    let r := rd (e.scaleAt c.toChunkSt (256 * (k - 2 ^ 40))) (2 * e.scalesIn c.toChunkSt (k - 2 ^ 40))
    (got (Payload.ofBytes ((halves r.1.1).map fun v => BitVec.ofInt 8 (v - e.off))) r.1.2, r.2)
  else if e.isScale k then
    let r := rd (e.scaleAt c.toChunkSt (e.place c.idx (keyUnit k))) 2
    (got (Payload.ofBytes (r.1.1.take 1)) r.1.2, r.2)
  else
    let r := rd (e.keyAt c.toChunkSt k) 256
    (got (Payload.ofBytes r.1.1) r.1.2, r.2)

/-- Read words of a chunk from its buffer. -/
def State.fetch (s : State) (e : CollEnv) (c : Chunk) : List Nat → Chunk × State
  | [] => (c, s)
  | k :: r =>
    let x := s.fetchKey e c k
    x.2.fetch e x.1 r

/-- Write the word of a key into the buffer. -/
def State.writeKey (s : State) (e : CollEnv) (c : Chunk) (k : Nat) : State :=
  let b := Payload.bytes (c.val k)
  if 2 ^ 40 ≤ k then
    s.stgWrite (e.scaleAt c.toChunkSt (256 * (k - 2 ^ 40)))
      ((b.take (e.scalesIn c.toChunkSt (k - 2 ^ 40))).flatMap fun v => leInt 2 (v.toInt + e.off))
  else if e.isScale k then
    s.stgWrite (e.scaleAt c.toChunkSt (e.place c.idx (keyUnit k))) (leInt 2 (toS 8 (c.val k).toNat))
  else s.stgWrite (e.keyAt c.toChunkSt k) b

/-! ### add() (R546, R549, R554) -/

/-- Lanes of two words under a lane operation, with the saturation events. -/
def lanesWith (f : Int → Int → Int × Bool) (a b : Payload) : Payload × Nat :=
  let r := (List.range 64).map fun i => f (lane a i).toInt (lane b i).toInt
  (ofLanes (r.map fun p => BitVec.ofInt 32 p.1), r.countP (·.2))

/-- The element operation of a sum. -/
def CollEnv.addOp (e : CollEnv) (a b : Int) : Int × Bool :=
  match e.cf.raw32, e.cf.red with
  | true, 1 => (max a b, false)
  | true, 2 => (min a b, false)
  | _, _ => ovfw (a + b) 32 false

/-- The bytewise signed maximum of two words of scales. -/
def maxScales (a b : Payload) : Payload :=
  Payload.ofBytes (List.zipWith (fun (x y : Byte) => if x.toInt < y.toInt then y else x)
    (Payload.bytes a) (Payload.bytes b))

/-- add() of a word of the chunk and a received one. -/
def CollEnv.addWord (e : CollEnv) (c : Chunk) (k : Nat) (w : SWord) : Chunk × Nat :=
  let m := c.mark k ||| w.marks
  if c.phase = 1 then (c.put k (maxScales (c.val k) w.data) m, 0)
  else
    let r := lanesWith e.addOp (c.val k) w.data
    (c.put k r.1 m, r.2)

/-! ### Tiles (R545-R549) -/

/-- The elements of a tile in a buffer. -/
def Chunk.tile (c : Chunk) (p : Nat × Nat) : List Int :=
  (List.range 16).flatMap fun w => (lanes (c.val (wordKey p w))).map (·.toInt)

/-- The words of a tile of integers, taken modulo 2^32. -/
def tileLanes (t : List Int) : List Payload :=
  (groupsOf 64 16 t).map fun g => ofLanes (g.map (BitVec.ofInt 32))

/-- The marks of the `w` words of a unit together. -/
def ChunkSt.unitMarks (c : ChunkSt) (p : Nat × Nat) (w : Nat) : BitVec 2 :=
  orMarks ((List.range w).map fun i => c.mark (wordKey p i))

/-- The input scale of a tile. -/
def ChunkSt.scale (c : ChunkSt) (p : Nat × Nat) : Int := Tab.look (fun _ => 0) c.scales (wordKey p 0)

/-- The scale that a member contributes: -128 for a tile of zeros. -/
def Chunk.contrib (c : Chunk) (p : Nat × Nat) : Int :=
  if (c.tile p).all (· == 0) then -128 else c.scale p

/-- The packed scales of a chunk, with the marks of the scale words that they came from (R554). -/
def CollEnv.packScales (e : CollEnv) (c : Chunk) : Chunk :=
  let l := (e.units c.idx e.all).map fun p => BitVec.ofInt 8 (c.contrib p)
  ((groupsOf 256 l.length l).map Payload.ofBytes).foldl
    (fun (a : Chunk × Nat) v => (a.1.put (scaleKey a.2) v c.smark, a.2 + 1)) (c, 0) |>.1

/-- The agreed scale of the unit at place `i` of the chunk (R545). -/
def Chunk.agreed (c : Chunk) (i : Nat) : Int :=
  toS 8 ((c.val (scaleKey (i / 256))).toNat / 2 ^ (8 * (i % 256)))

/-- The working scale of the unit at place `i` of the chunk (R546, R549). -/
def CollEnv.working (e : CollEnv) (c : Chunk) (i : Nat) : Int :=
  match e.pre with
  | some p => p
  | none => c.agreed i + e.off

/-- Align the elements of a unit to its working scale, and the events that it counts (R546, R549). A marked
scale word of a preset collective, which has no scale phase, marks every unit here (R554). -/
def CollEnv.alignUnit (e : CollEnv) (a : Chunk × Nat) (x : (Nat × Nat) × Nat) : Chunk × Nat :=
  let c := a.1
  let t := c.tile x.1
  let sw := e.working c x.2
  let zero := t.all (· == 0)
  let v := t.map fun m => satw (align m (c.scale x.1) sw) 32
  let off := !zero && e.pre.isSome && c.scale x.1 != sw
  let m := c.unitMarks x.1 16 ||| if e.pre.isSome then c.smark else 0
  (c.puts (wordKey x.1 0) m (tileLanes v), a.2 + if off then 1 else 0)

/-- Align every unit of the chunk. -/
def CollEnv.alignAll (e : CollEnv) (c : Chunk) : Chunk × Nat :=
  let us := e.units c.idx e.all
  (us.zip (List.range us.length)).foldl e.alignUnit (c, 0)

/-- The marks of every scale word of the chunk (R554). -/
def CollEnv.scaleMarks (e : CollEnv) (c : ChunkSt) : BitVec 2 :=
  orMarks ((List.range (e.scaleWords c.idx)).map fun i => c.mark (scaleKey i))

/-- What SR of the final rounding takes its words from (R547). -/
def State.collKey (s : State) (e : CollEnv) : Option SrKey :=
  if e.cf.fin.getLsbD 3 then some ⟨s.seedOf .a, e.cf.stream, s.stepA.setWidth 32⟩ else none

/-- The words of a tile token, all with the same marks. -/
def tileWords (b : List Byte) (scale : Byte) (m : BitVec 2) : List SWord :=
  (tileToken (b.length / 256) [(b, scale, false)]).map fun w => markWord w.data m w.last w.tw

/-- The result token of a sum's tile at place `i`, with its saturation events (R547); R572 names no counter for
the scale event of an AUTO clamp of this quant(), and the model counts it nowhere (log entry 77). -/
def State.sumTile (s : State) (e : CollEnv) (c : Chunk) (p : Nat × Nat) (i : Nat) : List SWord × Nat :=
  let w := fmtWidth (e.cf.fin.toNat % 4)
  let q := quant (c.tile p) (e.working c i) w (if e.cf.fin.getLsbD 2 then none else some e.cf.sfix) e.cf.h
    (srWord (s.collKey e) ((e.cf.tfirst + e.index c.idx p) % 2 ^ 22)) (e.cf.fin.getLsbD 4)
  (tileWords (packMant w q.y) (BitVec.ofInt 8 q.scale) (c.unitMarks p 16 ||| e.scaleMarks c.toChunkSt), q.sats)

/-- The result of the only member of a group, its own input (R542): the tile as it came, or where FIN names
another width than WIN, its elements rounded once to FIN (log entry 81). -/
def State.ownTile (s : State) (e : CollEnv) (c : Chunk) (p : Nat × Nat) : List SWord × Nat :=
  let w := fmtWidth (e.cf.fin.toNat % 4)
  let m := c.unitMarks p 16 ||| c.smark
  if e.cf.fin.toNat % 4 = e.cf.win % 4 then
    (tileWords (packMant w (c.tile p)) (BitVec.ofInt 8 (c.scale p)) m, 0)
  else
    let q := quant (c.tile p) (c.scale p) w (if e.cf.fin.getLsbD 2 then none else some e.cf.sfix) e.cf.h
      (srWord (s.collKey e) ((e.cf.tfirst + e.index c.idx p) % 2 ^ 22)) (e.cf.fin.getLsbD 4)
    (tileWords (packMant w q.y) (BitVec.ofInt 8 q.scale) m, q.sats)

/-- The result token of a copied tile. -/
def CollEnv.copyTile (e : CollEnv) (c : Chunk) (p : Nat × Nat) : List SWord :=
  let m := c.unitMarks p (e.tin + 1) ||| c.smark
  (List.range (e.tin + 1)).map fun w => markWord (c.val (wordKey p w)) m (w == e.tin) e.tin

/-- The result of a RAW32 chunk: one token, each word with its own marks. -/
def CollEnv.rawWords (e : CollEnv) (c : Chunk) : List SWord :=
  let us := e.units c.idx e.outShards
  (us.zip (List.range us.length)).map fun x =>
    markWord (c.val (wordKey x.1 0)) (c.mark (wordKey x.1 0)) (x.2 + 1 == us.length) 0

/-- The result of a chunk, with its saturation events. -/
def State.result (s : State) (e : CollEnv) (c : Chunk) : List SWord × Nat :=
  if e.cf.raw32 then (e.rawWords c, 0)
  else
    let us := e.units c.idx e.all
    let mine := (us.zip (List.range us.length)).filter fun x => e.outShards.contains x.1.1
    if e.copies then (mine.flatMap fun x => e.copyTile c x.1, 0)
    else
      let r := mine.map fun x => if e.n ≤ 1 then s.ownTile e c x.1 else s.sumTile e c x.1 x.2
      (r.flatMap (·.1), sumNat (r.map (·.2)))

/-- The same number of words, all INVALID (R553). -/
def CollEnv.invalidResult (e : CollEnv) (k : Nat) : List SWord :=
  let us := e.units k e.outShards
  if e.cf.raw32 then
    (List.range us.length).map fun i => markWord 0 1 (i + 1 == us.length) 0
  else
    let t := if e.copies then e.tin else fmtBytes (e.cf.fin.toNat % 4) / 256
    us.flatMap fun _ => (List.range (t + 1)).map fun i => markWord 0 1 (i == t) t

/-! ### The unit (R551-R554) -/

/-- Put words out by a route: words of a chunk, or of none. -/
def State.putOut (s : State) (r : Nat) (k : Option Nat) (ws : List SWord) : State :=
  s.setRoute .a r { s.route .a r with src := (s.route .a r).src ++ ws.map fun w => (k, w) }

/-- Count saturation events of add() and alignment; those of a preset collective reach the
consensus word (R549, R572). -/
def State.collSat (s : State) (e : CollEnv) (n : Nat) : State :=
  let s1 := s.bump rHrdSattot n
  if e.pre.isSome then s1.pexSat n else s1

/-- The link to a peer. -/
def CollEnv.link (e : CollEnv) (peer : Nat) : Option LinkCfg := e.links.find? fun l => l.peer == peer

/-- The route of a landing channel. -/
def State.chanRoute (s : State) (n : Nat) : Option Nat :=
  (s.fabApplied.bind fun f => f.chans[n]?).map (·.route)

/-- The route by which a peer's words arrive. -/
def State.fromPeer (s : State) (e : CollEnv) (peer : Nat) : Option Nat := (e.link peer).bind fun l => s.chanRoute l.chan

/-- The routes by which a collective puts words out. -/
def CollEnv.outs (e : CollEnv) : List Nat := e.cf.outroute :: e.links.map (·.route)

/-- Replace the first chunk with the same index. -/
def CollSt.setChunk (x : CollSt) (c : ChunkSt) : CollSt :=
  { x with chunks := x.chunks.map fun y => if y.idx = c.idx then c else y }

/-- The chunk that the algorithms work on: the first whose result is not put out. -/
def CollSt.front (x : CollSt) : Option ChunkSt := x.chunks.find? fun c => decide (c.phase < 3)

/-- The chunk that input fills: the first that still needs some. -/
def CollSt.filling (x : CollSt) (e : CollEnv) : Option ChunkSt :=
  x.chunks.find? fun c => decide (c.took < (e.units c.idx e.inShards).length)

/-- The acts of a chunk's phase. -/
def State.phaseActs (s : State) (e : CollEnv) (c : ChunkSt) : List Act :=
  if c.phase = 1 then e.scaleActs else e.acts (s.getF (fHrdCollAlg e.k))

/-- Whether the collective agrees scales: a scaled sum without a preset (R545, R549). -/
def CollEnv.agrees (e : CollEnv) : Bool := !e.cf.raw32 && !e.copies && e.pre.isNone

/-- Store the record of a chunk. -/
def State.putChunk (s : State) (e : CollEnv) (c : ChunkSt) : State := s.setColl e.k ((s.collc e.k).setChunk c)

/-- Store a chunk: some of its words into its buffer, and its record. -/
def State.keepChunk (s : State) (e : CollEnv) (c : Chunk) (keys : List Nat) : State :=
  (keys.foldl (fun t k => t.writeKey e c k) s).putChunk e c.toChunkSt

/-- The chunk of a record, of which no word has been read. -/
def ChunkSt.open (c : ChunkSt) : Chunk := ⟨c, []⟩

/-- The scales of a preset collective's tiles in its buffer: PSCALE (R549, R550). -/
def State.presetScales (s : State) (e : CollEnv) (c : ChunkSt) : State :=
  match e.pre with
  | some p => s.stgWrite (e.scaleAt c 0) ((e.units c.idx e.all).flatMap fun _ => leInt 2 p)
  | none => s

/-- A chunk enters the sum or copy phase, aligned if it is a scaled sum of more than one member. -/
def State.toSum (s : State) (e : CollEnv) (c : ChunkSt) : State :=
  let go (x : ChunkSt) : ChunkSt := { x with phase := 2, step := 0, rcvd := 0 }
  if e.cf.raw32 ∨ e.copies ∨ e.n ≤ 1 then s.putChunk e (go c)
  else
    let ks := e.unitKeys c.idx e.all
    let x := s.fetch e c.open (ks ++ if e.agrees then e.scaleKeys c.idx else [])
    let a := e.alignAll x.1
    ((x.2.collSat e a.2).presetScales e c).keepChunk e { a.1 with toChunkSt := go a.1.toChunkSt } ks

/-- A chunk's input is complete. -/
def State.startChunk (s : State) (e : CollEnv) (c : ChunkSt) : State :=
  if e.agrees ∧ 1 < e.n then
    let x := s.fetch e c.open (e.unitKeys c.idx e.all)
    let y := e.packScales x.1
    x.2.keepChunk e { y with phase := 1, step := 0, rcvd := 0 } (e.scaleKeys c.idx)
  else s.toSum e c

/-- A phase of a chunk has run its schedule. -/
def State.phaseDone (s : State) (e : CollEnv) (c : ChunkSt) : State :=
  if c.phase = 1 then s.toSum e c
  else
    let x := s.fetch e c.open (e.unitKeys c.idx e.outShards ++ if e.agrees ∧ 1 < e.n then e.scaleKeys c.idx else [])
    let r := x.2.result e x.1
    let s1 := (x.2.putOut e.cf.outroute (some c.idx) r.1).putChunk e { x.1.toChunkSt with phase := 3 }
    if e.pre.isSome then s1.pexSat r.2 else s1

/-- Send a message of a chunk; its last word is marked LAST. -/
def State.sendAct (s : State) (e : CollEnv) (c : ChunkSt) (a : Act) : State :=
  let ks := e.keysOf c a.segs
  let x := s.fetch e c.open ks
  let ws := (ks.zip (List.range ks.length)).map fun k =>
    markWord (x.1.val k.1) (x.1.mark k.1) (k.2 + 1 == ks.length) 0
  match e.link a.peer with
  | some l => x.2.putOut l.route (some c.idx) ws
  | none => s

/-- What the front chunk can do without another word: begin, send, or finish a phase. -/
def State.frontStep (s : State) (e : CollEnv) (c : ChunkSt) : Option State :=
  if c.phase = 0 then
    if c.took = (e.units c.idx e.inShards).length then some (s.startChunk e c) else none
  else match (s.phaseActs e c)[c.step]? with
    | none => some (s.phaseDone e c)
    | some a =>
      if ¬ a.recv then some ((s.sendAct e c a).putChunk e { c with step := c.step + 1 })
      else if (e.keysOf c a.segs).length ≤ c.rcvd then
        some (s.putChunk e { c with step := c.step + 1, rcvd := 0 })
      else none

/-- Whether a route still holds words of a chunk. -/
def State.holdsChunk (s : State) (r k : Nat) : Bool := (s.route .a r).src.any fun w => w.1 == some k

/-- Whether a chunk's result has entered OUTROUTE whole. -/
def State.entered (s : State) (e : CollEnv) (c : ChunkSt) : Bool :=
  decide (3 ≤ c.phase) && !s.holdsChunk e.cf.outroute c.idx

/-- Count the chunks whose results have entered OUTROUTE, and free the buffers of those whose words have all
been sent (R552, R572). -/
def State.freeChunks (s : State) (e : CollEnv) : State :=
  let x := s.collc e.k
  let done := x.chunks.filter fun c => c.phase == 3 && s.entered e c
  let cs := x.chunks.map fun c => if s.entered e c then { c with phase := 4 } else c
  let busy (c : ChunkSt) : Bool := c.phase != 4 || e.links.any fun l => s.holdsChunk l.route c.idx
  (s.setColl e.k { x with chunks := cs.filter busy }).bumpF (fHrdCollChunks e.k) done.length

/-- Open the next chunk where its buffer is free and the input of the earlier ones is complete. -/
def State.openChunk (s : State) (e : CollEnv) : Option State :=
  let x := s.collc e.k
  let free := x.chunks.all fun c => c.idx % max 1 e.cf.nbuf != x.nextChunk % max 1 e.cf.nbuf
  if x.nextChunk < e.chunks ∧ free = true ∧ x.filling e = none then
    some (s.setColl e.k { x with
      chunks := x.chunks ++ [⟨x.nextChunk, [], [], 0, 0, 0, 0, 0⟩], nextChunk := x.nextChunk + 1 })
  else none

/-- Do what needs no further word, at most `n` times. -/
def State.advance (s : State) (e : CollEnv) : Nat → State
  | 0 => s
  | n + 1 =>
    let s0 := s.freeChunks e
    match ((s0.collc e.k).front.bind fun c => s0.frontStep e c).orElse fun _ => s0.openChunk e with
    | some t => t.advance e n
    | none => s0

/-- Enough for every chunk of the buffers. -/
def State.advanceFuel (s : State) (e : CollEnv) : Nat :=
  (2 * ((e.acts (s.getF (fHrdCollAlg e.k))).length + e.scaleActs.length) + 8) * (e.cf.nbuf + 1)

/-- Take a received word, if one that the front chunk waits for has come. -/
def State.recvWord (s : State) (e : CollEnv) : Option State :=
  (s.collc e.k).front.bind fun c =>
    if c.phase = 0 then none
    else (s.phaseActs e c)[c.step]?.bind fun a =>
      if ¬ a.recv then none
      else (s.fromPeer e a.peer).bind fun r =>
        match (s.route .a r).dst, (e.keysOf c a.segs)[c.rcvd]? with
        | w :: t, some k =>
          let s1 := (s.setRoute .a r { s.route .a r with dst := t }).creditBack .a r
          let next (x : ChunkSt) : ChunkSt := { x with rcvd := c.rcvd + 1 }
          if a.add then
            let x := s1.fetch e c.open [k]
            let m := e.addWord x.1 k w
            some ((x.2.collSat e m.2).keepChunk e { m.1 with toChunkSt := next m.1.toChunkSt } [k])
          else if c.phase = 1 ∨ a.keep.contains (keyShard k) = true then
            let y := c.open.put k w.data w.marks
            let z : ChunkSt := if e.isScale k then { y.toChunkSt with smark := c.smark ||| w.marks } else y.toChunkSt
            some (s1.keepChunk e { y with toChunkSt := next z } [k])
          else some (s1.putChunk e (next c))
        | _, _ => none

/-- Store a unit of input in its chunk, with the marks of its scale word (R554). -/
def CollEnv.inUnit (e : CollEnv) (c : Chunk) (p : Nat × Nat) (ws : List SWord) : Chunk :=
  let m := orMarks (ws.map SWord.marks)
  if e.cf.raw32 then c.puts (wordKey p 0) m (ws.map (·.data))
  else
    let sm := orMarks ((ws.drop e.tin).map SWord.marks)
    let c1 : Chunk := { c with smark := c.smark ||| sm }
    if e.copies then
      (ws.zip (List.range ws.length)).foldl (fun c x => c.put (wordKey p x.2) x.1.data x.1.marks) c1
    else
      let b := (ws.take e.tin).flatMap fun w => Payload.bytes w.data
      let c2 := c1.puts (wordKey p 0) m (tileLanes (unpackMant (fmtWidth (e.cf.win % 4)) b))
      let sc : Int := toS 8 ((ws.drop e.tin).headD (SWord.bad true)).data.toNat
      { c2 with scales := Tab.put (fun _ => 0) c2.scales (wordKey p 0) sc }

/-- Take an input word, if a buffer has room for it and one has come. -/
def State.inputWord (s : State) (e : CollEnv) : Option State :=
  let x := s.collc e.k
  (x.filling e).bind fun c =>
    match (s.route .a e.cf.inroute).dst with
    | [] => none
    | w :: t =>
      let s1 := (s.setRoute .a e.cf.inroute { s.route .a e.cf.inroute with dst := t }).creditBack .a e.cf.inroute
      let ws := x.inWords ++ [w]
      if ws.length < (if e.cf.raw32 then 1 else e.tin + 1) then some (s1.setColl e.k { x with inWords := ws })
      else
        let p := (e.units c.idx e.inShards).getD c.took (0, 0)
        let y := e.inUnit c.open p ws
        some ((s1.setColl e.k { x with inWords := [] }).keepChunk e { y with took := c.took + 1 }
          ((List.range e.wpu).map (wordKey p)))

/-- One word operation of a collective, where it can do one: received words come before input words. -/
def State.wordOp (s : State) (e : CollEnv) : Bool × State :=
  let s0 := s.advance e (s.advanceFuel e)
  match (s0.recvWord e).orElse fun _ => s0.inputWord e with
  | some t => (true, t.advance e (t.advanceFuel e))
  | none => (false, s0)

/-- One word operation of a unit: of the first of its collectives that can do one (R551). -/
def State.unitOp (s : State) : List CollEnv → State
  | [] => s
  | e :: r =>
    let x := s.wordOp e
    if x.1 then x.2 else x.2.unitOp r

/-- The collectives of a cluster's unit with an instance in progress, in ascending number. -/
def State.unitColls (s : State) (u : Nat) : List CollEnv :=
  (List.range (((s.imgA.bind (·.herd)).map (·.colls.length)).getD 0)).filterMap fun k =>
    if s.bitF (fHrdCollActive k) then
      (s.collEnv k).filter fun e => ((s.stagingCfg .a e.cf.stg).map (·.cluster)) == some u
    else none

/-- A cy of a cluster's collective unit: up to two word operations. -/
def State.collStep (s : State) (u : Nat) : State :=
  let es := s.unitColls u
  (s.unitOp es).unitOp es

/-- COLLECTIVE_WORD_OP (R551): a cy of the collective unit of a cluster. -/
def execCollectiveWordOp (u : Fin 32) (s : State) : Host.Outcome State Fault Refusal := .next (s.collStep u.val)

/-- A word of a collective's has left by a route: its chunks are counted and freed (R552, R572). -/
def State.collSent (s : State) (r : Nat) : State :=
  (((s.imgA.bind (·.herd)).map fun h => List.range h.colls.length).getD []).foldl (fun t k =>
    match t.collEnv k with
    | some e => if t.bitF (fHrdCollActive k) ∧ e.outs.contains r then t.freeChunks e else t
    | none => t) s

/-! ### Instances (R553) -/

/-- Words that wait for a collective without an instance are discarded. -/
def State.staleWords (s : State) : List Nat → State
  | [] => s
  | r :: t =>
    let n := (s.route .a r).dst.length
    (((s.setRoute .a r { s.route .a r with dst := [] }).creditsBack .a (List.replicate n r)).bump rHrdStale
      n).staleWords t

/-- The number of instances in progress. -/
def State.countActive (s : State) (d : Int) : State :=
  s.setF fHrdStatusActive ((s.getF fHrdStatusActive : Int) + d).toNat

/-- The chunks of an instance whose result has not been put out. -/
def CollSt.missing (x : CollSt) (e : CollEnv) : List Nat :=
  (x.chunks.filter fun c => decide (c.phase < 3)).map (·.idx)
    ++ (List.range e.chunks).filter fun k => decide (x.nextChunk ≤ k)

/-- An instance ends: results that have not entered OUTROUTE are completed with INVALID words. -/
def State.endInst (s : State) (e : CollEnv) : State :=
  let s0 := s.freeChunks e
  let x := s0.collc e.k
  let o := s0.route .a e.cf.outroute
  let late := !o.src.isEmpty || !(x.missing e).isEmpty
  let ended := o.src.map fun p => ((none : Option Nat), ({ p.2 with invalid := true } : SWord))
  let s1 := (s0.setRoute .a e.cf.outroute { o with src := ended }).putOut e.cf.outroute none
    ((x.missing e).flatMap e.invalidResult)
  let done := s0.getF (fHrdCollChunks e.k)
  let s2 := (s1.setColl e.k CollSt.reset).staleWords
    (e.cf.inroute :: e.links.filterMap fun l => s.chanRoute l.chan)
  let s3 := ((s2.setB (fHrdCollActive e.k) false).setB (fHrdCollLastinc e.k) late).countActive (-1)
  if late then
    ((s3.bump rHrdIncomp 1).log ⟨20, 2, unitDevice, false, true, e.k, done⟩)
  else s3

/-- A firing of CLOSE, or of START during an instance, ends it. -/
def State.closeColl (s : State) (k : Nat) : State :=
  match s.collEnv k with
  | some e => if s.bitF (fHrdCollActive k) then s.endInst e else s
  | none => s

/-- A firing of START begins an instance. -/
def State.startColl (s : State) (k : Nat) : State :=
  match s.collEnv k with
  | some _ =>
    let s1 := s.closeColl k
    (((s1.setColl k CollSt.reset).setB (fHrdCollActive k) true).setF (fHrdCollChunks k) 0).countActive 1
  | none => s

/-- What a comparator's firing does to the collectives: CLOSE before START. -/
def State.collFire (s : State) (n : Nat) : State :=
  let cs := ((s.imgA.bind (·.herd)).map (·.colls)).getD []
  let ks := List.range cs.length
  let named (f : CollCfg → Nat) (k : Nat) : Bool := (cs[k]?.map f) == some n
  let s1 := (ks.filter (named (·.close))).foldl (fun t k => t.closeColl k) s
  (ks.filter (named (·.start))).foldl (fun t k => t.startColl k) s1

/-! ### The registers of the HRD block (R542, R571, R572) -/

/-- A load shows a herd's rank and size. -/
def State.showHerd (s : State) (h : Nat) : State :=
  match s.herdCfg h with
  | none => (s.wr (rHrdHrank h) 0).wr (rHrdHsize h) 0
  | some c =>
    ((s.wr (rHrdHrank h) (BitVec.ofNat 32 (match s.herdRank c with
      | some r => r + 65536
      | none => 0))).wr (rHrdHsize h) (BitVec.ofNat 32 c.size))

/-- A load shows a collective's algorithm and whether a PRESET entry governs it. -/
def State.showColl (s : State) (k : Nat) : State :=
  match (s.collCfg k).bind fun cf => (s.herdCfg cf.herd).map fun h => (cf, h) with
  | none => s.wr (rHrdColl k) 0
  | some (cf, h) =>
    s.wr (rHrdColl k) (BitVec.ofNat 32 (collAlg (h.axes.map h.extOf) cf.size h.thresh
      + if (s.presetOf k).isSome then 16 else 0))

/-- The HRD block after a load: no instance in progress. -/
def State.herdApply (s : State) : State :=
  let s1 := ({ s with colls := [] } : State).setF fHrdStatusActive 0
  (List.range 1024).foldl (fun t k => t.showColl k) ((List.range 64).foldl (fun t h => t.showHerd h) s1)

/-- HRD_CTL: CLRCNT clears the lifetime counters. -/
def State.hrdClr (s : State) : State := ((s.wr rHrdSattot 0).wr rHrdIncomp 0).wr rHrdStale 0

/-- HRD_CLRCNT (R572). -/
def execHrdClrcnt (r : Requester) (_v : BitVec 32) (s : State) : Host.Outcome State Fault Refusal :=
  .next (s.bar0 r State.hrdClr)

end Sys2Proof.Machine
end

