-- ==== Sys2Proof/Machine/Mule.lean ====
section
/-! DEFINITION. Mule: exchanges, dispatch and capacity, the way of a token, delivery at the
owner, return, and combine at the source (R283, R558-R572, R736). -/

namespace Sys2Proof.Machine

open Sys2Proof

/-! ### A table on this member (R558, R559) -/

/-- A table of job slot A's image on this device: its herd, this device's rank in it, or the number of its
members on a device that is none, its experts, and where its staging region begins. -/
structure MuleEnv where
  t : Nat
  cf : MuleCfg
  herd : HerdCfg
  me : Nat
  experts : List (Nat × Nat)
  base : Nat
  deriving DecidableEq, Repr

/-- A Mule table on this device, a member or not (R559, R565). -/
def State.muleTab (s : State) (t : Nat) : Option MuleEnv :=
  (s.imgA.bind (·.mule)).bind fun m => (m.tabs[t]?).bind fun cf => (s.herdCfg cf.herd).map fun h =>
    ⟨t, cf, h, (s.herdRank h).getD h.size, (m.experts.drop cf.expbase).take cf.nexp,
      ((s.stagingCfg .a cf.stg).map StagingCfg.addr).getD 0⟩

/-- Whether this device is a member. -/
def MuleEnv.member (e : MuleEnv) : Bool := decide (e.me < e.herd.size)

/-- A Mule table of which this device is a member. -/
def State.muleEnv (s : State) (t : Nat) : Option MuleEnv := (s.muleTab t).filter (·.member)

/-- The owner's rank of an expert. -/
def MuleEnv.ownerOf (e : MuleEnv) (x : Nat) : Nat := (e.experts.getD x (0, 0)).1

/-- NSRC. -/
def MuleEnv.nsrc (e : MuleEnv) : Nat := e.herd.size

/-- The capacity slots of an expert in an exchange. -/
def MuleEnv.slots (e : MuleEnv) : Nat := e.nsrc * e.cf.q

/-- The elements per payload word. -/
def MuleEnv.perWord (e : MuleEnv) : Nat := if e.cf.i16 then 128 else 256

/-- The I32 words of a residual or combined token. -/
def MuleEnv.resWords (e : MuleEnv) : Nat := e.perWord * e.cf.pw / 64

/-! ### The parts of the staging region, in words from its start (R559) -/

/-- The words of the owner part for one expert in one exchange. -/
def MuleEnv.ownerX (e : MuleEnv) : Nat := e.slots * (e.cf.pw + 1)

/-- The words of the owner part. -/
def MuleEnv.ownerPart (e : MuleEnv) : Nat := e.experts.countP (fun x => x.1 == e.me) * e.cf.nex * e.ownerX

/-- The place of a capacity slot of an expert of this device (log entry 81). -/
def MuleEnv.ownerAt (e : MuleEnv) (x expert slot : Nat) : Nat :=
  let loc := (e.experts.take expert).countP fun y => y.1 == e.me
  (loc * e.cf.nex + x % 64) * e.ownerX + slot * (e.cf.pw + 1)

/-- The place of a descriptor in the source part; selection k's output begins 1 + k × PW words behind it. -/
def MuleEnv.descAt (e : MuleEnv) (x token : Nat) : Nat :=
  e.ownerPart + (x % 64 * e.cf.tmax + token) * (1 + e.cf.k * e.cf.pw)

/-- The first word of the transit part. -/
def MuleEnv.transitAt (e : MuleEnv) : Nat := e.ownerPart + e.cf.nex * e.cf.tmax * (1 + e.cf.k * e.cf.pw)

/-- Write words at a place of a region. -/
def State.mulePut (s : State) (e : MuleEnv) (at_ : Nat) (ps : List Payload) : State :=
  s.stgWrite (e.base + 256 * at_) (ps.flatMap Payload.bytes)

/-- Read `n` words at a place of a region, each with whether it is uncorrectable. -/
def State.muleGet (s : State) (e : MuleEnv) (at_ : Nat) : Nat → List (Payload × Bool) × State
  | 0 => ([], s)
  | n + 1 =>
    let r := s.stgRead .a (e.base + 256 * at_) 256
    let t := r.2.muleGet e (at_ + 1) n
    ((Payload.ofBytes r.1.1, r.1.2) :: t.1, t.2)

/-- The physical chip number of a member of the herd. -/
def State.memberChip (s : State) (h : HerdCfg) (r : Nat) : Nat :=
  let l := h.member ((s.herdMe h).getD 0) r
  (s.resolveChip l).getD l

/-- Bytes of a payload word. -/
def payFld (p : Payload) (o n : Nat) : Nat := p.toNat / 2 ^ (8 * o) % 2 ^ (8 * n)

/-! ### Exchanges (R560) -/

/-- The number of exchange `x` of the current step. -/
def MuleSt.exch (m : MuleSt) (x : Nat) : Nat := 64 * m.gen + x

/-- The newest exchange with index `x` that has opened. -/
def MuleSt.newest (m : MuleSt) (x : Nat) : Option Nat :=
  if x < m.nextX then some (m.exch x) else if 0 < m.gen then some (m.exch x - 64) else none

/-- Whether an exchange has opened, or belongs to an earlier step. -/
def MuleSt.opened (m : MuleSt) (x : Nat) : Bool := decide (x < m.exch m.nextX)

/-- Show a table's exchanges in MUL_EXCH. -/
def State.putMule (s : State) (t : Nat) (m : MuleSt) : State :=
  (((s.setMule t m).setF (fMulExchNextx t) m.nextX).setF (fMulExchDopen t) m.dOpen.length).setF
    (fMulExchRopen t) m.rOpen.length

/-- An OPEN firing. -/
def State.muleOpen (s : State) (e : MuleEnv) : State :=
  let m := s.muleT e.t
  if e.cf.nex ≤ m.nextX then s.log ⟨20, 1, unitDevice, false, false, e.t, m.nextX⟩
  else
    let x := m.exch m.nextX
    s.putMule e.t { m with nextX := m.nextX + 1, dOpen := m.dOpen ++ [x], rOpen := m.rOpen ++ [x] }

/-- A DCLOSE firing. -/
def State.muleDclose (s : State) (e : MuleEnv) : State :=
  let m := s.muleT e.t
  match m.dOpen with
  | [] => s
  | x :: r => s.putMule e.t { m with
      dOpen := r, counts := Tab.drop m.counts fun k => k / 4096 == x, prevTok := Tab.del m.prevTok x
      owner := m.owner.filter fun k => k.1 / 65536 / 4096 != x || k.2 != 2 }

/-- Selections are lost (R569). -/
def State.muleLose (s : State) (t n : Nat) : State :=
  if n = 0 then s else (((s.bump (rMulLost t) n).bumpF (fMulStepLoststep t) n).setIncomp)

/-- The selections of a descriptor that still wait are lost. -/
def MuleDesc.lose (d : MuleDesc) : MuleDesc × Nat :=
  ({ d with sels := d.sels.map fun x => if x.1 = 0 then (3, x.2) else x }, d.sels.countP fun x => x.1 == 0)

/-- A RCLOSE firing. -/
def State.muleRclose (s : State) (e : MuleEnv) : State :=
  let m := s.muleT e.t
  match m.rOpen with
  | [] => s
  | x :: r =>
    let n := sumNat ((m.descs.filter fun d => d.exch == x).map fun d => d.lose.2)
    (s.putMule e.t { m with
      rOpen := r, descs := m.descs.map fun d => if d.exch = x then d.lose.1 else d }).muleLose e.t n

/-- What a comparator's firing does to one table: the closings before the opening. -/
def State.muleTabFire (s : State) (n t : Nat) : State :=
  match s.muleEnv t with
  | none => s
  | some e =>
    let s1 := if e.cf.rclose = n then s.muleRclose e else s
    let s2 := if e.cf.dclose = n then s1.muleDclose e else s1
    if e.cf.openCal = n then s2.muleOpen e else s2

/-- What a comparator's firing does to Mule. -/
def State.muleFire (s : State) (n : Nat) : State := (List.range 16).foldl (fun u t => u.muleTabFire n t) s

/-- Job slot A's step-start event: the index resets, the step's counts clear (R560, R572). A step
in which no exchange opened has no capacity of its own to deliver. -/
def State.muleStepStart (s : State) : State :=
  let n := (((s.imgA.bind (·.mule)).map (·.tabs)).getD []).length
  (List.range n).foldl (fun u t =>
    let m := u.muleT t
    let g := if m.nextX = 0 then m.gen else m.gen + 1
    (u.putMule t { m with gen := g, nextX := 0 }).wr (rMulStep t) 0) s

/-! ### Tokens (R564-R566) -/

/-- Take a whole token from the words that a route has brought. -/
def takeToken (l : List SWord) : Option (List SWord × List SWord) :=
  (l.findIdx? (·.last)).map fun i => (l.take (i + 1), l.drop (i + 1))

/-- The token that waits on a route, taken from it. -/
def State.popToken (s : State) (r : Nat) : Option (List SWord × State) :=
  (takeToken (s.route .a r).dst).map fun p =>
    (p.1, (s.setRoute .a r { s.route .a r with dst := p.2 }).creditsBack .a (List.replicate p.1.length r))

/-- Whether a token has the length of its table and no mark. -/
def MuleEnv.clean (e : MuleEnv) (ws : List SWord) : Bool :=
  ws.length == e.cf.pw + 1 && ws.all fun w => !w.poison && !w.invalid

/-- A Mule header (R564). -/
def muleHdr (dst src expert k : Nat) (pscale : Int) (token exch table slot rank : Nat) : Payload :=
  Payload.ofBytes (leBytes 2 dst ++ leBytes 2 src ++ leBytes 2 expert ++ leBytes 1 k ++ leInt 1 pscale
    ++ leBytes 4 token ++ leBytes 1 exch ++ leBytes 1 table ++ leBytes 2 slot ++ leBytes 2 rank)

/-- The destination of a token. -/
def tokDst (ws : List SWord) : Nat := payFld ((ws.headD (SWord.bad true)).data) 0 2

/-- The header word of a token. -/
def tokHdr (ws : List SWord) : Payload := (ws.headD (SWord.bad true)).data

/-- The route of the first MULE allocation of a port whose ROUTE begins at a staging region. -/
def State.muleRoute (s : State) (p stg : Nat) : Option Nat :=
  (List.range 1024).findSome? fun n =>
    ((s.allocs (s.txEntry p n)).find? fun a => a.cls == 1 &&
      (match s.routeCfg .a a.route with
        | some cf => epKind cf.src == 2 && epIdx cf.src == stg
        | none => false)).map (·.route)

/-- The places of a table's transit part in which words wait. -/
def State.transitHeld (s : State) (e : MuleEnv) : List Nat :=
  (List.range 19).flatMap fun p =>
    match s.muleRoute p e.cf.stg with
    | some r => (s.route .a r).src.filterMap (·.1)
    | none => []

/-- The free places of a table's transit part. -/
def State.transitFree (s : State) (e : MuleEnv) : List Nat :=
  let held := s.transitHeld e
  ((List.range e.cf.twords).map (e.transitAt + ·)).filter fun k => !held.contains k

/-- The route by which a token for a chip leaves from a die. -/
def State.muleWay (s : State) (e : MuleEnv) (die dst : Nat) : Option Nat :=
  (s.portFor die dst).bind fun p => s.muleRoute p e.cf.stg

/-- A token of this device sets out for its destination, from the west die as a remote cell does (R526, R565);
with no port UP it is lost. -/
def State.muleSend (s : State) (e : MuleEnv) (ws : List SWord) : State :=
  match s.muleWay e 0 (tokDst ws) with
  | none => s
  | some r => s.putOut r none ws

/-- A token that came by a port of a die is forwarded from the transit part, or discarded where that is full
(R565). -/
def State.muleForward (s : State) (e : MuleEnv) (die : Nat) (ws : List SWord) : State :=
  let free := s.transitFree e
  if free.length < ws.length then (s.bumpF (fMulBadTransit e.t) 1).setIncomp
  else match s.muleWay e die (tokDst ws) with
    | none => s
    | some r =>
      (ws.zip free).foldl (fun t x =>
        (t.mulePut e x.2 [x.1.data]).putOut r (some x.2) [{ x.1 with data := 0 }]) s

/-! ### Delivery at the owner (R283, R567) -/

/-- The key of a capacity slot: its exchange, expert and slot. -/
def slotKey (x expert slot : Nat) : Nat := (x * 4096 + expert) * 65536 + slot

/-- A copy arrives at its owner: one whose place is filled in the exchange, delivered already or not, is a
DUP. -/
def State.muleOwn (s : State) (e : MuleEnv) (ws : List SWord) : State :=
  let h := tokHdr ws
  let m := s.muleT e.t
  match m.newest (payFld h 12 1) with
  | none => s.bumpF (fMulLateLate e.t) 1
  | some x =>
    let k := slotKey x (payFld h 4 2) (payFld h 14 2)
    if ¬ m.dOpen.contains x then s.bumpF (fMulLateLate e.t) 1
    else if Tab.look (fun _ => 0) m.owner k ≠ 0 then (s.bumpF (fMulLateDup e.t) 1).setIncomp
    else (s.setMule e.t { m with owner := Tab.put (fun _ => 0) m.owner k 1 }).mulePut e
      (e.ownerAt x (payFld h 4 2) (payFld h 14 2)) (ws.map (·.data))

/-- The exchange that follows one of an expert's slots when all of its slots have been served. -/
def MuleEnv.nextSlot (e : MuleEnv) (pos : Nat) : Nat :=
  let x := pos / 65536
  if pos % 65536 + 1 < e.slots then pos + 1
  else if x % 64 + 1 < e.cf.nex then (x + 1) * 65536 else (x / 64 + 1) * 64 * 65536

/-- The delivery route of expert `x` takes its next slot: the token once it has arrived, or an
INVALID one once the exchange is closed for dispatch. A place delivered while dispatch is open stays
filled (R567). -/
def State.muleDeliver (s : State) (e : MuleEnv) (x : Nat) : State :=
  let m := s.muleT e.t
  let pos := Tab.look (fun _ => 0) m.delivered x
  let k := slotKey (pos / 65536) x (pos % 65536)
  let there := Tab.look (fun _ => 0) m.owner k == 1
  let isOpen := m.dOpen.contains (pos / 65536)
  if e.ownerOf x ≠ e.me ∨ e.cf.nexp ≤ x ∨ m.opened (pos / 65536) = false
      ∨ (there = false ∧ isOpen = true) then s
  else
    let last (i : Nat) : Bool := i == e.cf.pw
    let rd := if there then s.muleGet e (e.ownerAt (pos / 65536) x (pos % 65536)) (e.cf.pw + 1) else ([], s)
    let ws : List SWord := if there then
        (rd.1.zip (List.range rd.1.length)).map fun w => markWord w.1.1 (if w.1.2 then 2 else 0) (last w.2) 0
      else (List.range (e.cf.pw + 1)).map fun i => markWord 0 1 (last i) 0
    (rd.2.setMule e.t { m with
      owner := if there ∧ isOpen then Tab.put (fun _ => 0) m.owner k 2 else Tab.del m.owner k
      delivered := Tab.put (fun _ => 0) m.delivered x (e.nextSlot pos) }).putOut
        (e.experts.getD x (0, 0)).2 none ws

/-- MULE_DELIVERY (R283). -/
def execMuleDelivery (t : Fin 16) (x : Fin 4096) (s : State) : Host.Outcome State Fault Refusal :=
  .next (match s.muleEnv t.val with
    | some e => s.muleDeliver e x.val
    | none => s)

/-! ### Return and loss (R568, R569) -/

/-- Whether selection `k` of a descriptor still waits for its output. -/
def MuleDesc.waits (d : MuleDesc) (k : Nat) : Bool := (d.sels[k]?.map (·.1)) == some 0

/-- A descriptor takes the output of selection `k`, whose elements are at a scale. -/
def MuleDesc.answer (d : MuleDesc) (k : Nat) (scale : Int) : MuleDesc :=
  if d.waits k then { d with sels := d.sels.set k (1, scale) } else d

/-- An output is back at its source: it enters the source part, and answers its selection. -/
def State.muleBack (s : State) (e : MuleEnv) (ws : List SWord) : State :=
  let h := tokHdr ws
  let m := s.muleT e.t
  match m.newest (payFld h 12 1) with
  | none => s.bumpF (fMulLateLate e.t) 1
  | some x =>
    if ¬ m.rOpen.contains x then s.bumpF (fMulLateLate e.t) 1
    else
      let token := payFld h 8 4
      let k := payFld h 6 1
      let mine (d : MuleDesc) : Bool := d.exch == x && d.token == token
      let s1 := if m.descs.any (fun d => mine d && d.waits k) then
          s.mulePut e (e.descAt x token + 1 + k * e.cf.pw) ((ws.drop 1).map (·.data))
        else s
      s1.setMule e.t { m with
        descs := m.descs.map fun d => if mine d then d.answer k (toS 8 (payFld h 7 1)) else d }

/-- A Mule token that is at its destination: an output where it has come back to the device that
its header names as its source, and a copy otherwise (log entry 22). -/
def State.muleArrived (s : State) (e : MuleEnv) (ws : List SWord) : State :=
  if payFld (tokHdr ws) 2 2 = tokDst ws then s.muleBack e ws else s.muleOwn e ws

/-- An expert stage's output sets out for its source. -/
def State.muleReturn (s : State) (e : MuleEnv) (ws : List SWord) : State :=
  if ¬ e.clean ws then s
  else
    let h := tokHdr ws
    let src := payFld h 2 2
    let h1 : Payload := Payload.ofBytes (leBytes 2 src ++ (Payload.bytes h).drop 2)
    let ws1 : List SWord := ({ ws.headD (SWord.bad true) with data := h1 } : SWord) :: ws.drop 1
    if src = s.physChip then s.muleBack e ws1 else s.muleSend e ws1

/-- MULE_RETURN (R568). -/
def execMuleReturn (t : Fin 16) (s : State) : Host.Outcome State Fault Refusal :=
  .next (match s.muleEnv t.val with
    | some e =>
      match s.popToken e.cf.retroute with
      | some (ws, s1) => s1.muleReturn e ws
      | none => s
    | none => s)

/-! ### Dispatch (R561-R564) -/

/-- Whether a descriptor of an opened exchange is bad (R562). -/
def MuleEnv.bad (e : MuleEnv) (m : MuleSt) (x : Nat) (w : Payload) : Bool :=
  !m.dOpen.contains x || decide (e.cf.k < payFld w 4 1)
    || (List.range (payFld w 4 1)).any (fun k => decide (e.cf.nexp ≤ payFld w (8 + 2 * k) 2))
    || decide (payFld w 0 4 < Tab.look (fun _ => 0) m.prevTok x) || decide (e.cf.tmax ≤ payFld w 0 4)

/-- A copy of a token sets out; a token with a mark is discarded where the mark is found (R566). -/
def State.muleCopy (s : State) (e : MuleEnv) (w : Payload) (k slot : Nat) (pay : List SWord) : State :=
  let x := payFld w (8 + 2 * k) 2
  let dst := s.memberChip e.herd (e.ownerOf x)
  let h := muleHdr dst s.physChip x k (toS 8 (payFld w 5 1)) (payFld w 0 4) (payFld w 6 1) e.t slot e.me
  let ws := markWord h 0 false 0 :: pay
  if ¬ e.clean ws then s
  else if e.ownerOf x = e.me then s.muleOwn e ws
  else s.muleSend e ws

/-- The selections of an accepted descriptor, in order: each takes a capacity slot or is dropped. -/
def State.muleSelect (s : State) (e : MuleEnv) (x : Nat) (w : Payload) (pay : List SWord) :
    List Nat → List (Nat × Int) × State
  | [] => ([], s)
  | k :: r =>
    let m := s.muleT e.t
    let key := x * 4096 + payFld w (8 + 2 * k) 2
    let c := Tab.look (fun _ => 0) m.counts key
    if c < e.cf.q then
      let s1 := s.setMule e.t { m with counts := Tab.put (fun _ => 0) m.counts key (c + 1) }
      let t := (s1.muleCopy e w k (e.me * e.cf.q + c) pay).muleSelect e x w pay r
      ((0, 0) :: t.1, t.2)
    else
      let t := ((s.bump (rMulDrop e.t) 1).bumpF (fMulStepDropstep e.t) 1).muleSelect e x w pay r
      ((2, 0) :: t.1, t.2)

/-- Add a descriptor to those that wait for their combine; what waits for an exchange that is
closed for return is lost. -/
def State.muleQueue (s : State) (e : MuleEnv) (d : MuleDesc) : State :=
  let m := s.muleT e.t
  let z := if m.rOpen.contains d.exch then (d, 0) else d.lose
  (s.setMule e.t { m with descs := m.descs ++ [z.1] }).muleLose e.t z.2

/-- A descriptor is taken: TOKEN of the next one of an exchange open for dispatch is judged against this one's,
bad or not (R562); an accepted one enters the source part. -/
def State.muleTake (s : State) (e : MuleEnv) (w : Payload) (pay : List SWord) : State :=
  let m := s.muleT e.t
  let token := payFld w 0 4
  let x := m.exch (payFld w 6 1)
  let n := payFld w 4 1
  let m1 : MuleSt := if m.dOpen.contains x then
      { m with prevTok := Tab.put (fun _ => 0) m.prevTok x (token + 1) } else m
  if e.bad m x w then
    (((s.bumpF (fMulBadBaddesc e.t) 1).setIncomp).muleLose e.t n).setMule e.t
      { m1 with descs := m.descs ++ [⟨token, x, List.replicate n (3, 0)⟩] }
  else
    let z := ((s.setMule e.t m1).mulePut e (e.descAt x token) [w]).muleSelect e x w pay (List.range n)
    z.2.muleQueue e ⟨token, x, z.1⟩

/-- A router descriptor at the front of DINROUTE, unless its exchange has not opened. -/
def State.muleDesc (s : State) (e : MuleEnv) : State :=
  match s.popToken e.cf.dinroute with
  | none => s
  | some (ws, s1) =>
    if (s.muleT e.t).nextX ≤ payFld (tokHdr ws) 6 1 then s else s1.muleTake e (tokHdr ws) (ws.drop 1)

/-- MULE_DESCRIPTOR (R561). -/
def execMuleDescriptor (t : Fin 16) (s : State) : Host.Outcome State Fault Refusal :=
  .next (match s.muleEnv t.val with
    | some e => s.muleDesc e
    | none => s)

/-! ### Tokens from a landing channel (R565-R567, R736) -/

/-- Whether a chip number is in the chip map. -/
def State.inChipMap (s : State) (chip : Nat) : Bool :=
  match s.imgA.bind (·.chipmap) with
  | some m => (m.logical ++ m.spares).contains chip
  | none => false

/-- Whether a header names what the image does not declare. -/
def State.badMule (s : State) (e : MuleEnv) (h : Payload) : Bool :=
  !s.inChipMap (payFld h 0 2) || decide (e.cf.nexp ≤ payFld h 4 2) || decide (e.slots ≤ payFld h 14 2)
    || payFld h 13 1 != e.t

/-- A token from a neighbour: any device forwards it; at its destination a device outside the herd has no place
for it. -/
def State.muleIn (s : State) (e : MuleEnv) (p : Nat) (ws : List SWord) : State :=
  let h := tokHdr ws
  if ¬ e.clean ws then s
  else if s.badMule e h then
    let v := s.takeFree
    (v.2.bumpF (fFabPunsUnknown p) 1).log ⟨12, 0x0202, unitPort p, false, false, v.1.toNat,
      ((s.port p).neighbour.map (·.1)).getD 0⟩
  else if tokDst ws ≠ s.physChip then s.muleForward e (portDie p) ws
  else if e.member then s.muleArrived e ws
  else s

/-- The Mule table whose staging region a route ends at. -/
def State.routeTable (s : State) (r : Nat) : Option Nat :=
  (s.routeCfg .a r).bind fun cf =>
    if epKind cf.dst = 2 then
      (s.stagingCfg .a (epIdx cf.dst)).bind fun g => if g.owner = 2 then some g.owneridx else none
    else none

/-- MULE_TOKEN (R567): the next token of a landing channel of a Mule table. -/
def execMuleToken (n : Fin 4096) (s : State) : Host.Outcome State Fault Refusal :=
  .next (match s.fabApplied.bind fun f => f.chans[n.val]? with
    | none => s
    | some c =>
      match (s.routeTable c.route).bind s.muleTab, s.popToken c.route with
      | some e, some (ws, s1) => s1.muleIn e c.port ws
      | _, _ => s)

/-! ### Combine (R570) -/

/-- The elements of a payload, 8 or 16 bits each. -/
def MuleEnv.elems (e : MuleEnv) (ws : List Payload) : List Int :=
  ws.flatMap fun p => unpackMant (if e.cf.i16 then 16 else 8) (Payload.bytes p)

/-- The outputs of a descriptor that returned: the gate weight, the scale and the elements, with whether a word
of them is uncorrectable. -/
def State.terms (s : State) (e : MuleEnv) (d : MuleDesc) : List (Nat × Nat × Int) →
    (List (Int × Int × List Int) × Bool) × State
  | [] => (([], false), s)
  | (k, st, scale) :: r =>
    if st = 1 then
      let a := s.muleGet e (e.descAt d.exch d.token) 1
      let o := a.2.muleGet e (e.descAt d.exch d.token + 1 + k * e.cf.pw) e.cf.pw
      let t := o.2.terms e d r
      let w := ((a.1.map (·.1)).headD 0)
      (((toS 16 (payFld w (24 + 2 * k) 2), scale, e.elems (o.1.map (·.1))) :: t.1.1,
        (a.1 ++ o.1).any (·.2) || t.1.2), t.2)
    else s.terms e d r

/-- One element of the combine: its value and its saturation events. -/
def MuleEnv.combine (e : MuleEnv) (r : Int) (ts : List (Int × Int × Int)) : Int × Nat :=
  ts.foldl (fun (a : Int × Nat) t =>
    let v := ovfw (a.1 + align (t.1 * t.2.2) (e.cf.gscale + t.2.1) e.cf.cscale) 32 false
    (v.1, a.2 + if v.2 then 1 else 0)) (align r e.cf.rscale e.cf.cscale, 0)

/-- The combined words of a residual token and the outputs that returned; uncorrectable data marks them
POISON (R265). -/
def MuleEnv.combineAll (e : MuleEnv) (ts : List (Int × Int × List Int)) (bad : Bool) (res : List SWord) :
    List SWord :=
  (res.zip (List.range res.length)).map fun x =>
    let v := (List.range 64).map fun i =>
      BitVec.ofInt 32 (e.combine (lane x.1.data i).toInt
        (ts.map fun t => (t.1, t.2.1, t.2.2.getD (64 * x.2 + i) 0))).1
    markWord (ofLanes v) (x.1.marks ||| if bad then 2 else 0) (x.2 + 1 == res.length) 0

/-- A descriptor whose selections are all resolved is combined with its residual. -/
def State.muleCombine (s : State) (e : MuleEnv) : State :=
  let m := s.muleT e.t
  match m.descs with
  | [] => s
  | d :: r =>
    if d.sels.any fun x => x.1 == 0 then s
    else match s.popToken e.cf.resroute with
      | none => s
      | some (ws, s1) =>
        let ts := (s1.setMule e.t { m with descs := r }).terms e d ((List.range d.sels.length).zip d.sels)
        ts.2.putOut e.cf.coutroute none (e.combineAll ts.1.1 ts.1.2 ws)

/-- MULE_COMBINE (R570). -/
def execMuleCombine (t : Fin 16) (s : State) : Host.Outcome State Fault Refusal :=
  .next (match s.muleEnv t.val with
    | some e => s.muleCombine e
    | none => s)

/-! ### Registers (R572) -/

/-- Clear the lifetime counters of tables. -/
def State.mulClrTabs (s : State) : List Nat → State
  | [] => s
  | t :: r => ((((s.wr (rMulDrop t) 0).wr (rMulLost t) 0).wr (rMulLate t) 0).wr (rMulBad t) 0).mulClrTabs r

/-- MUL_CLRCNT (R572). -/
def execMulClrcnt (r : Requester) (_v : BitVec 32) (s : State) : Host.Outcome State Fault Refusal :=
  .next (s.bar0 r fun s => s.mulClrTabs (List.range 16))

/-- The MUL block after a load: no exchange open; the lifetime counters stay. -/
def State.muleApply (s : State) : State :=
  (List.range 16).foldl (fun u t => (u.putMule t MuleSt.reset).wr (rMulStep t) 0)
    ({ s with mule := [] } : State)

end Sys2Proof.Machine
end

