-- ==== Sys2Proof/Machine/Second.lean ====
section
/-! DEFINITION. The second order's hardware: cadence groups and the root gate, the step word,
the microbatch count and its limits, the noise averages (R457-R465, R476-R481, R590). -/

namespace Sys2Proof.Machine

open Sys2Proof

/-- The SECOND section of job slot A's image. -/
def State.secondCfg (s : State) : Option SecondCfg := s.imgA.bind (·.second)

/-! ### Cadence groups (R457, R461, R462, R464, R465) -/

/-- Whether step `t` lies inside the group's round. -/
def GroupSt.inRound (g : GroupSt) (lag t : Nat) : Bool :=
  match g.round with
  | some r => decide (r ≤ t) && decide (t ≤ r + lag)
  | none => false

/-- Whether a round may start at step `t`. -/
def roundAt (period offset t : Nat) : Bool := period != 0 && ((t : Int) - offset) % period == 0

/-- The period in force at step `t`, outside a round: the last one named for this step or an earlier one. -/
def GroupSt.due (g : GroupSt) (t : Nat) : GroupSt :=
  { g with
    period := (((g.next.filter fun n => decide (n.1 ≤ t)).getLast?).map (·.2)).getD g.period
    next := g.next.filter fun n => decide (t < n.1) }

/-- A period is named from step `a` on: it replaces those named for that step or a later one. -/
def GroupSt.name (g : GroupSt) (a p : Nat) : GroupSt :=
  { g with next := (g.next.filter fun n => decide (n.1 < a)) ++ [(a, p)] }

/-- The group at the start of an attempt of step `t`: a period named for this step or an earlier
one takes effect outside a round, a round starts, and the go step sets ROUNDSRC. -/
def GroupSt.start (g : GroupSt) (cf : GroupCfg) (t : Nat) : GroupSt :=
  let g1 : GroupSt :=
    if g.inRound cf.lag t then g else { g with round := none }.due t
  let g2 : GroupSt :=
    if g1.round.isNone ∧ roundAt g1.period cf.offset t = true then { g1 with round := some t } else g1
  match g2.round with
  | some r => if t = r + 1 then { g2 with roundSrc := some r } else g2
  | none => g2

/-- SNAP, GO and INSTALL of a group in the word of step `t` (R460). -/
def GroupSt.flags (g : GroupSt) (lag t : Nat) : Nat :=
  match g.round with
  | none => 0
  | some r =>
    (if t = r then 1 else 0) + (if t = r + 1 ∨ g.resumed = some t then 2 else 0)
      + (if t = r + lag then 4 else 0)

/-- The gate of a group at a step start: its root is late at the install step (R462). -/
def GroupSt.late (g : GroupSt) (lag t : Nat) : Bool :=
  match g.round with
  | some r => t == r + lag && g.doneSrc != some r
  | none => false

/-- The groups at the start of an attempt of step `t`: their flags, in order, and whether a root is
late. -/
def State.groupsStart (s : State) (t : Nat) : Nat → List GroupCfg → List Nat × Bool × State
  | _, [] => ([], false, s)
  | n, cf :: r =>
    let g := (s.group n).start cf t
    let z := (s.putGroup n g).groupsStart t (n + 1) r
    (g.flags cf.lag t :: z.1, g.late cf.lag t || z.2.1, z.2.2)

/-- An attempt for which a root is late is incomplete, and counts once in BWT_SOLATE (R462, R481). -/
def State.gateLate (s : State) (late : Bool) : State := if late then (s.bump rBwtSolate 1).setIncomp else s

/-- The round of a group that is pending when a job resumes after committed step `c`. -/
def pendingRound (period offset lag : Nat) (c : Int) : Option Nat :=
  if period = 0 then none
  else
    let r := c - (c - offset) % period
    if 0 ≤ r ∧ c < r + lag then some r.toNat else none

/-- Arming rebuilds the gates for a job that resumes at step `t`. -/
def State.gateRebuild (s : State) (t : Nat) : Nat → List GroupCfg → State
  | _, [] => s
  | n, cf :: r =>
    let g := s.group n
    let p := pendingRound g.period cf.offset cf.lag ((t : Int) - 1)
    (s.putGroup n { g with
      round := p, roundSrc := p, doneSrc := none, resumed := p.map fun _ => t }).gateRebuild t (n + 1) r

/-- Jusia sets a group's period: a value outside LAG + 1 to PMAX changes nothing. -/
def State.cadenceSet (s : State) (g period step : Nat) : State :=
  match s.secondCfg.bind fun c => c.groups[g]? with
  | none => s
  | some cf =>
    if cf.lag + 1 ≤ period ∧ period ≤ cf.pmax then
      s.putGroup g ((s.group g).name step period)
    else s

/-- CADENCE_SET (R464). -/
def execCadenceSet (g : Fin 64) (period : BitVec 16) (step : BitVec 64) (s : State) :
    Host.Outcome State Fault Refusal := .next (s.cadenceSet g.val period.toNat step.toNat)

/-! ### The step word (R460, R479, R590) -/

/-- The 256 bytes of the step word. -/
def stepWord (t mb : Nat) (flags : List Nat) : List Byte :=
  padTo 256 (padTo 16 (leBytes 8 t ++ leBytes 2 mb) ++ flags.map (BitVec.ofNat 8))

/-- Write bytes into the scratchpads of some cores. -/
def State.spadAll (s : State) (a : Nat) (l : List Byte) : List Nat → State
  | [] => s
  | c :: r => (s.spadWrite c a l).spadAll a l r

/-- A pending microbatch count applies from its apply step on. -/
def State.mbStart (s : State) (t : Nat) : State :=
  if s.getF fBwtSombNext ≠ 0 ∧ s.second.apply.toNat ≤ t then
    let a := s.second.apply.toNat
    (((({ s with second := { s.second with lastApply := some a, apply := 0 } } : State).setF fBwtSombCur
      (s.getF fBwtSombNext)).setF fBwtSombNext 0).wr rBwtSombapply 0)
  else s

/-- What a step start does here: the count, the groups, the gate and the step word. -/
def State.secondStart (s : State) : State :=
  match s.secondCfg with
  | none => s
  | some cf =>
    let t := s.stepA.toNat
    let s1 := s.mbStart t
    let z := s1.groupsStart t 0 cf.groups
    (z.2.2.gateLate z.2.1).spadAll cf.stepwaddr (stepWord t (s1.getF fBwtSombCur) z.1)
      ((List.range 256).filter fun c => cf.stepwcores.getLsbD c)

/-- The cores that hold a CORE section of job slot A. -/
def State.coresA (s : State) : List Nat := (List.range 256).filter fun c => (s.core c).cfgA.isSome

/-- PSHIFT comes into force, and its word is written (R590). -/
def State.pshiftStart (s : State) : State :=
  let p : Int := toS 8 (s.getF fBwtPswPshift)
  ({ s with bwt := { s.bwt with pshift := p } } : State).spadAll (4 * s.getF fBwtPswAddr) (leInt 4 p) s.coresA

/-! ### Steering (R476-R478) -/

/-- The committed step of the job state record. -/
def State.committed (s : State) : W64 := s.rd64 (rBwtJsr 0)

/-- Whether a request breaches a limit. -/
def State.steerBad (s : State) (cf : SecondCfg) (count apply : Nat) : Bool :=
  let cur := s.getF fBwtSombCur
  decide (count < cf.mbmin) || decide (cf.mbmax < count) || decide (2 * count < cur) || decide (2 * cur < count)
    || decide (apply ≤ (s.committed + 1).toNat)
    || (match s.second.lastApply with
        | some a => decide (apply < a + cf.steermin)
        | none => false)
    || s.getF fBwtSombNext != 0

/-- A request for a microbatch count: refused whole, or pending until its apply step. -/
def State.steer (s : State) (count apply : Nat) : State :=
  let refuse : State := (s.bumpF fBwtSorejCount 1).log
    ⟨13, 0x0300, unitDevice, false, false, 0, (s.stepA.setWidth 32 : W32).toNat⟩
  match s.secondCfg with
  | none => refuse
  | some cf =>
    if s.steerBad cf count apply then refuse
    else
      ((({ s with second := { s.second with apply := BitVec.ofNat 64 apply } } : State).setF fBwtSombNext
        count).wr rBwtSombapply (BitVec.ofNat 32 apply))

/-- BATCH_STEER_REQUEST (R478). -/
def execBatchSteerRequest (count : BitVec 16) (step : BitVec 64) (s : State) :
    Host.Outcome State Fault Refusal := .next (s.steer count.toNat step.toNat)

/-- The noise averages after a committed step of `mb` microbatches. -/
def noiseStep (cf : SecondCfg) (mb : Nat) (loc glb : Int) (a c : Int) : Int × Int :=
  let n : Int := cf.ndp
  let b : Int := mb * 2 ^ cf.tpm
  let nn := n * (n - 1)
  if nn = 0 then (a, c)
  else
    (a + rneShr ((shl (n * loc - glb) 32) / (nn * b) - a) cf.nshift,
      c + rneShr ((shl (glb - loc) 32) / (nn * b * b) - c) cf.nshift)

/-- The noise scale, if the averages give one. -/
def bnoise (a c : Int) : Option Int := if 0 < a ∧ 0 < c then some (a / c) else none

/-- The count that a steering decision aims at. -/
def steerTarget (cf : SecondCfg) (cur : Nat) (bn : Int) : Nat :=
  let d : Int := 16 * (cf.ndp * 2 ^ cf.tpm)
  let t := ((bn * cf.knum + d - 1) / d).toNat
  min cf.mbmax (max cf.mbmin (min (2 * cur) (max ((cur + 1) / 2) t)))

/-- After a committed step `c`: the averages, and Jusia's steering decision. -/
def State.afterCommit (s : State) (c : Nat) (loc glb : Int) : State :=
  match s.secondCfg with
  | none => s
  | some cf =>
    let cur := s.getF fBwtSombCur
    let z := noiseStep cf cur loc glb s.second.noiseA s.second.noiseC
    let s1 : State := { s with second := { s.second with noiseA := z.1, noiseC := z.2 } }
    match bnoise z.1 z.2 with
    | some bn =>
      if cf.ndp ≠ 1 ∧ cf.knum ≠ 0 ∧ c % cf.steermin = 0 ∧ steerTarget cf cur bn ≠ cur then
        s1.steer (steerTarget cf cur bn) (c + 2)
      else s1
    | none => s1

/-! ### A load, and the job state record (R480, R481, R599) -/

/-- The second-order block after a load of job slot A. -/
def State.secondApply (s : State) : State :=
  let s0 : State := { s with second := ⟨[], none, 0, 0, 0⟩ }
  let groups := (s.secondCfg.map (·.groups)).getD []
  let s1 := ((s0.wr rBwtSoctl (BitVec.ofNat 32 (if s.secondCfg.isSome then 1 + 2 * groups.length else 0))).wr
    rBwtSomb (BitVec.ofNat 32 ((s.secondCfg.map (·.mbinit)).getD 0))).wr rBwtSombapply 0
  (List.range 64).foldl (fun t g =>
    (t.wr (rBwtSocad g) (BitVec.ofNat 32 (((groups[g]?.map (·.lag)).getD 0) * 65536))).putGroup g
      { GroupSt.reset with period := (groups[g]?.map (·.period)).getD 0 }) s1

/-- Bytes of the job state record. -/
def State.jsrFld (s : State) (o n : Nat) : Nat :=
  fieldLe ((List.range 64).flatMap fun k => leBytes 4 (s.rd (rBwtJsr k)).toNat) o n

/-- The period of a group as the record holds it; a group that the image does not declare shows nothing of it
(R480). -/
def State.loadPeriod (s : State) (n g : Nat) : State :=
  let x := { s.group g with period := s.jsrFld (64 + 2 * g) 2, next := [] }
  if g < n then s.putGroup g x else s.setGroup g x

/-- Arming loads the record's second-order fields (R599). The last change of the count still holds the next one
off, where the step that it applied from is committed (R478). -/
def State.jsrLoad (s : State) : State :=
  let s1 : State := { s with second := { s.second with
    apply := BitVec.ofNat 64 (s.jsrFld 12 8)
    lastApply := s.second.lastApply.filter fun a => decide (a ≤ s.jsrFld 0 8)
    noiseA := toS 64 (s.jsrFld 24 8), noiseC := toS 64 (s.jsrFld 32 8) } }
  let s2 := ((s1.setF fBwtSombCur (s.jsrFld 8 2)).setF fBwtSombNext (s.jsrFld 10 2)).wr rBwtSombapply
    (BitVec.ofNat 32 (s.jsrFld 12 8))
  (List.range 64).foldl (fun t g => t.loadPeriod ((s.secondCfg.map (·.groups.length)).getD 0) g) s2

/-- The record's second-order fields as they stand. -/
def State.jsrSecond (s : State) : List Byte × List Byte :=
  (leBytes 2 (s.getF fBwtSombCur) ++ leBytes 2 (s.getF fBwtSombNext) ++ leBytes 8 s.second.apply.toNat,
    leInt 8 (satw s.second.noiseA 64) ++ leInt 8 (satw s.second.noiseC 64))

end Sys2Proof.Machine
end

