-- ==== Sys2Proof/Machine/Bellwether.lean ====
section
/-! DEFINITION. Bellwether: arming, the step start, the consensus word and its programme, the
decision, the lists, halt and resolution (R118, R119, R172, R573-R604). -/

namespace Sys2Proof.Machine

open Sys2Proof

/-! ### The consensus word (R578) -/

/-- How a field of two words combines. -/
inductive CwOp | min | max | sum | sum63 | or | zero
  deriving DecidableEq, Repr

/-- The fields of the word: bytes and operator, in order. -/
def cwLayout : List (Nat × CwOp) :=
  [(4, .min), (4, .max), (4, .sum), (2, .or), (1, .max), (1, .zero), (2, .min), (2, .max), (4, .sum),
    (4, .sum), (4, .sum), (4, .sum), (4, .sum), (8, .sum63), (8, .sum63), (8, .zero)]

/-- Combine one field of `n` bytes. -/
def CwOp.apply (n a b : Nat) : CwOp → Nat
  | .min => Nat.min a b
  | .max => Nat.max a b
  | .sum => Nat.min (a + b) (2 ^ (8 * n) - 1)
  | .sum63 => Nat.min (a + b) (2 ^ 63 - 1)
  | .or => a ||| b
  | .zero => 0

/-- Combine the bytes of two words, field by field. -/
def cwBytes : List (Nat × CwOp) → List Byte → List Byte → List Byte
  | [], _, _ => []
  | (n, o) :: r, a, b =>
    leBytes n (o.apply n (leNat (a.take n)) (leNat (b.take n))) ++ cwBytes r (a.drop n) (b.drop n)

/-- The 64 bytes of a word. -/
def cwList (w : BitVec 512) : List Byte := leBytes 64 w.toNat

/-- A word of 64 bytes. -/
def cwOf (l : List Byte) : BitVec 512 := BitVec.ofNat 512 (leNat l)

/-- combine. -/
def combine (a b : BitVec 512) : BitVec 512 := cwOf (cwBytes cwLayout (cwList a) (cwList b))

/-- The identity word. -/
def cwIdentity : BitVec 512 :=
  cwOf (cwLayout.flatMap fun f => match f.2 with
    | .min => leBytes f.1 (2 ^ (8 * f.1) - 1)
    | _ => leBytes f.1 0)

/-- Bytes `o` to `o + n - 1` of a word. -/
def cwFld (w : BitVec 512) (o n : Nat) : Nat := w.toNat / 2 ^ (8 * o) % 2 ^ (8 * n)

/-- A word with bytes `o` to `o + n - 1` replaced. -/
def cwSet (w : BitVec 512) (o n v : Nat) : BitVec 512 :=
  cwOf ((cwList w).take o ++ leBytes n v ++ (cwList w).drop (o + n))

/-- FLAGS. -/
def cwFlags (w : BitVec 512) : BitVec 16 := BitVec.ofNat 16 (cwFld w 12 2)

/-- A word with HALT set and a cause. -/
def cwHalt (w : BitVec 512) (cause : Nat) : BitVec 512 :=
  cwSet (cwSet w 12 2 (cwFlags w ||| 16).toNat) 14 1 cause

/-! ### What the word is filled from (R119, R172, R173, R376, R579) -/

/-- A little-endian value in a scratchpad, read where a saved record stands. -/
def CoreSt.spadNat (x : CoreSt) (a n : Nat) : Nat := leNat (Tab.lookList (fun _ => 0) x.spad a n)

/-- Whether a core holds job slot A's context. -/
def CoreSt.holdsA (x : CoreSt) : Bool := x.slot == .a && !x.bare

/-- The saturation events of the step in job slot A's context of a core. -/
def CoreSt.satOf (x : CoreSt) : Nat :=
  if x.holdsA then sumNat ([0, 1, 2, 3].map fun n => (x.arr n).satStep.toNat) + x.satStep.toNat
  else if x.emptyA then 0
  else sumNat ([0, 1, 2, 3].map fun n => x.spadNat (csaArray .a n + 0x10080 + 24) 2)
    + x.spadNat (csaVector .a + 0x42140) 2

/-- The scale and domain events of the step in job slot A's context of a core. -/
def CoreSt.sclOf (x : CoreSt) : Nat :=
  if x.holdsA then sumNat ([0, 1, 2, 3].map fun n => (x.arr n).sclStep.toNat) + x.domStep.toNat
  else if x.emptyA then 0
  else sumNat ([0, 1, 2, 3].map fun n => x.spadNat (csaArray .a n + 0x10080 + 26) 2)
    + x.spadNat (csaVector .a + 0x42142) 2

/-- The STEP taps of a class in job slot A's context of a core. -/
def CoreSt.tapsOf (x : CoreSt) (cls : Nat) : List Int :=
  match x.cfgA with
  | none => []
  | some cf => (List.range 8).filterMap fun n =>
    match cf.taps[n]? with
    | some t =>
      if t.en ∧ t.cls = cls ∧ ¬ t.layerMode then
        if x.holdsA then some (x.tap n).acc.toInt
        else if x.emptyA then none
        else some (toS 64 (x.spadNat (csaVector .a + 0x420C0 + 16 * n) 8))
      else none
    | none => none

/-- The sum of the taps of a class, by sat64. -/
def State.tapSum (s : State) (cls : Nat) : Nat :=
  ((s.coresA.flatMap fun c => (s.core c).tapsOf cls).foldl (fun (a v : Int) => satw (a + v) 64) 0).toNat

/-- The number of Mule tables. -/
def State.muleTabs (s : State) : Nat := (((s.imgA.bind (·.mule)).map (·.tabs)).getD []).length

/-- Whether the device is ready (R33, R579): its DONE has issued and nothing of slot A is outstanding. -/
def State.ready (s : State) : Bool :=
  s.bwt.doneBD && s.getF fHrdStatusActive == 0 && (List.range 8).all fun d => (s.stk d).qa.isEmpty

/-- Whether the device takes part: a CHIPMAP section and a logical chip number. -/
def State.inJob (s : State) : Bool := (s.imgA.bind (·.chipmap)).isSome && s.logChip.isSome

/-- FLAGS of the word to seal; `p` says that an attempt is pending. -/
def State.sealFlags (s : State) (p halt : Bool) : Nat :=
  (if p && s.bwt.incomp then 1 else 0)
    + (if p && s.bwt.pexsat && (s.imgA.map (·.portex)).getD false then 2 else 0)
    + (if p && s.bwt.doneBE then 4 else 0)
    + (if s.savState == savCapture then 8 else 0) + (if halt then 16 else 0)

/-- The word that the device seals, with a halt cause (0 none). Its sums are the counts as they stand; ready,
incomplete and the rest of FLAGS are those of an attempt that is pending. -/
def State.sealWord (s : State) (cause : Nat) : BitVec 512 :=
  let p := s.undecided
  let tag := ((s.imgA.map (fun (i : Image) => i.id)).getD 0).toNat
  let step := s.stepA.toNat
  let ds := List.range s.muleTabs
  cwOf (leBytes 4 step ++ leBytes 4 step ++ leBytes 4 (if p && s.ready then 1 else 0)
    ++ leBytes 2 (s.sealFlags p (cause != 0)) ++ leBytes 1 cause ++ [0] ++ leBytes 2 tag ++ leBytes 2 tag
    ++ leBytes 4 (sumNat (s.coresA.map fun c => (s.core c).satOf)
      + sumNat ((List.range 8).map fun d => (s.stk d).satStep))
    ++ leBytes 4 (sumNat (s.coresA.map fun c => (s.core c).sclOf))
    ++ leBytes 4 (sumNat (ds.map fun t => s.getF (fMulStepDropstep t)))
    ++ leBytes 4 (sumNat (ds.map fun t => s.getF (fMulStepLoststep t)))
    ++ leBytes 4 (if p && s.bwt.incomp then 1 else 0)
    ++ leBytes 8 (s.tapSum 0) ++ leBytes 8 (s.tapSum 1) ++ leBytes 8 0)

/-- Show a word in 16 registers. -/
def State.showWord (s : State) (base : Nat) (w : BitVec 512) : State :=
  s.wrList base ((List.range 16).map fun k => w.extractLsb' (32 * k) 32)

/-- Whether the device is a standby spare: its image has a CHIPMAP section, and it no logical chip number. -/
def State.standby (s : State) : Bool := (s.imgA.bind (·.chipmap)).isSome && s.logChip.isNone

/-- The word of the seal, with the halt cause pending or the one that halted the device (R579, R592): a
standby spare seals the identity word. -/
def State.ownWord (s : State) : BitVec 512 :=
  let cause := if s.getF fBwtStatusState = bwtHalted then max (s.getF fBwtStatusHcause) s.bwt.haltPend
    else s.bwt.haltPend
  if s.inJob then s.sealWord cause
  else if s.standby ∨ cause = 0 then cwIdentity
  else cwHalt cwIdentity cause

/-- Whether the programme runs: while ARMED once a step has started, and while HALTED (R576). -/
def State.programRuns (s : State) : Bool :=
  s.armed && s.bwt.started || s.getF fBwtStatusState == bwtHalted

/-- The seal of CAL61, in any STATE (R575, R579, R581): each consensus register takes the device's word. The
consensus slot is the one that begins 32 tk later, and an entry of SLOT 0 acts before it begins (R582), so
the run stands ready from here. A word that a run will decide takes the pending cause with it. -/
def State.sealNow (s : State) : State :=
  let w := s.ownWord
  ({ s with bwt := { s.bwt with
    c := (List.range 4).foldl (fun t k => Tab.ins t k w) ([] : Tab (BitVec 512))
    prog := some ⟨s.fab.time + 32, 0, []⟩
    cons := []
    haltPend := if s.programRuns then 0 else s.bwt.haltPend } } : State).showWord (rBwtOwn 0) w

/-- A CAL60 firing in a state in which the programme does not run: the run that stood ready is none (R576). -/
def State.programStart (s : State) : State :=
  if s.programRuns then s else { s with bwt := { s.bwt with prog := none } }

/-! ### The step start (R118, R172, R574, R587, R589) -/

/-- Clear an array's per-step counts. -/
def ArrayRec.stepClear (a : ArrayRec) : ArrayRec := { a with satStep := 0, sclStep := 0 }

/-- A core at job slot A's step start: the counts, taps and feeders of its resident context, and the
drain tile counters of the ports that slot A binds (R118, R151, R172, R173, R779, R780). The spec names
no step-start event of job slot B, and the model clears nothing of it at one (log entry 7). -/
def CoreSt.stepClear (x : CoreSt) : CoreSt :=
  let bound (p : Nat) : Bool := ((x.cfgA.map (·.depth)).getD []).getD p 0 != 0
  let x1 : CoreSt := { x with
    ports := x.ports.map fun (p : Nat × PortSt) => (p.1, if bound p.1 then { p.2 with drainTile := 0 } else p.2) }
  if x.holdsA then
    ({ x1 with
      arrays := x1.arrays.map fun (a : Nat × ArrayRec) => (a.1, a.2.stepClear)
      satStep := 0, domStep := 0, vseq := 0, taps := [] }).feedersToBase [0, 1, 2, 3, 4]
  else x1

/-- The feeder entry of job slot A's saved context of a core, in the plane of its saved mode. -/
def CoreSt.savedFeeder (x : CoreSt) (f : Nat) : Option FeederCfg :=
  x.cfgA.bind fun cf => (cf.feeders[5 * (x.spadNat (csaSeq .a + 8) 1 % 4) + f]?).filter fun g =>
    g.decl && !g.fromPort

/-- What a step start writes in job slot A's saved context of a core: its per-step counts, taps and
VSEQ at 0, and ADDR of each feeder with a scratchpad source at BASE, for they belong to the job slot
wherever its context is (R118, R151, R172, R173, R780, log entry 44). -/
def CoreSt.savedClear (x : CoreSt) : List (Nat × List Byte) :=
  ([0, 1, 2, 3].map fun n => (csaArray .a n + 0x10080 + 24, List.replicate 4 0))
    ++ [(csaVector .a + 0x420C0, List.replicate 128 0), (csaVector .a + 0x42140, List.replicate 8 0)]
    ++ [0, 1, 2, 3, 4].filterMap fun f => (x.savedFeeder f).map fun g =>
        (csaStream .a + 8 * f + 4, leBytes 4 g.base)

/-- Write pieces of a core's scratchpad. -/
def State.spadWrites (s : State) (c : Nat) : List (Nat × List Byte) → State
  | [] => s
  | p :: r => (s.spadWrite c p.1 p.2).spadWrites c r

/-- A core at job slot A's step start, its context resident or saved. -/
def State.coreClear (s : State) (c : Nat) : State :=
  let s1 := s.setCore c (s.core c).stepClear
  if (s.core c).holdsA ∨ (s.core c).emptyA then s1 else s1.spadWrites c (s.core c).savedClear

/-- Clear the step's counts of some cores. -/
def State.coresClear (s : State) : List Nat → State
  | [] => s
  | c :: r => (s.coreClear c).coresClear r

/-- Clear the step's counts of the stacks. -/
def State.stacksClear (s : State) : List Nat → State
  | [] => s
  | d :: r => (s.setStk d { s.stk d with satStep := 0, doneA := [] }).stacksClear r

/-- The step-start event of job slot A. -/
def State.stepStart (s : State) : State :=
  let late := s.dieLate 0 || s.dieLate 1
  let s1 : State := { s with bwt := { s.bwt with
    incomp := late, doneBD := false, doneBE := false, pexsat := false, started := true, decided := false } }
  let s2 := ((s1.coresClear s1.coresA).stacksClear (List.range 8)).muleStepStart
  let s3 := (s2.secondStart).pshiftStart
  if s3.savState = savWait then s3.beginCapture else s3

/-- A firing of STARTCAL: whether Bellwether lets it be delivered, which is the step-start event of job slot
A (R574). In IDLE it withholds one only between a halt and the next arm (R587, R593, log entry 24). -/
def State.startFire (s : State) : Bool × State :=
  if s.getF fBwtStatusState = bwtIdle then (if s.bwt.barred then (false, s) else (true, s.stepStart))
  else if ¬ s.armed then (false, s)
  else if ¬ s.bwt.started then
    if s.time < (s.rd64 rBwtResumetLo).toNat then (false, s) else (true, s.stepStart)
  else if ¬ s.bwt.decided then (false, s)
  else if ¬ s.bwt.lists.isEmpty then (false, s.bump rBwtListlate 1)
  else (true, s.stepStart)

/-! ### The programme (R581-R585) -/

/-- KIND of an entry. -/
def ceKind (e : W64) : Nat := e.toNat % 256
/-- PORTA. -/
def cePortA (e : W64) : Nat := e.toNat / 2 ^ 8 % 256
/-- PORTB. -/
def cePortB (e : W64) : Nat := e.toNat / 2 ^ 16 % 256
/-- REGA. -/
def ceRegA (e : W64) : Nat := e.toNat / 2 ^ 24 % 256
/-- REGB. -/
def ceRegB (e : W64) : Nat := e.toNat / 2 ^ 32 % 256
/-- HOP. -/
def ceHop (e : W64) : Nat := e.toNat / 2 ^ 40 % 256
/-- SLOT. -/
def ceSlot (e : W64) : Nat := e.toNat / 2 ^ 48

/-- The ports that an entry names, A first. -/
def cePorts (e : W64) : List Nat := [cePortA e, cePortB e].filter (· != 0xFF)

/-- A consensus register. -/
def State.creg (s : State) (k : Nat) : BitVec 512 := Tab.look (fun _ => 0) s.bwt.c k

/-- Replace a consensus register. -/
def State.setCreg (s : State) (k : Nat) (w : BitVec 512) : State :=
  { s with bwt := { s.bwt with c := Tab.ins s.bwt.c k w } }

/-- Replace a consensus register unless the number is none. -/
def State.setCregB (s : State) (k : Nat) (w : BitVec 512) : State := if k = 0xFF then s else s.setCreg k w

/-- The tick 0 of an entry's slot. -/
def ceTick (cs : W64) (e : W64) : Nat := cs.toNat + 32 * ceSlot e

/-- The next entry of the run, if it is of a kind and the programme runs, at its time. -/
def State.progNext (s : State) (kind : Nat) : Option (W64 × ProgRun × State) :=
  s.bwt.prog.bind fun p => (s.bwt.code[p.idx]?).bind fun e =>
    if ceKind e = kind ∧ s.programRuns = true then
      let s1 := s.reach (ceTick p.cs e - 4)
      some (e, p, { s1 with bwt := { s1.bwt with prog := some { p with idx := p.idx + 1 } } })
    else none

/-- A CONS cell. -/
def consCell (w : BitVec 512) (cs : W64) : Cell := cellSeal 5 (Payload.ofBytes (cwList w ++ leBytes 8 cs.toNat))

/-- Place a CONS cell for the frame of a slot on some ports that are UP. -/
def State.placeCons (s : State) (t0 : W64) (c : Cell) : List Nat → State
  | [] => s
  | p :: r =>
    (if s.portUp p then s.setPort p { s.port p with consq := (s.port p).consq ++ [(t0, c)] } else s).placeCons t0 c r

/-- CONSENSUS_SEND (R582). -/
def execConsensusSend (s : State) : Host.Outcome State Fault Refusal :=
  .next (match s.progNext 1 with
    | some (e, p, t) => t.placeCons (BitVec.ofNat 64 (ceTick p.cs e)) (consCell (t.creg (ceRegA e)) p.cs) (cePorts e)
    | none => s)

/-- Whether a received copy is valid for a run. -/
def consValid (cs : W64) (c : Cell) : Bool :=
  cellGood c && cellFld c 0 4 == 5 && (c.payload.toNat / 2 ^ 512 % 2 ^ 64 == cs.toNat)

/-- The key of a port and a send slot. -/
def consKey (p slot hop : Nat) : Nat := 4096 * p + slot + 16 - hop

/-- The copy that a RECV takes from a port: the next one not taken of that send slot. -/
def State.consCopy (s : State) (r : ProgRun) (e : W64) (p : Nat) : Option (BitVec 512) :=
  let ft := r.cs.toNat + 32 * ceSlot e - 32 * ceHop e
  let l := s.bwt.cons.filter fun c => c.port == p && c.slot.toNat == ft
  (l[Tab.look (fun _ => 0) r.taken (consKey p (ceSlot e) (ceHop e))]?).bind fun c =>
    if consValid r.cs c.cell then some (c.cell.payload.setWidth 512) else none

/-- A RECV has taken a cell of each port that it names. -/
def ProgRun.take (r : ProgRun) (e : W64) : ProgRun :=
  { r with taken := (cePorts e).foldl (fun t p =>
      let k := consKey p (ceSlot e) (ceHop e)
      Tab.ins t k (Tab.look (fun _ => 0) t k + 1)) r.taken }

/-- A RECV with no valid copy (R584, R591). -/
def State.recvMissing (s : State) (e : W64) : State :=
  let p := (cePorts e).headD 0xFF
  let s1 := ((s.setCreg (ceRegA e) (cwHalt (s.creg (ceRegA e)) 1)).setCregB (ceRegB e)
    (cwHalt cwIdentity 1)).bump rBwtMiss 1
  (s1.log ⟨13, 0x0100, if p = 0xFF then unitDevice else unitPort p, false, false, p + 256 * ceSlot e,
    (s.stepA.setWidth 32 : W32).toNat⟩).enterHalted 1

/-- CONSENSUS_RECV (R582, R584). -/
def execConsensusRecv (s : State) : Host.Outcome State Fault Refusal :=
  .next (match s.progNext 2 with
    | some (e, p, t) =>
      let t1 : State := { t with bwt := { t.bwt with prog := t.bwt.prog.map fun r => r.take e } }
      match (cePorts e).findSome? (t.consCopy p e) with
      | some w => (t1.setCreg (ceRegA e) (combine (t.creg (ceRegA e)) w)).setCregB (ceRegB e) w
      | none => t1.recvMissing e
    | none => s)

/-- CONSENSUS_COPY (R582). -/
def execConsensusCopy (s : State) : Host.Outcome State Fault Refusal :=
  .next (match s.progNext 3 with
    | some (e, _, t) => t.setCregB (ceRegB e) (t.creg (ceRegA e))
    | none => s)

/-! ### The lists (R588) -/

/-- A list's entries in memory: each is 128 bytes; an entry that cannot be read, or names no stack,
is none. -/
def State.listEntries (s : State) (base : Nat) : Nat → List (Option (Nat × BitVec 512)) × State
  | 0 => ([], s)
  | n + 1 =>
    let r := s.memRead .other 256 base 128
    let e : Option (Nat × BitVec 512) :=
      if r.1.bad ≠ [] ∨ 7 < fieldLe r.1.bytes 64 1 ∨ memTop < base + 128 then none
      else some (fieldLe r.1.bytes 64 1, cwOf (r.1.bytes.take 64))
    let z := r.2.listEntries (base + 128) n
    (e :: z.1, z.2)

/-- The step that each UNDO of a list names: bits [31:0] of the decided step less 1. -/
def undoStep (step : W64) (c : BitVec 512) : BitVec 512 :=
  if beOp c = 3 then cwSet c 8 4 (step - 1).toNat else c

/-- Issue the list of a decision on a step; it follows the lists that have not yet run to their end. -/
def State.issueList (s : State) (commit : Bool) (step : W64) : State :=
  let n := if commit then s.getF fBwtCllenEntries else s.getF fBwtSllenEntries
  let base := (s.rd64 (if commit then rBwtClbaseLo else rBwtSlbaseLo)).toNat
  let z := s.listEntries base n
  let good := z.1.filterMap id
  if n = 0 then s
  else
    let s1 := ({ z.2 with bwt := { z.2.bwt with
      lists := z.2.bwt.lists ++ [⟨((z.2.bwt.lists.getLast?).map (·.run + 1)).getD 0, commit,
        good.map fun e => (e.1, undoStep step e.2), good.length != z.1.length⟩] } } : State).setB fBwtStatusListbusy true
    (s1.feedList (s1.listLeft.length + 1)).listEnd

/-! ### The decision (R34-R36, R586, R587, R590, R599) -/

/-- A decision: HALT with its cause. -/
inductive Decision | halt (cause : Nat) | skip | hold | commit
  deriving DecidableEq, Repr

/-- NLOG of the chip map. -/
def State.nlog (s : State) : Nat := ((s.imgA.bind (·.chipmap)).map (·.logical.length)).getD 0

/-- decide(w). -/
def decideWord (w : BitVec 512) (nlog digstreak digmax : Nat) : Decision :=
  let f := cwFlags w
  if f.getLsbD 4 then .halt (cwFld w 14 1)
  else if nlog < cwFld w 8 4 ∨ 32 ≤ f.toNat then .halt 2
  else if cwFld w 0 4 ≠ cwFld w 4 4 then .halt 3
  else if cwFld w 16 2 ≠ cwFld w 18 2 then .halt 4
  else if f.getLsbD 2 ∧ digmax ≤ digstreak + 1 then .halt 5
  else if cwFld w 8 4 ≠ nlog then .skip
  else if f.getLsbD 0 ∨ f.getLsbD 1 ∨ f.getLsbD 2 then .skip
  else if f.getLsbD 3 then .hold
  else .commit

/-- Write the job state record with its committed step and streak. -/
def State.jsrUpdate (s : State) (cstep : W64) : State :=
  let old := (List.range 64).flatMap fun k => leBytes 4 (s.rd (rBwtJsr k)).toNat
  let p := s.jsrSecond
  let l := leBytes 8 cstep.toNat ++ p.1 ++ leBytes 1 (s.getF fBwtPswPshift) ++ leBytes 1 (s.getF fBwtStreakDig)
    ++ slice old 22 2 ++ p.2 ++ slice old 40 24
    ++ (List.range 64).flatMap (fun g => leBytes 2 (s.group g).period) ++ slice old 192 64
  s.wrList (rBwtJsr 0) ((groupsOf 4 64 l).map fun b => BitVec.ofNat 32 (leNat b))

/-- PSHIFT rises after a decided word with PEXSAT. -/
def State.pshiftRaise (s : State) (pex : Bool) : State :=
  let p : Int := toS 8 (s.getF fBwtPswPshift)
  if pex ∧ p < s.getF fBwtCfgPsmax then s.setF fBwtPswPshift ((p + 1) % 256).toNat else s

/-- What COMMIT, SKIP and HOLD share: BWT_DEC, BWT_LAST and the count. -/
def State.noteDecision (s : State) (kind counter : Nat) : State :=
  ((s.setF fBwtDecKind kind).wr64 rBwtLastLo s.stepA).bump counter 1

/-- COMMIT of the pending attempt. -/
def State.commit (s : State) : State :=
  let t := s.stepA
  let s1 := ((s.noteDecision 1 rBwtCommits).wr64 rBwtStepLo (t + 1)).wr rBwtStreak 0
  ({ s1 with bwt := { s1.bwt with decided := true } } : State).jsrUpdate t

/-- SKIP of the pending attempt; the digest streak counts consecutive attempts with DIGMM. -/
def State.skip (s : State) (digmm : Bool) : State :=
  let d := s.getF fBwtStreakDig
  let s1 := ((s.noteDecision 2 rBwtSkips).bumpF fBwtStreakSkips 1).setF fBwtStreakDig
    (if digmm then min 15 (d + 1) else 0)
  ({ s1 with bwt := { s1.bwt with decided := true } } : State).jsrUpdate s.committed

/-- A run of a device that is HALTED commits and skips nothing and issues no list, whatever its word gives
(R592): it ends in HALT, with the cause that halted the device. -/
def State.decision (s : State) (w : BitVec 512) : Decision :=
  match decideWord w s.nlog (s.getF fBwtStreakDig) (s.getF fBwtCfgDigmax) with
  | .halt c => .halt c
  | d => if s.getF fBwtStatusState = bwtHalted then .halt (s.getF fBwtStatusHcause) else d

/-- The effect of a decision on the reduced word. -/
def State.decided (s : State) (w : BitVec 512) : Decision → State
  | .halt c => (((s.setB fBwtDecHalted true).bump rBwtHalts 1).jsrUpdate s.committed).enterHalted c
  | .hold =>
    let s1 := (s.noteDecision 3 rBwtHolds).jsrUpdate s.committed
    if (s.rd (rBwtOwn 3)).getLsbD 3 then s1.bump rSavHoldcnt 1 else s1
  | .skip =>
    let t := s.stepA
    (((s.pshiftRaise ((cwFlags w).getLsbD 1)).skip ((cwFlags w).getLsbD 2)).abandonAll).issueList false t
  | .commit =>
    let t := s.stepA
    let s1 := s.afterCommit t.toNat (cwFld w 40 8) (cwFld w 48 8)
    s1.commit.issueList true t

/-- DECIDE: the reduced word is shown, and decided; the run is over. -/
def State.decideRun (s : State) (w : BitVec 512) : State :=
  let s1 := (({ s with bwt := { s.bwt with prog := none } } : State).showWord (rBwtWord 0) w).setB fBwtDecHalted false
  s1.decided w (s1.decision w)

/-- CONSENSUS_DECIDE (R586, R587). -/
def execConsensusDecide (s : State) : Host.Outcome State Fault Refusal :=
  .next (match s.progNext 4 with
    | some (e, _, t) => t.decideRun (t.creg (ceRegA e))
    | none => s)

/-! ### Resolution and the full swap (R593-R595, R622) -/

/-- A write of BWT_RESOLVE with GO. -/
def State.resolveStep (s : State) (v : W32) : State :=
  if ¬ s.bitF fBwtStatusUndec ∨ fBwtResolveStep16.get v ≠ s.stepA.toNat % 65536 then
    s.log ⟨13, 0x0400, unitDevice, false, false, 0, (s.stepA.setWidth 32 : W32).toNat⟩
  else
    let t := s.stepA
    let s1 := s.setB fBwtStatusUndec false
    if v.getLsbD 1 then
      let s2 := if s1.savState = savCapture then s1.endClutch 2 else s1
      s2.commit.issueList true t
    else ((s1.skip false).abandonAll).issueList false t

/-- BWT_RESOLVE (R593). -/
def execBwtResolve (r : Requester) (v : BitVec 32) (s : State) : Host.Outcome State Fault Refusal :=
  .next (s.bar0 r fun s => s.resolveStep v)

/-- A full swap of job slot A ends an armed job; it never clears UNDEC. No attempt is pending after it in
IDLE. -/
def State.bwtSwap (s : State) : State :=
  let s1 := if s.armed then (if s.undecided then s.setB fBwtStatusUndec true else s).setF fBwtStatusState bwtIdle
    else s
  if s1.getF fBwtStatusState = bwtIdle then
    { s1 with bwt := { s1.bwt with started := false, decided := false, prog := none } }
  else s1

/-! ### Arming (R573, R575, R604) -/

/-- Read the programme. -/
def State.readProgram (s : State) : List W64 × Bool × State :=
  let r := s.memRead .other 256 (s.rd64 rBwtCpbaseLo).toNat (8 * s.getF fBwtCplenEntries)
  let n := s.getF fBwtCplenEntries
  ((groupsOf 8 n r.1.bytes).map fun b => BitVec.ofNat 64 (leNat b), r.1.bad.isEmpty, r.2)

/-- Whether the fields of an entry before or at DECIDE hold allowed values. -/
def ceOk (e : W64) : Bool :=
  let k := ceKind e
  decide (1 ≤ k) && decide (k ≤ 4) && decide (ceRegA e ≤ 3) && (ceRegB e == 0xFF || decide (ceRegB e ≤ 3))
    && (cePorts e).all (fun p => decide (p ≤ 18)) && decide (ceSlot e ≤ 1023)
    && (if k = 2 then decide (1 ≤ ceHop e) && decide (ceHop e ≤ 16) else ceHop e == 0)

/-- Whether SLOT never falls along the programme. -/
def ceOrdered : List W64 → Bool
  | a :: b :: r => decide (ceSlot a ≤ ceSlot b) && ceOrdered (b :: r)
  | _ => true

/-- The entries up to DECIDE, if the programme is well formed. -/
def progOk (l : List W64) : Option (List W64) :=
  (l.findIdx? fun e => ceKind e == 4).bind fun i =>
    let run := l.take (i + 1)
    if run.all ceOk && ceOrdered run && (l.drop (i + 1)).all (fun e => ceKind e == 0) then some run else none

/-- Whether STARTCAL fails its check. -/
def State.startcalBad (s : State) (n : Nat) : Bool :=
  let x := s.cal n
  !(x.armed && x.owner == 1) || x.period % 32768 != 0 || x.phase % 32 != 0
    || (match s.secondCfg with
        | some c => c.startcal != n
        | none => false)

/-- Whether a port or a slot of an entry fails its check; `cs` is the consensus slot. -/
def State.portSlotBad (s : State) (cs : Nat) (e : W64) : Bool :=
  let l (p : Nat) : Nat := ((s.fabApplied.map (·.ldly)).getD []).getD p 1
  (ceKind e == 1 || ceKind e == 2) && (cePorts e).any fun p =>
    !s.portUp p ||
      (if ceKind e = 1 then s.txEntry p (cs + ceSlot e) != 0xFFFE
       else s.rxEntry p (cs + ceSlot e + 1024 - ceHop e + l p) != 0xFFFE)

/-- Whether a RECV breaks R585. -/
def State.hopBad (s : State) (e : W64) : Bool :=
  ceKind e == 2 && (cePorts e).any fun p => decide (32 * (32 * ceHop e - 16) < (s.port p).flight)

/-- Whether an entry of a list fails its check. -/
def State.listBadAt (s : State) (base n : Nat) : Bool :=
  n != 0 && decide (memTop < base + 128 * n)
    || (List.range n).any fun i => decide (7 < leNat (Tab.lookList (fun _ => 0) s.mem (base + 128 * i + 64) 1))

/-- The first arm check that fails (0 none), given the programme read. -/
def State.armError (s : State) (prog : Option (List W64)) : Nat :=
  let n := s.getF fBwtCfgStartcal
  let x := s.cal n
  let off := s.getF fBwtConsoffSlots
  let cs := x.phase / 32 + off
  if s.armed ∨ s.bitF fBwtStatusUndec then 1
  else if ¬ s.inJob then 2
  else if s.startcalBad n then 3
  else match prog with
    | none => 4
    | some l =>
      if x.period / 32 ≤ off + ceSlot (l.getLastD 0) then 4
      else if l.any (s.portSlotBad cs) then 5
      else if l.any s.hopBad then 6
      else if s.listBadAt (s.rd64 rBwtClbaseLo).toNat (s.getF fBwtCllenEntries)
          ∨ s.listBadAt (s.rd64 rBwtSlbaseLo).toNat (s.getF fBwtSllenEntries) then 7
      else if s.rd64 rBwtRstepLo ≠ s.committed + 1 then 8
      else if (s.rd64 rBwtResumetLo).toNat ≤ s.time then 9
      else 0

/-- Bellwether is armed: the record is loaded, the gates are rebuilt, CAL60 and CAL61 programmed. -/
def State.armNow (s : State) (l : List W64) : State :=
  let x := s.cal (s.getF fBwtCfgStartcal)
  let off := 32 * s.getF fBwtConsoffSlots
  let s1 := (s.armCal 60 x.period ((x.phase + off) % x.period) 3 s.time).armCal 61 x.period
    ((x.phase + off + x.period - 32) % x.period) 3 s.time
  let s2 := ((((s1.setF fBwtStatusState bwtArmed).setF fBwtStatusHcause 0).setF fBwtStatusArmerr 0).wr64
    rBwtStepLo (s.rd64 rBwtRstepLo)).wr rBwtStreak 0
  let s3 := (s2.setF fBwtStreakDig (s.jsrFld 21 1)).setF fBwtPswPshift (s.jsrFld 20 1)
  let s4 := s3.jsrLoad.gateRebuild (s.rd64 rBwtRstepLo).toNat 0 ((s.secondCfg.map (·.groups)).getD [])
  let s5 := (s4.setB fPwrCeilRhalt false).ceilShow
  { s5 with bwt := { s5.bwt with
    code := l, prog := none, cons := [], started := false, decided := false, barred := false } }

/-- A write of BWT_CTL.ARM. -/
def State.armWrite (s : State) : State :=
  let r := s.readProgram
  let prog := if r.2.1 then progOk r.1 else none
  let e := s.armError prog
  if e = 0 then r.2.2.armNow (prog.getD []) else r.2.2.setF fBwtStatusArmerr e

/-- ARM (R573). -/
def execBwtArm (r : Requester) (_v : BitVec 32) (s : State) : Host.Outcome State Fault Refusal :=
  .next (s.bar0 r State.armWrite)

/-- A write of BWT_CTL.DISARM. -/
def State.disarm (s : State) : State :=
  if s.getF fBwtStatusState = bwtHalted ∧ ¬ s.bitF fBwtStatusUndec then s.setF fBwtStatusState bwtIdle else s

/-- DISARM (R603). -/
def execBwtDisarm (r : Requester) (_v : BitVec 32) (s : State) : Host.Outcome State Fault Refusal :=
  .next (s.bar0 r State.disarm)

/-- HALTREQ (R591). -/
def execBwtHaltreq (r : Requester) (_v : BitVec 32) (s : State) : Host.Outcome State Fault Refusal :=
  .next (s.bar0 r fun s => s.pendHalt 7)

/-- Clear the lifetime counters. -/
def State.bwtClr (s : State) : State := s.clearRegs rBwtCommits 4 6

/-- BWT_CLRCNT (R603). -/
def execBwtClrcnt (r : Requester) (_v : BitVec 32) (s : State) : Host.Outcome State Fault Refusal :=
  .next (s.bar0 r State.bwtClr)

end Sys2Proof.Machine
end

