-- ==== Sys2Proof/Machine/Parse.lean ====
section
/-! DEFINITION. The bytes of an image read into typed sections: header, section table, and
each section's layout (R304-R327, R355, R356, R405, R451-R454, R493, R502-R505, R534-R537,
R548, R558, R559, R696). Reading is total; what a section must satisfy is checked apart. -/

namespace Sys2Proof.Machine

open Sys2Proof

/-! ### Fields -/

/-- A signed byte. -/
def sByte (b : List Byte) (o : Nat) : Int := toS 8 (fieldLe b o 1)

/-- Entries `f o` at offsets `base`, `base + st`, ... -/
def entries {α : Type} (base st n : Nat) (f : Nat → α) : List α := (List.range n).map fun i => f (base + st * i)

/-- Little-endian numbers of `w` bytes, one after another. -/
def nums (b : List Byte) (base w n : Nat) : List Nat := entries base w n fun o => fieldLe b o w

/-! ### Header and section table (R305, R306) -/

/-- A section-table entry. -/
structure Sect where
  typ : Nat
  idx : Nat
  off : Nat
  len : Nat
  rsv : Nat
  deriving DecidableEq, Repr

/-- NSECT. -/
def nsect (b : List Byte) : Nat := fieldLe b 12 2

/-- The section table. -/
def sects (b : List Byte) : List Sect :=
  entries 0x80 16 (nsect b) fun o =>
    ⟨fieldLe b o 2, fieldLe b (o + 2) 2, fieldLe b (o + 4) 4, fieldLe b (o + 8) 4, fieldLe b (o + 12) 4⟩

/-- The bytes of a section. -/
def Sect.bytes (b : List Byte) (e : Sect) : List Byte := (b.drop e.off).take e.len

/-- The sections of one type. -/
def sectsOf (b : List Byte) (t : Nat) : List Sect := (sects b).filter fun e => e.typ == t

/-- The bytes of the first section of a type. -/
def sectOf (b : List Byte) (t : Nat) : Option (List Byte) := (sectsOf b t).head?.map (Sect.bytes b)

/-- FLAGS, one bit. -/
def hdrFlag (b : List Byte) (n : Nat) : Bool := (fieldLe b 6 2).testBit n

/-- Where the SIGNATURE section begins: the length of the signed message (R328). -/
def sigOff (b : List Byte) : Nat := ((sectsOf b 0xF0).head?.map (·.off)).getD 0

/-! ### PHASE, CORE, ROUTE, BANKSCHED, CALENDAR -/

/-- PHASE (R310). -/
def readPhases (b : List Byte) : List PhaseCfg :=
  entries 0 16 (b.length / 16) fun o => ⟨fieldLe b o 1, fieldLe b (o + 1) 1, fieldLe b (o + 2) 1⟩

/-- A port binding (R312). -/
def readBind (v : Nat) : PortBind := ⟨v % 4096, v / 4096 % 4, v.testBit 14⟩

/-- A feeder entry (R297, R312). -/
def readFeeder (b : List Byte) (o : Nat) : FeederCfg :=
  let src := fieldLe b o 1
  ⟨src.testBit 6, src.testBit 7, src % 32, (fieldLe b (o + 1) 1).testBit 0, fieldLe b (o + 4) 4⟩

/-- A tap. -/
def readTap (b : List Byte) (o : Nat) : TapCfg :=
  let c := fieldLe b o 1
  ⟨c.testBit 0, c / 2 % 4, c.testBit 3, c.testBit 4, fieldLe b (o + 1) 1 % 32,
    toS 10 (fieldLe b (o + 2) 2 % 1024), fieldLe b (o + 4) 4⟩

/-- A scratchpad sink. -/
def readSink (b : List Byte) (o : Nat) : SinkCfg :=
  ⟨(fieldLe b (o + 8) 1).testBit 0, fieldLe b o 4, fieldLe b (o + 4) 4, fieldLe b (o + 9) 1 % 4⟩

/-- CORE (R311); `c` is the section's INDEX. -/
def readCore (c : Nat) (b : List Byte) : CoreCfg where
  core := c
  stage := fieldLe b 0 2
  savex := fieldLe b 4 1
  fherd := fieldLe b 5 1
  pxreg := fieldLe b 6 1 % 32
  vstrm := (nums b 8 4 4).map (BitVec.ofNat 32)
  calmask := BitVec.ofNat 64 (fieldLe b 0x18 8)
  depth := nums b 0x20 1 32
  binds := (nums b 0x40 2 128).map readBind
  feeders := entries 0x140 8 20 (readFeeder b)
  taps := entries 0x1E0 8 8 (readTap b)
  sinks := entries 0x220 16 4 (readSink b)
  bundles := (nums b 0x260 16 (fieldLe b 2 2)).map (BitVec.ofNat 128)

/-- A route (R314). -/
def readRoute (b : List Byte) (o : Nat) : RouteCfg where
  src := fieldLe b o 2
  dst := fieldLe b (o + 2) 2
  offs := BitVec.ofNat 16 (fieldLe b (o + 4) 2)
  slane := fieldLe b (o + 6) 1 % 4
  tile := (fieldLe b (o + 6) 1).testBit 2
  hops := ((nums b (o + 8) 2 12).take (fieldLe b (o + 7) 1)).map fun h => (h % 16, h / 16 % 4)

/-- ROUTE. -/
def readRoutes (b : List Byte) : List RouteCfg := entries 0 32 (b.length / 32) (readRoute b)

/-- An endpoint descriptor (R356). -/
def readEp (b : List Byte) (o : Nat) : EpCfg where
  typ := fieldLe b o 1
  kind := BitVec.ofNat 8 (fieldLe b (o + 1) 1)
  route := fieldLe b (o + 2) 2
  base := fieldLe b (o + 4) 4
  sbase := fieldLe b (o + 8) 4
  tfirst := fieldLe b (o + 12) 4
  str := (nums b (o + 16) 4 4).map (toS 32)
  cnt := nums b (o + 32) 2 4

/-- BANKSCHED (R355); INDEX is stack × 4 + phase. -/
def readSched (idx : Nat) (b : List Byte) : BankSchedCfg where
  stack := idx / 4
  phase := idx % 4
  entries := (nums b 16 16 (fieldLe b 0 2)).map (BitVec.ofNat 128)
  eps := entries (16 + 16 * fieldLe b 0 2) 48 (fieldLe b 2 2) (readEp b)

/-- CALENDAR (R493). -/
def readCals (b : List Byte) : List CalCfg :=
  entries 16 16 (fieldLe b 0 2) fun o => ⟨fieldLe b o 1, fieldLe b (o + 4) 4, fieldLe b (o + 8) 8⟩

/-! ### FABRIC (R502-R505) -/

/-- The entries of the slot tables, transmit or receive. -/
def readSlots (b : List Byte) (rx : Nat) : Tab (BitVec 16) :=
  ((List.range 19456).map fun k =>
    (k, BitVec.ofNat 16 (fieldLe b (0x40 + 4096 * (k / 1024) + 2048 * rx + 2 * (k % 1024)) 2))).filter
      fun e => e.2 != 0

/-- An allocation (R504). -/
def readAlloc (b : List Byte) (o : Nat) : AllocCfg :=
  ⟨fieldLe b o 2, fieldLe b (o + 2) 2, fieldLe b (o + 4) 2, fieldLe b (o + 6) 1⟩

/-- `n` templates from an offset on, each with its offset, and the offset after them. -/
def readTpls (b : List Byte) : Nat → Nat → List (Nat × List AllocCfg) × Nat
  | _, 0 => ([], 0)
  | o, n + 1 =>
    let k := fieldLe b o 2
    let r := readTpls b (o + 16 + 8 * k) n
    ((o, entries (o + 16) 8 k (readAlloc b)) :: r.1, if n = 0 then o + 16 + 8 * k else r.2)

/-- Where the landing channels begin. -/
def chansAt (b : List Byte) : Nat := if fieldLe b 0 2 = 0 then 0x13040 else (readTpls b 0x13040 (fieldLe b 0 2)).2

/-- Where the forwarding overrides begin. -/
def fwdAt (b : List Byte) : Nat := chansAt b + 8 * fieldLe b 2 2

/-- FABRIC. -/
def readFabric (b : List Byte) : FabricCfg where
  hdly := fieldLe b 6 2
  remtmo := fieldLe b 8 2
  cum := nums b 0x10 2 4
  ldly := nums b 0x18 1 19
  tx := readSlots b 0
  rx := readSlots b 1
  tpls := (readTpls b 0x13040 (fieldLe b 0 2)).1.map (·.2)
  chans := entries (chansAt b) 8 (fieldLe b 2 2) fun o => ⟨fieldLe b o 1, fieldLe b (o + 2) 2, fieldLe b (o + 4) 2⟩
  fwd := entries (fwdAt b) 4 (fieldLe b 4 2) fun o => (fieldLe b o 2, fieldLe b (o + 2) 1)

/-! ### HERD, PRESET, MULE -/

/-- A herd (R535). -/
def readHerd (b : List Byte) (o : Nat) : HerdCfg :=
  ⟨BitVec.ofNat 4 (fieldLe b o 1), nums b (o + 2) 1 4, nums b (o + 6) 1 4, fieldLe b (o + 12) 4⟩

/-- A collective (R537). -/
def readColl (b : List Byte) (o : Nat) : CollCfg where
  herd := fieldLe b o 1
  op := fieldLe b (o + 1) 1
  raw32 := fieldLe b (o + 2) 1 == 1
  red := fieldLe b (o + 3) 1
  fin := BitVec.ofNat 8 (fieldLe b (o + 4) 1)
  h := fieldLe b (o + 5) 1
  win := fieldLe b (o + 6) 1
  sfix := sByte b (o + 7)
  nt := fieldLe b (o + 8) 4
  chunk := fieldLe b (o + 12) 2
  nbuf := fieldLe b (o + 14) 1
  root := fieldLe b (o + 16) 2
  stg := fieldLe b (o + 18) 2
  inroute := fieldLe b (o + 20) 2
  outroute := fieldLe b (o + 22) 2
  start := fieldLe b (o + 24) 1
  close := fieldLe b (o + 25) 1
  linkbase := fieldLe b (o + 26) 2
  nlink := fieldLe b (o + 28) 1
  stream := BitVec.ofNat 32 (fieldLe b (o + 32) 4)
  tfirst := fieldLe b (o + 36) 4

/-- Where the collective entries begin. -/
def collsAt (b : List Byte) : Nat := 16 + 16 * fieldLe b 0 1

/-- Where the link entries begin. -/
def linksAt (b : List Byte) : Nat := collsAt b + 48 * fieldLe b 2 2

/-- HERD (R534). -/
def readHerds (b : List Byte) : HerdSect where
  herds := entries 16 16 (fieldLe b 0 1) (readHerd b)
  colls := entries (collsAt b) 48 (fieldLe b 2 2) (readColl b)
  links := entries (linksAt b) 8 (fieldLe b 4 2) fun o => ⟨fieldLe b o 2, fieldLe b (o + 2) 2, fieldLe b (o + 4) 2⟩

/-- PRESET (R548). -/
def readPreset (b : List Byte) : List PresetCfg :=
  entries 16 8 (fieldLe b 0 2) fun o => ⟨fieldLe b o 2, sByte b (o + 2)⟩

/-- A Mule table (R558). -/
def readMuleTab (b : List Byte) (o : Nat) : MuleCfg where
  herd := fieldLe b o 1
  k := fieldLe b (o + 1) 1
  nexp := fieldLe b (o + 2) 2
  q := fieldLe b (o + 4) 2
  nex := fieldLe b (o + 6) 1
  pw := fieldLe b (o + 7) 1
  i16 := (fieldLe b (o + 8) 1).testBit 0
  openCal := fieldLe b (o + 9) 1
  dclose := fieldLe b (o + 10) 1
  rclose := fieldLe b (o + 11) 1
  stg := fieldLe b (o + 12) 2
  dinroute := fieldLe b (o + 14) 2
  retroute := fieldLe b (o + 16) 2
  resroute := fieldLe b (o + 18) 2
  coutroute := fieldLe b (o + 20) 2
  gscale := sByte b (o + 22)
  rscale := sByte b (o + 23)
  cscale := sByte b (o + 24)
  expbase := fieldLe b (o + 26) 2
  tmax := fieldLe b (o + 28) 2
  twords := fieldLe b (o + 30) 2

/-- Where the expert entries begin. -/
def expertsAt (b : List Byte) : Nat := 16 + 64 * fieldLe b 0 1

/-- MULE. -/
def readMule (b : List Byte) : MuleSect where
  tabs := entries 16 64 (fieldLe b 0 1) (readMuleTab b)
  experts := entries (expertsAt b) 8 (fieldLe b 2 2) fun o => (fieldLe b o 2, fieldLe b (o + 2) 2)

/-! ### WINDOW, CHIPMAP, XLTWIN, STAGING, MGMT, GRANT -/

/-- WINDOW (R317). -/
def readWindows (b : List Byte) : List WindowCfg :=
  entries 0 48 (b.length / 48) fun o =>
    ⟨fieldLe b o 1, fieldLe b (o + 1) 1, (fieldLe b (o + 2) 1).testBit 0, fieldLe b (o + 4) 4,
      BitVec.ofNat 256 (fieldLe b (o + 16) 32)⟩

/-- NLOG, and where the variant entries begin (R322). -/
def nlogOf (b : List Byte) : Nat := fieldLe b 0 2 + 1

/-- Where the variant entries begin. -/
def variantsAt (b : List Byte) : Nat := (0x10 + 2 * nlogOf b + 2 * fieldLe b 2 2 + 15) / 16 * 16

/-- A variant (R323). -/
def readVariant (b : List Byte) (o : Nat) : VariantCfg :=
  ⟨fieldLe b o 1, fieldLe b (o + 2) 2, fieldLe b (o + 4) 1, fieldLe b (o + 6) 2,
    if fieldLe b (o + 12) 4 = 0 then none
    else some (readFabric ((b.drop (fieldLe b (o + 8) 4)).take (fieldLe b (o + 12) 4)))⟩

/-- CHIPMAP. -/
def readChipmap (b : List Byte) : ChipMapCfg where
  logical := nums b 0x10 2 (nlogOf b)
  spares := nums b (0x10 + 2 * nlogOf b) 2 (fieldLe b 2 2)
  variants := entries (variantsAt b) 16 (fieldLe b 4 2) (readVariant b)

/-- XLTWIN (R405). -/
def readXltwin (b : List Byte) : List WinCfg :=
  entries 16 32 (fieldLe b 0 2) fun o =>
    let f := fieldLe b (o + 1) 1
    ⟨fieldLe b o 1, f.testBit 0, f.testBit 1, f.testBit 2, fieldLe b (o + 4) 4, fieldLe b (o + 8) 4,
      fieldLe b (o + 16) 8⟩

/-- STAGING (R318). -/
def readStaging (b : List Byte) : List StagingCfg :=
  entries 0 16 (b.length / 16) fun o =>
    ⟨fieldLe b o 1, fieldLe b (o + 1) 1, fieldLe b (o + 2) 1, fieldLe b (o + 4) 4, fieldLe b (o + 8) 4⟩

/-- MGMT (R696). -/
def readMgmt (b : List Byte) : MgmtCfg where
  source := fieldLe b 0 1 == 1
  polls := entries 16 8 (fieldLe b 1 1) fun o =>
    ⟨fieldLe b o 1, BitVec.ofNat 8 (fieldLe b (o + 1) 1), fieldLe b (o + 2) 1, fieldLe b (o + 4) 2⟩

/-- GRANT (R319). -/
def readGrant (b : List Byte) : GrantCfg where
  cores := BitVec.ofNat 256 (fieldLe b 0 32)
  cal := BitVec.ofNat 64 (fieldLe b 0x20 8)
  offs := BitVec.ofNat 16 (fieldLe b 0x28 2)
  ports := (nums b 0x30 4 256).map (BitVec.ofNat 32)
  endpoints := (nums b 0x430 30 8).map (BitVec.ofNat 240)
  raw := b

/-! ### SECOND (R451-R454) -/

/-- Where the block entries begin. -/
def blocksAt (b : List Byte) : Nat := 64 + 16 * fieldLe b 2 1

/-- Where the schedule points begin. -/
def pointsAt (b : List Byte) : Nat := blocksAt b + 64 * fieldLe b 0 2

/-- A factor block (R453). -/
def readBlock (b : List Byte) (o : Nat) : BlockCfg where
  group := fieldLe b o 1
  lp := fieldLe b (o + 1) 1 % 4
  n := fieldLe b (o + 2) 1
  damp := fieldLe b (o + 3) 1
  imax := fieldLe b (o + 4) 1
  tol := fieldLe b (o + 5) 1
  rh := fieldLe b (o + 6) 1
  bshift := fieldLe b (o + 7) 1
  stack := fieldLe b (o + 8) 1
  rscale := sByte b (o + 9)
  kk := fieldLe b (o + 10) 1
  side := fieldLe b (o + 11) 1
  layer := fieldLe b (o + 12) 2
  bases := nums b (o + 16) 4 8
  hdr := fieldLe b (o + 48) 4

/-- SECOND. -/
def readSecond (b : List Byte) : SecondCfg where
  subk := fieldLe b 3 1
  substream := BitVec.ofNat 32 (fieldLe b 4 4)
  stepwaddr := fieldLe b 8 4
  startcal := fieldLe b 12 1
  lrs := sByte b 14
  nshift := fieldLe b 15 1
  stepwcores := BitVec.ofNat 256 (fieldLe b 16 32)
  mbmin := fieldLe b 48 2
  mbmax := fieldLe b 50 2
  mbinit := fieldLe b 52 2
  steermin := fieldLe b 54 2
  ndp := fieldLe b 56 2 + 1
  tpm := fieldLe b 58 2
  knum := fieldLe b 60 1
  gcap := fieldLe b 61 1
  groups := entries 64 16 (fieldLe b 2 1) fun o =>
    ⟨fieldLe b o 2, fieldLe b (o + 2) 2, fieldLe b (o + 4) 2, fieldLe b (o + 6) 2⟩
  blocks := entries (blocksAt b) 64 (fieldLe b 0 2) (readBlock b)
  points := entries (pointsAt b) 16 (fieldLe b 13 1) fun o => (fieldLe b o 8, fieldLe b (o + 8) 4)

/-! ### The image -/

/-- The image that a byte string holds. -/
def readImage (b : List Byte) : Image where
  slotb := hdrFlag b 0
  debug := hdrFlag b 1
  portex := hdrFlag b 2
  partImg := hdrFlag b 3
  id := BitVec.ofNat 64 (fieldLe b 16 8)
  baseId := BitVec.ofNat 64 (fieldLe b 24 8)
  seed := BitVec.ofNat 64 (fieldLe b 32 8)
  phases := ((sectOf b 1).map readPhases).getD []
  cores := (sectsOf b 2).map fun e => readCore e.idx (e.bytes b)
  routes := ((sectOf b 3).map readRoutes).getD []
  scheds := (sectsOf b 4).map fun e => readSched e.idx (e.bytes b)
  cals := ((sectOf b 5).map readCals).getD []
  fabric := (sectOf b 6).map readFabric
  herd := (sectOf b 7).map readHerds
  mule := (sectOf b 8).map readMule
  windows := ((sectOf b 9).map readWindows).getD []
  chipmap := (sectOf b 10).map readChipmap
  xltwin := (sectOf b 11).map readXltwin
  preset := ((sectOf b 12).map readPreset).getD []
  staging := ((sectOf b 13).map readStaging).getD []
  mgmt := (sectOf b 14).map readMgmt
  grant := (sectOf b 15).map readGrant
  second := (sectOf b 16).map readSecond

end Sys2Proof.Machine
end

