-- ==== Sys2Proof/Machine/SectCheck.lean ====
section
/-! DEFINITION. The fields of an image's header, section table and sections: reserved fields,
reserved encodings and ranges, section by section (R5, R6, R17, R304-R323, R355, R356, R405,
R406, R438, R451-R455, R493, R502-R506, R534-R539, R548, R558, R559, R696). -/

namespace Sys2Proof.Machine

open Sys2Proof

/-- Bytes that must be 0. -/
def zeros (b : List Byte) (o n : Nat) : Bool := fieldLe b o n == 0

/-- A value from `lo` to `hi`. -/
def within (lo hi v : Nat) : Bool := decide (lo ≤ v) && decide (v ≤ hi)

/-- Whether all entries of a table satisfy a check. -/
def allAt (base st n : Nat) (p : Nat → Bool) : Bool := (List.range n).all fun i => p (base + st * i)

/-- Whether a list holds no value twice. -/
def distinct (l : List Nat) : Bool := decide l.Nodup

/-! ### Header and section table (R17, R304-R308, R398) -/

/-- Whether the reserved header fields are 0. -/
def okHeader (b : List Byte) : Bool :=
  decide (fieldLe b 6 2 < 16) && zeros b 14 2 && (hdrFlag b 3 || zeros b 24 8) && zeros b 40 88

/-- Whether a section type exists, and an INDEX has a meaning for it. -/
def okType (e : Sect) : Bool :=
  (within 1 0x10 e.typ || e.typ == 0xF0) &&
    decide (e.idx < if e.typ = 2 then 256 else if e.typ = 4 then 32 else 1)

/-- Whether each section lies after the one before it. -/
def inOrder : Nat → List Sect → Bool
  | _, [] => true
  | o, e :: r => decide (o ≤ e.off) && inOrder (e.off + e.len) r

/-- Whether the offsets ascend. -/
def ascending : List Nat → Bool
  | a :: b :: r => decide (a < b) && ascending (b :: r)
  | _ => true

/-- The BANKSCHED sections that the declared phases ask for (R310). -/
def schedsNeeded (b : List Byte) : List Nat :=
  (List.range 8).flatMap fun d => (List.range (((sectOf b 1).map fun p => p.length / 16).getD 0)).map fun p => 4 * d + p

/-- Whether the section table is valid. -/
def okTable (b : List Byte) : Bool :=
  let l := sects b
  let has (t : Nat) : Bool := !(sectsOf b t).isEmpty
  within 1 4096 (nsect b) && decide (0x80 + 16 * nsect b ≤ b.length) && decide (b.length ≤ 2 ^ 28)
    && l.all (fun e => okType e && e.rsv == 0 && e.off % 16 == 0 && decide (e.off + e.len ≤ b.length))
    && ascending (l.map (·.off)) && inOrder (0x80 + 16 * nsect b) l
    && distinct (l.map fun e => e.typ * 65536 + e.idx)
    && (match l.getLast? with
        | some e => e.typ == 0xF0 && e.off + e.len == b.length && e.len == 208
        | none => false)
    && (hdrFlag b 3 || has 1) && has 12 == hdrFlag b 2
    && (hdrFlag b 3 || (schedsNeeded b).all fun n => (sectsOf b 4).any fun e => e.idx == n)
    && (hdrFlag b 3 || !hdrFlag b 0 || has 11)

/-! ### Sections -/

/-- PHASE. -/
def okPhase (b : List Byte) : Bool :=
  b.length % 16 == 0 && within 1 4 (b.length / 16) &&
    allAt 0 16 (b.length / 16) fun o =>
      within 8 17 (fieldLe b o 1) && within 0 63 (fieldLe b (o + 2) 1) && zeros b (o + 3) 13

/-- A feeder entry. -/
def okFeeder (b : List Byte) (o : Nat) : Bool :=
  let f := readFeeder b o
  !(fieldLe b o 1).testBit 5 && decide (fieldLe b (o + 1) 1 < 2) && zeros b (o + 2) 2
    && (f.decl || zeros b o 8) && (!f.fromPort || f.base == 0)

/-- A tap entry. -/
def okTap (b : List Byte) (o : Nat) : Bool :=
  let t := readTap b o
  decide (fieldLe b o 1 < 32) && t.cls != 3 && decide (fieldLe b (o + 1) 1 < 32)
    && decide (fieldLe b (o + 2) 2 < 1024) && (t.layerMode || t.table == 0)

/-- A sink entry. -/
def okSink (b : List Byte) (o : Nat) : Bool :=
  decide (fieldLe b (o + 8) 1 < 2) && decide (fieldLe b (o + 9) 1 < 4) && zeros b (o + 10) 6

/-- A port binding. -/
def okBind (v : Nat) : Bool := decide (v < 0x8000) && (v / 4096 % 4 != 0 || v == 0)

/-- Whether a port is bound in some plane. -/
def CoreCfg.bound (c : CoreCfg) (p : Nat) : Bool :=
  (List.range 4).any fun q => ((c.binds[32 * q + p]?).map (·.user)).getD 0 != 0

/-- CORE. -/
def okCore (b : List Byte) : Bool :=
  let c := readCore 0 b
  within 1 4096 (fieldLe b 2 2) && b.length == 0x260 + 16 * fieldLe b 2 2 && decide (c.stage < 256)
    && decide (c.savex ≤ 64) && (decide (c.fherd < 64) || c.fherd == 0xFF) && decide (fieldLe b 6 1 < 32)
    && zeros b 7 1 && (nums b 0x40 2 128).all okBind && allAt 0x140 8 20 (okFeeder b)
    && allAt 0x1E0 8 8 (okTap b) && allAt 0x220 16 4 (okSink b)
    && (List.range 32).all fun p => c.bound p || c.depth.getD p 0 == 0

/-- An endpoint code (R315). -/
def okCode (code nstg : Nat) : Bool :=
  match code / 8192 with
  | 0 => true
  | 1 => decide (code % 8192 < 1920)
  | 2 => decide (code % 8192 < nstg)
  | 3 => decide (code % 8192 < 1024)
  | 4 => decide (code % 8192 < 21)
  | _ => false

/-- A route entry; `nstg` is the number of staging regions. -/
def okRoute (b : List Byte) (nstg o : Nat) : Bool :=
  let n := fieldLe b (o + 7) 1
  okCode (fieldLe b o 2) nstg && okCode (fieldLe b (o + 2) 2) nstg && decide (fieldLe b (o + 6) 1 < 8)
    && within 1 12 n && (nums b (o + 8) 2 n).all (fun h => decide (h < 64) && decide (h % 16 ≤ 5))
    && zeros b (o + 8 + 2 * n) (24 - 2 * n)

/-- ROUTE. -/
def okRoutes (b : List Byte) (nstg : Nat) : Bool :=
  b.length % 32 == 0 && decide (b.length ≤ 32 * 4096) && allAt 0 32 (b.length / 32) (okRoute b nstg)

/-- An endpoint descriptor. -/
def okEp (b : List Byte) (o : Nat) : Bool :=
  let e := readEp b o
  decide (e.typ ≤ 3) && decide (e.kind.toNat < 64) && zeros b (o + 40) 8
    && (!within 1 2 e.typ || (e.str.all fun v => v % 256 == 0) && (e.cnt.all fun v => decide (1 ≤ v))
      && (e.kind.getLsbD 0 || e.sbase == 0))

/-- BANKSCHED. -/
def okSched (b : List Byte) : Bool :=
  let p := fieldLe b 0 2
  let n := fieldLe b 2 2
  within 1 8192 p && decide (n ≤ 240) && zeros b 4 12 && b.length == 16 + 16 * p + 48 * n
    && allAt (16 + 16 * p) 48 n (okEp b)

/-- CALENDAR. -/
def okCals (b : List Byte) : Bool :=
  let n := fieldLe b 0 2
  within 1 60 n && zeros b 2 14 && b.length == 16 + 16 * n && allAt 16 16 n fun o =>
    decide (fieldLe b o 1 < 64) && zeros b (o + 1) 3 && decide (1 ≤ fieldLe b (o + 4) 4)
      && decide (fieldLe b (o + 8) 8 < fieldLe b (o + 4) 4)

/-! #### FABRIC (R502-R506) -/

/-- An allocation. -/
def okAlloc (b : List Byte) (o : Nat) : Bool :=
  let a := readAlloc b o
  decide (a.cls ≤ 2) && decide (1 ≤ a.count) && zeros b (o + 7) 1 && decide (a.chan < 4096)
    && (a.cls != 2 || a.chan == 0 && a.route == 0)

/-- Whether the EXACT allocations of a template come first. -/
def exactFirst (l : List AllocCfg) : Bool := (l.dropWhile fun a => a.cls == 0).all fun a => a.cls != 0

/-- A template at an offset. -/
def okTpl (b : List Byte) (t : Nat × List AllocCfg) : Bool :=
  zeros b (t.1 + 2) 14 && allAt (t.1 + 16) 8 t.2.length (okAlloc b) && exactFirst t.2

/-- The slot-table entries of a port. -/
def FabricCfg.slotsOf (f : FabricCfg) (rx : Bool) (p : Nat) : List Nat :=
  (List.range 1024).map fun n => (Tab.look (fun _ => 0) (if rx then f.rx else f.tx) (1024 * p + n)).toNat

/-- The cells of a table entry: those of its template, and none of IDLE (0). -/
def FabricCfg.cells (f : FabricCfg) : Nat → Nat
  | 0 => 0
  | t + 1 => sumNat ((f.tpls.getD t []).map (·.count))

/-- Whether the tables of a port hold entries that exist, templates that fit, and a MAINT slot. -/
def FabricCfg.okPort (f : FabricCfg) (p : Nat) : Bool :=
  (f.slotsOf false p).contains 0xFFFF &&
    (f.slotsOf false p ++ f.slotsOf true p).all fun v =>
      decide (0xFFFE ≤ v) || decide (v ≤ f.tpls.length) && decide (f.cells v ≤ if p < 16 then 169 else 300)

/-- The landing words of a port. -/
def FabricCfg.landWords (f : FabricCfg) (p : Nat) : Nat := sumNat ((f.chans.filter fun c => c.port == p).map (·.depth))

/-- FABRIC. -/
def okFabric (b : List Byte) : Bool :=
  let f := readFabric b
  let ts := (readTpls b 0x13040 (fieldLe b 0 2)).1
  decide (fieldLe b 0 2 ≤ 4095) && decide (fieldLe b 2 2 ≤ 4096) && decide (fieldLe b 4 2 ≤ 256)
    && decide (1 ≤ f.hdly) && decide (64 ≤ f.remtmo) && zeros b 10 6 && f.cum.all (fun v => decide (v ≤ 4096))
    && f.ldly.all (within 1 16) && zeros b 0x2B 21 && b.length == fwdAt b + 4 * fieldLe b 4 2
    && ts.all (okTpl b)
    && allAt (chansAt b) 8 (fieldLe b 2 2) (fun o => decide (fieldLe b o 1 < 19) && zeros b (o + 1) 1
      && within 1 8192 (fieldLe b (o + 4) 2) && zeros b (o + 6) 2)
    && allAt (fwdAt b) 4 (fieldLe b 4 2) (fun o => decide (fieldLe b (o + 2) 1 < 19) && zeros b (o + 3) 1)
    && (List.range 19).all fun p => f.okPort p && decide (f.landWords p ≤ if p < 16 then 4096 else 8192)

/-! #### HERD, PRESET and MULE -/

/-- A herd entry. -/
def okHerd (b : List Byte) (o : Nat) : Bool :=
  let h := readHerd b o
  decide (fieldLe b o 1 < 16) && zeros b (o + 1) 1 && zeros b (o + 10) 2 &&
    (List.range 4).all fun a =>
      if h.axmask.getLsbD a then decide (h.lo.getD a 0 < 16) && within 1 (16 - h.lo.getD a 0) (h.ext.getD a 0)
      else h.lo.getD a 0 == 0 && h.ext.getD a 0 == 0

/-- The final rounding of a collective (R537): FIN, H and SFIX. -/
def okFin (c : CollCfg) : Bool :=
  let w := fmtWidth (c.fin.toNat % 4)
  if c.raw32 ∨ 3 ≤ c.op then c.fin == 0 && c.h == 0 && c.sfix == 0
  else decide (c.fin.toNat < 32) &&
    (if c.fin.getLsbD 2 then decide (c.h + 3 ≤ w) && c.sfix == 0 else c.h == 0)

/-- A collective entry. -/
def okColl (b : List Byte) (o : Nat) : Bool :=
  let c := readColl b o
  decide (c.herd < fieldLe b 0 1) && within 1 4 c.op && decide (fieldLe b (o + 2) 1 ≤ 1)
    && decide (c.red ≤ if c.raw32 ∧ c.op ≤ 2 then 2 else 0) && okFin c
    && decide (c.win ≤ if c.raw32 then 0 else 3) && decide (1 ≤ c.nt)
    && within 1 (if c.raw32 then 4096 else 64) c.chunk && within 2 16 c.nbuf && zeros b (o + 15) 1
    && (c.op == 4 || c.root == 0) && decide (c.start < 64) && decide (c.close < 64)
    && decide (c.linkbase + c.nlink ≤ fieldLe b 4 2) && zeros b (o + 29) 3 && zeros b (o + 40) 8

/-- HERD. -/
def okHerds (b : List Byte) : Bool :=
  within 1 64 (fieldLe b 0 1) && zeros b 1 1 && decide (fieldLe b 2 2 ≤ 1024) && decide (fieldLe b 4 2 ≤ 16384)
    && zeros b 6 10 && b.length == linksAt b + 8 * fieldLe b 4 2
    && allAt 16 16 (fieldLe b 0 1) (okHerd b) && allAt (collsAt b) 48 (fieldLe b 2 2) (okColl b)
    && allAt (linksAt b) 8 (fieldLe b 4 2) (fun o => zeros b (o + 6) 2)

/-- Whether a collective may have a PRESET entry. -/
def CollCfg.canPreset (c : CollCfg) : Bool := !c.raw32 && decide (c.op ≤ 2) && c.win == 3 && !c.fin.getLsbD 2

/-- PRESET, beside the collectives of the image. -/
def okPreset (b : List Byte) (cs : List CollCfg) : Bool :=
  let n := fieldLe b 0 2
  within 1 1024 n && zeros b 2 14 && b.length == 16 + 8 * n && distinct (nums b 16 8 n |>.map (· % 65536))
    && allAt 16 8 n fun o => ((cs[fieldLe b o 2]?).map (·.canPreset)).getD false && zeros b (o + 3) 5

/-- A Mule table. -/
def okMuleTab (b : List Byte) (o : Nat) : Bool :=
  let m := readMuleTab b o
  within 1 8 m.k && within 1 4096 m.nexp && within 1 1024 m.q && within 1 64 m.nex && within 1 64 m.pw
    && decide (fieldLe b (o + 8) 1 < 2) && decide (m.openCal < 64) && decide (m.dclose < 64)
    && decide (m.rclose < 64) && zeros b (o + 25) 1 && within 1 4096 m.tmax
    && decide (2 * (m.pw + 1) ≤ m.twords) && zeros b (o + 32) 32 && decide (m.expbase + m.nexp ≤ fieldLe b 2 2)

/-- MULE. -/
def okMule (b : List Byte) : Bool :=
  within 1 16 (fieldLe b 0 1) && zeros b 1 1 && within 1 65535 (fieldLe b 2 2) && zeros b 4 12
    && b.length == expertsAt b + 8 * fieldLe b 2 2 && allAt 16 64 (fieldLe b 0 1) (okMuleTab b)
    && allAt (expertsAt b) 8 (fieldLe b 2 2) (fun o => zeros b (o + 4) 4)

/-! #### WINDOW, CHIPMAP, XLTWIN, STAGING, MGMT, GRANT, SIGNATURE -/

/-- WINDOW; `m` is the smallest MINMULT of the phases (R438). -/
def okWindows (b : List Byte) (m : Nat) : Bool :=
  b.length % 48 == 0 && decide (b.length ≤ 48 * 64) && allAt 0 48 (b.length / 48) fun o =>
    decide (fieldLe b o 1 < 64) && decide (fieldLe b (o + 1) 1 < 64) && decide (fieldLe b (o + 2) 1 < 2)
      && zeros b (o + 3) 1 && zeros b (o + 8) 8 && decide (1450 ≤ fieldLe b (o + 4) 4 * m)

/-- A variant entry. -/
def okVariant (b : List Byte) (o : Nat) : Bool :=
  let v := readVariant b o
  let toff := fieldLe b (o + 8) 4
  let tlen := fieldLe b (o + 12) 4
  decide (v.kind ≤ 2) && zeros b (o + 1) 1 && zeros b (o + 5) 1
    && (if v.kind = 2 then decide (v.port < 19) else v.port == 0) && (v.kind == 1 || v.spare == 0)
    && (tlen == 0 || decide (toff + tlen ≤ b.length) && okFabric ((b.drop toff).take tlen))

/-- CHIPMAP. -/
def okChipmap (b : List Byte) : Bool :=
  decide (fieldLe b 2 2 ≤ 4096) && within 1 4096 (fieldLe b 4 2) && zeros b 6 10
    && decide (variantsAt b + 16 * fieldLe b 4 2 ≤ b.length) && zeros b (variantsAt b) 1
    && allAt (variantsAt b) 16 (fieldLe b 4 2) (okVariant b)

/-- The image address at which a window ends. -/
def WinCfg.stop (w : WinCfg) : Nat := w.ipage * 2 ^ 21 + w.npage * (if w.big then 2 ^ 30 else 2 ^ 21)

/-- Whether two windows cover one image address. -/
def WinCfg.meets (v w : WinCfg) : Bool :=
  v.stack == w.stack && decide (v.ipage * 2 ^ 21 < w.stop) && decide (w.ipage * 2 ^ 21 < v.stop)

/-- XLTWIN. -/
def okXltwin (b : List Byte) : Bool :=
  let n := fieldLe b 0 2
  let l := readXltwin b
  within 1 256 n && zeros b 2 14 && b.length == 16 + 32 * n
    && allAt 16 32 n (fun o => decide (fieldLe b o 1 < 8) && decide (fieldLe b (o + 1) 1 < 8) && zeros b (o + 2) 2
      && zeros b (o + 12) 4 && zeros b (o + 24) 8)
    && l.all (fun w => (!w.big || w.ipage % 512 == 0) && decide (1 ≤ w.npage) && decide (w.vbase < 2 ^ 48)
      && w.vbase % (if w.big then 2 ^ 30 else 2 ^ 21) == 0 && decide (w.stop ≤ 2 ^ 36))
    && decide (l.Pairwise fun v w => v.meets w = false) && decide (sumNat (l.map (·.npage)) ≤ 65536)

/-- STAGING. -/
def okStaging (b : List Byte) : Bool :=
  b.length % 16 == 0 && decide (b.length ≤ 16 * 1024)
    && allAt 0 16 (b.length / 16) (fun o => zeros b (o + 3) 1 && zeros b (o + 12) 4)
    && (readStaging b).all fun g => decide (g.cluster < 32) && decide (g.owner ≤ 2)
      && decide (g.owneridx < if g.owner = 0 then 1 else if g.owner = 1 then 64 else 16)
      && g.offset % 256 == 0 && g.length % 256 == 0 && decide (256 ≤ g.length)
      && decide (g.offset + g.length ≤ 0x800000)

/-- MGMT. -/
def okMgmt (b : List Byte) : Bool :=
  decide (fieldLe b 0 1 < 2) && decide (fieldLe b 1 1 ≤ 32) && zeros b 2 14 && b.length == 16 + 8 * fieldLe b 1 1
    && allAt 16 8 (fieldLe b 1 1) fun o => decide (fieldLe b o 1 < 128) && within 1 32 (fieldLe b (o + 2) 1)
      && zeros b (o + 3) 1 && within 10 60000 (fieldLe b (o + 4) 2) && zeros b (o + 6) 2

/-- GRANT. -/
def okGrant (b : List Byte) : Bool := b.length == 0x520 && zeros b 0x2A 6

/-- SIGNATURE. -/
def okSig (b : List Byte) : Bool := zeros b 1 7 && zeros b 105 7

/-! #### SECOND (R451-R455) -/

/-- The 256 KiB rows that `n` bytes of every engine take. -/
def engSpan (n : Nat) : Nat := (n + 4095) / 4096

/-- The ranges of a block, in 256 KiB rows of its stack: factor, snapshot, root and candidate,
each with its mantissas in I16S and its scales. -/
def BlockCfg.ranges (k : BlockCfg) : List (Nat × Nat) :=
  let t := (k.n * k.n + 63) / 64
  (List.range 8).map fun i =>
    let a := k.bases.getD i 0
    (a, a + engSpan (if i % 2 = 0 then 2048 * t else t))

/-- Whether two blocks' ranges overlap. -/
def BlockCfg.meets (a b : BlockCfg) : Bool :=
  a.stack == b.stack && a.ranges.any fun x => b.ranges.any fun y => decide (x.1 < y.2) && decide (y.1 < x.2)

/-- A block entry. -/
def okBlock (b : List Byte) (s : SecondCfg) (o : Nat) : Bool :=
  let k := readBlock b o
  decide (k.group < s.groups.length) && decide (fieldLe b (o + 1) 1 < 4) && [8, 16, 32, 64].contains k.n
    && within 6 20 k.damp && within 4 64 k.imax && within 8 20 k.tol && decide (k.rh ≤ 13) && decide (k.bshift ≤ 15)
    && decide (k.stack < 8) && decide (k.side < 2) && zeros b (o + 14) 2 && zeros b (o + 52) 12
    && decide ((k.damp + 2 ^ k.lp - 1) / 2 ^ k.lp ≤ 10) && decide (k.kk ≤ 16) && decide (32 * k.n * 2 ^ k.kk ≤ 65536)
    && (s.mbmin * 2 ^ s.tpm * s.ndp) % 2 ^ (s.subk + k.kk) == 0

/-- A group entry. -/
def okGroup (b : List Byte) (o : Nat) : Bool :=
  let lag := fieldLe b (o + 4) 2
  within 2 65534 lag && within (lag + 1) (fieldLe b (o + 6) 2) (fieldLe b o 2)
    && decide (fieldLe b (o + 2) 2 < fieldLe b o 2) && zeros b (o + 8) 8

/-- SECOND. -/
def okSecond (b : List Byte) : Bool :=
  let s := readSecond b
  let nblk := fieldLe b 0 2
  decide (nblk ≤ 4096) && within 1 64 (fieldLe b 2 1) && decide (s.subk ≤ 12) && s.stepwaddr % 256 == 0
    && decide (s.startcal < 64) && within 1 64 (fieldLe b 13 1) && decide (s.nshift ≤ 15)
    && within 1 4096 s.mbmin && within s.mbmin 4096 s.mbmax && within s.mbmin s.mbmax s.mbinit
    && decide (1 ≤ s.steermin) && decide (s.tpm ≤ 20) && decide (s.gcap ≤ 30) && zeros b 62 2
    && b.length == pointsAt b + 16 * fieldLe b 13 1 && allAt 64 16 (fieldLe b 2 1) (okGroup b)
    && allAt (blocksAt b) 64 nblk (okBlock b s) && decide (s.blocks.Pairwise fun x y => x.meets y = false)
    && ascending (s.points.map (·.1)) && s.points.all (fun p => decide (p.2 < 2 ^ 31))
    && allAt (pointsAt b) 16 (fieldLe b 13 1) (fun o => zeros b (o + 12) 4)

/-! ### The whole image (R309) -/

/-- Whether every section's own fields satisfy their rules. `m` is the smallest MINMULT, `nstg` the
number of staging regions and `cs` the collectives of the image, or of the image that a partial one
modifies. -/
def okFields (b : List Byte) (m nstg : Nat) (cs : List CollCfg) : Bool :=
  (sects b).all fun e =>
    let x := e.bytes b
    match e.typ with
    | 1 => okPhase x
    | 2 => okCore x
    | 3 => okRoutes x nstg
    | 4 => okSched x
    | 5 => okCals x
    | 6 => okFabric x
    | 7 => okHerds x
    | 8 => okMule x
    | 9 => okWindows x m
    | 10 => okChipmap x
    | 11 => okXltwin x
    | 12 => okPreset x cs
    | 13 => okStaging x
    | 14 => okMgmt x
    | 15 => okGrant x
    | 16 => okSecond x
    | 0xF0 => okSig x
    | _ => false

end Sys2Proof.Machine
end

