-- ==== Sys2Proof/Machine/LoadCheck.lean ====
section
/-! DEFINITION. The checks of a load beyond single fields: cores, queues, routes, bank schedules,
taps, shared resources, slot B's grant, the chip map and partial images, in the order of the
status codes (R263, R276, R287, R289, R309-R326, R341, R350, R354, R356, R359, R434, R539, R559). -/

namespace Sys2Proof.Machine

open Sys2Proof

/-! ### The device as the image would make it -/

/-- The logical table under a variant (R324). -/
def ChipMapCfg.table (m : ChipMapCfg) (variant : Nat) : List Nat :=
  match m.variants[variant]? with
  | some v => if v.kind = 1 then m.logical.map fun x => if x = v.failed then v.spare else x else m.logical
  | none => m.logical

/-- The device with an image in a job slot. -/
def State.withImage (s : State) (j : JobSlot) (i : Image) (variant : Nat) : State :=
  if j = .a then { s with imgA := some i, logical := i.chipmap.map fun m => m.table variant }
  else { s with imgB := some i }

/-- What a partial image makes of the image that it modifies (R341). -/
def Image.merge (i : Image) (p : Image) : Image :=
  { i with
    id := p.id
    cores := i.cores.map fun c => ((p.cores.find? fun d => d.core == c.core).getD c) }

/-- The image that a load would put in force. -/
def State.resultImage (s : State) (j : JobSlot) (i : Image) : Image :=
  if i.partImg then ((s.image j).map fun a => a.merge i).getD i else i

/-- The image of the other job slot that would stay beside it (R340). -/
def State.beside (s : State) (j : JobSlot) (i : Image) : Option Image :=
  if j = .b then s.imgA
  else if i.partImg ∨ (i.grant.map (·.raw)) = (s.imgA.bind (·.grant)).map (·.raw) then s.imgB
  else none

/-! ### Routes (R263, R275, R276, R314-R316) -/

/-- Where an endpoint attaches: die, cluster, its own link, and the lanes of that link. -/
structure Attach where
  die : Nat
  cl : Nat
  link : Nat
  lanes : Nat
  deriving DecidableEq, Repr

/-- The attachment of an endpoint code. -/
def Image.attach (i : Image) (code : Nat) : Attach :=
  let x := epIdx code
  match epKind code with
  | 0 => ⟨x / 32 / 128, x / 32 % 128 / 8, x / 32, 4⟩
  | 1 => ⟨x / 240 / 4, [0, 3, 12, 15].getD (x / 240 % 4) 0, 300 + x / 240, 8⟩
  | 2 =>
    let c := ((i.staging[x]?).map (·.cluster)).getD 0
    ⟨c / 16, c % 16, 400 + c, 2⟩
  | 3 => ⟨x / 4 / 128, x / 4 % 128 / 8, x / 4, 4⟩
  | _ =>
    if x < 16 then ⟨x % 2, [1, 2, 4, 7, 8, 11, 13, 14].getD (x / 2) 0, 500 + x, 1⟩
    else ⟨if x = 17 ∨ x = 20 then 1 else 0, [10, 6, 9, 6, 9].getD (x - 16) 0, 500 + x, 4⟩

/-- The cluster beyond the die bridge, where the cluster has bridge lanes. -/
def overBridge (die cl : Nat) : Option Nat :=
  if die = 0 then (if cl % 4 = 3 then some (cl - 3) else none) else if cl % 4 = 0 then some (cl + 3) else none

/-- The neighbour of a cluster in a direction of R314. -/
def meshStep (cl out : Nat) : Option Nat :=
  match out with
  | 0 => if 4 ≤ cl then some (cl - 4) else none
  | 1 => if cl % 4 < 3 then some (cl + 1) else none
  | 2 => if cl < 12 then some (cl + 4) else none
  | 3 => if 0 < cl % 4 then some (cl - 1) else none
  | _ => none

/-- The links of a route from a switch on, each with its lane and how much later than at the source
its offset falls; none where the path is not a route to `d`. -/
def hopLinks (d : Attach) (die cl b i : Nat) : List (Nat × Nat) → Option (List (Nat × Nat × Nat))
  | [] => none
  | (out, lane) :: r =>
    let delta := 2 * (i + 1) + 6 * b
    if out = 4 then
      if r = [] ∧ die = d.die ∧ cl = d.cl ∧ lane < d.lanes then some [(2000 + d.link, lane, delta)] else none
    else
      let link := 4000 + (16 * die + cl) * 8 + out
      if out = 5 then
        match overBridge die cl with
        | some c => if b = 0 then (hopLinks d (1 - die) c 1 (i + 1) r).map fun l => (link, lane, delta) :: l else none
        | none => none
      else
        match meshStep cl out with
        | some c => (hopLinks d die c b (i + 1) r).map fun l => (link, lane, delta) :: l
        | none => none

/-- The links of a route; none where it breaks R316. -/
def Image.links (i : Image) (r : RouteCfg) : Option (List (Nat × Nat × Nat)) :=
  let a := i.attach r.src
  if r.offs = 0 ∨ a.lanes ≤ r.slane then none
  else (hopLinks (i.attach r.dst) a.die a.cl 0 0 r.hops).map fun l => (1000 + a.link, r.slane, 0) :: l

/-- The offsets that a route may send in. -/
def RouteCfg.offsets (r : RouteCfg) : List Nat := (List.range 16).filter fun o => r.offs.getLsbD o

/-- The lane-offsets that a route uses, each as one number. -/
def Image.laneOffs (i : Image) (r : RouteCfg) : List Nat :=
  ((i.links r).getD []).flatMap fun l => r.offsets.map fun o => (l.1 * 4 + l.2.1) * 16 + (o + l.2.2) % 16

/-- The offsets that a route uses on its links. -/
def Image.usesOff (i : Image) (offs : BitVec 16) : Bool :=
  i.routes.any fun r => (i.laneOffs r).any fun k => offs.getLsbD (k % 16)

/-- Whether a route's DST is a sink that is declared, or no sink. -/
def Image.okSinkDst (i : Image) (r : RouteCfg) : Bool :=
  epKind r.dst != 3 || ((i.cores.find? fun c => c.core == epIdx r.dst / 4).bind fun c =>
    (c.sinks[epIdx r.dst % 4]?).map (·.en)).getD false

/-- R316 and R276. -/
def Image.okRoutes (i : Image) : Bool :=
  i.routes.all (fun r => (i.links r).isSome && i.okSinkDst r) && distinct (i.routes.flatMap i.laneOffs)

/-! ### Fields that depend on other sections or on the device (SECT_FIELD) -/

/-- Whether an image address range lies in a job slot's scratchpad range of a core. -/
def State.inSpad (s : State) (j : JobSlot) (c a n : Nat) : Bool := s.spadOk j c a n

/-- Whether a TILE route ends at a sink. -/
def Image.tileSink (i : Image) (c k : Nat) : Bool := i.routes.any fun r => r.dst == 3 * 8192 + 4 * c + k && r.tile

/-- The feeder bases, sinks and tap tables of a core (R434). -/
def State.okSpad (s : State) (j : JobSlot) (i : Image) (c : CoreCfg) : Bool :=
  c.feeders.all (fun f => !f.decl || f.fromPort || s.inSpad j c.core f.base 1)
    && c.taps.all (fun t => !(t.en && t.layerMode) || s.inSpad j c.core t.table 1)
    && (List.range 4).all fun k =>
      match c.sinks[k]? with
      | some x => !x.en || s.inSpad j c.core x.mbase 1 && (!i.tileSink c.core k || s.inSpad j c.core x.sbase 1)
      | none => true

/-- Whether every schedule of a stack describes an endpoint (R356). -/
def Image.described (i : Image) (d n : Nat) : Bool :=
  (i.scheds.filter fun b => b.stack == d).all fun b => ((b.eps[n]?).map (·.typ)).getD 0 != 0

/-- The endpoints that a schedule names. -/
def BankSchedCfg.named (b : BankSchedCfg) : List Nat :=
  (b.entries.flatMap fun e => (List.range 16).map fun g => (e.extractLsb' (8 * g) 8).toNat).filterMap fun c =>
    if 16 ≤ c then some (c - 16) else none

/-- Whether every endpoint that a route or a schedule names is described (R356). -/
def Image.okEndpoints (i : Image) : Bool :=
  i.routes.all (fun r => [r.src, r.dst].all fun c => epKind c != 1 || i.described (epIdx c / 240) (epIdx c % 240))
    && i.scheds.all fun b => b.named.all fun n => ((b.eps[n]?).map (·.typ)).getD 0 != 0

/-- A collective's staging region, root and links (R539); `s` holds the image. -/
def State.okCollective (s : State) (i : Image) (k : Nat) (h : HerdCfg) (c : CollCfg) : Bool :=
  (match i.staging[c.stg]? with
    | some g => g.owner == 1 && g.owneridx == c.herd && decide (c.nbuf * collBuf c h.size * 256 ≤ g.length)
    | none => false)
    && (c.op != 4 || decide (c.root < h.size))
    && (match s.collEnv k with
        | some e => (e.acts (collAlg e.exts c.size h.thresh)).all fun a => (e.link a.peer).isSome
        | none => true)

/-- Whether the members of this device's group have logical chip numbers (R539). -/
def State.okMembers (s : State) (i : Image) (h : HerdCfg) : Bool :=
  match i.chipmap, s.herdMe h with
  | some m, some l => (List.range h.size).all fun r => decide (h.member l r < m.logical.length)
  | _, _ => true

/-- The HERD section beside the others (R539). -/
def State.okHerdSect (s : State) (i : Image) (h : HerdSect) : Bool :=
  h.herds.all (s.okMembers i)
    && (List.range h.colls.length).all (fun k =>
      match h.colls[k]? with
      | some c => ((h.herds[c.herd]?).map fun x => s.okCollective i k x c).getD false
      | none => true)
    && (List.range 32).all fun cl => decide ((h.colls.filter fun c =>
      ((i.staging[c.stg]?).map (·.cluster)) == some cl).length ≤ 32)

/-- The words of a Mule table's three parts, for a device that owns `nloc` of its experts (R559). -/
def muleWords (m : MuleCfg) (nloc nsrc : Nat) : Nat :=
  nloc * m.nex * nsrc * m.q * (m.pw + 1) + m.nex * m.tmax * (1 + m.k * m.pw) + m.twords

/-- A Mule table's region and owners (R559); `s` holds the image. -/
def State.okMuleTable (s : State) (i : Image) (t : Nat) (m : MuleCfg) (experts : List (Nat × Nat)) : Bool :=
  match (i.herd.bind fun h => h.herds[m.herd]?), i.staging[m.stg]? with
  | some h, some g =>
    g.owner == 2 && g.owneridx == t
      && (((experts.drop m.expbase).take m.nexp).all fun x => decide (x.1 < h.size))
      && (match s.muleTab t with
          | some e => decide (256 * muleWords m (e.experts.countP fun x => x.1 == e.me) h.size ≤ g.length)
          | none => true)
  | _, _ => false

/-- The MULE section beside the others. -/
def State.okMuleSect (s : State) (i : Image) (m : MuleSect) : Bool :=
  (List.range m.tabs.length).all fun t => ((m.tabs[t]?).map fun c => s.okMuleTable i t c m.experts).getD true

/-- The LDLY of the ports that are UP (R506). -/
def State.okLdly (s : State) (f : FabricCfg) : Bool :=
  (List.range 19).all fun p => !s.portUp p || decide (s.getF (fFabPstatLdlymin p) ≤ f.ldly.getD p 0)

/-- The step word's address in the cores that receive it (R451). -/
def State.okStepWord (s : State) (c : SecondCfg) : Bool :=
  (List.range 256).all fun k => !c.stepwcores.getLsbD k || s.inSpad .a k c.stepwaddr 256

/-- The checks of SECT_FIELD beyond single sections; `s` holds the image. -/
def State.okCross (s : State) (j : JobSlot) (i : Image) : Bool :=
  i.cores.all (s.okSpad j i) && i.okEndpoints
    && (match i.herd with
        | some h => s.okHerdSect i h
        | none => true)
    && (match i.mule with
        | some m => s.okMuleSect i m
        | none => true)
    && (match i.fabric with
        | some f => s.okLdly f
        | none => true)
    && (match i.second with
        | some c => s.okStepWord c
        | none => true)
    && (match i.chipmap, s.logical with
        | some _, some l => distinct l
        | _, _ => true)

/-! ### Cores, queues, schedules, taps (R172, R270, R287, R289, R313, R326, R354, R455) -/

/-- The cores that a route names at its ends: those of its ports and sinks. -/
def Image.endCores (i : Image) : List Nat :=
  (i.routes.flatMap fun r => [r.src, r.dst]).filterMap fun e =>
    if epKind e = 0 then some (epIdx e / 32) else if epKind e = 3 then some (epIdx e / 4) else none

/-- The cores of a mask. -/
def maskCores (m : BitVec 256) : List Nat := (List.range 256).filter fun c => m.getLsbD c

/-- The logical cores that an image names: in its sections, its windows, its grant, its routes and the
cores that receive the step word. -/
def Image.namedCores (i : Image) : List Nat :=
  i.cores.map (·.core) ++ i.windows.flatMap (fun w => maskCores w.cores)
    ++ ((i.grant.map fun g => maskCores g.cores ++ (List.range g.ports.length).filter fun c =>
      g.ports.getD c 0 != 0).getD [])
    ++ i.endCores ++ ((i.second.map fun c => maskCores c.stepwcores).getD [])

/-- Whether each die that has a core that the image names has all its cores. -/
def State.okCores (s : State) (i : Image) : Bool :=
  i.namedCores.all fun c => s.getF (if c < 128 then fCapConfigCores_w else fCapConfigCores_e) == 128

/-- Whether a bound port names a route that begins or ends at it. -/
def Image.okBindRoute (i : Image) (c p : Nat) (b : PortBind) : Bool :=
  b.user == 0 || ((i.routes[b.route]?).map fun r => (if b.out then r.src else r.dst) == 32 * c + p).getD false

/-- A core's queues, beside those of the other job slot's image. -/
def Image.okQueues (i : Image) (other : Option Image) (c : CoreCfg) : Bool :=
  (List.range 32).all (fun p => !c.bound p || within 2 128 (c.depth.getD p 0))
    && decide (sumNat c.depth + sumNat (((other.bind fun o => o.cores.find? fun d => d.core == c.core).map
      (·.depth)).getD []) ≤ 512)
    && (List.range 128).all fun k => ((c.binds[k]?).map fun b => i.okBindRoute c.core (k % 32) b).getD true

/-- A schedule: its owner codes, its command endpoints, and the refreshes of every group. -/
def BankSchedCfg.ok (b : BankSchedCfg) : Bool :=
  let p := b.entries.length
  let code (k g : Nat) : Nat := ((b.entries.getD (k % p) 0).extractLsb' (8 * g) 8).toNat
  (List.range p).all (fun k => (List.range 16).all fun g =>
      !within 5 15 (code k g) && within 1 2 ((List.range 16).countP fun n => code (k + n) g == 1))
    && b.named.all fun n => ((b.eps[n]?).map (·.typ)).getD 0 != 3

/-- The bank schedules and the latency of each phase. -/
def Image.okBank (i : Image) : Bool :=
  i.scheds.all (·.ok) && i.phases.all fun p => decide ((9 * p.minMult + 1) / 2 ≤ p.dlat)

/-- The scales of the taps of a class. -/
def Image.tapScales (i : Image) (cls : Nat) : List Int :=
  i.cores.flatMap fun c => (c.taps.filter fun t => t.en && t.cls == cls).map (·.scale)

/-- Whether all values of a list are equal. -/
def allSame : List Int → Bool
  | [] => true
  | x :: r => r.all (· == x)

/-- The taps of each class share a scale; with steering, LOCAL and GLOBAL share one. -/
def Image.okTaps (i : Image) : Bool :=
  (List.range 3).all (fun k => allSame (i.tapScales k)) &&
    (match i.second with
      | some c => c.knum == 0 || decide (c.ndp < 2) || allSame (i.tapScales 0 ++ i.tapScales 1)
      | none => true)

/-! ### Shared resources and the grant (R319-R321, R493, R696) -/

/-- The comparators that an image names for each purpose: the start of each phase, the opening and the
closing of a window, the start and the close of a collective, the opening and the two closings of
a Mule exchange, the start of a step. Cores wait on any of them (R203, R214; log entry 75). -/
def Image.calPurposes (i : Image) : List (List Nat) :=
  let cs := (i.herd.map (·.colls)).getD []
  let ms := (i.mule.map (·.tabs)).getD []
  i.phases.map (fun p => [p.start])
    ++ [i.windows.map (·.openCal), i.windows.map (·.closeCal), cs.map (·.start), cs.map (·.close),
      ms.map (·.openCal), ms.map (·.dclose), ms.map (·.rclose), (i.second.map (·.startcal)).toList]

/-- The comparators that units of the image name outside its CALENDAR. -/
def Image.calUses (i : Image) : List Nat :=
  i.calPurposes.flatten

/-- Whether no comparator of one list is in another. -/
def apart : List (List Nat) → Bool
  | [] => true
  | l :: r => r.all (fun m => m.all fun n => !l.contains n) && apart r

/-- The comparators that a core's CALMASK names. -/
def CoreCfg.cals (c : CoreCfg) : List Nat := (List.range 64).filter fun n => c.calmask.getLsbD n

/-- Comparators: none of the device's own, none given twice or for two purposes, none assigned to a core
unarmed. -/
def Image.okCalendar (i : Image) : Bool :=
  let l := i.cals.map (·.comp)
  (l ++ i.calUses).all (fun n => decide (n < 60)) && distinct l && apart i.calPurposes
    && i.cores.all fun c => c.cals.all fun n => decide (n < 60) && l.contains n

/-- Whether two staging regions overlap. -/
def StagingCfg.meets (a b : StagingCfg) : Bool :=
  a.cluster == b.cluster && decide (a.offset < b.offset + b.length) && decide (b.offset < a.offset + a.length)

/-- The endpoints that an image describes, as stack and endpoint. -/
def Image.endpoints (i : Image) : List (Nat × Nat) :=
  i.scheds.flatMap fun b => (List.range b.eps.length).filterMap fun n =>
    if ((b.eps[n]?).map (·.typ)).getD 0 = 0 then none else some (b.stack, n)

/-- The ends of the routes of an image that are of a kind, by index. -/
def Image.endsOf (i : Image) (kind : Nat) : List Nat :=
  ((i.routes.flatMap fun r => [r.src, r.dst]).filter fun e => epKind e == kind).map epIdx

/-- The ports that an image binds or that its routes name, as core and port. -/
def Image.usedPorts (i : Image) : List (Nat × Nat) :=
  (i.cores.flatMap fun c => ((List.range 32).filter c.bound).map fun p => (c.core, p))
    ++ (i.endsOf 0).map fun e => (e / 32, e % 32)

/-- The stack endpoints that an image describes or that its routes name, as stack and endpoint. -/
def Image.usedEps (i : Image) : List (Nat × Nat) := i.endpoints ++ (i.endsOf 1).map fun e => (e / 240, e % 240)

/-- Whether a grant lends a port or an endpoint. -/
def GrantCfg.lendsPort (g : GrantCfg) (x : Nat × Nat) : Bool := (g.ports.getD x.1 0).getLsbD x.2

/-- Whether a grant lends an endpoint. -/
def GrantCfg.lendsEp (g : GrantCfg) (x : Nat × Nat) : Bool := (g.endpoints.getD x.1 0).getLsbD x.2

/-- Whether a slot A image keeps off what it lends (R320). -/
def Image.okOwnGrant (i : Image) : Bool :=
  match i.grant with
  | none => true
  | some g => !i.usesOff g.offs && i.usedPorts.all (fun x => !g.lendsPort x)
      && i.usedEps.all (fun x => !g.lendsEp x) && i.cals.all fun c => !g.cal.getLsbD c.comp

/-- Whether the time role and the polls conflict with the marker input or the gauge (R321, R696). -/
def State.okMgmtUse (s : State) (m : MgmtCfg) : Bool :=
  (!m.source || (match s.fab.lastMark with
    | some t => decide (t.toNat + 65536 < s.time)
    | none => true))
    && m.polls.all fun p => p.addr != s.getF fSavHgaugeAddr

/-- The checks of CONFLICT. -/
def State.okShared (s : State) (j : JobSlot) (i : Image) (other : Option Image) : Bool :=
  i.okCalendar && decide (i.staging.Pairwise fun a b => a.meets b = false)
    && ((other.map (·.staging)).getD []).all (fun a => i.staging.all fun b => !a.meets b)
    && (j == .b || i.okOwnGrant)
    && (match i.mgmt with
        | some m => s.okMgmtUse m
        | none => true)

/-- Whether a slot B image uses only what slot A's image lends (R296, R319, R320): cores, those of its
sinks too, comparators, those that start its phases too, offsets, ports and stack endpoints; no
block endpoint is ever lent. -/
def Image.okInGrant (i : Image) (g : GrantCfg) : Bool :=
  (i.cores.map (·.core) ++ i.endCores).all (fun c => g.cores.getLsbD c)
    && (i.cals.map (·.comp) ++ i.calUses).all (fun n => g.cal.getLsbD n)
    && !i.usesOff (~~~g.offs) && i.usedPorts.all g.lendsPort && i.usedEps.all g.lendsEp && (i.endsOf 4).isEmpty
    && i.fabric.isNone && i.herd.isNone && i.mule.isNone && i.windows.isEmpty && i.chipmap.isNone
    && i.mgmt.isNone && i.grant.isNone && i.second.isNone

/-- The check of SLOTB_GRANT; an image for the other job slot fails with it too (log entry 23). -/
def State.okGrantUse (s : State) (j : JobSlot) (i : Image) : Bool :=
  i.slotb == (j == .b) && (j == .a || (match s.imgA.bind (·.grant) with
    | some g => i.okInGrant g
    | none => false))

/-! ### Chip map, partial images, and the status (R28, R325, R341, R350, R483) -/

/-- BOARD_POS: the logical number's Z coordinate against the straps; `s` holds the image. -/
def State.okBoard (s : State) (m : ChipMapCfg) : Bool :=
  match s.logChip with
  | some l => !s.bitF fFabPchipValid || l % 4 == s.getF fMgtStrapBidx || decide (m.logical.length ≤ l)
  | none => true

/-- NOT_IN_MAP. -/
def State.okInMap (s : State) (m : ChipMapCfg) : Bool :=
  s.bitF fFabPchipValid && (s.logChip.isSome || m.spares.contains s.physChip)

/-- PARTIAL_BASE. -/
def State.okBase (s : State) (j : JobSlot) (i : Image) : Bool :=
  !i.partImg || i.baseId == (if j = .a then s.rd64 rImgIdaLo else s.rd64 rImgIdbLo) && (j == .a || s.imgB.isSome)

/-- Whether a core section keeps what a partial image must keep. -/
def CoreCfg.keeps (c d : CoreCfg) : Bool :=
  c.stage == d.stage && c.depth == d.depth && c.calmask == d.calmask && c.fherd == d.fherd && c.binds == d.binds

/-- PARTIAL_SCOPE. -/
def State.okScope (s : State) (j : JobSlot) (b : List Byte) (i : Image) : Bool :=
  !i.partImg || (match s.image j with
    | none => false
    | some a =>
      (sects b).all (fun e => e.typ == 2 || e.typ == 0xF0)
        && i.cores.all (fun c => ((a.cores.find? fun d => d.core == c.core).map c.keeps).getD false)
        && a.cores.all fun d => i.cores.all fun c => c.stage != d.stage || i.cores.any fun e => e.core == d.core)

/-- The first status code of a list whose check fails; 0 when none does. -/
def firstBadCode : List (Nat × Bool) → Nat
  | [] => 0
  | (k, ok) :: r => if ok then firstBadCode r else k

/-- The smallest MINMULT of an image. -/
def Image.minMult (i : Image) : Nat := (i.phases.map (·.minMult)).foldl min 17

/-- The status of the CHECK stage: SECT_FIELD to PARTIAL_SCOPE, or 0. -/
def State.checkStatus (s : State) (j : JobSlot) (b : List Byte) (variant : Nat) : Nat :=
  let i := readImage b
  let f := s.resultImage j i
  let h := s.withImage j f variant
  let o := s.beside j i
  let map (p : ChipMapCfg → Bool) : Bool := (i.chipmap.map p).getD true
  firstBadCode [
    (0x0B, okFields b f.minMult f.staging.length ((f.herd.map (·.colls)).getD []) && h.okCross j f),
    (0x0C, s.okCores i),
    (0x0D, f.cores.all (f.okQueues o)),
    (0x0E, f.okRoutes),
    (0x0F, f.okBank),
    (0x10, f.okTaps),
    (0x11, s.okShared j f o),
    (0x12, s.okGrantUse j i),
    (0x13, map h.okBoard),
    (0x14, map h.okInMap),
    (0x15, map fun m => decide (variant < m.variants.length)),
    (0x16, s.okBase j i),
    (0x17, s.okScope j b i)]

end Sys2Proof.Machine
end

