-- ==== Sys2Proof/Machine/Mbx.lean ====
section
/-! DEFINITION. The firmware mailbox of a function: its request, its answer, and the order in which
requests are served (R684, R685, R688). -/

namespace Sys2Proof.Machine

open Sys2Proof

/-- MBX_STATUS. -/
def mbxStatus : Nat := 0x1004
/-- MBX_REQ. -/
def mbxReqBuf : Nat := 0x1100
/-- MBX_RSP. -/
def mbxRspBuf : Nat := 0x1200

/-- A bit of MBX_STATUS: 0 BUSY, 1 DONE, 2 OVERRUN, 3 FW. -/
def State.mbxBit (s : State) (fn : Func) (n : Nat) : Bool := (s.rd4 fn mbxStatus).getLsbD n

/-- Set a bit of MBX_STATUS. -/
def State.mbxSet (s : State) (fn : Func) (n : Nat) (b : Bool) : State :=
  let w := (s.rd4 fn mbxStatus) &&& ~~~(BitVec.ofNat 32 (2 ^ n))
  s.wr4 fn mbxStatus (if b then w ||| BitVec.ofNat 32 (2 ^ n) else w)

/-- Whether a mailbox holds a request that has no response yet. -/
def State.mbxBusy (s : State) (fn : Func) : Bool := s.mbxBit fn 0

/-- The 256 bytes of MBX_REQ. -/
def State.mbxBytes (s : State) (fn : Func) : List Byte :=
  (List.range 64).flatMap fun k => leBytes 4 (s.rd4 fn (mbxReqBuf + 4 * k)).toNat

/-- A field of the request at a byte offset. -/
def State.mbxF (s : State) (fn : Func) (o n : Nat) : Nat := fieldLe (s.mbxBytes fn) o n

/-- Store consecutive BAR4 words. -/
def State.wr4List (s : State) (fn : Func) (off : Nat) : List W32 → State
  | [] => s
  | v :: r => (s.wr4 fn off v).wr4List fn (off + 4) r

/-- Words of some bytes. -/
def wordsOf (l : List Byte) : List W32 := (groupsOf 4 ((l.length + 3) / 4) l).map fun g => BitVec.ofNat 32 (leNat g)

/-- The response to the request of a function: RESULT, LEN, SEQ echoed and payload; it sets DONE,
clears BUSY and signals vector 0. -/
def State.mbxAnswer (s : State) (fn : Func) (result : Nat) (payload : List Byte) : State :=
  if s.mbxBusy fn then
    let seq := s.rd4 fn (mbxReqBuf + 4)
    let s1 := s.wr4List fn mbxRspBuf (BitVec.ofNat 32 (result + 65536 * payload.length) :: seq :: wordsOf payload)
    let s2 := (s1.mbxSet fn 0 false).mbxSet fn 1 true
    ({ s2 with host := { s2.host with posts := s2.host.posts.filter (· != fn.val) } } : State).msix fn 0
  else s

/-- Whether a function's request is the next to be served. -/
def State.mbxFirst (s : State) (fn : Func) : Bool := s.mbxBusy fn && s.host.posts.head? == some fn.val

end Sys2Proof.Machine
end

