-- ==== Sys2Proof/Machine/Loader.lean ====
section
/-! DEFINITION. The loader and the image that takes effect: IMG_CTL, the stages of a load, the
authentication, the swap of a full image, the core-by-core switch of a partial one, and the default
image (R304-R308, R326-R350, R407, R436). -/

namespace Sys2Proof.Machine

open Sys2Proof

/-! ### The end of a load (R334, R336, R350) -/

/-- The states of R349. -/
def imgIdle : Nat := 0
/-- READ. -/
def imgRead : Nat := 1
/-- AUTH. -/
def imgAuth : Nat := 2
/-- CHECK. -/
def imgCheck : Nat := 3
/-- STAGE. -/
def imgStage : Nat := 4
/-- WAIT. -/
def imgWait : Nat := 5
/-- PENDING. -/
def imgPending : Nat := 6

/-- IMG_STATUS.STATE. -/
def State.imgState (s : State) : Nat := s.getF fImgStatusState

/-- The IMAGE_ID of a load, once its header has been read. -/
def Loader.id (l : Loader) : Nat := (l.img.map (·.id.toNat)).getD 0

/-- A record of the loader. -/
def State.logImage (s : State) (l : Loader) (detail : Nat) : State :=
  s.log ⟨10, detail, unitDevice, l.slot == .b, false, l.id, if l.drive then 1 else 0⟩

/-- Whether a drive command reads an image. -/
def NvmeUse.ofImage : NvmeUse → Bool
  | .image _ => true
  | _ => false

/-- A load ends with a status; its reads of a drive are abandoned. -/
def State.endLoad (s : State) (code : Nat) : State :=
  match s.loader with
  | none => s
  | some l =>
    let s1 := ((({ s.killCmds NvmeUse.ofImage with loader := none } : State).setF fImgStatusState imgIdle).setF fImgStatusCode code).setB
      fImgStatusDone true
    let s2 := if code = 0 then s1 else s1.logImage l code
    let s3 := s2.msix 0 2
    match l.viaMailbox with
    | some fn => s3.mbxAnswer fn 0 (leBytes 4 code)
    | none => s3

/-- A load goes on to its next state. -/
def State.loadTo (s : State) (l : Loader) (st : Nat) : State :=
  ({ s with loader := some l } : State).setF fImgStatusState st

/-! ### IMG_CTL (R331, R333, R336, R344, R346) -/

/-- Whether the source range is 4 KiB aligned and lies within the stacks. -/
def Loader.rangeOk (l : Loader) : Bool :=
  l.src.toNat % 4096 == 0 && decide (l.src.toNat + l.len.toNat ≤ memTop)

/-- The Reads of an image, at most 128 KiB each, the last `j` of `m`. -/
def State.imageReads (s : State) (l : Loader) (m j : Nat) : State :=
  s.readParts l.drv.toNat l.lba ((l.len.toNat + 4095) / 4096)
    (fun k => some (l.src + BitVec.ofNat 64 (0x20000 * k))) .image m j

/-- A load from a drive reads the image into device memory through the save port (R331, R608, R609); a drive
that is not READY reads nothing. -/
def State.driveLoad (s : State) (l : Loader) : State :=
  let m := (l.len.toNat + 0x1FFFF) / 0x20000
  if ¬ l.drive ∨ ¬ l.rangeOk then s
  else if s.driveReady l.drv.toNat then s.imageReads l m m
  else { s with loader := some { l with failed := true } }

/-- A load starts, with the fields as they stand. -/
def State.startLoad (s : State) (via : Option Func) : State :=
  let b := s.bitF fImgCtlSlot
  let l : Loader := { drive := s.getF fImgCtlSrc == 1, slot := if b then .b else .a
                      force := s.bitF fImgCtlForceopt, variant := s.getF fImgCtlVariant
                      src := s.rd64 rImgSrcLo, len := s.rd rImgLen
                      drv := BitVec.ofNat 2 (s.getF fImgDrvDrive), lba := s.rd64 rImgLbaLo
                      applyt := s.rd64 rImgApplytLo, viaMailbox := via, failed := false, bytes := [], img := none, pages := [] }
  ((s.setB fImgStatusSlot b).loadTo l imgRead).driveLoad l

/-- A write of IMG_CTL: GO, ABORT, FORCE and DEFAULT are judged by the state that the write finds. A GO that
finds a load in progress leaves IMG_STATUS unchanged, so an ABORT beside it ends nothing (R333; log
entry 50). -/
def State.imgCtl (s : State) (v : W32) : State :=
  if 2 ≤ v.toNat / 16 % 4 then s.logCsr 1 rImgCtl v.toNat
  else
    let st := s.imgState
    let s1 := s.store rImgCtl v
    let s2 := if v.getLsbD 1 ∧ ¬ v.getLsbD 0 ∧ 1 ≤ st ∧ st ≤ 5 then s1.endLoad 0x19 else s1
    let s3 := if v.getLsbD 2 ∧ st = imgPending then
        { s2 with loader := s2.loader.map fun l => { l with force := true } } else s2
    let s4 := if v.getLsbD 3 ∧ st = imgIdle then { s3.endClutch 1 with defPend := true } else s3
    if v.getLsbD 0 then
      if st = imgIdle then s4.startLoad none
      else
        match s4.loader with
        | some l => s4.logImage l 0x0102
        | none => s4
    else s4

/-- IMG_GO (R331). -/
def execImgGo (r : Requester) (v : BitVec 32) (s : State) : Host.Outcome State Fault Refusal :=
  .next (s.bar0 r fun s => s.imgCtl (v ||| 1))

/-- IMG_ABORT (R336). -/
def execImgAbort (r : Requester) (v : BitVec 32) (s : State) : Host.Outcome State Fault Refusal :=
  .next (s.bar0 r fun s => s.imgCtl (v ||| 2))

/-- IMG_FORCE (R344). -/
def execImgForce (r : Requester) (v : BitVec 32) (s : State) : Host.Outcome State Fault Refusal :=
  .next (s.bar0 r fun s => s.imgCtl (v ||| 4))

/-- IMG_DEFAULT (R346). -/
def execImgDefault (r : Requester) (v : BitVec 32) (s : State) : Host.Outcome State Fault Refusal :=
  .next (s.bar0 r fun s => s.imgCtl (v ||| 8))

/-! ### READ (R304-R308, R331) -/

/-- The status of an image's header and section table, or 0. -/
def headerStatus (b : List Byte) (len : Nat) : Nat :=
  firstBadCode [
    (0x03, fieldLe b 0 4 == 0x53494E51 && fieldLe b 8 4 == len),
    (0x04, fieldLe b 5 1 == 1),
    (0x05, fieldLe b 4 1 == 0x10),
    (0x06, okHeader b),
    (0x07, okTable b)]

/-- The bytes of the image are read. -/
def State.readLoad (s : State) (l : Loader) : State :=
  let r := s.memRead .other 256 l.src.toNat l.len.toNat
  if r.1.bad ≠ [] then r.2.endLoad 2
  else
    let b := r.1.bytes
    let code := headerStatus b l.len.toNat
    let l1 := { l with bytes := b, img := if 0x80 ≤ b.length then some (readImage b) else none }
    if code = 0 then r.2.loadTo l1 imgAuth
    else ({ r.2 with loader := some l1 } : State).endLoad code

/-- LOAD_READ (R331, R334): the Reads of a load from a drive come first, and one that failed fails the load. -/
def State.loadRead (s : State) : State :=
  match s.loader with
  | none => s
  | some l =>
    if s.imgState ≠ imgRead then s
    else if ¬ l.rangeOk then s.endLoad 1
    else if l.failed then s.endLoad 2
    else if s.useBusy NvmeUse.ofImage then s
    else s.readLoad l

/-- LOAD_READ. -/
def execLoadRead (_rd : Unit) (s : State) : Host.Outcome State Fault Refusal := .next s.loadRead

/-! ### AUTH (R327-R330) -/

/-- A big-endian number. -/
def beNat (l : List Byte) : Nat := leNat l.reverse

/-- Whether a key class is programmed and not revoked, and its fused hash matches. -/
def State.keyOk (s : State) (cls : Nat) (pub : List Byte) : Bool :=
  decide (cls ≤ 4) && s.fuses.keyHash[cls]? == some (Config.sha384 pub) &&
    (if cls = 0 then s.bitF fImgKeysVendor
     else (s.getF fImgKeysOwner).testBit (cls - 1) && !(s.getF fImgKeysRevoked).testBit (cls - 1))

/-- The status of a SIGNATURE block `g` over a message: AUTH_KEY, AUTH_SIG or 0. -/
def State.sigStatus (s : State) (msg g : List Byte) : Nat :=
  let pub := slice g 8 97
  if ¬ s.keyOk (fieldLe g 0 1) pub then 8
  else if Config.ecdsaP384 pub msg (BitVec.ofNat 384 (beNat (slice g 112 48)))
      (BitVec.ofNat 384 (beNat (slice g 160 48))) then 0
  else 9

/-- LOAD_AUTH. -/
def State.loadAuth (s : State) : State :=
  match s.loader with
  | none => s
  | some l =>
    if s.imgState ≠ imgAuth then s
    else
      let o := sigOff l.bytes
      let code := s.sigStatus (l.bytes.take o) (l.bytes.drop o)
      if code ≠ 0 then s.endLoad code
      else if (l.img.map (·.debug)) = some true ∧ ¬ s.bitF fImgKeysDebug then s.endLoad 10
      else s.loadTo l imgCheck

/-- LOAD_AUTH. -/
def execLoadAuth (s : State) : Host.Outcome State Fault Refusal := .next s.loadAuth

/-! ### CHECK and STAGE (R309, R334, R407) -/

/-- LOAD_CHECK. -/
def State.loadCheck (s : State) : State :=
  match s.loader with
  | none => s
  | some l =>
    if s.imgState ≠ imgCheck then s
    else
      let code := s.checkStatus l.slot l.bytes l.variant
      if code = 0 then s.loadTo l imgStage else s.endLoad code

/-- LOAD_CHECK. -/
def execLoadCheck (s : State) : Host.Outcome State Fault Refusal := .next s.loadCheck

/-- A window page takes its state by a walk. -/
def stagePage (j : JobSlot) (a : Tab WinPage × State) (x : Nat × WinCfg × Nat) : Tab WinPage × State :=
  let p := a.2.pageState j x.2.1 x.2.2
  (Tab.put (fun _ => WinPage.reset) a.1 (pageKey j x.1 x.2.2) p.1, p.2)

/-- Every page of every window of an image. -/
def Image.winPages (i : Image) : List (Nat × WinCfg × Nat) :=
  (winIdx (i.xltwin.getD [])).flatMap fun w => (List.range w.2.npage).map fun k => (w.1, w.2, k)

/-- LOAD_STAGE: the shadow planes are written, and the windows' pages are walked for. -/
def State.loadStage (s : State) : State :=
  match s.loader with
  | none => s
  | some l =>
    if s.imgState ≠ imgStage then s
    else
      let r := ((l.img.map (·.winPages)).getD []).foldl (stagePage l.slot) ([], s)
      r.2.loadTo { l with pages := r.1 } imgWait

/-- LOAD_STAGE. -/
def execLoadStage (s : State) : Host.Outcome State Fault Refusal := .next s.loadStage

/-! ### Idleness and residence (R338, R340) -/

/-- Whether a program of a job slot runs on a core: resident, or for job slot A saved, and not
stopped (log entry 25). -/
def CoreSt.runs (x : CoreSt) (j : JobSlot) : Bool :=
  if x.slot = j ∧ ¬ x.bare then x.cfg.isSome && !x.stopped
  else j == .a && x.cfgA.isSome && !x.emptyA && !(Tab.look (fun _ => (0 : Byte)) x.spad (csaSeq .a + 4)).getLsbD 2

/-- Whether a job slot is idle. -/
def State.slotIdle (s : State) (j : JobSlot) : Bool :=
  (List.range 256).all (fun c => !(s.core c).runs j)
    && s.routes.all (fun e => e.1 / 4096 != slotNat j || e.2.flight.isEmpty)
    && (List.range 8).all fun d => (if j = .a then (s.stk d).qa else (s.stk d).qb).isEmpty

/-- Whether job slot B is resident in some core. -/
def State.bResident (s : State) : Bool := (List.range 256).any fun c => (s.core c).slot == .b

/-! ### The swap of a full image (R337-R340, R436) -/

/-- Everything of a job slot that is keyed by it: routes, sinks, endpoints, regions, window pages. -/
def State.dropSlot (s : State) (j : JobSlot) : State :=
  { s with
    routes := s.routes.filter fun e => e.1 / 4096 != slotNat j
    sinks := s.sinks.filter fun e => e.1 / 1024 != slotNat j
    eps := s.eps.filter fun e => e.1 / 1920 != slotNat j
    regions := s.regions.filter fun e => e.1 / 1024 != slotNat j
    pages := s.pages.filter fun e => e.1 / 2 ^ 24 != slotNat j }

/-- The comparators of a job slot are disarmed. -/
def State.dropCals (s : State) (j : JobSlot) : State :=
  (List.range 64).foldl (fun t n => if (t.cal n).owner = slotNat j + 1 then t.disarmCal n else t) s

/-- The comparators of an image are armed. -/
def State.armCals (s : State) (j : JobSlot) (i : Image) : State :=
  i.cals.foldl (fun t c => t.armCal c.comp c.period c.phase (slotNat j + 1) t.time) s

/-- Each route of an image starts with its credits. -/
def State.startRoutes (s : State) (j : JobSlot) (i : Image) : State :=
  (List.range i.routes.length).foldl (fun t r =>
    match i.routes[r]? with
    | some cf => t.setRoute j r { RouteSt.reset with credits := t.destDepth j cf.dst }
    | none => t) s

/-- The ports of a core that a section binds. -/
def boundIn (cf : Option CoreCfg) (p : Nat) : Bool := (cf.map fun c => c.bound p).getD false

/-- A core takes a section for a job slot: its resident context starts from the reset state, and a
saved one is marked EMPTY; the ports of the other job slot keep their queues. -/
def CoreSt.swapIn (x : CoreSt) (j : JobSlot) (cf : Option CoreCfg) : CoreSt :=
  let y : CoreSt := if j = .a
    then { x with cfgA := cf, nextA := none, keptA := none, emptyA := true
                  ports := x.ports.filter fun e => boundIn x.cfgB e.1 }
    else { x with cfgB := cf, nextB := none, keptB := none, emptyB := true
                  ports := x.ports.filter fun e => !boundIn x.cfgB e.1 && !boundIn cf e.1 }
  if y.slot = j ∧ ¬ y.bare then { y.freshCtx with storeEcc := [], switching := false } else y

/-- The cores take the sections of an image. -/
def State.swapCores (s : State) (j : JobSlot) (cs : List CoreCfg) : State :=
  (List.range 256).foldl (fun t c => t.modCore c fun x => x.swapIn j (cs.find? fun d => d.core == c)) s

/-- Commands of a job slot's context leave the bank engines, which hold none of it in an idle slot. -/
def StackSt.dropB (k : StackSt) : StackSt :=
  { k with
    qb := []
    buf1 := if k.buf1 = some .b then none else k.buf1
    claims := k.claims.filter (·.isNone) }

/-- Job slot B's image is unloaded: no image, no context, no queue (R340, R346, R436). -/
def State.unloadSlotB (s : State) : State :=
  let s1 := ((s.dropSlot .b).dropCals .b).swapCores .b []
  let s2 : State := { s1 with
    imgB := none, unloadB := false
    stks := s1.stks.map fun (e : Nat × StackSt) => (e.1, e.2.dropB)
    cores := s1.cores.map fun (e : Nat × CoreSt) => (e.1, if e.2.slot = .b then { e.2 with slot := .a } else e.2) }
  ((s2.wr64 rImgIdbLo 0).setB fXltStatusBloaded false).setF (fWmiss .b) 0

/-- A core that was retired takes a spare's memories, and a staging bank its spare bank (R326, R731). -/
def State.applyRetired (s : State) : State :=
  let s1 := s.sd.retired.foldl (fun t c => t.setCore c CoreSt.reset) s
  { s1 with sd := { s1.sd with retired := [], remapped := s1.sd.remapped ++ s1.sd.remapPend, remapPend := [] } }

/-- What a port has received under the old tables and owes to its engine goes. -/
def FabPort.swapIn (p : FabPort) : FabPort := { p with delivered := [], owed := [] }

/-- The fabric tables under a variant (R324). -/
def Image.tables (i : Image) (variant : Nat) : Option FabricCfg :=
  match (i.chipmap.bind fun m => m.variants[variant]?).bind (·.fabric) with
  | some f => some f
  | none => i.fabric

/-- The first due times of the polls of the MGMT section (R696). -/
def State.startPolls (s : State) (m : Option MgmtCfg) : State :=
  let l := (m.map (·.polls)).getD []
  { s with mgt := { s.mgt with pollDue := (List.range l.length).map fun i =>
      (i, BitVec.ofNat 64 (s.clock.toNat + 125000 * ((l[i]?).map (·.period)).getD 0)) } }

/-- The time role (R321, R490). -/
def State.setRole (s : State) (source : Bool) : State :=
  let s1 := s.setB fFabTstatSource source
  if source then s1.setLock else s1

/-- The units of job slot A after a swap: collectives, Mule, second order, Bellwether, power. -/
def State.unitsA (s : State) : State :=
  let s1 := (s.herdApply.muleApply.secondApply).setF fPwrOppointPhase 0
  let s2 := (s1.setB fPwrCeilRdefault s1.imgA.isNone).ceilShow
  { s2 with
    chans := []
    ports := s2.ports.map fun (e : Nat × FabPort) => (e.1, e.2.swapIn)
    stks := s2.stks.map fun (e : Nat × StackSt) => (e.1, { e.2 with sched := 0, satStep := 0, doneA := [] }) }

/-- Job slot A takes an image, or the default image. -/
def State.swapA (s : State) (i : Option Image) (variant : Nat) (pages : Tab WinPage) : State :=
  let keep := (i.bind (·.grant)).isSome && (i.bind (·.grant)).map (·.raw) == (s.imgA.bind (·.grant)).map (·.raw)
  let s1 := if s.imgB.isSome ∧ ¬ keep then s.unloadSlotB else s
  let s2 := (((s1.endClutch 1).bwtSwap.applyRetired).dropSlot .a).dropCals .a
  let s3 : State := { s2 with
    imgA := i, winOpen := [], logical := (i.bind (·.chipmap)).map fun m => m.table variant
    fabApplied := i.bind fun x => x.tables variant
    pages := pages.foldl (fun t e => Tab.ins t e.1 e.2) s2.pages }
  let standby := (i.bind (·.chipmap)).isSome && s3.logChip.isNone
  let s4 := s3.swapCores .a (if standby then [] else (i.map (·.cores)).getD [])
  let s5 := match i with
    | some x => (s4.startRoutes .a x).armCals .a x
    | none => s4
  let s6 := (s5.startPolls (i.bind (·.mgmt))).setRole (((i.bind (·.mgmt)).map (·.source)).getD false)
  ((s6.unitsA).wr64 rImgIdaLo ((i.map (·.id)).getD 0)).setF (fWmiss .a) (s6.missPages .a)

/-- Job slot B takes an image. -/
def State.swapB (s : State) (i : Image) (pages : Tab WinPage) : State :=
  let s1 := (s.dropSlot .b).dropCals .b
  let s2 : State := { s1 with imgB := some i, pages := pages.foldl (fun t e => Tab.ins t e.1 e.2) s1.pages }
  let s3 := ((s2.swapCores .b i.cores).startRoutes .b i).armCals .b i
  ((s3.wr64 rImgIdbLo i.id).setB fXltStatusBloaded true).setF (fWmiss .b) (s3.missPages .b)

/-- Show the digest of job slot A's image (R330). -/
def State.showDigest (s : State) (l : Loader) : State :=
  if l.slot = .b then s
  else
    let d := Config.sha384 (l.bytes.take (sigOff l.bytes))
    s.wrList (rImgDigest 0) ((List.range 12).map fun n =>
      BitVec.ofNat 32 (leNat ((List.range 4).map fun k => d.extractLsb' (376 - 8 * (4 * n + k)) 8)))

/-! ### The core-by-core switch of a partial image (R341-R344) -/

/-- The section that waits to be switched in. -/
def CoreSt.nextOf (x : CoreSt) (j : JobSlot) : Option CoreCfg := if j = .a then x.nextA else x.nextB

/-- Whether no array or vector work of a core is in progress or waiting. -/
def CoreSt.quiet (x : CoreSt) : Bool :=
  x.quad.run.isNone && x.quad.queued.isNone && x.quad.drain.isNone && x.folds.isEmpty

/-- The ports bound in the plane in force that are inside a token, with their direction. -/
def CoreSt.cutPorts (x : CoreSt) : List (Nat × Bool) :=
  (List.range 32).filterMap fun p => (x.bind p).bind fun b => if (x.port p).mid then some (p, b.out) else none

/-- A forced switch ends the token of an outgoing port: the queued words go, and a closing word takes
their place; and whether a word went. -/
def State.cutOut (s : State) (c p : Nat) : State × Bool :=
  let x := s.core c
  let q := x.port p
  let r := ((x.bind p).map (·.route)).getD 0
  ((s.setCore c (x.setPort p { q with
    queue := [(r, { data := 0, last := true, lend := false, poison := false, invalid := true, tw := 0 })]
    mid := false })).bump rImgForcecnt q.queue.length, !q.queue.isEmpty)

/-- The words of a queue up to and including the first marked LAST, and whether one is. -/
def tokenLen : List (Nat × SWord) → Nat × Bool
  | [] => (0, false)
  | (_, w) :: r => if w.last then (1, true) else ((tokenLen r).1 + 1, (tokenLen r).2)

/-- A forced switch ends the token of an incoming port: its words go as they arrive; and whether one
went or is still to go. -/
def State.cutIn (s : State) (j : JobSlot) (c p : Nat) : State × Bool :=
  let x := s.core c
  let q := x.port p
  let t := tokenLen q.queue
  (((s.setCore c (x.setPort p { q with queue := q.queue.drop t.1, mid := false, discard := !t.2 })).bump
    rImgForcecnt t.1).creditsBack j ((q.queue.take t.1).map (·.1)), decide (0 < t.1) || !t.2)

/-- The tokens that a forced switch cuts: one that discards a word sets job slot A's incomplete bit
(R344). -/
def State.cutTokens (s : State) (j : JobSlot) (c : Nat) : List (Nat × Bool) → State
  | [] => s
  | p :: r =>
    let t := if p.2 then s.cutOut c p.1 else s.cutIn j c p.1
    (if j = .a ∧ t.2 then t.1.setIncomp else t.1).cutTokens j c r

/-- The sequencer takes its reset state, and the feeders start at their bases; vector registers,
operand cache, accumulators and what streams hold stay. -/
def CoreSt.switchIn (x : CoreSt) (j : JobSlot) (cf : CoreCfg) : CoreSt :=
  let y : CoreSt := if j = .a then { x with cfgA := some cf, nextA := none }
    else { x with cfgB := some cf, nextB := none }
  ({ y with
    storeEcc := [], sregs := [], sEcc := [], mregs := [], mEcc := []
    pc := 0, ds := false, dst := 0, loops := [], mode := 0, pmode := 0, pcount := 0
    calPend := 0, stopped := false, exc := 0, excInfo := 0, excPc := 0, hcause := 0
    bksup := false, stepping := false, pend := PendExc.none, fence := none
    quad := Quad.reset, feeders := [] } : CoreSt).feedersToBase [0, 1, 2, 3, 4]

/-- A sink whose entry changes starts at its new bases. -/
def State.switchSinks (s : State) (j : JobSlot) (c : Nat) (old new : List SinkCfg) : State :=
  (List.range 4).foldl (fun t k => if old[k]? = new[k]? then t
    else t.setSink j c k { t.sink j c k with tiles := 0, raw := 0 }) s

/-- The last core has switched: the load ends, and the image and its identity are the partial one's. -/
def State.partialDone (s : State) (l : Loader) : State :=
  match l.img with
  | none => s
  | some i =>
    let s1 : State := if l.slot = .a then { s with imgA := s.imgA.map fun a => a.merge i }
      else { s with imgB := s.imgB.map fun a => a.merge i }
    ((s1.wr64 (if l.slot = .a then rImgIdaLo else rImgIdbLo) i.id).showDigest l).endLoad 0

/-- Whether some core still waits for its switch. -/
def State.coresWait (s : State) (j : JobSlot) : Bool := s.cores.any fun e => (e.2.nextOf j).isSome

/-- CORE_SWITCH: a core switches where it may, and the last one ends the load. -/
def State.coreSwitch (s : State) (c : Nat) : State :=
  match s.loader with
  | none => s
  | some l =>
    let x := s.core c
    match x.nextOf l.slot with
    | none => s
    | some cf =>
      let cut := x.cutPorts
      if s.imgState ≠ imgPending ∨ x.slot ≠ l.slot ∨ x.bare ∨ x.switching ∨ ¬ x.quiet then s
      else if cut ≠ [] ∧ ¬ l.force then s
      else
        let s1 := s.cutTokens l.slot c cut
        let s2 := s1.switchSinks l.slot c ((x.cfg.map (·.sinks)).getD []) cf.sinks
        let s3 := s2.modCore c fun y => y.switchIn l.slot cf
        if s3.coresWait l.slot then s3 else s3.partialDone l

/-- CORE_SWITCH (R342-R344). -/
def execCoreSwitch (c : Core) (s : State) : Host.Outcome State Fault Refusal := .next (s.coreSwitch c.val)

/-- A partial image swaps: the cores of its stages wait for their switch. -/
def State.partialSwap (s : State) (l : Loader) (i : Image) : State :=
  let live (c : CoreCfg) : Bool := ((if l.slot = .a then (s.core c.core).cfgA else (s.core c.core).cfgB)).isSome
  let s1 := (i.cores.filter live).foldl (fun t c => t.modCore c.core fun x =>
    if l.slot = .a then { x with nextA := some c } else { x with nextB := some c }) s
  let s2 := s1.setF fImgStatusState imgPending
  if s2.coresWait l.slot then s2 else s2.partialDone l

/-! ### IMAGE_SWAP and the default image (R337, R338, R340, R346) -/

/-- The next tick at which bits [14:0] of fabric time read 0. -/
def State.nextFrame (s : State) : Nat := (s.time + 32767) / 32768 * 32768

/-- The swap of a load in WAIT. -/
def State.imageSwap (s : State) : State :=
  match s.loader with
  | none => s
  | some l =>
    match l.img with
    | none => s
    | some i =>
      let go := s.reach (if l.applyt = 0 then s.nextFrame else l.applyt.toNat)
      if s.imgState ≠ imgWait ∨ l.slot = .b ∧ (s.bResident ∨ s.windowOpen) then s
      else if i.partImg then
        if s.okBase l.slot i then go.partialSwap l i else go.endLoad 0x16
      else if s.slotIdle l.slot then
        (((if l.slot = .a then go.swapA (some i) l.variant l.pages else go.swapB i l.pages).showDigest
          l).endLoad 0).sdYield fun c => i.cores.any fun k => k.core == c
      else if l.applyt = 0 then s
      else go.endLoad 0x18

/-- IMAGE_SWAP. -/
def execImageSwap (s : State) : Host.Outcome State Fault Refusal := .next s.imageSwap

/-- The default image takes job slot A, and job slot B is unloaded. -/
def State.toDefault (s : State) : State :=
  let s1 := if s.imgB.isSome then s.unloadSlotB else s
  { s1.swapA none 0 [] with defPend := false }

/-- DEFAULT_IMAGE_APPLY (R346): at a frame boundary at which job slot A is idle. -/
def execDefaultImageApply (s : State) : Host.Outcome State Fault Refusal :=
  .next (if s.defPend ∧ s.slotIdle .a then (s.reach s.nextFrame).toDefault else s)

/-! ### The context switch (R437, R707) -/

/-- An unloading of job slot B's image that waits is performed once no core holds the slot. -/
def State.unloadIfDue (s : State) : State := if s.unloadB ∧ ¬ s.bResident then s.unloadSlotB else s

/-- Whether the stage of a job slot to which a core belongs has lost a core to Sheepdog since the
image was applied (R326). -/
def State.stageOut (s : State) (j : JobSlot) (c : Nat) : Bool :=
  let st (k : Nat) : Option Nat := ((s.core k).cfgOf j).map (·.stage)
  s.sd.retired.any fun k => k == c || (st k).isSome && st k == st c

/-- A core of a stage that has lost a core stands stopped (R326). -/
def State.stopRetired (s : State) (c : Nat) : State :=
  if s.stageOut (s.core c).slot c ∧ ¬ (s.core c).bare then s.modCore c fun x => { x with stopped := true } else s

/-- The switch of a core, with what it leads to: a core of a stage that has lost one stays stopped,
job slot B's image is unloaded where that waits, and a test of a core that now holds a job context
goes back to the queue. -/
def State.switchCore (s : State) (c : Nat) : State :=
  (((s.contextSwitch c).stopRetired c).unloadIfDue).sdYield fun k =>
    k == c && !(s.contextSwitch c |>.core c).bare

/-- After PREEMPT the core finishes issued work, saves the outgoing slot and restores the
incoming one (R437). -/
def execContextSwitch (c : Core) (s : State) : Host.Outcome State Fault Refusal := .next (s.switchCore c.val)

end Sys2Proof.Machine
end

