-- ==== Sys2Proof/Machine/Power.lean ====
section
/-! DEFINITION. Power: operating points and their changes, voltage and current holds, the package
ceiling, thermal protection and the load switches (R645-R672). -/

namespace Sys2Proof.Machine

open Sys2Proof

/-! ### Voltage (R647, R651, R652) -/

/-- Whether a die holds with cause VOLTAGE. -/
def State.vhold (s : State) (die : Nat) : Bool := if die = 0 then s.pwr.vholdW else s.pwr.vholdE

/-- Set it. -/
def State.setVhold (s : State) (die : Nat) (b : Bool) : State :=
  if die = 0 then { s with pwr := { s.pwr with vholdW := b } } else { s with pwr := { s.pwr with vholdE := b } }

/-- The VOLTAGE hold of a die follows its voltages; an entry into it is logged. -/
def State.voltageCheck (s : State) (die : Nat) : State :=
  match s.vlow die 20 with
  | q :: _ =>
    if s.vhold die then s
    else (s.setVhold die true).log
      ⟨15, 0x0001, unitRail q, false, false, s.getF (fPwrVqVsense q), s.getF (fPwrVqVreq q) - 20⟩
  | [] => if s.vlow die 10 = [] then s.setVhold die false else s

/-- VREQ of every quadrant changes. -/
def State.setVreq (s : State) (mv : Nat) : State := ((s.putVreq mv).voltageCheck 0).voltageCheck 1

/-! ### A change of the multiplier (R649-R651) -/

/-- The staged multiplier of a phase. -/
def fPhmult (ph : Nat) : Fld := ⟨rPwrPhmult, 5 * ph, 5⟩

/-- Whether the idle PLL of a die is locked to the pending multiplier. -/
def State.pllOk (s : State) (die : Nat) : Bool := Tab.look (fun _ => false) s.pwr.pll die

/-- Whether a die has switched. -/
def State.hasSwitched (s : State) (die : Nat) : Bool := Tab.look (fun _ => false) s.pwr.switched die

/-- Both dies have switched: the new multiplier is in force. -/
def State.switchOver (s : State) (m : Nat) : State :=
  let s1 := ((s.setF fPwrOppointMult m).setB fPwrOppointSwpend false).setB fPwrOppointPllready false
  { s1 with pwr := { s1.pwr with target := none, switched := [], pll := [], waiting := false } }

/-- Both dies have switched to a higher multiplier, whose VREQ stands since the staging. -/
def State.switchDone (s : State) (m : Nat) : State := (s.switchOver m).setVreq (s.vtabOf m)

/-- Both dies have switched to a lower multiplier; VREQ follows one tk later. -/
def State.switchLower (s : State) (m : Nat) : State :=
  let s1 := s.switchOver m
  { s1 with pwr := { s1.pwr with vfall := some m } }

/-- A die switches where it waits to raise, its idle PLL is locked and its quadrants report VOK. -/
def State.trySwitch (s : State) (die : Nat) : State :=
  match s.pwr.target with
  | none => s
  | some m =>
    if s.pwr.waiting ∧ s.pllOk die ∧ (quadrants die).all (fun q => s.bitF (fPwrVqVok q)) then
      let s1 : State := { s with pwr := { s.pwr with switched := Tab.ins s.pwr.switched die true } }
      if s1.hasSwitched 0 ∧ s1.hasSwitched 1 then s1.switchDone m else s1
    else s

/-- A change to `m` is taken as staged. -/
def State.stageChange (s : State) (m : Nat) : State :=
  let s1 := ({ s with pwr := { s.pwr with target := some m, switched := [], pll := [], waiting := false } } :
    State).setB fPwrOppointSwpend true
  if s.getF fPwrOppointMult < m then
    ({ s1 with pwr := { s1.pwr with vfall := none } } : State).setVreq (s1.vtabOf m)
  else s1

/-- The pending change is made: a lower multiplier at once, a higher one when each die can switch. -/
def State.makeChange (s : State) : State :=
  match s.pwr.target with
  | none => s
  | some m =>
    if m < s.getF fPwrOppointMult then s.switchLower m
    else
      (({ s with pwr := { s.pwr with waiting := true } } : State).trySwitch 0).trySwitch 1

/-- The multiplier at the START of a phase whose firing is a frame boundary (R650). -/
def State.phaseMult (s : State) (ph : Nat) : State :=
  let m := s.getF (fPhmult ph)
  match s.pwr.target with
  | some t =>
    if t = m then s.makeChange
    else (({ s with pwr := { s.pwr with deferred := some ph } } : State).makeChange)
  | none => if m = s.getF fPwrOppointMult then s else (s.stageChange m).makeChange

/-- At a frame boundary, the change that waited for another one to complete is staged and made. -/
def State.deferredMult (s : State) : State :=
  match s.pwr.target, s.pwr.deferred with
  | none, some ph => ({ s with pwr := { s.pwr with deferred := none } } : State).phaseMult ph
  | _, _ => s

/-- Under the default image a staged multiplier applies from the first marker. -/
def State.markerMult (s : State) : State := if s.imgA.isNone then s.makeChange else s

/-- The entry of a phase; the default image has one phase without limits of its own. -/
def State.phaseCfg (s : State) (ph : Nat) : Option PhaseCfg :=
  match s.imgA with
  | some i => i.phases[ph]?
  | none => if ph = 0 then some ⟨8, 255, 0⟩ else none

/-- Whether a phase's START comparator fires on frame boundaries only. -/
def State.startOnFrame (s : State) (p : PhaseCfg) : Bool :=
  s.imgA.isNone || ((s.cal p.start).period % 32768 == 0 && (s.cal p.start).phase % 32768 == 0)

/-- Whether a staging is refused (R649). -/
def State.stageBad (s : State) (ph m : Nat) : Bool :=
  match s.phaseCfg ph with
  | none => true
  | some p =>
    decide (m < p.minMult) || decide (s.getF fPwrCapMaxmult < m) || decide (p.dlat < (9 * m + 1) / 2)
      || (m != s.getF fPwrOppointMult && !s.startOnFrame p) || s.bitF fPwrOppointSwpend

/-- Jusia stages a multiplier, or reports the refusal through the mailbox (R30; log entry 74). -/
def State.stage (s : State) (ph m : Nat) : State :=
  if s.stageBad ph m then s.emit (.refusal ph m)
  else
    let s1 := s.setF (fPhmult ph) m
    if m = s.getF fPwrOppointMult then s1 else s1.stageChange m

/-- OPPOINT_STAGE (R649). -/
def execOppointStage (ph : Fin 4) (m : BitVec 5) (s : State) : Host.Outcome State Fault Refusal :=
  .next (s.stage ph.val m.toNat)

/-- A die's idle PLL is locked. -/
def State.pllLocked (s : State) (die : Nat) : State :=
  if s.pwr.target.isNone then s
  else
    let s1 : State := { s with pwr := { s.pwr with pll := Tab.ins s.pwr.pll die true } }
    (s1.setB fPwrOppointPllready (s1.pllOk 0 && s1.pllOk 1)).trySwitch die

/-- PLL_LOCK (R651). -/
def execPllLock (die : Die) (s : State) : Host.Outcome State Fault Refusal := .next (s.pllLocked die.val)

/-- A quadrant's voltage is sensed. -/
def State.vsense (s : State) (q mv : Nat) : State :=
  (((s.setF (fPwrVqVsense q) mv).vokShow q).voltageCheck (q / 4)).trySwitch (q / 4)

/-- VOLTAGE_HOLD (R652). -/
def execVoltageHold (q : Fin 8) (mv : BitVec 11) (s : State) : Host.Outcome State Fault Refusal :=
  .next (s.vsense q.val mv.toNat)

/-- VOK_RISE (R652). -/
def execVokRise (q : Fin 8) (mv : BitVec 11) (s : State) : Host.Outcome State Fault Refusal :=
  .next (s.vsense q.val mv.toNat)

/-! ### Current (R655-R657) -/

/-- The rails that govern a die. -/
def governing (die : Nat) : List Nat := quadrants die ++ [8, 9, 10]

/-- The ACT limit of a rail. -/
def State.act (s : State) (r : Nat) : Nat := s.getF (fPwrIlimAct r)

/-- A rail's mean current is measured; a rail with no clock to slow logs a rising OVER. -/
def State.railMeasure (s : State) (r : Nat) (v : BitVec 16) : State :=
  let isOver := decide (s.act r < v.toNat)
  let s1 := (s.setF (fPwrImeasIavg r) v.toNat).setB (fPwrImeasOver r) isOver
  if 11 ≤ r ∧ isOver ∧ ¬ s.bitF (fPwrImeasOver r) then
    s1.log ⟨15, 0x0002, unitRail r, false, false, v.toNat, s.act r⟩
  else s1

/-- current_level (R656). -/
def State.levelNext (s : State) (die level : Nat) : Nat :=
  let i (r : Nat) : Nat := s.getF (fPwrImeasIavg r)
  if (governing die).any fun r => decide (s.act r < i r) then min (level + 2) 8
  else if (governing die).all fun r => decide (i r ≤ s.act r - s.act r / 16) then level - 1
  else level

/-- The level of a die is set. -/
def State.setLevel (s : State) (die level : Nat) : State :=
  if die = 0 then s.setF fPwrStretchLevelw level else s.setF fPwrStretchLevele level

/-- The evaluation of every 8 tk. -/
def State.currentEval (s : State) (l : List (BitVec 16)) : State :=
  let s0 := s.reach ((s.time + 7) / 8 * 8)
  let s1 := ((List.range 17).zip l).foldl (fun t p => t.railMeasure p.1 p.2) s0
  let s2 : State := { s1 with pwr := { s1.pwr with fastW := false, fastE := false } }
  (s2.setLevel 0 (s2.levelNext 0 (s2.heldLevel 0))).setLevel 1 (s2.levelNext 1 (s2.heldLevel 1))

/-- CURRENT_EVALUATION (R656): the means of rails 0 to 16, in 0.25 A. -/
def execCurrentEvaluation (iavg : List (BitVec 16)) (s : State) : Host.Outcome State Fault Refusal :=
  .next (s.currentEval iavg)

/-- A single tk's current of a governing rail. -/
def State.fast (s : State) (r cur : Nat) : State :=
  if s.act r + s.act r / 4 < cur then
    let w := (governing 0).contains r
    let e := (governing 1).contains r
    let s1 : State := { s with pwr := { s.pwr with fastW := s.pwr.fastW || w, fastE := s.pwr.fastE || e } }
    let s2 := if w then s1.setLevel 0 8 else s1
    if e then s2.setLevel 1 8 else s2
  else s

/-- FAST (R657). -/
def execFastCurrent (rail : Fin 11) (cur : BitVec 16) (s : State) : Host.Outcome State Fault Refusal :=
  .next (s.fast rail.val cur.toNat)

/-! ### The package ceiling (R658, R659) -/

/-- The last `n` of a list. -/
def lastN {α : Type} (n : Nat) (l : List α) : List α := l.drop (l.length - n)

/-- The package controller at the start of a sample; `e` is the energy of the last one. -/
def State.ceilSample (s : State) (e : Nat) : State :=
  let s0 := s.reach ((s.time + 124) / 125 * 125)
  let cs := lastN 999 (s0.pwr.charges ++ [max e 330])
  let es := lastN 1000 (s0.pwr.samples ++ [e])
  let run := decide (sumNat cs + 1708 + 2 * 1708 ≤ 1000 * s0.getF fPwrCeilLimit)
  let s1 : State := { s0 with pwr := { s0.pwr with charges := cs, samples := es } }
  ((s1.setF fPwrPkgSampw e).setF fPwrPkgAvgw (sumNat es / 1000)).setB fPwrCeilHolding (!run)

/-- Jusia sets SETLIMIT, at most LIMMAX, and clears RSTART where `clear` holds; the other conditions stand
(R658). -/
def State.setCeiling (s : State) (w : Nat) (clear : Bool) : State :=
  let s1 := s.setF fPwrCeilSetlimit (min w (s.getF fPwrCapLimmax))
  (if clear then s1.setB fPwrCeilRstart false else s1).ceilShow

/-- CEILING_SAMPLE (R659). -/
def execCeilingSample (e : BitVec 16) (s : State) : Host.Outcome State Fault Refusal :=
  .next (s.ceilSample e.toNat)

/-! ### Load switches (R665-R670) -/

/-- OFF. -/
def optOff : Nat := 0
/-- RAMP. -/
def optRamp : Nat := 1
/-- ON. -/
def optOn : Nat := 2
/-- TRIPPED. -/
def optTripped : Nat := 3
/-- BLOCKED. -/
def optBlocked : Nat := 4

/-- The state of a load switch. -/
def State.opt (s : State) (q : Nat) : Nat := s.getF (fPwrOptStatState q)

/-- A port of an engine that loses its power. -/
def State.unpower (s : State) (p : Nat) : State :=
  let s1 := s.setPort p { s.port p with signal := false }
  if s.portState p = portFailed then s1
  else
    let s2 := s1.downPort p
    if s.portState p = portIsUp then s2.haltPort else s2

/-- A switch that leaves ON takes the ports of its engines DOWN. -/
def State.optLeave (s : State) (q : Nat) : State :=
  if s.opt q = optOn then [0, 1, 2, 3].foldl (fun t k => t.unpower (4 * q + k)) s else s

/-- A switch enters a state with a cause. -/
def State.setOpt (s : State) (q st cause : Nat) : State :=
  ((s.optLeave q).setF (fPwrOptStatState q) st).setF (fPwrOptStatCause q) cause

/-- A trip: the sensed value and the limit go into its record. -/
def State.optTrip (s : State) (q cause sensed limit : Nat) : State :=
  let s1 := (s.setOpt q optTripped cause).bumpF (fPwrOptStatTrips q) 1
  (({ s1 with pwr := { s1.pwr with tripped := Tab.ins s1.pwr.tripped q true } } : State).log
    ⟨15, 0x0100 + cause, unitRail (13 + q), false, false, sensed, limit⟩).msix 0 7

/-- A trip whose record holds a value that the command does not carry: a free value. -/
def State.optTripFree (s : State) (q cause limit : Nat) : State :=
  let v := s.takeFree
  v.2.optTrip q cause v.1.toNat limit

/-- 10 s in tk. -/
def tenSeconds : Nat := 1250000000

/-- The retries of a switch in the last 10 s, oldest first. -/
def State.retriesOf (s : State) (q : Nat) : List W64 :=
  (Tab.look (fun _ => []) s.pwr.retries q).filter fun t => decide (s.age t < tenSeconds)

/-- Show the retries of a switch. -/
def State.retryShow (s : State) (q : Nat) : State :=
  let l := s.retriesOf q
  ({ s with pwr := { s.pwr with retries := Tab.ins s.pwr.retries q l } } : State).setF (fPwrOptStatRetries q) l.length

/-- EN = 1: a ramp, a retry of one, or a refusal. -/
def State.optEnable (s : State) (q : Nat) : State :=
  let s1 := (s.setB (fPwrOptCtlEn q) true).retryShow q
  if (s.opt q ≠ optOff ∧ s.opt q ≠ optTripped) ∨ s.bitF fPwrThstatCrit then s1
  else if ¬ Tab.look (fun _ => false) s.pwr.tripped q then s1.setOpt q optRamp 0
  else if 3 ≤ (s1.retriesOf q).length then s1.setOpt q optBlocked (s.getF (fPwrOptStatCause q))
  else
    let l := s1.retriesOf q ++ [s1.clock]
    (({ s1 with pwr := { s1.pwr with retries := Tab.ins s1.pwr.retries q l } } : State).retryShow q).setOpt q
      optRamp 0

/-- OPT_ENABLE (R666, R669). -/
def execOptEnable (q : Fin 4) (s : State) : Host.Outcome State Fault Refusal := .next (s.optEnable q.val)

/-- OPT_DISABLE (R666). -/
def execOptDisable (q : Fin 4) (s : State) : Host.Outcome State Fault Refusal :=
  .next ((s.setB (fPwrOptCtlEn q.val) false).setOpt q.val optOff 0)

/-- The output reaches 3.20 V. -/
def State.rampDone (s : State) (q : Nat) : State :=
  if s.opt q = optRamp then
    ({ s with pwr := { s.pwr with tripped := Tab.ins s.pwr.tripped q false } } : State).setOpt q optOn 0
  else s

/-- RAMP_COMPLETE (R666). -/
def execRampComplete (q : Fin 4) (s : State) : Host.Outcome State Fault Refusal := .next (s.rampDone q.val)

/-- RAMPSHORT (R667). -/
def execRampshort (q : Fin 4) (s : State) : Host.Outcome State Fault Refusal :=
  .next (if s.opt q.val = optRamp then
      let v := s.takeFree
      v.2.optTripFree q.val 1 (v.1.toNat % 2 ^ 32)
    else s)

/-- OVERCURRENT (R668). -/
def execOvercurrent (q : Fin 4) (s : State) : Host.Outcome State Fault Refusal :=
  .next (if s.opt q.val = optOn then s.optTripFree q.val 2 96 else s)

/-- UNDERVOLT (R668). -/
def execUndervolt (q : Fin 4) (s : State) : Host.Outcome State Fault Refusal :=
  .next (if s.opt q.val = optOn then s.optTripFree q.val 3 3000 else s)

/-- BLOCKED ends 10 s after the oldest of the three retries started. -/
def State.blockedEnd (s : State) (q : Nat) : State :=
  if s.opt q = optBlocked then
    let s1 := match s.retriesOf q with
      | t :: _ => s.reachFrom t tenSeconds
      | [] => s
    (s1.retryShow q).setF (fPwrOptStatState q) optTripped
  else s

/-- BLOCKED_END (R669). -/
def execBlockedEnd (q : Fin 4) (s : State) : Host.Outcome State Fault Refusal := .next (s.blockedEnd q.val)

/-! ### Temperature (R662-R664) -/

/-- A sensor's reading. -/
def State.temp (s : State) (n : Nat) : Int := toS 12 (s.getF (fPwrTempTemp n))

/-- Whether a sensor has been read. -/
def State.tempValid (s : State) (n : Nat) : Bool := s.bitF (fPwrTempValid n)

/-- The quadrant and stack sensors of a die. -/
def dieSensors (die : Nat) : List Nat := quadrants die ++ (quadrants die).map (8 + ·)

/-- The thermal hold of a die after a reading. -/
def State.throttled (s : State) (die : Nat) (was : Bool) : Bool :=
  let lim : Int := 8 * s.getF fPwrThcfgTthr
  let ts := ((dieSensors die).filter s.tempValid).map s.temp
  if ts.any fun t => decide (lim ≤ t) then true
  else was && !(ts.all fun t => decide (t < lim - 16))

/-- The first sensor with the highest reading. -/
def State.hottest (s : State) : Nat :=
  (List.range 20).foldl (fun a n =>
    if s.tempValid n ∧ (¬ s.tempValid a ∨ s.temp a < s.temp n) then n else a) 0

/-- Load switches that are RAMP or ON open with cause THERMAL. -/
def State.thermalOff (s : State) (t lim : Nat) : State :=
  [0, 1, 2, 3].foldl (fun u q => if u.opt q = optRamp ∨ u.opt q = optOn then u.optTrip q 4 t lim else u) s

/-- A critical reading. -/
def State.critCheck (s : State) : State :=
  let lim := 8 * s.getF fPwrThcfgTcrit
  match (List.range 20).find? fun n => s.tempValid n && decide ((lim : Int) ≤ s.temp n) with
  | some n =>
    if s.bitF fPwrThstatCrit then s
    else
      ((((s.setB fPwrThstatCrit true).log ⟨15, 0x0200, unitSensor n, false, false, (s.temp n).toNat, lim⟩).msix
        0 7).thermalOff (s.temp n).toNat lim)
  | none => s

/-- The beginning of a thermal hold is signalled on vector 7 (R680). -/
def State.holdBegins (s t : State) : State :=
  if (t.bitF fPwrThstatThrotw ∧ ¬ s.bitF fPwrThstatThrotw) ∨ (t.bitF fPwrThstatThrote ∧ ¬ s.bitF fPwrThstatThrote)
  then t.msix 0 7 else t

/-- The sensors are read. -/
def State.tempRead (s : State) (l : List (BitVec 12)) : State :=
  let s0 := s.reach ((s.time + 1023) / 1024 * 1024)
  let s1 := ((List.range 20).zip l).foldl (fun t p =>
    (t.setF (fPwrTempTemp p.1) p.2.toNat).setB (fPwrTempValid p.1) true) s0
  let h := s1.hottest
  let s2 := (s1.setF fPwrThstatHot h).setF fPwrThstatTmax (s1.getF (fPwrTempTemp h))
  let s3 := (s2.setB fPwrThstatThrotw (s2.throttled 0 (s.bitF fPwrThstatThrotw))).setB fPwrThstatThrote
    (s2.throttled 1 (s.bitF fPwrThstatThrote))
  (s.holdBegins s3).critCheck

/-- TEMPERATURE_READ (R662): sensors 0 to 19, in 0.125 °C. -/
def execTemperatureRead (temps : List (BitVec 12)) (s : State) : Host.Outcome State Fault Refusal :=
  .next (s.tempRead temps)

/-! ### The counters (R672) -/

/-- Clear the lifetime counters. -/
def State.pwrClr (s : State) : State :=
  [0, 1, 2, 3].foldl (fun t q => t.setF (fPwrOptStatTrips q) 0) ((s.wr rPwrHeldw 0).wr rPwrHelde 0)

/-- PWR_CLRCNT (R672). -/
def execPwrClrcnt (r : Requester) (_v : BitVec 32) (s : State) : Host.Outcome State Fault Refusal :=
  .next (s.bar0 r State.pwrClr)

end Sys2Proof.Machine
end

