-- ==== Sys2Proof/Machine/SdStart.lean ====
section
/-! DEFINITION. Sheepdog's queue: which tests are eligible, and the start of one (R135, R724, R725,
R727). -/

namespace Sys2Proof.Machine

open Sys2Proof

/-- The bound of a core test in tk: 40 µs for a bank, 20 µs for an array. -/
def SdTest.bound (t : SdTest) : Nat := if t.test = 2 then 2500 else 5000

/-- Whether a core in an open window whose TEST flag is set has time for a test and the switch back
before the window closes. -/
def State.windowLeaves (s : State) (c n : Nat) : Bool :=
  let m := max 1 (s.getF fPwrOppointMult)
  s.openWindows.any fun w => w.test && w.cores.getLsbD c && (s.cal w.closeCal).armed
    && decide (s.time + n + (1450 + m - 1) / m ≤ (s.cal w.closeCal).next.toNat)

/-- Whether a core holds no job context for as long as a test needs (R135, R727). -/
def State.coreFree (s : State) (c n : Nat) : Bool :=
  (s.imgA.isNone && s.imgB.isNone) || ((s.core c).bare && !(s.core c).switching && s.windowLeaves c n)

/-- Whether no active image declares a staging region in a bank. -/
def State.bankFree (s : State) (k b : Nat) : Bool :=
  (s.imgA.toList ++ s.imgB.toList).all fun i => i.staging.all fun g =>
    g.cluster != k || decide (g.offset + g.length ≤ b * 0x80000) || decide ((b + 1) * 0x80000 ≤ g.offset)

/-- Whether a bank engine is idle, and stays so. -/
def State.engineFree (s : State) (d : Nat) : Bool :=
  let k := s.stk d
  let cmds := ((s.imgA.map (·.scheds)).getD []).any fun b => b.stack == d && b.eps.any fun e => e.typ == 3
  let lists := decide (0 < s.getF fBwtCllenEntries) || decide (0 < s.getF fBwtSllenEntries)
  k.qa.isEmpty && k.qb.isEmpty && k.qh.isEmpty && (!s.armed || !(cmds || lists))

/-- Whether a queued test is eligible now. -/
def State.eligible (s : State) (t : SdTest) : Bool :=
  match t.test, t.core with
  | 1, none => s.bankFree (t.unit % 2048) t.sub
  | 4, _ => s.engineFree (t.unit % 2048 / 64)
  | _, some c => s.coreFree c t.bound
  | _, none => true

/-- Show the queue's level. -/
def State.sdShow (s : State) : State := s.setF fErrSdstatQlevel s.sd.queue.length

/-- The first eligible test starts, if it is of the kind named; one test runs at a time. -/
def State.sdStart (s : State) (kind : Nat) : State :=
  if s.sd.running.isSome then s
  else match s.sd.queue.find? s.eligible with
    | none => s
    | some t =>
      if t.test ≠ kind then s
      else
        let s1 : State := { s with sd := { s.sd with queue := s.sd.queue.filter (· ≠ t), running := some t } }
        (s1.sdShow).setB fErrStatusSdbusy true

end Sys2Proof.Machine
end

