-- ==== Sys2Proof/Machine/Boundary.lean ====
section
/-! DEFINITION. What comes due in fabric time: the firings of the comparators and where they are
delivered, the markers, and the frame boundary with its gate (R203, R204, R213, R281, R286, R486, R487,
R489, R490, R492, R498, R521-R523, R650). -/

namespace Sys2Proof.Machine

open Sys2Proof

/-! ### The delivery of a firing (R203, R204, R213, R439) -/

/-- The job slot of an owner code of a comparator. -/
def ownerSlot (owner : Nat) : Option JobSlot :=
  if owner = 1 then some .a else if owner = 2 then some .b else none

/-- Whether a comparator is assigned to a core's program of a job slot. -/
def CoreSt.calAssigned (x : CoreSt) (j : JobSlot) (n : Nat) : Bool :=
  (((if j = .a then x.cfgA else x.cfgB).map CoreCfg.calmask).getD 0).getLsbD n

/-- CAL_MISS of a comparator is pending; an earlier one stays. -/
def PendExc.miss (p : PendExc) (n : Nat) : PendExc := { p with cal := some (p.cal.getD n) }

/-- A firing sets the core's pending bit, or raises CAL_MISS where it is set already. A context that
is not resident takes both in its saved record; an EMPTY area keeps nothing. -/
def State.calTo (s : State) (j : JobSlot) (n c : Nat) : State :=
  let x := s.core c
  if ¬ x.calAssigned j n then s
  else if x.slot = j ∧ ¬ x.bare then
    if x.calPend.getLsbD n then s.pendIn c j 0 fun p => p.miss n
    else s.setCore c { x with calPend := x.calPend ||| BitVec.ofNat 64 (2 ^ n) }
  else if (if j = .a then x.emptyA else x.emptyB) then s
  else
    let a := csaSeq j + 0x30
    let w := leNat (Tab.lookList (fun _ => 0) x.spad a 8)
    if w.testBit n then s.pendIn c j 0 fun p => p.miss n
    else s.spadWrite c a (leBytes 8 (w ||| 2 ^ n))

/-- A firing reaches every core to which it is assigned. -/
def State.calToAll (s : State) (j : JobSlot) (n : Nat) : State :=
  (List.range 256).foldl (fun t c => t.calTo j n c) s

/-- A window boundary makes PREEMPT pending in a core: an opening where job slot A is live, a closing
where it is not. -/
def State.windowTo (s : State) (n : Nat) (opening : Bool) (c : Nat) : State :=
  let x := s.core c
  if x.switching ∨ x.holdsA ≠ opening then s
  else s.setCore c { x with pend := { x.pend with preempt := some n } }

/-- The boundaries of window `k` that a comparator marks: from OPEN to CLOSE the window is open. -/
def State.windowAt (s : State) (n k : Nat) (w : WindowCfg) : State :=
  let cs := (List.range 256).filter fun c => w.cores.getLsbD c
  let t1 := if w.openCal = n then
      cs.foldl (fun u c => u.windowTo n true c) { s with winOpen := s.winOpen.filter (· ≠ k) ++ [k] }
    else s
  if w.closeCal = n then
    cs.foldl (fun u c => u.windowTo n false c) { t1 with winOpen := t1.winOpen.filter (· ≠ k) }
  else t1

/-- The boundaries that a comparator marks. -/
def State.windowFire (s : State) (n : Nat) : State :=
  let ws := (s.imgA.map (·.windows)).getD []
  ((List.range ws.length).zip ws).foldl (fun t w => t.windowAt n w.1 w.2) s

/-! ### The START of a phase (R281, R286, R413, R650) -/

/-- An endpoint's walk restarts; the words that it holds and its fault stay. -/
def EpSt.restart (e : EpSt) : EpSt := { e with walk := 0, sword := 0, spois := false, abandoned := false }

/-- The walks of a job slot restart. -/
def State.restartWalks (s : State) (j : JobSlot) : State :=
  { s with eps := s.eps.map fun (e : Nat × EpSt) => (e.1, if e.1 / 1920 = slotNat j then e.2.restart else e.2) }

/-- The bank schedules start at index 0. -/
def State.restartScheds (s : State) : State :=
  { s with stks := s.stks.map fun (e : Nat × StackSt) => (e.1, { e.2 with sched := 0 }) }

/-- The phases of an image that a comparator starts. -/
def Image.startedBy (i : Image) (n : Nat) : List Nat :=
  (List.range i.phases.length).filter fun p => (i.phases[p]?.map (·.start)) == some n

/-- Whether the multiplier that Jusia staged for a phase is below the phase's MINMULT (R30). -/
def State.phaseRefused (s : State) (p : Nat) : Bool :=
  match s.phaseCfg p with
  | some c => decide (s.getF (fPhmult p) < c.minMult)
  | none => false

/-- A phase of job slot A starts, unless its MINMULT exceeds the multiplier staged for it, and Jusia
reports that (R30); on a frame boundary its multiplier is the target (R650). -/
def State.phaseStart (s : State) (p : Nat) : State :=
  if s.phaseRefused p then s.emit (.refusal p (s.getF (fPhmult p)))
  else
    let s1 := ((s.setF fPwrOppointPhase p).restartScheds).restartWalks .a
    if s1.time % 32768 = 0 then s1.phaseMult p else s1

/-- What a firing does to the phases of its job slot. -/
def State.phaseFire (s : State) (j : JobSlot) (n : Nat) : State :=
  let ps := ((s.image j).map fun i => i.startedBy n).getD []
  match j with
  | .a => ps.foldl (fun t p => t.phaseStart p) s
  | .b => if ps = [] then s else s.restartWalks .b

/-! ### CALENDAR_FIRING (R492, R573-R576) -/

/-- A firing of a job slot is delivered to every core and unit to which it is assigned. -/
def State.deliver (s : State) (j : JobSlot) (n : Nat) : State :=
  let s1 := (s.phaseFire j n).calToAll j n
  if j = .a then ((s1.windowFire n).collFire n).muleFire n else s1

/-- A firing of a comparator of a job slot: Bellwether may withhold that of STARTCAL. -/
def State.slotFire (s : State) (j : JobSlot) (n : Nat) : State :=
  if j = .a ∧ n = s.getF fBwtCfgStartcal then
    let r := s.startFire
    if r.1 then r.2.deliver j n else r.2
  else s.deliver j n

/-- A firing of a comparator that the device owns (R494): CAL60 and CAL61 are Bellwether's, CAL62 starts the
link test that is due, and CAL63 calls Jusia's periodic services. -/
def State.deviceFire (s : State) (n : Nat) : State :=
  if n = 61 then s.sealNow
  else if n = 60 then s.programStart
  else if n = 62 then s.sdStart 5
  else s.emit .service

/-- The comparator reaches its next matching time. -/
def State.calFire (s : State) (n : Nat) : State :=
  let x := s.cal n
  if ¬ x.armed ∨ ¬ s.timeRuns then s
  else
    let s1 := s.reach x.next.toNat
    let s2 := s1.putCal n { x with next := x.next + BitVec.ofNat 64 x.period }
    match ownerSlot x.owner with
    | some j => s2.slotFire j n
    | none => s2.deviceFire n

/-- CALENDAR_FIRING (R492). -/
def execCalendarFiring (n : Fin 64) (s : State) : Host.Outcome State Fault Refusal := .next (s.calFire n.val)

/-! ### MARKER (R486, R487, R489, R498) -/

/-- Every port that has READY both ways enters UP. -/
def State.upAll (s : State) : State := (List.range 19).foldl (fun t p => t.portUpAt p) s

/-- An APPLY that waits loads FAB_TSET, unless the frame number is set already. -/
def State.applySet (s : State) : State :=
  if ¬ s.fab.setPend then s
  else
    let s1 : State := { s with fab := { s.fab with setPend := false } }
    if s.bitF fFabTstatFrameset then s1
    else (s1.jumpTime (BitVec.ofNat 64 (s.time % 32768 + 32768 * (s.rd64 rFabTsetLo).toNat))).setB
      fFabTstatFrameset true

/-- A valid marker. -/
def State.validMarker (s : State) : State :=
  let s1 := ({ s with fab := { s.fab with wrongCount := 0 } } : State).applySet
  (({ s1 with fab := { s1.fab with lastMark := some s1.fab.time } } : State).upAll).markerMult

/-- A link that is in bring-up or UP fails with TIMEERR. -/
def State.failTime (s : State) (p : Nat) : State :=
  if 1 ≤ s.portState p ∧ s.portState p ≤ 5 then s.failPort p 5 (s.time, 0) else s

/-- The device steps to the phase of five consecutive markers. -/
def State.timeStep (s : State) : State :=
  let s1 := s.jumpTime (BitVec.ofNat 64 (s.time / 32768 * 32768))
  let s2 := (List.range 19).foldl (fun t p => t.failTime p) s1
  (((s2.log ⟨12, 0x0100, unitDevice, false, false, s2.time, 0⟩).pendHalt 9).validMarker)

/-- A marker at a tick at which bits [14:0] of fabric time do not read 0. -/
def State.wrongMarker (s : State) : State :=
  let ph : BitVec 15 := s.fab.time.setWidth 15
  let n := if s.fab.wrongCount ≠ 0 ∧ s.fab.wrongPhase = ph then s.fab.wrongCount + 1 else 1
  if n = 5 then s.timeStep
  else ({ s with fab := { s.fab with wrongPhase := ph, wrongCount := n } } : State).bumpF fFabTstatMarkerr 1

/-- An FMARK marker arrives now. -/
def State.marker (s : State) : State :=
  if s.bitF fFabTstatSource ∨ s.bitF fFabTstatFreflost then s
  else if ¬ s.bitF fFabTstatLock then
    ((s.jumpTime (BitVec.ofNat 64 (s.time / 32768 * 32768))).setLock).validMarker
  else if s.time % 32768 = 0 then s.validMarker
  else s.wrongMarker

/-- MARKER (R486, R761): the command is a marker, so an FMARK edge that is none does not come. -/
def execMarker (s : State) : Host.Outcome State Fault Refusal := .next s.marker

/-! ### FRAME_BOUNDARY and FCY_COMPLETE (R487, R489, R521-R523) -/

/-- The next frame boundary that has not been judged. -/
def State.nextBoundary (s : State) : Nat :=
  match s.fab.boundary with
  | some b => if s.nextFrame ≤ b.toNat then b.toNat / 32768 * 32768 + 32768 else s.nextFrame
  | none => s.nextFrame

/-- Whether BREAK has stopped the program of job slot A on a core, resident or saved. -/
def CoreSt.broken (x : CoreSt) : Bool :=
  if x.cfgA.isNone then false
  else if x.holdsA then x.stopped && x.exc.toNat % 8 == 6
  else !x.emptyA && (x.spadNat (csaSeq .a + 4) 1).testBit 2 && x.spadNat (csaSeq .a + 0x38) 1 % 8 == 6

/-- Whether a die holds a core of job slot A that BREAK has stopped. -/
def State.dieBroken (s : State) (die : Nat) : Bool :=
  (List.range 128).any fun c => (s.core (128 * die + c)).broken

/-- The FCY that a die has still to finish. -/
def State.owed (s : State) (die : Nat) : Nat := if die = 0 then s.fab.owedW else s.fab.owedE

/-- Set it. -/
def State.setOwed (s : State) (die n : Nat) : State :=
  if die = 0 then { s with fab := { s.fab with owedW := n } } else { s with fab := { s.fab with owedE := n } }

/-- A die at a frame boundary: LATE unless it has finished its FCY and BREAK holds no core of it. -/
def State.judgeDie (s : State) (die : Nat) : State :=
  let late := decide (0 < s.owed die) || s.dieBroken die
  let s1 := (s.setOwed die (s.owed die + 1)).setB (if die = 0 then fFabGateLatew else fFabGateLatee) late
  if late then (s1.bumpF (if die = 0 then fFabLatecntWest else fFabLatecntEast) 1).setIncomp else s1

/-- A port's frames since its last calibration. -/
def State.countCal (s : State) (p : Nat) : State :=
  s.setPort p { s.port p with sinceCal := (s.port p).sinceCal + 1 }

/-- The gate at a frame boundary; it runs only while LOCK is 1. -/
def State.gate (s : State) : State :=
  if s.bitF fFabTstatLock then (s.judgeDie 0).judgeDie 1
  else (((s.setOwed 0 0).setOwed 1 0).setB fFabGateLatew false).setB fFabGateLatee false

/-- A frame boundary: in time role SOURCE, FMARK_OUT and what a marker does (R490); a marker missed in FOLLOW;
the gate. -/
def State.frameBoundary (s : State) : State :=
  let t := s.nextBoundary
  let s1 := s.reach t
  let s2 := if s1.bitF fFabTstatSource then ((s1.emit .fmark).applySet).upAll
    else if s1.bitF fFabTstatLock ∧ s1.fab.lastMark ≠ some (BitVec.ofNat 64 t) then s1.bumpF fFabTstatMissing 1
    else s1
  let s3 : State := { s2 with fab := { s2.fab with boundary := some s2.fab.time } }
  (((List.range 19).foldl (fun u p => u.countCal p) s3).gate).deferredMult

/-- FRAME_BOUNDARY (R521). -/
def execFrameBoundary (s : State) : Host.Outcome State Fault Refusal :=
  .next (if s.timeRuns then s.frameBoundary else s)

/-- FCY_COMPLETE (R521): the die closes its gate, or begins the next frame's FCY. -/
def execFcyComplete (die : Die) (s : State) : Host.Outcome State Fault Refusal :=
  .next (s.setOwed die.val (s.owed die.val - 1))

end Sys2Proof.Machine
end

