-- ==== Sys2Proof/Machine/ControlSlot.lean ====
section
/-! DEFINITION. The commands that issue a bundle whose control slot holds the operation that
the command names; the bundle's other slots come with it (R179, R226). -/

namespace Sys2Proof.Machine

open Sys2Proof

/-- Scalar add, wrapping at 32 bits. (R187) -/
def execSadd (c : Core) (f : FmtR) (rest : Others) (s : State) : Host.Outcome State Fault Refusal :=
  .next (s.issue c { Bundle.ofOthers rest with ctl := .alu .sadd f })

/-- Scalar subtract, wrapping at 32 bits. (R187) -/
def execSsub (c : Core) (f : FmtR) (rest : Others) (s : State) : Host.Outcome State Fault Refusal :=
  .next (s.issue c { Bundle.ofOthers rest with ctl := .alu .ssub f })

/-- Scalar bitwise AND. (R187) -/
def execSand (c : Core) (f : FmtR) (rest : Others) (s : State) : Host.Outcome State Fault Refusal :=
  .next (s.issue c { Bundle.ofOthers rest with ctl := .alu .sand f })

/-- Scalar bitwise OR. (R187) -/
def execSor (c : Core) (f : FmtR) (rest : Others) (s : State) : Host.Outcome State Fault Refusal :=
  .next (s.issue c { Bundle.ofOthers rest with ctl := .alu .sor f })

/-- Scalar bitwise XOR. (R187) -/
def execSxor (c : Core) (f : FmtR) (rest : Others) (s : State) : Host.Outcome State Fault Refusal :=
  .next (s.issue c { Bundle.ofOthers rest with ctl := .alu .sxor f })

/-- Scalar left shift, wrapping at 32 bits. (R187) -/
def execSshl (c : Core) (f : FmtR) (rest : Others) (s : State) : Host.Outcome State Fault Refusal :=
  .next (s.issue c { Bundle.ofOthers rest with ctl := .alu .sshl f })

/-- Scalar logical right shift. (R187) -/
def execSshr (c : Core) (f : FmtR) (rest : Others) (s : State) : Host.Outcome State Fault Refusal :=
  .next (s.issue c { Bundle.ofOthers rest with ctl := .alu .sshr f })

/-- Scalar arithmetic right shift. (R187) -/
def execSsra (c : Core) (f : FmtR) (rest : Others) (s : State) : Host.Outcome State Fault Refusal :=
  .next (s.issue c { Bundle.ofOthers rest with ctl := .alu .ssra f })

/-- Signed scalar minimum. (R187) -/
def execSmin (c : Core) (f : FmtR) (rest : Others) (s : State) : Host.Outcome State Fault Refusal :=
  .next (s.issue c { Bundle.ofOthers rest with ctl := .alu .smin f })

/-- Signed scalar maximum. (R187) -/
def execSmax (c : Core) (f : FmtR) (rest : Others) (s : State) : Host.Outcome State Fault Refusal :=
  .next (s.issue c { Bundle.ofOthers rest with ctl := .alu .smax f })

/-- Sets the destination to 1 if a is less than b, else 0. (R187) -/
def execSslt (c : Core) (f : FmtR) (rest : Others) (s : State) : Host.Outcome State Fault Refusal :=
  .next (s.issue c { Bundle.ofOthers rest with ctl := .alu .sslt f })

/-- Scalar multiply, wrapping at 32 bits, with latency 2 cy. (R187) -/
def execSmul (c : Core) (f : FmtR) (rest : Others) (s : State) : Host.Outcome State Fault Refusal :=
  .next (s.issue c { Bundle.ofOthers rest with ctl := .alu .smul f })

/-- Loads a sign-extended 16-bit immediate into a scalar register. (R238) -/
def execSli (c : Core) (f : FmtU) (rest : Others) (s : State) : Host.Outcome State Fault Refusal :=
  .next (s.issue c { Bundle.ofOthers rest with ctl := .sli f })

/-- Replaces the upper 16 bits of a scalar register with an immediate. (R238) -/
def execSlui (c : Core) (f : FmtU) (rest : Others) (s : State) : Host.Outcome State Fault Refusal :=
  .next (s.issue c { Bundle.ofOthers rest with ctl := .slui f })

/-- Loads a 32-bit scratchpad word into a scalar register, after alignment and range checks. (R188) -/
def execSld (c : Core) (f : FmtM) (rest : Others) (s : State) : Host.Outcome State Fault Refusal :=
  .next (s.issue c { Bundle.ofOthers rest with ctl := .sld f })

/-- Stores a scalar register to a 32-bit scratchpad word, after alignment and range checks. (R188) -/
def execSst (c : Core) (f : FmtM) (rest : Others) (s : State) : Host.Outcome State Fault Refusal :=
  .next (s.issue c { Bundle.ofOthers rest with ctl := .sst f })

/-- Reads a special value (core, step, slot or loop count) into a scalar register. (R189) -/
def execSmfs (c : Core) (f : FmtF) (rest : Others) (s : State) : Host.Outcome State Fault Refusal :=
  .next (s.issue c { Bundle.ofOthers rest with ctl := .smfs f })

/-- AND of two mask registers. (R187) -/
def execMand (c : Core) (f : FmtK3) (rest : Others) (s : State) : Host.Outcome State Fault Refusal :=
  .next (s.issue c { Bundle.ofOthers rest with ctl := .mask .mand f })

/-- OR of two mask registers. (R187) -/
def execMor (c : Core) (f : FmtK3) (rest : Others) (s : State) : Host.Outcome State Fault Refusal :=
  .next (s.issue c { Bundle.ofOthers rest with ctl := .mask .mor f })

/-- XOR of two mask registers. (R187) -/
def execMxor (c : Core) (f : FmtK3) (rest : Others) (s : State) : Host.Outcome State Fault Refusal :=
  .next (s.issue c { Bundle.ofOthers rest with ctl := .mask .mxor f })

/-- Computes Ma AND NOT Mb into a mask register. (R187) -/
def execMandn (c : Core) (f : FmtK3) (rest : Others) (s : State) : Host.Outcome State Fault Refusal :=
  .next (s.issue c { Bundle.ofOthers rest with ctl := .mask .mandn f })

/-- Sets the low min(a, 64) bits of a mask register. (R187) -/
def execMfill (c : Core) (f : FmtKF) (rest : Others) (s : State) : Host.Outcome State Fault Refusal :=
  .next (s.issue c { Bundle.ofOthers rest with ctl := .mfill f })

/-- Counts the 1 bits of a mask register into a scalar register. (R187) -/
def execMpop (c : Core) (f : FmtKP) (rest : Others) (s : State) : Host.Outcome State Fault Refusal :=
  .next (s.issue c { Bundle.ofOthers rest with ctl := .mpop f })

/-- Unconditional branch with one delay slot. (R191) -/
def execBranch (c : Core) (f : FmtBR) (rest : Others) (s : State) : Host.Outcome State Fault Refusal :=
  .next (s.issue c { Bundle.ofOthers rest with ctl := .br .always f })

/-- Branches when the scalar register is zero. (R191) -/
def execBeqz (c : Core) (f : FmtBR) (rest : Others) (s : State) : Host.Outcome State Fault Refusal :=
  .next (s.issue c { Bundle.ofOthers rest with ctl := .br .eqz f })

/-- Branches when the scalar register is non-zero. (R191) -/
def execBnez (c : Core) (f : FmtBR) (rest : Others) (s : State) : Host.Outcome State Fault Refusal :=
  .next (s.issue c { Bundle.ofOthers rest with ctl := .br .nez f })

/-- Branches when the scalar register is negative. (R191) -/
def execBltz (c : Core) (f : FmtBR) (rest : Others) (s : State) : Host.Outcome State Fault Refusal :=
  .next (s.issue c { Bundle.ofOthers rest with ctl := .br .ltz f })

/-- Branches when the scalar register is non-negative. (R191) -/
def execBgez (c : Core) (f : FmtBR) (rest : Others) (s : State) : Host.Outcome State Fault Refusal :=
  .next (s.issue c { Bundle.ofOthers rest with ctl := .br .gez f })

/-- Branches when the mask register has any 1 bit. (R191) -/
def execBmany (c : Core) (f : FmtBM) (rest : Others) (s : State) : Host.Outcome State Fault Refusal :=
  .next (s.issue c { Bundle.ofOthers rest with ctl := .bmany f })

/-- Branches when the mask register has no 1 bit. (R191) -/
def execBmnone (c : Core) (f : FmtBM) (rest : Others) (s : State) : Host.Outcome State Fault Refusal :=
  .next (s.issue c { Bundle.ofOthers rest with ctl := .bmnone f })

/-- Starts a hardware loop level with its start, end and count. (R194) -/
def execLoop (c : Core) (f : FmtLP) (rest : Others) (s : State) : Host.Outcome State Fault Refusal :=
  .next (s.issue c { Bundle.ofOthers rest with ctl := .loop f })

/-- Writes the mode register; the new mode takes effect after two shadow bundles. (R200) -/
def execSetmode (c : Core) (f : FmtSM) (rest : Others) (s : State) : Host.Outcome State Fault Refusal :=
  .next (s.issue c { Bundle.ofOthers rest with ctl := .setmode f })

/-- Holds until a comparator's pending bit is set, then issues and clears the bit. (R203) -/
def execWaitcal (c : Core) (f : FmtWC) (rest : Others) (s : State) : Host.Outcome State Fault Refusal :=
  .next (s.issue c { Bundle.ofOthers rest with ctl := .waitcal f })

/-- Issues a fence of a given kind; later bundles hold until it completes. (R190) -/
def execFence (c : Core) (f : FmtFN) (rest : Others) (s : State) : Host.Outcome State Fault Refusal :=
  .next (s.issue c { Bundle.ofOthers rest with ctl := .fence f })

/-- Posts a completion code to the core's posting FIFO. (R298) -/
def execDone (c : Core) (f : FmtDN) (rest : Others) (s : State) : Host.Outcome State Fault Refusal :=
  .next (s.issue c { Bundle.ofOthers rest with ctl := .done f })

/-- Raises BREAK after the bundle issues, or ILLEGAL if the image is not a debug image. (R221) -/
def execBrk (c : Core) (f : FmtN) (rest : Others) (s : State) : Host.Outcome State Fault Refusal :=
  .next (s.issue c { Bundle.ofOthers rest with ctl := .brk f })

/-- Control-slot no operation. (R231) -/
def execCnop (c : Core) (f : FmtN) (rest : Others) (s : State) : Host.Outcome State Fault Refusal :=
  .next (s.issue c { Bundle.ofOthers rest with ctl := .cnop f })

end Sys2Proof.Machine
end

