-- ==== Sys2Proof/Machine/Mailbox.lean ====
section
/-! DEFINITION. The mailbox commands: the POST, what the boot responder and Jusia answer, the load of
Jusia, and the timeout (R29, R222, R331, R399, R400, R409, R658, R666, R684-R689). The places of the
payload fields that the spec does not give are those of log entry 30. -/

namespace Sys2Proof.Machine

open Sys2Proof

/-! ### Firmware states (R688, R710) -/

/-- NONE: the boot responder serves. -/
def fwNone : Nat := 0
/-- LOADING: an image of Jusia is read. -/
def fwLoading : Nat := 1
/-- RUNNING: Jusia serves. -/
def fwRunning : Nat := 2
/-- HUNG. -/
def fwHung : Nat := 3

/-- MGT_FWSTAT.STATE. -/
def State.fwState (s : State) : Nat := s.getF fMgtFwstatState

/-- Show who serves both mailboxes. -/
def State.setFw (s : State) (st : Nat) : State :=
  let b := decide (st = fwRunning)
  ((s.setF fMgtFwstatState st).mbxSet 0 3 b).mbxSet 1 3 b

/-! ### Results (R687) -/

/-- OK. -/
def mbxOk : Nat := 0
/-- BADCMD. -/
def mbxBadCmd : Nat := 1
/-- BADARG. -/
def mbxBadArg : Nat := 2
/-- DENIED. -/
def mbxDenied : Nat := 3
/-- REFUSED. -/
def mbxRefused : Nat := 4
/-- AUTH. -/
def mbxAuth : Nat := 5
/-- NOFW. -/
def mbxNoFw : Nat := 6
/-- TIMEOUT. -/
def mbxTimeout : Nat := 7
/-- IOERR. -/
def mbxIoErr : Nat := 8

/-! ### Serving a request (R684-R688) -/

/-- CMD of a function's request. -/
def State.mbxCmd (s : State) (fn : Func) : Nat := s.mbxF fn 0 2

/-- LEN of a function's request. -/
def State.mbxLen (s : State) (fn : Func) : Nat := s.mbxF fn 2 2

/-- Whether the boot responder answers NOFW: Jusia does not run, and the request is neither VERSION
nor FW_LOAD from PF0. -/
def State.mbxNobody (s : State) (fn : Func) : Bool :=
  s.fwState != fwRunning && s.mbxCmd fn != 1 && !(s.mbxCmd fn == 2 && fn == 0)

/-- Whether CMD is a reserved command. -/
def mbxReserved (cmd : Nat) : Bool := cmd == 0 || decide (12 ≤ cmd)

/-- What answers a request before its command is looked at. -/
def State.mbxTurned (s : State) (fn : Func) : Option Nat :=
  if s.mbxNobody fn then some mbxNoFw
  else if mbxReserved (s.mbxCmd fn) then some mbxBadCmd
  else none

/-- Serve the request of a function, where it is the next one and names this command: `may` says
whether the function may issue it, `len` the shortest payload. -/
def State.mbxServe (s : State) (fn : Func) (cmd : Nat) (may : Bool) (len : Nat) (f : State → State) : State :=
  if ¬ s.mbxFirst fn then s
  else match s.mbxTurned fn with
    | some r => s.mbxAnswer fn r []
    | none =>
      if s.mbxCmd fn ≠ cmd then s
      else if ¬ may then s.mbxAnswer fn mbxDenied []
      else if 248 < s.mbxLen fn ∨ s.mbxLen fn < len then s.mbxAnswer fn mbxBadArg []
      else f s

/-- A POST (R684, R688): refused while BUSY, answered at once while HUNG, or put in its place. -/
def State.mbxPost (s : State) (fn : Func) : State :=
  if s.mbxBusy fn then
    (s.mbxSet fn 2 true).log ⟨16, 0x10, unitFunc fn.val, false, false, s.mbxCmd fn, 0⟩
  else
    let s1 := s.mbxSet fn 0 true
    let s2 : State := { s1 with host := { s1.host with
      posts := s1.host.posts ++ [fn.val], postAt := Tab.ins s1.host.postAt fn.val s1.clock } }
    if s2.fwState = fwHung then s2.mbxAnswer fn mbxTimeout []
    else match s2.mbxFirst fn, s2.mbxTurned fn with
      | true, some r => if mbxReserved (s2.mbxCmd fn) then s2.mbxAnswer fn r [] else s2
      | _, _ => s2

/-- MBX_POST (R684). -/
def execMbxPost (fn : Func) (_v : BitVec 32) (s : State) : Host.Outcome State Fault Refusal := .next (s.mbxPost fn)

/-- Nothing answers a function's request later: its load or transfer goes on without it. -/
def State.mbxForget (s : State) (fn : Func) : State :=
  { s with
    loader := s.loader.map fun l => if l.viaMailbox = some fn then { l with viaMailbox := none } else l
    mgt := { s.mgt with
      xfer := if s.mgt.xfer = some fn then none else s.mgt.xfer
      fw := s.mgt.fw.map fun f => if f.fn = some fn then { f with fn := none } else f } }

/-- Whether a drive command reads an image of Jusia. -/
def NvmeUse.ofFw : NvmeUse → Bool
  | .fw _ => true
  | _ => false

/-- The load of Jusia that is in progress ends unanswered; its Reads are abandoned. -/
def State.fwDrop (s : State) : State :=
  { s.killCmds NvmeUse.ofFw with mgt := { s.mgt with fw := none } }

/-- A request without a response 10 s after its POST (R688). -/
def State.mailboxTimeout (s : State) (fn : Func) : State :=
  if ¬ s.mbxBusy fn then s
  else
    let s1 := s.reachFrom (Tab.look (fun _ => (0 : W64)) s.host.postAt fn.val) tenSeconds
    ((((s1.mbxForget fn).fwDrop.setF fMgtFwstatState fwHung).log
      ⟨16, 0x11, unitFunc fn.val, false, false, s.mbxCmd fn, 0⟩)).mbxAnswer fn mbxTimeout []

/-- MAILBOX_TIMEOUT (R688). -/
def execMailboxTimeout (fn : Func) (s : State) : Host.Outcome State Fault Refusal := .next (s.mailboxTimeout fn)

/-! ### VERSION and FW_LOAD (R686, R689) -/

/-- The payload of VERSION. -/
def State.versionBytes (s : State) : List Byte :=
  leBytes 4 (s.rd rCapArch).toNat ++ leBytes 4 s.mgt.version.toNat ++ leBytes 2 s.mgt.svn.toNat ++ leBytes 2 0
    ++ leBytes 4 (s.rd rMgtFwstat).toNat

/-- VERSION (R686). -/
def execMbxVersion (fn : Func) (s : State) : Host.Outcome State Fault Refusal :=
  .next (s.mbxServe fn 1 true 0 fun s => s.mbxAnswer fn mbxOk s.versionBytes)

/-- Whether the header of a Jusia image is right for its length. -/
def fwHeaderOk (b : List Byte) : Bool :=
  fieldLe b 0 4 == 0x4953554A && fieldLe b 4 1 == 1 && fieldLe b 5 3 == 0 && fieldLe b 8 4 == b.length
    && fieldLe b 18 46 == 0

/-- The result of checking a Jusia image. -/
def State.fwCheck (s : State) (b : List Byte) : Nat :=
  let o := b.length - 208
  if b.length < 64 + 208 ∨ 2 ^ 24 < b.length ∨ ¬ fwHeaderOk b then mbxBadArg
  else if fieldLe (b.drop o) 0 1 ≠ 0 ∨ s.sigStatus (b.take o) (b.drop o) ≠ 0
      ∨ fieldLe b 16 2 < s.fuses.minSvn.toNat then mbxAuth
  else mbxOk

/-- A verified image runs. -/
def State.fwStart (s : State) (b : List Byte) : State :=
  ({ s with mgt := { s.mgt with
    version := BitVec.ofNat 32 (fieldLe b 12 4), svn := BitVec.ofNat 16 (fieldLe b 16 2) } } : State).setFw fwRunning

/-- Check the bytes of a Jusia image, and start a verified one. -/
def State.fwTake (s : State) (b : List Byte) : Nat × State :=
  let c := s.fwCheck b
  (c, if c = mbxOk then s.fwStart b else s)

/-- A Jusia image in device memory: read, check and start it. -/
def State.fwMemory (s : State) (off len : Nat) : Nat × State :=
  if memTop < off + len then (mbxBadArg, s)
  else
    let r := s.memRead .other 256 off len
    if r.1.bad = [] then r.2.fwTake r.1.bytes else (mbxIoErr, r.2)

/-- A load of Jusia from a drive begins: its Reads are issued and STATE is LOADING (R608, R609, R689, R710). -/
def State.fwBegin (s : State) (fn : Option Func) (n : Nat) (lba : W64) (len : Option Nat) : State :=
  let blocks := (len.getD (2 ^ 24) + 4095) / 4096
  let m := (blocks + 31) / 32
  (({ s with mgt := { s.mgt with fw := some ⟨fn, len, s.fwState, [], false⟩ } } : State).setFw fwLoading).readParts
    n lba blocks (fun _ => none) .fw m m

/-- FW_LOAD from a request; a drive that is not READY reads nothing (log entry 82). -/
def State.fwRequest (s : State) (fn : Func) : State :=
  let src := s.mbxF fn 8 1
  let n := s.mbxF fn 9 1
  let len := s.mbxF fn 24 4
  if s.armed then s.mbxAnswer fn mbxDenied []
  else if 1 < src ∨ (src = 1 ∧ 3 < n) ∨ 2 ^ 24 < len then s.mbxAnswer fn mbxBadArg []
  else if src = 0 then
    let r := s.fwMemory (s.mbxF fn 16 8) len
    r.2.mbxAnswer fn r.1 []
  else if s.driveReady n then s.fwBegin (some fn) n (BitVec.ofNat 64 (s.mbxF fn 16 8)) (some len)
  else s.mbxAnswer fn mbxIoErr []

/-- The load that FWAUTO asks for, once, from drive 0 at LBA 0 (R703). -/
def State.fwAuto (s : State) : State :=
  if s.bitF fMgtStrapFwauto ∧ ¬ s.mgt.booted ∧ s.driveReady 0 then
    ({ s with mgt := { s.mgt with booted := true } } : State).fwBegin none 0 0 none
  else s

/-- The bytes that a load of Jusia has read, as long as its request or its header says. -/
def FwLoad.bytes (f : FwLoad) : List Byte :=
  let get (o n : Nat) : List Byte := Tab.lookList (fun _ => (0 : Byte)) f.buf o n
  get 0 (f.len.getD (min (leNat (get 8 4)) (2 ^ 24)))

/-- The answer to the request that asked for a load. -/
def State.fwAnswer (s : State) (f : FwLoad) (r : Nat) : State :=
  match f.fn with
  | some fn => s.mbxAnswer fn r []
  | none => s

/-- A load of Jusia from a drive ends when none of its Reads is outstanding: one that failed leaves the firmware
as it was (R689). -/
def State.fwEnd (s : State) (f : FwLoad) : State :=
  if f.failed then (s.fwDrop.setFw f.was).fwAnswer f mbxIoErr
  else if s.useBusy NvmeUse.ofFw then s
  else
    let r := (s.fwDrop.setFw f.was).fwTake f.bytes
    r.2.fwAnswer f r.1

/-- FW_LOAD (R689): it ends the load in progress; or it serves the request of a function, or begins the boot
responder's own load (R703). -/
def execMbxFwLoad (fn : Func) (auto : Bool) (s : State) : Host.Outcome State Fault Refusal :=
  .next (match s.mgt.fw with
    | some f => s.fwEnd f
    | none => if auto then s.fwAuto else s.mbxServe fn 2 (fn == 0) 20 fun s => s.fwRequest fn)

/-! ### Commands of PF0 (R686) -/

/-- CEILING (R658). -/
def State.mbxCeiling (s : State) (fn : Func) (clear refuse : Bool) : State :=
  if refuse then s.mbxAnswer fn mbxRefused []
  else (s.setCeiling (s.mbxF fn 8 2) clear).mbxAnswer fn mbxOk []

/-- CEILING (R686); Jusia may clear RSTART, or refuse. -/
def execMbxCeiling (fn : Func) (clearRstart refuse : Bool) (s : State) : Host.Outcome State Fault Refusal :=
  .next (s.mbxServe fn 3 (fn == 0) 2 fun s => s.mbxCeiling fn clearRstart refuse)

/-- OPT_POWER: the switches of the enable mask, then those of the disable mask. -/
def State.mbxOptPower (s : State) (fn : Func) (refuse : Bool) : State :=
  let on := s.mbxF fn 8 1
  let off := s.mbxF fn 9 1
  if 15 < on ∨ 15 < off ∨ on &&& off ≠ 0 then s.mbxAnswer fn mbxBadArg []
  else if refuse then s.mbxAnswer fn mbxRefused []
  else
    let s1 := (List.range 4).foldl (fun t q => if on.testBit q then t.optEnable q else t) s
    let s2 := (List.range 4).foldl (fun t q =>
      if off.testBit q then (t.setB (fPwrOptCtlEn q) false).setOpt q optOff 0 else t) s1
    s2.mbxAnswer fn mbxOk []

/-- OPT_POWER (R686). -/
def execMbxOptPower (fn : Func) (refuse : Bool) (s : State) : Host.Outcome State Fault Refusal :=
  .next (s.mbxServe fn 4 (fn == 0) 2 fun s => s.mbxOptPower fn refuse)

/-- Whether the vendor signed some bytes together with the device serial; `g` holds r and s. -/
def State.vendorSigned (s : State) (msg g : List Byte) : Bool :=
  Config.vendorSig (leBytes 8 s.fuses.serial.toNat ++ msg) (BitVec.ofNat 384 (beNat (slice g 0 48)))
    (BitVec.ofNat 384 (beNat (slice g 48 48)))

/-- Show the owner keys that the fuses hold (R348). -/
def State.showKeys (s : State) : State :=
  (s.setF fImgKeysOwner s.fuses.owner.toNat).setF fImgKeysRevoked s.fuses.revoked.toNat

/-- KEY_PROG: an owner slot takes a key hash, unless it holds one. -/
def State.keyProg (s : State) (fn : Func) : State :=
  let b := s.mbxBytes fn
  let k := fieldLe b 8 1
  if 3 < k then s.mbxAnswer fn mbxBadArg []
  else if ¬ s.vendorSigned (slice b 8 49) (slice b 57 96) then s.mbxAnswer fn mbxAuth []
  else if s.fuses.owner.toNat.testBit k ∨ s.fuses.revoked.toNat.testBit k then s.mbxAnswer fn mbxRefused []
  else
    let fz : Fuses := { s.fuses with
      owner := s.fuses.owner ||| BitVec.ofNat 4 (2 ^ k)
      keyHash := s.fuses.keyHash.set (k + 1) (BitVec.ofNat 384 (beNat (slice b 9 48))) }
    (({ s with fuses := fz } : State).showKeys).mbxAnswer fn mbxOk []

/-- KEY_PROG (R686). -/
def execMbxKeyProg (fn : Func) (s : State) : Host.Outcome State Fault Refusal :=
  .next (s.mbxServe fn 5 (fn == 0) 145 fun s => s.keyProg fn)

/-- KEY_REVOKE. -/
def State.keyRevoke (s : State) (fn : Func) : State :=
  let b := s.mbxBytes fn
  let k := fieldLe b 8 1
  if 3 < k then s.mbxAnswer fn mbxBadArg []
  else if ¬ s.vendorSigned (slice b 8 1) (slice b 9 96) then s.mbxAnswer fn mbxAuth []
  else
    let fz : Fuses := { s.fuses with revoked := s.fuses.revoked ||| BitVec.ofNat 4 (2 ^ k) }
    (({ s with fuses := fz } : State).showKeys).mbxAnswer fn mbxOk []

/-- KEY_REVOKE (R686). -/
def execMbxKeyRevoke (fn : Func) (s : State) : Host.Outcome State Fault Refusal :=
  .next (s.mbxServe fn 6 (fn == 0) 97 fun s => s.keyRevoke fn)

/-- SLOTB_GRANT (R399, R400): the GiB and the DMA channels of job slot B. -/
def State.slotbGrant (s : State) (fn : Func) : State :=
  if s.imgB.isSome then s.mbxAnswer fn mbxRefused []
  else
    let b := s.mbxBytes fn
    let s1 := s.wrList (rXltBmap 0) ((List.range 16).map fun n => BitVec.ofNat 32 (fieldLe b (8 + 4 * n) 4))
    let m := fieldLe b 72 2
    ((List.range 16).foldl (fun t n => t.setB (fDmaChCtlSlot n) (m.testBit n)) s1).mbxAnswer fn mbxOk []

/-- SLOTB_GRANT (R686). -/
def execMbxSlotbGrant (fn : Func) (s : State) : Host.Outcome State Fault Refusal :=
  .next (s.mbxServe fn 7 (fn == 0) 66 fun s => s.slotbGrant fn)

/-- A request that a later event answers leaves the line. -/
def State.mbxDefer (s : State) (fn : Func) : State :=
  { s with host := { s.host with posts := s.host.posts.filter (· != fn.val) } }

/-- SLOTB_LOAD (R331): Jusia writes the IMG registers and starts the load. -/
def State.slotbLoad (s : State) (fn : Func) : State :=
  let g (o n : Nat) : Nat := s.mbxF fn o n
  if 1 < g 8 1 ∨ 3 < g 9 1 ∨ 1 < g 10 1 ∨ 4095 < g 12 2 then s.mbxAnswer fn mbxBadArg []
  else if s.imgState ≠ imgIdle then s.mbxAnswer fn mbxRefused []
  else
    let s1 := s.wr rImgCtl (BitVec.ofNat 32 (16 * g 8 1 + 64 + 128 * g 10 1 + 256 * g 12 2))
    let s2 := (s1.wr64 rImgSrcLo (BitVec.ofNat 64 (g 16 8))).wr rImgLen (BitVec.ofNat 32 (g 24 4))
    let s3 := ((s2.setF fImgDrvDrive (g 9 1)).wr64 rImgLbaLo (BitVec.ofNat 64 (g 32 8))).wr64 rImgApplytLo
      (BitVec.ofNat 64 (g 40 8))
    (s3.mbxDefer fn).startLoad (some fn)

/-- SLOTB_LOAD (R686); the response follows the end of the load. -/
def execMbxSlotbLoad (fn : Func) (s : State) : Host.Outcome State Fault Refusal :=
  .next (s.mbxServe fn 8 true 40 fun s => s.slotbLoad fn)

/-- CORE_RESUME (R222): a core of job slot A, resident or saved, that an exception other than BREAK
stopped. -/
def State.coreResume (s : State) (fn : Func) (refuse : Bool) : State :=
  let c := s.mbxF fn 8 2
  let x := s.core c
  let live := x.holdsA
  let a := csaSeq .a + 4
  let stopped := if live then x.stopped else !x.emptyA && (x.spadNat a 1).testBit 2
  let cls := if live then x.exc.toNat % 8 else x.spadNat (csaSeq .a + 0x38) 1 % 8
  if 255 < c then s.mbxAnswer fn mbxBadArg []
  else if x.cfgA.isNone ∨ ¬ stopped ∨ cls = 6 then s.mbxAnswer fn mbxDenied []
  else if refuse ∨ s.stageOut .a c then s.mbxAnswer fn mbxRefused []
  else
    (if live then s.setCore c x.resume
      else s.spadWrite c a [BitVec.ofNat 8 (x.spadNat a 1) &&& 0xFB]).mbxAnswer fn mbxOk []

/-- CORE_RESUME (R686). -/
def execMbxCoreResume (fn : Func) (refuse : Bool) (s : State) : Host.Outcome State Fault Refusal :=
  .next (s.mbxServe fn 9 (fn == 0) 2 fun s => s.coreResume fn refuse)

/-! ### WIN_REFILL and I2C_XFER (R409, R686, R695) -/

/-- WIN_REFILL for the job slot of the function. -/
def State.winRefill (s : State) (fn : Func) (refuse : Bool) : State :=
  let w := s.mbxF fn 8 2
  let p := s.mbxF fn 10 2
  match ((s.windowsOf (funcSlot fn)).getD [])[w]? with
  | none => s.mbxAnswer fn mbxBadArg []
  | some cf =>
    if cf.npage ≤ p then s.mbxAnswer fn mbxBadArg []
    else if refuse then s.mbxAnswer fn mbxRefused []
    else (s.refillPage (funcSlot fn) w p).mbxAnswer fn mbxOk []

/-- WIN_REFILL (R409). -/
def execMbxWinRefill (fn : Func) (refuse : Bool) (s : State) : Host.Outcome State Fault Refusal :=
  .next (s.mbxServe fn 10 true 4 fun s => s.winRefill fn refuse)

/-- I2CSTAT.STATE: 0 IDLE, 1 BUSY, 2 CLEARING, 3 STUCK. -/
def State.i2cState (s : State) : Nat := s.getF fMgtI2cstatState

/-- I2C_XFER waits for the controller; while STUCK it ends at once (R695, R699). It writes at most 32 bytes, or
one register byte before it reads at most 32, and LEN covers what it writes (R686, R694; log entry 30). -/
def State.i2cXfer (s : State) (fn : Func) (refuse : Bool) : State :=
  let w := s.mbxF fn 9 1
  let r := s.mbxF fn 10 1
  if 127 < s.mbxF fn 8 1 ∨ 32 < r ∨ (if r = 0 then 32 < w else 1 < w) ∨ (w ≠ 0 ∧ s.mbxLen fn < 4 + w) then s.mbxAnswer fn mbxBadArg []
  else if refuse then s.mbxAnswer fn mbxRefused []
  else if s.i2cState = 3 then s.mbxAnswer fn mbxIoErr []
  else match s.mgt.tx with
    | some (.xfer _) => s
    | _ => ({ s with mgt := { s.mgt with xfer := some fn } } : State).mbxDefer fn

/-- I2C_XFER (R686); the response follows the end of the transaction. -/
def execMbxI2cXfer (fn : Func) (refuse : Bool) (s : State) : Host.Outcome State Fault Refusal :=
  .next (s.mbxServe fn 11 (fn == 0) 3 fun s => s.i2cXfer fn refuse)

end Sys2Proof.Machine
end

