-- ==== Sys2Proof/Machine/I2c.lean ====
section
/-! DEFINITION. The I2C controller: gauge reads, mailbox transfers and polls, the end of a transaction,
and the clearing of the bus (R636, R637, R686, R694-R699, R736). -/

namespace Sys2Proof.Machine

open Sys2Proof

/-! ### The bus (R698, R699) -/

/-- The bus check after a reset or an abandoned transaction. -/
def State.busCheck (s : State) (sdaLow : Bool) : State :=
  let s1 := (s.setF fMgtI2cstatAttempt 0).setF fMgtI2cstatPulses 0
  s1.setF fMgtI2cstatState (if sdaLow then 2 else 0)

/-- The bus check where the level of SDA is not known: a free value. -/
def State.busCheckFree (s : State) : State :=
  let v := s.takeFree
  v.2.busCheck (v.1.getLsbD 0)

/-- STUCK: counted, and recorded. -/
def State.busStuck (s : State) : State :=
  let v := s.takeFree
  let w := v.2.takeFree
  ((w.2.setF fMgtI2cstatState 3).bumpF fMgtI2cerrStuck 1).log
    ⟨16, 1, unitDevice, false, false, v.1.toNat, w.1.toNat % 2 ^ 32⟩

/-- An attempt to clear the bus ends, after `p` pulses; 10 says that 9 were of no use. -/
def State.clearAttempt (s : State) (p : Nat) : State :=
  if s.i2cState ≠ 2 then s
  else
    let n := s.getF fMgtI2cstatAttempt + 1
    let s1 := (s.setF fMgtI2cstatAttempt n).setF fMgtI2cstatPulses (min p 9)
    if p ≤ 9 then s1.setF fMgtI2cstatState 0
    else if 3 ≤ n then s1.busStuck else s1

/-- BUS_CLEAR_ATTEMPT (R698). -/
def execBusClearAttempt (pulses : Fin 11) (s : State) : Host.Outcome State Fault Refusal :=
  .next (s.clearAttempt pulses.val)

/-! ### Results (R697) -/

/-- The polls of job slot A's image. -/
def State.polls (s : State) : List PollCfg := ((s.imgA.bind (·.mgmt)).map (·.polls)).getD []

/-- The due time of a poll. -/
def State.pollDue (s : State) (i : Nat) : Nat := (Tab.look (fun _ => (0 : W64)) s.mgt.pollDue i).toNat

/-- Write the status of a poll entry and the fabric time. -/
def State.pollStatus (s : State) (i st : Nat) : State :=
  let s1 := s.wr64 (rMgtPoll i 8) s.fab.time
  s1.setF ⟨rMgtPoll i 10, 0, 8⟩ st

/-- Write the data of a poll entry. -/
def State.pollData (s : State) (i : Nat) (l : List Byte) : State :=
  s.wrList (rMgtPoll i 0) (wordsOf (padTo 32 l))

/-- A mailbox transfer has ended. -/
def State.xferEnd (s : State) (fn : Func) (result : Nat) (l : List Byte) : State :=
  if s.mgt.xfer = some fn then
    ({ s with mgt := { s.mgt with xfer := none } } : State).mbxAnswer fn result l
  else s

/-- A gauge read succeeded: e_g, and GSTALE clears (R636, R637). -/
def State.gaugeRead (s : State) (raw : Nat) : State :=
  let s1 := (s.wr rSavHestg (BitVec.ofNat 32 (raw * s.getF fSavHgaugeUnit))).setB fSavHstatGstale false
  ({ s1 with sav := { s1.sav with gaugeAt := some s1.clock } } : State).reconcile

/-- A transaction ends without success: 2 NACK, 3 TIMEOUT, 4 STUCK. -/
def State.txFail (s : State) (tx : I2cTx) (st : Nat) : State :=
  match tx with
  | .gauge => s
  | .xfer fn => s.xferEnd fn mbxIoErr []
  | .poll i => s.pollStatus i st

/-- A transaction ends well. -/
def State.txDone (s : State) (tx : I2cTx) (l : List Byte) : State :=
  match tx with
  | .gauge => if 2 ≤ l.length then s.gaugeRead (fieldLe l 0 2) else s
  | .xfer fn => s.xferEnd fn mbxOk (padTo (s.mbxF fn 10 1) l)
  | .poll i => (s.pollData i (l.take (((s.polls[i]?).map (·.len)).getD 32))).pollStatus i 1

/-- The target address and the register byte of a transaction. -/
def State.txAddr (s : State) (tx : I2cTx) : Nat × Nat :=
  match tx with
  | .gauge => (s.getF fSavHgaugeAddr, s.getF fSavHgaugeReg)
  | .xfer fn => (s.mbxF fn 8 1, s.mbxF fn 12 1)
  | .poll i => match s.polls[i]? with
    | some p => (p.addr, p.reg.toNat)
    | none => (0, 0)

/-! ### Starting (R695, R696, R699) -/

/-- The first waiting item: a due gauge read, the mailbox's transfer, the poll of earliest due time. -/
def State.firstTx (s : State) : Option I2cTx :=
  if s.mgt.gaugeDue.toNat ≤ s.clock.toNat then some .gauge
  else match s.mgt.xfer with
    | some fn => some (.xfer fn)
    | none =>
      let is := (List.range s.polls.length).filter fun i => decide (s.pollDue i ≤ s.clock.toNat)
      (is.find? fun i => is.all fun k => decide (s.pollDue i ≤ s.pollDue k)).map .poll

/-- The time at which the next item is due. -/
def State.nextDue (s : State) : Nat :=
  (List.range s.polls.length).foldl (fun t i => min t (s.pollDue i)) s.mgt.gaugeDue.toNat

/-- A poll entry runs: its next due time lies in the future, and the due times that passed are MISSED. -/
def State.pollRun (s : State) (i : Nat) : State :=
  let per := 125000 * ((s.polls[i]?).map (·.period)).getD 1
  let k := (s.clock.toNat - s.pollDue i) / per
  let t := s.pollDue i + (k + 1) * per
  ({ s with mgt := { s.mgt with pollDue := Tab.ins s.mgt.pollDue i (BitVec.ofNat 64 t) } } : State).bumpF
    ⟨rMgtPoll i 10, 16, 16⟩ k

/-- What leaves the line when an item starts. -/
def State.txLeave (s : State) (tx : I2cTx) : State :=
  match tx with
  | .gauge => { s with mgt := { s.mgt with gaugeDue := s.mgt.gaugeDue +
      1250000 * ((s.clock - s.mgt.gaugeDue) / 1250000 + 1) } }
  | .xfer _ => s
  | .poll i => s.pollRun i

/-- Whether a poll entry names the gauge, and is skipped (R696). -/
def State.skipped (s : State) (tx : I2cTx) : Bool :=
  match tx with
  | .poll i => ((s.polls[i]?).map (·.addr)) == some (s.getF fSavHgaugeAddr)
  | _ => false

/-- The bytes written and the number read of a transaction. -/
def State.txBytes (s : State) (tx : I2cTx) : List Byte × Nat :=
  match tx with
  | .gauge => ([BitVec.ofNat 8 (s.getF fSavHgaugeReg)], 2)
  | .xfer fn => (slice (s.mbxBytes fn) 12 (s.mbxF fn 9 1), s.mbxF fn 10 1)
  | .poll i => match s.polls[i]? with
    | some p => ([p.reg], p.len)
    | none => ([], 0)

/-- A transaction starts. -/
def State.startTx (s : State) (tx : I2cTx) : State :=
  let b := s.txBytes tx
  let s1 := s.txLeave tx
  if s.i2cState = 3 then s1.txFail tx 4
  else if s.skipped tx then s1.pollStatus (match tx with | .poll i => i | _ => 0) 5
  else
    (({ s1 with mgt := { s1.mgt with tx := some tx } } : State).setF fMgtI2cstatState 1).emit
      (.i2c (s.txAddr tx).1 b.1 b.2)

/-- The controller is free: it starts the first waiting item, or the next one when it falls due. -/
def State.i2cNext (s : State) : State :=
  if s.mgt.tx.isSome ∨ s.i2cState = 1 ∨ s.i2cState = 2 then s
  else
    let s1 := if s.firstTx.isSome then s else s.reachFrom 0 s.nextDue
    match s1.firstTx with
    | some tx => s1.startTx tx
    | none => s1

/-- I2C_TRANSACTION (R695). -/
def execI2cTransaction (s : State) : Host.Outcome State Fault Refusal := .next s.i2cNext

/-! ### Ending (R694, R697, R736) -/

/-- The transaction in progress is over. -/
def State.txOver (s : State) : State :=
  ({ s with mgt := { s.mgt with tx := none } } : State).setF fMgtI2cstatState 0

/-- A record of the controller. -/
def State.logBus (s : State) (detail : Nat) (tx : I2cTx) (n : Nat) : State :=
  s.log ⟨16, detail, unitBus (s.txAddr tx).1, false, false, (s.txAddr tx).2, n⟩

/-- The transaction in progress ends OK, or NACK after the bytes given. -/
def State.i2cEnd (s : State) (ack : Bool) (l : List Byte) : State :=
  match s.mgt.tx with
  | none => s
  | some tx =>
    if ack then s.txOver.txDone tx l
    else (((s.txOver).bumpF fMgtI2cerrNack 1).logBus 3 tx l.length).txFail tx 2

/-- I2C_TRANSACTION_END (R694). -/
def execI2cTransactionEnd (ack : Bool) (data : List (BitVec 8)) (s : State) :
    Host.Outcome State Fault Refusal := .next (s.i2cEnd ack data)

/-- Clock stretching beyond 25 ms: the transaction is abandoned, and the bus is checked. The bytes that
its record counts are a free value. -/
def State.i2cStretch (s : State) (sdaLow : Bool) : State :=
  match s.mgt.tx with
  | none => s
  | some tx =>
    let v := (s.txOver.bumpF fMgtI2cerrTimeout 1).takeFree
    ((v.2.logBus 2 tx (v.1.toNat % 2 ^ 32)).txFail tx 3).busCheck sdaLow

/-- I2C_STRETCH_TIMEOUT (R694). -/
def execI2cStretchTimeout (sdaLow : Bool) (s : State) : Host.Outcome State Fault Refusal :=
  .next (s.i2cStretch sdaLow)

/-- The controller is reset: an interrupted transfer is answered IOERR, and nothing is retried. -/
def State.i2cInterrupt (s : State) : State :=
  match s.mgt.tx with
  | some (.xfer fn) => s.txOver.xferEnd fn mbxIoErr []
  | some _ => s.txOver
  | none => s

/-- I2C_RESET (R698). -/
def execI2cReset (r : Requester) (_v : BitVec 32) (sdaLow : Bool) (s : State) :
    Host.Outcome State Fault Refusal :=
  .next (s.bar0 r fun s => s.i2cInterrupt.busCheck sdaLow)

/-- A write of CLEAR ends STUCK with three new attempts. -/
def State.i2cClear (s : State) : State := if s.i2cState = 3 then s.busCheck true else s

/-- I2C_CLEAR (R699). -/
def execI2cClear (r : Requester) (_v : BitVec 32) (s : State) : Host.Outcome State Fault Refusal :=
  .next (s.bar0 r State.i2cClear)

end Sys2Proof.Machine
end

