-- ==== Sys2Proof/Machine/Reset.lean ====
section
/-! DEFINITION. The resets, power-up and the test access port (R700-R708, R732, R749-R754). -/

namespace Sys2Proof.Machine

open Sys2Proof

/-! ### What survives (R705, R723, R732) -/

/-- The registers of the retirement fuses: retired engines and spare rows. -/
def fuseReg (off : Nat) : Bool :=
  off == rMemStatus || (List.range 8).any fun d => off == rMemSpare d || off == rMemBeretLo d || off == rMemBeretHi d

/-- The registers that a warm reset keeps: the straps, the error records, the TAP, and those of the
retirement fuses. -/
def warmReg (off : Nat) : Bool :=
  off == rMgtStrap || off == rMgtTapstat || off == rErrHead || off == rErrTail
    || (decide (rErrLog 0 0 ≤ off) && decide (off < rErrLog 1024 0)) || fuseReg off

/-- The registers after a reset that keeps some. -/
def State.regAfter (s : State) (keep : Nat → Bool) : Tab W32 :=
  (s.reg.filter fun e => keep e.1).foldl (fun t e => Tab.put regReset t e.1 e.2) (regCold s.fuses)

/-- A stack keeps its spare rows. -/
def StackSt.kept (k : StackSt) : StackSt :=
  { StackSt.reset with spareUsed := k.spareUsed, redirected := k.redirected }

/-- Sheepdog keeps what the fuses hold. -/
def SdSt.kept (d : SdSt) : SdSt := { SdSt.reset with remapped := d.remapped ++ d.remapPend }

/-- What the fuses, the queue of commands and the outside world keep across every reset that clears
configuration. -/
def State.clearAll (s : State) (keep : Nat → Bool) : State :=
  { State.reset with
    pending := s.pending, out := s.out, fresh := s.fresh, fuses := s.fuses
    reg := s.regAfter keep
    stks := s.stks.map fun (e : Nat × StackSt) => (e.1, e.2.kept)
    sd := s.sd.kept
    host := { HostSt.reset with perst := s.host.perst }
    mgt := { MgtSt.reset with smbOff := s.mgt.smbOff, pwrok := s.mgt.pwrok, fref := s.mgt.fref
                              vaux := s.mgt.vaux, sag := s.mgt.sag } }

/-- A cold reset: device memory is undefined after it, and is listed anew (log entry 2). -/
def State.coldReset (s : State) : State := (s.clearAll fuseReg).setF fMemStatusReady 0

/-- The save-port drives are attached anew (R607). -/
def State.attachAll (s : State) : State := [0, 1, 2, 3].foldl (fun t n => t.attachDrive n) s

/-- FAB_PCHIP shows the strap's BIDX. -/
def State.showBidx (s : State) : State := s.setF fFabPchipBidx (s.getF fMgtStrapBidx)

/-- What a warm reset clears: device memory is kept, and the host link too. -/
def State.warmClear (s : State) : State :=
  { (s.clearAll warmReg).showBidx with
    mem := s.mem, memEcc := s.memEcc
    host := { HostSt.reset with
      bar2 := s.host.bar2, perst := s.host.perst, linkReady := s.host.linkReady
      reqs := s.host.reqs.map fun (r : HostReq) => { r with idx := none } }
    ports := [16, 17, 18].map fun (p : Nat) => (p, { FabPort.reset with signal := (s.port p).signal }) }

/-- The end of a warm reset: the peers of the board links still send, the drives are attached, and the
I2C bus is checked. -/
def State.warmEnd (s : State) (cause : Nat) : State :=
  let s1 := [16, 17, 18].foldl (fun (t : State) p => t.tryLight p) s
  ((s1.setF fMgtRststatCause cause).attachAll).busCheckFree

/-- A warm reset. -/
def State.warmReset (s : State) (cause : Nat) : State := s.warmClear.warmEnd cause

/-! ### Parts of the host port (R705-R707) -/

/-- A mailbox, ring and MSI-X of a function are reset. -/
def State.resetFunc (s : State) (fn : Func) : State :=
  let s1 := (s.mbxForget fn).mbxDefer fn
  let b := decide (s.fwState = fwRunning)
  ({ s1 with bar4 := s1.bar4.filter fun (e : Nat × W32) => e.1 / 65536 != fn.val } : State).mbxSet fn 3 b

/-- A DMA channel is reset: EN, HEAD and TAIL are 0, and what it had begun is abandoned. -/
def State.resetChan (s : State) (ch : Nat) : State :=
  let s1 := (s.abandonReqs ch).setChan ch DmaCh.reset
  (((s1.setB (fDmaChCtlEn ch) false).setF (fDmaChHeadHead ch) 0).setF (fDmaChTailTail ch) 0).chShow ch false

/-- Some channels are reset. -/
def State.resetChans (s : State) (l : List Nat) : State := l.foldl (fun t ch => t.resetChan ch) s

/-- The channels of a job slot. -/
def State.chansOf (s : State) (j : JobSlot) : List Nat := (List.range 16).filter fun ch => s.chSlot ch == j

/-- The accesses that a function's reads wait for are dropped with its link. -/
def XBufSt.dropReads (x : XBufSt) (fn : Func) : XBufSt :=
  { x with walks := x.walks.filter fun w => match w.waiter with
      | .read f _ _ => f != fn
      | _ => true }

/-- A function's own registers after a reset of it: what the link brought is gone. -/
def State.resetHost (s : State) (fn : Func) : State := (s.resetFunc fn).setXbuf .host ((s.xbuf .host).dropReads fn)

/-- PERST# with PERSTWARM = 0: the host port is reset, and job slot A goes on. -/
def State.hostReset (s : State) : State :=
  let s1 := ((s.resetHost 0).resetHost 1).resetChans (List.range 16)
  { s1 with host := { s1.host with bar2 := 64, linkReady := false, reqs := [] } }

/-- PERST# asserts. -/
def State.perst (s : State) : State :=
  let s1 : State := { s with host := { s.host with perst := true } }
  if s.bitF fMgtRstcfgPerstwarm then (s1.warmReset 3).hostReset else s1.hostReset

/-- PERST (R706). -/
def execPerst (s : State) : Host.Outcome State Fault Refusal := .next s.perst

/-- PERST_DEASSERT (R708): link training begins once the power-up timeline allows it. -/
def execPerstDeassert (s : State) : Host.Outcome State Fault Refusal :=
  .next { s with host := { s.host with perst := false, linkReady := s.mgt.pwrok && s.mgt.fref && !s.mgt.sag } }

/-- The entries of the HOST translation buffer of a job slot are invalidated. -/
def State.flrXlate (s : State) (j : JobSlot) : State :=
  s.setXbuf .host { s.xbuf .host with entries := (s.xbuf .host).entries.filter fun (e : XEntry) => e.slot != j }

/-- A Function Level Reset. -/
def State.flr (s : State) (fn : Func) : State :=
  let j := funcSlot fn
  let s1 := ((s.resetHost fn).resetChans (s.chansOf j)).flrXlate j
  if fn = 1 ∧ s1.imgB.isSome then ({ s1 with unloadB := true } : State).unloadIfDue else s1

/-- FLR (R707). -/
def execFlr (fn : Func) (s : State) : Host.Outcome State Fault Refusal := .next (s.flr fn)

/-! ### Warm and firmware resets (R705) -/

/-- WARM_RESET (R705): from Jusia or PF0 with cause HOST, from SMBus with cause SMBUS. -/
def execWarmReset (r : Requester) (_v : BitVec 32) (s : State) : Host.Outcome State Fault Refusal :=
  .next (match r with
    | .jusia | .pf0 => s.warmReset 1
    | .pf1 => s
    | .smbus => s.warmReset 2)

/-- The outstanding request of a function is answered NOFW. -/
def State.answerNoFw (s : State) (fn : Func) : State := (s.mbxForget fn).mbxAnswer fn mbxNoFw []

/-- A firmware reset: the boot responder restarts, and RSTART is set. -/
def State.firmwareReset (s : State) : State :=
  let s1 := (s.fwDrop.answerNoFw 0).answerNoFw 1
  let s2 : State := { s1 with mgt := { s1.mgt with version := 0, svn := 0, booted := false } }
  (((s2.setFw fwNone).setB fMgtRststatFwrst true).setB fPwrCeilRstart true).ceilShow

/-- FIRMWARE_RESET (R705). -/
def execFirmwareReset (r : Requester) (_v : BitVec 32) (s : State) : Host.Outcome State Fault Refusal :=
  .next (s.bar0 r State.firmwareReset)

/-! ### Power-up and power-down (R703, R708, R749-R754) -/

/-- The later rows of the timeline, once FREF runs: memory ready, drives attached, the I2C bus checked,
the host link trained where PERST# is deasserted. -/
def State.powerUp (s : State) : State :=
  let s1 : State := { s with host := { s.host with linkReady := !s.host.perst } }
  (((s1.setF fMgtRststatCause 0).setF fMemStatusReady 0xFF).attachAll).busCheckFree

/-- PWROK rises: the straps are sampled, BIDX in bits 1:0 and FWAUTO in bit 2. -/
def State.pwrokRise (s : State) (straps : BitVec 3) (fref : Bool) : State :=
  if s.mgt.pwrok then s
  else
    let s1 : State := { s with mgt := { s.mgt with pwrok := true, fref := fref, sag := false } }
    let s2 := (s1.wr rMgtStrap (straps.setWidth 32)).showBidx
    if fref then s2.powerUp else s2

/-- PWROK_RISE (R708). -/
def execPwrokRise (straps : BitVec 3) (fref : Bool) (s : State) : Host.Outcome State Fault Refusal :=
  .next (s.pwrokRise straps fref)

/-- PWROK_FALL (R705). -/
def execPwrokFall (s : State) : Host.Outcome State Fault Refusal :=
  .next ({ s with mgt := { s.mgt with pwrok := false, sag := false } } : State).coldReset

/-- SUPPLY_SAG (R753): only while PWROK is high. -/
def execSupplySag (s : State) : Host.Outcome State Fault Refusal :=
  .next (if s.mgt.pwrok then ({ s with mgt := { s.mgt with sag := true } } : State).coldReset else s)

/-- SUPPLY_IN_RANGE (R753): the timeline runs as from a rise of PWROK. -/
def State.supplyInRange (s : State) (straps : BitVec 3) : State :=
  if s.mgt.pwrok ∧ s.mgt.sag then
    ({ s with mgt := { s.mgt with pwrok := false } } : State).pwrokRise straps s.mgt.fref
  else s

/-- SUPPLY_IN_RANGE (R753). The straps are sampled anew: levels of their pins, free values. -/
def execSupplyInRange (s : State) : Host.Outcome State Fault Refusal :=
  .next (let v := s.takeFree; v.2.supplyInRange (v.1.setWidth 3))

/-- FREF_RUNNING (R751). -/
def execFrefRunning (s : State) : Host.Outcome State Fault Refusal :=
  .next (if s.mgt.fref then s
    else
      let s1 : State := { s with mgt := { s.mgt with fref := true } }
      if s.mgt.pwrok ∧ ¬ s.mgt.sag then s1.powerUp else s1)

/-- VAUX_VALID (R708). -/
def execVauxValid (s : State) : Host.Outcome State Fault Refusal :=
  .next { s with mgt := { s.mgt with vaux := true } }

/-! ### The test access port (R700-R702) -/

/-- IDCODE. -/
def tapIdcodeValue : W32 := 0x1F1D174F

/-- An instruction is in force. -/
def State.tapIr (s : State) (code : Nat) : State := s.setF fMgtTapstatIr code

/-- A boundary-scan hold: the device is held in warm reset. -/
def State.tapHold (s : State) (code : Nat) : State :=
  if s.bitF fMgtTapstatHeld then s.tapIr code
  else (((s.tapIr code).setB fMgtTapstatHeld true).warmClear).setF fMgtRststatCause (s.getF fMgtRststatCause)

/-- EXTEST (R700). -/
def execTapExtest (s : State) : Host.Outcome State Fault Refusal := .next (s.tapHold 0)

/-- SAMPLE (R700). -/
def execTapSample (s : State) : Host.Outcome State Fault Refusal := .next (s.tapIr 1)

/-- IDCODE (R701): the identification register is selected. -/
def execTapIdcode (s : State) : Host.Outcome State Fault Refusal :=
  .next ((s.tapIr 2).emit (.tdo tapIdcodeValue))

/-- CLAMP (R700). -/
def execTapClamp (s : State) : Host.Outcome State Fault Refusal := .next (s.tapHold 3)

/-- HIGHZ (R700). -/
def execTapHighz (s : State) : Host.Outcome State Fault Refusal := .next (s.tapHold 4)

/-- EXTEST_PULSE (R700). -/
def execTapExtestPulse (s : State) : Host.Outcome State Fault Refusal := .next (s.tapHold 5)

/-- EXTEST_TRAIN (R700). -/
def execTapExtestTrain (s : State) : Host.Outcome State Fault Refusal := .next (s.tapHold 6)

/-- BYPASS, also by a reserved code (R700). -/
def execTapBypass (code : BitVec 8) (s : State) : Host.Outcome State Fault Refusal :=
  .next (s.tapIr (if code.toNat < 7 then 0xFF else code.toNat))

/-- Test-Logic-Reset selects IDCODE; a boundary-scan hold ends, and the warm reset completes. -/
def State.tapReset (s : State) : State :=
  let s1 := s.tapIr 2
  if s.bitF fMgtTapstatHeld then (s1.setB fMgtTapstatHeld false).warmReset 4 else s1

/-- TEST_LOGIC_RESET (R702). -/
def execTapTestLogicReset (s : State) : Host.Outcome State Fault Refusal := .next s.tapReset

end Sys2Proof.Machine
end

