-- ==== Sys2Proof/Machine/Sequencer.lean ====
section
/-! DEFINITION. The commands of the sequencer that are no slot operation: exceptions taken,
pre-emption, and the debug controls (R208, R213, R222). -/

namespace Sys2Proof.Machine

open Sys2Proof

/-- A pending asynchronous exception is taken at the next bundle boundary and stops the core (R208). -/
def execAsyncException (c : Core) (s : State) : Host.Outcome State Fault Refusal := .next (s.boundary c)

/-- At a window boundary PREEMPT is taken in every core the window names (R213). -/
def execPreempt (n : Fin 64) (s : State) : Host.Outcome State Fault Refusal :=
  .next (s.preemptCores n (List.range 256))

/-- A write of SEQ_CTL: ignored unless the resident image's debug flag is set (R221). -/
def State.seqCtl (s : State) (r : Requester) (c : Core) (f : CoreSt → CoreSt) : State :=
  s.bar0 r fun s => if s.debugOf c then s.modCore c f else s

/-- A write of SEQ_CTL.RESUME resumes a core stopped by BREAK (R222). -/
def execSeqResume (r : Requester) (c : Core) (s : State) : Host.Outcome State Fault Refusal :=
  .next (s.seqCtl r c CoreSt.ctlResume)

/-- A write of SEQ_CTL.STEP runs one bundle of a core stopped by BREAK and then raises BREAK (R222). -/
def execSeqStep (r : Requester) (c : Core) (s : State) : Host.Outcome State Fault Refusal :=
  .next (s.seqCtl r c CoreSt.ctlStep)

/-- A write of SEQ_CTL.HALT raises BREAK at the next boundary of a running core (R222). -/
def execSeqHalt (r : Requester) (c : Core) (s : State) : Host.Outcome State Fault Refusal :=
  .next (s.seqCtl r c CoreSt.ctlHalt)

end Sys2Proof.Machine
end

