-- ==== Sys2Proof/Machine/Sheepdog.lean ====
section
/-! DEFINITION. Sheepdog: the tests, their eligibility and start, the classification and its actions,
and the commands of the ERR block (R135, R136, R364, R365, R714, R723-R732, R738, R781). -/

namespace Sys2Proof.Machine

open Sys2Proof

/-! ### Starts (R725, R726) -/

/-- MARCH (R725). -/
def execSdMarch (s : State) : Host.Outcome State Fault Refusal := .next (s.sdStart 1)

/-- ABIST (R725). -/
def execSdAbist (s : State) : Host.Outcome State Fault Refusal := .next (s.sdStart 2)

/-- ROW (R364). -/
def execSdRow (s : State) : Host.Outcome State Fault Refusal := .next (s.sdStart 3)

/-- EBIST (R725). -/
def execSdEbist (s : State) : Host.Outcome State Fault Refusal := .next (s.sdStart 4)

/-- PRBS starts at the next CAL62 firing; while that comparator is not armed, at once (R494, R725, log entry
80). -/
def execSdPrbs (s : State) : Host.Outcome State Fault Refusal :=
  .next (if (s.cal 62).armed then s.calFire 62 else s.sdStart 5)

/-! ### Results (R728-R731) -/

/-- TRANSIENT. -/
def sdTransient : Nat := 1
/-- LASTING. -/
def sdLasting : Nat := 2
/-- DEFERRED. -/
def sdDefer : Nat := 3

/-- A record of Sheepdog. -/
def State.logSd (s : State) (t : SdTest) (result errors action : Nat) : State :=
  s.log ⟨18, 256 * t.test + result, t.unit, false, false, errors, action⟩

/-- What a test itself finds. -/
def State.sdFinds (s : State) (t : SdTest) (errors bits : Nat) : Nat :=
  if t.test = 5 then
    if ¬ (s.port (t.unit % 2048)).signal then sdLasting
    else if bits < 2 ^ 24 then sdDefer
    else if bits < errors * 4096 then sdLasting else sdTransient
  else if errors ≠ 0 then sdLasting else sdTransient

/-- TRANSIENT results of a target within the last RWIN minutes. -/
def State.sdRecent (s : State) (t : SdTest) : Nat :=
  s.sd.hist.countP fun h => h.1 == t.test && h.2.1 == t.unit && h.2.2.1 == t.sub
    && decide (s.age h.2.2.2 < s.getF fErrSdcfgRwin * 7500000000)

/-- The class of a test's result, its history taken into account. -/
def State.sdResult (s : State) (t : SdTest) (errors bits : Nat) : Nat :=
  let r := s.sdFinds t errors bits
  if r = sdTransient ∧ s.getF fErrSdcfgRecur - 1 ≤ s.sdRecent t then sdLasting else r

/-- A TRANSIENT result enters the history, which holds 64. -/
def State.sdRemember (s : State) (t : SdTest) : State :=
  let h := s.sd.hist ++ [(t.test, t.unit, t.sub, s.clock)]
  { s with sd := { s.sd with hist := h.drop (h.length - 64) } }

/-! ### Actions of a LASTING result (R731, R732) -/

/-- The spares of a core's die. -/
def State.spares (s : State) (c : Nat) : Nat := if c < 128 then s.fuses.spareW.toNat else s.fuses.spareE.toNat

/-- A spare of a core's die is used. -/
def State.useSpare (s : State) (c : Nat) : State :=
  let n := s.spares c - 1
  if c < 128 then
    ({ s with fuses := { s.fuses with spareW := BitVec.ofNat 4 n } } : State).setF fCapConfigSpare_w n
  else ({ s with fuses := { s.fuses with spareE := BitVec.ofNat 4 n } } : State).setF fCapConfigSpare_e n

/-- A retired core leaves its whole stage stopped until the image is applied again (R326). -/
def State.retireStop (s : State) (c : Nat) : State :=
  (List.range 256).foldl (fun t k => t.stopRetired k)
    { s with sd := { s.sd with retired := s.sd.retired ++ [c] } }

/-- A core is retired: codes 1 and 2. -/
def State.retireCore (s : State) (c : Nat) : Nat × State :=
  if s.sd.retired.contains c then (1, s)
  else if 0 < s.spares c then (1, (s.useSpare c).retireStop c)
  else
    let f := if c < 128 then fCapConfigCores_w else fCapConfigCores_e
    (2, (s.setF f (s.getF f - 1)).retireStop c)

/-- A staging bank is remapped at the next full swap, or stays in service: codes 3 and 4. -/
def State.retireBank (s : State) (k b : Nat) : Nat × State :=
  if (s.sd.remapped ++ s.sd.remapPend).any fun x => x.1 == k then
    (4, s.log ⟨9, 0x504, unitCluster k, false, false, b * 0x80000, 0⟩)
  else (3, { s with sd := { s.sd with remapPend := s.sd.remapPend ++ [(k, b)] } })

/-- A row keeps its redirection to a spare row of its bank, or is poisoned: code 5. -/
def State.retireRow (s : State) (d row : Nat) : Nat × State :=
  let x := s.stk d
  let bank := row % 256
  let used := Tab.look (fun _ => 0) x.spareUsed bank
  if used < 32 then
    (5, (s.setStk d { x with
      spareUsed := Tab.ins x.spareUsed bank (used + 1), redirected := x.redirected ++ [row] }).bumpF
        (fMemSpareUsed d) 1)
  else
    (5, ({ s with memEcc := eccPoison s.memEcc (codewords 8 (d * stackBytes + row * 0x1000) 0x1000) } :
      State).bumpF (fMemSpareNospare d) 1)

/-- A bank engine is retired: code 6. -/
def State.retireEngine (s : State) (d e : Nat) : Nat × State :=
  (6, (s.wr64 (rMemBeretLo d) (s.rd64 (rMemBeretLo d) ||| BitVec.ofNat 64 (2 ^ e))).setF fMemStatusRetired
    (s.getF fMemStatusRetired ||| 2 ^ d))

/-- A port is retired: code 7. -/
def State.retirePort (s : State) (p : Nat) : Nat × State :=
  let s1 : State := { s with sd := { s.sd with portsOut := s.sd.portsOut ++ [p] } }
  (7, (((s1.setB (fFabPctlEn p) false).setF (fFabPstatFail p) 0).downPort p).haltPort)

/-- The action of a LASTING result, with its code. -/
def State.sdAct (s : State) (t : SdTest) : Nat × State :=
  let i := t.unit % 2048
  match t.test, t.core with
  | 3, _ => s.retireRow i t.sub
  | 4, _ => s.retireEngine (i / 64) (i % 64)
  | 5, _ => s.retirePort i
  | _, some c => s.retireCore c
  | _, none => s.retireBank i t.sub

/-- What a test leaves in the memory that it overwrites (R135, R726): the spec gives no contents, and the
model leaves the array as a reset does, its lifetime counters apart (log entry 73). -/
def State.sdOverwrite (s : State) (t : SdTest) : State :=
  let wipe (c : Nat) (ns : List Nat) : State := s.modCore c fun x => ns.foldl (fun y n => y.setArr n (y.arr n).fresh) x
  match t.core with
  | some c => if t.test = 2 then wipe c [t.unit % 4] else if t.sub = 3 then wipe c [0, 1, 2, 3] else s
  | none => s

/-- A result is counted and recorded; a LASTING one acts. -/
def State.sdConclude (s : State) (t : SdTest) (result errors : Nat) : State :=
  if result = sdLasting then
    let a := (s.bumpF fErrSdcntLasting 1).sdAct t
    a.2.logSd t result errors a.1
  else if result = sdTransient then ((s.bumpF fErrSdcntTransient 1).sdRemember t).logSd t result errors 0
  else s.logSd t result errors 0

/-- The test in progress ends. -/
def State.sdEnd (s : State) (errors bits : Nat) : State :=
  match s.sd.running with
  | none => s
  | some t =>
    let s1 := (({ s with sd := { s.sd with running := none } } : State).setB fErrStatusSdbusy false).sdOverwrite t
    s1.sdConclude t (s1.sdResult t errors bits) errors

/-- SHEEPDOG_TEST_END (R729): the errors found and, for PRBS, the bits of the worst lane. -/
def execSheepdogTestEnd (errors : BitVec 32) (bits : BitVec 32) (s : State) :
    Host.Outcome State Fault Refusal := .next (s.sdEnd errors.toNat bits.toNat)

/-- A queued test that has waited DEFER seconds without being eligible leaves the queue (R728). -/
def State.sdDeferred (s : State) : State :=
  match s.sd.queue.find? fun t => !s.eligible t with
  | none => s
  | some t =>
    let s1 := s.reachFrom t.at_ (s.getF fErrSdcfgDefer * 125000000)
    let s2 : State := { s1 with sd := { s1.sd with queue := s1.sd.queue.filter (· ≠ t) } }
    (s2.sdShow).logSd t sdDefer 0 0

/-- DEFERRED (R728). -/
def execSdDeferred (s : State) : Host.Outcome State Fault Refusal := .next s.sdDeferred

/-! ### The ERR block (R714, R723, R724, R738, R781) -/

/-- CSTORM_WINDOW (R714): the correctable counts restart. -/
def execCstormWindow (s : State) : Host.Outcome State Fault Refusal :=
  .next { s with sd := { s.sd with corr := [], storm := [] } }

/-- The lifetime counters of the block are cleared. -/
def State.errClr (s : State) : State :=
  (((s.wr rErrLost 0).setF fErrSdstatQfull 0).wr rErrSdcnt 0).clearRegs (rErrClasscnt 0) 4 21

/-- ERR_HEAD takes the value of ERR_TAIL. -/
def State.clrLog (s : State) : State := s.setF fErrHeadHead (s.getF fErrTailTail)

/-- A write of ERR_CTL. -/
def State.errCtl (s : State) (v : W32) : State :=
  let s1 := if v.getLsbD 0 then s.errClr else s
  if v.getLsbD 1 then s1.clrLog else s1

/-- ERR_CLRCNT (R738). -/
def execErrClrcnt (r : Requester) (v : BitVec 32) (s : State) : Host.Outcome State Fault Refusal :=
  .next (s.bar0 r fun s => s.errCtl (v ||| 1))

/-- CLRLOG (R723). -/
def execErrClrlog (r : Requester) (v : BitVec 32) (s : State) : Host.Outcome State Fault Refusal :=
  .next (s.bar0 r fun s => s.errCtl (v ||| 2))

/-- Whether a unit takes a requested test on a target within it (R781). -/
def sdTaken (test kind idx sub : Nat) : Bool :=
  match test, kind with
  | 1, 1 => decide (idx < 256) && decide (1 ≤ sub) && decide (sub ≤ 4)
  | 1, 3 => decide (idx < 32) && decide (sub ≤ 15)
  | 2, 2 => decide (idx < 1024) && sub == 0
  | 3, 4 => decide (idx < 8)
  | 4, 5 => decide (idx < 512) && sub == 0
  | 5, 6 => decide (idx < 19) && sub == 0
  | _, _ => false

/-- A write of ERR_SDREQ with GO. -/
def State.sdRequest (s : State) (v : W32) : State :=
  let u := v.toNat % 65536
  let t := v.toNat / 65536 % 256
  let sub := s.getF fErrSdsubSub
  if sdTaken t (u / 2048) (u % 2048) sub then s.sdQueue t u sub else s.logCsr 1 rErrSdreq v.toNat

/-- ERR_SDREQ (R724). -/
def execErrSdreq (r : Requester) (v : BitVec 32) (s : State) : Host.Outcome State Fault Refusal :=
  .next (s.bar0 r fun s => s.sdRequest v)

end Sys2Proof.Machine
end

