-- ==== Sys2Proof/Machine/Registers.lean ====
section
/-! DEFINITION. Register accesses: the writes and reads of BAR0 and BAR4, their sizes, the pairs, the
reserved encodings, and what each register shows (R13-R19, R676-R684, R710, R739-R743). -/

namespace Sys2Proof.Machine

open Sys2Proof

/-! ### Pairs (R742) -/

/-- A run of register pairs: the address of the first _LO half, a count and a stride. -/
structure PairRow where
  base : Nat
  count : Nat
  stride : Nat
  deriving DecidableEq, Repr

/-- The pairs of BAR0 below the core windows. -/
def pairRows : List PairRow := [
  ⟨rCapSerialLo, 1, 8⟩, ⟨rImgSrcLo, 1, 8⟩, ⟨rImgLbaLo, 1, 8⟩, ⟨rImgApplytLo, 1, 8⟩, ⟨rImgIdaLo, 1, 8⟩,
  ⟨rImgIdbLo, 1, 8⟩, ⟨rXltTbaseaLo, 1, 8⟩, ⟨rXltTbasebLo, 1, 8⟩, ⟨rXltInvvaLo, 1, 8⟩,
  ⟨rDmaChBaseLo 0, 16, 64⟩, ⟨rMemBeretLo 0, 8, 32⟩, ⟨rMemHrbaseLo, 1, 8⟩, ⟨rFabTimeLo, 1, 8⟩,
  ⟨rFabTsetLo, 1, 8⟩, ⟨rBwtCpbaseLo, 1, 8⟩, ⟨rBwtClbaseLo, 1, 8⟩, ⟨rBwtSlbaseLo, 1, 8⟩,
  ⟨rBwtStepLo, 1, 8⟩, ⟨rBwtLastLo, 1, 8⟩, ⟨rBwtRstepLo, 1, 8⟩, ⟨rBwtResumetLo, 1, 8⟩,
  ⟨rSavPlanLo, 1, 8⟩, ⟨rSavRingLo, 1, 8⟩, ⟨rSavQbaseLo, 1, 8⟩, ⟨rSavCidLo, 1, 8⟩, ⟨rSavCstepLo, 1, 8⟩,
  ⟨rSavDrvBaseLo 0, 4, 16⟩, ⟨rCalNextLo 0, 64, 16⟩]

/-- The pairs of a core's window. -/
def pairRowsCore : List PairRow := [⟨0x520, 4, 8⟩, ⟨0x540, 8, 16⟩]

/-- Whether a run has a _LO half at an address. -/
def PairRow.has (r : PairRow) (off : Nat) : Bool :=
  r.base ≤ off && (off - r.base) % r.stride == 0 && (off - r.base) / r.stride < r.count

/-- Whether an address of BAR0 lies in a core's window. -/
def inCore (off : Nat) : Bool := 0x1000000 ≤ off && off < 0x2000000

/-- Whether a BAR0 address is the _LO half of a pair. -/
def pairLo (off : Nat) : Bool :=
  if inCore off then pairRowsCore.any (·.has (off % 65536)) else pairRows.any (·.has off)

/-- Whether a BAR0 address is the _HI half of a pair. -/
def pairHi (off : Nat) : Bool := 4 ≤ off && pairLo (off - 4)

/-- The latch of a requester for an address. -/
def latchOf (l : List Latch) (r : Requester) (off : Nat) : Option W32 :=
  (l.find? fun x => x.who == r && x.off == off).map (·.val)

/-- Release the latch of a requester for an address. -/
def latchDrop (l : List Latch) (r : Requester) (off : Nat) : List Latch :=
  l.filter fun x => !(x.who == r && x.off == off)

/-- Hold a value for a requester and an address, in place of an earlier one. -/
def latchPut (l : List Latch) (r : Requester) (off : Nat) (v : W32) : List Latch := latchDrop l r off ++ [⟨r, off, v⟩]

/-- The _LO write held for a requester, if there is one, else the half that is stored; and the state
with it released. -/
def State.takeLo (s : State) (r : Requester) (off : Nat) (stored : W32) : W32 × State :=
  ((latchOf s.heldLo r off).getD stored, { s with heldLo := latchDrop s.heldLo r off })

/-! ### Reserved encodings and writes refused (R15) -/

/-- What a write finds: it takes effect, or it is dropped whole with a CSR record of this detail. -/
inductive WrCheck | ok | drop (detail : Nat)
  deriving DecidableEq, Repr

/-- CSR_RSVVAL where `bad` holds. -/
def rsvIf (bad : Bool) : WrCheck := if bad then .drop 1 else .ok

/-- A refusal of `detail` where `busy` holds, else CSR_RSVVAL where `bad` holds. -/
def busyOr (busy : Bool) (detail : Nat) (bad : Bool) : WrCheck := if busy then .drop detail else rsvIf bad

/-- A channel whose address range holds this address, with the offset within it. -/
def chanAt (off : Nat) : Option (Nat × Nat) :=
  if 0x400100 ≤ off ∧ off < 0x400500 then some ((off - 0x400100) / 64, off % 64) else none

/-- Whether a channel's ring holds descriptors. -/
def State.chRingBusy (s : State) (ch : Nat) : Bool := s.getF (fDmaChHeadHead ch) != s.getF (fDmaChTailTail ch)

/-- Whether the host ring of the bank engines holds commands. -/
def State.hrBusy (s : State) : Bool := s.getF fMemHrheadHead != s.getF fMemHrtailTail

/-- The value of a run of positions in a count that wraps: whether `v` lies from `a` to `b`. -/
def fromTo (m a b v : Nat) : Bool := decide (v < m) && decide ((v + m - a % m) % m ≤ (b + m - a % m) % m)

/-- The check of a write to a single register of BAR0, of its RW bits `v` (R15, R393, R442, R603, R641,
R710, R723, R738). -/
def State.wrCheck (s : State) (off : Nat) (v : W32) : WrCheck :=
  let f (x : Fld) : Nat := x.get v
  if rMemBgcfg 0 ≤ off ∧ off ≤ rMemBgcfg 6 then
    let c := (off - rMemBgcfg 0) / 4
    let a1 := f (fMemBgcfgAge1 c)
    let a2 := f (fMemBgcfgAge2 c)
    rsvIf (decide (a1 < 8) || decide (a2 ≤ a1) || decide (f (fMemBgcfgAge3 c) ≤ a2))
  else if off = rMemSavedl then rsvIf (decide (f fMemSavedlHightk ≤ f fMemSavedlUrgtk))
  else if off = rMemHrsize then
    busyOr s.hrBusy 2 (decide (f fMemHrsizeLog2 < 4) || decide (16 < f fMemHrsizeLog2))
  else if off = rXltB2base then
    rsvIf (f fXltB2baseBaseg % s.host.bar2 != 0 || decide (512 < f fXltB2baseBaseg + s.host.bar2))
  else if off = rXltTimeout then rsvIf (f fXltTimeoutSlots == 0)
  else if off = rBwtCfg then rsvIf (f fBwtCfgDigmax == 0)
  else if off = rBwtConsoff then rsvIf (f fBwtConsoffSlots == 0)
  else if off = rBwtCplen then rsvIf (f fBwtCplenEntries == 0 || decide (256 < f fBwtCplenEntries))
  else if off = rBwtPgrp then rsvIf (decide (8 < f fBwtPgrpMember))
  else if rBwtJsr 0 ≤ off ∧ off ≤ rBwtJsr 63 then busyOr (s.getF fBwtStatusState == bwtArmed) 4 false
  else if off = rSavRinglen then rsvIf (decide (f fSavRinglenPlaces < 4))
  else if off = rSavRstr then rsvIf (f fSavRstrArea == 3)
  else if off = rSavHcfg then rsvIf (f fSavHcfgTol == 0)
  else if off = rSavArealen then busyOr (s.savState != savIdle) 4 false
  else if off = rErrHead then rsvIf (!fromTo 1024 (s.getF fErrHeadHead) (s.getF fErrTailTail) v.toNat)
  else if off = rErrSdcfg then
    rsvIf (decide (f fErrSdcfgRecur < 2) || f fErrSdcfgRwin == 0 || f fErrSdcfgDefer == 0 || f fErrSdcfgCthr == 0)
  else if off = rMgtI2ccfg then rsvIf (f fMgtI2ccfgSpeed == 3)
  else match chanAt off with
    | some (ch, 0x10) =>
      busyOr (s.chRingBusy ch) 2 (decide (f (fDmaChSizeLog2 ch) < 4) || decide (16 < f (fDmaChSizeLog2 ch)))
    | _ => .ok

/-- The alignment of the value of a pair of BAR0, 1 for one that has none (R393, R401, R421, R603, R610,
R641). -/
def pairAlign (off : Nat) : Nat :=
  if off = rXltTbaseaLo ∨ off = rXltTbasebLo then 0x200000
  else if off = rMemHrbaseLo ∨ off = rBwtCpbaseLo ∨ off = rBwtClbaseLo ∨ off = rBwtSlbaseLo
    ∨ (chanAt off).isSome then 4096
  else if off = rSavPlanLo ∨ off = rSavRingLo ∨ off = rSavQbaseLo then 0x100000
  else 1

/-- The check of a write to a pair whose _LO half is at `off`. -/
def State.pairCheck (s : State) (off : Nat) (v : W64) : WrCheck :=
  let bad := v.toNat % pairAlign off != 0
  if off = rMemHrbaseLo then busyOr s.hrBusy 2 bad
  else if off = rSavPlanLo ∨ off = rSavRingLo ∨ (List.range 4).any (fun n => off == rSavDrvBaseLo n) then
    busyOr (s.savState != savIdle) 4 bad
  else if off = rSavQbaseLo then busyOr ((List.range 4).any s.driveReady) 4 bad
  else match chanAt off with
    | some (ch, _) => busyOr (s.chRingBusy ch) 2 bad
    | none => rsvIf bad

/-! ### Writes of BAR0 -/

/-- Run an effect for a bit of the value written. -/
def State.onBit (s : State) (v : W32) (n : Nat) (k : State → State) : State := if v.getLsbD n then k s else s

/-- Store a checked value; `at_` is the address that a record names. -/
def State.storeIf (s : State) (at_ : Nat) (v : W32) (c : WrCheck) (k : State → State) : State :=
  match c with
  | .ok => k s
  | .drop d => s.logCsr d at_ v.toNat

/-- A write of PWR by Jusia's own path: limits, thresholds, the ceiling, staged multipliers and load switches; OVER
follows a changed ACT (R654, R655, R658, R671). -/
def State.pwrJusia (s : State) (off : Nat) (v : W32) : State :=
  if off = rPwrThcfg then s.wr off (v &&& 0xFFFFFF#32)
  else if off = rPwrCeil then s.setCeiling (fPwrCeilSetlimit.get v) (fPwrCeilRstart.get v == 0)
  else if off = rPwrPhmult then
    (List.range 4).foldl (fun t ph => t.stage ph ((fPhmult ph).get v)) s
  else match (List.range 17).find? fun r => off == rPwrIlim r with
    | some r => (s.setF (fPwrIlimAct r) (min ((fPwrIlimAct r).get v) (s.getF (fPwrIlimFused r)))).railMeasure r
        (BitVec.ofNat 16 (s.getF (fPwrImeasIavg r)))
    | none => match (List.range 4).find? fun q => off == rPwrOptCtl q with
      | some q => if v.getLsbD 0 then s.optEnable q else (s.setB (fPwrOptCtlEn q) false).setOpt q optOff 0
      | none => s

/-- A write of the PWR block: PF0 reaches PWR_CTL alone (R671, R672). -/
def State.pwrWrite (s : State) (r : Requester) (off : Nat) (v : W32) : State :=
  if off = rPwrCtl then s.onBit v 0 State.pwrClr
  else if r = .jusia then s.pwrJusia off v else s

/-- A write of a DMA channel's register, `o` its offset; `at_` is the address that a record names. -/
def State.chanWrite (s : State) (ch o at_ : Nat) (v : W32) : State :=
  if o = 0 then s.chCtl (Fin.ofNat 16 ch) v
  else if o = 0x18 then s.chTail ch at_ v
  else
    let off := 0x400100 + 64 * ch + o
    s.storeIf at_ v (s.wrCheck off (v &&& regRw off)) fun t => t.store off v

/-- BWT_CTL, its bits in order (R573, R591, R603). -/
def State.bwtCtl (s : State) (v : W32) : State :=
  (((s.onBit v 0 State.armWrite).onBit v 1 State.disarm).onBit v 2 fun t => t.pendHalt 7).onBit v 3 State.bwtClr

/-- SAV_CTL, its bits in order (R617, R622, R633, R641). -/
def State.savCtl (s : State) (v : W32) : State :=
  (((s.onBit v 0 State.savReq).onBit v 1 fun t => t.endClutch 1).onBit v 2 fun t => State.savRestore t v).onBit
    v 3 State.savClr

/-- SAV_DRVn_CTL: EN, and an attachment (R607). -/
def State.drvCtl (s : State) (n : Nat) (v : W32) : State :=
  (s.setB (fSavDrvCtlEn n) (v.getLsbD 0)).onBit v 1 fun t => t.attachDrive n

/-- MGT_I2CCTL: RESET finds SDA at a level that the write does not carry, a free value (R698, R699). -/
def State.i2cCtl (s : State) (v : W32) : State :=
  (s.onBit v 0 fun t => let x := t.takeFree; x.2.i2cInterrupt.busCheck (x.1.getLsbD 0)).onBit v 1 State.i2cClear

/-- A write of a register that acts (R348, R393, R442, R531, R572, R603, R641, R710, R738); none for one
that only stores. -/
def State.action (s : State) (off : Nat) (v : W32) : Option State :=
  if off = rImgCtl then some (s.imgCtl v)
  else if off = rXltCtl then some ((s.store off v).onBit v 1 State.xltClr)
  else if off = rXltInv then some (s.xltInv v)
  else if off = rDmaCtl then some (s.onBit v 0 State.dmaClr)
  else if off = rMemCtl then some ((s.onBit v 0 State.memClrAll).store off v)
  else if off = rMemHrtail then some (s.hrtail v)
  else if off = rFabTctl then some (s.onBit v 0 State.fabApply)
  else if off = rFabPchip then some (s.pchip v)
  else if off = rHrdCtl then some (s.onBit v 0 State.hrdClr)
  else if off = rMulCtl then some (s.onBit v 0 fun t => t.mulClrTabs (List.range 16))
  else if off = rBwtCtl then some (s.bwtCtl v)
  else if off = rBwtResolve then some (s.onBit v 0 fun t => t.resolveStep v)
  else if off = rSavCtl then some (s.savCtl v)
  else if off = rSavHneed ∨ off = rSavHcfg then
    some (s.storeIf off v (s.wrCheck off (v &&& regRw off)) fun t => (t.store off v).reconcile)
  else if off = rErrCtl then some (s.errCtl v)
  else if off = rErrSdreq then some (s.onBit v 31 fun t => t.sdRequest v)
  else if off = rMgtRstctl then
    some (if v.getLsbD 0 then s.warmReset 1 else s.onBit v 1 State.firmwareReset)
  else if off = rMgtI2cctl then some (s.i2cCtl v)
  else match (List.range 19).find? fun p => off == rFabPctl p with
    | some p => some (s.portCtl p v)
    | none => ((List.range 4).find? fun n => off == rSavDrvCtl n).map fun n => s.drvCtl n v

/-- A write in a core's window at offset `o` (R120, R124, R173, R221, R222, R224). -/
def State.coreWrite (s : State) (c o : Nat) (v : W32) : State :=
  if o = 0x480 then s.onBit v 0 fun t => t.modCore c CoreSt.arraysClr
  else if o = 0x514 then s.onBit v 0 fun t => t.modCore c CoreSt.vecClr
  else if o = 0x640 then
    if s.debugOf c then s.modCore c fun x => { x with bkpt := v.setWidth 13 } else s
  else if o = 0x644 then
    if s.debugOf c then
      ((s.onBit v 0 fun t => t.modCore c CoreSt.ctlResume).onBit v 1 fun t => t.modCore c CoreSt.ctlStep).onBit
        v 2 fun t => t.modCore c CoreSt.ctlHalt
    else s
  else match (List.range 4).find? fun n => o == 0x414 + 0x20 * n with
    | some n => s.modCore c fun x =>
        let a := x.arr n
        x.setArr n { a with sat := a.sat &&& ~~~(v.setWidth 16), poison := a.poison &&& ~~~((v >>> 16).setWidth 16) }
    | none => s

/-- A write of a single register of BAR0 at a block's address (R739). -/
def State.wordWrite (s : State) (r : Requester) (off : Nat) (v : W32) : State :=
  if off / 0x100000 = 1 then s.pwrWrite r off v
  else if inCore off then s.coreWrite ((off - 0x1000000) / 65536) (off % 65536) v
  else match chanAt off with
    | some (ch, o) => s.toCh r ch fun t => t.chanWrite ch o off v
    | none => match s.action off v with
      | some t => t
      | none => s.storeIf off v (s.wrCheck off (v &&& regRw off)) fun t => t.store off v

/-- Both halves of a pair take effect; `at_` is the address of the _HI half that a record names. -/
def State.pairStore (s : State) (off at_ : Nat) (lo hi : W32) : State :=
  let v : W64 := (hi &&& regRw (off + 4)) ++ (lo &&& regRw off)
  s.storeIf at_ hi (s.pairCheck off v) fun t => (t.store off lo).store (off + 4) hi

/-- Jusia sets XLT_TBASEB, 48 bits at a multiple of 2 MiB: its write of the _HI half takes effect with the
_LO half that it wrote before (R442, R742). -/
def State.setTbaseB (s : State) (off : Nat) (v : W32) : State :=
  if off = rXltTbasebLo then { s with heldLo := latchPut s.heldLo .jusia off v }
  else
    let h := s.takeLo .jusia rXltTbasebLo (s.rd rXltTbasebLo)
    let x : W64 := (v &&& 0xFFFF#32) ++ h.1
    h.2.storeIf off v (h.2.pairCheck rXltTbasebLo x) fun t => t.wr64 rXltTbasebLo x

/-- A write of a BAR0 word: a _LO half of an RW pair is held, and takes effect with the _HI half (R742). -/
def State.bar0Write (s : State) (r : Requester) (off : Nat) (v : W32) : State :=
  if r = .jusia ∧ (off = rXltTbasebLo ∨ off = rXltTbasebHi) then s.setTbaseB off v
  else if pairLo off then
    if regRw off = 0 then s else { s with heldLo := latchPut s.heldLo r off v }
  else if pairHi off then
    if regRw (off - 4) = 0 then s
    else
      let h := s.takeLo r (off - 4) (s.rd (off - 4))
      match chanAt off with
      | some (ch, _) => h.2.toCh r ch fun t => t.pairStore (off - 4) off h.1 v
      | none => h.2.pairStore (off - 4) off h.1 v
  else s.wordWrite r off v

/-! ### Writes of BAR4 (R677-R684) -/

/-- A CSR record of a BAR4 access (R718). -/
def State.logCsr4 (s : State) (fn : Func) (detail off v : Nat) : State :=
  s.log ⟨8, detail, unitFunc fn.val, fn == 1, false, 2 ^ 63 + off, v⟩

/-- A write of a vector control word: unmasking sends the pending message once (R681). -/
def State.vecCtl (s : State) (fn : Func) (vec : Nat) (v : W32) : State :=
  let bit := BitVec.ofNat 32 (2 ^ vec)
  let s1 := s.wr4 fn (16 * vec + 12) (v &&& 1)
  if ¬ v.getLsbD 0 ∧ (s.rd4 fn 0x800).getLsbD vec then
    (s1.wr4 fn 0x800 (s.rd4 fn 0x800 &&& ~~~bit)).emit (.msix fn vec)
  else s1

/-- MSIX_UNMASK (R681). -/
def execMsixUnmask (fn : Func) (vec : Fin 32) (s : State) : Host.Outcome State Fault Refusal :=
  .next (s.vecCtl fn vec.val 0)

/-- A write of CRING_CTL: EN from 0 to 1 sets HEAD and TAIL to 0 (R683). -/
def State.cringCtl (s : State) (fn : Func) (v : W32) : State :=
  let s1 := s.wr4 fn rCringCtl (v &&& 1)
  if v.getLsbD 0 ∧ ¬ (s.rd4 fn rCringCtl).getLsbD 0 then (s1.wr4 fn rCringHead 0).wr4 fn rCringTail 0 else s1

/-- CRING_ENABLE (R683). -/
def execCringEnable (fn : Func) (v : BitVec 32) (s : State) : Host.Outcome State Fault Refusal :=
  .next (s.cringCtl fn (v ||| 1))

/-- Whether a function's ring is enabled. -/
def State.cringOn (s : State) (fn : Func) : Bool := (s.rd4 fn rCringCtl).getLsbD 0

/-- A write of CRING_BASE_HI, with the _LO half held or stored (R682, R683, R742). -/
def State.cringBase (s : State) (r : Requester) (fn : Func) (v : W32) : State :=
  let h := s.takeLo r (2 ^ 26 + 0x2000) (s.rd4 fn 0x2000)
  if s.cringOn fn then h.2.logCsr4 fn 2 0x2004 v.toNat
  else if h.1.toNat % 4096 ≠ 0 then h.2.logCsr4 fn 1 0x2004 v.toNat
  else (h.2.wr4 fn 0x2000 h.1).wr4 fn 0x2004 v

/-- A write of CRING_SIZE. -/
def State.cringSize (s : State) (fn : Func) (v : W32) : State :=
  let n := v.toNat % 32
  if s.cringOn fn then s.logCsr4 fn 2 rCringSize v.toNat
  else if n < 4 ∨ 16 < n then s.logCsr4 fn 1 rCringSize v.toNat
  else s.wr4 fn rCringSize (BitVec.ofNat 32 n)

/-- A write of CRING_HEAD: the entries from the current HEAD to TAIL. -/
def State.cringHead (s : State) (fn : Func) (v : W32) : State :=
  let n := v.toNat % 65536
  if fromTo (s.cringLen fn) (s.rd4 fn rCringHead).toNat (s.rd4 fn rCringTail).toNat n then
    s.wr4 fn rCringHead (BitVec.ofNat 32 n)
  else s.logCsr4 fn 1 rCringHead v.toNat

/-- The channel register behind an address of PF1's BAR4, while the channel belongs to job slot B
(R679). -/
def State.winChan (s : State) (fn : Func) (off : Nat) : Option (Nat × Nat) :=
  if fn = 1 ∧ 0x4000 ≤ off ∧ off < 0x4400 ∧ s.bitF (fDmaChCtlSlot ((off - 0x4000) / 64)) then
    some ((off - 0x4000) / 64, off % 64)
  else none

/-- A write of a channel's register through PF1's window. -/
def State.winWrite (s : State) (ch o at_ : Nat) (v : W32) : State :=
  let off := 0x400100 + 64 * ch + o
  if pairLo off then { s with heldLo := latchPut s.heldLo .pf1 off v }
  else if pairHi off then
    let h := s.takeLo .pf1 (off - 4) (s.rd (off - 4))
    h.2.pairStore (off - 4) at_ h.1 v
  else s.chanWrite ch o at_ v

/-- A write of a BAR4 word of a function by its requester. -/
def State.bar4Write (s : State) (r : Requester) (fn : Func) (off : Nat) (v dw0 : W32) : State :=
  if off < 0x200 then (if off % 16 = 12 then s.vecCtl fn (off / 16) v else s.wr4 fn off v)
  else if off = 0x1000 then s.onBit v 0 fun t => t.mbxPost fn
  else if off = mbxStatus then s.wr4 fn off (s.rd4 fn off &&& ~~~(v &&& 6))
  else if 0x1100 ≤ off ∧ off < 0x1200 then
    if s.mbxBusy fn then s.logCsr4 fn 2 off v.toNat else s.wr4 fn off v
  else if off = 0x2000 then { s with heldLo := latchPut s.heldLo r (2 ^ 26 + off) v }
  else if off = 0x2004 then s.cringBase r fn v
  else if off = rCringSize then s.cringSize fn v
  else if off = rCringCtl then s.cringCtl fn v
  else if off = rCringHead then s.cringHead fn v
  else if 0x3000 ≤ off ∧ off < 0x3040 then s.doorbell fn ((off - 0x3000) / 4) v dw0
  else if off = 0x3040 then (if fn = 0 then s.doorbell fn 16 v 0 else s)
  else match s.winChan fn off with
    | some (ch, o) => s.winWrite ch o (2 ^ 63 + off) v
    | none => s

/-! ### REGISTER_WRITE -/

/-- The function behind a requester's BAR4. -/
def reqFunc : Requester → Option Func
  | .pf0 => some 0
  | .pf1 => some 1
  | .jusia | .smbus => none

/-- Whether an access has a size and an alignment that its BAR takes (R676). -/
def accessOk (bar : Bar) (off size : Nat) : Bool :=
  (size == 4 && off % 4 == 0) || (bar == .bar4 && size == 8 && off % 8 == 0 && off < 0x200)

/-- A write; a doorbell that is no channel of the function logs its header, a free value here. -/
def State.regWrite (s : State) (r : Requester) (bar : Bar) (off size : Nat) (v : W64) : State :=
  match bar with
  | .bar0 => s.bar0 r fun t =>
      if accessOk bar off size then t.bar0Write r off (v.setWidth 32)
      else t.logCsr 3 off (v.toNat % 2 ^ 32)
  | .bar4 =>
    match reqFunc r with
    | none => s
    | some fn =>
      if accessOk bar off size then
        let x := s.takeFree
        let t := x.2.bar4Write r fn off (v.setWidth 32) (x.1.setWidth 32)
        if size = 8 then t.bar4Write r fn (off + 4) ((v >>> 32).setWidth 32) 0 else t
      else s.logCsr4 fn 3 off (v.toNat % 2 ^ 32)

/-- REGISTER_WRITE (R14). -/
def execRegisterWrite (r : Requester) (bar : Bar) (off : BitVec 26) (size : BitVec 13) (v : BitVec 64)
    (s : State) : Host.Outcome State Fault Refusal :=
  .next (s.regWrite r bar off.toNat size.toNat v)

/-! ### What the registers show (R122, R124, R175, R202, R224, R303, R485, R672, R704) -/

/-- A bit as a number. -/
def b2n (b : Bool) : Nat := if b then 1 else 0

/-- ARR_STATUSn. -/
def Quad.status (q : Quad) (n : Nat) : Nat :=
  let mine (j : AmacJob) : Bool := j.f.amask.getLsbD n
  let cur := q.run.filter fun r => mine r.job
  b2n (cur.isSome || (q.queued.map mine).getD false) + 2 * b2n q.stopped
    + (match cur with
      | some r => 4 * r.knext + 128 * r.job.f.tile.toNat + 2048 * b2n r.started
      | none => 0)
    + 4096 * q.cause

/-- An array's register at offset `o` of its own. -/
def CoreSt.arrReg (x : CoreSt) (n o : Nat) : Nat :=
  let a := x.arr n
  match o with
  | 0x00 => x.quad.status n
  | 0x04 => a.satStep.toNat + 65536 * a.sclStep.toNat
  | 0x08 => a.satTot.toNat
  | 0x0C => a.sclTot.toNat
  | 0x10 => a.corr.toNat + 65536 * a.uncorr.toNat
  | 0x14 => a.sat.toNat + 65536 * a.poison.toNat
  | _ => 0

/-- TAPt_CFG. -/
def TapCfg.word (t : TapCfg) : Nat :=
  b2n t.en + 2 * t.cls + 8 * b2n t.layerMode + 16 * b2n t.out + 32 * t.port + 1024 * (t.scale % 1024).toNat

/-- A register of the vector engine and the reduction unit, `o` its window offset. A VTILE has run when
its bundle has issued, so TILEOP reads 0. -/
def CoreSt.vecReg (x : CoreSt) (o : Nat) : Nat :=
  if o = 0x500 then b2n (!x.folds.isEmpty) + 256 * x.vseq.toNat
  else if o = 0x504 then x.satStep.toNat + 65536 * x.domStep.toNat
  else if o = 0x508 then x.satTot.toNat
  else if o = 0x50C then x.domTot.toNat
  else if o = 0x510 then x.ocCorr.toNat + 65536 * x.ocUncorr.toNat
  else if 0x520 ≤ o ∧ o < 0x540 then
    (x.racc ((o - 0x520) / 8)).val.toNat / (if o % 8 = 0 then 1 else 2 ^ 32) % 2 ^ 32
  else if 0x540 ≤ o ∧ o < 0x5C0 then
    let t := (o - 0x540) / 16
    match o % 16 with
    | 0 => (x.tap t).acc.toNat % 2 ^ 32
    | 4 => (x.tap t).acc.toNat / 2 ^ 32
    | 8 => ((x.cfg.bind fun c => c.taps[t]?).map TapCfg.word).getD 0
    | _ => (x.tap t).layer.toNat
  else 0

/-- SEQ_STATUS; PREEMPT stops the core as every exception does (R208, R224). -/
def CoreSt.status (x : CoreSt) : Nat :=
  b2n (decide (0 < x.plen) && !x.halted) + 2 * b2n x.halted + 4 * x.hcause + 32 * b2n x.ds + 64 * x.pcount
    + 256 * (b2n (x.loop 0).act + 2 * b2n (x.loop 1).act + 4 * b2n (x.loop 2).act) + 2048 * b2n x.isB

/-- A register of the sequencer, `o` its window offset. -/
def CoreSt.seqReg (x : CoreSt) (o : Nat) : Nat :=
  if o = 0x600 then x.status
  else if o = 0x604 then x.pc.toNat
  else if o = 0x608 then x.exc.toNat
  else if o = 0x60C then x.excInfo.toNat
  else if o = 0x610 then x.excPc.toNat
  else if o = 0x614 then x.mode.toNat
  else if 0x620 ≤ o ∧ o < 0x638 then
    let l := x.loop ((o - 0x620) / 8)
    if o % 8 = 0 then l.lc.toNat else l.ls.toNat + 65536 * l.le.toNat
  else if o = 0x640 then x.bkpt.toNat
  else if 0x680 ≤ o ∧ o < 0x700 then (x.sreg (BitVec.ofNat 5 ((o - 0x680) / 4))).toNat
  else 0

/-- The first binding of a port in the planes of a job slot's section, with its depth. -/
def CoreSt.boundFirst (x : CoreSt) (j : JobSlot) (p : Nat) : Option (JobSlot × PortBind × Nat) :=
  (x.cfgOf j).bind fun c =>
    ((List.range 4).findSome? fun q => (c.binds[32 * q + p]?).filter fun b => b.user != 0).map fun b =>
      (j, b, c.depth.getD p 0)

/-- The binding of a port that STR_PORTp shows, with its job slot: the resident slot's in the plane in
force, else in the first plane that binds it, else the other slot's (log entry 56). -/
def CoreSt.portShown (x : CoreSt) (p : Nat) : Option (JobSlot × PortBind × Nat) :=
  match x.bind p with
  | some b => some (x.slot, b, x.depth p)
  | none => (x.boundFirst x.slot p).or (x.boundFirst (if x.slot = .a then .b else .a) p)

/-- STR_PORTp. -/
def State.portReg (s : State) (c p : Nat) : Nat :=
  let x := s.core c
  match x.portShown p with
  | none => 0
  | some (j, b, depth) =>
    let n := (x.port p).queue.length
    (if b.out then depth - n else n) % 256 + 256 * b2n b.out + 512 * (b.user % 4) + 2048 * (depth % 256)
      + 2 ^ 19 * (if b.out then (s.route j b.route).credits % 256 else 0) + 2 ^ 27 * b2n (x.port p).fault
      + 2 ^ 28 * b2n (j == .b)

/-- A register of a core's window at offset `o`. -/
def State.coreReg (s : State) (c o : Nat) : Nat :=
  let x := s.core c
  if 0x400 ≤ o ∧ o < 0x480 then x.arrReg ((o - 0x400) / 32) (o % 32)
  else if 0x500 ≤ o ∧ o < 0x600 then x.vecReg o
  else if 0x600 ≤ o ∧ o < 0x700 then x.seqReg o
  else if 0x700 ≤ o ∧ o < 0x780 then s.portReg c ((o - 0x700) / 4)
  else 0

/-- A register of a cluster window: CMP_ registers of each die's cluster 0, CMP_RPT in window 0. -/
def State.cmpReg (s : State) (w o : Nat) : Nat :=
  if w % 16 ≠ 0 then 0
  else if o = 0x100 then (s.dieColl (w / 16)).queue.length
  else if o = 0x104 then (s.dieColl (w / 16)).dropA.toNat + 65536 * (s.dieColl (w / 16)).dropB.toNat
  else if o = 0x108 ∧ w = 0 then b2n s.reporter.side + 2 * b2n s.reporter.held
  else 0

/-- PWR_STRETCH: the levels, and the causes that hold each die in this tk; what the current controller holds
shows CURRENT, or FAST until its next evaluation (R278, R645, R656, R657). -/
def State.stretchReg (s : State) : Nat :=
  let cause (die : Nat) : Nat :=
    let fast := if die = 0 then s.pwr.fastW else s.pwr.fastE
    let thr := if die = 0 then s.bitF fPwrThstatThrotw else s.bitF fPwrThstatThrote
    b2n (s.currentHold die && !fast) + 2 * b2n (s.currentHold die && fast) + 4 * b2n (s.bitF fPwrCeilHolding)
      + 8 * b2n (thr || s.bitF fPwrThstatCrit) + 16 * b2n (s.vhold die)
      + 32 * b2n (s.pwr.waiting && !s.hasSwitched die) + 64 * b2n (s.bridgeHold die)
  s.getF fPwrStretchLevelw + 16 * s.getF fPwrStretchLevele + 256 * cause 0 + 65536 * cause 1

/-- Whether SMBALERT# is driven low (R704). -/
def State.alert (s : State) : Bool :=
  s.bitF fPwrThstatThrotw || s.bitF fPwrThstatThrote || s.bitF fPwrThstatCrit || s.bitF fSavHstatHuplow
    || s.getF fBwtStatusState == bwtHalted || s.fwState == fwHung

/-- The pins: those driven low or high by the device, and the others at the levels `ext` that the board
gives them. -/
def State.pinLevels (s : State) (ext : Byte) : Nat :=
  let pin (n : Nat) (low : Bool) : Nat := 2 ^ n * b2n (ext.getLsbD n && !low)
  let gp (n : Nat) : Nat := 2 ^ n * b2n
    (if (s.getF fMgtGpiocfgOe).testBit (n - 4) then (s.getF fMgtGpiodataOut).testBit (n - 4) else ext.getLsbD n)
  pin 0 (s.bitF fPwrThstatCrit) + pin 1 s.alert + pin 2 (s.getF fBwtStatusState == bwtHalted)
    + 8 * b2n (s.fwState == fwRunning) + gp 4 + gp 5 + gp 6 + gp 7

/-- Whether an address is that of a Mule table which the image does not declare; its registers read 0, and its
lifetime counts stay for an image that declares it (R571). -/
def State.undeclared (s : State) (off : Nat) : Bool :=
  decide (rMulDrop 0 ≤ off) && decide (off < rMulDrop 16)
    && decide (((s.imgA.bind (·.mule)).map (·.tabs.length)).getD 0 ≤ (off - rMulDrop 0) / 32)

/-- The word at an address of BAR0; `ext` gives the levels of the pins that nothing in the device
drives. -/
def State.regVal (s : State) (off : Nat) (ext : Byte) : W32 :=
  if inCore off then BitVec.ofNat 32 (s.coreReg ((off - 0x1000000) / 65536) (off % 65536))
  else if 0x2000000 ≤ off ∧ off < 0x2200000 then
    BitVec.ofNat 32 (s.cmpReg ((off - 0x2000000) / 65536) (off % 65536))
  else if off = rFabTimeLo then s.fab.time.setWidth 32
  else if off = rFabTimeHi then (s.fab.time >>> 32).setWidth 32
  else if off = rPwrStretch then BitVec.ofNat 32 s.stretchReg
  else if s.undeclared off then 0
  else if off = rMgtGpiodata then BitVec.ofNat 32 (s.pinLevels ext + 256 * s.getF fMgtGpiodataOut)
  else match (List.range 4).find? fun q => off == rPwrOptStat q with
    | some q => (fPwrOptStatRetries q).set (s.rd off) (s.retriesOf q).length
    | none => s.rd off

/-- A read of a BAR0 word by a requester: a _LO half latches its _HI half, and the first read of that
_HI half returns the latch and releases it (R742). -/
def State.bar0Read (s : State) (r : Requester) (off : Nat) : W32 × State :=
  let x := if off = rMgtGpiodata then s.takeFree else (0, s)
  let t := x.2
  let v := t.regVal off (x.1.setWidth 8)
  if pairLo off then (v, { t with latches := latchPut t.latches r (off + 4) (t.regVal (off + 4) 0) })
  else match latchOf t.latches r off with
    | some h => (h, { t with latches := latchDrop t.latches r off })
    | none => (v, t)

/-- The word at an address of a function's BAR4 (R677-R679, R684). -/
def State.bar4Val (s : State) (fn : Func) (off : Nat) : W32 :=
  if off = 0x1000 ∨ (0x3000 ≤ off ∧ off ≤ 0x3040) then 0
  else match s.winChan fn off with
    | some (ch, o) => if o ≤ 0x20 then s.rd (0x400100 + 64 * ch + o) else 0
    | none => s.rd4 fn off

/-- The key under which the latch of a BAR4 pair is held; none for a word that is no pair. -/
def State.pair4 (s : State) (fn : Func) (off : Nat) : Option Nat :=
  if off = 0x2000 then some (2 ^ 26 + off)
  else (s.winChan fn off).bind fun (x : Nat × Nat) =>
    if x.2 = 8 then some (0x400100 + 64 * x.1 + 8) else none

/-- A read of a BAR4 word of a function. -/
def State.bar4Read (s : State) (r : Requester) (fn : Func) (off : Nat) : W32 × State :=
  let v := s.bar4Val fn off
  match s.pair4 fn off with
  | some k => (v, { s with latches := latchPut s.latches r (k + 4) (s.bar4Val fn (off + 4)) })
  | none =>
    match if off < 4 then none else s.pair4 fn (off - 4) with
    | some k => match latchOf s.latches r (k + 4) with
      | some h => (h, { s with latches := latchDrop s.latches r (k + 4) })
      | none => (v, s)
    | none => (v, s)

/-- The BAR0 ranges that SMBus reads reach (R692). -/
def smbReach (off : Nat) : Bool :=
  (off / 0x100000 == 0) || (off / 0x100000 == 1) || (off / 0x100000 == 0xC) || (off / 0x100000 == 0xD)
    || (decide (0x600000 ≤ off) && decide (off < 0x600040)) || (decide (0xB00070 ≤ off) && decide (off < 0xB00090))
    || (decide (0xA00000 ≤ off) && decide (off < 0xA00010))

/-- READY of the SMBus STATUS byte: PWROK high and the fuses loaded (R691, R708). -/
def State.smbReady (s : State) : Bool := s.mgt.pwrok && !s.mgt.sag && s.mgt.fref

/-- What an SMBus read of a word returns: 0 while READY = 0, and 0 with DENIED outside the ranges it
reaches. -/
def State.smbWord (s : State) (off : Nat) : W32 × State :=
  if ¬ s.smbReady then (0, s)
  else if smbReach off then s.bar0Read .smbus off
  else (0, s.smbDenied 2 4)

/-- A read: its data go back to the requester; one of a wrong size or alignment ends in a Completer
Abort, and its record's value is free, because a read writes none (R676, R718). -/
def State.regRead (s : State) (r : Requester) (bar : Bar) (off size : Nat) : State :=
  match bar with
  | .bar0 =>
    if r = .pf1 then s
    else if accessOk bar off size then
      let v := if r = .smbus then s.smbWord off else s.bar0Read r off
      v.2.emit (.readData r bar off (v.1.setWidth 64))
    else
      let x := s.takeFree
      (x.2.logCsr 3 off (x.1.toNat % 2 ^ 32)).emit (.readAbort r bar off)
  | .bar4 =>
    match reqFunc r with
    | none => s
    | some fn =>
      if accessOk bar off size then
        let v := s.bar4Read r fn off
        v.2.emit (.readData r bar off
          (if size = 8 then v.2.bar4Val fn (off + 4) ++ v.1 else v.1.setWidth 64))
      else
        let x := s.takeFree
        (x.2.logCsr4 fn 3 off (x.1.toNat % 2 ^ 32)).emit (.readAbort r bar off)

/-- LO_READ_LATCH, and every other read of a register (R742). -/
def execLoReadLatch (r : Requester) (bar : Bar) (off : BitVec 26) (size : BitVec 13) (s : State) :
    Host.Outcome State Fault Refusal := .next (s.regRead r bar off.toNat size.toNat)

end Sys2Proof.Machine
end

