-- ==== Sys2Proof/Machine/Smbus.lean ====
section
/-! DEFINITION. The SMBus target: its commands, its packet error code and its timeout (R690-R693,
R708, R736). -/

namespace Sys2Proof.Machine

open Sys2Proof

/-- One bit of the CRC-8 of SMBus, x^8 + x^2 + x + 1. -/
def crc8Bits : Nat → Nat → Nat
  | 0, c => c
  | n + 1, c => crc8Bits n (if 128 ≤ c then (2 * c % 256) ^^^ 7 else 2 * c)

/-- The packet error code of some bytes. -/
def crc8 (l : List Byte) : Nat := l.foldl (fun c b => crc8Bits 8 (c ^^^ b.toNat)) 0

/-- The target's 7-bit address, in the place of an address byte (R690). -/
def State.smbAddr (s : State) : Nat := 2 * (0x60 + s.getF fMgtStrapBidx)

/-- A protocol violation: NACKed and dropped, PROTO set, VIOL counted, and a record (R693, R736). -/
def State.smbProto (s : State) (cmd n : Nat) : State :=
  ((((s.setB fMgtSmbstatProto true).bumpF fMgtSmbstatViol 1).log
    ⟨16, 0x20, unitBus 128, false, false, cmd, n⟩).emit (.smbus [] true))

/-- Whether a block write of `count` bytes with this packet error code is a violation (R690, R693). -/
def State.smbBad (s : State) (count : Byte) (pec : Pec) : Bool :=
  count != 4 || pec == .bad || (pec == .absent && s.bitF fMgtSmbcfgPecreq)

/-- A transaction reaches the target once VAUX is valid (R708). -/
def State.smbOn (s : State) (k : State → State) : State := if s.mgt.vaux then k s else s

/-- A block write: a violation, or its effect, acknowledged. -/
def State.smbBlock (s : State) (cmd : Nat) (count : Byte) (pec : Pec) (k : State → State) : State :=
  s.smbOn fun t =>
    if t.smbBad count pec then t.smbProto cmd (if count = 4 then 4 else 0)
    else (k t).emit (.smbus [] false)

/-- The offset of the next READ or WRITE. -/
def State.smbStep (s : State) : State := { s with mgt := { s.mgt with smbOff := s.mgt.smbOff + 4 } }

/-- SETADDR (R691). -/
def execSmbSetaddr (count : BitVec 8) (data : BitVec 32) (pec : Pec) (s : State) :
    Host.Outcome State Fault Refusal :=
  .next (s.smbBlock 1 count pec fun t => { t with mgt := { t.mgt with smbOff := data } })

/-- The data of a block read: the count, four bytes, and the code where the controller clocks it, over
the whole transfer. -/
def State.smbData (s : State) (v : W32) (pec : Bool) : List Byte :=
  let d : List Byte := 4#8 :: leBytes 4 v.toNat
  let a := BitVec.ofNat 8 s.smbAddr
  if pec then d ++ [BitVec.ofNat 8 (crc8 ([a, 2#8, a + 1] ++ d))] else d

/-- READ: a word that SMBus reaches; the offset advances. The count byte and the code are the target's
own, so a READ breaks no rule of R693. -/
def State.smbRead (s : State) (pec : Pec) : State :=
  let v := if s.mgt.smbOff.toNat % 4 = 0 then s.smbWord s.mgt.smbOff.toNat
    else (0, if s.smbReady then s.smbDenied 2 4 else s)
  v.2.smbStep.emit (.smbus (s.smbData v.1 (pec != .absent)) false)

/-- READ (R692). -/
def execSmbRead (pec : Pec) (s : State) : Host.Outcome State Fault Refusal :=
  .next (s.smbOn fun t => t.smbRead pec)

/-- WRITE: MGT_RSTCTL with WARM = 1 starts a warm reset; every other write is dropped and sets
DENIED. The offset advances. While READY = 0 the device is in reset, and stays so. -/
def State.smbWrite (s : State) (v : W32) : State :=
  let warm := s.mgt.smbOff.toNat == rMgtRstctl && v.getLsbD 0
  if ¬ warm then s.smbStep.smbDenied 3 4
  else if s.smbReady then s.smbStep.warmReset 2
  else s.smbStep

/-- WRITE (R692). -/
def execSmbWrite (count : BitVec 8) (data : BitVec 32) (pec : Pec) (s : State) :
    Host.Outcome State Fault Refusal := .next (s.smbBlock 3 count pec fun t => t.smbWrite data)

/-- The STATUS byte. -/
def State.smbStatusByte (s : State) : Byte :=
  BitVec.ofNat 8 (b2n s.smbReady + 2 * s.getF fMgtSmbstatDenied + 4 * s.getF fMgtSmbstatProto
    + 8 * b2n (s.fwState == fwRunning))

/-- STATUS (R691). -/
def execSmbStatus (s : State) : Host.Outcome State Fault Refusal :=
  .next (s.smbOn fun t => t.emit (.smbus [t.smbStatusByte] false))

/-- SMBCLK has stayed low for more than 30 ms: the interface is reset, TIMEOUT is set, and a record is
logged. -/
def State.smbTimeout (s : State) : State :=
  let s1 : State := { s with mgt := { s.mgt with smbOff := 0 } }
  let v := s1.takeFree
  (v.2.setB fMgtSmbstatTimeout true).log
    ⟨16, 0x21, unitBus 128, false, false, v.1.toNat % 256, v.1.toNat / 256 % 2 ^ 32⟩

/-- SMBUS_TIMEOUT (R693). -/
def execSmbusTimeout (s : State) : Host.Outcome State Fault Refusal := .next (s.smbOn State.smbTimeout)

end Sys2Proof.Machine
end

