-- ==== Sys2Proof/Machine/StreamCmds.lean ====
section
/-! DEFINITION. The commands of the stream network and of the completion path (R274-R277,
R299-R301). -/

namespace Sys2Proof.Machine

open Sys2Proof

/-- Whether a word has left job slot A's staging by a route between two states. -/
def State.stagingSent (s t : State) (r : Nat) : Bool :=
  ((s.routeCfg .a r).map fun cf => epKind cf.src == 2).getD false
    && (s.route .a r).flight.length != (t.route .a r).flight.length

/-- ROUTE_WORD_SEND (R275, R277), with what a word that leaves frees in a collective (R552). -/
def execRouteWordSend (j : JobSlot) (route : Fin 4096) (o : Fin 16) (s : State) :
    Host.Outcome State Fault Refusal :=
  let t := s.routeSend j route.val o.val
  .next (if j = .a ∧ s.stagingSent t route.val then t.collSent route.val else t)

/-- ROUTE_WORD_ARRIVE (R275). -/
def execRouteWordArrive (j : JobSlot) (route : Fin 4096) (s : State) :
    Host.Outcome State Fault Refusal := .next (s.routeArrive j route.val)

/-- CREDIT_RETURN (R277). -/
def execCreditReturn (j : JobSlot) (route : Fin 4096) (s : State) :
    Host.Outcome State Fault Refusal := .next (s.creditArrive j route.val)

/-- SINK_WRITE (R274). -/
def execSinkWrite (c : Core) (k : Fin 4) (s : State) : Host.Outcome State Fault Refusal :=
  .next (s.sinkWrite c.val k.val)

/-- COLLECTOR_TAKE (R299). -/
def execCollectorTake (die : Die) (s : State) : Host.Outcome State Fault Refusal :=
  .next (s.collect die.val)

/-- COMPLETION_REPORT (R300). -/
def execCompletionReport (s : State) : Host.Outcome State Fault Refusal := .next s.reportCy

end Sys2Proof.Machine
end

