-- ==== Sys2Proof/Machine/StreamSlot.lean ====
section
/-! DEFINITION. The commands that issue a bundle whose stream slot holds the operation that
the command names; the bundle's other slots come with it (R179, R226). -/

namespace Sys2Proof.Machine

open Sys2Proof

/-- Pops one word from an incoming port into a vector register. (R261) -/
def execSrecv (c : Core) (f : FmtS) (rest : Others) (s : State) : Host.Outcome State Fault Refusal :=
  .next (s.issue c { Bundle.ofOthers rest with str := .srecv f })

/-- Pushes a vector register as one word to an outgoing port. (R261) -/
def execSsend (c : Core) (f : FmtS) (rest : Others) (s : State) : Host.Outcome State Fault Refusal :=
  .next (s.issue c { Bundle.ofOthers rest with str := .ssend f })

/-- Discards words from a port up to and including the next word marked LAST. (R261) -/
def execSdrop (c : Core) (f : FmtS) (rest : Others) (s : State) : Host.Outcome State Fault Refusal :=
  .next (s.issue c { Bundle.ofOthers rest with str := .sdrop f })

/-- Reads a port's waiting words or free places into a scalar register. (R261) -/
def execSlevel (c : Core) (f : FmtS) (rest : Others) (s : State) : Host.Outcome State Fault Refusal :=
  .next (s.issue c { Bundle.ofOthers rest with str := .slevel f })

/-- Stream-slot no operation. (R231) -/
def execSnop (c : Core) (f : FmtZ20) (rest : Others) (s : State) : Host.Outcome State Fault Refusal :=
  .next (s.issue c { Bundle.ofOthers rest with str := .snop f })

end Sys2Proof.Machine
end

