-- ==== Sys2Proof/Machine/VectorSlot.lean ====
section
/-! DEFINITION. The commands that issue a bundle whose vector slot holds the operation that
the command names; the bundle's other slots come with it (R179, R226). -/

namespace Sys2Proof.Machine

open Sys2Proof

/-- Lane-wise add. (R148) -/
def execVadd (c : Core) (f : FmtL) (rest : Others) (s : State) : Host.Outcome State Fault Refusal :=
  .next (s.issue c { Bundle.ofOthers rest with vec := .lane .vadd f })

/-- Lane-wise subtract. (R148) -/
def execVsub (c : Core) (f : FmtL) (rest : Others) (s : State) : Host.Outcome State Fault Refusal :=
  .next (s.issue c { Bundle.ofOthers rest with vec := .lane .vsub f })

/-- Lane-wise minimum. (R148) -/
def execVmin (c : Core) (f : FmtL) (rest : Others) (s : State) : Host.Outcome State Fault Refusal :=
  .next (s.issue c { Bundle.ofOthers rest with vec := .lane .vmin f })

/-- Lane-wise maximum. (R148) -/
def execVmax (c : Core) (f : FmtL) (rest : Others) (s : State) : Host.Outcome State Fault Refusal :=
  .next (s.issue c { Bundle.ofOthers rest with vec := .lane .vmax f })

/-- Lane-wise absolute value. (R148) -/
def execVabs (c : Core) (f : FmtL) (rest : Others) (s : State) : Host.Outcome State Fault Refusal :=
  .next (s.issue c { Bundle.ofOthers rest with vec := .lane .vabs f })

/-- Lane-wise negation. (R148) -/
def execVneg (c : Core) (f : FmtL) (rest : Others) (s : State) : Host.Outcome State Fault Refusal :=
  .next (s.issue c { Bundle.ofOthers rest with vec := .lane .vneg f })

/-- Lane-wise bitwise AND. (R148) -/
def execVand (c : Core) (f : FmtL) (rest : Others) (s : State) : Host.Outcome State Fault Refusal :=
  .next (s.issue c { Bundle.ofOthers rest with vec := .lane .vand f })

/-- Lane-wise bitwise OR. (R148) -/
def execVor (c : Core) (f : FmtL) (rest : Others) (s : State) : Host.Outcome State Fault Refusal :=
  .next (s.issue c { Bundle.ofOthers rest with vec := .lane .vor f })

/-- Lane-wise bitwise XOR. (R148) -/
def execVxor (c : Core) (f : FmtL) (rest : Others) (s : State) : Host.Outcome State Fault Refusal :=
  .next (s.issue c { Bundle.ofOthers rest with vec := .lane .vxor f })

/-- Lane-wise left shift. (R148) -/
def execVshl (c : Core) (f : FmtL) (rest : Others) (s : State) : Host.Outcome State Fault Refusal :=
  .next (s.issue c { Bundle.ofOthers rest with vec := .lane .vshl f })

/-- Lane-wise arithmetic right shift. (R148) -/
def execVshr (c : Core) (f : FmtL) (rest : Others) (s : State) : Host.Outcome State Fault Refusal :=
  .next (s.issue c { Bundle.ofOthers rest with vec := .lane .vshr f })

/-- Lane-wise rounding right shift. (R148) -/
def execVrshr (c : Core) (f : FmtL) (rest : Others) (s : State) : Host.Outcome State Fault Refusal :=
  .next (s.issue c { Bundle.ofOthers rest with vec := .lane .vrshr f })

/-- Lane-wise narrowing to width w. (R148) -/
def execVnarrow (c : Core) (f : FmtL) (rest : Others) (s : State) : Host.Outcome State Fault Refusal :=
  .next (s.issue c { Bundle.ofOthers rest with vec := .lane .vnarrow f })

/-- Lane-wise equality compare into a mask register. (R148) -/
def execVcmpEq (c : Core) (f : FmtL) (rest : Others) (s : State) : Host.Outcome State Fault Refusal :=
  .next (s.issue c { Bundle.ofOthers rest with vec := .lane .vcmpEq f })

/-- Lane-wise inequality compare into a mask register. (R148) -/
def execVcmpNe (c : Core) (f : FmtL) (rest : Others) (s : State) : Host.Outcome State Fault Refusal :=
  .next (s.issue c { Bundle.ofOthers rest with vec := .lane .vcmpNe f })

/-- Lane-wise less-than compare into a mask register. (R148) -/
def execVcmpLt (c : Core) (f : FmtL) (rest : Others) (s : State) : Host.Outcome State Fault Refusal :=
  .next (s.issue c { Bundle.ofOthers rest with vec := .lane .vcmpLt f })

/-- Lane-wise less-or-equal compare into a mask register. (R148) -/
def execVcmpLe (c : Core) (f : FmtL) (rest : Others) (s : State) : Host.Outcome State Fault Refusal :=
  .next (s.issue c { Bundle.ofOthers rest with vec := .lane .vcmpLe f })

/-- Lane-wise select by mask, writing every lane. (R148) -/
def execVsel (c : Core) (f : FmtL) (rest : Others) (s : State) : Host.Outcome State Fault Refusal :=
  .next (s.issue c { Bundle.ofOthers rest with vec := .lane .vsel f })

/-- Copies a vector register. (R148) -/
def execVmov (c : Core) (f : FmtL) (rest : Others) (s : State) : Host.Outcome State Fault Refusal :=
  .next (s.issue c { Bundle.ofOthers rest with vec := .lane .vmov f })

/-- Broadcasts a scalar register to every lane. (R148) -/
def execVbcast (c : Core) (f : FmtL) (rest : Others) (s : State) : Host.Outcome State Fault Refusal :=
  .next (s.issue c { Bundle.ofOthers rest with vec := .lane .vbcast f })

/-- Lane-wise multiply. (R148) -/
def execVmul (c : Core) (f : FmtL) (rest : Others) (s : State) : Host.Outcome State Fault Refusal :=
  .next (s.issue c { Bundle.ofOthers rest with vec := .lane .vmul f })

/-- Lane-wise multiply with rounding shift. (R148) -/
def execVmulr (c : Core) (f : FmtL) (rest : Others) (s : State) : Host.Outcome State Fault Refusal :=
  .next (s.issue c { Bundle.ofOthers rest with vec := .lane .vmulr f })

/-- Lane-wise multiply-accumulate with rounding shift. (R148) -/
def execVmac (c : Core) (f : FmtL) (rest : Others) (s : State) : Host.Outcome State Fault Refusal :=
  .next (s.issue c { Bundle.ofOthers rest with vec := .lane .vmac f })

/-- Lane-wise integer 2^x. (R160) -/
def execVexp2 (c : Core) (f : FmtL) (rest : Others) (s : State) : Host.Outcome State Fault Refusal :=
  .next (s.issue c { Bundle.ofOthers rest with vec := .lane .vexp2 f })

/-- Lane-wise integer e^x. (R160) -/
def execVexp (c : Core) (f : FmtL) (rest : Others) (s : State) : Host.Outcome State Fault Refusal :=
  .next (s.issue c { Bundle.ofOthers rest with vec := .lane .vexp f })

/-- Lane-wise integer log2. (R161) -/
def execVlog2 (c : Core) (f : FmtL) (rest : Others) (s : State) : Host.Outcome State Fault Refusal :=
  .next (s.issue c { Bundle.ofOthers rest with vec := .lane .vlog2 f })

/-- Lane-wise integer reciprocal. (R162) -/
def execVrcp (c : Core) (f : FmtL) (rest : Others) (s : State) : Host.Outcome State Fault Refusal :=
  .next (s.issue c { Bundle.ofOthers rest with vec := .lane .vrcp f })

/-- Lane-wise integer reciprocal square root. (R163) -/
def execVrsq (c : Core) (f : FmtL) (rest : Others) (s : State) : Host.Outcome State Fault Refusal :=
  .next (s.issue c { Bundle.ofOthers rest with vec := .lane .vrsq f })

/-- Loads one element per active lane from the operand cache. (R148) -/
def execVld (c : Core) (f : FmtVM) (rest : Others) (s : State) : Host.Outcome State Fault Refusal :=
  .next (s.issue c { Bundle.ofOthers rest with vec := .mem .vld f })

/-- Stores one element per active lane to the operand cache. (R148) -/
def execVst (c : Core) (f : FmtVM) (rest : Others) (s : State) : Host.Outcome State Fault Refusal :=
  .next (s.issue c { Bundle.ofOthers rest with vec := .mem .vst f })

/-- Gathers elements from the operand cache by an index vector. (R148) -/
def execVldx (c : Core) (f : FmtVM) (rest : Others) (s : State) : Host.Outcome State Fault Refusal :=
  .next (s.issue c { Bundle.ofOthers rest with vec := .mem .vldx f })

/-- Scatters elements to the operand cache by an index vector. (R146) -/
def execVstx (c : Core) (f : FmtVM) (rest : Others) (s : State) : Host.Outcome State Fault Refusal :=
  .next (s.issue c { Bundle.ofOthers rest with vec := .mem .vstx f })

/-- Moves 4 KiB blocks between the operand cache and the scratchpad through port F. (R254) -/
def execVxfr (c : Core) (f : FmtXfr) (rest : Others) (s : State) : Host.Outcome State Fault Refusal :=
  .next (s.issue c { Bundle.ofOthers rest with vec := .vxfr f })

/-- Combines wide tiles by MODE and quantises them into output tiles. (R153) -/
def execVtile (c : Core) (f : FmtVtile) (rest : Others) (s : State) : Host.Outcome State Fault Refusal :=
  .next (s.issue c { Bundle.ofOthers rest with vec := .vtile f })

/-- Sets a reduction accumulator's kind and starting state. (R165) -/
def execRclr (c : Core) (f : FmtRed) (rest : Others) (s : State) : Host.Outcome State Fault Refusal :=
  .next (s.issue c { Bundle.ofOthers rest with vec := .rclr f })

/-- Moves a word or the index of a reduction accumulator to a scalar register. (R168) -/
def execRget (c : Core) (f : FmtRed) (rest : Others) (s : State) : Host.Outcome State Fault Refusal :=
  .next (s.issue c { Bundle.ofOthers rest with vec := .rget f })

/-- Moves a normalised reduction value and its shift to two scalar registers. (R168) -/
def execRgetn (c : Core) (f : FmtRed) (rest : Others) (s : State) : Host.Outcome State Fault Refusal :=
  .next (s.issue c { Bundle.ofOthers rest with vec := .rgetn f })

/-- Vector-slot no operation. (R231) -/
def execVnop (c : Core) (f : FmtZ34) (rest : Others) (s : State) : Host.Outcome State Fault Refusal :=
  .next (s.issue c { Bundle.ofOthers rest with vec := .vnop f })

end Sys2Proof.Machine
end

