-- ==== Sys2Proof/Machine/Dispatch.lean ====
section
/-! DEFINITION. The dispatcher: one arm per command of the opcode table. -/

namespace Sys2Proof.Machine

open Sys2Proof

def exec (i : Instr) (s : State) : Host.Outcome State Fault Refusal :=
  match i with
  | .registerWrite r bar off size v => Sys2Proof.Machine.execRegisterWrite r bar off size v s
  | .loReadLatch r bar off size => Sys2Proof.Machine.execLoReadLatch r bar off size s
  | .sadd c f rest => Sys2Proof.Machine.execSadd c f rest s
  | .ssub c f rest => Sys2Proof.Machine.execSsub c f rest s
  | .sand c f rest => Sys2Proof.Machine.execSand c f rest s
  | .sor c f rest => Sys2Proof.Machine.execSor c f rest s
  | .sxor c f rest => Sys2Proof.Machine.execSxor c f rest s
  | .sshl c f rest => Sys2Proof.Machine.execSshl c f rest s
  | .sshr c f rest => Sys2Proof.Machine.execSshr c f rest s
  | .ssra c f rest => Sys2Proof.Machine.execSsra c f rest s
  | .smin c f rest => Sys2Proof.Machine.execSmin c f rest s
  | .smax c f rest => Sys2Proof.Machine.execSmax c f rest s
  | .sslt c f rest => Sys2Proof.Machine.execSslt c f rest s
  | .smul c f rest => Sys2Proof.Machine.execSmul c f rest s
  | .sli c f rest => Sys2Proof.Machine.execSli c f rest s
  | .slui c f rest => Sys2Proof.Machine.execSlui c f rest s
  | .sld c f rest => Sys2Proof.Machine.execSld c f rest s
  | .sst c f rest => Sys2Proof.Machine.execSst c f rest s
  | .smfs c f rest => Sys2Proof.Machine.execSmfs c f rest s
  | .mand c f rest => Sys2Proof.Machine.execMand c f rest s
  | .mor c f rest => Sys2Proof.Machine.execMor c f rest s
  | .mxor c f rest => Sys2Proof.Machine.execMxor c f rest s
  | .mandn c f rest => Sys2Proof.Machine.execMandn c f rest s
  | .mfill c f rest => Sys2Proof.Machine.execMfill c f rest s
  | .mpop c f rest => Sys2Proof.Machine.execMpop c f rest s
  | .branch c f rest => Sys2Proof.Machine.execBranch c f rest s
  | .beqz c f rest => Sys2Proof.Machine.execBeqz c f rest s
  | .bnez c f rest => Sys2Proof.Machine.execBnez c f rest s
  | .bltz c f rest => Sys2Proof.Machine.execBltz c f rest s
  | .bgez c f rest => Sys2Proof.Machine.execBgez c f rest s
  | .bmany c f rest => Sys2Proof.Machine.execBmany c f rest s
  | .bmnone c f rest => Sys2Proof.Machine.execBmnone c f rest s
  | .loop c f rest => Sys2Proof.Machine.execLoop c f rest s
  | .setmode c f rest => Sys2Proof.Machine.execSetmode c f rest s
  | .waitcal c f rest => Sys2Proof.Machine.execWaitcal c f rest s
  | .fence c f rest => Sys2Proof.Machine.execFence c f rest s
  | .done c f rest => Sys2Proof.Machine.execDone c f rest s
  | .brk c f rest => Sys2Proof.Machine.execBrk c f rest s
  | .cnop c f rest => Sys2Proof.Machine.execCnop c f rest s
  | .fenceComplete c => Sys2Proof.Machine.execFenceComplete c s
  | .asyncException c => Sys2Proof.Machine.execAsyncException c s
  | .preempt n => Sys2Proof.Machine.execPreempt n s
  | .contextSwitch c => Sys2Proof.Machine.execContextSwitch c s
  | .seqResume r c => Sys2Proof.Machine.execSeqResume r c s
  | .seqStep r c => Sys2Proof.Machine.execSeqStep r c s
  | .seqHalt r c => Sys2Proof.Machine.execSeqHalt r c s
  | .amac c f rest => Sys2Proof.Machine.execAmac c f rest s
  | .amacSlot c => Sys2Proof.Machine.execAmacSlot c s
  | .adrq c f rest => Sys2Proof.Machine.execAdrq c f rest s
  | .adrw c f rest => Sys2Proof.Machine.execAdrw c f rest s
  | .aldt c f rest => Sys2Proof.Machine.execAldt c f rest s
  | .astt c f rest => Sys2Proof.Machine.execAstt c f rest s
  | .anop c f rest => Sys2Proof.Machine.execAnop c f rest s
  | .drainStart c => Sys2Proof.Machine.execDrainStart c s
  | .arrClrcnt r c => Sys2Proof.Machine.execArrClrcnt r c s
  | .vadd c f rest => Sys2Proof.Machine.execVadd c f rest s
  | .vsub c f rest => Sys2Proof.Machine.execVsub c f rest s
  | .vmin c f rest => Sys2Proof.Machine.execVmin c f rest s
  | .vmax c f rest => Sys2Proof.Machine.execVmax c f rest s
  | .vabs c f rest => Sys2Proof.Machine.execVabs c f rest s
  | .vneg c f rest => Sys2Proof.Machine.execVneg c f rest s
  | .vand c f rest => Sys2Proof.Machine.execVand c f rest s
  | .vor c f rest => Sys2Proof.Machine.execVor c f rest s
  | .vxor c f rest => Sys2Proof.Machine.execVxor c f rest s
  | .vshl c f rest => Sys2Proof.Machine.execVshl c f rest s
  | .vshr c f rest => Sys2Proof.Machine.execVshr c f rest s
  | .vrshr c f rest => Sys2Proof.Machine.execVrshr c f rest s
  | .vnarrow c f rest => Sys2Proof.Machine.execVnarrow c f rest s
  | .vcmpEq c f rest => Sys2Proof.Machine.execVcmpEq c f rest s
  | .vcmpNe c f rest => Sys2Proof.Machine.execVcmpNe c f rest s
  | .vcmpLt c f rest => Sys2Proof.Machine.execVcmpLt c f rest s
  | .vcmpLe c f rest => Sys2Proof.Machine.execVcmpLe c f rest s
  | .vsel c f rest => Sys2Proof.Machine.execVsel c f rest s
  | .vmov c f rest => Sys2Proof.Machine.execVmov c f rest s
  | .vbcast c f rest => Sys2Proof.Machine.execVbcast c f rest s
  | .vmul c f rest => Sys2Proof.Machine.execVmul c f rest s
  | .vmulr c f rest => Sys2Proof.Machine.execVmulr c f rest s
  | .vmac c f rest => Sys2Proof.Machine.execVmac c f rest s
  | .vexp2 c f rest => Sys2Proof.Machine.execVexp2 c f rest s
  | .vexp c f rest => Sys2Proof.Machine.execVexp c f rest s
  | .vlog2 c f rest => Sys2Proof.Machine.execVlog2 c f rest s
  | .vrcp c f rest => Sys2Proof.Machine.execVrcp c f rest s
  | .vrsq c f rest => Sys2Proof.Machine.execVrsq c f rest s
  | .vld c f rest => Sys2Proof.Machine.execVld c f rest s
  | .vst c f rest => Sys2Proof.Machine.execVst c f rest s
  | .vldx c f rest => Sys2Proof.Machine.execVldx c f rest s
  | .vstx c f rest => Sys2Proof.Machine.execVstx c f rest s
  | .vxfr c f rest => Sys2Proof.Machine.execVxfr c f rest s
  | .vtile c f rest => Sys2Proof.Machine.execVtile c f rest s
  | .rclr c f rest => Sys2Proof.Machine.execRclr c f rest s
  | .rget c f rest => Sys2Proof.Machine.execRget c f rest s
  | .rgetn c f rest => Sys2Proof.Machine.execRgetn c f rest s
  | .vnop c f rest => Sys2Proof.Machine.execVnop c f rest s
  | .reductionFold c => Sys2Proof.Machine.execReductionFold c s
  | .vecClrcnt r c => Sys2Proof.Machine.execVecClrcnt r c s
  | .srecv c f rest => Sys2Proof.Machine.execSrecv c f rest s
  | .ssend c f rest => Sys2Proof.Machine.execSsend c f rest s
  | .sdrop c f rest => Sys2Proof.Machine.execSdrop c f rest s
  | .slevel c f rest => Sys2Proof.Machine.execSlevel c f rest s
  | .snop c f rest => Sys2Proof.Machine.execSnop c f rest s
  | .routeWordSend j route o => Sys2Proof.Machine.execRouteWordSend j route o s
  | .routeWordArrive j route => Sys2Proof.Machine.execRouteWordArrive j route s
  | .creditReturn j route => Sys2Proof.Machine.execCreditReturn j route s
  | .sinkWrite c k => Sys2Proof.Machine.execSinkWrite c k s
  | .muleDelivery t e => Sys2Proof.Machine.execMuleDelivery t e s
  | .collectorTake die => Sys2Proof.Machine.execCollectorTake die s
  | .completionReport => Sys2Proof.Machine.execCompletionReport s
  | .memorySlot d waiting => Sys2Proof.Machine.execMemorySlot d waiting s
  | .imgGo r v => Sys2Proof.Machine.execImgGo r v s
  | .imgAbort r v => Sys2Proof.Machine.execImgAbort r v s
  | .imgForce r v => Sys2Proof.Machine.execImgForce r v s
  | .imgDefault r v => Sys2Proof.Machine.execImgDefault r v s
  | .loadRead rd => Sys2Proof.Machine.execLoadRead rd s
  | .loadAuth => Sys2Proof.Machine.execLoadAuth s
  | .loadCheck => Sys2Proof.Machine.execLoadCheck s
  | .loadStage => Sys2Proof.Machine.execLoadStage s
  | .imageSwap => Sys2Proof.Machine.execImageSwap s
  | .coreSwitch c => Sys2Proof.Machine.execCoreSwitch c s
  | .defaultImageApply => Sys2Proof.Machine.execDefaultImageApply s
  | .bankCommandToken d ep => Sys2Proof.Machine.execBankCommandToken d ep s
  | .memHrtail r v => Sys2Proof.Machine.execMemHrtail r v s
  | .beFema d x n => Sys2Proof.Machine.execBeFema d x n s
  | .beOwnupd d x n => Sys2Proof.Machine.execBeOwnupd d x n s
  | .beUndo d x n => Sys2Proof.Machine.execBeUndo d x n s
  | .beXwrite d x n => Sys2Proof.Machine.execBeXwrite d x n s
  | .bePapply d x n => Sys2Proof.Machine.execBePapply d x n s
  | .beDigest d x n => Sys2Proof.Machine.execBeDigest d x n s
  | .beWread d x n => Sys2Proof.Machine.execBeWread d x n s
  | .beSnap d x n => Sys2Proof.Machine.execBeSnap d x n s
  | .bankCommandComplete d x => Sys2Proof.Machine.execBankCommandComplete d x s
  | .memClrcnt r v => Sys2Proof.Machine.execMemClrcnt r v s
  | .tableWalk b => Sys2Proof.Machine.execTableWalk b s
  | .xltInv r v => Sys2Proof.Machine.execXltInv r v s
  | .invalidationComplete => Sys2Proof.Machine.execInvalidationComplete s
  | .xltTimeout d ep => Sys2Proof.Machine.execXltTimeout d ep s
  | .xltClrcnt r v => Sys2Proof.Machine.execXltClrcnt r v s
  | .dmaTail r ch v => Sys2Proof.Machine.execDmaTail r ch v s
  | .dmaCopy ch => Sys2Proof.Machine.execDmaCopy ch s
  | .dmaFill ch => Sys2Proof.Machine.execDmaFill ch s
  | .importTiles ch => Sys2Proof.Machine.execImportTiles ch s
  | .exportTiles ch => Sys2Proof.Machine.execExportTiles ch s
  | .descriptorComplete ch => Sys2Proof.Machine.execDescriptorComplete ch s
  | .dmaResume r ch v => Sys2Proof.Machine.execDmaResume r ch v s
  | .dmaSkip r ch v => Sys2Proof.Machine.execDmaSkip r ch v s
  | .dmaClrcnt r v => Sys2Proof.Machine.execDmaClrcnt r v s
  | .calendarFiring n => Sys2Proof.Machine.execCalendarFiring n s
  | .marker => Sys2Proof.Machine.execMarker s
  | .frameBoundary => Sys2Proof.Machine.execFrameBoundary s
  | .frefLost => Sys2Proof.Machine.execFrefLost s
  | .fabPchip r v => Sys2Proof.Machine.execFabPchip r v s
  | .fabApply r v => Sys2Proof.Machine.execFabApply r v s
  | .portSignalDetect p => Sys2Proof.Machine.execPortSignalDetect p s
  | .portSignalLoss p => Sys2Proof.Machine.execPortSignalLoss p s
  | .frameTrain p f flight => Sys2Proof.Machine.execFrameTrain p f flight s
  | .bringupTimeout p => Sys2Proof.Machine.execBringupTimeout p s
  | .portRetry p => Sys2Proof.Machine.execPortRetry p s
  | .retrain r p v => Sys2Proof.Machine.execRetrain r p v s
  | .frameCompose p => Sys2Proof.Machine.execFrameCompose p s
  | .frameData p f delta => Sys2Proof.Machine.execFrameData p f delta s
  | .frameCons p f delta => Sys2Proof.Machine.execFrameCons p f delta s
  | .frameMaint p f delta => Sys2Proof.Machine.execFrameMaint p f delta s
  | .frameIdle p f delta => Sys2Proof.Machine.execFrameIdle p f delta s
  | .frameUnknownType p f delta => Sys2Proof.Machine.execFrameUnknownType p f delta s
  | .framePlacement p => Sys2Proof.Machine.execFramePlacement p s
  | .synthRelock p => Sys2Proof.Machine.execSynthRelock p s
  | .laserLow p => Sys2Proof.Machine.execLaserLow p s
  | .remreqRead p => Sys2Proof.Machine.execRemreqRead p s
  | .remreqWrite p => Sys2Proof.Machine.execRemreqWrite p s
  | .remreqFence p => Sys2Proof.Machine.execRemreqFence p s
  | .fenceAnswer => Sys2Proof.Machine.execFenceAnswer s
  | .remrsp p => Sys2Proof.Machine.execRemrsp p s
  | .remoteTimeout tag => Sys2Proof.Machine.execRemoteTimeout tag s
  | .collectiveWordOp u => Sys2Proof.Machine.execCollectiveWordOp u s
  | .muleDescriptor t => Sys2Proof.Machine.execMuleDescriptor t s
  | .muleToken chan => Sys2Proof.Machine.execMuleToken chan s
  | .muleReturn t => Sys2Proof.Machine.execMuleReturn t s
  | .muleCombine t => Sys2Proof.Machine.execMuleCombine t s
  | .hrdClrcnt r v => Sys2Proof.Machine.execHrdClrcnt r v s
  | .mulClrcnt r v => Sys2Proof.Machine.execMulClrcnt r v s
  | .cadenceSet g period step => Sys2Proof.Machine.execCadenceSet g period step s
  | .batchSteerRequest count step => Sys2Proof.Machine.execBatchSteerRequest count step s
  | .bwtArm r v => Sys2Proof.Machine.execBwtArm r v s
  | .bwtDisarm r v => Sys2Proof.Machine.execBwtDisarm r v s
  | .bwtHaltreq r v => Sys2Proof.Machine.execBwtHaltreq r v s
  | .bwtClrcnt r v => Sys2Proof.Machine.execBwtClrcnt r v s
  | .consensusSend => Sys2Proof.Machine.execConsensusSend s
  | .consensusRecv => Sys2Proof.Machine.execConsensusRecv s
  | .consensusCopy => Sys2Proof.Machine.execConsensusCopy s
  | .consensusDecide => Sys2Proof.Machine.execConsensusDecide s
  | .bwtResolve r v => Sys2Proof.Machine.execBwtResolve r v s
  | .savReq r v => Sys2Proof.Machine.execSavReq r v s
  | .clutchGrant => Sys2Proof.Machine.execClutchGrant s
  | .savAbort r v => Sys2Proof.Machine.execSavAbort r v s
  | .savRestore r v => Sys2Proof.Machine.execSavRestore r v s
  | .savClrcnt r v => Sys2Proof.Machine.execSavClrcnt r v s
  | .pieceRead idx => Sys2Proof.Machine.execPieceRead idx s
  | .recordCapture => Sys2Proof.Machine.execRecordCapture s
  | .clutchSeal => Sys2Proof.Machine.execClutchSeal s
  | .driveReset r n v => Sys2Proof.Machine.execDriveReset r n v s
  | .nvmeCompletion n e => Sys2Proof.Machine.execNvmeCompletion n e s
  | .nvmeTimeout n cid => Sys2Proof.Machine.execNvmeTimeout n cid s
  | .driveLinkDown n => Sys2Proof.Machine.execDriveLinkDown n s
  | .driveMemoryRequest n addr len => Sys2Proof.Machine.execDriveMemoryRequest n addr len s
  | .holdupSample mv => Sys2Proof.Machine.execHoldupSample mv s
  | .gstale => Sys2Proof.Machine.execGstale s
  | .oppointStage ph m => Sys2Proof.Machine.execOppointStage ph m s
  | .pllLock die => Sys2Proof.Machine.execPllLock die s
  | .voltageHold q mv => Sys2Proof.Machine.execVoltageHold q mv s
  | .currentEvaluation iavg => Sys2Proof.Machine.execCurrentEvaluation iavg s
  | .fastCurrent rail cur => Sys2Proof.Machine.execFastCurrent rail cur s
  | .ceilingSample e => Sys2Proof.Machine.execCeilingSample e s
  | .temperatureRead temps => Sys2Proof.Machine.execTemperatureRead temps s
  | .optEnable q => Sys2Proof.Machine.execOptEnable q s
  | .optDisable q => Sys2Proof.Machine.execOptDisable q s
  | .rampComplete q => Sys2Proof.Machine.execRampComplete q s
  | .rampshort q => Sys2Proof.Machine.execRampshort q s
  | .overcurrent q => Sys2Proof.Machine.execOvercurrent q s
  | .undervolt q => Sys2Proof.Machine.execUndervolt q s
  | .blockedEnd q => Sys2Proof.Machine.execBlockedEnd q s
  | .pwrClrcnt r v => Sys2Proof.Machine.execPwrClrcnt r v s
  | .mbxPost fn v => Sys2Proof.Machine.execMbxPost fn v s
  | .mbxVersion fn => Sys2Proof.Machine.execMbxVersion fn s
  | .mbxFwLoad fn auto => Sys2Proof.Machine.execMbxFwLoad fn auto s
  | .mbxCeiling fn clearRstart refuse => Sys2Proof.Machine.execMbxCeiling fn clearRstart refuse s
  | .mbxOptPower fn refuse => Sys2Proof.Machine.execMbxOptPower fn refuse s
  | .mbxKeyProg fn => Sys2Proof.Machine.execMbxKeyProg fn s
  | .mbxKeyRevoke fn => Sys2Proof.Machine.execMbxKeyRevoke fn s
  | .mbxSlotbGrant fn => Sys2Proof.Machine.execMbxSlotbGrant fn s
  | .mbxSlotbLoad fn => Sys2Proof.Machine.execMbxSlotbLoad fn s
  | .mbxCoreResume fn refuse => Sys2Proof.Machine.execMbxCoreResume fn refuse s
  | .mbxWinRefill fn refuse => Sys2Proof.Machine.execMbxWinRefill fn refuse s
  | .mbxI2cXfer fn refuse => Sys2Proof.Machine.execMbxI2cXfer fn refuse s
  | .mailboxTimeout fn => Sys2Proof.Machine.execMailboxTimeout fn s
  | .dbell fn n v dw0 => Sys2Proof.Machine.execDbell fn n v dw0 s
  | .dbellhr fn v => Sys2Proof.Machine.execDbellhr fn v s
  | .cringEnable fn v => Sys2Proof.Machine.execCringEnable fn v s
  | .msixUnmask fn vec => Sys2Proof.Machine.execMsixUnmask fn vec s
  | .smbSetaddr count data pec => Sys2Proof.Machine.execSmbSetaddr count data pec s
  | .smbRead pec => Sys2Proof.Machine.execSmbRead pec s
  | .smbWrite count data pec => Sys2Proof.Machine.execSmbWrite count data pec s
  | .smbStatus => Sys2Proof.Machine.execSmbStatus s
  | .smbusTimeout => Sys2Proof.Machine.execSmbusTimeout s
  | .i2cTransaction => Sys2Proof.Machine.execI2cTransaction s
  | .i2cTransactionEnd ack data => Sys2Proof.Machine.execI2cTransactionEnd ack data s
  | .i2cStretchTimeout sdaLow => Sys2Proof.Machine.execI2cStretchTimeout sdaLow s
  | .busClearAttempt pulses => Sys2Proof.Machine.execBusClearAttempt pulses s
  | .i2cReset r v sdaLow => Sys2Proof.Machine.execI2cReset r v sdaLow s
  | .i2cClear r v => Sys2Proof.Machine.execI2cClear r v s
  | .tapExtest => Sys2Proof.Machine.execTapExtest s
  | .tapSample => Sys2Proof.Machine.execTapSample s
  | .tapIdcode => Sys2Proof.Machine.execTapIdcode s
  | .tapClamp => Sys2Proof.Machine.execTapClamp s
  | .tapHighz => Sys2Proof.Machine.execTapHighz s
  | .tapExtestPulse => Sys2Proof.Machine.execTapExtestPulse s
  | .tapExtestTrain => Sys2Proof.Machine.execTapExtestTrain s
  | .tapBypass code => Sys2Proof.Machine.execTapBypass code s
  | .tapTestLogicReset => Sys2Proof.Machine.execTapTestLogicReset s
  | .pwrokRise straps fref => Sys2Proof.Machine.execPwrokRise straps fref s
  | .pwrokFall => Sys2Proof.Machine.execPwrokFall s
  | .supplySag => Sys2Proof.Machine.execSupplySag s
  | .warmReset r v => Sys2Proof.Machine.execWarmReset r v s
  | .firmwareReset r v => Sys2Proof.Machine.execFirmwareReset r v s
  | .perst => Sys2Proof.Machine.execPerst s
  | .flr fn => Sys2Proof.Machine.execFlr fn s
  | .bar2Read fn addr len dw0 => Sys2Proof.Machine.execBar2Read fn addr len dw0 s
  | .bar2Write fn addr data poisoned dw0 => Sys2Proof.Machine.execBar2Write fn addr data poisoned dw0 s
  | .malformed fn addr dw0 => Sys2Proof.Machine.execMalformed fn addr dw0 s
  | .unexpcpl fn tag dw0 => Sys2Proof.Machine.execUnexpcpl fn tag dw0 s
  | .hostCompletion tag ok data => Sys2Proof.Machine.execHostCompletion tag ok data s
  | .cpltimeout tag => Sys2Proof.Machine.execCpltimeout tag s
  | .cstormWindow => Sys2Proof.Machine.execCstormWindow s
  | .errClrcnt r v => Sys2Proof.Machine.execErrClrcnt r v s
  | .errClrlog r v => Sys2Proof.Machine.execErrClrlog r v s
  | .errSdreq r v => Sys2Proof.Machine.execErrSdreq r v s
  | .sdMarch => Sys2Proof.Machine.execSdMarch s
  | .sdAbist => Sys2Proof.Machine.execSdAbist s
  | .sdRow => Sys2Proof.Machine.execSdRow s
  | .sdEbist => Sys2Proof.Machine.execSdEbist s
  | .sdPrbs => Sys2Proof.Machine.execSdPrbs s
  | .sheepdogTestEnd errors bits => Sys2Proof.Machine.execSheepdogTestEnd errors bits s
  | .sdDeferred => Sys2Proof.Machine.execSdDeferred s
  | .fcyComplete die => Sys2Proof.Machine.execFcyComplete die s
  | .vokRise q mv => Sys2Proof.Machine.execVokRise q mv s
  | .synthSettled p => Sys2Proof.Machine.execSynthSettled p s
  | .clockRecoveryLock p => Sys2Proof.Machine.execClockRecoveryLock p s
  | .codewordLock p => Sys2Proof.Machine.execCodewordLock p s
  | .perstDeassert => Sys2Proof.Machine.execPerstDeassert s
  | .supplyInRange => Sys2Proof.Machine.execSupplyInRange s
  | .frefRunning => Sys2Proof.Machine.execFrefRunning s
  | .vauxValid => Sys2Proof.Machine.execVauxValid s
  | .jusiaFaultDecision d ep => Sys2Proof.Machine.execJusiaFaultDecision d ep s
  | .winMarkMissing j w page => Sys2Proof.Machine.execWinMarkMissing j w page s

end Sys2Proof.Machine
end

