-- ==== Sys2Proof/Safety.lean ====
section
/-! DEFINITION. What a safe run is: a state whose next step is neither a fault nor a
refusal, and runs of such steps. -/

namespace Sys2Proof

open Machine

/-- The next step of a state stops the machine. -/
def Safety.Stops (s : State) : Prop :=
  (∃ f, step s = .fault f) ∨ (∃ r, step s = .refused r)

/-- `n` steps from `s` lead to `t`, each a next state. -/
def Safety.Run : Nat → State → State → Prop
  | 0, s, t => s = t
  | n + 1, s, t => ∃ u, step s = .next u ∧ Safety.Run n u t

/-- A state from which no run of any length stops the machine. -/
def Safety.Safe (s : State) : Prop := ∀ n t, Safety.Run n s t → ¬ Safety.Stops t

end Sys2Proof
end

