-- ==== Sys2Proof/WellFormed.lean ====
section
/-! DEFINITION. Which commands are well formed: the lists that a command carries have the
lengths that the spec gives them, and its codes are ones that its row covers. -/

namespace Sys2Proof

/-- The TAP instruction codes of R700; every other code is BYPASS. -/
def Instr.tapCodeOfBypass (c : BitVec 8) : Bool := 7 ≤ c.toNat

/-- A command is well formed. A register access of BAR4 lies in its 64 KiB (R675), a bank
current reading has the 17 rails of R653, a temperature reading the 20 sensors of R661, a
BYPASS command a code that R700 gives no other instruction, a BAR2 access at least 1 byte and none
across a 4 KiB boundary, as PCIe requires. -/
def Instr.wf : Instr → Bool
  | .registerWrite _ .bar4 off _ _ => off.toNat < 65536
  | .loReadLatch _ .bar4 off _ => off.toNat < 65536
  | .currentEvaluation iavg => iavg.length == 17
  | .temperatureRead temps => temps.length == 20
  | .tapBypass c => Instr.tapCodeOfBypass c
  | .bar2Read _ addr len _ => 1 ≤ len.toNat && addr.toNat % 4096 + len.toNat ≤ 4096
  | .bar2Write _ addr data _ _ => 1 ≤ data.length && addr.toNat % 4096 + data.length ≤ 4096
  | .busClearAttempt pulses => pulses.val ≤ 9
  | .fastCurrent _ _ => true
  | _ => true

end Sys2Proof
end

