-- ==== Sys2Proof/Certificates/Slice0/Obligations.lean ====
section
/-! DEFINITION. The statements for the provers, chapter by chapter of the spec, and the few
definitions that they share. -/

open Sys2Proof Sys2Proof.Machine

namespace Sys2Proof.Claims

/-! ### Frames -/

/-- `t` differs from `s` in nothing but control registers, and in those only at the listed
addresses. -/
def OnlyRegs (l : List Nat) (s t : State) : Prop :=
  (∀ o, o ∉ l → t.rd o = s.rd o) ∧ t = { s with reg := t.reg }

/-- `t` differs from `s` in nothing but the record of core `c`. -/
def OnlyCore (c : Nat) (s t : State) : Prop :=
  (∀ d, d ≠ c → t.core d = s.core d) ∧ t = { s with cores := t.cores }

/-- The memories and the units that a command of another part of the device leaves alone: device
memory, staging, the cores, the stacks' bank engines, the routes, and the queue of commands. -/
def SameStores (s t : State) : Prop :=
  t.mem = s.mem ∧ t.memEcc = s.memEcc ∧ t.staging = s.staging ∧ t.cores = s.cores
    ∧ t.stks = s.stks ∧ t.routes = s.routes ∧ t.pending = s.pending

/-- The four tables of words and bytes are in canonical form: their keys rise strictly, and no entry
equals what an unlisted key reads as, so that equal contents are equal data. -/
def Canonical (s : State) : Prop :=
  Tab.wf regReset s.reg = true ∧ Tab.wf bar4Reset s.bar4 = true
    ∧ Memory.wf s.mem = true ∧ Tab.wf (fun _ => (0 : Byte)) s.staging = true

/-! ### The bundle that a core-operation command issues (R226) -/

/-- The bundle whose control slot holds `o`, its other slots as the command carries them. -/
def withCtl (rest : Others) (o : CtlOp) : Bundle := { Bundle.ofOthers rest with ctl := o }
/-- The same for the array slot. -/
def withArr (rest : Others) (o : ArrOp) : Bundle := { Bundle.ofOthers rest with arr := o }
/-- The same for the vector slot. -/
def withVec (rest : Others) (o : VecOp) : Bundle := { Bundle.ofOthers rest with vec := o }
/-- The same for the stream slot. -/
def withStr (rest : Others) (o : StrOp) : Bundle := { Bundle.ofOthers rest with str := o }

/-- The core and the bundle of each command that issues one. -/
def bundleOf : Instr → Option (Core × Bundle)
  | .sadd c f r => some (c, withCtl r (.alu .sadd f))
  | .ssub c f r => some (c, withCtl r (.alu .ssub f))
  | .sand c f r => some (c, withCtl r (.alu .sand f))
  | .sor c f r => some (c, withCtl r (.alu .sor f))
  | .sxor c f r => some (c, withCtl r (.alu .sxor f))
  | .sshl c f r => some (c, withCtl r (.alu .sshl f))
  | .sshr c f r => some (c, withCtl r (.alu .sshr f))
  | .ssra c f r => some (c, withCtl r (.alu .ssra f))
  | .smin c f r => some (c, withCtl r (.alu .smin f))
  | .smax c f r => some (c, withCtl r (.alu .smax f))
  | .sslt c f r => some (c, withCtl r (.alu .sslt f))
  | .smul c f r => some (c, withCtl r (.alu .smul f))
  | .sli c f r => some (c, withCtl r (.sli f))
  | .slui c f r => some (c, withCtl r (.slui f))
  | .sld c f r => some (c, withCtl r (.sld f))
  | .sst c f r => some (c, withCtl r (.sst f))
  | .smfs c f r => some (c, withCtl r (.smfs f))
  | .mand c f r => some (c, withCtl r (.mask .mand f))
  | .mor c f r => some (c, withCtl r (.mask .mor f))
  | .mxor c f r => some (c, withCtl r (.mask .mxor f))
  | .mandn c f r => some (c, withCtl r (.mask .mandn f))
  | .mfill c f r => some (c, withCtl r (.mfill f))
  | .mpop c f r => some (c, withCtl r (.mpop f))
  | .branch c f r => some (c, withCtl r (.br .always f))
  | .beqz c f r => some (c, withCtl r (.br .eqz f))
  | .bnez c f r => some (c, withCtl r (.br .nez f))
  | .bltz c f r => some (c, withCtl r (.br .ltz f))
  | .bgez c f r => some (c, withCtl r (.br .gez f))
  | .bmany c f r => some (c, withCtl r (.bmany f))
  | .bmnone c f r => some (c, withCtl r (.bmnone f))
  | .loop c f r => some (c, withCtl r (.loop f))
  | .setmode c f r => some (c, withCtl r (.setmode f))
  | .waitcal c f r => some (c, withCtl r (.waitcal f))
  | .fence c f r => some (c, withCtl r (.fence f))
  | .done c f r => some (c, withCtl r (.done f))
  | .brk c f r => some (c, withCtl r (.brk f))
  | .cnop c f r => some (c, withCtl r (.cnop f))
  | .amac c f r => some (c, withArr r (.amac f))
  | .adrq c f r => some (c, withArr r (.adrq f))
  | .adrw c f r => some (c, withArr r (.adrw f))
  | .aldt c f r => some (c, withArr r (.aldt f))
  | .astt c f r => some (c, withArr r (.astt f))
  | .anop c f r => some (c, withArr r (.anop f))
  | .vadd c f r => some (c, withVec r (.lane .vadd f))
  | .vsub c f r => some (c, withVec r (.lane .vsub f))
  | .vmin c f r => some (c, withVec r (.lane .vmin f))
  | .vmax c f r => some (c, withVec r (.lane .vmax f))
  | .vabs c f r => some (c, withVec r (.lane .vabs f))
  | .vneg c f r => some (c, withVec r (.lane .vneg f))
  | .vand c f r => some (c, withVec r (.lane .vand f))
  | .vor c f r => some (c, withVec r (.lane .vor f))
  | .vxor c f r => some (c, withVec r (.lane .vxor f))
  | .vshl c f r => some (c, withVec r (.lane .vshl f))
  | .vshr c f r => some (c, withVec r (.lane .vshr f))
  | .vrshr c f r => some (c, withVec r (.lane .vrshr f))
  | .vnarrow c f r => some (c, withVec r (.lane .vnarrow f))
  | .vcmpEq c f r => some (c, withVec r (.lane .vcmpEq f))
  | .vcmpNe c f r => some (c, withVec r (.lane .vcmpNe f))
  | .vcmpLt c f r => some (c, withVec r (.lane .vcmpLt f))
  | .vcmpLe c f r => some (c, withVec r (.lane .vcmpLe f))
  | .vsel c f r => some (c, withVec r (.lane .vsel f))
  | .vmov c f r => some (c, withVec r (.lane .vmov f))
  | .vbcast c f r => some (c, withVec r (.lane .vbcast f))
  | .vmul c f r => some (c, withVec r (.lane .vmul f))
  | .vmulr c f r => some (c, withVec r (.lane .vmulr f))
  | .vmac c f r => some (c, withVec r (.lane .vmac f))
  | .vexp2 c f r => some (c, withVec r (.lane .vexp2 f))
  | .vexp c f r => some (c, withVec r (.lane .vexp f))
  | .vlog2 c f r => some (c, withVec r (.lane .vlog2 f))
  | .vrcp c f r => some (c, withVec r (.lane .vrcp f))
  | .vrsq c f r => some (c, withVec r (.lane .vrsq f))
  | .vld c f r => some (c, withVec r (.mem .vld f))
  | .vst c f r => some (c, withVec r (.mem .vst f))
  | .vldx c f r => some (c, withVec r (.mem .vldx f))
  | .vstx c f r => some (c, withVec r (.mem .vstx f))
  | .vxfr c f r => some (c, withVec r (.vxfr f))
  | .vtile c f r => some (c, withVec r (.vtile f))
  | .rclr c f r => some (c, withVec r (.rclr f))
  | .rget c f r => some (c, withVec r (.rget f))
  | .rgetn c f r => some (c, withVec r (.rgetn f))
  | .vnop c f r => some (c, withVec r (.vnop f))
  | .srecv c f r => some (c, withStr r (.srecv f))
  | .ssend c f r => some (c, withStr r (.ssend f))
  | .sdrop c f r => some (c, withStr r (.sdrop f))
  | .slevel c f r => some (c, withStr r (.slevel f))
  | .snop c f r => some (c, withStr r (.snop f))
  | _ => none

/-- The core has a program and runs: it is not stopped, not switching contexts, not without a job
context (R205, R213, R224, R727). -/
def Runs (s : State) (c : Nat) : Prop :=
  (s.core c).stopped = false ∧ (s.core c).switching = false ∧ (s.core c).bare = false
    ∧ (s.core c).cfg.isSome = true

/-- A bundle issues (R179-R183, R190, R203, R205-R209, R222): the core runs, no exception is pending
and no breakpoint matches, no codeword that the bundle needs is uncorrectable, nothing holds it, and
no slot of it raises ILLEGAL or PROT. -/
def Issues (s : State) (c : Nat) (b : Bundle) : Prop :=
  Runs s c ∧ (s.core c).pend = PendExc.none ∧ s.bkptHit c = false ∧ s.excEcc c b = none
    ∧ (s.core c).holds b = [] ∧ s.illegalAt c b = none ∧ s.protAt c b = none

/-- The registers that a bundle's slots write (R235). -/
def written (b : Bundle) : List RegName := b.ctl.writes ++ b.vec.writes ++ b.str.writes

end Sys2Proof.Claims

open Sys2Proof.Claims

/-! ### The block: one command a step -/

/-- Each step of the device takes the waiting command at the front and does what that command does,
with the rest of the queue left waiting (95: each step whole and indivisible). -/
def Obligations.StepRunsFrontCommand : Prop :=
  ∀ (s : State) (c : Instr) (rest : List Instr), s.pending = c :: rest →
    step s = exec c { s with pending := rest }

/-- With no command waiting, a step lets one tick of fabric time pass where fabric time counts, and changes
nothing where it does not: the counts of held tk apart, it changes no register but PWR_VQ, where VREQ falls
one tk after a change to a lower multiplier (R651). The model's choice (log entry 8). -/
def Obligations.IdleStepPassesOneTick : Prop :=
  ∀ s : State, s.pending = [] →
    ∃ t, step s = .next t
      ∧ (s.counts = true → t.fab.time = s.fab.time + 1)
      ∧ (s.counts = false → t = s)
      ∧ (∀ o, o ≠ rPwrHeldw → o ≠ rPwrHelde → (∀ q : Fin 8, o ≠ rPwrVq q) → t.rd o = s.rd o)
      ∧ (s.pwr.vfall = none → ∀ q : Fin 8, t.rd (rPwrVq q) = s.rd (rPwrVq q))
      ∧ (∀ m, s.counts = true → s.pwr.vfall = some m → t.pwr.vfall = none
        ∧ ∀ q : Fin 8, t.getF (fPwrVqVreq q) = s.vtabOf m)
      ∧ SameStores s t ∧ t.out = s.out

/-- After a cold reset every register holds its value of the register index, with the fused bits of
R4, R23, R348, R672 and R711 loaded; job slot A holds the default image, with no program in any core,
job slot B none; fabric time and every queue are cleared (R345, R705, R741). The values of the fuses,
of device memory and of the scalar, mask and vector registers are the model's choices (log entries
2 and 3). -/
def Obligations.ColdResetLeavesIndexValues : Prop :=
  (∀ o, o ∉ (fuseWords Config.fuses).map (·.1) → State.reset.rd o = regReset o)
    ∧ (∀ (fn : Func) o, State.reset.rd4 fn o = bar4Reset o)
    ∧ State.reset.imgA = none ∧ State.reset.imgB = none
    ∧ (∀ c, State.reset.core c = CoreSt.reset ∧ (State.reset.core c).cfg = none
        ∧ (State.reset.core c).stopped = false ∧ (State.reset.core c).pc = 0)
    ∧ State.reset.fab.time = 0 ∧ State.reset.pending = [] ∧ State.reset.mem = []
    ∧ (∀ p, State.reset.port p = FabPort.reset)
    ∧ State.reset.getF fBwtStatusState = 0 ∧ Canonical State.reset

/-! ### Bundles: encoding, and what every issue leaves alone -/

/-- A bundle's word decodes to the bundle that was encoded, for every operation in every slot with
every operand at every value (R226, R237, R240, R242-R245, R249-R261): no operand bit is dropped. -/
def Obligations.BundleWordRoundTrips : Prop :=
  ∀ b : Bundle, b.ctl.undefd = false → b.arr.undefd = false → b.vec.undefd = false →
    b.str.undefd = false → Bundle.decode b.encode = b

/-- Every 128-bit word is the encoding of the bundle that it decodes to: an undefined slot keeps its
bits, and no word has two meanings (R226-R228). -/
def Obligations.EveryBundleWordIsEncoded : Prop :=
  ∀ w : BitVec 128, (Bundle.decode w).encode = w

/-- What a bundle that issues leaves as it was, whichever command issues it: the registers that no slot of it
writes, every other core, device memory and staging, the images, the queue of commands; the scratchpad
unless it holds an SST or a VXFR, the operand cache unless it stores there. Where the rules leave a point
open it states the model's choice (log entry 15). -/
def Obligations.IssueLeavesTheRestAlone : Prop :=
  ∀ (i : Instr) (s : State) (c : Core) (b : Bundle), bundleOf i = some (c, b) → Issues s c b →
    ∃ t, exec i s = .next t
      ∧ (∀ n, RegName.s n ∉ written b → (t.core c).sreg n = (s.core c).sreg n)
      ∧ (∀ n, RegName.m n ∉ written b → (t.core c).mreg n = (s.core c).mreg n)
      ∧ (∀ n, RegName.v n ∉ written b → (t.core c).vreg n = (s.core c).vreg n)
      ∧ (∀ d, d ≠ c.val → t.core d = s.core d)
      ∧ ((∀ f, b.ctl ≠ .sst f) → (∀ f, b.vec ≠ .vxfr f) → (t.core c).spad = (s.core c).spad)
      ∧ ((∀ f, b.vec ≠ .mem .vst f) → (∀ f, b.vec ≠ .mem .vstx f) → (∀ f, b.vec ≠ .vxfr f) →
          (∀ f, b.vec ≠ .vtile f) → (t.core c).ocache = (s.core c).ocache)
      ∧ t.mem = s.mem ∧ t.memEcc = s.memEcc ∧ t.staging = s.staging ∧ t.stks = s.stks
      ∧ t.imgA = s.imgA ∧ t.imgB = s.imgB ∧ t.fab = s.fab ∧ t.pending = s.pending

/-! ### The control slot -/

/-- What R187 says of a scalar operation's result, on integers. -/
def Sys2Proof.Claims.AluSays (o : AluOp) (a b v : W32) : Prop :=
  match o with
  | .sadd => v.toNat = (a.toNat + b.toNat) % 2 ^ 32
  | .ssub => v.toNat = (a.toNat + 2 ^ 32 - b.toNat) % 2 ^ 32
  | .sand => ∀ i, v.getLsbD i = (a.getLsbD i && b.getLsbD i)
  | .sor => ∀ i, v.getLsbD i = (a.getLsbD i || b.getLsbD i)
  | .sxor => ∀ i, v.getLsbD i = xor (a.getLsbD i) (b.getLsbD i)
  | .sshl => v.toNat = a.toNat * 2 ^ (b.toNat % 32) % 2 ^ 32
  | .sshr => v.toNat = a.toNat / 2 ^ (b.toNat % 32)
  | .ssra => v.toInt = a.toInt / 2 ^ (b.toNat % 32)
  | .smin => v.toInt = min a.toInt b.toInt
  | .smax => v.toInt = max a.toInt b.toInt
  | .sslt => v.toInt = if a.toInt < b.toInt then 1 else 0
  | .smul => v.toNat = a.toNat * b.toNat % 2 ^ 32

/-- The scalar and mask results (R138, R148, R181, R184, R187, R189), whatever the other slots of the bundle
do, with the source registers read before any write of the bundle and S0 reading as 0, a write of it
ignored: SADD, SSUB, SAND, SOR, SXOR, SSHL, SSHR, SSRA, SMIN, SMAX, SSLT, SMUL; SLI and SLUI; SMFS; MPOP;
and, with M0 reading as all ones, MAND, MOR, MXOR, MANDN and MFILL in the control slot and the four
compares in the vector slot, whose inactive lanes write 0. -/
def Obligations.ScalarAndMaskResultsFollowTables : Prop :=
  (∀ (i : Instr) (s : State) (c : Core) (b : Bundle), bundleOf i = some (c, b) → Issues s c b →
    ∃ t, exec i s = .next t ∧ (t.core c).sreg 0 = 0
      ∧ (∀ o f, b.ctl = .alu o f → f.d ≠ 0 →
          AluSays o ((s.core c).sreg f.a)
            (if f.i = 0 then (s.core c).sreg (f.low.extractLsb' 2 5) else f.low.signExtend 32)
            ((t.core c).sreg f.d))
      ∧ (∀ f, b.ctl = .sli f → f.d ≠ 0 → ((t.core c).sreg f.d).toInt = f.imm.toInt)
      ∧ (∀ f, b.ctl = .slui f → f.d ≠ 0 →
          ((t.core c).sreg f.d).toNat = ((s.core c).sreg f.d).toNat % 2 ^ 16 + 2 ^ 16 * f.imm.toNat)
      ∧ (∀ f, b.ctl = .mpop f → f.d ≠ 0 →
          ((t.core c).sreg f.d).toNat
            = (List.range 64).countP fun l => ((s.core c).mreg f.ma).getLsbD l)
      ∧ (∀ f, b.ctl = .smfs f → f.d ≠ 0 →
          (f.sel = 0 → ((t.core c).sreg f.d).toNat = c.val)
          ∧ (f.sel = 1 → (s.core c).slot = .a → ((t.core c).sreg f.d).toNat = s.stepA.toNat % 2 ^ 32)
          ∧ (f.sel = 2 → ((t.core c).sreg f.d).toNat = if (s.core c).slot = .a then 0 else 1)
          ∧ (3 ≤ f.sel.toNat → ((t.core c).sreg f.d).toNat =
              let l := (s.core c).loop (f.sel.toNat - 3)
              if l.act then l.lc.toNat else 0)))
  ∧ (∀ (i : Instr) (s : State) (c : Core) (b : Bundle), bundleOf i = some (c, b) → Issues s c b →
    ∃ t, exec i s = .next t ∧ (t.core c).mreg 0 = BitVec.allOnes 64
      ∧ (∀ o f, b.ctl = .mask o f → f.md ≠ 0 → ∀ l < 64,
          ((t.core c).mreg f.md).getLsbD l =
            let p := ((s.core c).mreg f.ma).getLsbD l
            let q := ((s.core c).mreg f.mb).getLsbD l
            match o with
            | .mand => p && q
            | .mor => p || q
            | .mxor => xor p q
            | .mandn => p && !q)
      ∧ (∀ f, b.ctl = .mfill f → f.md ≠ 0 → ∀ l < 64,
          ((t.core c).mreg f.md).getLsbD l = decide (l < ((s.core c).sreg f.a).toNat))
      ∧ (∀ o f, b.vec = .lane o f → o.cmp = true → f.d.extractLsb' 0 3 ≠ 0 → ∀ l < 64,
          ((t.core c).mreg (f.d.extractLsb' 0 3)).getLsbD l =
            (((s.core c).mreg f.mask).getLsbD l &&
              let p := (lane ((s.core c).vreg f.a) l).toInt
              let q := (lane ((s.core c).vreg f.b) l).toInt
              match o with
              | .vcmpEq => decide (p = q)
              | .vcmpNe => decide (p ≠ q)
              | .vcmpLt => decide (p < q)
              | _ => decide (p ≤ q))))

/-- SLD loads and SST stores the 32-bit word of the scratchpad at a + 4 times the immediate
(R187, R188, R238): SLD's destination gets the word's four bytes, lowest first; after SST the word's
bytes are those of the stored register and every other byte of the scratchpad is as it was, in a bundle
whose vector slot moves nothing into the scratchpad. -/
def Obligations.ScalarLoadAndStoreReachTheWord : Prop :=
  ∀ (i : Instr) (s : State) (c : Core) (b : Bundle), bundleOf i = some (c, b) → Issues s c b →
    ∃ t, exec i s = .next t
      ∧ (∀ f, b.ctl = .sld f → f.d ≠ 0 →
          ((t.core c).sreg f.d).toNat =
            leNat (Tab.lookList (fun _ => 0) (s.core c).spad ((s.core c).ldAddr f).toNat 4))
      ∧ (∀ f, b.ctl = .sst f → (∀ g, b.vec ≠ .vxfr g) →
          let a := ((s.core c).ldAddr f).toNat
          (∀ k < 4, Tab.look (fun _ => 0) (t.core c).spad (a + k)
            = (((s.core c).sreg f.d) >>> (8 * k)).setWidth 8)
          ∧ (∀ p, p < a ∨ a + 4 ≤ p →
              Tab.look (fun _ => 0) (t.core c).spad p = Tab.look (fun _ => 0) (s.core c).spad p))

/-- Whether a control operation is a branch or a LOOP. -/
def Sys2Proof.Claims.jumps (op : CtlOp) : Bool :=
  match op with
  | .br _ _ | .bmany _ | .bmnone _ | .loop _ => true
  | _ => false

/-- The condition and the offset of a branch (R187, R191). -/
def Sys2Proof.Claims.branchOf (x : CoreSt) : CtlOp → Option (Prop × Int)
  | .br .always f => some (True, f.off.toInt)
  | .br .eqz f => some ((x.sreg f.a).toInt = 0, f.off.toInt)
  | .br .nez f => some ((x.sreg f.a).toInt ≠ 0, f.off.toInt)
  | .br .ltz f => some ((x.sreg f.a).toInt < 0, f.off.toInt)
  | .br .gez f => some (0 ≤ (x.sreg f.a).toInt, f.off.toInt)
  | .bmany f => some (∃ l < 64, (x.mreg f.ma).getLsbD l = true, f.off.toInt)
  | .bmnone f => some (∀ l < 64, (x.mreg f.ma).getLsbD l = false, f.off.toInt)
  | _ => none

/-- Which bundle issues next, and what an issue does to the delay slot and the loops (R191, R193, R194, R195,
R198, R199): B, BEQZ, BNEZ, BLTZ, BGEZ, BMANY, BMNONE, LOOP, and every operation that neither branches nor
starts a loop. Where the rules leave a point open it states the model's choice (log entry 15). -/
def Obligations.SequencerPicksTheNextBundle : Prop :=
  ∀ (i : Instr) (s : State) (c : Core) (b : Bundle), bundleOf i = some (c, b) → Issues s c b →
    let x := s.core c
    ∃ t, exec i s = .next t ∧
      let y := t.core c
      -- a branch: its delay slot is next, and where the delay slot goes is decided now
      (∀ p off, branchOf x b.ctl = some (p, off) →
        y.ds = true ∧ y.pc = x.pc + 1
        ∧ (p → (y.dst.toNat : Int) = x.pc.toNat + off
            ∧ ∀ n < 3, (y.loop n).act = ((x.loop n).act
                && decide (((x.loop n).ls.toNat : Int) ≤ x.pc.toNat + off)
                && decide ((x.pc.toNat : Int) + off ≤ (x.loop n).le.toNat)))
        ∧ (¬ p → y.dst = x.pc + 2 ∧ ∀ n < 3, y.loop n = x.loop n))
      -- a LOOP: its body starts at the next bundle, or is skipped when the count is 0
      ∧ (∀ f, b.ctl = .loop f →
          (x.loopCount f = 0 → y.pc.toNat = (x.pc.toNat + f.endo.toNat + 1) % 4096
            ∧ ∀ n < 3, y.loop n = x.loop n)
          ∧ (x.loopCount f ≠ 0 → y.pc = x.pc + 1 ∧ (y.loop f.n.toNat).act = true
            ∧ (y.loop f.n.toNat).ls = x.pc + 1
            ∧ (y.loop f.n.toNat).le = BitVec.ofNat 12 (x.pc.toNat + f.endo.toNat)
            ∧ (y.loop f.n.toNat).lc.toNat = x.loopCount f
            ∧ ∀ n < 3, n ≠ f.n.toNat → y.loop n = x.loop n))
      -- any other operation
      ∧ (jumps b.ctl = false → y.ds = false
          ∧ (x.ds = true → y.pc = x.dst ∧ ∀ n < 3, y.loop n = x.loop n)
          ∧ (x.ds = false → (∀ n < 3, (x.loop n).act = true → (x.loop n).le ≠ x.pc) →
              y.pc = x.pc + 1 ∧ ∀ n < 3, y.loop n = x.loop n)
          ∧ (x.ds = false → ∀ n < 3, (x.loop n).act = true → (x.loop n).le = x.pc →
              (∀ m < 3, n < m → (x.loop m).act = false) →
              (1 < (x.loop n).lc.toNat → y.pc = (x.loop n).ls
                ∧ (y.loop n).lc = (x.loop n).lc - 1 ∧ (y.loop n).act = true
                ∧ ∀ m < 3, m ≠ n → y.loop m = x.loop m)
              ∧ ((x.loop n).lc.toNat ≤ 1 → (y.loop n).act = false
                ∧ ((∀ m < n, (x.loop m).act = true → (x.loop m).le ≠ x.pc) →
                    y.pc = x.pc + 1 ∧ ∀ m < 3, m ≠ n → y.loop m = x.loop m))))

/-- SETMODE writes the pending mode, which takes effect after two more bundles have issued; every bundle that
issues counts one of them, and the mode changes with the second (R200). WAITCAL clears the pending bit of its
comparator and no other (R203); DONE posts an entry with its code, the job slot, the step number and the
fabric time, where the posting FIFO has room, and is dropped, counted and logged where it has none (R298,
R303); BRK makes BREAK pending for the next boundary (R221); FENCE leaves a fence pending, unless nothing is
left to wait for (R190), and a HERD fence whose core has words composed into frames since its last one, in a
herd with another member, pends (R293, R529); and a bundle of four no-operations touches no unit of the core
(R231). Where the rules leave a point open it states the model's choice (log entries 7, 15 and 18). -/
def Obligations.ModeAndControlEventsOfABundle : Prop :=
  (∀ (i : Instr) (s : State) (c : Core) (b : Bundle), bundleOf i = some (c, b) → Issues s c b →
    let x := s.core c
    ∃ t, exec i s = .next t ∧
      let y := t.core c
      (∀ f, b.ctl = .setmode f → y.mode = x.mode ∧ y.pcount = 2
        ∧ y.pmode = if f.i = 1 then f.imm.setWidth 32 else x.sreg (f.imm.extractLsb' 0 5))
      ∧ ((∀ f, b.ctl ≠ .setmode f) → y.pmode = x.pmode
          ∧ (x.pcount = 0 → y.mode = x.mode ∧ y.pcount = 0)
          ∧ (x.pcount = 1 → y.mode = x.pmode ∧ y.pcount = 0)
          ∧ (2 ≤ x.pcount → y.mode = x.mode ∧ y.pcount = x.pcount - 1)))
  ∧ (∀ (i : Instr) (s : State) (c : Core) (b : Bundle), bundleOf i = some (c, b) → Issues s c b →
    let x := s.core c
    ∃ t, exec i s = .next t ∧
      let y := t.core c
      (∀ f, b.ctl = .waitcal f → x.calPend.getLsbD f.n.toNat = true ∧
        ∀ l < 64, y.calPend.getLsbD l = (x.calPend.getLsbD l && decide (l ≠ f.n.toNat)))
      ∧ ((∀ f, b.ctl ≠ .waitcal f) → y.calPend = x.calPend)
      ∧ (∀ f, b.ctl = .done f → x.fifo.length < 4 →
          (∃ e, y.fifo = x.fifo ++ [e] ∧ e.core = c.val ∧ e.code = f.code ∧ e.slotb = x.isB
            ∧ e.drop = x.dropped ∧ e.ftime = s.fab.time
            ∧ (x.slot = .a → e.step = s.stepA.setWidth 32)) ∧ y.dropped = false)
      ∧ (∀ f, b.ctl = .done f → 4 ≤ x.fifo.length → y.fifo = x.fifo ∧ y.dropped = true
          ∧ (x.slot = .a → (t.dieColl (coreDie c)).dropA
              = BitVec.ofNat 16 (min ((s.dieColl (coreDie c)).dropA.toNat + 1) 0xFFFF)))
      ∧ (∀ f, b.ctl = .brk f → y.pend.brk = some 1)
      ∧ (∀ f, b.ctl = .fence f → (∀ q, y.fence = some q → q.kind = f.kind) ∧
          (f.kind = 4 → x.lastComp.isSome = true → s.fencePeers c ≠ [] → y.fence.isSome = true))
      ∧ (b.ctl = .cnop ⟨0⟩ → b.arr = .anop ⟨0⟩ → b.vec = .vnop ⟨0⟩ → b.str = .snop ⟨0⟩ →
          y.sregs = x.sregs ∧ y.mregs = x.mregs ∧ y.vregs = x.vregs ∧ y.spad = x.spad
          ∧ y.ocache = x.ocache ∧ y.quad = x.quad ∧ y.arrays = x.arrays ∧ y.raccs = x.raccs
          ∧ y.folds = x.folds ∧ y.ports = x.ports ∧ y.fifo = x.fifo ∧ y.calPend = x.calPend
          ∧ y.stopped = false ∧ t.routes = s.routes))
/-! ### The array slot -/

/-- An AMAC enters the MAC path, in progress when nothing is in progress and waiting behind the one that is
(R92, R97, R102); an ADRQ, ADRW, ALDT or ASTT takes the drain unit's waiting place (R109), with the stream
plane and the vector stream identifier in force at issue (R247, R779). Each holds the value that its SREG
had at issue (R97), and the order of issue. ANOP leaves the quad alone. Where the rules leave a point open
it states the model's choice (log entry 17). -/
def Obligations.ArrayOperationsQueueWithLatchedSreg : Prop :=
  ∀ (i : Instr) (s : State) (c : Core) (b : Bundle), bundleOf i = some (c, b) → Issues s c b →
    let x := s.core c
    ∃ t, exec i s = .next t ∧
      let q := (t.core c).quad
      (∀ f, b.arr = .amac f →
        let j : AmacJob := ⟨encodeArr (.amac f), x.sreg f.sreg, x.quad.order⟩
        q.drain = x.quad.drain ∧ q.order = x.quad.order + 1
        ∧ (x.quad.run = none → q.run = some ⟨j, 0, false⟩ ∧ q.queued = x.quad.queued)
        ∧ (x.quad.run ≠ none → x.quad.queued = none ∧ q.run = x.quad.run ∧ q.queued = some j))
      ∧ (∀ r, (∃ f, (b.arr = .adrq f ∧ r = f.sreg)
            ∨ (∃ g, (b.arr = .adrw g ∨ b.arr = .aldt g ∨ b.arr = .astt g) ∧ r = g.sreg)) →
          x.quad.drain = none ∧ q.run = x.quad.run ∧ q.queued = x.quad.queued
          ∧ q.order = x.quad.order + 1
          ∧ ∃ d, q.drain = some d ∧ d.word = encodeArr b.arr ∧ d.sreg = x.sreg r
            ∧ d.order = x.quad.order ∧ d.plane = (x.mode.extractLsb' 2 2).toNat
            ∧ d.strm = x.vstream
            ∧ d.px = if x.mode.getLsbD 14 then some (x.sreg x.pxreg) else none)
      ∧ (∀ f, b.arr = .anop f → q = x.quad)
      ∧ (t.core c).arrays = x.arrays

/-! ### The vector slot -/

/-- The value of a lane operation of R148 on one active lane: `a`, `b` the sources as integers, `c` the
old destination, `n` the shift amount, `qi` the second one, `r` the SR word. -/
def Sys2Proof.Claims.laneSpec (o : LaneOp) (wrap : Bool) (n qi : Int) (a b c : W32)
    (r : Option W32) : Option Int :=
  let A := a.toInt
  let B := b.toInt
  let ovf (v : Int) (w : Nat) : Int := if wrap then wrapw v w else satw v w
  match o with
  | .vadd => some (ovf (A + B) 32)
  | .vsub => some (ovf (A - B) 32)
  | .vmin => some (min A B)
  | .vmax => some (max A B)
  | .vabs => some (ovf |A| 32)
  | .vneg => some (ovf (-A) 32)
  | .vand => some (a &&& b).toInt
  | .vor => some (a ||| b).toInt
  | .vxor => some (a ^^^ b).toInt
  | .vshl => some (ovf (A * 2 ^ n.toNat) 32)
  | .vshr => some (A / 2 ^ n.toNat)
  | .vrshr => some (ovf (shiftRound A n r) 32)
  | .vnarrow => some (ovf A
      (if n = 0 then 4 else if n = 1 then 8 else if n = 2 then 9 else if n = 3 then 16 else 24))
  | .vmov | .vbcast => some A
  | .vmul => some (ovf (A * B) 32)
  | .vmulr => some (ovf (shiftRound (A * B) n r) 32)
  | .vmac => some (ovf (c.toInt + shiftRound (A * B) n r) 32)
  | .vexp2 => some (vexp2 A n wrap r).1
  | .vexp => some (vexp2 (rneShr (A * 94548) 16) n wrap r).1
  | .vlog2 => some (if A ≤ 0 then -(2 ^ 31) else (vlog2 A n wrap).1)
  | .vrcp => some (if A = 0 then 0x7FFFFFFF else (vrcp A qi n wrap r).1)
  | .vrsq => some (if A ≤ 0 then 0x7FFFFFFF else (vrsq A qi n wrap r).1)
  | .vsel | .vcmpEq | .vcmpNe | .vcmpLt | .vcmpLe => none

/-- The lane results of R148 and R160-R164: each active lane of the destination of VADD, VSUB, VMIN,
VMAX, VABS, VNEG, VAND, VOR, VXOR, VSHL, VSHR, VRSHR, VNARROW, VMOV, VBCAST, VMUL, VMULR, VMAC, VEXP2,
VEXP, VLOG2, VRCP and VRSQ gets its value, and each inactive lane keeps its own (R141); VSEL writes
every lane. The SR words are those of R151. A RED field sends the destination's active lanes to its
reduction accumulator. -/
def Obligations.LaneResultsFollowTable : Prop :=
  ∀ (i : Instr) (s : State) (c : Core) (b : Bundle), bundleOf i = some (c, b) → Issues s c b →
    let x := s.core c
    ∃ t, exec i s = .next t ∧
      (∀ o f, b.vec = .lane o f → o.cmp = false → o ≠ .vsel → ∀ l < 64,
        let src := if o = .vbcast then x.sreg f.a else lane (x.vreg f.a) l
        let r := srWord (s.vecKey x f.rnd) x.seqNo l
        ((x.mreg f.mask).getLsbD l = true →
          ∃ v, laneSpec o (f.ovf == 1) (x.laneN f) (x.laneQi f) src (lane (x.vreg f.b) l)
              (lane (x.vreg f.d) l) r = some v
            ∧ lane ((t.core c).vreg f.d) l = BitVec.ofInt 32 v)
        ∧ ((x.mreg f.mask).getLsbD l = false →
          lane ((t.core c).vreg f.d) l = lane (x.vreg f.d) l))
      ∧ (∀ f, b.vec = .lane .vsel f → ∀ l < 64,
          lane ((t.core c).vreg f.d) l
            = if (x.mreg f.mask).getLsbD l then lane (x.vreg f.a) l else lane (x.vreg f.b) l)
      ∧ (∀ o f, b.vec = .lane o f → f.rop ≠ 0 → ∃ it, (t.core c).folds = x.folds ++ [it]
          ∧ it.racc = f.racc.toNat ∧ it.clr = false ∧ it.op = f.rop
          ∧ it.lanes = (t.core c).vreg f.d
          ∧ ∀ l < 64, it.act.getLsbD l = (o == .vsel || (x.mreg f.mask).getLsbD l))

/-- The highest-numbered active lane whose element covers a byte of the cache. -/
def Sys2Proof.Claims.lastLane (x : CoreSt) (o : MemOp) (f : FmtVM) (p : Nat) : Option Nat :=
  ((List.range 64).filter fun l => (x.mreg f.mask).getLsbD l
    && decide ((x.memAddr o f l).1.toNat ≤ p)
    && decide (p < (x.memAddr o f l).1.toNat + sizeBytes f.size)).getLast?

/-- The highest-numbered active lane whose I4 element is a nibble of a byte of the cache. -/
def Sys2Proof.Claims.lastNibble (x : CoreSt) (o : MemOp) (f : FmtVM) (p : Nat) (hi : Bool) : Option Nat :=
  ((List.range 64).filter fun l => (x.mreg f.mask).getLsbD l
    && decide ((x.memAddr o f l).1.toNat = p) && (x.memAddr o f l).2 == hi).getLast?

/-- VLD and VLDX load (R148, R149): each active lane of the destination is the element at its address,
sign-extended, of a word that is not uncorrectable, and 0 of one that is (R147); each inactive lane
keeps its own (R141). VST and VSTX (R146): under I8, I16 and I32, each byte of the cache that an active
lane's element covers is that byte of the lane's value under ovfw(), the highest-numbered lane's where
several cover it, and every other byte of the cache is as it was; under I4 the same of each nibble. -/
def Obligations.CacheAccessesReachActiveLanes : Prop :=
  (∀ (i : Instr) (s : State) (c : Core) (b : Bundle), bundleOf i = some (c, b) → Issues s c b →
    let x := s.core c
    ∃ t, exec i s = .next t ∧
      ∀ o f, b.vec = .mem o f → o = .vld ∨ o = .vldx → ∀ l < 64,
        let a := x.memAddr o f l
        let e := Tab.look (fun _ => Ecc.good) x.ocEcc (a.1.toNat / 4)
        let v := leNat (Tab.lookList (fun _ => 0) x.ocache a.1.toNat (sizeBytes f.size))
        ((x.mreg f.mask).getLsbD l = false → lane ((t.core c).vreg f.v) l = lane (x.vreg f.v) l)
        ∧ ((x.mreg f.mask).getLsbD l = true →
          ((e = .double ∨ e = .poisoned) → lane ((t.core c).vreg f.v) l = 0)
          ∧ ((e = .good ∨ e = .single) →
            (f.size ≠ 0 → lane ((t.core c).vreg f.v) l = BitVec.ofInt 32 (toS (8 * sizeBytes f.size) v))
            ∧ (f.size = 0 → lane ((t.core c).vreg f.v) l
                = BitVec.ofInt 32 (toS 4 (v / (if a.2 then 16 else 1)))))))
  ∧ (∀ (i : Instr) (s : State) (c : Core) (b : Bundle), bundleOf i = some (c, b) → Issues s c b →
    let x := s.core c
    ∃ t, exec i s = .next t ∧
      (∀ o f, b.vec = .mem o f → o = .vst ∨ o = .vstx → f.size = 0 → ∀ p,
        let nib (m : Tab Byte) (hi : Bool) : Nat :=
          (Tab.look (fun _ => 0) m p).toNat / (if hi then 16 else 1) % 16
        ∀ hi, (nib (t.core c).ocache hi : Int) =
          match lastNibble x o f p hi with
          | none => nib x.ocache hi
          | some l =>
            let v := (lane (x.vreg f.v) l).toInt
            (if f.ovf = 1 then wrapw v 4 else satw v 4) % 16)
      ∧ ∀ o f, b.vec = .mem o f → o = .vst ∨ o = .vstx → f.size ≠ 0 → ∀ p,
        Tab.look (fun _ => 0) (t.core c).ocache p =
          match lastLane x o f p with
          | none => Tab.look (fun _ => 0) x.ocache p
          | some l =>
            let w := 8 * sizeBytes f.size
            let v := (lane (x.vreg f.v) l).toInt
            (leInt (sizeBytes f.size) (if f.ovf = 1 then wrapw v w else satw v w)).getD
              (p - (x.memAddr o f l).1.toNat) 0)

/-- VXFR moves its blocks through port F (R254, R255, R778): in a bundle without an SST, the bytes of
the destination range are those read from the source range, with those of an uncorrectable word read
as 0, and every other byte of the destination memory is as it was. -/
def Obligations.BlockMoveCopiesItsRange : Prop :=
  ∀ (i : Instr) (s : State) (c : Core) (b : Bundle), bundleOf i = some (c, b) → Issues s c b →
    let x := s.core c
    ∃ t, exec i s = .next t ∧
      ∀ f, b.vec = .vxfr f → (∀ g, b.ctl ≠ .sst g) →
        let n := 0x1000 * (f.km1.toNat + 1)
        let ca := (x.sreg f.sc).toNat
        let sp := (x.sreg f.sp).toNat
        (f.dir = 0 → (t.core c).spad = x.spad ∧ ∀ p,
          Tab.look (fun _ => 0) (t.core c).ocache p
            = if ca ≤ p ∧ p < ca + n then (ramRead x.spad x.spEcc 4 sp n).bytes.getD (p - ca) 0
              else Tab.look (fun _ => 0) x.ocache p)
        ∧ (f.dir = 1 → (t.core c).ocache = x.ocache ∧ ∀ p,
          Tab.look (fun _ => 0) (t.core c).spad p
            = if sp ≤ p ∧ p < sp + n then (ramRead x.ocache x.ocEcc 4 ca n).bytes.getD (p - sp) 0
              else Tab.look (fun _ => 0) x.spad p)

/-- VTILE of one array under mode 0 (R153, R154): with no error in the cache, the output tile's
mantissas and its scale byte are those of quant() of the wide tile's elements and scale. -/
def Obligations.TileOutputIsQuantised : Prop :=
  ∀ (i : Instr) (s : State) (c : Core) (b : Bundle), bundleOf i = some (c, b) → Issues s c b →
    let x := s.core c
    ∃ t, exec i s = .next t ∧
      ∀ f n, b.vec = .vtile f → f.mode = 0 → n < 4 → f.amask = BitVec.ofNat 4 (2 ^ n) → x.ocEcc = [] →
        let base := (x.sreg f.sbase).toNat
        let dst := (x.sreg f.sdst).toNat
        let vals := (List.range 1024).map fun e =>
          toS 32 (leNat (Tab.lookList (fun _ => 0) x.ocache (base + n * 0x1000 + 4 * e) 4))
        let sT := toS 16 (leNat (Tab.lookList (fun _ => 0) x.ocache (base + 0x4000 + n * 8) 2))
        let q := quant vals sT (wBits f.w)
          (if f.pol = 0 then some (satw (x.sreg f.h).toInt 8) else none) f.h.toNat
          (fun e => srWord (s.vecKey x f.rnd) (x.seqNo + e / 1024) (e % 1024)) (f.ovf == 1)
        (∀ k < 128 * wBits f.w,
          Tab.look (fun _ => 0) (t.core c).ocache (dst + n * 0x1000 + k)
            = (packMant (wBits f.w) q.y).getD k 0)
        ∧ Tab.look (fun _ => 0) (t.core c).ocache (dst + 0x4000 + n) = (leInt 1 q.scale).getD 0 0

/-- The reduction unit (R165, R168, R258): RCLR gives an accumulator on which nothing waits the starting
state of its kind; RGET moves the low word, the high word or the index; RGETN moves the value shifted
by max(0, need(v) − 32) and the shift; VNOP moves nothing. A fold that reaches its accumulator adds the
active lanes' sum under sat48 for SUM, or raises or lowers the value for MAX and MIN, and counts 64
elements. -/
def Obligations.ReductionAccumulatesAndReads : Prop :=
  (∀ (i : Instr) (s : State) (c : Core) (b : Bundle), bundleOf i = some (c, b) → Issues s c b →
    let x := s.core c
    ∃ t, exec i s = .next t ∧
      let y := t.core c
      (∀ f, b.vec = .rclr f → x.folds = [] →
        (y.racc f.racc.toNat).kind = f.kind ∧ (y.racc f.racc.toNat).ecnt = 0
        ∧ (y.racc f.racc.toNat).val.toInt = (if f.kind = 3 ∨ f.kind = 5 then -(2 ^ 31)
            else if f.kind = 4 then 2 ^ 31 - 1 else 0)
        ∧ (f.kind = 5 → (y.racc f.racc.toNat).idx = 0xFFFFFFFF)
        ∧ ∀ n, n ≠ f.racc.toNat → y.racc n = x.racc n)
      ∧ (∀ f, b.vec = .rget f → x.folds = [] ∧ y.raccs = x.raccs ∧ (f.sd ≠ 0 →
          y.sreg f.sd = match (f.kind.extractLsb' 1 2).toNat with
            | 0 => (x.racc f.racc.toNat).val.extractLsb' 0 32
            | 1 => (x.racc f.racc.toNat).val.extractLsb' 32 32
            | _ => (x.racc f.racc.toNat).idx))
      ∧ (∀ f, b.vec = .rgetn f → x.folds = [] ∧ y.raccs = x.raccs ∧
          let v := (x.racc f.racc.toNat).val.toInt
          (f.sh ≠ 0 → (y.sreg f.sh).toNat = need v - 32)
          ∧ (f.sd ≠ 0 → y.sreg f.sd = BitVec.ofInt 32 (rneShr v (need v - 32))))
      ∧ (∀ f, b.vec = .vnop f → y.raccs = x.raccs ∧ y.folds = x.folds))
  ∧ ∀ (s : State) (c : Core) (it : FoldItem) (r : List FoldItem),
      (s.core c).folds = it :: r → it.clr = false →
      ∃ t, exec (.reductionFold c) s = .next t ∧ OnlyCore c s t
        ∧ (t.core c).folds = r
        ∧ (∀ n, n ≠ it.racc → (t.core c).racc n = (s.core c).racc n)
        ∧ (((s.core c).racc it.racc).kind.toNat ∈ [1, 2, 3, 4, 5] →
          ((t.core c).racc it.racc).ecnt = ((s.core c).racc it.racc).ecnt + 64)
        ∧ (let l := ((List.range 64).filter fun l => it.act.getLsbD l).map fun l => (lane it.lanes l).toInt
          let a := (s.core c).racc it.racc
          let v := ((t.core c).racc it.racc).val
          (a.kind = 1 → v = BitVec.ofInt 64 (satw (a.val.toInt + l.sum) 48))
          ∧ (a.kind = 2 → v = BitVec.ofInt 64 (satw (a.val.toInt + (l.map fun e => e * e).sum) 64))
          ∧ (a.kind = 3 → v = BitVec.ofInt 64 (l.foldl max a.val.toInt))
          ∧ (a.kind = 4 → v = BitVec.ofInt 64 (l.foldl min a.val.toInt)))

/-! ### The stream slot -/

/-- The stream operations (R261, R277, R279): SRECV moves the payload of the port's front word to its
vector register, takes the word off the queue and sends one credit back on the word's route; SSEND puts
its vector register, with its marks, at the end of the port's queue, for the route that the port is
bound to; SDROP discards the words up to and including the first one marked LAST, with one credit each;
SLEVEL reads the words that wait in an incoming port, or the free places of an outgoing one; SNOP
touches no port. -/
def Obligations.StreamOperationsMoveWords : Prop :=
  ∀ (i : Instr) (s : State) (c : Core) (b : Bundle), bundleOf i = some (c, b) → Issues s c b →
    let x := s.core c
    ∃ t, exec i s = .next t ∧
      let y := t.core c
      (∀ f, b.str = .srecv f → ∃ r w q, (x.port f.port.toNat).queue = (r, w) :: q
        ∧ y.vreg f.v = w.data ∧ (y.port f.port.toNat).queue = q
        ∧ (t.route x.slot r).creditsBack = (s.route x.slot r).creditsBack + 1
        ∧ (∀ p, p ≠ f.port.toNat → y.port p = x.port p)
        ∧ (∀ r', r' ≠ r → t.route x.slot r' = s.route x.slot r'))
      ∧ (∀ f, b.str = .ssend f → t.routes = s.routes
          ∧ (∀ p, p ≠ f.port.toNat → y.port p = x.port p)
          ∧ ∃ r, x.bind f.port.toNat = some r ∧ r.out = true
            ∧ (x.port f.port.toNat).queue.length < x.depth f.port.toNat
            ∧ (y.port f.port.toNat).queue = (x.port f.port.toNat).queue
              ++ [(r.route, ⟨x.vreg f.v, f.last == 1, f.lend == 1, false, false, 0⟩)])
      ∧ (∀ f, b.str = .sdrop f → ∃ ws w q, (x.port f.port.toNat).queue = ws ++ w :: q
          ∧ (∀ u ∈ ws, u.2.last = false) ∧ w.2.last = true
          ∧ (y.port f.port.toNat).queue = q
          ∧ (∀ p, p ≠ f.port.toNat → y.port p = x.port p)
          ∧ ∀ r, (t.route x.slot r).creditsBack
              = (s.route x.slot r).creditsBack + (ws ++ [w]).countP fun u => u.1 == r)
      ∧ (∀ f, b.str = .slevel f → y.ports = x.ports ∧ t.routes = s.routes ∧ (f.v ≠ 0 →
          ∃ r, x.bind f.port.toNat = some r ∧ y.sreg f.v = BitVec.ofNat 32
            (if r.out then x.depth f.port.toNat - (x.port f.port.toNat).queue.length
             else (x.port f.port.toNat).queue.length)))
      ∧ (∀ f, b.str = .snop f → y.ports = x.ports ∧ t.routes = s.routes)

/-! ### Bundles that do not issue -/

/-- A bundle that raises ILLEGAL does not issue (R205, R207, R209, R210, R234): the core stops with the first
failing slot and its detail in SEQ_EXC and its PC in SEQ_EXCPC, its registers and memories are as they were,
the arrays stop with cause 5 (R206), the error log gets a record, and job slot A's step is incomplete; a
reserved FMT is such a bundle (R229), and so is an operation of an undefined opcode. A synchronous
protection fault stops the core in the same way, with class 3 and the address in SEQ_EXCINFO, only after
every ILLEGAL check has passed (R188, R212). Where the rules leave a point open it states the model's choice
(log entry 10). -/
def Obligations.SynchronousExceptionsStopTheCore : Prop :=
  (∀ (i : Instr) (s : State) (c : Core) (b : Bundle) (slot d : Nat), bundleOf i = some (c, b) →
    Runs s c → (s.core c).pend = PendExc.none → s.bkptHit c = false → s.excEcc c b = none →
    (s.core c).blocked b = [] → s.illegalAt c b = some (slot, d) →
    ∃ t, exec i s = .next t ∧
      (t.core c).stopped = true ∧ (t.core c).exc = BitVec.ofNat 32 (1 + 16 * slot + 256 * (d % 65536))
      ∧ (t.core c).excInfo = 0 ∧ (t.core c).excPc = (s.core c).pc
      ∧ (t.core c).quad.stopped = true ∧ (t.core c).quad.cause = 5
      ∧ (t.core c).pc = (s.core c).pc ∧ (t.core c).sregs = (s.core c).sregs
      ∧ (t.core c).mregs = (s.core c).mregs ∧ (t.core c).vregs = (s.core c).vregs
      ∧ (t.core c).spad = (s.core c).spad ∧ (t.core c).ocache = (s.core c).ocache
      ∧ (t.core c).ports = (s.core c).ports ∧ (t.core c).loops = (s.core c).loops
      ∧ (∀ e, e ≠ c.val → t.core e = s.core e)
      ∧ ((s.core c).slot = .a → t.bwt.incomp = true)
      ∧ t.mem = s.mem ∧ t.routes = s.routes ∧ t.pending = s.pending)
  ∧ (∀ (i : Instr) (s : State) (c : Core) (b : Bundle) (slot : Nat) (p : ProtInfo),
    bundleOf i = some (c, b) → Runs s c → (s.core c).pend = PendExc.none → s.bkptHit c = false →
    s.excEcc c b = none → (s.core c).blocked b = [] → s.illegalAt c b = none →
    s.protAt c b = some (slot, p) →
    ∃ t, exec i s = .next t ∧ (t.core c).stopped = true
      ∧ (t.core c).exc = BitVec.ofNat 32 (3 + 16 * slot + 256 * (p.detail % 65536))
      ∧ (t.core c).excInfo = BitVec.ofNat 32 p.info ∧ (t.core c).excPc = (s.core c).pc
      ∧ (t.core c).quad.cause = 3 ∧ (t.core c).pc = (s.core c).pc
      ∧ (t.core c).sregs = (s.core c).sregs ∧ (t.core c).spad = (s.core c).spad
      ∧ (t.core c).ocache = (s.core c).ocache ∧ (t.core c).ports = (s.core c).ports
      ∧ (∀ e, e ≠ c.val → t.core e = s.core e)
      ∧ ((s.core c).slot = .a → t.bwt.incomp = true)
      ∧ ∀ f, b.ctl = .sld f ∨ b.ctl = .sst f → slot = 0 →
          p.detail = 0x0101 ∧ (p.addr < (s.spadRange (s.core c).slot c).1
            ∨ ((s.spadRange (s.core c).slot c).2 : Int) < p.addr + 4))

/-- A hold changes nothing but HCAUSE, which shows its lowest cause, unless the bundle holds for its SDROP
alone, which meanwhile discards the words that are there (R179, R183, R279); a bundle in a core that is
stopped, without a program, or between two contexts does nothing at all. Where the rules leave a point open
it states the model's choice (log entries 10 and 18). -/
def Obligations.HeldBundleChangesOnlyItsCause : Prop :=
  ∀ (i : Instr) (s : State) (c : Core) (b : Bundle), bundleOf i = some (c, b) →
    (¬ Runs s c → exec i s = .next s)
    ∧ (Runs s c → (s.core c).pend = PendExc.none → s.bkptHit c = false →
        (s.core c).storeIs Ecc.bad = [] → (s.core c).early b = false → ∀ k l,
        (s.core c).holds b = k :: l → (∀ f, b.str ≠ .sdrop f) →
        exec i s = .next (s.setCore c { s.core c with hcause := k }))

/-! ### The sequencer outside the bundle stream -/

/-- The debug controls, written by Jusia or PF0 (R221, R222): with the debug flag, RESUME starts a core
stopped by BREAK again with its arrays, STEP also makes it stop again after one bundle, and HALT makes BREAK
pending in a running core; a core whose context switches is left as it is by HALT; a core stopped by any other
class is left as it is, and so is every core of an image that is no debug image. -/
def Obligations.DebugControlsActOnBreakOnly : Prop :=
  ∀ (r : Requester) (c : Core) (s : State), r = .jusia ∨ r = .pf0 →
    let x := s.core c
    (s.debugOf c = false → exec (.seqResume r c) s = .next s ∧ exec (.seqStep r c) s = .next s
      ∧ exec (.seqHalt r c) s = .next s)
    ∧ (s.debugOf c = true →
      (∃ t, exec (.seqResume r c) s = .next t ∧ OnlyCore c s t
        ∧ (x.stopped = true → x.exc.toNat % 8 = 6 → (t.core c).stopped = false
          ∧ (t.core c).quad.stopped = false ∧ (t.core c).pc = x.pc ∧ (t.core c).stepping = x.stepping)
        ∧ (x.stopped = false ∨ x.exc.toNat % 8 ≠ 6 → t.core c = x))
      ∧ (∃ t, exec (.seqStep r c) s = .next t ∧ OnlyCore c s t
        ∧ (x.stopped = true → x.exc.toNat % 8 = 6 → (t.core c).stopped = false
          ∧ (t.core c).stepping = true ∧ (t.core c).pc = x.pc)
        ∧ (x.stopped = false ∨ x.exc.toNat % 8 ≠ 6 → t.core c = x))
      ∧ (∃ t, exec (.seqHalt r c) s = .next t ∧ OnlyCore c s t
        ∧ (x.stopped = false → x.switching = false → x.cfg.isSome = true →
          (t.core c).pend.brk.isSome = true ∧ (t.core c).stopped = false ∧ (t.core c).pc = x.pc)
        ∧ (x.stopped = true ∨ x.switching = true → t.core c = x)))

/-- A pending asynchronous exception is taken at the next bundle boundary in the order of R208 (R205, R206,
R210, R212): CAL_MISS first, with its comparator as detail, and the arrays run on; then XLT_FAULT, with the
port and the offset, and asynchronous PROT; then BREAK. The exception taken is no longer pending, and every
other pending one, of its class or of another, stays. -/
def Obligations.AsyncExceptionsFollowTheirOrder : Prop :=
  ∀ (c : Core) (s : State), Runs s c → s.excEcc c (s.core c).atPc = none →
    (s.core c).pend.preempt = none →
    let p := (s.core c).pend
    (∀ n, p.cal = some n → ∃ t, exec (.asyncException c) s = .next t
      ∧ (t.core c).stopped = true ∧ (t.core c).exc = BitVec.ofNat 32 (7 + 8 + 256 * (n % 65536))
      ∧ (t.core c).pend = { p with cal := none } ∧ (t.core c).quad = (s.core c).quad
      ∧ (t.core c).excPc = (s.core c).pc ∧ ((s.core c).slot = .a → t.bwt.incomp = true)
      ∧ (∀ d, d ≠ c.val → t.core d = s.core d))
    ∧ (∀ q off r, p.cal = none → p.xlt = (q, off) :: r → ∃ t, exec (.asyncException c) s = .next t
      ∧ (t.core c).stopped = true ∧ (t.core c).exc = BitVec.ofNat 32 (2 + 8 + 256 * (q % 65536))
      ∧ (t.core c).excInfo = off.setWidth 32 ∧ (t.core c).pend = { p with xlt := r }
      ∧ (t.core c).quad.stopped = true ∧ (t.core c).quad.cause = 2
      ∧ ((s.core c).slot = .a → t.bwt.incomp = true))
    ∧ (∀ d a r, p.cal = none → p.xlt = [] → p.prot = (d, a) :: r →
      ∃ t, exec (.asyncException c) s = .next t
      ∧ (t.core c).stopped = true ∧ (t.core c).exc = BitVec.ofNat 32 (3 + 8 + 256 * (d % 65536))
      ∧ (t.core c).excInfo = a.setWidth 32 ∧ (t.core c).pend = { p with prot := r }
      ∧ (t.core c).quad.stopped = true ∧ (t.core c).quad.cause = 3)
    ∧ (∀ d, p.cal = none → p.xlt = [] → p.prot = [] → p.brk = some d →
      ∃ t, exec (.asyncException c) s = .next t
      ∧ (t.core c).stopped = true ∧ (t.core c).exc = BitVec.ofNat 32 (6 + 8 + 256 * (d % 65536))
      ∧ (t.core c).pend = { p with brk := none }
      ∧ (t.core c).quad.stopped = true ∧ (t.core c).quad.cause = 4
      ∧ t.bwt = s.bwt ∧ t.reg = s.reg)

/-- PREEMPT is taken in every core of the window that waits for this comparator (R213, R215): a running core
records it, stops its arrays with cause 1 and begins the switch of its context, and stays not stopped; a
core that another exception has stopped begins the switch and keeps its earlier exception. No other core
changes. Where the rules leave a point open it states the model's choice (log entry 19). -/
def Obligations.PreemptReachesEveryCoreOfTheWindow : Prop :=
  ∀ (n : Fin 64) (s : State), ∃ t, exec (.preempt n) s = .next t
    ∧ (∀ c < 256, (s.core c).pend.preempt ≠ some n.val → t.core c = s.core c)
    ∧ (∀ c < 256, (s.core c).pend.preempt = some n.val → Runs s c →
        (t.core c).switching = true ∧ (t.core c).stopped = false
        ∧ (t.core c).exc = BitVec.ofNat 32 (5 + 8) ∧ (t.core c).excInfo = BitVec.ofNat 32 n.val
        ∧ (t.core c).excPc = (s.core c).pc ∧ (t.core c).pend.preempt = none
        ∧ (t.core c).quad.stopped = true ∧ (t.core c).quad.cause = 1
        ∧ (t.core c).sregs = (s.core c).sregs ∧ (t.core c).pc = (s.core c).pc)
    ∧ (∀ c < 256, (s.core c).pend.preempt = some n.val → (s.core c).stopped = true →
        (s.core c).switching = false →
        (t.core c).switching = true ∧ (t.core c).stopped = true
        ∧ (t.core c).exc = (s.core c).exc ∧ (t.core c).pend.preempt = none)
    ∧ t.mem = s.mem ∧ t.reg = s.reg ∧ t.pending = s.pending

/-- The switch of a core from job slot A into an empty context of job slot B, and back (R216, R218, R219, R297,
R433-R437): the first switch gives slot B the reset state, and after the second every scalar, mask and
vector register, the PC, the delay slot, the loops and the mode of slot A are what they were before the
first, where no codeword of the core is in error. Where the rules leave a point open it states the model's
choice (log entry 17). -/
def Obligations.SwitchAwayAndBackRestoresTheContext : Prop :=
  ∀ (c : Core) (s : State),
    let x := s.core c
    x.switching = true → x.bare = false → x.slot = .a → x.emptyB = true → s.testWaits c = false →
    s.sd.retired = [] → s.unloadB = false → x.spEcc = [] → x.ocEcc = [] →
    (∀ n, (x.arr n).ecc = []) → x.cfgA.isSome = true → x.cfgB.isSome = true →
    ∃ t, exec (.contextSwitch c) s = .next t
      ∧ (t.core c).slot = .b ∧ (t.core c).switching = false ∧ (t.core c).pc = 0
      ∧ (t.core c).emptyA = false ∧ (t.core c).emptyB = false
      ∧ (∀ n, (t.core c).sreg n = 0) ∧ (t.core c).bkpt.getLsbD 12 = false
      ∧ (∀ d, d ≠ c.val → t.core d = s.core d) ∧ t.mem = s.mem
      ∧ ∃ u, exec (.contextSwitch c) (t.setCore c { t.core c with switching := true }) = .next u ∧
        let y := u.core c
        y.slot = .a ∧ (∀ n, y.sreg n = x.sreg n) ∧ (∀ n, y.mreg n = x.mreg n)
        ∧ (∀ n, y.vreg n = x.vreg n) ∧ y.pc = x.pc ∧ y.ds = x.ds ∧ y.dst = x.dst
        ∧ (∀ n < 3, y.loop n = x.loop n) ∧ y.mode = x.mode ∧ y.pmode = x.pmode
        ∧ y.calPend = x.calPend ∧ y.stopped = x.stopped ∧ y.exc = x.exc

/-! ### Arrays -/

/-- An AMAC in progress takes one slot when every feeder that it needs has its vector (R101, R102, R105, R107):
the slot counts, and after the last one the AMAC that waited is in progress; without a vector the slot is
not taken and nothing changes; an array that AMASK does not select and a tile that TILE does not name are as
they were; under two valid vectors each element of the tile gets its product, aligned to the tile's scale,
under ovfw() (R72, R73, R104). The waiting drain starts unless the quad is stopped or an AMAC that was
issued before it still targets its tile (R109, R110, R127): ASTT, ADRW and ALDT move the tile (R114, R117);
ADRQ waits while its port lacks places for the whole token, and otherwise pushes the words of quant() and
the scale word to its port (R111, R266). Where the rules leave a point open it states the model's choice
(log entry 17). -/
def Obligations.ArrayWorkAccumulatesAndDrains : Prop :=
  (∀ (c : Core) (s : State) (run : AmacRun),
    let x := s.core c
    let f := run.job.f
    x.quad.run = some run → x.quad.stopped = false → x.switching = false →
    x.quad.drainBlocks run = false →
    ((∃ p ∈ run.job.feeds, s.feedReady c p.1 p.2 = .missing) → exec (.amacSlot c) s = .next s)
    ∧ ((∀ p ∈ run.job.feeds, s.feedReady c p.1 p.2 = .ready) →
      ∃ t, exec (.amacSlot c) s = .next t
        ∧ (run.knext + 1 ≠ kSlots f.ka.toNat f.kb.toNat →
            (t.core c).quad.run = some { run with knext := run.knext + 1, started := true }
            ∧ (t.core c).quad.queued = x.quad.queued)
        ∧ (run.knext + 1 = kSlots f.ka.toNat f.kb.toNat →
            (t.core c).quad.run = x.quad.queued.map (fun j => ⟨j, 0, false⟩)
            ∧ (t.core c).quad.queued = none)
        ∧ (t.core c).quad.drain = x.quad.drain ∧ (t.core c).sregs = x.sregs
        ∧ (∀ d, d ≠ c.val → t.core d = s.core d) ∧ t.mem = s.mem
        ∧ (∀ n < 4, f.amask.getLsbD n = false → (t.core c).arr n = x.arr n)
        ∧ (∀ n < 4, ∀ e, e / 1024 ≠ f.tile.toNat →
            Tab.look (fun _ => 0) ((t.core c).arr n).elem e = Tab.look (fun _ => 0) (x.arr n).elem e)
        ∧ ∀ n < 4, f.amask = BitVec.ofNat 4 (2 ^ n) → run.started = true → (x.arr n).ecc = [] →
            let ks := kIdx f.ka.toNat f.kb.toNat run.knext
            let row := s.feed c 0 f.ka.toNat run.knext true ks
            let col := (row.2.feed c (n + 1) f.kb.toNat run.knext false ks).1
            row.1.valid = true → col.valid = true → ∀ e < 1024,
              ∀ old, old = Tab.look (fun _ => 0) (x.arr n).elem (1024 * f.tile.toNat + e) →
              let p := cellProd (f.neg == 1) (cellVec f.ka.toNat f.kb.toNat row.1.vals).1
                (cellVec f.kb.toNat f.ka.toNat col.vals).1 (e / 32) (e % 32)
              let v := old.toInt + align p (row.1.scale + col.scale) ((x.arr n).scale f.tile.toNat)
              Tab.look (fun _ => 0) ((t.core c).arr n).elem (1024 * f.tile.toNat + e)
                = BitVec.ofInt 32 (if f.ovf = 1 then wrapw v 32 else satw v 32)))
  ∧ (∀ (c : Core) (s : State) (d : DrainJob),
    let x := s.core c
    let f := FmtTileMove.dec d.word
    let a := d.sreg.toNat
    let byte (e : W32) (k : Nat) : Byte := (e >>> (8 * k)).setWidth 8
    x.quad.drain = some d →
    (x.quad.stopped = true ∨ x.switching = true ∨ x.quad.amacBlocks d = true →
      exec (.drainStart c) s = .next s)
    ∧ (x.quad.stopped = false → x.switching = false → x.quad.amacBlocks d = false →
      ∃ t, exec (.drainStart c) s = .next t
        ∧ (∀ e, e ≠ c.val → t.core e = s.core e) ∧ t.mem = s.mem
        ∧ (t.core c).sregs = x.sregs ∧ (t.core c).quad.run = x.quad.run
        ∧ ∀ n < 4, f.amask = BitVec.ofNat 4 (2 ^ n) → (x.arr n).ecc = [] →
          (∀ g, decodeArr d.word = .astt g → (t.core c).quad.drain = none ∧
            ∀ e < 1024, ∀ k < 4,
              Tab.look (fun _ => 0) (t.core c).spad (a + n * 0x2000 + 4 * e + k)
                = byte (Tab.look (fun _ => 0) (x.arr n).elem (1024 * g.tile.toNat + e)) k)
          ∧ (∀ g, decodeArr d.word = .adrw g → (t.core c).quad.drain = none ∧
            (t.core c).spad = x.spad ∧ ∀ e < 1024, ∀ k < 4,
              Tab.look (fun _ => 0) (t.core c).ocache (a + n * 0x1000 + 4 * e + k)
                = byte (Tab.look (fun _ => 0) (x.arr n).elem (1024 * g.tile.toNat + e)) k)
          ∧ (∀ g, decodeArr d.word = .aldt g → x.spEcc = [] → (t.core c).quad.drain = none ∧
            (t.core c).spad = x.spad ∧ ∀ e < 1024,
              (Tab.look (fun _ => 0) ((t.core c).arr n).elem (1024 * g.tile.toNat + e)).toNat
                = leNat (Tab.lookList (fun _ => 0) x.spad (a + n * 0x2000 + 4 * e) 4))
          ∧ (∀ g, decodeArr d.word = .adrq g →
            (x.free g.dst.toNat < tokenWords g.w 1 → t = s)
            ∧ (tokenWords g.w 1 ≤ x.free g.dst.toNat → (t.core c).quad.drain = none ∧
              let q := quant (((x.arr n).tile g.tile.toNat).map (·.toInt)) ((x.arr n).scale g.tile.toNat)
                (wBits g.w) (if g.pol = 0 then some (satw d.sreg.toInt 8) else none) g.h.toNat
                (srWord (s.drainKey x g d) (x.drainSeq g d)) (g.ovf == 1)
              ((t.core c).port g.dst.toNat).queue.map (·.2) =
                (x.port g.dst.toNat).queue.map (·.2) ++ tileToken (fmtBytes g.w.toNat / 256)
                  [(packMant (wBits g.w) q.y, BitVec.ofInt 8 q.scale, (x.arr n).poison.getLsbD g.tile.toNat)]))))
/-! ### Rows that write a control register: who may, and the counters -/

/-- A row that a requester performs by writing a register of BAR0. -/
def Sys2Proof.Claims.Bar0Row (i : Instr) (r : Requester) (c : Core) (p : Port) (n : Drive)
    (v : BitVec 32) (sda : Bool) : Prop :=
  i = .seqResume r c ∨ i = .seqStep r c ∨ i = .seqHalt r c ∨ i = .arrClrcnt r c
    ∨ i = .vecClrcnt r c ∨ i = .imgGo r v ∨ i = .imgAbort r v ∨ i = .imgForce r v
    ∨ i = .imgDefault r v ∨ i = .memHrtail r v ∨ i = .memClrcnt r v ∨ i = .xltInv r v
    ∨ i = .xltClrcnt r v ∨ i = .dmaClrcnt r v ∨ i = .retrain r p v ∨ i = .fabPchip r v
    ∨ i = .fabApply r v ∨ i = .hrdClrcnt r v ∨ i = .mulClrcnt r v ∨ i = .bwtArm r v
    ∨ i = .bwtDisarm r v ∨ i = .bwtHaltreq r v ∨ i = .bwtResolve r v ∨ i = .bwtClrcnt r v
    ∨ i = .savReq r v ∨ i = .savAbort r v ∨ i = .savRestore r v ∨ i = .savClrcnt r v
    ∨ i = .driveReset r n v ∨ i = .pwrClrcnt r v ∨ i = .firmwareReset r v ∨ i = .i2cReset r v sda
    ∨ i = .i2cClear r v ∨ i = .errClrcnt r v ∨ i = .errClrlog r v ∨ i = .errSdreq r v

/-- PF1 has no BAR0, so no such row of it has an effect (R675); an SMBus write of a register other than
MGT_RSTCTL.WARM is dropped, and sets DENIED (R692). -/
def Obligations.OnlyJusiaAndPf0ReachBar0 : Prop :=
  ∀ (i : Instr) (c : Core) (p : Port) (n : Drive) (v : BitVec 32) (sda : Bool) (s : State),
    (Bar0Row i .pf1 c p n v sda → exec i s = .next s)
    ∧ (Bar0Row i .smbus c p n v sda → ∃ t, exec i s = .next t
      ∧ t.bitF fMgtSmbstatDenied = true ∧ SameStores s t
      ∧ (∀ o, o < 0xC00000 → t.rd o = s.rd o))

/-- A write of CLRCNT by Jusia or PF0 clears the lifetime counters of its block and changes no other register
and nothing else: ARR, VEC, MEM, XLT, DMA, HRD, MUL, BWT, SAV, PWR and ERR (R120, R173, R393, R442, R572,
R603, R641, R672, R738). MEM_CTL and XLT_CTL also take their RW fields from the value. Where the rules leave
a point open it states the model's choice (log entry 14). -/
def Obligations.ClrcntClearsLifetimeCounters : Prop :=
  ∀ (r : Requester) (c : Core) (v : BitVec 32) (s : State), r = .jusia ∨ r = .pf0 →
    (∃ t, exec (.arrClrcnt r c) s = .next t ∧ OnlyCore c s t
      ∧ (∀ n, ((t.core c).arr n).satTot = 0 ∧ ((t.core c).arr n).sclTot = 0
        ∧ ((t.core c).arr n).corr = 0 ∧ ((t.core c).arr n).uncorr = 0
        ∧ ((t.core c).arr n).elem = ((s.core c).arr n).elem
        ∧ ((t.core c).arr n).satStep = ((s.core c).arr n).satStep)
      ∧ (t.core c).quad = (s.core c).quad)
    ∧ (∃ t, exec (.vecClrcnt r c) s = .next t ∧ OnlyCore c s t
      ∧ t.core c = { s.core c with satTot := 0, domTot := 0, ocCorr := 0, ocUncorr := 0 })
    ∧ (∃ t, exec (.memClrcnt r v) s = .next t
      ∧ (∀ d < 8, t.rd (rMemEcc d) = 0 ∧ t.rd (rMemBedone d) = 0 ∧ t.rd (rMemBerej d) = 0
        ∧ t.rd (rMemSat d) = 0)
      ∧ t.bitF fMemCtlScruben = v.getLsbD 1
      ∧ OnlyRegs (rMemCtl :: (List.range 8).flatMap fun d =>
          [rMemEcc d, rMemBedone d, rMemBerej d, rMemSat d]) s t)
    ∧ (∃ t, exec (.xltClrcnt r v) s = .next t
      ∧ t.rd rXltMisscnt = 0 ∧ t.rd rXltFltcnt = 0 ∧ t.rd rXltAbandon = 0
      ∧ t.rd rXltCtl = regStored rXltCtl (s.rd rXltCtl) v
      ∧ OnlyRegs [rXltCtl, rXltMisscnt, rXltFltcnt, rXltAbandon] s t)
    ∧ (∃ t, exec (.dmaClrcnt r v) s = .next t ∧ t.rd rDmaSattot = 0 ∧ t.rd rDmaDomtot = 0
      ∧ (∀ n < 16, t.rd (rDmaChDone n) = 0)
      ∧ OnlyRegs (rDmaSattot :: rDmaDomtot :: (List.range 16).map rDmaChDone) s t)
    ∧ (∃ t, exec (.hrdClrcnt r v) s = .next t
      ∧ t.rd rHrdSattot = 0 ∧ t.rd rHrdIncomp = 0 ∧ t.rd rHrdStale = 0
      ∧ OnlyRegs [rHrdSattot, rHrdIncomp, rHrdStale] s t)
    ∧ (∃ t, exec (.mulClrcnt r v) s = .next t
      ∧ (∀ n < 16, t.rd (rMulDrop n) = 0 ∧ t.rd (rMulLost n) = 0 ∧ t.rd (rMulLate n) = 0
        ∧ t.rd (rMulBad n) = 0)
      ∧ OnlyRegs ((List.range 16).flatMap fun n => [rMulDrop n, rMulLost n, rMulLate n, rMulBad n]) s t)
    ∧ (∃ t, exec (.bwtClrcnt r v) s = .next t
      ∧ t.rd rBwtCommits = 0 ∧ t.rd rBwtSkips = 0 ∧ t.rd rBwtHolds = 0 ∧ t.rd rBwtHalts = 0
      ∧ t.rd rBwtMiss = 0 ∧ t.rd rBwtListlate = 0
      ∧ OnlyRegs [rBwtCommits, rBwtSkips, rBwtHolds, rBwtHalts, rBwtMiss, rBwtListlate] s t)
    ∧ (∃ t, exec (.savClrcnt r v) s = .next t
      ∧ t.rd rSavHoldcnt = 0 ∧ t.rd rSavReread = 0 ∧ (∀ n < 4, t.getF (fSavDrvStatStray n) = 0)
      ∧ OnlyRegs (rSavHoldcnt :: rSavReread :: (List.range 4).map rSavDrvStat) s t)
    ∧ (∃ t, exec (.pwrClrcnt r v) s = .next t
      ∧ t.rd rPwrHeldw = 0 ∧ t.rd rPwrHelde = 0 ∧ (∀ q < 4, t.getF (fPwrOptStatTrips q) = 0)
      ∧ OnlyRegs (rPwrHeldw :: rPwrHelde :: (List.range 4).map rPwrOptStat) s t)
    ∧ (v.getLsbD 1 = false → ∃ t, exec (.errClrcnt r v) s = .next t
      ∧ t.rd rErrLost = 0 ∧ t.getF fErrSdstatQfull = 0 ∧ t.rd rErrSdcnt = 0
      ∧ (∀ n < 21, t.rd (rErrClasscnt n) = 0)
      ∧ OnlyRegs (rErrLost :: rErrSdstat :: rErrSdcnt :: (List.range 21).map rErrClasscnt) s t)

/-! ### Routes, sinks, completions -/

/-- A word leaves its source in an offset of its route while the source holds a credit (R269, R275,
R277): it takes one credit and joins the words in flight, from a core's port, a stack endpoint's
buffer or a landing channel; in another offset, or without a credit, nothing leaves; a credit that sets
out for the source reaches it, and credits are neither made nor lost on the way. The oldest word in flight
reaches its destination (R270, R274): a core's incoming port, a stack endpoint's buffer, or a scratchpad
sink's buffer holds it last, and the route's other words stay in flight in their order. -/
def Obligations.WordsCrossTheirRouteInOrder : Prop :=
  (∀ (j : JobSlot) (r : Fin 4096) (o : Fin 16) (s : State) (cf : RouteCfg),
    s.routeCfg j r = some cf →
    (cf.offs.getLsbD o = false ∨ (s.route j r).credits = 0 → exec (.routeWordSend j r o) s = .next s)
    ∧ (cf.offs.getLsbD o = true → 0 < (s.route j r).credits →
      (∀ c p w q, epKind cf.src = 0 → c = epIdx cf.src / 32 → p = epIdx cf.src % 32 →
        ((s.core c).port p).queue = (r.val, w) :: q → ((s.core c).port p).fault = false →
        (((s.core c).cfgOf j).map fun k => k.sends p r).getD false = true →
        ∃ t, exec (.routeWordSend j r o) s = .next t
          ∧ ((t.core c).port p).queue = q
          ∧ (t.route j r).flight = (s.route j r).flight ++ [w]
          ∧ (t.route j r).credits = (s.route j r).credits - 1
          ∧ (t.route j r).creditsBack = (s.route j r).creditsBack
          ∧ (∀ d, d ≠ c → t.core d = s.core d) ∧ t.mem = s.mem)
      ∧ (∀ w q, epKind cf.src = 1 →
        (s.ep j (epIdx cf.src / 240) (epIdx cf.src % 240)).buf = w :: q →
        ∃ t, exec (.routeWordSend j r o) s = .next t
          ∧ (t.ep j (epIdx cf.src / 240) (epIdx cf.src % 240)).buf = q
          ∧ (t.route j r).flight = (s.route j r).flight ++ [w]
          ∧ (t.route j r).credits = (s.route j r).credits - 1
          ∧ t.cores = s.cores ∧ t.reg = s.reg ∧ t.mem = s.mem)
      ∧ (∀ n w q, 4 ≤ epKind cf.src → s.chanOf r (epIdx cf.src) = some n →
        (s.landing n).words = w :: q →
        ∃ t, exec (.routeWordSend j r o) s = .next t
          ∧ (t.route j r).flight = (s.route j r).flight ++ [w]
          ∧ (t.route j r).credits = (s.route j r).credits - 1
          ∧ ((s.landing n).debts = 0 → (t.landing n).words = q)
          ∧ t.cores = s.cores ∧ t.reg = s.reg ∧ t.mem = s.mem))
    ∧ (0 < (s.route j r).creditsBack → ∃ t, exec (.creditReturn j r) s = .next t
      ∧ (t.route j r).credits = (s.route j r).credits + 1
      ∧ (t.route j r).creditsBack + 1 = (s.route j r).creditsBack
      ∧ (t.route j r).flight = (s.route j r).flight ∧ t = { s with routes := t.routes })
    ∧ ((s.route j r).creditsBack = 0 → exec (.creditReturn j r) s = .next s))
  ∧ (∀ (j : JobSlot) (r : Fin 4096) (s : State) (cf : RouteCfg) (w : SWord) (q : List SWord),
    s.routeCfg j r = some cf → (s.route j r).flight = w :: q →
    ∃ t, exec (.routeWordArrive j r) s = .next t
      ∧ (t.route j r).flight = q ∧ (t.route j r).credits = (s.route j r).credits
      ∧ t.mem = s.mem
      ∧ (epKind cf.dst = 0 → ((s.core (epIdx cf.dst / 32)).port (epIdx cf.dst % 32)).discard = false →
          ((t.core (epIdx cf.dst / 32)).port (epIdx cf.dst % 32)).queue
            = ((s.core (epIdx cf.dst / 32)).port (epIdx cf.dst % 32)).queue ++ [(r.val, w)])
      ∧ (epKind cf.dst = 1 → (t.ep j (epIdx cf.dst / 240) (epIdx cf.dst % 240)).buf
            = (s.ep j (epIdx cf.dst / 240) (epIdx cf.dst % 240)).buf ++ [w]
          ∧ t.cores = s.cores ∧ t.reg = s.reg)
      ∧ (epKind cf.dst = 3 → (t.sink j (epIdx cf.dst / 4) (epIdx cf.dst % 4)).buf
            = (s.sink j (epIdx cf.dst / 4) (epIdx cf.dst % 4)).buf ++ [(r.val, w)]
          ∧ t.cores = s.cores ∧ t.reg = s.reg))

/-- A scratchpad sink of job slot A writes the front word of its buffer and frees its place, which sends a
credit back (R274): a RAW token's 256 bytes at its base plus what it has written; a mantissa word of a TILE
token at its place among the tiles, counting it; and with the word marked LAST the first m scale bytes at the
scale base, after which its positions stand m tiles on. A sink whose range lies outside the job slot's ranges
writes nothing, marks the step incomplete and makes a PROT pending in its core's context (R270, R434). Where
the rules leave a point open it states the model's choice (log entries 12, 26 and 78). -/
def Obligations.SinkWritesItsNextPosition : Prop :=
  ∀ (c : Core) (k : Fin 4) (s : State) (r : Nat) (w : SWord) (q : List (Nat × SWord)) (cf : SinkCfg),
    (s.sink .a c k).buf = (r, w) :: q → s.sinkCfg .a c k = some cf →
    let x := s.sink .a c k
    let t := fmtBytes cf.fmt / 256
    let tile := ((s.routeCfg .a r).map (·.tile)).getD false
    ∃ u, exec (.sinkWrite c k) s = .next u
      ∧ (u.sink .a c k).buf = q
      ∧ (u.route .a r).creditsBack = (s.route .a r).creditsBack + 1
      ∧ u.mem = s.mem ∧ (∀ d, d ≠ c.val → u.core d = s.core d)
      ∧ (tile = false → s.spadOk .a c (cf.mbase + x.raw : Nat) 256 = true →
          (u.sink .a c k).raw = x.raw + 256
          ∧ ∀ p, Tab.look (fun _ => 0) (u.core c).spad p
            = if cf.mbase + x.raw ≤ p ∧ p < cf.mbase + x.raw + 256
              then (Payload.bytes w.data).getD (p - (cf.mbase + x.raw)) 0
              else Tab.look (fun _ => 0) (s.core c).spad p)
      ∧ (tile = true → x.discard = false → w.last = false → x.words < 4 * t →
          let a := cf.mbase + 256 * (x.tiles * t + x.words)
          s.spadOk .a c (a : Nat) 256 = true →
          (u.sink .a c k).words = x.words + 1 ∧ (u.sink .a c k).tiles = x.tiles
          ∧ ∀ p, Tab.look (fun _ => 0) (u.core c).spad p
            = if a ≤ p ∧ p < a + 256 then (Payload.bytes w.data).getD (p - a) 0
              else Tab.look (fun _ => 0) (s.core c).spad p)
      ∧ (tile = true → x.discard = false → w.last = true → ∀ m, 1 ≤ m → m ≤ 4 → x.words = m * t →
          s.spadOk .a c (cf.sbase + x.tiles : Nat) m = true →
          (u.sink .a c k).tiles = x.tiles + m ∧ (u.sink .a c k).words = 0
          ∧ ∀ p, Tab.look (fun _ => 0) (u.core c).spad p
            = if cf.sbase + x.tiles ≤ p ∧ p < cf.sbase + x.tiles + m
              then (Payload.bytes w.data).getD (p - (cf.sbase + x.tiles)) 0
              else Tab.look (fun _ => 0) (s.core c).spad p)
      ∧ (tile = false → s.spadOk .a c (cf.mbase + x.raw : Nat) 256 = false → (s.core c).slot = .a →
          (s.core c).bare = false → (u.core c).spad = (s.core c).spad ∧ u.bwt.incomp = true
          ∧ (0x0101, BitVec.ofNat 64 (cf.mbase + x.raw)) ∈ (u.core c).pend.prot)

/-- Completions (R299-R303, R681-R683): a die's collector takes the front entry of each of its first 8
cores that hold one, in round-robin order, while its queue has a place, and puts them into its queue in
that order; the reporter writes an entry to the completion ring of its job slot at 16 bytes times TAIL,
moves TAIL on and signals vector 1; at a full ring it writes nothing and holds. -/
def Obligations.CompletionsReachTheirRing : Prop :=
  (∀ (die : Die) (s : State),
    let d := s.dieColl die
    let cs := ((collOrder die d.start).filter fun c => !(s.core c).fifo.isEmpty).take
      (min 8 (256 - d.queue.length))
    ∃ t, exec (.collectorTake die) s = .next t
      ∧ (t.dieColl die).queue = d.queue ++ cs.filterMap (fun c => (s.core c).fifo.head?)
      ∧ (∀ c ∈ cs, (t.core c).fifo = (s.core c).fifo.tail)
      ∧ (∀ c, c ∉ cs → t.core c = s.core c)
      ∧ t.mem = s.mem ∧ t.reg = s.reg ∧ t.out = s.out)
  ∧ ∀ (s : State) (e : CmpEntry),
    s.reporter.side = false → (s.dieColl 0).queue = [e] → (s.dieColl 1).queue = [] →
    let fn : Func := if e.slotb then 1 else 0
    (s.cringFull fn = true → ∃ t, exec .completionReport s = .next t
      ∧ t.reporter.held = true ∧ t.coll = s.coll ∧ t.bar4 = s.bar4 ∧ t.out = s.out)
    ∧ (s.cringFull fn = false → ∃ t, exec .completionReport s = .next t
      ∧ (t.dieColl 0).queue = []
      ∧ (t.rd4 fn 0x2014).toNat
          = ((s.rd4 fn 0x2014).toNat + 1) % 2 ^ ((s.rd4 fn 0x2008).toNat % 32) % 2 ^ 32
      ∧ ((s.rd4 fn 28).getLsbD 0 = false → t.out = s.out ++
          [.hostWrite ((s.rd4 fn 0x2004 ++ s.rd4 fn 0x2000)
            + BitVec.ofNat 64 (16 * (s.rd4 fn 0x2014).toNat)) e.bytes false, .msix fn 1])
      ∧ ((s.rd4 fn 28).getLsbD 0 = true → (t.rd4 fn 0x800).getLsbD 1 = true)
      ∧ t.reg = s.reg ∧ t.cores = s.cores ∧ t.mem = s.mem)

/-! ### Device memory -/

/-- A memory slot of a stack (R286-R288, R357): the schedule moves on one entry, cyclically; a slot in which
no group has an endpoint or a background class touches nothing itself, the bank engines to which it gives a
group running in their own commands (R371); a READER that owns a group reads the word of its walk there and
sends it last in its buffer, with its LAST mark and with POISON for an uncorrectable codeword, while it holds
a credit; a WRITER that owns a group writes the word it received at the address of its walk, and only there,
and frees its place; it performs at most three accesses. Where the rules leave a point open it states the
model's choice (log entry 26). -/
def Obligations.MemorySlotPerformsTheSchedule : Prop :=
  ∀ (d : Stack) (waiting : BitVec 112) (s : State),
    let k := (s.stk d).sched
    ∃ t, exec (.memorySlot d waiting) s = .next t
      ∧ (t.stk d).sched = (k + 1) % s.schedLen d
      ∧ t.pending = s.pending ∧ t.imgA = s.imgA ∧ t.imgB = s.imgB
      ∧ ((∀ g < 16, s.slotUse d g k = .none ∨ ∃ j, s.slotUse d g k = .eng j) →
          t.mem = s.mem ∧ t.memEcc = s.memEcc ∧ t.eps = s.eps ∧ t.cores = s.cores
            ∧ t.routes = s.routes ∧ t.out = s.out)
      ∧ ∀ j n g cf a last off, g < 16 → s.slotUse d g k = .ep j n →
          (∀ g' < 16, g' ≠ g → s.slotUse d g' k = .none ∨ ∃ j, s.slotUse d g' k = .eng j) →
          s.epCfg j d n = some cf → cf.access (s.ep j d n).walk = some (.word a last) →
          0 ≤ a → a < (stackBytes : Int) → groupOf a.toNat = g →
          s.imgXlate j d a.toNat 256 (cf.typ == 2) = .ok off →
          (s.ep j d n).fault = none → (s.ep j d n).abandoned = false →
          (cf.typ = 1 → (s.ep j d n).buf.length < (s.route j cf.route).credits →
            let rd := (s.memRead (Acc.ofSlot j) 256 off 256).1
            t.mem = s.mem ∧ t.memEcc = s.memEcc
            ∧ (s.ep j d n).walk + 1 ≤ (t.ep j d n).walk ∧ (t.ep j d n).walk ≤ (s.ep j d n).walk + 3
            ∧ ∃ more, more.length ≤ 2 ∧ (t.ep j d n).buf = (s.ep j d n).buf ++
                ⟨Payload.ofBytes rd.bytes, last, false, !rd.bad.isEmpty, false,
                  if cf.tile then cf.t else 0⟩ :: more)
          ∧ (∀ w, cf.typ = 2 → (s.ep j d n).buf = [w] →
            (t.ep j d n).buf = [] ∧ (t.ep j d n).walk = (s.ep j d n).walk + 1
            ∧ (t.route j cf.route).creditsBack = (s.route j cf.route).creditsBack + 1
            ∧ ∀ p, Tab.look (fun _ => 0) t.mem p
              = if off ≤ p ∧ p < off + 256 then (Payload.bytes w.data).getD (p - off) 0
                else Tab.look (fun _ => 0) s.mem p)

/-! ### The Quenis image -/

/-- A load has ended with a status, the images, the cores and device memory as they were. -/
def Sys2Proof.Claims.LoadEnded (code : Nat) (s t : State) : Prop :=
  t.loader = none ∧ t.getF fImgStatusState = 0 ∧ t.getF fImgStatusCode = code
    ∧ t.getF fImgStatusDone = 1 ∧ t.imgA = s.imgA ∧ t.imgB = s.imgB ∧ t.cores = s.cores
    ∧ t.mem = s.mem ∧ t.pending = s.pending

/-- IMG_CTL (R331, R333, R336, R344, R346): GO in IDLE starts a load with the fields of the same write and
those of its registers, and a load from a READY drive issues its Reads, at most 32 blocks each, for the places
of the image in device memory (R608, R609), while one from another drive fails; GO in another state starts
nothing, ends nothing and logs; ABORT without GO in READ to WAIT ends the load with ABORTED, and vector 2
signals its end; FORCE in PENDING makes the switch forced; DEFAULT in IDLE asks for the default image and ends
a clutch (R622). No image and no core changes, and no memory but that of a drive's queues. Where the rules
leave a point open it states the model's choice (log entries 14, 28 and 50). -/
def Obligations.ImageControlActsByItsState : Prop :=
  ∀ (r : Requester) (v : BitVec 32) (s : State), r = .jusia ∨ r = .pf0 → v.getLsbD 5 = false →
    (v.getLsbD 2 = false → v.getLsbD 3 = false →
      ∃ t, exec (.imgGo r v) s = .next t
        ∧ t.imgA = s.imgA ∧ t.imgB = s.imgB ∧ t.cores = s.cores
        ∧ (s.imgState = 0 → t.getF fImgStatusState = 1
          ∧ t.getF fImgStatusSlot = (if v.getLsbD 6 then 1 else 0)
          ∧ (let l : Loader :=
              { drive := v.getLsbD 4, slot := if v.getLsbD 6 then .b else .a
                force := v.getLsbD 7, variant := (v.extractLsb' 8 12).toNat
                src := s.rd64 rImgSrcLo, len := s.rd rImgLen
                drv := BitVec.ofNat 2 (s.getF fImgDrvDrive), lba := s.rd64 rImgLbaLo
                applyt := s.rd64 rImgApplytLo, viaMailbox := none, failed := false
                bytes := [], img := none, pages := [] }
            let n := l.drv.toNat
            (l.drive = false ∨ l.rangeOk = false → t.loader = some l ∧ SameStores s t ∧ t.out = s.out)
            ∧ (l.drive = true → l.rangeOk = true → s.driveReady n = false →
              t.loader = some { l with failed := true } ∧ SameStores s t ∧ t.out = s.out)
            ∧ (l.drive = true → l.rangeOk = true → s.driveReady n = true → (s.drive n).cmds = [] →
              t.loader = some l ∧ ∀ k < (l.len.toNat + 0x1FFFF) / 0x20000, ∃ x ∈ (t.drive n).cmds,
                x.opc = opRead ∧ x.use = .image k ∧ x.lba = l.lba + BitVec.ofNat 64 (32 * k)
                ∧ x.blocks = min 32 ((l.len.toNat + 4095) / 4096 - 32 * k)
                ∧ x.addr = some (l.src + BitVec.ofNat 64 (0x20000 * k)))))
        ∧ (s.imgState ≠ 0 → t.loader = s.loader ∧ t.rd rImgStatus = s.rd rImgStatus ∧ SameStores s t))
    ∧ (v.getLsbD 0 = false →
      (∀ l, s.loader = some l → l.viaMailbox = none → 1 ≤ s.imgState → s.imgState ≤ 5 →
        ∃ t, exec (.imgAbort r v) s = .next t ∧ LoadEnded 0x19 s t ∧ SameStores s t
          ∧ ((s.rd4 0 44).getLsbD 0 = false → .msix 0 2 ∈ t.out))
      ∧ (s.imgState = 0 ∨ s.imgState = 6 → v.getLsbD 2 = false → v.getLsbD 3 = false →
        ∃ t, exec (.imgAbort r v) s = .next t ∧ OnlyRegs [rImgCtl] s t)
      ∧ (v.getLsbD 1 = false → s.imgState = 6 → ∃ t, exec (.imgForce r v) s = .next t
        ∧ t.loader = s.loader.map (fun l => { l with force := true })
        ∧ SameStores s t ∧ t.imgA = s.imgA ∧ t.imgB = s.imgB ∧ t.rd rImgStatus = s.rd rImgStatus)
      ∧ (v.getLsbD 1 = false → v.getLsbD 2 = false → ∃ t, exec (.imgDefault r v) s = .next t
        ∧ t.defPend = (s.imgState == 0 || s.defPend)
        ∧ SameStores s t ∧ t.imgA = s.imgA ∧ t.imgB = s.imgB ∧ t.loader = s.loader
        ∧ (s.imgState = 0 → t.sav.clutch = none)
        ∧ (s.sav.clutch = none → ∀ o, o ≠ rImgCtl → t.rd o = s.rd o)))

/-- The stages of a load (R331, R334, R336): READ takes the bytes from device memory, once no Read of a load
from a drive is outstanding and none has failed, and checks header and table; AUTH checks the signature and
the DEBUG flag; CHECK the sections; STAGE writes the shadow planes. Each goes on to the next state, or ends
the load with the first status that fails and leaves the job slot its image. Where the rules leave a point
open it states the model's choice (log entries 31 and 47). -/
def Obligations.LoadRunsItsStagesInOrder : Prop :=
  ∀ (s : State) (l : Loader), s.loader = some l →
    (s.imgState = 1 → ∃ t, exec (.loadRead ()) s = .next t
      ∧ (l.rangeOk = false → LoadEnded 1 s t)
      ∧ (l.rangeOk = true → l.failed = true → LoadEnded 2 s t)
      ∧ (l.rangeOk = true → l.failed = false → s.useBusy NvmeUse.ofImage = true → t = s)
      ∧ (l.rangeOk = true → l.failed = false → s.useBusy NvmeUse.ofImage = false →
        let m := (s.memRead .other 256 l.src.toNat l.len.toNat).1
        (m.bad ≠ [] → LoadEnded 2 s t)
        ∧ (m.bad = [] → headerStatus m.bytes l.len.toNat ≠ 0 →
            LoadEnded (headerStatus m.bytes l.len.toNat) s t)
        ∧ (m.bad = [] → headerStatus m.bytes l.len.toNat = 0 →
            t.getF fImgStatusState = 2 ∧ t.mem = s.mem ∧ t.cores = s.cores ∧ t.imgA = s.imgA
            ∧ t.loader = some { l with
                bytes := m.bytes, img := if 0x80 ≤ m.bytes.length then some (readImage m.bytes) else none })))
    ∧ (s.imgState = 2 → ∃ t, exec .loadAuth s = .next t
      ∧ (let code := s.sigStatus (l.bytes.take (sigOff l.bytes)) (l.bytes.drop (sigOff l.bytes))
        let dbg := (l.img.map (·.debug)) = some true ∧ s.bitF fImgKeysDebug = false
        (code ≠ 0 → LoadEnded code s t)
        ∧ (code = 0 → dbg → LoadEnded 10 s t)
        ∧ (code = 0 → ¬ dbg → t = s.setF fImgStatusState 3)))
    ∧ (s.imgState = 3 → ∃ t, exec .loadCheck s = .next t
      ∧ (s.checkStatus l.slot l.bytes l.variant ≠ 0 →
          LoadEnded (s.checkStatus l.slot l.bytes l.variant) s t)
      ∧ (s.checkStatus l.slot l.bytes l.variant = 0 → t = s.setF fImgStatusState 4))
    ∧ (s.imgState = 4 → ∃ t, exec .loadStage s = .next t
      ∧ t.getF fImgStatusState = 5 ∧ t.mem = s.mem ∧ t.imgA = s.imgA ∧ t.imgB = s.imgB
      ∧ t.cores = s.cores ∧ (∃ pages, t.loader = some { l with pages := pages }))
    ∧ (s.imgState ≠ 1 → exec (.loadRead ()) s = .next s)
    ∧ (s.imgState ≠ 2 → exec .loadAuth s = .next s)
    ∧ (s.imgState ≠ 3 → exec .loadCheck s = .next s)
    ∧ (s.imgState ≠ 4 → exec .loadStage s = .next s)

/-- The swap (R337, R338, R340, R341, R343, R346): a full image replaces the image of its job slot in one swap
when the slot is idle, with its IMAGE_ID and its CORE sections; a slot that is not idle at a non-zero
IMG_APPLYT ends the load with APPLY_BUSY, and with a zero one it waits; job slot B's swap waits while slot B
is resident or a bubble window is open; a partial image leaves its sections to its cores; a core that is quiet
and whose ports are between tokens takes its section, its sequencer in reset state and its vector registers,
operand cache and accumulators kept. The default image takes job slot A when it was asked for and the slot is
idle, and unloads job slot B. Where the rules leave a point open it states the model's choice (log entries 25
and 51). -/
def Obligations.ImageTakesEffectInAnIdleSlot : Prop :=
  (∀ (s : State) (l : Loader) (i : Image), s.loader = some l → l.img = some i → s.imgState = 5 →
    (l.slot = .b → s.bResident = true ∨ s.windowOpen = true → exec .imageSwap s = .next s)
    ∧ (i.partImg = false → s.slotIdle l.slot = false →
      (l.slot = .b → s.bResident = false ∧ s.windowOpen = false) →
      (l.applyt = 0 → exec .imageSwap s = .next s)
      ∧ (l.applyt ≠ 0 → ∃ t, exec .imageSwap s = .next t ∧ LoadEnded 0x18 s t))
    ∧ (i.partImg = false → s.slotIdle l.slot = true →
      (l.slot = .b → s.bResident = false ∧ s.windowOpen = false) →
      ∃ t, exec .imageSwap s = .next t
        ∧ t.loader = none ∧ t.getF fImgStatusState = 0 ∧ t.getF fImgStatusCode = 0
        ∧ t.getF fImgStatusDone = 1 ∧ t.mem = s.mem ∧ t.pending = s.pending
        ∧ (l.slot = .a → t.imgA = some i ∧ t.rd64 rImgIdaLo = i.id
          ∧ (i.chipmap = none → ∀ c < 256,
              (t.core c).cfgA = i.cores.find? fun d => d.core == c))
        ∧ (l.slot = .b → t.imgB = some i ∧ t.imgA = s.imgA
          ∧ t.rd64 rImgIdbLo = i.id
          ∧ t.getF fXltStatusBloaded = 1
          ∧ ∀ c < 256, (t.core c).cfgB = i.cores.find? fun d => d.core == c))
    ∧ (i.partImg = true → s.okBase l.slot i = false → l.slot = .a →
      ∃ t, exec .imageSwap s = .next t ∧ LoadEnded 0x16 s t))
  ∧ (∀ (c : Core) (s : State) (l : Loader) (cf : CoreCfg),
    s.loader = some l → l.slot = .a → s.imgState = 6 → (s.core c).nextA = some cf →
    (s.core c).slot = .a → (s.core c).bare = false → (s.core c).switching = false →
    ((s.core c).quiet = false → exec (.coreSwitch c) s = .next s)
    ∧ ((s.core c).cutPorts ≠ [] → l.force = false → exec (.coreSwitch c) s = .next s)
    ∧ ((s.core c).quiet = true → (s.core c).cutPorts = [] → ∃ t, exec (.coreSwitch c) s = .next t
      ∧ (t.core c).cfgA = some cf ∧ (t.core c).nextA = none ∧ (t.core c).pc = 0
      ∧ (t.core c).stopped = false ∧ (t.core c).sregs = [] ∧ (t.core c).mregs = []
      ∧ (t.core c).vregs = (s.core c).vregs ∧ (t.core c).ocache = (s.core c).ocache
      ∧ (t.core c).arrays = (s.core c).arrays
      ∧ (∀ d, d ≠ c.val → t.core d = s.core d) ∧ t.mem = s.mem
      ∧ (t.coresWait .a = false → l.img.isSome = true →
          t.loader = none ∧ t.getF fImgStatusState = 0 ∧ t.getF fImgStatusCode = 0)))
  ∧ ∀ s : State,
    (s.defPend = false ∨ s.slotIdle .a = false → exec .defaultImageApply s = .next s)
    ∧ (s.defPend = true → s.slotIdle .a = true → ∃ t, exec .defaultImageApply s = .next t
      ∧ t.imgA = none ∧ t.imgB = none ∧ t.defPend = false ∧ t.rd64 rImgIdaLo = 0
      ∧ t.mem = s.mem ∧ ∀ c < 256, (t.core c).cfgA = none)

/-! ### The bank engines -/

/-- A command enters and leaves a context queue (R372-R375): a command token of a CMD endpoint joins its
context's queue behind the others when its last word is there, with its payload, and its words free their
places; without a place, or without the payload's buffer, it waits; the doorbell of the host ring posts TAIL,
and the entry it posts joins the queue of context H of its stack, where neither it nor its payload lies in job
slot B's grant or beyond memory (R399) and no earlier command has claimed the buffer; the front command
completes when all its units have run and what it sent has been placed: it leaves the queue and is counted in
MEM_BEDONE; a command that R375 rejects leaves it with no effect on memory, counted in MEM_BEREJ, and for
context A the incomplete bit is set. Where the rules leave a point open it states the model's choice (log
entry 27). -/
def Obligations.BankCommandsRunInQueueOrder : Prop :=
  (∀ (d : Stack) (n : Fin 240) (s : State) (e : EpCfg) (w : SWord) (p q : List SWord),
    s.epCfg .a d n = some e → e.typ = 3 → (s.ep .a d n).buf = (w :: p) ++ q →
    firstToken (s.ep .a d n).buf = some (w :: p) → s.bwt.lists = [] → s.sav.clutch = none →
    ((s.stk d).takes .a (!p.isEmpty) = false → exec (.bankCommandToken d n) s = .next s)
    ∧ ((s.stk d).takes .a (!p.isEmpty) = true → w.data.extractLsb' 512 1536 = 0 → p.length ≤ 256 →
      (∀ b ∈ (s.stk d).qa, beKnown (beOp b.cmd) = true) →
      beKnown (beOp (w.data.extractLsb' 0 512)) = true →
      ∃ t, exec (.bankCommandToken d n) s = .next t
        ∧ (t.stk d).qa = (s.stk d).qa ++ [{
            cmd := w.data.extractLsb' 0 512
            payload := p.flatMap fun v => Payload.bytes v.data
            origin := .route (routeKey .a e.route), pos := freePos (s.stk d).qa, units := 0
            poisoned := (w :: p).any fun v => v.poison || v.invalid
            acc := 0, res := [] }]
        ∧ (t.ep .a d n).buf = q
        ∧ (t.route .a e.route).creditsBack = (s.route .a e.route).creditsBack + (p.length + 1)
        ∧ t.mem = s.mem ∧ t.reg = s.reg ∧ t.cores = s.cores ∧ t.pending = s.pending))
  ∧ (∀ (r : Requester) (v : BitVec 32) (s : State), r = .jusia ∨ r = .pf0 →
    (2 ^ s.getF fMemHrsizeLog2 < ringAhead (v.toNat % 65536) (s.getF fMemHrheadHead) →
      exec (.memHrtail r v) s = .next (s.logCsr 1 rMemHrtail v.toNat))
    ∧ (ringAhead (v.toNat % 65536) (s.getF fMemHrheadHead) ≤ 2 ^ s.getF fMemHrsizeLog2 →
      (s.hring.fetch = v.toNat % 65536 → ∃ t, exec (.memHrtail r v) s = .next t
        ∧ t.getF fMemHrtailTail = v.toNat % 65536 ∧ OnlyRegs [rMemHrtail] s t)
      ∧ ((s.hring.fetch + 1) % 65536 = v.toNat % 65536 → s.memEcc = [] →
        let m := (s.memRead .other 256 (s.ringAddr s.hring.fetch) 128).1.bytes
        let d := fieldLe m 64 1
        ringOk m = true → (s.stk d).takes .h (fieldLe m 66 2 != 0) = true →
        (fieldLe m 66 2 = 0 ∨ (s.stk d).turn none = true) →
        s.ringBarred (s.ringAddr s.hring.fetch) 128 = false →
        s.ringBarred (fieldLe m 72 8) (256 * fieldLe m 66 2) = false →
        (∀ b ∈ (s.stk d).qh, beKnown (beOp b.cmd) = true) →
        beKnown (beOp (BitVec.ofNat 512 (leNat (m.take 64)))) = true →
        ∃ t, exec (.memHrtail r v) s = .next t
          ∧ t.getF fMemHrtailTail = v.toNat % 65536
          ∧ (t.stk d).qh = (s.stk d).qh ++ [{
              cmd := BitVec.ofNat 512 (leNat (m.take 64))
              payload := Tab.lookList (fun _ => 0) s.mem (fieldLe m 72 8) (256 * fieldLe m 66 2)
              origin := .ring s.hring.fetch, pos := freePos (s.stk d).qh, units := 0
              poisoned := false, acc := 0, res := [] }]
          ∧ t.mem = s.mem ∧ t.cores = s.cores)))
  ∧ ∀ (d : Stack) (x : BeCtx) (s : State) (b : BeCmd) (q : List BeCmd) (n : Nat),
    (s.stk d).queue x = b :: q → b.origin = .route n → s.bwt.lists = [] →
    s.hring.fetch = s.getF fMemHrtailTail → (∀ b' ∈ q, beKnown (beOp b'.cmd) = true) →
    (s.beStart d x b = none →
      (b.units < beNt b.cmd → exec (.bankCommandComplete d x) s = .next s)
      ∧ (beNt b.cmd ≤ b.units → s.beSent x b.cmd = true → ∃ t,
        exec (.bankCommandComplete d x) s = .next t
        ∧ (t.stk d).queue x = q
        ∧ (t.rd (rMemBedone d)).toNat = incSat 32 (s.rd (rMemBedone d)).toNat 1
        ∧ (beOp b.cmd ≠ 6 → t.mem = s.mem ∧ OnlyRegs [rMemBedone d] s { t with stks := s.stks })
        ∧ (beOp b.cmd = 6 → let o := s.beOff x b.origin d (beBase b.cmd 7 * 2 ^ 18) true
          ∀ a, Tab.look (fun _ => 0) t.mem a
            = if o ≤ a ∧ a < o + 256 then (leBytes 8 b.acc.toNat).getD (a - o) 0
              else Tab.look (fun _ => 0) s.mem a)
        ∧ t.cores = s.cores ∧ t.pending = s.pending))
    ∧ (b.units = 0 → s.beReject x d b = some none → ∃ t,
      exec (.bankCommandComplete d x) s = .next t
      ∧ (t.stk d).queue x = q ∧ t.mem = s.mem ∧ t.memEcc = s.memEcc
      ∧ (t.rd (rMemBerej d)).toNat = incSat 32 (s.rd (rMemBerej d)).toNat 1
      ∧ t.rd (rMemBedone d) = s.rd (rMemBedone d)
      ∧ (x = .a → t.bwt.incomp = true) ∧ (x ≠ .a → t.bwt.incomp = s.bwt.incomp)
      ∧ t.cores = s.cores ∧ t.pending = s.pending)

/-- Bytes put into memory one list after another. -/
def Sys2Proof.Claims.puts (m : Tab Byte) (l : List (Nat × List Byte)) : Tab Byte :=
  l.foldl (fun m e => Tab.putList (fun _ => 0) m e.1 e.2) m

/-- The writes of `k` delta words to the undo log, in order, `k` words per unit (R380). -/
def Sys2Proof.Claims.logPuts (s : State) (x : BeCtx) (d : Nat) (b : BeCmd) (u k : Nat)
    (dl : List Byte) : List (Nat × List Byte) :=
  (List.range k).map fun w =>
    (s.beOff x b.origin d (beAt b.cmd 6 (u % 64) (u / 64 * (k * 256) + 256 * w)) true,
      (dl.drop (256 * w)).take 256)

/-- The writes of the working tile and its scale byte (R379). -/
def Sys2Proof.Claims.workPuts (s : State) (x : BeCtx) (d : Nat) (b : BeCmd) (u : Nat) (w : List Int)
    (sw : Int) : List (Nat × List Byte) :=
  let q := quant w sw 8 none (beP b.cmd 2).toNat
    (srWord (s.beKey x b.cmd (beStream b.cmd + 1)) ((beTbase b.cmd + u) % 2 ^ 22)) false
  [(s.beOff x b.origin d (beTile b.cmd 7 1024 u) true, packMant 8 q.y),
   (s.beOff x b.origin d (striped ((beBase b.cmd 7 + 1) * 2 ^ 18) (u % 64) (u / 64)) true,
      leInt 1 q.scale)]

/-- Words join the buffer of the endpoint at which a command's route begins; with ROUTE 0xFFFF
nothing is sent. -/
def Sys2Proof.Claims.Sends (s t : State) (x : BeCtx) (c : BitVec 512) (ws : List SWord) : Prop :=
  (beRoute c = 0xFFFF → t.eps = s.eps)
  ∧ ∀ cf, beRoute c ≠ 0xFFFF → s.routeCfg (ctxSlot x) (beRoute c) = some cf →
    let n := epIdx cf.src
    (t.ep (ctxSlot x) (n / 240) (n % 240)).buf = (s.ep (ctxSlot x) (n / 240) (n % 240)).buf ++ ws

/-- One unit of a bank-engine command, in a memory slot that gives its context the engines of the unit's bank
group (R371; in another slot nothing runs), over memory without codeword errors (R378-R386): the bytes that
FEMA, OWNUPD, UNDO, XWRITE, PAPPLY and WREAD write, in order, and nothing else of memory; the delta words and
the result words that go on ROUTE; what DIGEST adds to its sum; what SNAP sends of a word. The command then
stands one unit further at the front of its queue. Where the rules leave a point open it states the model's
choice (log entry 27). -/
def Obligations.BankUnitsFollowTheirRules : Prop :=
  ∀ (d : Stack) (x : BeCtx) (s : State) (b : BeCmd) (q : List BeCmd),
    (s.stk d).queue x = b :: q → b.poisoned = false → s.memEcc = [] → b.units < beNt b.cmd →
    s.beStart d x b = none →
    (∀ n, s.beGiven d x b = false → exec (.beFema d x n) s = .next s ∧ exec (.beOwnupd d x n) s = .next s
      ∧ exec (.beUndo d x n) s = .next s ∧ exec (.beXwrite d x n) s = .next s
      ∧ exec (.bePapply d x n) s = .next s ∧ exec (.beDigest d x n) s = .next s
      ∧ exec (.beWread d x n) s = .next s ∧ exec (.beSnap d x n) s = .next s)
    ∧ (s.beGiven d x b = true →
    let c := b.cmd
    let u := b.units
    let rb (a n : Nat) : List Byte := (s.beRead x d b a n).1.bytes
    let at' (a : Nat) : Nat := s.beOff x b.origin d a true
    let sc (a : Nat) : Int := toS 8 (leNat (rb a 1))
    let ran (t : State) : Prop := (∃ b', (t.stk d).queue x = b' :: q ∧ b'.cmd = c ∧ b'.units = u + 1
        ∧ b'.payload = b.payload) ∧ t.memEcc = [] ∧ t.cores = s.cores ∧ t.pending = s.pending
      ∧ t.bwt = s.bwt ∧ t.imgA = s.imgA ∧ t.imgB = s.imgB
    (beOp c = 1 → ∃ t, exec (.beFema d x 1) s = .next t ∧ ran t
      ∧ (let n := (beP c 0).toNat
        let k := 2 ^ (beP c 1).toNat
        let el (r i : Nat) : Int := (b.payload.getD (r * (32 * n) + i) 0).toInt
        let old := rb (beTile c 0 2048 u) 2048
        let new := packMant 16 ((unpackMant 16 old).mapIdx fun e v =>
          let sum := ((List.range k).map fun r =>
            el r (32 * (u / n) + e / 32) * el r (32 * (u % n) + e % 32)).sum
          (ovfw (v + rneShr (align sum (2 * beP c 2) (sc (beTile c 1 1 u) + beP c 1) - v)
            (beP c 3).toNat) 16 (beOvf c)).1)
        let dl := List.zipWith (· ^^^ ·) old new
        t.mem = puts s.mem ((at' (beTile c 0 2048 u), new) :: logPuts s x d b u 8 dl)
          ∧ Sends s t x c (rawToken dl false)))
    ∧ (beOp c = 2 → ∃ t, exec (.beOwnupd d x 1) s = .next t ∧ ran t
      ∧ (let om := rb (beTile c 2 2048 u) 2048
        let ow := rb (beTile c 4 4096 u) 4096
        let sm := sc (beTile c 3 1 u)
        let sw := sc (beTile c 5 1 u)
        let m' (e : Nat) (m : Int) : Int := (ovfw (m + rneShr
          (align ((unpackMant 16 (rb (beTile c 0 2048 u) 2048)).getD e 0) (sc (beTile c 1 1 u)) sm - m)
          (beP c 0).toNat) 16 (beOvf c)).1
        let w' (e : Nat) (w : Int) : Int := (ovfw (w - shiftRound
          (m' e ((unpackMant 16 om).getD e 0) * beG c) (sw - (sm + beP c 1))
          (srWord (s.beKey x c (beStream c)) ((beTbase c + u) % 2 ^ 22) e)) 32 (beOvf c)).1
        let ws := (unpackMant 32 ow).mapIdx w'
        let nm := packMant 16 ((List.range (unpackMant 32 ow).length).map fun e =>
          m' e ((unpackMant 16 om).getD e 0))
        let nw := packMant 32 ws
        let dl := List.zipWith (· ^^^ ·) om nm ++ List.zipWith (· ^^^ ·) ow nw
        t.mem = puts s.mem ((at' (beTile c 2 2048 u), nm) :: (at' (beTile c 4 4096 u), nw)
            :: (workPuts s x d b u ws sw ++ logPuts s x d b u 24 dl))
          ∧ Sends s t x c (rawToken dl false)))
    ∧ (beOp c = 3 → ∃ t, exec (.beUndo d x 1) s = .next t ∧ ran t
      ∧ (let lg := (List.range 24).flatMap fun w =>
          rb (beAt c 6 (u % 64) (u / 64 * (24 * 256) + 256 * w)) 256
        let om := rb (beTile c 2 2048 u) 2048
        let nw := List.zipWith (· ^^^ ·) (rb (beTile c 4 4096 u) 4096) (lg.drop 2048)
        t.mem = puts s.mem ((at' (beTile c 2 2048 u), List.zipWith (· ^^^ ·) om lg)
            :: (at' (beTile c 4 4096 u), nw)
            :: workPuts s x d b u (unpackMant 32 nw) (sc (beTile c 5 1 u)))
          ∧ t.eps = s.eps))
    ∧ (beOp c = 4 → ∃ t, exec (.beXwrite d x 1) s = .next t ∧ ran t
      ∧ (let a := rb (beTile c 0 2048 u) 2048
        let sa := rb (beTile c 1 1 u) 1
        let dl := List.zipWith (· ^^^ ·) (rb (beTile c 4 2048 u) 2048) a
        let ds := List.zipWith (· ^^^ ·) (rb (beTile c 5 1 u) 1) sa
        t.mem = puts s.mem ((at' (beTile c 4 2048 u), a) :: (at' (beTile c 5 1 u), sa)
            :: (logPuts s x d b u 8 dl ++ [(at' (beTile c 7 1 u), ds)]))
          ∧ Sends s t x c (rawToken
              (dl ++ padTo 256 (List.replicate (beTile c 5 1 u % 256) 0 ++ ds)) false)))
    ∧ (beOp c = 5 → ∃ t, exec (.bePapply d x 1) s = .next t ∧ ran t ∧ t.eps = s.eps
      ∧ t.mem = puts s.mem [(at' (beWord c 4 u),
          List.zipWith (· ^^^ ·) (rb (beWord c 4 u) 256) (rb (beWord c 0 u) 256))])
    ∧ (beOp c = 6 → ∃ t, exec (.beDigest d x 1) s = .next t ∧ ran t ∧ t.eps = s.eps
      ∧ t.mem = s.mem
      ∧ ((t.stk d).queue x).head?.map (·.acc) = some (b.acc + ((List.range 32).map fun i =>
          mix64 (BitVec.ofNat 64 (fieldLe (rb (beWord c 0 u) 256) (8 * i) 8) ^^^
            (BitVec.ofNat 64 (32 * u + i) * 0x9E6B3C1D5A27F843#64))).sum))
    ∧ (beOp c = 7 → ∃ t, exec (.beWread d x 1) s = .next t ∧ ran t
      ∧ (let width := if beP c 0 = 1 then 8 else 4
        let v : Int := (List.range (beP c 1).toNat).foldl (fun acc kc =>
          let o := u / 64 * (beP c 1).toNat + kc
          let ws := unpackMant width (rb (beAt c 0 (u % 64) (o * 512)) 512)
          let xs := unpackMant 8 ((b.payload.drop (kc * ws.length)).take ws.length)
          (ovfw (acc + align (List.zipWith (· * ·) ws xs).sum
            (sc (beAt c 1 (u % 64) o) + beP c 2) (beP c 3)) 32 (beOvf c)).1) 0
        t.mem = puts s.mem [(at' (beBase c 7 * 2 ^ 18 + 4 * u),
            leBytes 4 (BitVec.ofInt 32 v).toNat)]
          ∧ (u % 64 ≠ 63 → u + 1 ≠ beNt c → t.eps = s.eps)))
    ∧ (beOp c = 8 → ∃ t, exec (.beSnap d x 1) s = .next t ∧ ran t ∧ t.mem = s.mem
      ∧ (s.snapNamed d b = none → Sends s t x c
          [⟨Payload.ofBytes (rb (beWord c 0 u) 256), (u + 1) % 4096 == 0 || u + 1 == beNt c,
            false, false, false, 0⟩])))

/-! ### Translation -/

/-- Translation buffers and windows (R402, R408, R411, R416, R419, R420): an invalidation takes the entries
that it matches out of all four buffers, marks the walks that began before it, and shows INVBUSY until they
have ended; a second one in the meantime is ignored and logs; a walk that succeeds puts its entry last in the
fill order, the first leaving a full buffer, and its access goes on; one that fails fills nothing; the timeout
and Jusia's decision turn an unresolved window fault into an XLT exception of the core at the endpoint's far
end, pending beside those that wait, or abandon the walk where no core is there; a walk reads an entry only in
a memory slot that serves class WALK in the entry's group (R404); marking a window page MISSING changes that
page alone. Where the rules leave a point open it states the model's choice (log entry 59). -/
def Obligations.TranslationBuffersAndWindowFaults : Prop :=
  (∀ (r : Requester) (v : BitVec 32) (s : State), r = .jusia ∨ r = .pf0 →
    (s.bitF fXltStatusInvbusy = true →
      exec (.xltInv r v) s = .next (s.logCsr 2 rXltInv v.toNat))
    ∧ (s.bitF fXltStatusInvbusy = false → v.toNat % 4 = 3 →
      exec (.xltInv r v) s = .next (s.logCsr 1 rXltInv v.toNat))
    ∧ (s.bitF fXltStatusInvbusy = false → v.toNat % 4 ≠ 3 →
      let j := if v.getLsbD 2 then JobSlot.b else JobSlot.a
      let va := s.rd64 rXltInvvaLo
      ∃ t, exec (.xltInv r v) s = .next t
        ∧ t.bitF fXltStatusInvbusy = true ∧ t.invBusy = some (v.toNat % 4, j, va)
        ∧ (∀ b, (t.xbuf b).entries = (s.xbuf b).entries.filter fun e =>
            !(v.toNat % 4 == 2 || (e.slot == j && (v.toNat % 4 == 0 || e.covers j va.toNat))))
        ∧ (∀ b, (t.xbuf b).walks.length = (s.xbuf b).walks.length)
        ∧ (∀ b w, w ∈ ((t.xbuf b).walks.take 4) → w.miss = true → w.old = true)
        ∧ OnlyRegs [rXltStatus] s { t with xbufs := s.xbufs, invBusy := s.invBusy }))
  ∧ (∀ s : State,
    ((∃ b, (s.xbuf b).walks.any (·.old) = true) → exec .invalidationComplete s = .next s)
    ∧ ((∀ b, (s.xbuf b).walks.any (·.old) = false) → s.invBusy.isSome = true →
      ∃ t, exec .invalidationComplete s = .next t
        ∧ t.bitF fXltStatusInvbusy = false ∧ t.invBusy = none
        ∧ OnlyRegs [rXltStatus] s { t with invBusy := s.invBusy }))
  ∧ (∀ (d : Stack) (n : Fin 240) (s : State),
    (s.heldFault .a d n = none → s.heldFault .b d n = none →
      exec (.xltTimeout d n) s = .next s ∧ exec (.jusiaFaultDecision d n) s = .next s)
    ∧ ∀ (e : EpCfg) (f : HeldFault) (i : Instr), s.heldFault .a d n = some (e, f) →
      i = .xltTimeout d n ∨ i = .jusiaFaultDecision d n →
      ∃ t, exec i s = .next t ∧ t.mem = s.mem ∧ t.pending = s.pending
        ∧ (∀ c p, s.farPort .a e = some (c, p) → (s.core c).slot = .a → (s.core c).bare = false →
            (t.ep .a d n).fault = some { f with raised := true }
            ∧ (t.core c).pend.xlt = (if (s.core c).pend.xlt.contains (p, f.off)
                then (s.core c).pend.xlt else (s.core c).pend.xlt ++ [(p, f.off)])
            ∧ (t.core c).pend.prot = (s.core c).pend.prot
            ∧ ∀ c', c' ≠ c → t.core c' = s.core c')
        ∧ (s.farPort .a e = none →
            (t.ep .a d n).fault = none ∧ (t.ep .a d n).abandoned = true ∧ t.cores = s.cores))
  ∧ (∀ (j : JobSlot) (w : Fin 256) (p : BitVec 16) (s : State),
    (((s.windowsOf j).getD [])[w.val]? = none → exec (.winMarkMissing j w p) s = .next s)
    ∧ ∀ cf, ((s.windowsOf j).getD [])[w.val]? = some cf →
      (cf.npage ≤ p.toNat → exec (.winMarkMissing j w p) s = .next s)
      ∧ (p.toNat < cf.npage → ∃ t, exec (.winMarkMissing j w p) s = .next t
        ∧ (t.winPage j w p.toNat).state = 1
        ∧ (∀ k, k ≠ pageKey j w p.toNat →
            Tab.look (fun _ => WinPage.reset) t.pages k = Tab.look (fun _ => WinPage.reset) s.pages k)
        ∧ OnlyRegs [rXltWmiss] s { t with pages := s.pages }))
  ∧ ∀ (b : XBuf) (w : XWalk) (s : State),
    let top := s.topAt w.slot w.va.toNat
    ((s.xbuf b).walks = [] → exec (.tableWalk b) s = .next s)
    ∧ (∀ q, (s.xbuf b).walks = w :: q → (s.xbuf b).ptr = none → top + 8 ≤ memTop → s.givenAt top ≠ .cls 1 →
      exec (.tableWalk b) s = .next s)
    ∧ (∀ p, (s.walkTop w.slot w.va.toNat).1 = .table p → (s.xbuf b).walks = [w] → s.memEcc = [] →
      (s.xbuf b).ptr = none → s.walkServed top = true → s.walkServed (lowAt p w.va.toNat) = false →
      exec (.tableWalk b) s = .next (s.setXbuf b { s.xbuf b with ptr := some (BitVec.ofNat 64 p) }))
    ∧ (∀ fn off n r, (s.xbuf b).walks = [w] → s.memEcc = [] → w.waiter = .read fn off n →
      ((s.xbuf b).ptr = none ∧ s.walkServed top = true
          ∧ (∀ p, (s.walkTop w.slot w.va.toNat).1 = .table p → s.walkServed (lowAt p w.va.toNat) = true)
          ∧ r = (s.walk w.slot w.va.toNat).1)
        ∨ (∃ p, (s.xbuf b).ptr = some p ∧ s.walkServed (lowAt p.toNat w.va.toNat) = true
          ∧ r = (s.walkLow p.toNat w.va.toNat).1) →
      ∃ t, exec (.tableWalk b) s = .next t ∧ (t.xbuf b).walks = [] ∧ (t.xbuf b).ptr = none ∧ t.mem = s.mem
        ∧ (∀ b', b' ≠ b → t.xbuf b' = s.xbuf b') ∧ t.cores = s.cores
        ∧ (∀ l, r = .leaf l →
          let e := XEntry.ofLeaf w.slot w.va.toNat l
          (s.fillStale w e = true → (t.xbuf b).entries = (s.xbuf b).entries)
          ∧ (s.fillStale w e = false →
            ((s.xbuf b).entries.any fun y => y.slot == e.slot && y.big == e.big && y.vpage == e.vpage)
              = false →
            (t.xbuf b).entries = (if 256 ≤ (s.xbuf b).entries.length then (s.xbuf b).entries.drop 1
              else (s.xbuf b).entries) ++ [e])
          ∧ (∀ ph, s.through e w.va.toNat n false = .ok ph →
            t.out = s.out ++ [.bar2Data fn (Tab.lookList (fun _ => 0) s.mem ph n) false]))
        ∧ (∀ f, r = .fault f → (t.xbuf b).entries = (s.xbuf b).entries
          ∧ t.getF fXltFltcntBuf = incSat fXltFltcntBuf.width (s.getF fXltFltcntBuf) 1
          ∧ .bar2Abort fn false ∈ t.out))

/-! ### DMA channels -/

/-- The first GiB of a job slot's virtual offsets maps to itself for the DMA channels, and the memory
there is this device's. -/
def Sys2Proof.Claims.IdMapped (s : State) (j : JobSlot) : Prop :=
  (∀ va n w, 0 < n → va + n ≤ 2 ^ 30 →
      ∃ e, s.xhit .dma j va = some e ∧ s.through e va n w = .ok va)
    ∧ ∀ a, a < 2 ^ 30 → s.place j a = .here

/-- The next descriptor of an enabled channel with nothing started is `d`: accepted, of one unit, with
all its addresses in the first GiB of device memory. -/
def Sys2Proof.Claims.DmaReady (s : State) (ch : Fin 16) (d : BitVec 512) : Prop :=
  s.bitF (fDmaChCtlEn ch) = true ∧ s.chStopped ch = false
    ∧ s.chNext ch ≠ s.getF (fDmaChTailTail ch) ∧ (s.chan ch).started = []
    ∧ (s.chan ch).resumeAt = none ∧ (s.chan ch).fetch = none
    ∧ (s.chFetch ch (s.chNext ch)).1 = some (.ok d)
    ∧ dOk d = true ∧ dNt d = 1 ∧ dFlag d 2 = false ∧ dFlag d 3 = false ∧ dFlag d 4 = false
    ∧ IdMapped s (s.chSlot ch) ∧ s.chEntry ch (s.chNext ch) + 64 ≤ 2 ^ 30
    ∧ s.memEcc = [] ∧ s.loader = none
    ∧ (dOp d ≠ 2 → dF d 8 8 + 0x2000 ≤ 2 ^ 30) ∧ dF d 16 8 + 0x2000 ≤ 2 ^ 30
    ∧ (3 ≤ dOp d → dF d 24 8 + 1 ≤ 2 ^ 30)

/-- A channel starts its next descriptor and performs its unit (R421, R423, R425, R426, R428): COPY moves the
word, FILL repeats the pattern, IMPORT writes the mantissas and the scale of the converted tile, EXPORT the
converted values; PROG is 1, and no other byte of memory changes. A disabled or stopped channel, or one with
nothing posted, starts nothing, and neither does a command for another operation; a descriptor that R424
rejects stops the channel with STAT REJECT and leaves the memory that it names; a ring entry whose page misses
in the channels' buffer starts a walk, counted in XLT_MISSCNT, and the channel starts nothing while it lasts
(R416). Where the rules leave a point open it states the model's choice (log entry 34). -/
def Obligations.ChannelPerformsItsDescriptor : Prop :=
  (∀ (ch : Fin 16) (i : Instr) (s : State),
    i = .dmaCopy ch ∨ i = .dmaFill ch ∨ i = .importTiles ch ∨ i = .exportTiles ch →
    s.bitF (fDmaChCtlEn ch) = false ∨ s.chStopped ch = true
      ∨ s.chNext ch = s.getF (fDmaChTailTail ch) → exec i s = .next s)
  ∧ (∀ (ch : Fin 16) (d : BitVec 512) (s : State), DmaReady s ch d →
    let src := dF d 8 8
    let dst := dF d 16 8
    let m (p : Nat) : Byte := Tab.look (fun _ => 0) s.mem p
    let ran (t : State) : Prop :=
      (t.chan ch).started = [⟨s.chNext ch, d, 1, 1, true, [], 0, false, false⟩]
        ∧ t.rd (rDmaChProg ch) = 1 ∧ t.cores = s.cores ∧ t.out = s.out ∧ t.pending = s.pending
    (dOp d = 1 → ∃ t, exec (.dmaCopy ch) s = .next t ∧ ran t
      ∧ ∀ p, Tab.look (fun _ => 0) t.mem p
        = if dst ≤ p ∧ p < dst + 256 then m (src + (p - dst)) else m p)
    ∧ (dOp d = 2 → ∃ t, exec (.dmaFill ch) s = .next t ∧ ran t
      ∧ ∀ p, Tab.look (fun _ => 0) t.mem p
        = if dst ≤ p ∧ p < dst + 256 then BitVec.ofNat 8 (src / 256 ^ ((p - dst) % 8)) else m p)
    ∧ (dOp d = 3 → ∃ t, exec (.importTiles ch) s = .next t ∧ ran t
      ∧ (let v := importTile d (((s.image (s.chSlot ch)).map (·.seed)).getD 0) 0
          (Tab.lookList (fun _ => 0) s.mem src (dTile d))
        t.mem = puts s.mem [(dst, v.mant), (dF d 24 8, [v.scale])]
        ∧ (t.rd rDmaSattot).toNat = incSat 32 (s.rd rDmaSattot).toNat v.sats
        ∧ (t.rd rDmaDomtot).toNat = incSat 32 (s.rd rDmaDomtot).toNat v.doms))
    ∧ (dOp d = 4 → ∃ t, exec (.exportTiles ch) s = .next t ∧ ran t
      ∧ (let v := exportTile d (Tab.lookList (fun _ => 0) s.mem src (fmtBytes (dW d))) (m (dF d 24 8))
        t.mem = puts s.mem [(dst, v.1)]
        ∧ (t.rd rDmaSattot).toNat = incSat 32 (s.rd rDmaSattot).toNat v.2)))
  ∧ (∀ (ch : Fin 16) (d : BitVec 512) (op : Nat) (s : State),
    (s.chan ch).started = [] → (s.chFetch ch (s.chNext ch)) = (some (.ok d), s) → dOk d = true → dOp d ≠ op →
    (op = 1 → exec (.dmaCopy ch) s = .next s) ∧ (op = 2 → exec (.dmaFill ch) s = .next s)
    ∧ (op = 3 → exec (.importTiles ch) s = .next s) ∧ (op = 4 → exec (.exportTiles ch) s = .next s))
  ∧ (∀ (ch : Fin 16) (d : BitVec 512) (s : State),
    s.bitF (fDmaChCtlEn ch) = true → s.chStopped ch = false →
    s.chNext ch ≠ s.getF (fDmaChTailTail ch) → (s.chan ch).started = [] →
    (s.chFetch ch (s.chNext ch)).1 = some (.ok d) → dOk d = false →
    IdMapped s (s.chSlot ch) → s.chEntry ch (s.chNext ch) + 64 ≤ 2 ^ 30 → s.memEcc = [] →
    ∃ t, exec (.dmaCopy ch) s = .next t
      ∧ t.chStopped ch = true ∧ t.getF (fDmaChStatusCode ch) = 5 ∧ (t.chan ch).started = []
      ∧ ∀ p, p < s.chEntry ch (s.chNext ch) ∨ s.chEntry ch (s.chNext ch) + 64 ≤ p →
          Tab.look (fun _ => 0) t.mem p = Tab.look (fun _ => 0) s.mem p)
  ∧ ∀ (ch : Fin 16) (s : State),
    s.bitF (fDmaChCtlEn ch) = true → s.chStopped ch = false →
    s.chNext ch ≠ s.getF (fDmaChTailTail ch) → (s.chan ch).fetch = none →
    s.xhit .dma (s.chSlot ch) (s.chEntry ch (s.chNext ch)) = none →
    ∃ t, exec (.dmaCopy ch) s = .next t
      ∧ t.chan ch = { s.chan ch with fetch := some none }
      ∧ (t.xbuf .dma).walks = (s.xbuf .dma).walks ++ [⟨s.chSlot ch,
          BitVec.ofNat 64 (s.chEntry ch (s.chNext ch)), false, true, .desc ch (s.chNext ch)⟩]
      ∧ t.mem = s.mem ∧ (t.rd rXltMisscnt).toNat = incSat 32 (s.rd rXltMisscnt).toNat 1
      ∧ exec (.dmaCopy ch) t = .next t

/-- Posting, completion, RESUME and SKIP of a channel (R421, R429-R432): TAIL posts descriptors, and a TAIL
beyond the ring is a reserved encoding; the oldest descriptor, performed, writes PROG and STAT into its ring
entry, moves HEAD on, shows its status and counts, and with IRQ signals the channel's vector; one that has
not been performed waits; RESUME and SKIP act on a stopped channel alone: RESUME lets it run again and keeps
the unit at which the descriptor restarts, SKIP writes STAT SKIPPED and moves HEAD on. Where the rules leave
a point open it states the model's choice (log entries 14 and 34). -/
def Obligations.ChannelRegistersAndCompletion : Prop :=
  (∀ (r : Requester) (ch : Fin 16) (v : BitVec 32) (s : State),
    s.chReach r ch = true → r ≠ .smbus →
    let t16 := v.toNat % 65536
    let ahead := (t16 + 65536 - s.getF (fDmaChHeadHead ch)) % 65536
    (2 ^ s.getF (fDmaChSizeLog2 ch) < ahead →
      exec (.dmaTail r ch v) s = .next (s.logCsr 1 (chOff r ch 0x18) v.toNat))
    ∧ (ahead ≤ 2 ^ s.getF (fDmaChSizeLog2 ch) → ∃ t, exec (.dmaTail r ch v) s = .next t
      ∧ t.getF (fDmaChTailTail ch) = t16 ∧ OnlyRegs [rDmaChTail ch, rDmaChStatus ch, rDmaStatus] s t)
    ∧ (v.getLsbD 2 = false → ∃ t, exec (.dmaResume r ch v) s = .next t
      ∧ t.chStopped ch = false ∧ t.bitF (fDmaChCtlEn ch) = v.getLsbD 0
      ∧ OnlyRegs [rDmaChCtl ch, rDmaChStatus ch, rDmaStatus] s t)
    ∧ (v.getLsbD 1 = false → s.chStopped ch = false → ∃ t, exec (.dmaSkip r ch v) s = .next t
      ∧ t.chStopped ch = false ∧ OnlyRegs [rDmaChCtl ch, rDmaChStatus ch, rDmaStatus] s t)
    ∧ (v.getLsbD 1 = false → s.chStopped ch = true → s.memEcc = [] → s.loader = none →
      IdMapped s (s.chSlot ch) →
      let n := s.getF (fDmaChHeadHead ch)
      s.chEntry ch n + 64 ≤ 2 ^ 30 →
      ∃ t, exec (.dmaSkip r ch v) s = .next t
        ∧ t.mem = puts s.mem [(s.chEntry ch n + 52, [8])]
        ∧ t.getF (fDmaChHeadHead ch) = (n + 1) % 65536 ∧ t.getF (fDmaChStatusCode ch) = 8
        ∧ t.chStopped ch = false ∧ t.chan ch = DmaCh.reset ∧ t.cores = s.cores))
  ∧ (∀ (ch : Fin 16) (v : BitVec 32) (s : State), s.bitF (fDmaChCtlSlot ch) = false →
    exec (.dmaTail .pf1 ch v) s = .next s ∧ exec (.dmaResume .pf1 ch v) s = .next s
      ∧ exec (.dmaSkip .pf1 ch v) s = .next s)
  ∧ ∀ (ch : Fin 16) (x : DmaDesc) (r : List DmaDesc) (s : State), (s.chan ch).started = x :: r →
    (x.performed = false → exec (.descriptorComplete ch) s = .next s)
    ∧ (x.performed = true → s.memEcc = [] → s.loader = none → IdMapped s (s.chSlot ch) →
      s.chEntry ch x.idx + 64 ≤ 2 ^ 30 → (∀ y ∈ r, y.stat < 3) →
      ∃ t, exec (.descriptorComplete ch) s = .next t
        ∧ t.mem = puts s.mem [(s.chEntry ch x.idx + 48, leBytes 4 x.units ++ [BitVec.ofNat 8 x.stat])]
        ∧ t.getF (fDmaChHeadHead ch) = (x.idx + 1) % 65536
        ∧ t.getF (fDmaChStatusCode ch) = x.stat % 256
        ∧ (t.rd (rDmaChDone ch)).toNat = incSat 32 (s.rd (rDmaChDone ch)).toNat 1
        ∧ (t.chan ch).started = r
        ∧ (dFlag x.desc 0 = false → t.out = s.out ∧ t.bar4 = s.bar4)
        ∧ (dFlag x.desc 0 = true →
            (s.rd4 (s.chFunc ch) (16 * (8 + ch.val) + 12)).getLsbD 0 = false →
            t.out = s.out ++ [.msix (s.chFunc ch) (8 + ch.val)])
        ∧ t.cores = s.cores ∧ t.pending = s.pending)

/-! ### The host's accesses, and remote requests -/

/-- An access joins the accesses that wait in the host buffer. -/
def Sys2Proof.Claims.JoinsHost (s t : State) (w : XWalk) : Prop :=
  (t.xbuf .host).walks = (s.xbuf .host).walks ++ [w]
    ∧ (t.xbuf .host).entries = (s.xbuf .host).entries
    ∧ OnlyRegs [rXltMisscnt] s { t with xbufs := s.xbufs }

/-- BAR2 and doorbells (R294, R397, R399, R416, R678, R736): a read answers with the bytes of memory, a write
puts its bytes and nothing else; with B2XLT, and always for PF1, the offset goes through the host buffer,
and a miss makes the access wait; a write waits behind the function's waiting writes, and so does a
doorbell; an offset that isolation forbids aborts a read and drops a write; DBELL posts TAIL of a channel
that the function owns, and only of such a one; DBELLHR is MEM_HRTAIL and PF0's alone. Where the rules leave
a point open it states the model's choice (log entry 33). -/
def Obligations.HostReachesMemoryAndDoorbells : Prop :=
  (∀ (fn : Func) (addr : BitVec 39) (len : BitVec 13) (l : List Byte) (po : Bool) (dw0 : BitVec 32)
    (s : State), s.host.bar2 * 2 ^ 30 ≤ addr.toNat →
    exec (.bar2Read fn addr len dw0) s = .next s ∧ exec (.bar2Write fn addr l po dw0) s = .next s)
  ∧ (∀ (addr : BitVec 39) (len : BitVec 13) (l : List Byte) (dw0 : BitVec 32) (s : State),
    addr.toNat < s.host.bar2 * 2 ^ 30 → s.bitF fXltCtlB2xlt = false → s.memEcc = [] → s.loader = none →
    let ph := addr.toNat + s.getF fXltB2baseBaseg * 2 ^ 30
    (ph + len.toNat ≤ memTop → s.isoOk false ph len.toNat = true →
      exec (.bar2Read 0 addr len dw0) s = .next { s with
        out := s.out ++ [.bar2Data 0 (Tab.lookList (fun _ => 0) s.mem ph len.toNat) false] })
    ∧ (ph + len.toNat ≤ memTop → s.isoOk false ph len.toNat = false →
      ∃ t, exec (.bar2Read 0 addr len dw0) s = .next t ∧ .bar2Abort 0 false ∈ t.out
        ∧ SameStores s t)
    ∧ (ph + l.length ≤ memTop → s.isoOk false ph l.length = true →
      exec (.bar2Write 0 addr l false dw0) s = .next { s with
        mem := Tab.putList (fun _ => 0) s.mem ph l })
    ∧ (ph + l.length ≤ memTop → s.isoOk false ph l.length = false →
      ∃ t, exec (.bar2Write 0 addr l false dw0) s = .next t ∧ SameStores s t)
    ∧ (memTop < ph + len.toNat → ∃ t, exec (.bar2Read 0 addr len dw0) s = .next t
        ∧ .bar2Abort 0 true ∈ t.out ∧ SameStores s t))
  ∧ (∀ (fn : Func) (addr : BitVec 39) (len : BitVec 13) (l : List Byte) (po : Bool) (dw0 : BitVec 32)
    (s : State) (j : JobSlot) (va : Nat),
    addr.toNat < s.host.bar2 * 2 ^ 30 → s.bar2Off fn addr.toNat = (some j, va) →
    s.memEcc = [] → s.loader = none →
    (∀ e ph, s.xhit .host j va = some e → s.through e va len.toNat false = .ok ph →
      exec (.bar2Read fn addr len dw0) s = .next { s with
        out := s.out ++ [.bar2Data fn (Tab.lookList (fun _ => 0) s.mem ph len.toNat) false] })
    ∧ (s.xhit .host j va = none → ∃ t, exec (.bar2Read fn addr len dw0) s = .next t
      ∧ JoinsHost s t ⟨j, BitVec.ofNat 64 va, false, true, .read fn (BitVec.ofNat 64 va) len.toNat⟩)
    ∧ (∀ e ph, s.xhit .host j va = some e → s.through e va l.length true = .ok ph →
      s.writeWaits fn = false → exec (.bar2Write fn addr l false dw0) s = .next { s with
        mem := Tab.putList (fun _ => 0) s.mem ph l })
    ∧ (s.xhit .host j va = none ∨ s.writeWaits fn = true →
      ∃ t, exec (.bar2Write fn addr l po dw0) s = .next t
        ∧ JoinsHost s t ⟨j, BitVec.ofNat 64 va, false, !s.writeWaits fn,
            .write fn (BitVec.ofNat 64 va) l po dw0⟩))
  ∧ ∀ (fn : Func) (n : Fin 16) (v dw0 : BitVec 32) (s : State),
    (s.writeWaits fn = true → ∃ t, exec (.dbell fn n v dw0) s = .next t
      ∧ JoinsHost s t ⟨funcSlot fn, 0, false, false, .bell fn n v dw0⟩)
    ∧ (s.writeWaits fn = false → s.chFunc n = fn →
      (v.toNat % 65536 + 65536 - s.getF (fDmaChHeadHead n)) % 65536 ≤ 2 ^ s.getF (fDmaChSizeLog2 n) →
      ∃ t, exec (.dbell fn n v dw0) s = .next t ∧ t.getF (fDmaChTailTail n) = v.toNat % 65536
        ∧ OnlyRegs [rDmaChTail n, rDmaChStatus n, rDmaStatus] s t)
    ∧ (s.writeWaits fn = false → s.chFunc n ≠ fn → ∃ t, exec (.dbell fn n v dw0) s = .next t
      ∧ SameStores s t ∧ ∀ k, t.rd (rDmaChTail k) = s.rd (rDmaChTail k))
    ∧ exec (.dbellhr 1 v) s = .next s
    ∧ (s.writeWaits 0 = true → ∃ t, exec (.dbellhr 0 v) s = .next t
      ∧ JoinsHost s t ⟨.a, 0, false, false, .bell 0 16 v 0⟩)
    ∧ (s.writeWaits 0 = false → ∃ t, exec (.dbellhr 0 v) s = .next t
      ∧ exec (.memHrtail .pf0 v) s = .next t)

/-- The ends of a host read, and errors of the host port (R430, R736): a good completion lets the descriptor go
on, here a COPY of one word from host memory, which is then performed; a bad one, and the timeout, end it
with HOST_ERR and stop the channel; a tag that is not outstanding has no effect on a channel; an unexpected
completion and a malformed packet are discarded and reported through AER. Where the rules leave a point open
it states the model's choice (log entries 34 and 35). -/
def Obligations.HostReadsEndAndErrorsReport : Prop :=
  (∀ (tag : BitVec 10) (ok : Bool) (data : List Byte) (s : State), s.hostReq tag.toNat = none →
    exec (.hostCompletion tag ok data) s = .next s ∧ exec (.cpltimeout tag) s = .next s)
  ∧ (∀ (fn : Func) (tag : BitVec 10) (addr : BitVec 64) (dw0 : BitVec 32) (i : Instr) (s : State),
    i = .unexpcpl fn tag dw0 ∨ i = .malformed fn addr dw0 → ∃ t, exec i s = .next t
      ∧ .aer fn ∈ t.out ∧ SameStores s t ∧ t.dma = s.dma ∧ t.host = s.host ∧ t.xbufs = s.xbufs
      ∧ ((s.rd (rErrClasscnt 17)).toNat < 2 ^ 32 - 1 → s.logFull
          ⟨17, if i = .unexpcpl fn tag dw0 then 3 else 1, unitFunc fn.val, fn == 1, false,
            if i = .unexpcpl fn tag dw0 then tag.toNat else addr.toNat, dw0.toNat⟩ = false →
          (t.rd (rErrClasscnt 17)).toNat = (s.rd (rErrClasscnt 17)).toNat + 1))
  ∧ ∀ (tag : BitVec 10) (data : List Byte) (s : State) (q : HostReq) (x : DmaDesc) (r : List DmaDesc),
    s.hostReq tag.toNat = some q → q.idx = some x.idx → (s.chan q.ch).started = x :: r → q.tag = tag.toNat →
    (∀ t, exec (.hostCompletion tag false data) s = .next t ∨ exec (.cpltimeout tag) s = .next t →
      t.chStopped q.ch = true ∧ t.getF (fDmaChStatusCode q.ch) = 7 ∧ (t.chan q.ch).started = []
      ∧ (t.chan q.ch).resumeAt = some (x.units, x.pois) ∧ t.host.reqs.any (fun r => r.tag == q.tag) = false
      ∧ t.cores = s.cores)
    ∧ (∃ t u, exec (.hostCompletion tag false data) s = .next t ∧ exec (.cpltimeout tag) s = .next u)
    ∧ (dOp x.desc = 1 → dNt x.desc = 1 → dFlag x.desc 3 = false → x.units = 0 → x.got = [] → x.sent = 0 →
      x.stat = 0 → x.performed = false → x.pois = false → q.len = 256 → IdMapped s (s.chSlot q.ch) → s.memEcc = [] →
      s.loader = none → dF x.desc 16 8 + 256 ≤ 2 ^ 30 →
      ∃ t, exec (.hostCompletion tag true data) s = .next t
        ∧ (t.chan q.ch).started.head? = some { x with
            units := 1, stat := 1, performed := true, waiting := false }
        ∧ t.mem = Tab.putList (fun _ => 0) s.mem (dF x.desc 16 8) (padTo 256 data)
        ∧ t.rd (rDmaChProg q.ch) = 1 ∧ t.cores = s.cores)

/-- A cell leaves this device from a die: it is last in the queue of the port that R526 gives. -/
def Sys2Proof.Claims.Leaves (s t : State) (die dest : Nat) (c : Cell) : Prop :=
  ∀ p, s.portFor die dest = some p → (t.port p).remq = (s.port p).remq ++ [c]

/-- Remote requests that arrive (R397, R526, R529, R736): one for another device passes on unchanged; a READ
of this device is answered with the word, and a WRITE puts its 256 bytes and is answered; the address goes
through the buffer of the port's die, where a miss makes the request wait; a request in the name of job slot B
is refused with a PROT status; a FENCE is held until its bound has passed and the words that it covers are
performed, and then answered; an answer starts on this device, so it leaves from the west die. Where the rules
leave a point open it states the model's choice (log entry 35). -/
def Obligations.RemoteRequestsAreServed : Prop :=
  (∀ (p : Port) (s : State) (ft : W64) (c : Cell) (r : List (W64 × Cell)),
    (s.port p).remin = (ft, c) :: r → cellFld c 0 4 = 3 →
    (∀ i : Instr, (cellFld c 5 3 = 0 ∧ i = .remreqRead p) ∨ (cellFld c 5 3 = 1 ∧ i = .remreqWrite p)
        ∨ (cellFld c 5 3 = 2 ∧ i = .remreqFence p) →
      ∃ t, exec i s = .next t ∧ (t.port p).remin = r
        ∧ (cellFld c 112 16 ≠ s.physChip → Leaves s t (portDie p) (cellFld c 112 16) c
            ∧ t.mem = s.mem ∧ t.rem = s.rem ∧ t.reg = s.reg)
        ∧ (cellFld c 112 16 = s.physChip → cellFld c 4 1 = 1 → t.mem = s.mem ∧ t.rem = s.rem
            ∧ Leaves s t 0 (cellFld c 16 16) (cellSeal (remHdr 4 true 2 0 (cellFld c 16 16)
                (cellFld c 32 16) (cellFld c 16 16) (cellFld c 64 48)) 0)))
    ∧ (cellFld c 112 16 = s.physChip → cellFld c 4 1 = 0 → s.memEcc = [] → s.loader = none →
      let src := cellFld c 16 16
      let ans (w : Payload) : Cell :=
        cellSeal (remHdr 4 false 0 0 src (cellFld c 32 16) src (cellFld c 64 48)) w
      (∀ e ph, cellFld c 5 3 = 0 → s.xhit (remBuf p) .a (remVa c) = some e →
        s.through e (remVa c) 256 false = .ok ph → ∃ t, exec (.remreqRead p) s = .next t
          ∧ t.mem = s.mem ∧ (t.port p).remin = r
          ∧ Leaves s t 0 src
              (ans (Payload.ofBytes (Tab.lookList (fun _ => 0) s.mem ph 256))))
      ∧ (∀ e ph, cellFld c 5 3 = 1 → s.xhit (remBuf p) .a (remVa c) = some e →
        s.through e (remVa c) 256 true = .ok ph → ∃ t, exec (.remreqWrite p) s = .next t
          ∧ t.mem = Tab.putList (fun _ => 0) s.mem ph (Payload.bytes c.payload)
          ∧ (t.port p).remin = r ∧ Leaves s t 0 src (ans 0))
      ∧ (∀ i, s.xhit (remBuf p) .a (remVa c) = none →
        (cellFld c 5 3 = 0 ∧ i = .remreqRead p) ∨ (cellFld c 5 3 = 1 ∧ i = .remreqWrite p) →
        ∃ t, exec i s = .next t ∧ t.mem = s.mem ∧ (t.port p).remin = r
          ∧ (t.xbuf (remBuf p)).walks = (s.xbuf (remBuf p)).walks
              ++ [⟨.a, BitVec.ofNat 64 (remVa c), false, true, .remote p ft c⟩])
      ∧ (cellFld c 5 3 = 2 → ∃ t, exec (.remreqFence p) s = .next t ∧ t.mem = s.mem
          ∧ (t.port p).remin = r
          ∧ t.rem.fences = s.rem.fences ++ [⟨c, BitVec.ofNat 64 (cellFld c 64 48), none⟩])))
  ∧ (∀ s : State,
    ((∀ f ∈ s.rem.fences, s.fenceReady f = false) → exec .fenceAnswer s = .next s)
    ∧ ∀ f, s.rem.fences.find? s.fenceReady = some f → ∃ t, exec .fenceAnswer s = .next t
      ∧ t.rem.fences = s.rem.fences.erase f ∧ t.reg = s.reg ∧ t.mem = s.mem
      ∧ (cellFld f.cell 4 1 = 0 → let src := cellFld f.cell 16 16
        Leaves s t 0 src (cellSeal (remHdr 4 false 0 0 src
          (cellFld f.cell 32 16) src (cellFld f.cell 64 48)) 0)))

/-- This device's own requests and fences end (R190, R291, R527, R529): an answer takes its request out and
lets a HERD fence count one member less; an answer that no request waits for counts in STALE alone; a request
that times out counts in LOST, its tag rests, and a HERD fence then stays and its core takes PROT, while a DMA
descriptor stops its channel with REMOTE_LOST; a core's fence completes when its condition holds; a HERD fence
asks the other members once every word that it covers has left in a frame, completes at once where there is
none to ask for, and else when every member has answered. Where the rules leave a point open it states the
model's choice (log entry 35). -/
def Obligations.RemoteAnswersAndFencesComplete : Prop :=
  (∀ (p : Port) (s : State) (ft : W64) (c : Cell) (r : List (W64 × Cell)),
    (s.port p).remin = (ft, c) :: r → cellFld c 0 4 = 4 → cellFld c 112 16 = s.physChip →
    ((∀ q ∈ s.rem.reqs, q.tag ≠ cellFld c 32 16) → ∃ t, exec (.remrsp p) s = .next t
      ∧ t.getF fFabRemcntStale = incSat fFabRemcntStale.width (s.getF fFabRemcntStale) 1
      ∧ (t.port p).remin = r ∧ t.rem = s.rem ∧ SameStores s t ∧ t.dma = s.dma)
    ∧ ∀ q k f l, s.rem.reqs.find? (fun q => q.tag == cellFld c 32 16) = some q →
      q.use = .fence k → cellFld c 5 3 = 0 → (s.core k).fence = some f → f.asked = some l →
      ∃ t, exec (.remrsp p) s = .next t
        ∧ (t.core k).fence = some { f with asked := some (l.filter (· != q.tag)) }
        ∧ t.rem.reqs = s.rem.reqs.filter (fun r => r.tag != q.tag)
        ∧ (t.port p).remin = r ∧ t.mem = s.mem ∧ t.reg = s.reg)
  ∧ (∀ (tag : BitVec 16) (s : State),
    ((∀ q ∈ s.rem.reqs, q.tag ≠ tag.toNat) → exec (.remoteTimeout tag) s = .next s)
    ∧ ∀ q, s.rem.reqs.find? (fun q => q.tag == tag.toNat) = some q →
      ∃ t, exec (.remoteTimeout tag) s = .next t
        ∧ t.getF fFabRemcntLost = incSat fFabRemcntLost.width (s.getF fFabRemcntLost) 1
        ∧ (q.use = .dead → t.mem = s.mem ∧ t.rem.reqs = s.rem.reqs.filter (fun r => r.tag != q.tag)
            ∧ q.tag ∈ t.rem.resting.map (·.1))
        ∧ (∀ k, q.use = .fence k → (s.core k).slot = .a → (s.core k).bare = false →
            (t.core k).fence = (s.core k).fence ∧ (t.core k).pend.prot ≠ []
            ∧ t.rem.reqs = s.rem.reqs.filter (fun r => r.tag != q.tag) ∧ t.mem = s.mem)
        ∧ (∀ ch x l, q.use = .dma ch x.idx → (s.chan ch).started = x :: l →
            t.chStopped ch = true ∧ t.getF (fDmaChStatusCode ch) = 6 ∧ (t.chan ch).started = []))
  ∧ ∀ (c : Core) (s : State),
    ((s.core c).fence = none → exec (.fenceComplete c) s = .next s)
    ∧ ∀ f, (s.core c).fence = some f →
      (s.fenceMet c f = false → exec (.fenceComplete c) s = .next s)
      ∧ (s.fenceMet c f = true →
        (f.kind ≠ 4 → ∃ t, exec (.fenceComplete c) s = .next t
          ∧ t.core c = { s.core c with fence := none } ∧ OnlyCore c s t)
        ∧ (∀ m l, f.kind = 4 → f.asked = some (m :: l) → exec (.fenceComplete c) s = .next s)
        ∧ (f.kind = 4 → f.asked = none → s.composed c f = false → exec (.fenceComplete c) s = .next s)
        ∧ (f.kind = 4 → f.asked = some [] ∨ (f.asked = none ∧ s.composed c f = true
            ∧ ((s.core c).lastComp = none ∨ s.fencePeers c = [])) →
          ∃ t, exec (.fenceComplete c) s = .next t
          ∧ t.core c = { s.core c with fence := none, lastComp := f.later } ∧ OnlyCore c s t)
        ∧ (f.kind = 4 → f.asked = none → s.composed c f = true → (s.core c).lastComp ≠ none →
          s.fencePeers c ≠ [] → ∃ t, exec (.fenceComplete c) s = .next t
            ∧ (∃ l, (t.core c).fence = some { f with asked := some l }
                ∧ l.length = (s.fencePeers c).length)
            ∧ t.mem = s.mem))

/-! ### Ports, frames, fabric time -/

/-- Bring-up (R498, R501, R524, R528, R759): signal takes an enabled port from DOWN to LIGHT, clock recovery
from LIGHT to ALIGN, codeword lock from ALIGN to IDENT; its loss takes every port but a FAILED one to DOWN,
and the requests of this device that were queued there end; after 50 ms a port in bring-up fails with
NOLOCK; RETRAIN and the automatic retry start again from DOWN; weak laser light fails an optical port with
OPTPWR; a relocking synthesiser settles until it has settled. Where the rules leave a point open it states
the model's choice (log entry 37). -/
def Obligations.PortsComeUpStateByState : Prop :=
  ∀ (p : Port) (s : State),
    (s.powered p = false → exec (.portSignalDetect p) s = .next s)
    ∧ (s.powered p = true → ∃ t, exec (.portSignalDetect p) s = .next t
      ∧ (t.port p).signal = true
      ∧ t.portState p = (if s.portState p = 0 ∧ s.portMay p = true then 1 else s.portState p)
      ∧ (t.portState p ≠ s.portState p → (t.port p).lightAt = s.clock)
      ∧ OnlyRegs [rFabPstat p] s { t with ports := s.ports })
    ∧ (s.portState p = 6 → ∃ t, exec (.portSignalLoss p) s = .next t
      ∧ t = s.setPort p { s.port p with signal := false })
    ∧ (s.portState p ≠ 6 → ∃ t, exec (.portSignalLoss p) s = .next t
      ∧ t.portState p = 0 ∧ (t.port p).signal = false ∧ (t.port p).remq = [] ∧ (t.port p).consq = []
      ∧ (∀ q ∈ t.rem.reqs, q.tag ∉ s.ownTags (s.port p).remq)
      ∧ (∀ q < 19, q ≠ p.val → t.portState q = s.portState q)
      ∧ ((s.port p).remq = [] → OnlyRegs [rFabPstat p] s { t with ports := s.ports }))
    ∧ (∃ t, exec (.clockRecoveryLock p) s = .next t
      ∧ t.portState p = (if s.portState p = 1 then 2 else s.portState p) ∧ OnlyRegs [rFabPstat p] s t)
    ∧ (∃ t, exec (.codewordLock p) s = .next t
      ∧ t.portState p = (if s.portState p = 2 then 3 else s.portState p) ∧ OnlyRegs [rFabPstat p] s t)
    ∧ (s.portState p = 0 ∨ 5 ≤ s.portState p → exec (.bringupTimeout p) s = .next s)
    ∧ (1 ≤ s.portState p → s.portState p ≤ 4 → ∃ t, exec (.bringupTimeout p) s = .next t
      ∧ t.portState p = 6 ∧ t.getF (fFabPstatFail p) = 2 ∧ t.pending = s.pending)
    ∧ (∀ (r : Requester) (v : BitVec 32), r = .jusia ∨ r = .pf0 →
      ∃ t, exec (.retrain r p v) s = .next t
        ∧ t.bitF (fFabPctlEn p) = v.getLsbD 0 ∧ t.pending = s.pending
        ∧ (v.getLsbD 0 = false → t.portState p = 0)
        ∧ (v.getLsbD 0 = true → t.portState p = (if (s.port p).signal = true
            ∧ s.sd.portsOut.contains p.val = false ∧ s.bitF fFabTstatFreflost = false then 1 else 0)
          ∧ t.getF (fFabPstatFail p) = 0))
    ∧ (s.portState p ≠ 6 ∨ s.bitF (fFabPctlAuto p) = false → exec (.portRetry p) s = .next s)
    ∧ (s.portState p = 6 → s.bitF (fFabPctlAuto p) = true → ∃ t, exec (.portRetry p) s = .next t
      ∧ t.portState p = (if s.portMay p = true ∧ (s.port p).signal = true then 1 else 0)
      ∧ t.getF (fFabPstatFail p) = 0 ∧ (t.port p).retriedAt.isSome = true ∧ t.pending = s.pending)
    ∧ (16 ≤ p.val → exec (.laserLow p) s = .next s)
    ∧ (p.val < 16 → ∃ t, exec (.laserLow p) s = .next t
      ∧ t.portState p = 6 ∧ t.getF (fFabPstatFail p) = 9 ∧ t.pending = s.pending)
    ∧ ∀ o : Fin 16, exec (.synthRelock o) s = .next (s.setPort o { s.port o with settling := true })
      ∧ exec (.synthSettled o) s = .next (s.setPort o { s.port o with settling := false })

/-- Frames (R497-R500, R507, R508, R511-R518, R582): a TRAIN frame checks the neighbour's place and version in
IDENT, measures the flight in TIMED, its arrival minus its FTIME, and gives the frame number to a device
without one; a flight of a whole frame or more fails the port with TIMEERR, one beyond the DELAY limit with
DELAY; the frame of a slot carries its FTIME, its type and a check code that passes, and leaves in the
codewords of its slot; an EXACT allocation sends exactly its words, or COUNT INVALID words where too few are
there, which sets the incomplete bit; a CONSENSUS slot sends the consensus cells of that slot; a port in
bring-up sends TRAIN, and nothing while its synthesiser settles; a frame that passes waits for its place, and
one that drifts too far, fails its check code or has a reserved type does not, a reserved type being counted
and answered from IDENT on; at its place it fills the landing channel, with one INVALID word for a cell that
fails its CRC and for each cell of a frame that is lost; a frame missing in an IDLE or MAINT slot is lost too.
Where the rules leave a point open it states the model's choice (log entries 36, 37, 38, 58 and 80). -/
def Obligations.FramesCarryWordsOrInvalids : Prop :=
  (∀ (p : Port) (f : Frame) (ago : BitVec 16) (s : State),
    let raw : Int := 32 * (s.time : Int) - ago.toNat - 32 * frameFld f 8 8
    let d : Int := if s.bitF fFabTstatFrameset = true ∧ (frameFld f 32 1).testBit 1 = true then raw
      else raw % 2 ^ 20
    (frameGood f = false ∨ frameFld f 0 1 ≠ 4 → exec (.frameTrain p f ago) s = .next s)
    ∧ (frameGood f = true → frameFld f 0 1 = 4 → s.portState p = 3 → s.bitF fFabPchipValid = true →
      (frameFld f 32 1).testBit 0 = true →
      ∃ t, exec (.frameTrain p f ago) s = .next t ∧ t.pending = s.pending
        ∧ (neighbourOk s.physChip (frameFld f 30 2) p = false ∨ frameFld f 6 1 ≠ peerPort p →
            t.portState p = 6 ∧ t.getF (fFabPstatFail p) = 3)
        ∧ (neighbourOk s.physChip (frameFld f 30 2) p = true → frameFld f 6 1 = peerPort p →
            1 < frameFld f 28 1 ∨ frameFld f 29 1 < 1 →
            t.portState p = 6 ∧ t.getF (fFabPstatFail p) = 4)
        ∧ (neighbourOk s.physChip (frameFld f 30 2) p = true → frameFld f 6 1 = peerPort p →
            frameFld f 28 1 ≤ 1 → 1 ≤ frameFld f 29 1 → d ≤ 16320 →
            (frameFld f 32 1).testBit 1 = false →
            t.portState p = 4 ∧ (t.port p).neighbour = some (frameFld f 30 2, frameFld f 6 1)
            ∧ t.getF (fFabPstatLdlymin p) = (d.toNat + 64 + 1023) / 1024))
    ∧ (frameGood f = true → frameFld f 0 1 = 4 → s.portState p = 4 → frameFld f 1 1 ≠ 1 →
      ∃ t, exec (.frameTrain p f ago) s = .next t ∧ t.portState p = 4
        ∧ (t.port p).ukind = 3 ∧ (t.port p).uval = BitVec.ofNat 8 (frameFld f 1 1)
        ∧ t.getF (fFabPunsUnknown p) = incSat (fFabPunsUnknown p).width (s.getF (fFabPunsUnknown p)) 1)
    ∧ (frameGood f = true → frameFld f 0 1 = 4 → s.portState p = 4 → frameFld f 1 1 = 1 →
      ∃ t, exec (.frameTrain p f ago) s = .next t
        ∧ (d < 0 ∨ 2 ^ 20 ≤ d → t.portState p = 6 ∧ t.getF (fFabPstatFail p) = 5)
        ∧ (16320 < d → d < 2 ^ 20 → t.portState p = 6 ∧ t.getF (fFabPstatFail p) = 6)
        ∧ (∀ n, d ≤ 16320 → (frameFld f 32 1).testBit 1 = true →
            s.bitF fFabTstatFrameset = false →
            adoptFrame (s.time % 32768) (32 * frameFld f 8 8 + d.toNat + ago.toNat) = some n →
            t.fab.time = BitVec.ofNat 64 (n * 32768 + s.time % 32768)
            ∧ t.bitF fFabTstatFrameset = true ∧ t.portState p = 4)))
  ∧ (∀ (p : Port) (s : State),
    let t0 := nextSlot s.time (s.port p).lastSlot
    let late := s.dieLate (portDie p)
    let sent (t : State) (f : Frame) : Prop :=
      t.out = s.out ++ [.frame p f, .codewords p (slotWords p t0 s.physChip (some f))]
    (s.portState p < 2 ∨ 5 < s.portState p → exec (.frameCompose p) s = .next s)
    ∧ (2 ≤ s.portState p → s.portState p ≤ 4 → (s.port p).settling = true →
      ∃ t, exec (.frameCompose p) s = .next t ∧ t.out = s.out ∧ t.mem = s.mem ∧ t.cores = s.cores)
    ∧ (2 ≤ s.portState p → s.portState p ≤ 4 → (s.port p).settling = false →
      ∃ t f, exec (.frameCompose p) s = .next t
      ∧ sent t f ∧ frameGood f = true ∧ frameFld f 0 1 = 4
      ∧ frameFld f 8 8 = t0 % 2 ^ 64 ∧ f.cells = [] ∧ t.mem = s.mem ∧ t.cores = s.cores)
    ∧ (s.portState p = 5 → (s.port p).settling = false → 16 ≤ p.val ∨ (s.port p).sinceCal < 1024 →
      s.txEntry p (t0 / 32) = 0 → ∃ t f, exec (.frameCompose p) s = .next t
      ∧ sent t f ∧ frameGood f = true ∧ frameFld f 0 1 = 0 ∧ f.cells = []
      ∧ frameFld f 8 8 = t0 % 2 ^ 64 ∧ t.mem = s.mem ∧ t.cores = s.cores)
    ∧ (s.portState p = 5 → (s.port p).settling = false → 16 ≤ p.val ∨ (s.port p).sinceCal < 1024 →
      s.txEntry p (t0 / 32) = 0xFFFE → ∃ t f, exec (.frameCompose p) s = .next t
      ∧ sent t f ∧ frameGood f = true ∧ frameFld f 0 1 = 2
      ∧ f.cells = (((s.port p).consq.filter fun c => c.1.toNat == t0).map (·.2)).take (portCells p)
      ∧ frameFld f 8 8 = t0 % 2 ^ 64 ∧ t.mem = s.mem ∧ t.cores = s.cores)
    ∧ ∀ a, s.portState p = 5 → (s.port p).settling = false →
      16 ≤ p.val ∨ (s.port p).sinceCal < 1024 →
      1 ≤ s.txEntry p (t0 / 32) → s.txEntry p (t0 / 32) < 0xFFFE →
      s.allocs (s.txEntry p (t0 / 32)) = [a] → a.cls = 0 →
      ∃ t f, exec (.frameCompose p) s = .next t ∧ sent t f
        ∧ frameGood f = true ∧ frameFld f 0 1 = 1 ∧ frameFld f 8 8 = t0 % 2 ^ 64
        ∧ frameFld f 16 2 = s.txEntry p (t0 / 32) ∧ t.mem = s.mem
        ∧ (a.count ≤ ((s.port p).words a.route).length → late = false →
          f.cells = (((s.port p).words a.route).take a.count).map (wordCell 1 a.chan)
          ∧ (t.port p).words a.route = ((s.port p).words a.route).drop a.count
          ∧ (t.route .a a.route).creditsBack = (s.route .a a.route).creditsBack + a.count
          ∧ t.bwt.incomp = s.bwt.incomp)
        ∧ (((s.port p).words a.route).length < a.count ∨ late = true →
          f.cells = List.replicate a.count (wordCell 1 a.chan (SWord.bad false))
          ∧ t.bwt.incomp = true
          ∧ t.getF (fFabPdropTxwords p) = incSat (fFabPdropTxwords p).width
              (s.getF (fFabPdropTxwords p)) (min a.count ((s.port p).words a.route).length)))
  ∧ (∀ (p : Port) (f : Frame) (δ : BitVec 8) (s : State) (i : Instr),
    i = .frameData p f δ ∨ i = .frameCons p f δ ∨ i = .frameMaint p f δ ∨ i = .frameIdle p f δ
      ∨ i = .frameUnknownType p f δ →
    let d : Int := δ.toInt - (s.port p).align
    (s.portState p < 3 ∨ 5 < s.portState p → exec i s = .next s)
    ∧ (s.portState p = 3 ∨ s.portState p = 4 →
      (frameGood f = false ∨ (frameFld f 0 1 < 5 ∧ frameFld f 1 1 = 1) → exec i s = .next s)
      ∧ (frameGood f = true → 5 ≤ frameFld f 0 1 → ∃ t, exec i s = .next t
        ∧ (t.port p).framesIn = (s.port p).framesIn ∧ t.portState p = s.portState p
        ∧ (t.port p).ukind = 1 ∧ (t.port p).uval = BitVec.ofNat 8 (frameFld f 0 1)
        ∧ t.getF (fFabPunsUnknown p)
          = incSat (fFabPunsUnknown p).width (s.getF (fFabPunsUnknown p)) 1))
    ∧ (s.portState p = 5 → ∃ t, exec i s = .next t ∧ t.pending = s.pending
      ∧ (d.natAbs ≤ 24 ∨ (s.port p).driftRun < 15 → t.mem = s.mem ∧ t.cores = s.cores)
      ∧ (8 < d.natAbs → d.natAbs ≤ 24 → t.bitF (fFabPstatWarn p) = true)
      ∧ (24 < d.natAbs → (s.port p).driftRun < 15 → (t.port p).framesIn = (s.port p).framesIn
        ∧ t.getF (fFabPlostDriftdrop p)
          = incSat (fFabPlostDriftdrop p).width (s.getF (fFabPlostDriftdrop p)) 1)
      ∧ (24 < d.natAbs → 15 ≤ (s.port p).driftRun →
        t.portState p = 6 ∧ t.getF (fFabPstatFail p) = 8)
      ∧ (d.natAbs ≤ 24 → frameGood f = false → (t.port p).framesIn = (s.port p).framesIn)
      ∧ (d.natAbs ≤ 24 → frameGood f = true → 5 ≤ frameFld f 0 1 →
        (t.port p).framesIn = (s.port p).framesIn
        ∧ (t.port p).ukind = 1 ∧ (t.port p).uval = BitVec.ofNat 8 (frameFld f 0 1)
        ∧ t.getF (fFabPunsUnknown p)
          = incSat (fFabPunsUnknown p).width (s.getF (fFabPunsUnknown p)) 1)
      ∧ (d.natAbs ≤ 24 → frameGood f = true → frameFld f 0 1 < 5 → frameFld f 1 1 = 1 →
        (s.port p).neighbour = some (frameFld f 4 2, frameFld f 6 1) →
        (t.port p).framesIn = (s.port p).framesIn ++ [f])))
  ∧ (∀ (p : Port) (m : SlotMark) (s : State),
    let t0 := nextPlace s.time (s.port p).lastRx
    let e := s.rxEntry p (t0 / 32)
    (s.portState p ≠ 5 → exec (.framePlacement ⟨p, m⟩) s = .next s)
    ∧ (s.portState p = 5 → e = 0 ∨ e = 0xFFFF → (s.port p).framesIn = [] → (s.port p).lossRun < 15 →
      ∃ t, exec (.framePlacement ⟨p, m⟩) s = .next t
        ∧ t.getF (fFabPlostFrames p) = incSat (fFabPlostFrames p).width (s.getF (fFabPlostFrames p)) 1
        ∧ (t.port p).lossRun = (s.port p).lossRun + 1 ∧ t.bwt.incomp = s.bwt.incomp
        ∧ t.mem = s.mem ∧ t.cores = s.cores))
  ∧ ∀ (p : Port) (m : SlotMark) (s : State) (g : FabricCfg) (a : AllocCfg), s.fabApplied = some g →
    (let t0 := nextPlace s.time (s.port p).lastRx
      let e := s.rxEntry p (t0 / 32)
      let ft := t0 - 32 * g.ldly.getD p 1
      let x := s.landing a.chan
      s.portState p = 5 → e ≠ 0 → e ≠ 0xFFFF → s.allocs e = [a] → a.cls = 0 → a.count = 1 →
      (∀ (n : Nat) (c : ChanCfg), g.chans[n]? = some c → s.muleChan c = false) →
      x.skip = false → x.debts = 0 → x.words.length < s.chanDepth a.chan →
      ∃ t, exec (.framePlacement ⟨p, m⟩) s = .next t ∧ t.pending = s.pending
        ∧ ((s.port p).lossRun < 15 → t.mem = s.mem ∧ t.cores = s.cores)
        ∧ (∀ f c, (s.port p).framesIn.find? (fun f => frameFld f 8 8 == ft && frameFld f 16 2 == e) = some f →
            f.cells = [c] → (t.port p).lossRun = 0
            ∧ (cellGood c = true → cellFld c 0 4 = 1 →
              (t.landing a.chan).words = x.words ++ [cellWord c] ∧ t.bwt.incomp = s.bwt.incomp)
            ∧ (cellGood c = false →
              (t.landing a.chan).words = x.words ++ [SWord.bad false] ∧ t.bwt.incomp = true))
        ∧ ((s.port p).framesIn.find? (fun f => frameFld f 8 8 == ft && frameFld f 16 2 == e) = none →
            (t.landing a.chan).words = x.words ++ [SWord.bad false] ∧ t.bwt.incomp = true
            ∧ t.getF (fFabPlostFrames p)
              = incSat (fFabPlostFrames p).width (s.getF (fFabPlostFrames p)) 1
            ∧ ((s.port p).lossRun < 15 → (t.port p).lossRun = (s.port p).lossRun + 1
              ∧ t.portState p = 5)
            ∧ (15 ≤ (s.port p).lossRun → t.portState p = 6 ∧ t.getF (fFabPstatFail p) = 7)))

/-- Fabric time, its comparators and the frame gate (R203, R483, R486-R489, R492, R498, R521, R522): the first
marker aligns the low 15 bits, a marker elsewhere counts and is ignored until the fifth at one phase, which
steps the device and fails its links; a comparator that fires is next due one period later and makes the
firing pending in every resident core to which it is assigned, or CAL_MISS where it is pending already; a
phase's START restarts schedules and walks, unless its MINMULT exceeds the multiplier staged for it, which
Jusia then reports (R30); with LOCK the comparators of Sheepdog and Jusia are armed, whose periods are the
model's (R494, log entry 80); in time role SOURCE a frame boundary drives FMARK_OUT (R490); at a frame
boundary a die that has not finished its FCY is LATE; a lost FREF takes every port DOWN; FAB_PCHIP sets the
chip number that fits the board, and only under an image with no chip map; APPLY waits for a marker, and is
ignored once the frame number is set. Where the rules leave a point open it states the model's choice (log
entries 39 and 45). -/
def Obligations.FabricTimeMarksFiresAndGates : Prop :=
  (∀ (r : Requester) (v : BitVec 32) (s : State), r = .jusia ∨ r = .pf0 →
    ((s.imgA.bind (·.chipmap)).isSome = true → ∃ t, exec (.fabPchip r v) s = .next t
      ∧ t.rd rFabPchip = s.rd rFabPchip ∧ SameStores s t)
    ∧ ((s.imgA.bind (·.chipmap)) = none → v.toNat % 4 ≠ s.getF fFabPchipBidx →
      exec (.fabPchip r v) s = .next (s.logCsr 1 rFabPchip v.toNat))
    ∧ ((s.imgA.bind (·.chipmap)) = none → v.toNat % 4 = s.getF fFabPchipBidx →
      ∃ t, exec (.fabPchip r v) s = .next t ∧ t.physChip = v.toNat % 65536
        ∧ t.bitF fFabPchipValid = true ∧ OnlyRegs [rFabPchip] s t)
    ∧ (s.bitF fFabTstatFrameset = true → ∃ t, exec (.fabApply r v) s = .next t
      ∧ t.fab = s.fab ∧ t.rd rFabTstat = s.rd rFabTstat ∧ SameStores s t)
    ∧ (s.bitF fFabTstatFrameset = false → exec (.fabApply r v) s = .next
        { s with fab := { s.fab with setPend := true } }))
  ∧ (∀ s : State,
    (s.bitF fFabTstatFreflost = true → exec .frefLost s = .next s ∧ exec .marker s = .next s
      ∧ exec .frameBoundary s = .next s)
    ∧ (s.bitF fFabTstatFreflost = false → ∃ t, exec .frefLost s = .next t
      ∧ t.bitF fFabTstatFreflost = true ∧ (∀ p < 19, t.portState p = 0) ∧ t.fab.time = s.fab.time
      ∧ t.pending = s.pending)
    ∧ (s.bitF fFabTstatSource = true → exec .marker s = .next s)
    ∧ (s.bitF fFabTstatSource = false → s.bitF fFabTstatFreflost = false → s.fab.setPend = false →
      s.imgA.isSome = true → ∃ t, exec .marker s = .next t ∧ t.pending = s.pending
      ∧ (s.bitF fFabTstatLock = false → t.bitF fFabTstatLock = true
        ∧ t.time = s.time / 32768 * 32768 ∧ t.fab.lastMark = some t.fab.time ∧ t.mem = s.mem
        ∧ (t.cal 62).armed = true ∧ (t.cal 63).armed = true)
      ∧ (s.bitF fFabTstatLock = true → s.time % 32768 = 0 → t.time = s.time ∧ t.mem = s.mem
        ∧ t.fab.lastMark = some s.fab.time ∧ t.fab.wrongCount = 0
        ∧ ∀ p < 19, s.portState p = 4 → (s.port p).readyIn = true → (s.port p).readyOut = true →
            t.portState p = 5)
      ∧ (s.bitF fFabTstatLock = true → s.time % 32768 ≠ 0 →
        let run := if s.fab.wrongCount ≠ 0 ∧ s.fab.wrongPhase = s.fab.time.setWidth 15
          then s.fab.wrongCount + 1 else 1
        (run ≠ 5 → t.time = s.time ∧ t.mem = s.mem ∧ t.fab.lastMark = s.fab.lastMark ∧ t.fab.wrongCount = run
          ∧ t.getF fFabTstatMarkerr = incSat fFabTstatMarkerr.width (s.getF fFabTstatMarkerr) 1)
        ∧ (run = 5 → t.time = s.time / 32768 * 32768 ∧ t.fab.wrongCount = 0
          ∧ ∀ p < 19, 1 ≤ s.portState p → s.portState p ≤ 5 →
              t.portState p = 6 ∧ t.getF (fFabPstatFail p) = 5)))
    ∧ (s.bitF fFabTstatFreflost = false → s.bitF fFabTstatLock = true → s.pwr.deferred = none →
      ∃ t, exec .frameBoundary s = .next t ∧ t.mem = s.mem ∧ t.pending = s.pending
      ∧ (s.bitF fFabTstatSource = true → .fmark ∈ t.out)
      ∧ t.fab.owedW = s.fab.owedW + 1 ∧ t.fab.owedE = s.fab.owedE + 1
      ∧ t.dieLate 0 = (decide (0 < s.fab.owedW) || s.dieBroken 0)
      ∧ t.dieLate 1 = (decide (0 < s.fab.owedE) || s.dieBroken 1)
      ∧ (t.dieLate 0 = true ∨ t.dieLate 1 = true → t.bwt.incomp = true)))
  ∧ (∀ (die : Die) (s : State), ∃ t, exec (.fcyComplete die) s = .next t
    ∧ t.fab.owedW = (if die = 0 then s.fab.owedW - 1 else s.fab.owedW)
    ∧ t.fab.owedE = (if die = 0 then s.fab.owedE else s.fab.owedE - 1)
    ∧ t = { s with fab := t.fab })
  ∧ ∀ (n : Fin 64) (s : State),
    ((s.cal n).armed = false ∨ s.timeRuns = false → exec (.calendarFiring n) s = .next s)
    ∧ ((s.cal n).armed = true → s.timeRuns = true → ∃ t, exec (.calendarFiring n) s = .next t
      ∧ (∀ j, ownerSlot (s.cal n).owner = some j →
        ((s.image j).map fun i => i.startedBy n).getD [] = [] →
        (j = .a → n.val ≠ s.getF fBwtCfgStartcal
          ∧ ((s.imgA.map (·.windows)).getD []) = [] ∧ (s.imgA.bind (·.herd)) = none
          ∧ (s.imgA.bind (·.mule)) = none) →
        (t.cal n).next = (s.cal n).next + BitVec.ofNat 64 (s.cal n).period ∧ t.mem = s.mem
        ∧ ∀ c < 256, (s.core c).slot = j → (s.core c).bare = false →
          ((s.core c).calAssigned j n = false → t.core c = s.core c)
          ∧ ((s.core c).calAssigned j n = true → (s.core c).calPend.getLsbD n = false →
            t.core c = { s.core c with
              calPend := (s.core c).calPend ||| BitVec.ofNat 64 (2 ^ n.val) })
          ∧ ((s.core c).calAssigned j n = true → (s.core c).calPend.getLsbD n = true →
            t.core c = { s.core c with pend := { (s.core c).pend with
              cal := some ((s.core c).pend.cal.getD n.val) } }))
      ∧ (∀ ph, ownerSlot (s.cal n).owner = some .a → n.val ≠ s.getF fBwtCfgStartcal →
        (s.imgA.map fun i => i.startedBy n) = some [ph] → ph < 4 →
        ((s.imgA.map (·.windows)).getD []) = [] → (s.imgA.bind (·.herd)) = none →
        (s.imgA.bind (·.mule)) = none →
        (s.phaseRefused ph = false → t.getF fPwrOppointPhase = ph ∧ (∀ d, (t.stk d).sched = 0)
          ∧ ∀ k < 1920, (Tab.look (fun _ => EpSt.reset) t.eps k).walk = 0)
        ∧ (s.phaseRefused ph = true → t.getF fPwrOppointPhase = s.getF fPwrOppointPhase
          ∧ t.stks = s.stks ∧ t.eps = s.eps ∧ .refusal ph (s.getF (fPhmult ph)) ∈ t.out))
      ∧ (ownerSlot (s.cal n).owner = none → t.cores = s.cores ∧ t.mem = s.mem))

/-! ### Collectives and Mule -/

/-- Collectives (R543, R546, R549-R551, R554): the unit of a cluster works only on collectives whose instance
is in progress; a word of RAW32 that add() receives is summed lane by lane into its place in the chunk's
buffer in staging memory, with the marks of both, frees its place in the route and counts its saturation
events, and no other byte of staging memory changes; the only member of a group puts its own input out; an
aligned contribution is at most 2^(30 - G) in magnitude, so that a sum of 2^G of them stays in 32 bits. Where
the rules leave a point open it states the model's choice (log entry 41). -/
def Obligations.CollectivesAddExactly : Prop :=
  (∀ (u : Fin 32) (s : State),
    (∀ (k : Nat) (e : CollEnv), s.collEnv k = some e → s.bitF (fHrdCollActive k) = true →
      (s.stagingCfg .a e.cf.stg).map StagingCfg.cluster ≠ some u.val) →
    exec (.collectiveWordOp u) s = .next s)
  ∧ (∀ (u : Fin 32) (s : State) (e : CollEnv) (c : ChunkSt) (a : Act) (r key : Nat) (w : SWord),
    s.unitColls u = [e] → e.cf.raw32 = true → e.cf.red = 0 → s.stgEcc = [] → key < 2 ^ 40 →
    (s.collc e.k).chunks = [c] → c.phase = 2 → (s.collc e.k).nextChunk = e.chunks →
    (e.units c.idx e.inShards).length ≤ c.took → (s.route .a e.cf.inroute).dst = [] →
    (s.phaseActs e c)[c.step]? = some a → a.recv = true → a.add = true →
    s.fromPeer e a.peer = some r → r ≠ e.cf.inroute → (s.route .a r).dst = [w] →
    (e.keysOf c a.segs)[c.rcvd]? = some key → c.rcvd + 1 < (e.keysOf c a.segs).length →
    let at' := e.keyAt c key
    let old := Payload.ofBytes (Tab.lookList (fun _ => 0) s.staging at' 256)
    let sum (i : Nat) : Int × Bool := ovfw ((lane old i).toInt + (lane w.data i).toInt) 32 false
    ∃ t, exec (.collectiveWordOp u) s = .next t
      ∧ (t.route .a r).dst = [] ∧ (t.route .a r).creditsBack = (s.route .a r).creditsBack + 1
      ∧ (∃ c', (t.collc e.k).chunks = [c'] ∧ c'.rcvd = c.rcvd + 1 ∧ c'.step = c.step
          ∧ c'.mark key = (c.mark key ||| w.marks)
          ∧ ∀ k', k' ≠ key → c'.mark k' = c.mark k')
      ∧ (∀ i < 64, lane (Payload.ofBytes (Tab.lookList (fun _ => 0) t.staging at' 256)) i
          = BitVec.ofInt 32 (sum i).1)
      ∧ (∀ p, p < at' ∨ at' + 256 ≤ p →
          Tab.look (fun _ => 0) t.staging p = Tab.look (fun _ => 0) s.staging p)
      ∧ (t.rd rHrdSattot).toNat
          = incSat 32 (s.rd rHrdSattot).toNat ((List.range 64).countP fun i => (sum i).2)
      ∧ t.mem = s.mem ∧ t.cores = s.cores ∧ t.pending = s.pending)
  ∧ (∀ (u : Fin 32) (s : State) (e : CollEnv) (w : SWord),
    s.unitColls u = [e] → e.cf.raw32 = true → e.cf.op = 1 → s.stgEcc = [] →
    e.exts = [] → e.rank = 0 → e.cf.nt = 1 → 1 ≤ e.cf.chunk → 1 ≤ e.cf.nbuf →
    s.collc e.k = ⟨[⟨0, [], [], 0, 0, 0, 0, 0⟩], 1, []⟩ →
    (s.route .a e.cf.inroute).dst = [w] →
    ∃ t, exec (.collectiveWordOp u) s = .next t
      ∧ (t.route .a e.cf.inroute).dst = []
      ∧ (t.route .a e.cf.outroute).src = (s.route .a e.cf.outroute).src
          ++ [(some 0, markWord w.data w.marks true 0)]
      ∧ t.mem = s.mem ∧ t.cores = s.cores)
  ∧ ∀ (m sc smax : Int) (w g : Nat), m.natAbs ≤ 2 ^ (w - 1) → 1 ≤ w → w ≤ 32 → g ≤ 30 → sc ≤ smax →
    (align m sc (smax + w + g - 31)).natAbs ≤ 2 ^ (30 - g)

/-- Word `k` of the staging region of a Mule table. -/
def Sys2Proof.Claims.tableWord (s : State) (e : MuleEnv) (k : Nat) : Payload :=
  Payload.ofBytes (Tab.lookList (fun _ => 0) s.staging (e.base + 256 * k) 256)

/-- Mule (R559, R561-R570): a descriptor waits until its exchange opens; TOKEN of the next one of an exchange
open for dispatch is judged against this one's; an accepted one enters the source part, sends each copy with
the header of R564 from the west die towards its owner and takes the next capacity slot of its source, drops a
selection beyond Q, and a bad one sends nothing; an owner keeps a token in its place of the owner part, unless
dispatch is closed or the place has been filled in the exchange, delivered or not; a slot is delivered when
its token is there, and as INVALID words once dispatch is closed; an output goes back to its source, enters
the source part and answers its selection; a token for another device passes on through free words of the
transit part, and is discarded where they are too few; the combine adds what returned to the residual, element
by element. Where the rules leave a point open it states the model's choice (log entries 22, 42 and 81). -/
def Obligations.MuleDispatchesDeliversAndCombines : Prop :=
  ∀ (t0 : Fin 16) (s : State) (e : MuleEnv), s.muleEnv t0 = some e →
    let m := s.muleT e.t
    let cleanPay (pay : List SWord) : Prop :=
      pay.length = e.cf.pw ∧ ∀ w ∈ pay, w.poison = false ∧ w.invalid = false
    -- dispatch
    (takeToken (s.route .a e.cf.dinroute).dst = none → exec (.muleDescriptor t0) s = .next s)
    ∧ (∀ ws rest, takeToken (s.route .a e.cf.dinroute).dst = some (ws, rest) →
      let w := tokHdr ws
      let x := m.exch (payFld w 6 1)
      let ex := payFld w 8 2
      let n := Tab.look (fun _ => 0) m.counts (x * 4096 + ex)
      (m.nextX ≤ payFld w 6 1 → exec (.muleDescriptor t0) s = .next s)
      ∧ (payFld w 6 1 < m.nextX → ∃ t, exec (.muleDescriptor t0) s = .next t
        ∧ (t.route .a e.cf.dinroute).dst = rest
        ∧ (t.route .a e.cf.dinroute).creditsBack
            = (s.route .a e.cf.dinroute).creditsBack + ws.length
        ∧ t.mem = s.mem ∧ t.cores = s.cores
        ∧ (e.bad m x w = true → t.bwt.incomp = true
          ∧ t.getF (fMulBadBaddesc e.t)
            = incSat (fMulBadBaddesc e.t).width (s.getF (fMulBadBaddesc e.t)) 1
          ∧ (t.muleT e.t).descs
            = m.descs ++ [⟨payFld w 0 4, x, List.replicate (payFld w 4 1) (3, 0)⟩])
        ∧ (m.dOpen.contains x = true →
          Tab.look (fun _ => 0) (t.muleT e.t).prevTok x = payFld w 0 4 + 1)
        ∧ (e.bad m x w = false → payFld w 4 1 = 1 → m.rOpen.contains x = true →
          (e.cf.q ≤ n → (t.muleT e.t).descs = m.descs ++ [⟨payFld w 0 4, x, [(2, 0)]⟩]
            ∧ tableWord t e (e.descAt x (payFld w 0 4)) = w
            ∧ (t.rd (rMulDrop e.t)).toNat = incSat 32 (s.rd (rMulDrop e.t)).toNat 1
            ∧ t.bwt.incomp = s.bwt.incomp)
          ∧ (n < e.cf.q → (t.muleT e.t).descs = m.descs ++ [⟨payFld w 0 4, x, [(0, 0)]⟩]
            ∧ Tab.look (fun _ => 0) (t.muleT e.t).counts (x * 4096 + ex) = n + 1
            ∧ (let dst := s.memberChip e.herd (e.ownerOf ex)
              let hd := markWord (muleHdr dst s.physChip ex 0 (toS 8 (payFld w 5 1)) (payFld w 0 4)
                (payFld w 6 1) e.t (e.me * e.cf.q + n) e.me) 0 false 0
              ∀ r, cleanPay (ws.drop 1) → e.ownerOf ex ≠ e.me →
                tokDst (hd :: ws.drop 1) = dst →
                ((s.portFor 0 dst).bind fun p => s.muleRoute p e.cf.stg) = some r →
                (t.route .a r).src = (s.route .a r).src ++ (hd :: ws.drop 1).map (fun w => (none, w))
                ∧ tableWord t e (e.descAt x (payFld w 0 4)) = w)))))
    -- delivery
    ∧ (∀ x : Fin 4096,
      let pos := Tab.look (fun _ => 0) m.delivered x
      let k := slotKey (pos / 65536) x (pos % 65536)
      let filled : Prop := Tab.look (fun _ => 0) m.owner k = 1
      let r := (e.experts.getD x (0, 0)).2
      (e.ownerOf x ≠ e.me ∨ e.cf.nexp ≤ x.val ∨ m.opened (pos / 65536) = false
          ∨ (¬ filled ∧ m.dOpen.contains (pos / 65536) = true) →
        exec (.muleDelivery t0 x) s = .next s)
      ∧ (e.ownerOf x = e.me → x.val < e.cf.nexp → m.opened (pos / 65536) = true → s.stgEcc = [] →
        filled ∨ m.dOpen.contains (pos / 65536) = false → ∃ t, exec (.muleDelivery t0 x) s = .next t
        ∧ (filled → (t.route .a r).src = (s.route .a r).src ++ (List.range (e.cf.pw + 1)).map fun i =>
            (none, ⟨tableWord s e (e.ownerAt (pos / 65536) x (pos % 65536) + i), i == e.cf.pw, false, false,
              false, 0⟩))
        ∧ (¬ filled → (t.route .a r).src = (s.route .a r).src ++ (List.range (e.cf.pw + 1)).map fun i =>
            (none, ⟨0, i == e.cf.pw, false, false, true, 0⟩))
        ∧ Tab.look (fun _ => 0) (t.muleT e.t).delivered x = e.nextSlot pos
        ∧ (filled → m.dOpen.contains (pos / 65536) = true → Tab.look (fun _ => 0) (t.muleT e.t).owner k = 2)
        ∧ t.reg = s.reg ∧ t.mem = s.mem ∧ t.cores = s.cores))
    -- return
    ∧ (takeToken (s.route .a e.cf.retroute).dst = none → exec (.muleReturn t0) s = .next s)
    ∧ (∀ ws rest, takeToken (s.route .a e.cf.retroute).dst = some (ws, rest) →
      let src := payFld (tokHdr ws) 2 2
      ∃ t, exec (.muleReturn t0) s = .next t ∧ (t.route .a e.cf.retroute).dst = rest ∧ t.mem = s.mem
        ∧ (e.clean ws = false → t.mule = s.mule ∧ t.reg = s.reg)
        ∧ (∀ x, e.clean ws = true → src = s.physChip →
          m.newest (payFld (tokHdr ws) 12 1) = some x → m.rOpen.contains x = true →
          (t.muleT e.t).descs = m.descs.map fun d =>
            if d.exch = x ∧ d.token = payFld (tokHdr ws) 8 4 then
              d.answer (payFld (tokHdr ws) 6 1) (toS 8 (payFld (tokHdr ws) 7 1))
            else d)
        ∧ (∀ x d, e.clean ws = true → src = s.physChip →
          m.newest (payFld (tokHdr ws) 12 1) = some x → m.rOpen.contains x = true → d ∈ m.descs →
          d.exch = x → d.token = payFld (tokHdr ws) 8 4 → d.waits (payFld (tokHdr ws) 6 1) = true →
          ∀ i < e.cf.pw, tableWord t e (e.descAt x d.token + 1 + payFld (tokHdr ws) 6 1 * e.cf.pw + i)
            = (ws.getD (i + 1) (SWord.bad false)).data)
        ∧ (∀ r, e.clean ws = true → src ≠ s.physChip →
          ((s.portFor 0 src).bind fun p => s.muleRoute p e.cf.stg) = some r →
          ∃ h, payFld h 0 2 = src ∧ (∀ o < 254, payFld h (o + 2) 1 = payFld (tokHdr ws) (o + 2) 1)
            ∧ (t.route .a r).src = (s.route .a r).src
              ++ (({ ws.headD (SWord.bad true) with data := h } : SWord) :: ws.drop 1).map
                fun w => (none, w)))
    -- arrival
    ∧ (∀ (n : Fin 4096) (c : ChanCfg), (s.fabApplied.bind fun f => f.chans[n.val]?) = some c →
      s.routeTable c.route = some t0.val →
      (takeToken (s.route .a c.route).dst = none → exec (.muleToken n) s = .next s)
      ∧ ∀ ws rest, takeToken (s.route .a c.route).dst = some (ws, rest) →
        let h := tokHdr ws
        ∃ t, exec (.muleToken n) s = .next t ∧ (t.route .a c.route).dst = rest ∧ t.mem = s.mem
          ∧ (e.clean ws = false → t.mule = s.mule ∧ t.reg = s.reg)
          ∧ (e.clean ws = true → s.badMule e h = true → t.mule = s.mule)
          ∧ (e.clean ws = true → s.badMule e h = false → tokDst ws ≠ s.physChip →
            (s.transitFree e).length < ws.length →
            t.getF (fMulBadTransit e.t)
              = incSat (fMulBadTransit e.t).width (s.getF (fMulBadTransit e.t)) 1
            ∧ t.bwt.incomp = true ∧ t.mule = s.mule)
          ∧ (∀ r, e.clean ws = true → s.badMule e h = false → tokDst ws ≠ s.physChip →
            ws.length ≤ (s.transitFree e).length →
            ((s.portFor (portDie c.port) (tokDst ws)).bind fun p => s.muleRoute p e.cf.stg) = some r →
            t.mule = s.mule ∧ t.reg = s.reg
            ∧ (t.route .a r).src = (s.route .a r).src ++ ((ws.zip (s.transitFree e)).map fun x =>
                (some x.2, { x.1 with data := 0 }))
            ∧ ∀ x ∈ ws.zip (s.transitFree e), tableWord t e x.2 = x.1.data)
          ∧ (∀ x, e.clean ws = true → s.badMule e h = false → tokDst ws = s.physChip →
            payFld h 2 2 ≠ tokDst ws → m.newest (payFld h 12 1) = some x →
            let k := slotKey x (payFld h 4 2) (payFld h 14 2)
            (m.dOpen.contains x = false → t.mule = s.mule ∧ t.getF (fMulLateLate e.t)
              = incSat (fMulLateLate e.t).width (s.getF (fMulLateLate e.t)) 1)
            ∧ (m.dOpen.contains x = true → Tab.look (fun _ => 0) m.owner k = 0 →
              Tab.look (fun _ => 0) (t.muleT e.t).owner k = 1
              ∧ ∀ i < ws.length, tableWord t e (e.ownerAt x (payFld h 4 2) (payFld h 14 2) + i)
                  = (ws.getD i (SWord.bad false)).data)
            ∧ (m.dOpen.contains x = true → Tab.look (fun _ => 0) m.owner k ≠ 0 →
              t.mule = s.mule ∧ t.bwt.incomp = true ∧ t.getF (fMulLateDup e.t)
                = incSat (fMulLateDup e.t).width (s.getF (fMulLateDup e.t)) 1)))
    -- combine
    ∧ (m.descs = [] → exec (.muleCombine t0) s = .next s)
    ∧ (∀ d r, m.descs = d :: r →
      (d.sels.any (fun x => x.1 == 0) = true → exec (.muleCombine t0) s = .next s)
      ∧ (takeToken (s.route .a e.cf.resroute).dst = none → exec (.muleCombine t0) s = .next s)
      ∧ ∀ ws rest, d.sels.any (fun x => x.1 == 0) = false → s.stgEcc = [] →
        takeToken (s.route .a e.cf.resroute).dst = some (ws, rest) →
        let at' := e.descAt d.exch d.token
        let term (x : Nat × Nat × Int) : Int × Int × List Int :=
          (toS 16 (payFld (tableWord s e at') (24 + 2 * x.1) 2), x.2.2,
            e.elems ((List.range e.cf.pw).map fun i => tableWord s e (at' + 1 + x.1 * e.cf.pw + i)))
        ∃ (t : State) (outs : List SWord), exec (.muleCombine t0) s = .next t
          ∧ (t.route .a e.cf.resroute).dst = rest ∧ (t.muleT e.t).descs = r
          ∧ (t.route .a e.cf.coutroute).src
              = (s.route .a e.cf.coutroute).src ++ outs.map (fun w => (none, w))
          ∧ outs.length = ws.length
          ∧ (∀ q < ws.length, (outs.getD q (SWord.bad false)).last = (q + 1 == ws.length)
            ∧ ∀ i < 64, lane (outs.getD q (SWord.bad false)).data i = BitVec.ofInt 32
              (((((List.range d.sels.length).zip d.sels).filter fun x => x.2.1 == 1).map term).foldl (fun acc o =>
                (ovfw (acc + align (o.1 * o.2.2.getD (64 * q + i) 0) (e.cf.gscale + o.2.1) e.cf.cscale)
                  32 false).1)
                (align (lane (ws.getD q (SWord.bad false)).data i).toInt e.cf.rscale e.cf.cscale)))
          ∧ t.reg = s.reg ∧ t.mem = s.mem ∧ t.cores = s.cores)

/-! ### The second order and Bellwether -/

/-- Settings of the second order and of Bellwether (R464, R477, R478, R573, R591, R593, R603): CADENCE_SET
names a period within LAG + 1 to PMAX from its apply step on, beside those named for earlier steps; a
batch-steering request outside its limits is refused whole and counted, one within them waits for its apply
step; ARM either gives the first check that failed or sets ARMED, BWT_STEP and CAL60 and CAL61; DISARM leaves
HALTED when nothing is undecided; HALTREQ makes cause HOST pending; RESOLVE decides the pending attempt or is
ignored. That a period outside its bounds changes nothing is the model's choice (log entry 60); so are the
points of log entries 43 and 44. -/
def Obligations.SecondOrderSettingsTakeEffect : Prop :=
  (∀ (g : Fin 64) (period : BitVec 16) (step : BitVec 64) (s : State),
    ((s.secondCfg.bind fun c => c.groups[g.val]?) = none →
      exec (.cadenceSet g period step) s = .next s)
    ∧ ∀ cf, (s.secondCfg.bind fun c => c.groups[g.val]?) = some cf →
      ((period.toNat ≤ cf.lag ∨ cf.pmax < period.toNat) →
        exec (.cadenceSet g period step) s = .next s)
      ∧ (cf.lag < period.toNat → period.toNat ≤ cf.pmax → ∃ t,
        exec (.cadenceSet g period step) s = .next t
        ∧ t.group g = { s.group g with
            next := (s.group g).next.filter (fun n => decide (n.1 < step.toNat)) ++ [(step.toNat, period.toNat)] }
        ∧ (∀ h : Nat, h ≠ g.val → t.group h = s.group h)
        ∧ t = { s with reg := t.reg, second := t.second }))
  ∧ (∀ (count : BitVec 16) (step : BitVec 64) (s : State) (cf : SecondCfg), s.secondCfg = some cf →
    let cur := s.getF fBwtSombCur
    let ok : Prop := cf.mbmin ≤ count.toNat ∧ count.toNat ≤ cf.mbmax ∧ cur ≤ 2 * count.toNat
      ∧ count.toNat ≤ 2 * cur ∧ (s.committed + 1).toNat < step.toNat
      ∧ (∀ a, s.second.lastApply = some a → a + cf.steermin ≤ step.toNat) ∧ s.getF fBwtSombNext = 0
    ∃ t, exec (.batchSteerRequest count step) s = .next t
      ∧ t.getF fBwtSombCur = cur ∧ SameStores s t ∧ t.stepA = s.stepA
      ∧ (ok → t.getF fBwtSombNext = count.toNat ∧ t.second.apply = step
        ∧ t.rd rBwtSombapply = step.setWidth 32
        ∧ OnlyRegs [rBwtSomb, rBwtSombapply] s { t with second := s.second })
      ∧ (¬ ok → t.getF fBwtSombNext = s.getF fBwtSombNext ∧ t.second = s.second
        ∧ t.getF fBwtSorejCount = incSat fBwtSorejCount.width (s.getF fBwtSorejCount) 1))
  ∧ ∀ (r : Requester) (v : BitVec 32) (s : State), r = .jusia ∨ r = .pf0 →
    (let z := s.readProgram
      let prog := if z.2.1 then progOk z.1 else none
      let x := s.cal (s.getF fBwtCfgStartcal)
      let off := 32 * s.getF fBwtConsoffSlots
      ∃ t, exec (.bwtArm r v) s = .next t ∧ t.mem = z.2.2.mem ∧ t.cores = z.2.2.cores
        ∧ (s.armError prog ≠ 0 → t.getF fBwtStatusArmerr = s.armError prog
          ∧ t.getF fBwtStatusState = z.2.2.getF fBwtStatusState ∧ t.cals = z.2.2.cals)
        ∧ (s.armError prog = 0 → t.getF fBwtStatusState = bwtArmed ∧ t.getF fBwtStatusArmerr = 0
          ∧ t.stepA = z.2.2.rd64 rBwtRstepLo ∧ some t.bwt.code = prog ∧ t.bwt.started = false
          ∧ (t.cal 60).armed = true ∧ (t.cal 60).period = (z.2.2.cal (s.getF fBwtCfgStartcal)).period
          ∧ (s.memEcc = [] → (t.cal 60).phase = (x.phase + off) % x.period
            ∧ (t.cal 61).phase = (x.phase + off + x.period - 32) % x.period)
          ∧ (t.cal 61).armed = true))
    ∧ (∃ t, exec (.bwtDisarm r v) s = .next t
      ∧ (s.getF fBwtStatusState = bwtHalted ∧ s.bitF fBwtStatusUndec = false →
        t.getF fBwtStatusState = bwtIdle ∧ OnlyRegs [rBwtStatus] s t)
      ∧ (¬ (s.getF fBwtStatusState = bwtHalted ∧ s.bitF fBwtStatusUndec = false) → t = s))
    ∧ (∃ t, exec (.bwtHaltreq r v) s = .next t
      ∧ t = { s with bwt := { s.bwt with haltPend := max s.bwt.haltPend 7 } })
    ∧ (∃ t, exec (.bwtResolve r v) s = .next t
      ∧ t.getF fBwtStatusState = (if s.bitF fBwtStatusUndec = true
            ∧ v.toNat / 65536 = s.stepA.toNat % 65536 then t.getF fBwtStatusState
          else s.getF fBwtStatusState)
      ∧ (s.bitF fBwtStatusUndec = true ∧ v.toNat / 65536 = s.stepA.toNat % 65536 →
        t.bwt.decided = true ∧ t.rd64 rBwtLastLo = s.stepA
        ∧ t.bitF fBwtDecHalted = s.bitF fBwtDecHalted
        ∧ (s.getF fBwtStatusState = bwtHalted →
          t.getF fBwtStatusState = bwtHalted ∧ t.bitF fBwtStatusUndec = false)
        ∧ (v.getLsbD 1 = true → t.stepA = s.stepA + 1 ∧ t.getF fBwtDecKind = 1)
        ∧ (v.getLsbD 1 = false → t.stepA = s.stepA ∧ t.getF fBwtDecKind = 2))
      ∧ (¬ (s.bitF fBwtStatusUndec = true ∧ v.toNat / 65536 = s.stepA.toNat % 65536) →
        t.stepA = s.stepA ∧ t.bwt.decided = s.bwt.decided ∧ SameStores s t
        ∧ t.rd rBwtStatus = s.rd rBwtStatus))

/-- The consensus programme (R575, R578, R579, R582, R584, R586, R587, R592): at CAL61 each register takes the
device's own word, the identity word on a standby spare, and the run stands ready for the slot that begins 32
tk later; a CAL60 firing starts it where the programme runs. The entry next in the run, when its kind is the
command's, does what its kind says. SEND puts the word of register A, sealed for the run, into the frame of
its slot on each named port that is UP; RECV combines the copy it takes into register A and stores it in
register B, or, with no valid copy, puts HALT into them and enters HALTED with cause MISS; COPY copies; DECIDE
shows the word, ends the run and decides: HALT enters HALTED, and so does every word while HALTED, HOLD and
SKIP leave the step number, COMMIT raises it by 1, and only a word in which every member is ready on one step
and one image, with no flag set, is committed. Without an entry of the kind the command changes nothing. Where
the rules leave a point open it states the model's choice (log entry 44). -/
def Obligations.ConsensusRunsItsProgramme : Prop :=
  ∀ s : State,
    (s.progNext 1 = none → exec .consensusSend s = .next s)
    ∧ (s.progNext 2 = none → exec .consensusRecv s = .next s)
    ∧ (s.progNext 3 = none → exec .consensusCopy s = .next s)
    ∧ (s.progNext 4 = none → exec .consensusDecide s = .next s)
    ∧ (∀ e p u, s.progNext 1 = some (e, p, u) → ∃ t, exec .consensusSend s = .next t
      ∧ (∀ q, (t.port q).consq = (u.port q).consq ++ (if u.portUp q = true then
            List.replicate ((cePorts e).count q)
              (BitVec.ofNat 64 (p.cs.toNat + 32 * ceSlot e), consCell (u.creg (ceRegA e)) p.cs) else []))
      ∧ t = { u with ports := t.ports })
    ∧ (∀ e p u, s.progNext 2 = some (e, p, u) →
      (∀ w, (cePorts e).findSome? (u.consCopy p e) = some w → ∃ t, exec .consensusRecv s = .next t
        ∧ (ceRegA e ≠ ceRegB e → t.creg (ceRegA e) = combine (u.creg (ceRegA e)) w)
        ∧ (ceRegB e ≠ 0xFF → t.creg (ceRegB e) = w)
        ∧ (∀ k, k ≠ ceRegA e → k ≠ ceRegB e → t.creg k = u.creg k)
        ∧ t = { u with bwt := { u.bwt with c := t.bwt.c, prog := t.bwt.prog } })
      ∧ ((cePorts e).findSome? (u.consCopy p e) = none → ∃ t, exec .consensusRecv s = .next t
        ∧ (ceRegA e ≠ ceRegB e → t.creg (ceRegA e) = cwHalt (u.creg (ceRegA e)) 1)
        ∧ (ceRegB e ≠ 0xFF → t.creg (ceRegB e) = cwHalt cwIdentity 1)
        ∧ (t.rd rBwtMiss).toNat = incSat 32 (u.rd rBwtMiss).toNat 1
        ∧ t.getF fBwtStatusState = bwtHalted
        ∧ (u.getF fBwtStatusState ≠ bwtHalted → t.getF fBwtStatusHcause = 1 ∧ t.bwt.barred = true)
        ∧ (u.sav.clutch = none → SameStores u t)))
    ∧ (∀ e p u, s.progNext 3 = some (e, p, u) → ∃ t, exec .consensusCopy s = .next t
      ∧ (ceRegB e ≠ 0xFF → t.creg (ceRegB e) = u.creg (ceRegA e))
      ∧ (∀ k, k ≠ ceRegB e → t.creg k = u.creg k)
      ∧ t = { u with bwt := { u.bwt with c := t.bwt.c } })
    ∧ ((s.cal 61).armed = true → ownerSlot (s.cal 61).owner = none → s.timeRuns = true →
      ∃ t w, exec (.calendarFiring 61) s = .next t
        ∧ (∀ k < 4, t.creg k = w) ∧ (∀ k < 16, t.rd (rBwtOwn k) = w.extractLsb' (32 * k) 32)
        ∧ t.bwt.prog = some ⟨t.fab.time + 32, 0, []⟩ ∧ t.bwt.cons = []
        ∧ (s.standby = true → w = cwIdentity)
        ∧ (s.inJob = true → w = s.sealWord (if s.getF fBwtStatusState = bwtHalted
            then max (s.getF fBwtStatusHcause) s.bwt.haltPend else s.bwt.haltPend))
        ∧ SameStores s t)
    ∧ ((s.cal 60).armed = true → ownerSlot (s.cal 60).owner = none → s.timeRuns = true →
      ∃ t, exec (.calendarFiring 60) s = .next t
        ∧ t.bwt = (if s.programRuns = true then s.bwt else { s.bwt with prog := none }) ∧ SameStores s t)
    ∧ ∀ e p u, s.progNext 4 = some (e, p, u) →
      let w := u.creg (ceRegA e)
      let d0 := decideWord w u.nlog (u.getF fBwtStreakDig) (u.getF fBwtCfgDigmax)
      let d : Decision := if u.getF fBwtStatusState = bwtHalted then
          (match d0 with | .halt c => .halt c | _ => .halt (u.getF fBwtStatusHcause))
        else d0
      ∃ t, exec .consensusDecide s = .next t ∧ t.bwt.prog = none
        ∧ (∀ k < 16, t.rd (rBwtWord k) = w.extractLsb' (32 * k) 32)
        ∧ (∀ c, d = .halt c → t.stepA = u.stepA ∧ t.getF fBwtStatusState = bwtHalted
          ∧ t.bitF fBwtDecHalted = true
          ∧ (t.rd rBwtHalts).toNat = incSat 32 (u.rd rBwtHalts).toNat 1
          ∧ (u.getF fBwtStatusState ≠ bwtHalted →
            t.getF fBwtStatusHcause = c % 256 ∧ t.bwt.barred = true)
          ∧ t.committed = u.committed
          ∧ (u.sav.clutch = none → SameStores u t))
        ∧ (d ≠ .commit → t.stepA = u.stepA)
        ∧ (∀ k n, (d = .hold ∧ k = 3 ∧ n = rBwtHolds) ∨ (d = .skip ∧ k = 2 ∧ n = rBwtSkips)
            ∨ (d = .commit ∧ k = 1 ∧ n = rBwtCommits) →
          t.getF fBwtDecKind = k ∧ t.bitF fBwtDecHalted = false ∧ t.rd64 rBwtLastLo = u.stepA
          ∧ (t.rd n).toNat = incSat 32 (u.rd n).toNat 1)
        ∧ (d = .hold → t.bwt.decided = u.bwt.decided ∧ SameStores u t
          ∧ ((u.rd (rBwtOwn 3)).getLsbD 3 = true →
            (t.rd rSavHoldcnt).toNat = incSat 32 (u.rd rSavHoldcnt).toNat 1))
        ∧ (d = .skip → t.bwt.decided = true ∧ t.committed = u.committed)
        ∧ (d = .commit → t.bwt.decided = true ∧ t.stepA = u.stepA + 1 ∧ t.committed = u.stepA
          ∧ t.rd rBwtStreak = 0)
        ∧ (t.stepA ≠ u.stepA → cwFlags w = 0 ∧ cwFld w 8 4 = u.nlog
          ∧ cwFld w 0 4 = cwFld w 4 4 ∧ cwFld w 16 2 = cwFld w 18 2)

/-! ### The save port -/

/-- A drive's record as every step leaves it: the command identifiers are in use once, a command that waits for a
place is an I/O command, none moves more than 32 blocks, and the queues are within their sizes. -/
def Sys2Proof.Claims.DriveWf (d : DriveSt) : Prop :=
  (∀ c ∈ d.cmds, c.cid ≠ d.nextCid ∧ (c.sent = none → c.adm = false) ∧ c.blocks ≤ 32)
    ∧ d.admin.tail < 16 ∧ d.admin.head < 16 ∧ d.io.tail < 64 ∧ d.io.head < 64

/-- Admin command `k` of an attachment, as it stands in the submission queue. -/
def Sys2Proof.Claims.attachCmd (s : State) (n : Drive) (cid : BitVec 16) (k : Nat) : NvmeCmd :=
  let o := attachOps.getD (k - 1) (0, 0, 0, 0)
  ⟨cid, o.1, BitVec.ofNat 64 (o.2.1 + 2 ^ 32 * o.2.2.1), o.2.2.2, false,
    some ((s.attachAddr n o.1).getD (Config.savBuffer (65 * n.val + 64))), [], .attach, false, some 64,
    s.clock, false⟩

/-- Admin command `k` of an attachment has entered the admin queue behind the commands `cs`, at the tail `q`
of that queue, and left for the drive. -/
def Sys2Proof.Claims.AdminSent (s t : State) (n : Drive) (cid : BitVec 16) (cs : List NvmeCmd) (q k : Nat) :
    Prop :=
  let c := attachCmd s n cid k
  let sqe := c.sqe ((c.addr.getD 0).toNat) (s.prpAt n 64)
  (t.drive n).attach = k ∧ (t.drive n).cmds = cs ++ [c]
    ∧ (∃ l, t.out = l ++ [.nvme n true sqe []])
    ∧ ∀ b < 64, Tab.look (fun _ => 0) t.mem (s.qbase n + 64 * q + b) = sqe.getD b 0

/-- What steps 1 to 3 of an attachment come to (R605-R607): no usable device, ABSENT; a controller that is not
ready in time, INIT; or a trained link, the bus number, the controller enabled with a 4 KiB page and the admin
queues of R610, and Identify Controller next. After a timeout a failure shows TIMEOUT. -/
def Sys2Proof.Claims.Trained (s t : State) (n : Drive) (again : Bool) : Prop :=
  t.bitF (fSavDrvStatReady n) = false
  ∧ (((t.drive n).attach = 0 ∧ (t.getF (fSavDrvStatFail n) = if again then 6 else 1))
    ∨ ((t.drive n).attach = 0 ∧ (t.getF (fSavDrvStatFail n) = if again then 6 else 4))
    ∨ ((t.drive n).attach = 3 ∧ 1 ≤ t.getF (fSavDrvStatSpeed n) ∧ t.getF (fSavDrvStatSpeed n) ≤ 6
      ∧ .enumerate n (n.val + 1) ∈ t.out ∧ .enable n 4096 (s.qbase n) (s.qbase n + 0x1000) ∈ t.out
      ∧ (t.drive n).resetTried = again))

/-- Drives and the hold-up supply (R331, R605-R613, R636-R639, R736): RESET begins an attachment by EN, with
the deletion of the I/O queues that the controller has; what stands below the root port is a free value, so
that an attachment ends ABSENT, INIT or goes on (log entry 29); a completion entry is written into its queue,
and one whose phase bit is old is not taken; one for no outstanding command counts in STRAY alone; a good one
of an attachment goes on to its next command and ends READY; a Read of an image puts its bytes into device
memory; a Read or Write that fails is issued once more, and a second failure fails the drive with IOERR; a
command without completion for SAV_CFG.TMO begins one new attachment, and a second timeout of it fails the
drive with TIMEOUT; a link that goes down fails it with LINK; a memory request outside the queues and the PRP
ranges is refused, the third within a second failing the drive; a hold-up sample gives VMEAS and the voltage
estimate, from which HUPLOW, HDIS and PFAIL follow; GSTALE is set 50 ms after the last gauge read. Where the
rules leave a point open it states the model's choice (log entries 28 and 29). -/
def Obligations.DrivesAndHoldupFollowTheirEvents : Prop :=
  (∀ (n : Drive) (s : State),
    let d := s.drive n
    let rdy := s.bitF (fSavDrvStatReady n)
    let failed (t : State) (cause : Nat) : Prop := t.bitF (fSavDrvStatReady n) = false
      ∧ t.getF (fSavDrvStatFail n) = cause
      ∧ (s.sav.clutch = none → s.sav.restore = none → (t.drive n).cmds = [])
    let others (t : State) : Prop := (∀ m : Nat, m ≠ n.val → t.drive m = s.drive m)
      ∧ t.cores = s.cores ∧ t.sav = s.sav
    let noHup (x : SavSt) : SavSt := { x with clutch := x.clutch.map fun c => { c with huplow := false } }
    (∀ (r : Requester) (v : BitVec 32), r = .jusia ∨ r = .pf0 →
      ∃ t, exec (.driveReset r n v) s = .next t ∧ t.cores = s.cores
        ∧ t.bitF (fSavDrvCtlEn n) = v.getLsbD 0
        ∧ (v.getLsbD 0 = true → d.paired = true → DriveWf d → (∀ m : Nat, m ≠ n.val → t.drive m = s.drive m)
          ∧ noHup t.sav = noHup s.sav ∧ t.bitF (fSavDrvStatReady n) = false ∧ t.getF (fSavDrvStatFail n) = 0
          ∧ AdminSent s t n d.nextCid (d.cmds.filter fun c => c.use != .attach) d.admin.tail 1)
        ∧ (v.getLsbD 0 = true → d.paired = false → Trained s t n false)
        ∧ (v.getLsbD 0 = false → (t.drive n).attach = 0 ∧ failed t 0))
    ∧ (∀ e : NvmeEntry,
      let q := if e.sqid = 0 then d.admin else d.io
      let at' := s.qbase n + (if e.sqid = 0 then 0x1000 else 0x3000) + 16 * q.head
      let c0 := d.cmds.find? fun c => c.cid == e.cid && c.sent.isSome
      ∃ t, exec (.nvmeCompletion n e) s = .next t
      ∧ (e.status.getLsbD 0 ≠ q.phase → s.memEcc = [] →
        t = { s with mem := Tab.putList (fun _ => 0) s.mem at' (cqeBytes e) })
      ∧ (e.status.getLsbD 0 = q.phase → c0 = none → others t ∧ (t.drive n).cmds = d.cmds
        ∧ t.mem = Tab.putList (fun _ => 0) s.mem at' (cqeBytes e)
        ∧ (s.memEcc = [] → t.getF (fSavDrvStatStray n) = incSat 16 (s.getF (fSavDrvStatStray n)) 1))
      ∧ ∀ c : NvmeCmd, e.status.getLsbD 0 = q.phase → c0 = some c →
        e.sqid.toNat = (if c.adm then 0 else 1) → e.sqhead.toNat < (if c.adm then 16 else 64) →
        DriveWf d →
        let left := d.cmds.filter fun x => x.cid != c.cid
        (e.status.toNat / 2 ≠ 0 → c.use ≠ .attach → c.use ≠ .dead → (c.opc = 1 ∨ c.opc = 2) →
          c.retried = false → others t ∧ ∃ c' ∈ (t.drive n).cmds,
            c' = { c with
              cid := d.nextCid, retried := true, addr := c'.addr, sent := c'.sent, since := c'.since, fua := c'.fua }
            ∧ c'.fua = (c.fua || (c.opc == 1 && c'.sent.isSome && s.huplow)))
        ∧ (e.status.toNat / 2 ≠ 0 → c.use ≠ .attach → c.use ≠ .dead →
          ¬ (c.opc = 1 ∨ c.opc = 2) ∨ c.retried = true → failed t 5)
        ∧ (e.status.toNat / 2 ≠ 0 → c.use = .attach → 3 ≤ d.attach →
          failed t (if d.resetTried = true then 6 else 4))
        ∧ (c.use = .attach → d.attach = 2 → Trained s t n d.resetTried)
        ∧ (e.status.toNat / 2 = 0 → c.use = .dead → s.sav.clutch = none → s.sav.restore = none →
          (∀ x ∈ d.cmds, x.sent.isSome = true) → others t ∧ (t.drive n).cmds = left)
        ∧ (e.status.toNat / 2 = 0 → c.use = .attach → 3 ≤ d.attach → d.attach ≤ 6 →
          (d.attach = 3 → identCtlOk e.data = true) → (d.attach = 4 → s.identNsOk n e.data = true) → rdy = false →
          s.memEcc = [] → others t ∧ AdminSent s t n d.nextCid left d.admin.tail (d.attach + 1))
        ∧ (e.status.toNat / 2 = 0 → c.use = .attach → d.attach = 3 → identCtlOk e.data = false →
          failed t (if d.resetTried = true then 6 else 3))
        ∧ (e.status.toNat / 2 = 0 → c.use = .attach → d.attach = 7 → t.bitF (fSavDrvStatReady n) = true
          ∧ (t.drive n).attach = 0 ∧ (t.drive n).paired = true)
        ∧ (∀ k ld, e.status.toNat / 2 = 0 → c.use = .image k → s.loader = some ld →
          (∀ x ∈ d.cmds, x.sent.isSome = true) → others t ∧ (t.drive n).cmds = left
          ∧ t.mem = puts s.mem [(at', cqeBytes e),
              (ld.src.toNat + 0x20000 * k, e.data.take (min 0x20000 (ld.len.toNat - 0x20000 * k)))])
        ∧ ∀ cl : Clutch, s.sav.clutch = some cl → c.use = .header → e.status.toNat / 2 = 0 →
          s.getF fSavStatusState = savSeal → cl.sealStep = 4 → s.sav.restore = none →
          (∀ i < cl.nrec, (cl.recd i).issued = true) → (s.drives.map (·.1)).Pairwise (· < ·) →
          (∀ x ∈ s.drives, ∀ y ∈ x.2.cmds, y.use.ofClutch = true → x.1 = n.val ∧ y.cid = c.cid) →
          t.rd64 rSavCidLo = cl.id ∧ t.rd64 rSavCstepLo = cl.cstep ∧ t.getF fSavStatusState = savIdle
            ∧ t.getF fSavStatusCode = 0 ∧ t.bitF fSavStatusDone = true ∧ t.sav.clutch = none)
    ∧ (∀ cid : BitVec 16,
      let c0 := d.cmds.find? fun c => c.cid == cid && c.sent.isSome
      (c0 = none → exec (.nvmeTimeout n cid) s = .next s)
      ∧ ∀ c, c0 = some c →
        (s.age c.since < 125000 * s.getF fSavCfgTmo → exec (.nvmeTimeout n cid) s = .next s)
        ∧ (125000 * s.getF fSavCfgTmo ≤ s.age c.since → c.use ≠ .attach ∨ 3 ≤ d.attach →
          ∃ t, exec (.nvmeTimeout n cid) s = .next t
          ∧ (c.timed = true ∨ d.resetTried = true → failed t 6)
          ∧ (c.timed = false → d.resetTried = false → Trained s t n true)))
    ∧ (∃ t, exec (.driveLinkDown n) s = .next t ∧ t.getF (fSavDrvStatSpeed n) = 0
      ∧ (rdy = true ∨ d.attach ≠ 0 → failed t 2)
      ∧ (rdy = false → d.attach = 0 → t.drive n = { d with paired := false }
        ∧ OnlyRegs [rSavDrvStat n] s { t with drives := s.drives }))
    ∧ (∀ (a : BitVec 64) (len : BitVec 13),
      (s.drvReqOk n a.toNat len.toNat = true → exec (.driveMemoryRequest n a len) s = .next s)
      ∧ (s.drvReqOk n a.toNat len.toNat = false →
        let recent := d.badReqs.filter fun t => s.age t < 125000000
        ∃ t, exec (.driveMemoryRequest n a len) s = .next t
        ∧ (∃ l, t.out = s.out ++ .ur n :: l)
        ∧ (2 ≤ recent.length → rdy = true → failed t 5)
        ∧ (recent.length < 2 → others t ∧ t.bitF (fSavDrvStatReady n) = rdy ∧ t.mem = s.mem
          ∧ (t.drive n).badReqs = recent ++ [s.clock]))))
  ∧ (∀ (mv : BitVec 12) (s : State),
    let vm := mv.toNat * s.getF fSavHcfgDiv / 4
    let ev : Int := (s.getF fSavHcfgCap : Int)
      * ((vm : Int) * vm - (s.getF fSavHvoltVmin : Int) * s.getF fSavHvoltVmin) / 2000000
    let v := (max 0 (min ev (2 ^ 32 - 1))).toNat
    let g := (s.rd rSavHestg).toNat
    let stale := s.bitF fSavHstatGstale
    let dis : Prop := stale = false ∧ (max g v * s.getF fSavHcfgTol < (max g v - min g v) * 16
      ∨ g = 0 ∧ s.holdNeed ≤ v ∨ v = 0 ∧ s.holdNeed ≤ g)
    ∃ t, exec (.holdupSample mv) s = .next t
      ∧ t.getF fSavHstatVmeas = min vm 65535 ∧ (t.rd rSavHestv).toNat = v
      ∧ (t.bitF fSavHstatHuplow = true ↔ (if stale = true then v else min g v) < s.holdNeed)
      ∧ (t.bitF fSavHstatHdis = true ↔ s.bitF fSavHstatHdis = true ∨ dis)
      ∧ (t.bitF fSavHstatPfail = true ↔ s.bitF fSavHstatPfail = true ∨ vm < s.getF fSavHvoltVfail)
      ∧ (s.bitF fSavHstatPfail = true ∨ s.getF fSavHvoltVfail ≤ vm
          ∨ (∀ n : Drive, s.bitF (fSavDrvStatReady n) = false) → t.mem = s.mem)
      ∧ t.cores = s.cores)
  ∧ ∀ s : State,
    let old := s.age (s.sav.gaugeAt.getD 0)
    (old < 6250000 → exec .gstale s = .next s)
    ∧ (6250000 ≤ old → ∃ t, exec .gstale s = .next t
      ∧ t.bitF fSavHstatGstale = true
      ∧ (t.bitF fSavHstatHuplow = true ↔ (s.rd rSavHestv).toNat < s.holdNeed)
      ∧ t.mem = s.mem ∧ t.cores = s.cores)

/-- A clutch and a restore (R615-R617, R618, R620-R625, R630, R633): REQ asks Jusia; a grant waits for a step
start while ARMED and else begins CAPTURE at once, which copies the job state record and zeroes the area's
headers on every READY drive, or ends with PLAN, NODRIVE, or WRITER where a queued command writes a piece
against R616; ABORT ends it; a piece is read by SNAP and is complete once its words have arrived; a record
whose pieces are complete is put into its ring place and counted; once every record is written the seal
flushes the drives that hold one; RESTORE reads the headers. Where the rules leave a point open it states the
model's choice (log entry 29). -/
def Obligations.ClutchRunsFromGrantToSeal : Prop :=
  (∀ (r : Requester) (v : BitVec 32) (s : State), r = .jusia ∨ r = .pf0 →
    exec (.savReq r v) s = .next { s with out := s.out ++ [.clutchAsk] }
    ∧ (s.sav.clutch = none → exec (.savAbort r v) s = .next s)
    ∧ (∀ c, s.sav.clutch = some c → ∃ t, exec (.savAbort r v) s = .next t
      ∧ t.sav.clutch = none ∧ t.getF fSavStatusState = savIdle ∧ t.getF fSavStatusCode = 1
      ∧ t.bitF fSavStatusDone = true ∧ t.mem = s.mem ∧ t.cores = s.cores
      ∧ ∀ x ∈ t.drives, ∀ y ∈ x.2.cmds, y.use.ofClutch = false)
    ∧ (s.armed = true ∨ s.getF fSavStatusState ≠ savIdle →
      exec (.savRestore r v) s = .next (s.logCsr 4 rSavCtl v.toNat))
    ∧ (s.armed = false → s.getF fSavStatusState = savIdle → s.sav.clutch = none →
      let ar := s.getF fSavRstrArea
      let as := if ar = 2 then [0, 1] else [ar]
      let on (n : Drive) : Bool := s.bitF (fSavDrvStatReady n) && (s.getF fSavRstrDrvmask).testBit n
      ∃ t, exec (.savRestore r v) s = .next t
        ∧ ((∀ n, on n = false) → (∀ x ∈ s.drives, ∀ y ∈ x.2.cmds, y.use.ofRestore = false) →
          t.getF fSavStatusState = savIdle ∧ t.getF fSavStatusCode = 9
          ∧ t.bitF fSavStatusDone = true ∧ t.mem = s.mem)
        ∧ (∀ n, on n = true → (s.drive n).cmds = [] → t.getF fSavStatusState = 5 ∧ t.rd rSavRstrerr = 0
          ∧ (t.drive n).cmds.map (·.use) = as.map NvmeUse.rhead
          ∧ (t.drive n).cmds.map (·.lba) = as.map (fun a => BitVec.ofNat 64 (s.areaLba n a))
          ∧ ∀ c ∈ (t.drive n).cmds, c.opc = 2 ∧ c.blocks = 1 ∧ c.sent.isSome = true)
        ∧ t.cores = s.cores))
  ∧ (∀ s : State,
    let bs := (s.readPlan (s.rd64 rSavPlanLo).toNat (s.getF fSavPlanlenEntries)).1
    let id := s.rd64 rSavCidLo + 1
    let rdy (n : Drive) : Bool := s.bitF (fSavDrvStatReady n)
    (s.getF fSavStatusState ≠ savIdle → exec .clutchGrant s = .next s)
    ∧ (s.getF fSavStatusState = savIdle → s.armed = true → ∃ t, exec .clutchGrant s = .next t
      ∧ t.getF fSavStatusState = savWait ∧ (t.sav.clutch.map (·.id)) = some id
      ∧ OnlyRegs [rSavStatus] s { t with sav := s.sav })
    ∧ (s.getF fSavStatusState = savIdle → s.armed = false → s.memEcc = [] →
      ∃ t, exec .clutchGrant s = .next t ∧ t.cores = s.cores
      ∧ (s.planOk bs = false → t.sav.clutch = none ∧ t.getF fSavStatusState = savIdle
        ∧ t.getF fSavStatusCode = 4 ∧ t.mem = s.mem)
      ∧ (s.planOk bs = true → (∀ n, rdy n = false) → t.sav.clutch = none
        ∧ t.getF fSavStatusState = savIdle ∧ t.getF fSavStatusCode = 5 ∧ t.mem = s.mem)
      ∧ (s.planOk bs = true → ∀ n, rdy n = true → s.queuedBreach (bs.map PlanEnt.ofBytes) = true →
        t.sav.clutch = none ∧ t.getF fSavStatusState = savIdle ∧ t.getF fSavStatusCode = 3
        ∧ t.mem = s.mem)
      ∧ (s.planOk bs = true → ∀ n, rdy n = true → s.queuedBreach (bs.map PlanEnt.ofBytes) = false →
        t.getF fSavStatusState = savCapture ∧ t.rd rSavCaprec = 0 ∧ t.rd rSavDrnrec = 0
        ∧ (∃ c, t.sav.clutch = some c ∧ c.id = id ∧ c.plan = bs.map PlanEnt.ofBytes
          ∧ c.cstep = s.committed ∧ c.jsr = ofLanes s.jsrWords)
        ∧ ((s.drive n).cmds = [] → ∃ z, (t.drive n).cmds = [z] ∧ z.opc = opWrite ∧ z.use = .zero
          ∧ z.lba = BitVec.ofNat 64 (s.areaLba n (id.toNat % 2)) ∧ z.blocks = 1 ∧ z.fua = true
          ∧ z.data = List.replicate 4096 0 ∧ z.sent.isSome = true))))
  ∧ (∀ (i : BitVec 16) (s : State),
    (s.sav.clutch = none ∨ s.getF fSavStatusState ≠ savCapture → exec (.pieceRead i) s = .next s)
    ∧ ∀ (c : Clutch) (e : PlanEnt), s.sav.clutch = some c → c.plan[i.toNat]? = some e →
      s.getF fSavStatusState = savCapture →
      let k := s.stk e.stack
      let rt := s.route .a e.route
      ((c.piece i.toNat).phase = 2 → exec (.pieceRead i) s = .next s)
      ∧ ((c.piece i.toNat).phase = 0 → s.mayRead = false ∨ 8 ≤ k.qh.length
          ∨ (∃ j ∈ c.reading, c.plan[j]?.map (·.route) = some e.route) →
        exec (.pieceRead i) s = .next s)
      ∧ ((c.piece i.toNat).phase = 0 → s.mayRead = true → k.qh.length < 8 →
        (∀ j ∈ c.reading, c.plan[j]?.map (·.route) ≠ some e.route) →
        (∀ b ∈ k.qa, s.writesPiece e.stack b.cmd e = false) →
        (∀ b ∈ k.qh, beKnown (beOp b.cmd) = true) →
        ∃ t, exec (.pieceRead i) s = .next t
          ∧ (t.sav.clutch.map fun c => (c.piece i.toNat).phase) = some 1
          ∧ (∃ b, (t.stk e.stack).qh = k.qh ++ [b] ∧ b.cmd = snapCmd e (-1)
            ∧ b.origin = .save i.toNat ∧ b.payload = [])
          ∧ t.mem = s.mem ∧ t.reg = s.reg ∧ t.cores = s.cores)
      ∧ ((c.piece i.toNat).phase = 1 → rt.dst.length < e.nt → exec (.pieceRead i) s = .next s)
      ∧ ((c.piece i.toNat).phase = 1 → e.nt ≤ rt.dst.length → (c.piece i.toNat).log = false →
        ∃ t, exec (.pieceRead i) s = .next t
          ∧ (t.route .a e.route).dst = rt.dst.drop e.nt
          ∧ (∃ c', t.sav.clutch = some c' ∧ (c'.piece i.toNat).phase = 2
            ∧ (∀ j < e.nt, ∀ w, rt.dst[j]? = some w → ∀ b < 256,
              Tab.look (fun _ => 0) (c'.piece i.toNat).bytes (256 * j + b)
                = (Payload.bytes w.data).getD b 0)
            ∧ (∀ k, k ≠ i.toNat → c'.piece k = c.piece k) ∧ c'.recs = c.recs)
          ∧ t.mem = s.mem ∧ t.reg = s.reg ∧ t.cores = s.cores))
  ∧ ∀ s : State,
    (s.sav.clutch = none → exec .recordCapture s = .next s ∧ exec .clutchSeal s = .next s)
    ∧ ∀ c, s.sav.clutch = some c →
      (s.getF fSavStatusState ≠ savCapture → exec .recordCapture s = .next s)
      ∧ (s.getF fSavStatusState ≠ savDrain → exec .clutchSeal s = .next s)
      ∧ (∀ i, (c.recd i).captured = false → i < c.nrec → (∀ j < i, (c.recd j).captured = true) →
        s.getF fSavStatusState = savCapture →
        (s.placeFree c i = false ∨ (∃ k ∈ c.overlaps i, (c.piece k).phase ≠ 2) →
          exec .recordCapture s = .next s)
        ∧ (s.placeFree c i = true → (∀ k ∈ c.overlaps i, (c.piece k).phase = 2) →
          (s.recDrive c = none → ∃ t, exec .recordCapture s = .next t
            ∧ t.getF fSavStatusCode = 6 ∧ t.sav.clutch = none ∧ t.mem = s.mem)
          ∧ ∀ n, s.recDrive c = some n → s.memEcc = [] → s.sav.restore = none →
            ∃ (t : State) (c' : Clutch), exec .recordCapture s = .next t ∧ t.sav.clutch = some c'
              ∧ (c'.recd i).captured = true ∧ (c'.recd i).drive = some n
              ∧ (c'.recd i).crc = crc64 (c.recData i).1 ∧ (c'.recd i).poison = (c.recData i).2
              ∧ (s.useBusy (· == .zero) = true →
                t.mem = Tab.putList (fun _ => 0) s.mem (s.ringPlace i) (c.recData i).1)
              ∧ (t.rd rSavCaprec).toNat = ((c.recsBy (·.captured)).length + 1) % 2 ^ 32
              ∧ t.getF fSavStatusState = (if (c.recsBy fun r => !r.captured).length = 1 then savDrain
                  else savCapture)
              ∧ t.cores = s.cores))
      ∧ (s.getF fSavStatusState = savDrain → c.sealStep = 0 → s.sav.restore = none →
        (∀ i < c.nrec, (c.recd i).written = true ∧ (c.recd i).issued = true) →
        let holds (n : Drive) : Bool := (c.recsBy fun r => r.drive == some n.val) != []
        (∃ n : Drive, holds n = true) → (∀ n : Drive, holds n = true → (s.drive n).cmds = []) →
        ∃ t, exec .clutchSeal s = .next t
          ∧ t.getF fSavStatusState = savSeal ∧ t.sav.clutch = some { c with sealStep := 1 }
          ∧ (∀ n : Drive, (holds n = true →
              ∃ z, (t.drive n).cmds = [z] ∧ z.opc = opFlush ∧ z.use = .flush)
            ∧ (holds n = false → (t.drive n).cmds = (s.drive n).cmds))
          ∧ t.cores = s.cores)

/-! ### Power and clocks -/

/-- Operating points, voltage, current, ceiling and temperature (R649-R652, R656-R659, R662-R664): a staging
within its limits is pending, and a raise puts its voltage on every quadrant at once; a die that waits
switches when its idle PLL is locked and its quadrants report VOK, and the last die puts the new multiplier
in force; VOK and the VOLTAGE hold follow VSENSE with a hysteresis of 10 mV; the current level rises by 2
over the limit and falls by 1 near it; a fast overcurrent sets level 8; a sample is held when the charges of
a window could pass the limit; THERMAL holds follow the sensors with a hysteresis of 2 °C, and a critical
reading opens every switch that is RAMP or ON. Where the rules leave a point open it states the model's
choice (log entry 45). -/
def Obligations.PowerControllersFollowTheirRules : Prop :=
  (∀ (ph : Fin 4) (m : BitVec 5) (s : State),
    let mult := s.getF fPwrOppointMult
    let ok : Prop := (∃ p, s.phaseCfg ph = some p ∧ p.minMult ≤ m.toNat
        ∧ (9 * m.toNat + 1) / 2 ≤ p.dlat ∧ (m.toNat = mult ∨ s.startOnFrame p = true))
      ∧ m.toNat ≤ s.getF fPwrCapMaxmult ∧ s.bitF fPwrOppointSwpend = false
    (¬ ok → exec (.oppointStage ph m) s = .next { s with out := s.out ++ [.refusal ph m.toNat] })
    ∧ (ok → ∃ t, exec (.oppointStage ph m) s = .next t ∧ t.getF (fPhmult ph) = m.toNat
      ∧ t.getF fPwrOppointMult = mult ∧ t.mem = s.mem ∧ t.cores = s.cores
      ∧ (m.toNat = mult → OnlyRegs [rPwrPhmult] s t)
      ∧ (m.toNat ≠ mult → t.bitF fPwrOppointSwpend = true ∧ t.pwr.target = some m.toNat
        ∧ t.pwr.waiting = false
        ∧ ∀ q : Fin 8, t.getF (fPwrVqVreq q)
            = (if mult < m.toNat then s.vtabOf m.toNat else s.getF (fPwrVqVreq q))
          ∧ (mult < m.toNat → (t.bitF (fPwrVqVok q) = true ↔
            s.vtabOf m.toNat ≤ s.getF (fPwrVqVsense q))))))
  ∧ (∀ (die : Die) (s : State), (s.pwr.target = none → exec (.pllLock die) s = .next s)
    ∧ ∀ m, s.pwr.target = some m →
      let vok := (quadrants die).all fun q => s.bitF (fPwrVqVok q)
      ∃ t, exec (.pllLock die) s = .next t ∧ t.mem = s.mem ∧ t.cores = s.cores
        ∧ (s.pwr.waiting = false ∨ vok = false → t.pllOk die = true ∧ t.pwr.switched = s.pwr.switched
          ∧ (t.bitF fPwrOppointPllready = true ↔ s.pllOk (otherDie die) = true)
          ∧ OnlyRegs [rPwrOppoint] s { t with pwr := s.pwr })
        ∧ (s.pwr.waiting = true → vok = true → s.hasSwitched (otherDie die) = false →
          t.hasSwitched die = true ∧ t.getF fPwrOppointMult = s.getF fPwrOppointMult)
        ∧ (s.pwr.waiting = true → vok = true → s.hasSwitched (otherDie die) = true →
          t.getF fPwrOppointMult = m % 32 ∧ t.bitF fPwrOppointSwpend = false
          ∧ t.bitF fPwrOppointPllready = false ∧ t.pwr.target = none ∧ t.pwr.waiting = false
          ∧ ∀ q : Fin 8, t.getF (fPwrVqVreq q) = s.vtabOf m))
  ∧ (∀ (q : Fin 8) (mv : BitVec 11) (s : State) (i : Instr), i = .voltageHold q mv ∨ i = .vokRise q mv →
    let die := q.val / 4
    let sense (p : Nat) : Nat := if p = q.val then mv.toNat else s.getF (fPwrVqVsense p)
    let low (d : Nat) : Bool := (quadrants die).any fun p =>
      decide (sense p + d < s.getF (fPwrVqVreq p))
    let vok : Bool := (quadrants die).all fun p =>
      if p = q.val then decide (s.getF (fPwrVqVreq q) ≤ mv.toNat) else s.bitF (fPwrVqVok p)
    ∃ t, exec i s = .next t ∧ t.getF (fPwrVqVsense q) = mv.toNat ∧ t.mem = s.mem ∧ t.cores = s.cores
      ∧ (s.pwr.target = none ∨ s.pwr.waiting = false ∨ s.pllOk die = false ∨ vok = false →
        (t.bitF (fPwrVqVok q) = true ↔ s.getF (fPwrVqVreq q) ≤ mv.toNat)
        ∧ t.vhold die = (if low 20 = true then true else if low 10 = true then s.vhold die else false)
        ∧ t.vhold (1 - die) = s.vhold (1 - die)
        ∧ t.getF fPwrOppointMult = s.getF fPwrOppointMult)
      ∧ (∀ m, s.pwr.target = some m → s.pwr.waiting = true → s.pllOk die = true → vok = true →
        s.hasSwitched (1 - die) = true → t.getF fPwrOppointMult = m % 32 ∧ t.pwr.target = none
          ∧ t.bitF fPwrOppointSwpend = false))
  ∧ (∀ (l : List (BitVec 16)) (s : State), l.length = 17 →
    let i (r : Nat) : Nat := (l.getD r 0).toNat
    let level (die : Nat) : Nat :=
      if ∃ r ∈ governing die, s.act r < i r then min (s.heldLevel die + 2) 8
      else if ∀ r ∈ governing die, i r ≤ s.act r - s.act r / 16 then s.heldLevel die - 1
      else s.heldLevel die
    ∃ t, exec (.currentEvaluation l) s = .next t ∧ t.mem = s.mem ∧ t.cores = s.cores
      ∧ t.heldLevel 0 = level 0 ∧ t.heldLevel 1 = level 1
      ∧ t.pwr.fastW = false ∧ t.pwr.fastE = false
      ∧ ∀ r < 17, t.getF (fPwrImeasIavg r) = i r ∧ (t.bitF (fPwrImeasOver r) = true ↔ s.act r < i r))
  ∧ (∀ (r : Fin 11) (cur : BitVec 16) (s : State),
    (cur.toNat ≤ s.act r + s.act r / 4 → exec (.fastCurrent r cur) s = .next s)
    ∧ (s.act r + s.act r / 4 < cur.toNat → ∃ t, exec (.fastCurrent r cur) s = .next t
      ∧ (∀ die < 2, t.heldLevel die = if r.val ∈ governing die then 8 else s.heldLevel die)
      ∧ t.pwr.fastW = (s.pwr.fastW || decide (r.val ∈ governing 0))
      ∧ t.pwr.fastE = (s.pwr.fastE || decide (r.val ∈ governing 1))
      ∧ OnlyRegs [rPwrStretch] s { t with pwr := s.pwr }))
  ∧ (∀ (e : BitVec 16) (s : State),
    let cs := lastN 999 (s.pwr.charges ++ [max e.toNat 330])
    ∃ t, exec (.ceilingSample e) s = .next t ∧ t.pwr.charges = cs
      ∧ t.pwr.samples = lastN 1000 (s.pwr.samples ++ [e.toNat])
      ∧ t.getF fPwrPkgSampw = e.toNat
      ∧ (t.bitF fPwrCeilHolding = true ↔
        1000 * s.getF fPwrCeilLimit < 2 * 1708 + (cs.foldl (· + ·) 0 + 1708))
      ∧ t.mem = s.mem ∧ t.cores = s.cores)
  ∧ ∀ (l : List (BitVec 12)) (s : State), l.length = 20 →
    let x (n : Nat) : Int := (l.getD n 0).toInt
    let thr : Int := 8 * s.getF fPwrThcfgTthr
    let crit : Prop := ∃ n < 20, (8 * s.getF fPwrThcfgTcrit : Int) ≤ x n
    let hold (die : Nat) (was : Bool) : Prop := (∃ n ∈ dieSensors die, thr ≤ x n)
      ∨ was = true ∧ ∃ n ∈ dieSensors die, thr - 16 ≤ x n
    ∃ t, exec (.temperatureRead l) s = .next t
      ∧ (∀ n < 20, t.getF (fPwrTempTemp n) = (l.getD n 0).toNat ∧ t.tempValid n = true)
      ∧ (∀ n < 20, x n ≤ x (t.getF fPwrThstatHot))
      ∧ t.getF fPwrThstatTmax = (l.getD (t.getF fPwrThstatHot) 0).toNat
      ∧ (t.bitF fPwrThstatThrotw = true ↔ hold 0 (s.bitF fPwrThstatThrotw))
      ∧ (t.bitF fPwrThstatThrote = true ↔ hold 1 (s.bitF fPwrThstatThrote))
      ∧ (t.bitF fPwrThstatCrit = true ↔ s.bitF fPwrThstatCrit = true ∨ crit)
      ∧ (crit → s.bitF fPwrThstatCrit = false → ∀ q : Fin 4, s.opt q = optRamp ∨ s.opt q = optOn →
        t.opt q = optTripped ∧ t.getF (fPwrOptStatCause q) = 4)
      ∧ (¬ crit → t.mem = s.mem ∧ t.cores = s.cores)

/-- The load switches of the optical engines (R665-R669): EN = 1 in OFF or TRIPPED starts a ramp, which after a
trip is a retry, the fourth within 10 s being refused with BLOCKED; EN = 0 enters OFF from any state, and
the ports of engines that lose their power go DOWN; a ramp ends ON; a short in RAMP, an overcurrent or an
undervoltage in ON trips the switch with its cause and counts in TRIPS; BLOCKED ends in TRIPPED. An event
that finds another state changes nothing. Where the rules leave a point open it states the model's choice
(log entry 45). -/
def Obligations.LoadSwitchesMoveThroughTheirStates : Prop :=
  ∀ (q : Fin 4) (s : State),
    let off := s.opt q = optOff ∨ s.opt q = optTripped
    let wasTrip := Tab.look (fun _ => false) s.pwr.tripped q
    let regs := [rPwrOptCtl q, rPwrOptStat q]
    let tripped (i : Instr) (cause : Nat) : Prop := ∃ t, exec i s = .next t
      ∧ t.opt q = optTripped ∧ t.getF (fPwrOptStatCause q) = cause
      ∧ t.getF (fPwrOptStatTrips q) = incSat 16 (s.getF (fPwrOptStatTrips q)) 1
      ∧ Tab.look (fun _ => false) t.pwr.tripped q = true
      ∧ (s.opt q = optOn → ∀ k < 4, t.portUp (4 * q + k) = false)
      ∧ (s.opt q ≠ optOn → t.mem = s.mem ∧ t.cores = s.cores)
    (∃ t, exec (.optEnable q) s = .next t ∧ t.bitF (fPwrOptCtlEn q) = true
      ∧ OnlyRegs regs s { t with pwr := s.pwr }
      ∧ (¬ off ∨ s.bitF fPwrThstatCrit = true → t.opt q = s.opt q)
      ∧ (off → s.bitF fPwrThstatCrit = false →
        (wasTrip = false → t.opt q = optRamp ∧ t.getF (fPwrOptStatCause q) = 0)
        ∧ (wasTrip = true → 3 ≤ (s.retriesOf q).length → t.opt q = optBlocked
          ∧ t.getF (fPwrOptStatCause q) = s.getF (fPwrOptStatCause q))
        ∧ (wasTrip = true → (s.retriesOf q).length < 3 → t.opt q = optRamp
          ∧ t.getF (fPwrOptStatCause q) = 0
          ∧ Tab.look (fun _ => []) t.pwr.retries q = s.retriesOf q ++ [s.clock]
          ∧ t.getF (fPwrOptStatRetries q) = (s.retriesOf q).length + 1)))
    ∧ (∃ t, exec (.optDisable q) s = .next t ∧ t.bitF (fPwrOptCtlEn q) = false
      ∧ t.opt q = optOff ∧ t.getF (fPwrOptStatCause q) = 0
      ∧ (s.opt q = optOn → ∀ k < 4, t.portUp (4 * q + k) = false)
      ∧ (s.opt q ≠ optOn → OnlyRegs regs s t))
    ∧ (s.opt q ≠ optRamp → exec (.rampComplete q) s = .next s ∧ exec (.rampshort q) s = .next s)
    ∧ (s.opt q ≠ optOn → exec (.overcurrent q) s = .next s ∧ exec (.undervolt q) s = .next s)
    ∧ (s.opt q ≠ optBlocked → exec (.blockedEnd q) s = .next s)
    ∧ (s.opt q = optRamp → ∃ t, exec (.rampComplete q) s = .next t ∧ t.opt q = optOn
      ∧ t.getF (fPwrOptStatCause q) = 0 ∧ Tab.look (fun _ => false) t.pwr.tripped q = false
      ∧ OnlyRegs [rPwrOptStat q] s { t with pwr := s.pwr })
    ∧ (s.opt q = optRamp → tripped (.rampshort q) 1)
    ∧ (s.opt q = optOn → tripped (.overcurrent q) 2 ∧ tripped (.undervolt q) 3)
    ∧ (s.opt q = optBlocked → ∃ t, exec (.blockedEnd q) s = .next t ∧ t.opt q = optTripped
      ∧ t.getF (fPwrOptStatCause q) = s.getF (fPwrOptStatCause q) ∧ t.mem = s.mem
      ∧ t.cores = s.cores)

/-! ### The mailboxes -/

/-- The response to a function's request (R684, R685): RESULT, LEN, SEQ and payload stand in MBX_RSP,
BUSY is clear and DONE set, the request has left the line, and vector 0 is signalled. -/
def Sys2Proof.Claims.Answered (s t : State) (fn : Func) (r : Nat) (payload : List Byte) : Prop :=
  t.rd4 fn mbxRspBuf = BitVec.ofNat 32 (r + 65536 * payload.length)
    ∧ t.rd4 fn (mbxRspBuf + 4) = s.rd4 fn (mbxReqBuf + 4)
    ∧ (∀ k v, (wordsOf payload)[k]? = some v → t.rd4 fn (mbxRspBuf + 8 + 4 * k) = v)
    ∧ t.mbxBit fn 0 = false ∧ t.mbxBit fn 1 = true ∧ fn.val ∉ t.host.posts
    ∧ ((s.rd4 fn 12).getLsbD 0 = true → (t.rd4 fn 0x800).getLsbD 0 = true)
    ∧ ((s.rd4 fn 12).getLsbD 0 = false → ∃ l, t.out = l ++ [.msix fn 0])

/-- A mailbox command: its CMD, whether the function may issue it, and its shortest payload. -/
def Sys2Proof.Claims.MbxRow (i : Instr) (fn : Func) (clear refuse : Bool)
    (cmd : Nat) (may : Bool) (len : Nat) : Prop :=
  (i = .mbxVersion fn ∧ cmd = 1 ∧ may = true ∧ len = 0)
    ∨ (i = .mbxFwLoad fn false ∧ cmd = 2 ∧ may = (fn == 0) ∧ len = 20)
    ∨ (i = .mbxCeiling fn clear refuse ∧ cmd = 3 ∧ may = (fn == 0) ∧ len = 2)
    ∨ (i = .mbxOptPower fn refuse ∧ cmd = 4 ∧ may = (fn == 0) ∧ len = 2)
    ∨ (i = .mbxKeyProg fn ∧ cmd = 5 ∧ may = (fn == 0) ∧ len = 145)
    ∨ (i = .mbxKeyRevoke fn ∧ cmd = 6 ∧ may = (fn == 0) ∧ len = 97)
    ∨ (i = .mbxSlotbGrant fn ∧ cmd = 7 ∧ may = (fn == 0) ∧ len = 66)
    ∨ (i = .mbxSlotbLoad fn ∧ cmd = 8 ∧ may = true ∧ len = 40)
    ∨ (i = .mbxCoreResume fn refuse ∧ cmd = 9 ∧ may = (fn == 0) ∧ len = 2)
    ∨ (i = .mbxWinRefill fn refuse ∧ cmd = 10 ∧ may = true ∧ len = 4)
    ∨ (i = .mbxI2cXfer fn refuse ∧ cmd = 11 ∧ may = (fn == 0) ∧ len = 3)

/-- The request of a function is the next to be served, is one that Jusia or the boot responder serves,
names a command that the function may issue, and has a payload of a length that the command takes. -/
def Sys2Proof.Claims.Served (s : State) (fn : Func) (cmd len : Nat) : Prop :=
  s.mbxFirst fn = true ∧ s.mbxTurned fn = none ∧ s.mbxCmd fn = cmd ∧ s.mbxLen fn ≤ 248
    ∧ len ≤ s.mbxLen fn

/-- A load of Jusia from drive `n` has begun (R608, R609, R689, R710): STATE is LOADING, the boot responder serves,
and a Read of at most 32 blocks stands for each 128 KiB of `len` bytes from block `lba` on. -/
def Sys2Proof.Claims.FwReading (s t : State) (n : Nat) (lba : W64) (len : Nat) : Prop :=
  t.fwState = fwLoading ∧ t.mbxBit 0 3 = false ∧ t.mbxBit 1 3 = false ∧ t.cores = s.cores ∧ t.pending = s.pending
    ∧ ((s.drive n).cmds = [] → ∀ k < ((len + 4095) / 4096 + 31) / 32, ∃ x ∈ (t.drive n).cmds,
      x.opc = opRead ∧ x.use = .fw k ∧ x.lba = lba + BitVec.ofNat 64 (32 * k)
      ∧ x.blocks = min 32 ((len + 4095) / 4096 - 32 * k))

/-- The firmware mailboxes (R222, R331, R348, R399, R400, R407, R409, R412, R658, R666, R684-R689): a POST
while BUSY sets OVERRUN, another takes its place in the line, and one while HUNG or with a reserved command is
answered; a request without response for 10 s is answered TIMEOUT and the firmware is HUNG; a command serves
only the request that is first in line and names it, is answered NOFW, BADCMD, DENIED or BADARG where the
rules say so, and has its effect and its result otherwise. The places of some payload fields are the model's
choice (log entry 30), and so are the results of log entries 31 and 32. -/
def Obligations.MailboxAnswersEachCommand : Prop :=
  (∀ (fn : Func) (v : BitVec 32) (s : State),
    (s.mbxBusy fn = true → ∃ t, exec (.mbxPost fn v) s = .next t ∧ t.mbxBit fn 2 = true
      ∧ t.mbxBit fn 0 = true ∧ t.host = s.host ∧ SameStores s t)
    ∧ (s.mbxBusy fn = false →
      (s.fwState = fwHung → ∃ t, exec (.mbxPost fn v) s = .next t ∧ Answered s t fn 7 []
        ∧ SameStores s t ∧ t.reg = s.reg)
      ∧ (s.fwState ≠ fwHung → (∃ g, s.host.posts.head? = some g ∧ g ≠ fn.val)
          ∨ mbxReserved (s.mbxCmd fn) = false →
        ∃ t, exec (.mbxPost fn v) s = .next t ∧ t.mbxBit fn 0 = true
          ∧ t.host.posts = s.host.posts ++ [fn.val] ∧ t.out = s.out ∧ t.reg = s.reg
          ∧ SameStores s t)
      ∧ (s.fwState = fwRunning → s.host.posts = [] → mbxReserved (s.mbxCmd fn) = true →
        ∃ t, exec (.mbxPost fn v) s = .next t ∧ Answered s t fn 1 [] ∧ t.reg = s.reg)))
  ∧ (∀ (fn : Func) (s : State), (s.mbxBusy fn = false → exec (.mailboxTimeout fn) s = .next s)
    ∧ (s.mbxBusy fn = true → ∃ t, exec (.mailboxTimeout fn) s = .next t ∧ Answered s t fn 7 []
      ∧ t.fwState = fwHung ∧ SameStores s t))
  ∧ (∀ (i : Instr) (fn : Func) (clear refuse : Bool) (cmd : Nat) (may : Bool)
      (len : Nat) (s : State), MbxRow i fn clear refuse cmd may len → cmd ≠ 2 ∨ s.mgt.fw = none →
    (s.mbxFirst fn = false → exec i s = .next s)
    ∧ (s.mbxFirst fn = true →
      (∀ r, s.mbxTurned fn = some r → ∃ t, exec i s = .next t ∧ Answered s t fn r []
        ∧ t.reg = s.reg ∧ SameStores s t)
      ∧ (s.mbxTurned fn = none → s.mbxCmd fn ≠ cmd → exec i s = .next s)
      ∧ (s.mbxTurned fn = none → s.mbxCmd fn = cmd → may = false → ∃ t, exec i s = .next t
        ∧ Answered s t fn 3 [] ∧ t.reg = s.reg ∧ SameStores s t)
      ∧ (s.mbxTurned fn = none → s.mbxCmd fn = cmd → may = true →
        248 < s.mbxLen fn ∨ s.mbxLen fn < len → ∃ t, exec i s = .next t
          ∧ Answered s t fn 2 [] ∧ t.reg = s.reg ∧ SameStores s t)))
  ∧ (∀ (fn : Func) (s : State), Served s fn 1 0 → ∃ t, exec (.mbxVersion fn) s = .next t
      ∧ Answered s t fn 0 s.versionBytes ∧ t.reg = s.reg ∧ SameStores s t)
  ∧ (∀ (fn : Func) (c : WinCfg) (s : State),
      let j := funcSlot fn
      let w := s.mbxF fn 8 2
      let p := s.mbxF fn 10 2
      let va := c.vbase + p * c.psize
      Served s fn 10 4 → ((s.windowsOf j).getD [])[w]? = some c → p < c.npage →
      ∃ t, exec (.mbxWinRefill fn false) s = .next t ∧ Answered s t fn 0 []
        ∧ (∀ k, k ≠ pageKey j w p →
            Tab.look (fun _ => WinPage.reset) t.pages k = Tab.look (fun _ => WinPage.reset) s.pages k)
        ∧ (s.memEcc = [] → t.mem = s.mem
          ∧ (∀ e, (s.walk j va).1 = .fault e → (t.winPage j w p).state = 1)
          ∧ ∀ l, (s.walk j va).1 = .leaf l →
            let ph := l.phys va
            (c.big = true → l.big = false → (t.winPage j w p).state = 1)
            ∧ (c.big = false ∨ l.big = true →
              (stackOf ph ≠ c.stack ∨ s.isoOk (j == .b) ph c.psize = false → (t.winPage j w p).state = 2)
              ∧ (stackOf ph = c.stack → s.isoOk (j == .b) ph c.psize = true →
                t.winPage j w p = ⟨0, BitVec.ofNat 64 ph, l.r, l.w⟩
                ∧ ∀ n ∈ s.heldOn j c p, (t.ep j c.stack n).fault = none))))
  ∧ (∀ (fn : Func) (auto : Bool) (f : FwLoad) (s : State), s.mgt.fw = some f → f.was ≤ 3 →
      let r := s.fwCheck f.bytes
      (f.failed = false → s.useBusy NvmeUse.ofFw = true → exec (.mbxFwLoad fn auto) s = .next s)
      ∧ (f.failed = true ∨ s.useBusy NvmeUse.ofFw = false →
        ∃ t, exec (.mbxFwLoad fn auto) s = .next t ∧ t.mgt.fw = none ∧ SameStores s t
          ∧ (f.failed = true ∨ r ≠ 0 → t.fwState = f.was ∧ t.mgt.version = s.mgt.version)
          ∧ (f.failed = false → r = 0 → t.fwState = fwRunning
            ∧ t.mgt.version = BitVec.ofNat 32 (fieldLe f.bytes 12 4)
            ∧ t.mgt.svn = BitVec.ofNat 16 (fieldLe f.bytes 16 2)
            ∧ t.mbxBit 0 3 = true ∧ t.mbxBit 1 3 = true)
          ∧ ∀ g, f.fn = some g → s.mbxBusy g = true → Answered s t g (if f.failed then 8 else r) []))
  ∧ (∀ (fn : Func) (s : State), s.mgt.fw = none →
      (s.bitF fMgtStrapFwauto = false ∨ s.mgt.booted = true ∨ s.driveReady 0 = false →
        exec (.mbxFwLoad fn true) s = .next s)
      ∧ (s.bitF fMgtStrapFwauto = true → s.mgt.booted = false → s.driveReady 0 = true →
        ∃ t, exec (.mbxFwLoad fn true) s = .next t
        ∧ FwReading s t 0 0 (2 ^ 24) ∧ t.mgt.booted = true
        ∧ t.mgt.fw = some ⟨none, none, s.fwState, [], false⟩))
  ∧ ∀ (s : State) (clear refuse : Bool),
    let f (o n : Nat) : Nat := s.mbxF 0 o n
    let b := s.mbxBytes 0
    let refused (t : State) (r : Nat) : Prop := Answered s t 0 r [] ∧ t.reg = s.reg ∧ t.fuses = s.fuses
      ∧ SameStores s t
    (Served s 0 2 20 → s.mgt.fw = none → ∃ t, exec (.mbxFwLoad 0 false) s = .next t
      ∧ (s.armed = true → refused t 3)
      ∧ (s.armed = false → f 8 1 = 1 → f 9 1 ≤ 3 → f 24 4 ≤ 2 ^ 24 →
        (s.driveReady (f 9 1) = false → refused t 8)
        ∧ (s.driveReady (f 9 1) = true → FwReading s t (f 9 1) (BitVec.ofNat 64 (f 16 8)) (f 24 4)
          ∧ t.mgt.fw = some ⟨some 0, some (f 24 4), s.fwState, [], false⟩
          ∧ t.mbxBit 0 0 = true ∧ t.host.posts = s.host.posts))
      ∧ (s.armed = false → f 8 1 = 0 → f 24 4 ≤ 2 ^ 24 → s.memEcc = [] → f 16 8 + f 24 4 ≤ memTop →
        let img := Tab.lookList (fun _ => 0) s.mem (f 16 8) (f 24 4)
        (s.fwCheck img ≠ 0 → refused t (s.fwCheck img))
        ∧ (s.fwCheck img = 0 → Answered s t 0 0 [] ∧ t.fwState = fwRunning
          ∧ t.mgt.version = BitVec.ofNat 32 (fieldLe img 12 4)
          ∧ t.mgt.svn = BitVec.ofNat 16 (fieldLe img 16 2)
          ∧ t.mbxBit 0 3 = true ∧ t.mbxBit 1 3 = true)))
    ∧ (Served s 0 3 2 → ∃ t, exec (.mbxCeiling 0 clear refuse) s = .next t
      ∧ (refuse = true → refused t 4)
      ∧ (refuse = false → Answered s t 0 0 []
        ∧ t.getF fPwrCeilSetlimit = min (f 8 2) (s.getF fPwrCapLimmax) % 2048
        ∧ t.bitF fPwrCeilRstart = (s.bitF fPwrCeilRstart && !clear)
        ∧ (let on := t.bitF fPwrCeilRstart || s.bitF fPwrCeilRdefault || s.bitF fPwrCeilRhalt
          t.bitF fPwrCeilCeiling = on
          ∧ t.getF fPwrCeilLimit = if on = true then 400 else t.getF fPwrCeilSetlimit)
        ∧ OnlyRegs [rPwrCeil] s { t with bar4 := s.bar4, out := s.out, host := s.host }))
    ∧ (Served s 0 4 2 → ∃ t, exec (.mbxOptPower 0 refuse) s = .next t
      ∧ (15 < f 8 1 ∨ 15 < f 9 1 ∨ f 8 1 &&& f 9 1 ≠ 0 → refused t 2)
      ∧ (f 8 1 ≤ 15 → f 9 1 ≤ 15 → f 8 1 &&& f 9 1 = 0 → (refuse = true → refused t 4)
        ∧ (refuse = false → Answered s t 0 0 [] ∧ ∀ q : Fin 4,
          t.bitF (fPwrOptCtlEn q) = (if (f 8 1).testBit q then true
            else if (f 9 1).testBit q then false else s.bitF (fPwrOptCtlEn q))
          ∧ ((f 9 1).testBit q = true → t.opt q = optOff)
          ∧ ((f 8 1).testBit q = false → (f 9 1).testBit q = false → t.opt q = s.opt q))))
    ∧ (Served s 0 5 145 → ∃ t, exec (.mbxKeyProg 0) s = .next t
      ∧ (3 < f 8 1 → refused t 2)
      ∧ (f 8 1 ≤ 3 → s.vendorSigned (slice b 8 49) (slice b 57 96) = false → refused t 5)
      ∧ (f 8 1 ≤ 3 → s.vendorSigned (slice b 8 49) (slice b 57 96) = true →
        let held := s.fuses.owner.getLsbD (f 8 1) || s.fuses.revoked.getLsbD (f 8 1)
        (held = true → refused t 4)
        ∧ (held = false → Answered s t 0 0 []
          ∧ t.fuses.owner = s.fuses.owner ||| BitVec.ofNat 4 (2 ^ f 8 1)
          ∧ t.fuses.revoked = s.fuses.revoked ∧ t.getF fImgKeysOwner = t.fuses.owner.toNat
          ∧ t.fuses.keyHash = s.fuses.keyHash.set (f 8 1 + 1) (BitVec.ofNat 384 (beNat (slice b 9 48))))))
    ∧ (Served s 0 6 97 → ∃ t, exec (.mbxKeyRevoke 0) s = .next t
      ∧ (3 < f 8 1 → refused t 2)
      ∧ (f 8 1 ≤ 3 → s.vendorSigned (slice b 8 1) (slice b 9 96) = false → refused t 5)
      ∧ (f 8 1 ≤ 3 → s.vendorSigned (slice b 8 1) (slice b 9 96) = true → Answered s t 0 0 []
        ∧ t.fuses = { s.fuses with revoked := s.fuses.revoked ||| BitVec.ofNat 4 (2 ^ f 8 1) }
        ∧ t.getF fImgKeysRevoked = t.fuses.revoked.toNat))
    ∧ (Served s 0 7 66 → ∃ t, exec (.mbxSlotbGrant 0) s = .next t
      ∧ (s.imgB ≠ none → refused t 4)
      ∧ (s.imgB = none → Answered s t 0 0 [] ∧ SameStores s t
        ∧ ∀ n < 16, t.rd (rXltBmap n) = BitVec.ofNat 32 (f (8 + 4 * n) 4)
          ∧ t.bitF (fDmaChCtlSlot n) = (f 72 2).testBit n))
    ∧ (∀ fn : Func, Served s fn 8 40 → s.mbxF fn 8 1 ≤ 1 → s.mbxF fn 9 1 ≤ 3 → s.mbxF fn 10 1 ≤ 1 →
      s.mbxF fn 12 2 ≤ 4095 → ∃ t, exec (.mbxSlotbLoad fn) s = .next t
      ∧ (s.imgState ≠ imgIdle → Answered s t fn 4 [] ∧ t.reg = s.reg ∧ SameStores s t)
      ∧ (s.imgState = imgIdle → t.imgState = imgRead ∧ t.bitF fImgStatusSlot = true
        ∧ t.mbxBit fn 0 = true ∧ fn.val ∉ t.host.posts ∧ (s.mbxF fn 8 1 = 0 → SameStores s t)
        ∧ ∃ l, t.loader = some l ∧ l.slot = .b ∧ l.drive = (s.mbxF fn 8 1 == 1)
          ∧ l.viaMailbox = some fn ∧ l.src = BitVec.ofNat 64 (s.mbxF fn 16 8)
          ∧ l.len = BitVec.ofNat 32 (s.mbxF fn 24 4)))
    ∧ (Served s 0 9 2 → let x := s.core (f 8 2)
      ∃ t, exec (.mbxCoreResume 0 refuse) s = .next t
      ∧ (255 < f 8 2 → refused t 2)
      ∧ (f 8 2 ≤ 255 → x.cfgA = none ∨ x.holdsA = true ∧ (x.stopped = false ∨ x.exc.toNat % 8 = 6) →
        refused t 3)
      ∧ (f 8 2 ≤ 255 → x.cfgA ≠ none → x.holdsA = true → x.stopped = true → x.exc.toNat % 8 ≠ 6 →
        (refuse = true ∨ s.stageOut .a (f 8 2) = true → refused t 4)
        ∧ (refuse = false → s.stageOut .a (f 8 2) = false → Answered s t 0 0 []
          ∧ t.core (f 8 2) = x.resume ∧ (∀ d, d ≠ f 8 2 → t.core d = s.core d)
          ∧ t.reg = s.reg ∧ t.mem = s.mem)))
    ∧ (∀ fn : Func, Served s fn 10 4 →
      let cf := ((s.windowsOf (funcSlot fn)).getD [])[s.mbxF fn 8 2]?
      ∃ t, exec (.mbxWinRefill fn refuse) s = .next t
      ∧ (cf = none → Answered s t fn 2 [] ∧ t.reg = s.reg ∧ SameStores s t)
      ∧ ∀ c, cf = some c →
        (c.npage ≤ s.mbxF fn 10 2 → Answered s t fn 2 [] ∧ t.reg = s.reg ∧ SameStores s t)
        ∧ (s.mbxF fn 10 2 < c.npage → refuse = true → Answered s t fn 4 [] ∧ t.reg = s.reg ∧ SameStores s t))
    ∧ (Served s 0 11 3 → ∃ t, exec (.mbxI2cXfer 0 refuse) s = .next t
      ∧ (127 < f 8 1 ∨ 32 < f 10 1 ∨ (f 10 1 = 0 ∧ 32 < f 9 1) ∨ (f 10 1 ≠ 0 ∧ 1 < f 9 1)
          ∨ (f 9 1 ≠ 0 ∧ f 2 2 < 4 + f 9 1) → refused t 2)
      ∧ (f 8 1 ≤ 127 → f 10 1 ≤ 32 → (if f 10 1 = 0 then f 9 1 ≤ 32 else f 9 1 ≤ 1) →
        (f 9 1 = 0 ∨ 4 + f 9 1 ≤ f 2 2) →
        (refuse = true → refused t 4)
        ∧ (refuse = false → s.i2cState = 3 → refused t 8)
        ∧ (refuse = false → s.i2cState ≠ 3 → (∀ g, s.mgt.tx ≠ some (.xfer g)) →
          t.mgt.xfer = some 0 ∧ t.mbxBit 0 0 = true ∧ t.host.posts = s.host.posts.filter (· != 0)
          ∧ t = { s with mgt := t.mgt, host := t.host })))

/-! ### The I²C controller, the SMBus target -/

/-- The I²C controller (R636, R637, R694-R699, R736): while free it starts the first waiting item, a due gauge
read before a mailbox transfer before the poll that was due first, with no bus transaction while STUCK or
for a poll of the gauge; the end of a transaction gives its result to the gauge, the mailbox or the poll
entry; a stretch timeout abandons it and checks the bus; nine pulses of no use end an attempt, the third
such attempt is STUCK; RESET and CLEAR do as R698 and R699 say. Where the rules leave a point open it states
the model's choice (log entry 52). -/
def Obligations.I2cTransactionsRunInOrder : Prop :=
  ∀ s : State,
    let free (t : State) : Prop := t.mgt.tx = none ∧ t.mem = s.mem ∧ t.cores = s.cores
    (s.mgt.tx ≠ none ∨ s.i2cState = 1 ∨ s.i2cState = 2 → exec .i2cTransaction s = .next s)
    ∧ (s.mgt.tx = none → s.i2cState ≠ 1 → s.i2cState ≠ 2 → ∀ x, s.firstTx = some x →
      ∃ t, exec .i2cTransaction s = .next t ∧ t.mem = s.mem ∧ t.cores = s.cores
        ∧ (s.i2cState ≠ 3 → s.skipped x = false → t.mgt.tx = some x ∧ t.i2cState = 1
          ∧ t.out = s.out ++ [.i2c (s.txAddr x).1 (s.txBytes x).1 (s.txBytes x).2])
        ∧ (s.i2cState = 3 ∨ s.skipped x = true → t.mgt.tx = none ∧ t.i2cState = s.i2cState)
        ∧ (∀ i, x = .poll i → i < 32 → s.i2cState = 3 ∨ s.skipped x = true →
          (t.rd (rMgtPoll i 10)).toNat % 256 = if s.i2cState = 3 then 4 else 5)
        ∧ (s.mgt.gaugeDue.toNat ≤ s.clock.toNat → x = .gauge)
        ∧ (∀ fn, s.clock.toNat < s.mgt.gaugeDue.toNat → s.mgt.xfer = some fn → x = .xfer fn)
        ∧ (∀ i, s.clock.toNat < s.mgt.gaugeDue.toNat → s.mgt.xfer = none → x = .poll i →
          s.pollDue i ≤ s.clock.toNat ∧ ∀ k < s.polls.length, s.pollDue i ≤ s.pollDue k))
    ∧ (∀ (ack : Bool) (l : List (BitVec 8)),
      (s.mgt.tx = none → exec (.i2cTransactionEnd ack l) s = .next s)
      ∧ ∀ x, s.mgt.tx = some x → ∃ t, exec (.i2cTransactionEnd ack l) s = .next t ∧ free t
        ∧ t.i2cState = 0
        ∧ (ack = false → t.getF fMgtI2cerrNack
            = incSat fMgtI2cerrNack.width (s.getF fMgtI2cerrNack) 1)
        ∧ (x = .gauge → ack = true → 2 ≤ l.length →
          (t.rd rSavHestg).toNat = fieldLe l 0 2 * s.getF fSavHgaugeUnit % 2 ^ 32
          ∧ t.bitF fSavHstatGstale = false ∧ t.sav.gaugeAt = some s.clock)
        ∧ (∀ fn, x = .xfer fn → s.mgt.xfer = some fn → s.mbxBusy fn = true →
          t.mgt.xfer = none ∧ Answered s t fn (if ack = true then 0 else 8)
            (if ack = true then padTo (s.mbxF fn 10 1) l else []))
        ∧ (∀ i, x = .poll i → i < 32 →
          (t.rd (rMgtPoll i 10)).toNat % 256 = (if ack = true then 1 else 2)
          ∧ t.rd (rMgtPoll i 8) = s.fab.time.setWidth 32
          ∧ (∀ p, s.polls[i]? = some p → p.len ≤ 32 → ∀ k < 8, ack = true →
            t.rd (rMgtPoll i k) = BitVec.ofNat 32 (leNat (slice (padTo 32 (l.take p.len)) (4 * k) 4)))
          ∧ (ack = false → ∀ k < 8, t.rd (rMgtPoll i k) = s.rd (rMgtPoll i k))))
    ∧ (∀ sda : Bool, (s.mgt.tx = none → exec (.i2cStretchTimeout sda) s = .next s)
      ∧ ∀ x, s.mgt.tx = some x → ∃ t, exec (.i2cStretchTimeout sda) s = .next t ∧ free t
        ∧ t.i2cState = (if sda = true then 2 else 0)
        ∧ t.getF fMgtI2cerrTimeout = incSat fMgtI2cerrTimeout.width (s.getF fMgtI2cerrTimeout) 1
        ∧ (∀ fn, x = .xfer fn → s.mgt.xfer = some fn → s.mbxBusy fn = true → Answered s t fn 8 [])
        ∧ (∀ i, x = .poll i → i < 32 → (t.rd (rMgtPoll i 10)).toNat % 256 = 3))
    ∧ (∀ (r : Requester) (v : BitVec 32) (sda : Bool), r = .jusia ∨ r = .pf0 →
      (∃ t, exec (.i2cReset r v sda) s = .next t ∧ free t
        ∧ t.i2cState = (if sda = true then 2 else 0) ∧ t.getF fMgtI2cstatAttempt = 0
        ∧ t.getF fMgtI2cstatPulses = 0
        ∧ (∀ fn, s.mgt.tx = some (.xfer fn) → s.mgt.xfer = some fn → s.mbxBusy fn = true →
          Answered s t fn 8 []))
      ∧ (s.i2cState ≠ 3 → exec (.i2cClear r v) s = .next s)
      ∧ (s.i2cState = 3 → ∃ t, exec (.i2cClear r v) s = .next t ∧ t.i2cState = 2
        ∧ t.getF fMgtI2cstatAttempt = 0 ∧ OnlyRegs [rMgtI2cstat] s t))
    ∧ ∀ n : Fin 11, (s.i2cState ≠ 2 → exec (.busClearAttempt n) s = .next s)
      ∧ (s.i2cState = 2 → s.getF fMgtI2cstatAttempt < 3 → ∃ t, exec (.busClearAttempt n) s = .next t
        ∧ t.getF fMgtI2cstatAttempt = s.getF fMgtI2cstatAttempt + 1
        ∧ t.getF fMgtI2cstatPulses = min n.val 9
        ∧ (n.val ≤ 9 → t.i2cState = 0 ∧ OnlyRegs [rMgtI2cstat] s t)
        ∧ (n.val = 10 → s.getF fMgtI2cstatAttempt < 2 → t.i2cState = 2
          ∧ OnlyRegs [rMgtI2cstat] s t)
        ∧ (n.val = 10 → s.getF fMgtI2cstatAttempt = 2 → t.i2cState = 3
          ∧ t.getF fMgtI2cerrStuck = incSat fMgtI2cerrStuck.width (s.getF fMgtI2cerrStuck) 1
          ∧ SameStores s t))

/-- The SMBus target (R690-R693, R708, R736): before VAUX is valid nothing answers; a block write with a wrong
count or packet error code is dropped, sets PROTO and counts in VIOL; SETADDR sets the offset; READ returns
the word at the offset, 0 while the device is not READY or outside the ranges that SMBus reaches, and WRITE
has an effect only as the write of MGT_RSTCTL.WARM, any other setting DENIED; both advance the offset by 4;
STATUS returns READY, DENIED, PROTO and FWRUN; a timeout resets the target. Where the rules leave a point
open it states the model's choice (log entry 57). -/
def Obligations.SmbusCommandsReachTheirTarget : Prop :=
  ∀ s : State,
    let ack (t : State) : Prop := ∃ l, t.out = l ++ [.smbus [] false]
    (s.mgt.vaux = false → ∀ (count : BitVec 8) (data : BitVec 32) (pec : Pec),
      exec (.smbSetaddr count data pec) s = .next s ∧ exec (.smbRead pec) s = .next s
      ∧ exec (.smbWrite count data pec) s = .next s ∧ exec .smbStatus s = .next s
      ∧ exec .smbusTimeout s = .next s)
    ∧ (s.mgt.vaux = true → ∀ (count : BitVec 8) (data : BitVec 32) (pec : Pec),
      let bad : Prop := count ≠ 4 ∨ pec = .bad ∨ (pec = .absent ∧ s.bitF fMgtSmbcfgPecreq = true)
      (∀ i, (i = .smbSetaddr count data pec ∨ i = .smbWrite count data pec) → bad →
        ∃ t, exec i s = .next t ∧ t.bitF fMgtSmbstatProto = true
          ∧ t.getF fMgtSmbstatViol = incSat fMgtSmbstatViol.width (s.getF fMgtSmbstatViol) 1
          ∧ t.mgt = s.mgt ∧ SameStores s t ∧ ∃ l, t.out = l ++ [.smbus [] true])
      ∧ (¬ bad → exec (.smbSetaddr count data pec) s = .next { s with
          mgt := { s.mgt with smbOff := data }, out := s.out ++ [.smbus [] false] })
      ∧ (¬ bad → ∃ t, exec (.smbWrite count data pec) s = .next t ∧ ack t
        ∧ t.mgt.smbOff = s.mgt.smbOff + 4
        ∧ (¬ (s.mgt.smbOff.toNat = rMgtRstctl ∧ data.getLsbD 0 = true) →
          t.bitF fMgtSmbstatDenied = true ∧ SameStores s t
          ∧ (∀ o < 0xC00000, t.rd o = s.rd o))
        ∧ (s.mgt.smbOff.toNat = rMgtRstctl → data.getLsbD 0 = true →
          (s.smbReady = true → t.getF fMgtRststatCause = 2 ∧ t.cores = [] ∧ t.mem = s.mem)
          ∧ (s.smbReady = false → t.reg = s.reg ∧ SameStores s t)))
      ∧ (∃ t, exec (.smbRead pec) s = .next t ∧ t.mgt = { s.mgt with smbOff := s.mgt.smbOff + 4 }
        ∧ SameStores s t
        ∧ (∃ v, (∃ l, t.out = l ++ [.smbus (s.smbData v (pec != .absent)) false])
          ∧ (s.smbReady = false → v = 0 ∧ t.reg = s.reg)
          ∧ (s.smbReady = true → s.mgt.smbOff.toNat % 4 ≠ 0 ∨ smbReach s.mgt.smbOff.toNat = false →
            v = 0 ∧ t.bitF fMgtSmbstatDenied = true)
          ∧ (s.smbReady = true → s.mgt.smbOff.toNat % 4 = 0 →
            smbReach s.mgt.smbOff.toNat = true → s.mgt.smbOff.toNat ≠ rMgtGpiodata →
            latchOf s.latches .smbus s.mgt.smbOff.toNat = none →
            v = s.regVal s.mgt.smbOff.toNat 0 ∧ t.reg = s.reg)))
      ∧ (∃ t, exec .smbStatus s = .next t ∧ ∃ b : Byte, t = { s with out := s.out ++ [.smbus [b] false] }
        ∧ (b.getLsbD 0 = s.smbReady) ∧ (b.getLsbD 1 = s.bitF fMgtSmbstatDenied)
        ∧ (b.getLsbD 2 = s.bitF fMgtSmbstatProto) ∧ (b.getLsbD 3 = (s.fwState == fwRunning))
        ∧ b.toNat < 16)
      ∧ (∃ t, exec .smbusTimeout s = .next t ∧ t.mgt = { s.mgt with smbOff := 0 }
        ∧ t.bitF fMgtSmbstatTimeout = true ∧ SameStores s t))

/-! ### Resets, power-up and the test access port -/

/-- What every reset that clears configuration leaves (R705, R732): the default image, Bellwether IDLE,
fabric time, routes, cores and power state as after reset, no request of a mailbox, no descriptor; the
fuses and what Sheepdog has written to them stay. -/
def Sys2Proof.Claims.Cleared (s t : State) : Prop :=
  t.imgA = none ∧ t.imgB = none ∧ t.loader = none ∧ t.cores = [] ∧ t.routes = [] ∧ t.staging = []
    ∧ t.bwt = BwtSt.reset ∧ t.fab = FabSt.reset ∧ t.pwr = PwrSt.reset ∧ t.sav = SavSt.reset
    ∧ (∀ ch < 16, t.chan ch = DmaCh.reset)
    ∧ (∀ (fn : Func) off, off < 65536 → off ≠ 0x1004 → t.rd4 fn off = bar4Reset off)
    ∧ t.host.posts = [] ∧ t.fuses = s.fuses ∧ t.pending = s.pending ∧ t.sd.queue = []
    ∧ t.sd.running = none ∧ t.sd.remapped = s.sd.remapped ++ s.sd.remapPend
    ∧ t.mgt.smbOff = s.mgt.smbOff ∧ t.mgt.vaux = s.mgt.vaux

/-- What a warm reset keeps (R705, R723): device memory and the error records. -/
def Sys2Proof.Claims.WarmKept (s t : State) : Prop :=
  t.mem = s.mem ∧ t.memEcc = s.memEcc
    ∧ (Tab.wf regReset s.reg = true →
      t.rd rErrHead = s.rd rErrHead ∧ t.rd rErrTail = s.rd rErrTail
      ∧ ∀ i < 1024, ∀ k < 8, t.rd (rLog i k) = s.rd (rLog i k))

/-- The resets and the power-up (R700-R708, R723, R732, R749-R753): the fall of PWROK and a supply sag while it
is high start a cold reset, which leaves every register but those of the fuses at its reset value; a warm
reset from the host, from SMBus, from PERST# with PERSTWARM or at the end of a boundary-scan hold keeps
memory and the error records and gives its cause; PERST# else resets the host port alone, an FLR its
function alone, and a firmware reset the firmware alone; PWROK samples the straps, and once FREF runs the
memory is ready; a TAP instruction is in force, and a boundary-scan hold holds the device in warm reset
until Test-Logic-Reset. Where the rules leave a point open it states the model's choice (log entry 53). -/
def Obligations.ResetsClearWhatTheirKindClears : Prop :=
  (∀ s : State,
    let cold (t : State) : Prop := Cleared s t ∧ t.mem = [] ∧ t.ports = [] ∧ t.drives = []
      ∧ t.getF fMemStatusReady = 0
      ∧ ∀ o, fuseReg o = false → t.rd o = Tab.look regReset (regCold s.fuses) o
    (∃ t, exec .pwrokFall s = .next t ∧ cold t ∧ t.mgt.pwrok = false ∧ t.mgt.sag = false)
    ∧ (s.mgt.pwrok = false → exec .supplySag s = .next s)
    ∧ (s.mgt.pwrok = true → ∃ t, exec .supplySag s = .next t ∧ cold t ∧ t.mgt.sag = true
      ∧ t.mgt.pwrok = true))
  ∧ (∀ (r : Requester) (v : BitVec 32) (s : State),
    (r = .pf1 → exec (.warmReset r v) s = .next s)
    ∧ (r ≠ .pf1 → ∃ t, exec (.warmReset r v) s = .next t ∧ Cleared s t ∧ WarmKept s t
      ∧ t.getF fMgtRststatCause = (if r = .smbus then 2 else 1)
      ∧ t.host.bar2 = s.host.bar2 ∧ t.host.linkReady = s.host.linkReady)
    ∧ (r = .jusia ∨ r = .pf0 → ∃ t, exec (.firmwareReset r v) s = .next t ∧ t.fwState = fwNone
      ∧ t.mgt.version = 0 ∧ t.mgt.fw = none ∧ t.bitF fMgtRststatFwrst = true ∧ t.bitF fPwrCeilRstart = true
      ∧ t.bitF fPwrCeilCeiling = true ∧ t.getF fPwrCeilLimit = 400
      ∧ (∀ fn : Func, s.mbxBusy fn = true → t.rd4 fn mbxRspBuf = 6 ∧ t.mbxBit fn 0 = false
        ∧ t.mbxBit fn 1 = true)
      ∧ t.bwt = s.bwt ∧ t.imgA = s.imgA ∧ SameStores s t))
  ∧ (∀ s : State,
    (s.bitF fMgtRstcfgPerstwarm = true → ∃ t, exec .perst s = .next t ∧ Cleared s t ∧ WarmKept s t
      ∧ t.getF fMgtRststatCause = 3 ∧ t.host.perst = true ∧ t.host.linkReady = false)
    ∧ (s.bitF fMgtRstcfgPerstwarm = false → ∃ t, exec .perst s = .next t
      ∧ (∀ (fn : Func) off, off < 65536 → off ≠ 0x1004 → t.rd4 fn off = bar4Reset off)
      ∧ (∀ ch < 16, t.chan ch = DmaCh.reset ∧ t.bitF (fDmaChCtlEn ch) = false
        ∧ t.getF (fDmaChHeadHead ch) = 0 ∧ t.getF (fDmaChTailTail ch) = 0)
      ∧ t.host.posts = [] ∧ t.host.reqs = [] ∧ t.host.perst = true ∧ t.host.linkReady = false
      ∧ t.bwt = s.bwt ∧ t.imgA = s.imgA ∧ t.imgB = s.imgB ∧ SameStores s t)
    ∧ exec .perstDeassert s = .next { s with host := { s.host with
        perst := false, linkReady := s.mgt.pwrok && s.mgt.fref && !s.mgt.sag } }
    ∧ exec .vauxValid s = .next { s with mgt := { s.mgt with vaux := true } })
  ∧ (∀ (fn : Func) (s : State), ∃ t, exec (.flr fn) s = .next t
    ∧ (∀ off, off < 65536 → off ≠ 0x1004 → t.rd4 fn off = bar4Reset off)
    ∧ (∀ ch < 16, s.chSlot ch = funcSlot fn → t.chan ch = DmaCh.reset
      ∧ t.bitF (fDmaChCtlEn ch) = false ∧ t.getF (fDmaChHeadHead ch) = 0
      ∧ t.getF (fDmaChTailTail ch) = 0)
    ∧ fn.val ∉ t.host.posts ∧ t.mem = s.mem ∧ t.bwt = s.bwt ∧ t.imgA = s.imgA
    ∧ (fn = 0 ∨ s.imgB = none → SameStores s t ∧ t.imgB = s.imgB
      ∧ (∀ off, off < 65536 → t.rd4 (1 - fn) off = s.rd4 (1 - fn) off)
      ∧ (∀ ch < 16, s.chSlot ch ≠ funcSlot fn → t.chan ch = s.chan ch)
      ∧ ∀ e ∈ (t.xbuf .host).entries, e.slot ≠ funcSlot fn)
    ∧ (fn = 1 → s.imgB ≠ none → (s.bResident = true → t.unloadB = true ∧ t.imgB = s.imgB)
      ∧ (s.bResident = false → t.imgB = none)))
  ∧ (∀ (straps : BitVec 3) (fref : Bool) (s : State),
    let up (t : State) : Prop := t.getF fMemStatusReady = 0xFF ∧ t.getF fMgtRststatCause = 0
      ∧ t.host.linkReady = !s.host.perst
    let same (t : State) : Prop := t.mem = s.mem ∧ t.cores = s.cores ∧ t.imgA = s.imgA ∧ t.bwt = s.bwt
    (s.mgt.pwrok = true → exec (.pwrokRise straps fref) s = .next s)
    ∧ (s.mgt.pwrok = false → ∃ t, exec (.pwrokRise straps fref) s = .next t ∧ same t
      ∧ t.mgt.pwrok = true ∧ t.mgt.fref = fref ∧ t.rd rMgtStrap = straps.setWidth 32
      ∧ t.getF fFabPchipBidx = straps.toNat % 4 ∧ (fref = true → up t)
      ∧ (fref = false → t.getF fMemStatusReady = s.getF fMemStatusReady))
    ∧ (∃ t, exec .supplyInRange s = .next t ∧ same t
      ∧ (s.mgt.pwrok = true → s.mgt.sag = true → t.mgt.pwrok = true ∧ t.mgt.sag = false
        ∧ (s.mgt.fref = true → up t))
      ∧ (s.mgt.pwrok = false ∨ s.mgt.sag = false → t = { s with fresh := t.fresh }))
    ∧ (s.mgt.fref = true → exec .frefRunning s = .next s)
    ∧ (s.mgt.fref = false → ∃ t, exec .frefRunning s = .next t ∧ same t ∧ t.mgt.fref = true
      ∧ (s.mgt.pwrok = true → s.mgt.sag = false → up t)
      ∧ (s.mgt.pwrok = false ∨ s.mgt.sag = true → t.reg = s.reg)))
  ∧ ∀ s : State, Tab.wf regReset s.reg = true →
    (∀ i k, (i = .tapExtest ∧ k = 0) ∨ (i = .tapClamp ∧ k = 3) ∨ (i = .tapHighz ∧ k = 4)
        ∨ (i = .tapExtestPulse ∧ k = 5) ∨ (i = .tapExtestTrain ∧ k = 6) →
      ∃ t, exec i s = .next t ∧ t.getF fMgtTapstatIr = k ∧ t.bitF fMgtTapstatHeld = true
        ∧ t.mem = s.mem ∧ t.getF fMgtRststatCause = s.getF fMgtRststatCause
        ∧ (s.bitF fMgtTapstatHeld = true → OnlyRegs [rMgtTapstat] s t)
        ∧ (s.bitF fMgtTapstatHeld = false → Cleared s t ∧ WarmKept s t))
    ∧ (∃ t, exec .tapSample s = .next t ∧ t.getF fMgtTapstatIr = 1 ∧ OnlyRegs [rMgtTapstat] s t)
    ∧ (∃ t, exec .tapIdcode s = .next t ∧ t.getF fMgtTapstatIr = 2
      ∧ t.out = s.out ++ [.tdo 0x1F1D174F] ∧ OnlyRegs [rMgtTapstat] s { t with out := s.out })
    ∧ (∀ code : BitVec 8, ∃ t, exec (.tapBypass code) s = .next t
      ∧ t.getF fMgtTapstatIr = (if code.toNat < 7 then 0xFF else code.toNat)
      ∧ OnlyRegs [rMgtTapstat] s t)
    ∧ ∃ t, exec .tapTestLogicReset s = .next t ∧ t.getF fMgtTapstatIr = 2 ∧ t.mem = s.mem
      ∧ (s.bitF fMgtTapstatHeld = false → OnlyRegs [rMgtTapstat] s t)
      ∧ (s.bitF fMgtTapstatHeld = true → t.bitF fMgtTapstatHeld = false
        ∧ t.getF fMgtRststatCause = 4 ∧ Cleared s t ∧ WarmKept s t)

/-! ### Sheepdog, and register accesses -/

/-- Sheepdog and the ERR block (R364, R714, R723-R732, R738, R781): with no test running, the first eligible
test of the queue starts by its kind's command; a test that ends is classified, LASTING after enough TRANSIENT
results, is counted, and acts by its unit when LASTING: a core is retired, uses a spare, and stands stopped
with its whole stage, a bank is remapped, a row redirected, an engine or a port retired; a test that was not
eligible leaves the queue; a request queues its test once; a window restarts the correctable counts. A PRBS
test starts at CAL62 where that comparator is armed. Where the rules leave a point open it states the model's
choice (log entries 54, 73 and 80). -/
def Obligations.SheepdogTestsClassifyAndRetire : Prop :=
  (∀ (i : Instr) (k : Nat) (s : State), (i = .sdMarch ∧ k = 1) ∨ (i = .sdAbist ∧ k = 2)
      ∨ (i = .sdRow ∧ k = 3) ∨ (i = .sdEbist ∧ k = 4) ∨ (i = .sdPrbs ∧ k = 5) →
    let cal := s.cal 62
    let fires : Prop := k = 5 ∧ cal.armed = true
    let u := if fires then
        (s.reach cal.next.toNat).putCal 62 { cal with next := cal.next + BitVec.ofNat 64 cal.period } else s
    (fires → s.timeRuns = false → exec i s = .next s)
    ∧ ((fires → s.timeRuns = true ∧ ownerSlot cal.owner = none) →
    (s.sd.running ≠ none ∨ u.sd.queue.find? u.eligible = none → exec i s = .next u)
    ∧ ∀ x, s.sd.running = none → u.sd.queue.find? u.eligible = some x →
      (x.test ≠ k → exec i s = .next u)
      ∧ (x.test = k → ∃ t, exec i s = .next t ∧ t.sd.running = some x
        ∧ t.sd.queue = u.sd.queue.filter (· ≠ x) ∧ t.bitF fErrStatusSdbusy = true
        ∧ OnlyRegs [rErrStatus, rErrSdstat] u { t with sd := u.sd })))
  ∧ (∀ (errors bits : BitVec 32) (s : State),
    (s.sd.running = none → exec (.sheepdogTestEnd errors bits) s = .next s)
    ∧ ∀ x, s.sd.running = some x →
      let r := s.sdResult x errors.toNat bits.toNat
      let n := x.unit % 2048
      ∃ t, exec (.sheepdogTestEnd errors bits) s = .next t ∧ t.sd.running = none
        ∧ t.bitF fErrStatusSdbusy = false
        ∧ (x.test ≠ 5 → t.mem = s.mem ∧ (errors ≠ 0 → r = sdLasting))
        ∧ (x.test = 5 → (s.port n).signal = true → 2 ^ 24 ≤ bits.toNat →
          bits.toNat < errors.toNat * 4096 → r = sdLasting)
        ∧ (s.getF fErrSdcfgRecur - 1 ≤ s.sdRecent x → r ≠ sdTransient)
        ∧ (r = sdTransient → t.getF fErrSdcntTransient
            = incSat fErrSdcntTransient.width (s.getF fErrSdcntTransient) 1
          ∧ (x.test, x.unit, x.sub, s.clock) ∈ t.sd.hist ∧ t.fuses = s.fuses)
        ∧ (r = sdLasting →
          t.getF fErrSdcntLasting = incSat fErrSdcntLasting.width (s.getF fErrSdcntLasting) 1
          ∧ (∀ c, x.test ≠ 3 → x.test ≠ 4 → x.test ≠ 5 → x.core = some c →
            s.sd.retired.contains c = false →
            t.sd.retired = s.sd.retired ++ [c]
            ∧ (∀ d < 256, (s.core d).bare = false → t.stageOut (s.core d).slot d = true →
                (t.core d).stopped = true)
            ∧ (∀ d, d ≠ c → t.stageOut (s.core d).slot d = false → t.core d = s.core d)
            ∧ (0 < s.spares c → t.spares c = s.spares c - 1))
          ∧ (x.test = 1 → x.core = none →
            (t.sd.remapPend = s.sd.remapPend ++ [(n, x.sub)]
              ∨ t.sd.remapPend = s.sd.remapPend ∧ ∃ y ∈ s.sd.remapped ++ s.sd.remapPend, y.1 = n))
          ∧ (x.test = 3 →
            (Tab.look (fun _ => 0) (s.stk n).spareUsed (x.sub % 256) < 32 →
              (t.stk n).redirected = (s.stk n).redirected ++ [x.sub])
            ∧ (32 ≤ Tab.look (fun _ => 0) (s.stk n).spareUsed (x.sub % 256) → ∀ w,
              w ∈ codewords 8 (n * stackBytes + x.sub * 0x1000) 0x1000 →
              Tab.look (fun _ => Ecc.good) t.memEcc w = .poisoned))
          ∧ (x.test = 4 → n < 512 → (t.rd64 (rMemBeretLo (n / 64))).getLsbD (n % 64) = true)
          ∧ (x.test = 5 → n < 19 → n ∈ t.sd.portsOut ∧ t.bitF (fFabPctlEn n) = false
            ∧ t.portUp n = false)))
  ∧ ∀ s : State,
    exec .cstormWindow s = .next { s with sd := { s.sd with corr := [], storm := [] } }
    ∧ ((∀ x ∈ s.sd.queue, s.eligible x = true) → exec .sdDeferred s = .next s)
    ∧ (∀ x, s.sd.queue.find? (fun t => !s.eligible t) = some x → ∃ t, exec .sdDeferred s = .next t
      ∧ t.sd.queue = s.sd.queue.filter (· ≠ x) ∧ t.fuses = s.fuses ∧ SameStores s t)
    ∧ ∀ (r : Requester) (v : BitVec 32), r = .jusia ∨ r = .pf0 →
      (∃ t, exec (.errClrlog r v) s = .next t ∧ t.getF fErrHeadHead = s.getF fErrTailTail
        ∧ (v.getLsbD 0 = false → OnlyRegs [rErrHead] s t))
      ∧ (let u := v.toNat % 65536
        let k := v.toNat / 65536 % 256
        let sub := s.getF fErrSdsubSub
        (sdTaken k (u / 2048) (u % 2048) sub = false →
          exec (.errSdreq r v) s = .next (s.logCsr 1 rErrSdreq v.toNat))
        ∧ (sdTaken k (u / 2048) (u % 2048) sub = true →
          (s.sd.holds k u sub = true → exec (.errSdreq r v) s = .next s)
          ∧ (s.sd.holds k u sub = false → ∃ t, exec (.errSdreq r v) s = .next t
            ∧ (64 ≤ s.sd.queue.length → t.sd = s.sd ∧ t.getF fErrSdstatQfull
                = incSat fErrSdstatQfull.width (s.getF fErrSdstatQfull) 1)
            ∧ (s.sd.queue.length < 64 → t.sd.queue = s.sd.queue ++ [⟨k, u, sub, s.clock⟩]
              ∧ t.getF fErrSdstatQlevel = s.sd.queue.length + 1)
            ∧ OnlyRegs [rErrSdstat] s { t with sd := s.sd })))

/-- The writes that the spec calls reserved encodings, of single registers (R15, R393, R442, R603, R641,
R710, R738). -/
def Sys2Proof.Claims.Reserved (off : Nat) (v : W32) : Prop :=
  (off = rBwtCfg ∧ fBwtCfgDigmax.get v = 0) ∨ (off = rBwtConsoff ∧ fBwtConsoffSlots.get v = 0)
    ∨ (off = rBwtCplen ∧ (fBwtCplenEntries.get v = 0 ∨ 256 < fBwtCplenEntries.get v))
    ∨ (off = rBwtPgrp ∧ 8 < fBwtPgrpMember.get v) ∨ (off = rXltTimeout ∧ fXltTimeoutSlots.get v = 0)
    ∨ (off = rSavRinglen ∧ fSavRinglenPlaces.get v < 4) ∨ (off = rSavRstr ∧ fSavRstrArea.get v = 3)
    ∨ (off = rSavHcfg ∧ fSavHcfgTol.get v = 0) ∨ (off = rMgtI2ccfg ∧ fMgtI2ccfgSpeed.get v = 3)
    ∨ (off = rErrSdcfg ∧ (fErrSdcfgRecur.get v < 2 ∨ fErrSdcfgRwin.get v = 0
      ∨ fErrSdcfgDefer.get v = 0 ∨ fErrSdcfgCthr.get v = 0))
    ∨ (off = rMemSavedl ∧ fMemSavedlHightk.get v ≤ fMemSavedlUrgtk.get v)

/-- Register accesses (R13-R19, R442, R676, R681, R683, R718, R742): an access of another size or alignment is
refused with a CSR record; a write that stores gives the RW bits their values and clears W1C bits written 1;
one that places a reserved encoding is dropped whole with its record; the _LO half of a pair is held, and both
halves take effect with the _HI half of the same requester; a read of a _LO half latches the _HI half, which
the next read of that half returns; unmasking a vector sends its pending message once; enabling the completion
ring sets HEAD and TAIL to 0. XLT_TBASEB is Jusia's to write. Where the rules leave a point open it states the
model's choice (log entry 55). -/
def Obligations.RegisterAccessesFollowTheirRules : Prop :=
  (∀ (r : Requester) (off : BitVec 26) (v : BitVec 64) (s : State),
    let w : W32 := v.setWidth 32
    let o := off.toNat
    (∀ size, exec (.registerWrite .pf1 .bar0 off size v) s = .next s
      ∧ (r = .jusia ∨ r = .smbus → exec (.registerWrite r .bar4 off size v) s = .next s))
    ∧ (r = .jusia ∨ r = .pf0 →
      (∀ size : BitVec 13, size ≠ 4 ∨ o % 4 ≠ 0 →
        exec (.registerWrite r .bar0 off size v) s = .next (s.logCsr 3 o (v.toNat % 2 ^ 32)))
      ∧ (o % 4 = 0 → pairLo o = false → pairHi o = false → o / 0x100000 ≠ 1 → inCore o = false →
        chanAt o = none → s.action o w = none →
        (∀ d, s.wrCheck o (w &&& regRw o) = .drop d →
          exec (.registerWrite r .bar0 off 4 v) s = .next (s.logCsr d o w.toNat))
        ∧ (s.wrCheck o (w &&& regRw o) = .ok → ∃ t,
          exec (.registerWrite r .bar0 off 4 v) s = .next t ∧ OnlyRegs [o] s t
          ∧ ∀ i < 32, (t.rd o).getLsbD i =
            ((if (regRw o).getLsbD i then w.getLsbD i else (s.rd o).getLsbD i)
              && !((regW1c o).getLsbD i && w.getLsbD i))))
      ∧ (Reserved o w → exec (.registerWrite r .bar0 off 4 v) s = .next (s.logCsr 1 o w.toNat))
      ∧ (pairLo o = true → regRw o ≠ 0 → o % 4 = 0 →
        exec (.registerWrite r .bar0 off 4 v) s
          = .next { s with heldLo := latchPut s.heldLo r o w })
      ∧ (pairHi o = true → pairLo o = false → regRw (o - 4) ≠ 0 → o % 4 = 0 → chanAt o = none → ∀ lo,
        latchOf s.heldLo r (o - 4) = some lo → let x := (w &&& regRw o) ++ (lo &&& regRw (o - 4))
        ∃ t, exec (.registerWrite r .bar0 off 4 v) s = .next t
          ∧ latchOf t.heldLo r (o - 4) = none
          ∧ (s.pairCheck (o - 4) x = .ok → OnlyRegs [o - 4, o] s { t with heldLo := s.heldLo }
            ∧ t.rd (o - 4) = regStored (o - 4) (s.rd (o - 4)) lo
            ∧ t.rd o = regStored o (s.rd o) w)
          ∧ (∀ d, s.pairCheck (o - 4) x = .drop d →
            t = ({ s with heldLo := t.heldLo } : State).logCsr d o w.toNat)))
      ∧ (r = .pf0 → o = rXltTbasebLo ∨ o = rXltTbasebHi → exec (.registerWrite r .bar0 off 4 v) s = .next s)
      ∧ (r = .jusia → o = rXltTbasebLo → exec (.registerWrite r .bar0 off 4 v) s
          = .next { s with heldLo := latchPut s.heldLo r o w })
      ∧ (r = .jusia → o = rXltTbasebHi → ∀ lo, latchOf s.heldLo r rXltTbasebLo = some lo →
        (lo.toNat % 0x200000 = 0 → ∃ t, exec (.registerWrite r .bar0 off 4 v) s = .next t
          ∧ t.rd64 rXltTbasebLo = (w &&& 0xFFFF#32) ++ lo
          ∧ OnlyRegs [rXltTbasebLo, rXltTbasebHi] s { t with heldLo := s.heldLo })
        ∧ (lo.toNat % 0x200000 ≠ 0 → ∃ t, exec (.registerWrite r .bar0 off 4 v) s = .next t
          ∧ t = ({ s with heldLo := t.heldLo } : State).logCsr 1 o w.toNat)))
  ∧ (∀ (r : Requester) (off : BitVec 26) (s : State), r = .jusia ∨ r = .pf0 →
    let o := off.toNat
    (∀ size : BitVec 13, size ≠ 4 ∨ o % 4 ≠ 0 → ∃ t, exec (.loReadLatch r .bar0 off size) s = .next t
      ∧ (∃ l, t.out = l ++ [.readAbort r .bar0 o]) ∧ SameStores s t)
    ∧ (o % 4 = 0 → o ≠ rMgtGpiodata →
      (pairLo o = true → ∃ t, exec (.loReadLatch r .bar0 off 4) s = .next t
        ∧ t.out = s.out ++ [.readData r .bar0 o ((s.regVal o 0).setWidth 64)]
        ∧ latchOf t.latches r (o + 4) = some (s.regVal (o + 4) 0)
        ∧ t = { s with latches := t.latches, out := t.out })
      ∧ (pairLo o = false → ∀ h, latchOf s.latches r o = some h → ∃ t,
        exec (.loReadLatch r .bar0 off 4) s = .next t
        ∧ t.out = s.out ++ [.readData r .bar0 o (h.setWidth 64)]
        ∧ latchOf t.latches r o = none ∧ t = { s with latches := t.latches, out := t.out })
      ∧ (pairLo o = false → latchOf s.latches r o = none →
        exec (.loReadLatch r .bar0 off 4) s
          = .next { s with out := s.out ++ [.readData r .bar0 o ((s.regVal o 0).setWidth 64)] })))
  ∧ ∀ (fn : Func) (s : State),
    (∀ vec : Fin 32, let pend := (s.rd4 fn 0x800).getLsbD vec
      ∃ t, exec (.msixUnmask fn vec) s = .next t ∧ t.rd4 fn (16 * vec + 12) = 0
        ∧ (pend = true → t.out = s.out ++ [.msix fn vec] ∧ (t.rd4 fn 0x800).getLsbD vec = false)
        ∧ (pend = false → t.out = s.out)
        ∧ (∀ k < 32, k ≠ vec.val → (t.rd4 fn 0x800).getLsbD k = (s.rd4 fn 0x800).getLsbD k)
        ∧ t = { s with bar4 := t.bar4, out := t.out })
    ∧ ∀ v : BitVec 32, ∃ t, exec (.cringEnable fn v) s = .next t
      ∧ (t.rd4 fn 0x200C).getLsbD 0 = true
      ∧ ((s.rd4 fn 0x200C).getLsbD 0 = false → t.rd4 fn 0x2010 = 0 ∧ t.rd4 fn 0x2014 = 0)
      ∧ ((s.rd4 fn 0x200C).getLsbD 0 = true → t.rd4 fn 0x2010 = s.rd4 fn 0x2010
        ∧ t.rd4 fn 0x2014 = s.rd4 fn 0x2014)
      ∧ t = { s with bar4 := t.bar4 }

/-! ### An invariant of every step -/

/-- Every step, of a command or of an empty queue, keeps the control registers, the BAR4 words, device
memory and staging memory in canonical form. That memory without a listed byte reads as 0 is the model's
choice (log entry 2). -/
def Obligations.EveryStepKeepsTablesCanonical : Prop :=
  ∀ s : State, Canonical s → ∀ t, step s = .next t → Canonical t
end

