-- ==== Sys2Proof/Laws/Tab.lean ====
section
/-! SUPPORT. What the operations on sparse tables do: what a key reads as after each of them,
and that each keeps the canonical form. -/

namespace Sys2Proof.Machine

open Sys2Proof

variable {α : Type}

/-! ### Reading -/

@[simp] theorem Tab.look_nil (d : Nat → α) (k : Nat) : Tab.look d ([] : Tab α) k = d k := rfl

/-- Reading a table entry by entry. -/
theorem Tab.look_cons (d : Nat → α) (a : Nat) (b : α) (t : Tab α) (k : Nat) :
    Tab.look d ((a, b) :: t) k = if a = k then b else Tab.look d t k := by
  by_cases h : a = k <;> simp [Tab.look, h]

/-- Reading after an insertion. -/
theorem Tab.look_ins (d : Nat → α) (t : Tab α) (k : Nat) (v : α) (j : Nat) :
    Tab.look d (Tab.ins t k v) j = if k = j then v else Tab.look d t j := by
  induction t with
  | nil => simp [Tab.ins, Tab.look_cons]
  | cons e r ih =>
    obtain ⟨a, b⟩ := e
    simp only [Tab.ins]
    split
    · simp [Tab.look_cons]
    · split
      · rename_i h1 h2; subst h2
        by_cases h : a = j <;> simp [Tab.look_cons, h]
      · rename_i h1 h2
        simp only [Tab.look_cons, ih]
        by_cases h : a = j
        · subst h; simp [Ne.symm h2]
        · simp [h]

/-- The key just inserted. -/
@[simp] theorem Tab.look_ins_same (d : Nat → α) (t : Tab α) (k : Nat) (v : α) :
    Tab.look d (Tab.ins t k v) k = v := by simp [Tab.look_ins]

/-- Every other key. -/
theorem Tab.look_ins_ne (d : Nat → α) (t : Tab α) (k : Nat) (v : α) {j : Nat} (h : k ≠ j) :
    Tab.look d (Tab.ins t k v) j = Tab.look d t j := by simp [Tab.look_ins, h]

/-- Reading after a key is unlisted. -/
theorem Tab.look_del (d : Nat → α) (t : Tab α) (k j : Nat) :
    Tab.look d (Tab.del t k) j = if k = j then d j else Tab.look d t j := by
  induction t with
  | nil => simp [Tab.del]
  | cons e r ih =>
    obtain ⟨a, b⟩ := e
    unfold Tab.del at ih ⊢
    by_cases h : a = k
    · subst h
      by_cases h2 : a = j <;> simp_all [Tab.look_cons]
    · by_cases h2 : a = j
      · subst h2; simp [Tab.look_cons, h, Ne.symm h]
      · simp [h, Tab.look_cons, h2, ih]

/-- Reading after a write: the written key holds the value, every other key is unchanged. -/
theorem Tab.look_put [DecidableEq α] (d : Nat → α) (t : Tab α) (k : Nat) (v : α) (j : Nat) :
    Tab.look d (Tab.put d t k v) j = if k = j then v else Tab.look d t j := by
  unfold Tab.put
  split
  · rename_i h; rw [Tab.look_del]; by_cases h2 : k = j
    · subst h2; simp [h]
    · simp [h2]
  · rw [Tab.look_ins]

@[simp] theorem Tab.look_put_same [DecidableEq α] (d : Nat → α) (t : Tab α) (k : Nat) (v : α) :
    Tab.look d (Tab.put d t k v) k = v := by simp [Tab.look_put]

theorem Tab.look_put_ne [DecidableEq α] (d : Nat → α) (t : Tab α) (k : Nat) (v : α) {j : Nat}
    (h : k ≠ j) : Tab.look d (Tab.put d t k v) j = Tab.look d t j := by simp [Tab.look_put, h]

/-- Reading after consecutive entries are written. -/
theorem Tab.look_putList [DecidableEq α] (d : Nat → α) (l : List α) :
    ∀ (t : Tab α) (k j : Nat), Tab.look d (Tab.putList d t k l) j =
      if k ≤ j then (l[j - k]?).getD (Tab.look d t j) else Tab.look d t j := by
  induction l with
  | nil => intro t k j; simp [Tab.putList]
  | cons v r ih =>
    intro t k j
    simp only [Tab.putList, ih, Tab.look_put]
    by_cases h : k = j
    · subst h; simp
    · by_cases h2 : k ≤ j
      · have h3 : k + 1 ≤ j := by omega
        have h4 : j - k = (j - (k + 1)) + 1 := by omega
        simp [h, h2, h3, h4]
      · have h3 : ¬ k + 1 ≤ j := by omega
        simp [h, h2, h3]

/-! ### The canonical form -/

/-- The canonical form as two properties. -/
theorem Tab.wf_iff [DecidableEq α] (d : Nat → α) (t : Tab α) :
    Tab.wf d t = true ↔ t.Pairwise (·.1 < ·.1) ∧ ∀ e ∈ t, e.2 ≠ d e.1 := by
  simp [Tab.wf]

/-- Keys of an insertion. -/
theorem Tab.mem_ins {t : Tab α} {k : Nat} {v : α} {e : Nat × α} (h : e ∈ Tab.ins t k v) :
    e = (k, v) ∨ e ∈ t := by
  induction t with
  | nil => simpa [Tab.ins] using h
  | cons x r ih =>
    obtain ⟨a, b⟩ := x
    simp only [Tab.ins] at h
    split at h
    · simpa using h
    · split at h
      · rcases List.mem_cons.1 h with h | h
        · exact .inl h
        · exact .inr (List.mem_cons_of_mem _ h)
      · rcases List.mem_cons.1 h with h | h
        · exact .inr (h ▸ List.mem_cons_self ..)
        · rcases ih h with h | h
          · exact .inl h
          · exact .inr (List.mem_cons_of_mem _ h)

/-- An insertion keeps the keys rising. -/
theorem Tab.sorted_ins {t : Tab α} (k : Nat) (v : α) (h : t.Pairwise (·.1 < ·.1)) :
    (Tab.ins t k v).Pairwise (·.1 < ·.1) := by
  induction t with
  | nil => simp [Tab.ins]
  | cons x r ih =>
    obtain ⟨a, b⟩ := x
    rw [List.pairwise_cons] at h
    simp only [Tab.ins]
    split
    · rename_i hk
      refine List.pairwise_cons.2 ⟨?_, List.pairwise_cons.2 h⟩
      intro e he
      rcases List.mem_cons.1 he with rfl | he
      · exact hk
      · exact lt_trans hk (h.1 e he)
    · split
      · rename_i h1 h2; subst h2; exact List.pairwise_cons.2 h
      · rename_i h1 h2
        refine List.pairwise_cons.2 ⟨?_, ih h.2⟩
        intro e he
        rcases Tab.mem_ins he with rfl | he
        · simp only; omega
        · exact h.1 e he

/-- The empty table is canonical. -/
@[simp] theorem Tab.wf_nil [DecidableEq α] (d : Nat → α) : Tab.wf d ([] : Tab α) = true := rfl

/-- A filter keeps the canonical form. -/
theorem Tab.wf_filter [DecidableEq α] (d : Nat → α) {t : Tab α} (p : Nat × α → Bool)
    (h : Tab.wf d t = true) : Tab.wf d (t.filter p) = true := by
  rw [Tab.wf_iff] at h ⊢
  exact ⟨h.1.filter _, fun e he => h.2 e (List.mem_filter.1 he).1⟩

/-- A write keeps the canonical form. -/
theorem Tab.wf_put [DecidableEq α] (d : Nat → α) {t : Tab α} (k : Nat) (v : α)
    (h : Tab.wf d t = true) : Tab.wf d (Tab.put d t k v) = true := by
  unfold Tab.put
  split
  · exact Tab.wf_filter d _ h
  · rename_i hv
    rw [Tab.wf_iff] at h ⊢
    refine ⟨Tab.sorted_ins k v h.1, fun e he => ?_⟩
    rcases Tab.mem_ins he with rfl | he
    · exact hv
    · exact h.2 e he

/-- Writing consecutive entries keeps the canonical form. -/
theorem Tab.wf_putList [DecidableEq α] (d : Nat → α) (l : List α) :
    ∀ (t : Tab α) (k : Nat), Tab.wf d t = true → Tab.wf d (Tab.putList d t k l) = true := by
  induction l with
  | nil => intro t k h; exact h
  | cons v r ih => intro t k h; exact ih _ _ (Tab.wf_put d k v h)

/-- Unlisting keys keeps the canonical form. -/
theorem Tab.wf_drop [DecidableEq α] (d : Nat → α) {t : Tab α} (p : Nat → Bool)
    (h : Tab.wf d t = true) : Tab.wf d (Tab.drop t p) = true := Tab.wf_filter d _ h

end Sys2Proof.Machine
end

