-- ==== Sys2Proof/Laws/State.lean ====
section
/-! SUPPORT. What each plain update of the state leaves as it was: one lemma per field per update,
true by `rfl`.  Then what each record reads as after an update of it, and what a register and a
field read as after a write. -/

namespace Sys2Proof.Machine

open Sys2Proof

/-! ### `State.wr` -/

@[simp] theorem State.wr_pending (s : State) (o : Nat) (v : W32) : (s.wr o v).pending = s.pending := rfl
@[simp] theorem State.wr_bar4 (s : State) (o : Nat) (v : W32) : (s.wr o v).bar4 = s.bar4 := rfl
@[simp] theorem State.wr_latches (s : State) (o : Nat) (v : W32) : (s.wr o v).latches = s.latches := rfl
@[simp] theorem State.wr_heldLo (s : State) (o : Nat) (v : W32) : (s.wr o v).heldLo = s.heldLo := rfl
@[simp] theorem State.wr_fuses (s : State) (o : Nat) (v : W32) : (s.wr o v).fuses = s.fuses := rfl
@[simp] theorem State.wr_cores (s : State) (o : Nat) (v : W32) : (s.wr o v).cores = s.cores := rfl
@[simp] theorem State.wr_routes (s : State) (o : Nat) (v : W32) : (s.wr o v).routes = s.routes := rfl
@[simp] theorem State.wr_sinks (s : State) (o : Nat) (v : W32) : (s.wr o v).sinks = s.sinks := rfl
@[simp] theorem State.wr_eps (s : State) (o : Nat) (v : W32) : (s.wr o v).eps = s.eps := rfl
@[simp] theorem State.wr_staging (s : State) (o : Nat) (v : W32) : (s.wr o v).staging = s.staging := rfl
@[simp] theorem State.wr_stgEcc (s : State) (o : Nat) (v : W32) : (s.wr o v).stgEcc = s.stgEcc := rfl
@[simp] theorem State.wr_regions (s : State) (o : Nat) (v : W32) : (s.wr o v).regions = s.regions := rfl
@[simp] theorem State.wr_coll (s : State) (o : Nat) (v : W32) : (s.wr o v).coll = s.coll := rfl
@[simp] theorem State.wr_reporter (s : State) (o : Nat) (v : W32) : (s.wr o v).reporter = s.reporter := rfl
@[simp] theorem State.wr_imgA (s : State) (o : Nat) (v : W32) : (s.wr o v).imgA = s.imgA := rfl
@[simp] theorem State.wr_imgB (s : State) (o : Nat) (v : W32) : (s.wr o v).imgB = s.imgB := rfl
@[simp] theorem State.wr_loader (s : State) (o : Nat) (v : W32) : (s.wr o v).loader = s.loader := rfl
@[simp] theorem State.wr_defPend (s : State) (o : Nat) (v : W32) : (s.wr o v).defPend = s.defPend := rfl
@[simp] theorem State.wr_unloadB (s : State) (o : Nat) (v : W32) : (s.wr o v).unloadB = s.unloadB := rfl
@[simp] theorem State.wr_winOpen (s : State) (o : Nat) (v : W32) : (s.wr o v).winOpen = s.winOpen := rfl
@[simp] theorem State.wr_fabApplied (s : State) (o : Nat) (v : W32) : (s.wr o v).fabApplied = s.fabApplied := rfl
@[simp] theorem State.wr_logical (s : State) (o : Nat) (v : W32) : (s.wr o v).logical = s.logical := rfl
@[simp] theorem State.wr_mem (s : State) (o : Nat) (v : W32) : (s.wr o v).mem = s.mem := rfl
@[simp] theorem State.wr_memEcc (s : State) (o : Nat) (v : W32) : (s.wr o v).memEcc = s.memEcc := rfl
@[simp] theorem State.wr_stks (s : State) (o : Nat) (v : W32) : (s.wr o v).stks = s.stks := rfl
@[simp] theorem State.wr_hring (s : State) (o : Nat) (v : W32) : (s.wr o v).hring = s.hring := rfl
@[simp] theorem State.wr_pages (s : State) (o : Nat) (v : W32) : (s.wr o v).pages = s.pages := rfl
@[simp] theorem State.wr_xbufs (s : State) (o : Nat) (v : W32) : (s.wr o v).xbufs = s.xbufs := rfl
@[simp] theorem State.wr_invBusy (s : State) (o : Nat) (v : W32) : (s.wr o v).invBusy = s.invBusy := rfl
@[simp] theorem State.wr_dma (s : State) (o : Nat) (v : W32) : (s.wr o v).dma = s.dma := rfl
@[simp] theorem State.wr_second (s : State) (o : Nat) (v : W32) : (s.wr o v).second = s.second := rfl
@[simp] theorem State.wr_fab (s : State) (o : Nat) (v : W32) : (s.wr o v).fab = s.fab := rfl
@[simp] theorem State.wr_ports (s : State) (o : Nat) (v : W32) : (s.wr o v).ports = s.ports := rfl
@[simp] theorem State.wr_chans (s : State) (o : Nat) (v : W32) : (s.wr o v).chans = s.chans := rfl
@[simp] theorem State.wr_cals (s : State) (o : Nat) (v : W32) : (s.wr o v).cals = s.cals := rfl
@[simp] theorem State.wr_rem (s : State) (o : Nat) (v : W32) : (s.wr o v).rem = s.rem := rfl
@[simp] theorem State.wr_colls (s : State) (o : Nat) (v : W32) : (s.wr o v).colls = s.colls := rfl
@[simp] theorem State.wr_mule (s : State) (o : Nat) (v : W32) : (s.wr o v).mule = s.mule := rfl
@[simp] theorem State.wr_bwt (s : State) (o : Nat) (v : W32) : (s.wr o v).bwt = s.bwt := rfl
@[simp] theorem State.wr_sav (s : State) (o : Nat) (v : W32) : (s.wr o v).sav = s.sav := rfl
@[simp] theorem State.wr_drives (s : State) (o : Nat) (v : W32) : (s.wr o v).drives = s.drives := rfl
@[simp] theorem State.wr_pwr (s : State) (o : Nat) (v : W32) : (s.wr o v).pwr = s.pwr := rfl
@[simp] theorem State.wr_host (s : State) (o : Nat) (v : W32) : (s.wr o v).host = s.host := rfl
@[simp] theorem State.wr_mgt (s : State) (o : Nat) (v : W32) : (s.wr o v).mgt = s.mgt := rfl
@[simp] theorem State.wr_sd (s : State) (o : Nat) (v : W32) : (s.wr o v).sd = s.sd := rfl
@[simp] theorem State.wr_fresh (s : State) (o : Nat) (v : W32) : (s.wr o v).fresh = s.fresh := rfl
@[simp] theorem State.wr_out (s : State) (o : Nat) (v : W32) : (s.wr o v).out = s.out := rfl

/-! ### `State.setF` -/

@[simp] theorem State.setF_pending (s : State) (f : Fld) (v : Nat) : (s.setF f v).pending = s.pending := rfl
@[simp] theorem State.setF_bar4 (s : State) (f : Fld) (v : Nat) : (s.setF f v).bar4 = s.bar4 := rfl
@[simp] theorem State.setF_latches (s : State) (f : Fld) (v : Nat) : (s.setF f v).latches = s.latches := rfl
@[simp] theorem State.setF_heldLo (s : State) (f : Fld) (v : Nat) : (s.setF f v).heldLo = s.heldLo := rfl
@[simp] theorem State.setF_fuses (s : State) (f : Fld) (v : Nat) : (s.setF f v).fuses = s.fuses := rfl
@[simp] theorem State.setF_cores (s : State) (f : Fld) (v : Nat) : (s.setF f v).cores = s.cores := rfl
@[simp] theorem State.setF_routes (s : State) (f : Fld) (v : Nat) : (s.setF f v).routes = s.routes := rfl
@[simp] theorem State.setF_sinks (s : State) (f : Fld) (v : Nat) : (s.setF f v).sinks = s.sinks := rfl
@[simp] theorem State.setF_eps (s : State) (f : Fld) (v : Nat) : (s.setF f v).eps = s.eps := rfl
@[simp] theorem State.setF_staging (s : State) (f : Fld) (v : Nat) : (s.setF f v).staging = s.staging := rfl
@[simp] theorem State.setF_stgEcc (s : State) (f : Fld) (v : Nat) : (s.setF f v).stgEcc = s.stgEcc := rfl
@[simp] theorem State.setF_regions (s : State) (f : Fld) (v : Nat) : (s.setF f v).regions = s.regions := rfl
@[simp] theorem State.setF_coll (s : State) (f : Fld) (v : Nat) : (s.setF f v).coll = s.coll := rfl
@[simp] theorem State.setF_reporter (s : State) (f : Fld) (v : Nat) : (s.setF f v).reporter = s.reporter := rfl
@[simp] theorem State.setF_imgA (s : State) (f : Fld) (v : Nat) : (s.setF f v).imgA = s.imgA := rfl
@[simp] theorem State.setF_imgB (s : State) (f : Fld) (v : Nat) : (s.setF f v).imgB = s.imgB := rfl
@[simp] theorem State.setF_loader (s : State) (f : Fld) (v : Nat) : (s.setF f v).loader = s.loader := rfl
@[simp] theorem State.setF_defPend (s : State) (f : Fld) (v : Nat) : (s.setF f v).defPend = s.defPend := rfl
@[simp] theorem State.setF_unloadB (s : State) (f : Fld) (v : Nat) : (s.setF f v).unloadB = s.unloadB := rfl
@[simp] theorem State.setF_winOpen (s : State) (f : Fld) (v : Nat) : (s.setF f v).winOpen = s.winOpen := rfl
@[simp] theorem State.setF_fabApplied (s : State) (f : Fld) (v : Nat) : (s.setF f v).fabApplied = s.fabApplied := rfl
@[simp] theorem State.setF_logical (s : State) (f : Fld) (v : Nat) : (s.setF f v).logical = s.logical := rfl
@[simp] theorem State.setF_mem (s : State) (f : Fld) (v : Nat) : (s.setF f v).mem = s.mem := rfl
@[simp] theorem State.setF_memEcc (s : State) (f : Fld) (v : Nat) : (s.setF f v).memEcc = s.memEcc := rfl
@[simp] theorem State.setF_stks (s : State) (f : Fld) (v : Nat) : (s.setF f v).stks = s.stks := rfl
@[simp] theorem State.setF_hring (s : State) (f : Fld) (v : Nat) : (s.setF f v).hring = s.hring := rfl
@[simp] theorem State.setF_pages (s : State) (f : Fld) (v : Nat) : (s.setF f v).pages = s.pages := rfl
@[simp] theorem State.setF_xbufs (s : State) (f : Fld) (v : Nat) : (s.setF f v).xbufs = s.xbufs := rfl
@[simp] theorem State.setF_invBusy (s : State) (f : Fld) (v : Nat) : (s.setF f v).invBusy = s.invBusy := rfl
@[simp] theorem State.setF_dma (s : State) (f : Fld) (v : Nat) : (s.setF f v).dma = s.dma := rfl
@[simp] theorem State.setF_second (s : State) (f : Fld) (v : Nat) : (s.setF f v).second = s.second := rfl
@[simp] theorem State.setF_fab (s : State) (f : Fld) (v : Nat) : (s.setF f v).fab = s.fab := rfl
@[simp] theorem State.setF_ports (s : State) (f : Fld) (v : Nat) : (s.setF f v).ports = s.ports := rfl
@[simp] theorem State.setF_chans (s : State) (f : Fld) (v : Nat) : (s.setF f v).chans = s.chans := rfl
@[simp] theorem State.setF_cals (s : State) (f : Fld) (v : Nat) : (s.setF f v).cals = s.cals := rfl
@[simp] theorem State.setF_rem (s : State) (f : Fld) (v : Nat) : (s.setF f v).rem = s.rem := rfl
@[simp] theorem State.setF_colls (s : State) (f : Fld) (v : Nat) : (s.setF f v).colls = s.colls := rfl
@[simp] theorem State.setF_mule (s : State) (f : Fld) (v : Nat) : (s.setF f v).mule = s.mule := rfl
@[simp] theorem State.setF_bwt (s : State) (f : Fld) (v : Nat) : (s.setF f v).bwt = s.bwt := rfl
@[simp] theorem State.setF_sav (s : State) (f : Fld) (v : Nat) : (s.setF f v).sav = s.sav := rfl
@[simp] theorem State.setF_drives (s : State) (f : Fld) (v : Nat) : (s.setF f v).drives = s.drives := rfl
@[simp] theorem State.setF_pwr (s : State) (f : Fld) (v : Nat) : (s.setF f v).pwr = s.pwr := rfl
@[simp] theorem State.setF_host (s : State) (f : Fld) (v : Nat) : (s.setF f v).host = s.host := rfl
@[simp] theorem State.setF_mgt (s : State) (f : Fld) (v : Nat) : (s.setF f v).mgt = s.mgt := rfl
@[simp] theorem State.setF_sd (s : State) (f : Fld) (v : Nat) : (s.setF f v).sd = s.sd := rfl
@[simp] theorem State.setF_fresh (s : State) (f : Fld) (v : Nat) : (s.setF f v).fresh = s.fresh := rfl
@[simp] theorem State.setF_out (s : State) (f : Fld) (v : Nat) : (s.setF f v).out = s.out := rfl

/-! ### `State.setB` -/

@[simp] theorem State.setB_pending (s : State) (f : Fld) (b : Bool) : (s.setB f b).pending = s.pending := rfl
@[simp] theorem State.setB_bar4 (s : State) (f : Fld) (b : Bool) : (s.setB f b).bar4 = s.bar4 := rfl
@[simp] theorem State.setB_latches (s : State) (f : Fld) (b : Bool) : (s.setB f b).latches = s.latches := rfl
@[simp] theorem State.setB_heldLo (s : State) (f : Fld) (b : Bool) : (s.setB f b).heldLo = s.heldLo := rfl
@[simp] theorem State.setB_fuses (s : State) (f : Fld) (b : Bool) : (s.setB f b).fuses = s.fuses := rfl
@[simp] theorem State.setB_cores (s : State) (f : Fld) (b : Bool) : (s.setB f b).cores = s.cores := rfl
@[simp] theorem State.setB_routes (s : State) (f : Fld) (b : Bool) : (s.setB f b).routes = s.routes := rfl
@[simp] theorem State.setB_sinks (s : State) (f : Fld) (b : Bool) : (s.setB f b).sinks = s.sinks := rfl
@[simp] theorem State.setB_eps (s : State) (f : Fld) (b : Bool) : (s.setB f b).eps = s.eps := rfl
@[simp] theorem State.setB_staging (s : State) (f : Fld) (b : Bool) : (s.setB f b).staging = s.staging := rfl
@[simp] theorem State.setB_stgEcc (s : State) (f : Fld) (b : Bool) : (s.setB f b).stgEcc = s.stgEcc := rfl
@[simp] theorem State.setB_regions (s : State) (f : Fld) (b : Bool) : (s.setB f b).regions = s.regions := rfl
@[simp] theorem State.setB_coll (s : State) (f : Fld) (b : Bool) : (s.setB f b).coll = s.coll := rfl
@[simp] theorem State.setB_reporter (s : State) (f : Fld) (b : Bool) : (s.setB f b).reporter = s.reporter := rfl
@[simp] theorem State.setB_imgA (s : State) (f : Fld) (b : Bool) : (s.setB f b).imgA = s.imgA := rfl
@[simp] theorem State.setB_imgB (s : State) (f : Fld) (b : Bool) : (s.setB f b).imgB = s.imgB := rfl
@[simp] theorem State.setB_loader (s : State) (f : Fld) (b : Bool) : (s.setB f b).loader = s.loader := rfl
@[simp] theorem State.setB_defPend (s : State) (f : Fld) (b : Bool) : (s.setB f b).defPend = s.defPend := rfl
@[simp] theorem State.setB_unloadB (s : State) (f : Fld) (b : Bool) : (s.setB f b).unloadB = s.unloadB := rfl
@[simp] theorem State.setB_winOpen (s : State) (f : Fld) (b : Bool) : (s.setB f b).winOpen = s.winOpen := rfl
@[simp] theorem State.setB_fabApplied (s : State) (f : Fld) (b : Bool) : (s.setB f b).fabApplied = s.fabApplied := rfl
@[simp] theorem State.setB_logical (s : State) (f : Fld) (b : Bool) : (s.setB f b).logical = s.logical := rfl
@[simp] theorem State.setB_mem (s : State) (f : Fld) (b : Bool) : (s.setB f b).mem = s.mem := rfl
@[simp] theorem State.setB_memEcc (s : State) (f : Fld) (b : Bool) : (s.setB f b).memEcc = s.memEcc := rfl
@[simp] theorem State.setB_stks (s : State) (f : Fld) (b : Bool) : (s.setB f b).stks = s.stks := rfl
@[simp] theorem State.setB_hring (s : State) (f : Fld) (b : Bool) : (s.setB f b).hring = s.hring := rfl
@[simp] theorem State.setB_pages (s : State) (f : Fld) (b : Bool) : (s.setB f b).pages = s.pages := rfl
@[simp] theorem State.setB_xbufs (s : State) (f : Fld) (b : Bool) : (s.setB f b).xbufs = s.xbufs := rfl
@[simp] theorem State.setB_invBusy (s : State) (f : Fld) (b : Bool) : (s.setB f b).invBusy = s.invBusy := rfl
@[simp] theorem State.setB_dma (s : State) (f : Fld) (b : Bool) : (s.setB f b).dma = s.dma := rfl
@[simp] theorem State.setB_second (s : State) (f : Fld) (b : Bool) : (s.setB f b).second = s.second := rfl
@[simp] theorem State.setB_fab (s : State) (f : Fld) (b : Bool) : (s.setB f b).fab = s.fab := rfl
@[simp] theorem State.setB_ports (s : State) (f : Fld) (b : Bool) : (s.setB f b).ports = s.ports := rfl
@[simp] theorem State.setB_chans (s : State) (f : Fld) (b : Bool) : (s.setB f b).chans = s.chans := rfl
@[simp] theorem State.setB_cals (s : State) (f : Fld) (b : Bool) : (s.setB f b).cals = s.cals := rfl
@[simp] theorem State.setB_rem (s : State) (f : Fld) (b : Bool) : (s.setB f b).rem = s.rem := rfl
@[simp] theorem State.setB_colls (s : State) (f : Fld) (b : Bool) : (s.setB f b).colls = s.colls := rfl
@[simp] theorem State.setB_mule (s : State) (f : Fld) (b : Bool) : (s.setB f b).mule = s.mule := rfl
@[simp] theorem State.setB_bwt (s : State) (f : Fld) (b : Bool) : (s.setB f b).bwt = s.bwt := rfl
@[simp] theorem State.setB_sav (s : State) (f : Fld) (b : Bool) : (s.setB f b).sav = s.sav := rfl
@[simp] theorem State.setB_drives (s : State) (f : Fld) (b : Bool) : (s.setB f b).drives = s.drives := rfl
@[simp] theorem State.setB_pwr (s : State) (f : Fld) (b : Bool) : (s.setB f b).pwr = s.pwr := rfl
@[simp] theorem State.setB_host (s : State) (f : Fld) (b : Bool) : (s.setB f b).host = s.host := rfl
@[simp] theorem State.setB_mgt (s : State) (f : Fld) (b : Bool) : (s.setB f b).mgt = s.mgt := rfl
@[simp] theorem State.setB_sd (s : State) (f : Fld) (b : Bool) : (s.setB f b).sd = s.sd := rfl
@[simp] theorem State.setB_fresh (s : State) (f : Fld) (b : Bool) : (s.setB f b).fresh = s.fresh := rfl
@[simp] theorem State.setB_out (s : State) (f : Fld) (b : Bool) : (s.setB f b).out = s.out := rfl

/-! ### `State.bumpF` -/

@[simp] theorem State.bumpF_pending (s : State) (f : Fld) (n : Nat) : (s.bumpF f n).pending = s.pending := rfl
@[simp] theorem State.bumpF_bar4 (s : State) (f : Fld) (n : Nat) : (s.bumpF f n).bar4 = s.bar4 := rfl
@[simp] theorem State.bumpF_latches (s : State) (f : Fld) (n : Nat) : (s.bumpF f n).latches = s.latches := rfl
@[simp] theorem State.bumpF_heldLo (s : State) (f : Fld) (n : Nat) : (s.bumpF f n).heldLo = s.heldLo := rfl
@[simp] theorem State.bumpF_fuses (s : State) (f : Fld) (n : Nat) : (s.bumpF f n).fuses = s.fuses := rfl
@[simp] theorem State.bumpF_cores (s : State) (f : Fld) (n : Nat) : (s.bumpF f n).cores = s.cores := rfl
@[simp] theorem State.bumpF_routes (s : State) (f : Fld) (n : Nat) : (s.bumpF f n).routes = s.routes := rfl
@[simp] theorem State.bumpF_sinks (s : State) (f : Fld) (n : Nat) : (s.bumpF f n).sinks = s.sinks := rfl
@[simp] theorem State.bumpF_eps (s : State) (f : Fld) (n : Nat) : (s.bumpF f n).eps = s.eps := rfl
@[simp] theorem State.bumpF_staging (s : State) (f : Fld) (n : Nat) : (s.bumpF f n).staging = s.staging := rfl
@[simp] theorem State.bumpF_stgEcc (s : State) (f : Fld) (n : Nat) : (s.bumpF f n).stgEcc = s.stgEcc := rfl
@[simp] theorem State.bumpF_regions (s : State) (f : Fld) (n : Nat) : (s.bumpF f n).regions = s.regions := rfl
@[simp] theorem State.bumpF_coll (s : State) (f : Fld) (n : Nat) : (s.bumpF f n).coll = s.coll := rfl
@[simp] theorem State.bumpF_reporter (s : State) (f : Fld) (n : Nat) : (s.bumpF f n).reporter = s.reporter := rfl
@[simp] theorem State.bumpF_imgA (s : State) (f : Fld) (n : Nat) : (s.bumpF f n).imgA = s.imgA := rfl
@[simp] theorem State.bumpF_imgB (s : State) (f : Fld) (n : Nat) : (s.bumpF f n).imgB = s.imgB := rfl
@[simp] theorem State.bumpF_loader (s : State) (f : Fld) (n : Nat) : (s.bumpF f n).loader = s.loader := rfl
@[simp] theorem State.bumpF_defPend (s : State) (f : Fld) (n : Nat) : (s.bumpF f n).defPend = s.defPend := rfl
@[simp] theorem State.bumpF_unloadB (s : State) (f : Fld) (n : Nat) : (s.bumpF f n).unloadB = s.unloadB := rfl
@[simp] theorem State.bumpF_winOpen (s : State) (f : Fld) (n : Nat) : (s.bumpF f n).winOpen = s.winOpen := rfl
@[simp] theorem State.bumpF_fabApplied (s : State) (f : Fld) (n : Nat) : (s.bumpF f n).fabApplied = s.fabApplied := rfl
@[simp] theorem State.bumpF_logical (s : State) (f : Fld) (n : Nat) : (s.bumpF f n).logical = s.logical := rfl
@[simp] theorem State.bumpF_mem (s : State) (f : Fld) (n : Nat) : (s.bumpF f n).mem = s.mem := rfl
@[simp] theorem State.bumpF_memEcc (s : State) (f : Fld) (n : Nat) : (s.bumpF f n).memEcc = s.memEcc := rfl
@[simp] theorem State.bumpF_stks (s : State) (f : Fld) (n : Nat) : (s.bumpF f n).stks = s.stks := rfl
@[simp] theorem State.bumpF_hring (s : State) (f : Fld) (n : Nat) : (s.bumpF f n).hring = s.hring := rfl
@[simp] theorem State.bumpF_pages (s : State) (f : Fld) (n : Nat) : (s.bumpF f n).pages = s.pages := rfl
@[simp] theorem State.bumpF_xbufs (s : State) (f : Fld) (n : Nat) : (s.bumpF f n).xbufs = s.xbufs := rfl
@[simp] theorem State.bumpF_invBusy (s : State) (f : Fld) (n : Nat) : (s.bumpF f n).invBusy = s.invBusy := rfl
@[simp] theorem State.bumpF_dma (s : State) (f : Fld) (n : Nat) : (s.bumpF f n).dma = s.dma := rfl
@[simp] theorem State.bumpF_second (s : State) (f : Fld) (n : Nat) : (s.bumpF f n).second = s.second := rfl
@[simp] theorem State.bumpF_fab (s : State) (f : Fld) (n : Nat) : (s.bumpF f n).fab = s.fab := rfl
@[simp] theorem State.bumpF_ports (s : State) (f : Fld) (n : Nat) : (s.bumpF f n).ports = s.ports := rfl
@[simp] theorem State.bumpF_chans (s : State) (f : Fld) (n : Nat) : (s.bumpF f n).chans = s.chans := rfl
@[simp] theorem State.bumpF_cals (s : State) (f : Fld) (n : Nat) : (s.bumpF f n).cals = s.cals := rfl
@[simp] theorem State.bumpF_rem (s : State) (f : Fld) (n : Nat) : (s.bumpF f n).rem = s.rem := rfl
@[simp] theorem State.bumpF_colls (s : State) (f : Fld) (n : Nat) : (s.bumpF f n).colls = s.colls := rfl
@[simp] theorem State.bumpF_mule (s : State) (f : Fld) (n : Nat) : (s.bumpF f n).mule = s.mule := rfl
@[simp] theorem State.bumpF_bwt (s : State) (f : Fld) (n : Nat) : (s.bumpF f n).bwt = s.bwt := rfl
@[simp] theorem State.bumpF_sav (s : State) (f : Fld) (n : Nat) : (s.bumpF f n).sav = s.sav := rfl
@[simp] theorem State.bumpF_drives (s : State) (f : Fld) (n : Nat) : (s.bumpF f n).drives = s.drives := rfl
@[simp] theorem State.bumpF_pwr (s : State) (f : Fld) (n : Nat) : (s.bumpF f n).pwr = s.pwr := rfl
@[simp] theorem State.bumpF_host (s : State) (f : Fld) (n : Nat) : (s.bumpF f n).host = s.host := rfl
@[simp] theorem State.bumpF_mgt (s : State) (f : Fld) (n : Nat) : (s.bumpF f n).mgt = s.mgt := rfl
@[simp] theorem State.bumpF_sd (s : State) (f : Fld) (n : Nat) : (s.bumpF f n).sd = s.sd := rfl
@[simp] theorem State.bumpF_fresh (s : State) (f : Fld) (n : Nat) : (s.bumpF f n).fresh = s.fresh := rfl
@[simp] theorem State.bumpF_out (s : State) (f : Fld) (n : Nat) : (s.bumpF f n).out = s.out := rfl

/-! ### `State.bump` -/

@[simp] theorem State.bump_pending (s : State) (o n : Nat) : (s.bump o n).pending = s.pending := rfl
@[simp] theorem State.bump_bar4 (s : State) (o n : Nat) : (s.bump o n).bar4 = s.bar4 := rfl
@[simp] theorem State.bump_latches (s : State) (o n : Nat) : (s.bump o n).latches = s.latches := rfl
@[simp] theorem State.bump_heldLo (s : State) (o n : Nat) : (s.bump o n).heldLo = s.heldLo := rfl
@[simp] theorem State.bump_fuses (s : State) (o n : Nat) : (s.bump o n).fuses = s.fuses := rfl
@[simp] theorem State.bump_cores (s : State) (o n : Nat) : (s.bump o n).cores = s.cores := rfl
@[simp] theorem State.bump_routes (s : State) (o n : Nat) : (s.bump o n).routes = s.routes := rfl
@[simp] theorem State.bump_sinks (s : State) (o n : Nat) : (s.bump o n).sinks = s.sinks := rfl
@[simp] theorem State.bump_eps (s : State) (o n : Nat) : (s.bump o n).eps = s.eps := rfl
@[simp] theorem State.bump_staging (s : State) (o n : Nat) : (s.bump o n).staging = s.staging := rfl
@[simp] theorem State.bump_stgEcc (s : State) (o n : Nat) : (s.bump o n).stgEcc = s.stgEcc := rfl
@[simp] theorem State.bump_regions (s : State) (o n : Nat) : (s.bump o n).regions = s.regions := rfl
@[simp] theorem State.bump_coll (s : State) (o n : Nat) : (s.bump o n).coll = s.coll := rfl
@[simp] theorem State.bump_reporter (s : State) (o n : Nat) : (s.bump o n).reporter = s.reporter := rfl
@[simp] theorem State.bump_imgA (s : State) (o n : Nat) : (s.bump o n).imgA = s.imgA := rfl
@[simp] theorem State.bump_imgB (s : State) (o n : Nat) : (s.bump o n).imgB = s.imgB := rfl
@[simp] theorem State.bump_loader (s : State) (o n : Nat) : (s.bump o n).loader = s.loader := rfl
@[simp] theorem State.bump_defPend (s : State) (o n : Nat) : (s.bump o n).defPend = s.defPend := rfl
@[simp] theorem State.bump_unloadB (s : State) (o n : Nat) : (s.bump o n).unloadB = s.unloadB := rfl
@[simp] theorem State.bump_winOpen (s : State) (o n : Nat) : (s.bump o n).winOpen = s.winOpen := rfl
@[simp] theorem State.bump_fabApplied (s : State) (o n : Nat) : (s.bump o n).fabApplied = s.fabApplied := rfl
@[simp] theorem State.bump_logical (s : State) (o n : Nat) : (s.bump o n).logical = s.logical := rfl
@[simp] theorem State.bump_mem (s : State) (o n : Nat) : (s.bump o n).mem = s.mem := rfl
@[simp] theorem State.bump_memEcc (s : State) (o n : Nat) : (s.bump o n).memEcc = s.memEcc := rfl
@[simp] theorem State.bump_stks (s : State) (o n : Nat) : (s.bump o n).stks = s.stks := rfl
@[simp] theorem State.bump_hring (s : State) (o n : Nat) : (s.bump o n).hring = s.hring := rfl
@[simp] theorem State.bump_pages (s : State) (o n : Nat) : (s.bump o n).pages = s.pages := rfl
@[simp] theorem State.bump_xbufs (s : State) (o n : Nat) : (s.bump o n).xbufs = s.xbufs := rfl
@[simp] theorem State.bump_invBusy (s : State) (o n : Nat) : (s.bump o n).invBusy = s.invBusy := rfl
@[simp] theorem State.bump_dma (s : State) (o n : Nat) : (s.bump o n).dma = s.dma := rfl
@[simp] theorem State.bump_second (s : State) (o n : Nat) : (s.bump o n).second = s.second := rfl
@[simp] theorem State.bump_fab (s : State) (o n : Nat) : (s.bump o n).fab = s.fab := rfl
@[simp] theorem State.bump_ports (s : State) (o n : Nat) : (s.bump o n).ports = s.ports := rfl
@[simp] theorem State.bump_chans (s : State) (o n : Nat) : (s.bump o n).chans = s.chans := rfl
@[simp] theorem State.bump_cals (s : State) (o n : Nat) : (s.bump o n).cals = s.cals := rfl
@[simp] theorem State.bump_rem (s : State) (o n : Nat) : (s.bump o n).rem = s.rem := rfl
@[simp] theorem State.bump_colls (s : State) (o n : Nat) : (s.bump o n).colls = s.colls := rfl
@[simp] theorem State.bump_mule (s : State) (o n : Nat) : (s.bump o n).mule = s.mule := rfl
@[simp] theorem State.bump_bwt (s : State) (o n : Nat) : (s.bump o n).bwt = s.bwt := rfl
@[simp] theorem State.bump_sav (s : State) (o n : Nat) : (s.bump o n).sav = s.sav := rfl
@[simp] theorem State.bump_drives (s : State) (o n : Nat) : (s.bump o n).drives = s.drives := rfl
@[simp] theorem State.bump_pwr (s : State) (o n : Nat) : (s.bump o n).pwr = s.pwr := rfl
@[simp] theorem State.bump_host (s : State) (o n : Nat) : (s.bump o n).host = s.host := rfl
@[simp] theorem State.bump_mgt (s : State) (o n : Nat) : (s.bump o n).mgt = s.mgt := rfl
@[simp] theorem State.bump_sd (s : State) (o n : Nat) : (s.bump o n).sd = s.sd := rfl
@[simp] theorem State.bump_fresh (s : State) (o n : Nat) : (s.bump o n).fresh = s.fresh := rfl
@[simp] theorem State.bump_out (s : State) (o n : Nat) : (s.bump o n).out = s.out := rfl

/-! ### `State.store` -/

@[simp] theorem State.store_pending (s : State) (o : Nat) (v : W32) : (s.store o v).pending = s.pending := rfl
@[simp] theorem State.store_bar4 (s : State) (o : Nat) (v : W32) : (s.store o v).bar4 = s.bar4 := rfl
@[simp] theorem State.store_latches (s : State) (o : Nat) (v : W32) : (s.store o v).latches = s.latches := rfl
@[simp] theorem State.store_heldLo (s : State) (o : Nat) (v : W32) : (s.store o v).heldLo = s.heldLo := rfl
@[simp] theorem State.store_fuses (s : State) (o : Nat) (v : W32) : (s.store o v).fuses = s.fuses := rfl
@[simp] theorem State.store_cores (s : State) (o : Nat) (v : W32) : (s.store o v).cores = s.cores := rfl
@[simp] theorem State.store_routes (s : State) (o : Nat) (v : W32) : (s.store o v).routes = s.routes := rfl
@[simp] theorem State.store_sinks (s : State) (o : Nat) (v : W32) : (s.store o v).sinks = s.sinks := rfl
@[simp] theorem State.store_eps (s : State) (o : Nat) (v : W32) : (s.store o v).eps = s.eps := rfl
@[simp] theorem State.store_staging (s : State) (o : Nat) (v : W32) : (s.store o v).staging = s.staging := rfl
@[simp] theorem State.store_stgEcc (s : State) (o : Nat) (v : W32) : (s.store o v).stgEcc = s.stgEcc := rfl
@[simp] theorem State.store_regions (s : State) (o : Nat) (v : W32) : (s.store o v).regions = s.regions := rfl
@[simp] theorem State.store_coll (s : State) (o : Nat) (v : W32) : (s.store o v).coll = s.coll := rfl
@[simp] theorem State.store_reporter (s : State) (o : Nat) (v : W32) : (s.store o v).reporter = s.reporter := rfl
@[simp] theorem State.store_imgA (s : State) (o : Nat) (v : W32) : (s.store o v).imgA = s.imgA := rfl
@[simp] theorem State.store_imgB (s : State) (o : Nat) (v : W32) : (s.store o v).imgB = s.imgB := rfl
@[simp] theorem State.store_loader (s : State) (o : Nat) (v : W32) : (s.store o v).loader = s.loader := rfl
@[simp] theorem State.store_defPend (s : State) (o : Nat) (v : W32) : (s.store o v).defPend = s.defPend := rfl
@[simp] theorem State.store_unloadB (s : State) (o : Nat) (v : W32) : (s.store o v).unloadB = s.unloadB := rfl
@[simp] theorem State.store_winOpen (s : State) (o : Nat) (v : W32) : (s.store o v).winOpen = s.winOpen := rfl
@[simp] theorem State.store_fabApplied (s : State) (o : Nat) (v : W32) : (s.store o v).fabApplied = s.fabApplied := rfl
@[simp] theorem State.store_logical (s : State) (o : Nat) (v : W32) : (s.store o v).logical = s.logical := rfl
@[simp] theorem State.store_mem (s : State) (o : Nat) (v : W32) : (s.store o v).mem = s.mem := rfl
@[simp] theorem State.store_memEcc (s : State) (o : Nat) (v : W32) : (s.store o v).memEcc = s.memEcc := rfl
@[simp] theorem State.store_stks (s : State) (o : Nat) (v : W32) : (s.store o v).stks = s.stks := rfl
@[simp] theorem State.store_hring (s : State) (o : Nat) (v : W32) : (s.store o v).hring = s.hring := rfl
@[simp] theorem State.store_pages (s : State) (o : Nat) (v : W32) : (s.store o v).pages = s.pages := rfl
@[simp] theorem State.store_xbufs (s : State) (o : Nat) (v : W32) : (s.store o v).xbufs = s.xbufs := rfl
@[simp] theorem State.store_invBusy (s : State) (o : Nat) (v : W32) : (s.store o v).invBusy = s.invBusy := rfl
@[simp] theorem State.store_dma (s : State) (o : Nat) (v : W32) : (s.store o v).dma = s.dma := rfl
@[simp] theorem State.store_second (s : State) (o : Nat) (v : W32) : (s.store o v).second = s.second := rfl
@[simp] theorem State.store_fab (s : State) (o : Nat) (v : W32) : (s.store o v).fab = s.fab := rfl
@[simp] theorem State.store_ports (s : State) (o : Nat) (v : W32) : (s.store o v).ports = s.ports := rfl
@[simp] theorem State.store_chans (s : State) (o : Nat) (v : W32) : (s.store o v).chans = s.chans := rfl
@[simp] theorem State.store_cals (s : State) (o : Nat) (v : W32) : (s.store o v).cals = s.cals := rfl
@[simp] theorem State.store_rem (s : State) (o : Nat) (v : W32) : (s.store o v).rem = s.rem := rfl
@[simp] theorem State.store_colls (s : State) (o : Nat) (v : W32) : (s.store o v).colls = s.colls := rfl
@[simp] theorem State.store_mule (s : State) (o : Nat) (v : W32) : (s.store o v).mule = s.mule := rfl
@[simp] theorem State.store_bwt (s : State) (o : Nat) (v : W32) : (s.store o v).bwt = s.bwt := rfl
@[simp] theorem State.store_sav (s : State) (o : Nat) (v : W32) : (s.store o v).sav = s.sav := rfl
@[simp] theorem State.store_drives (s : State) (o : Nat) (v : W32) : (s.store o v).drives = s.drives := rfl
@[simp] theorem State.store_pwr (s : State) (o : Nat) (v : W32) : (s.store o v).pwr = s.pwr := rfl
@[simp] theorem State.store_host (s : State) (o : Nat) (v : W32) : (s.store o v).host = s.host := rfl
@[simp] theorem State.store_mgt (s : State) (o : Nat) (v : W32) : (s.store o v).mgt = s.mgt := rfl
@[simp] theorem State.store_sd (s : State) (o : Nat) (v : W32) : (s.store o v).sd = s.sd := rfl
@[simp] theorem State.store_fresh (s : State) (o : Nat) (v : W32) : (s.store o v).fresh = s.fresh := rfl
@[simp] theorem State.store_out (s : State) (o : Nat) (v : W32) : (s.store o v).out = s.out := rfl

/-! ### `State.wr64` -/

@[simp] theorem State.wr64_pending (s : State) (o : Nat) (v : W64) : (s.wr64 o v).pending = s.pending := rfl
@[simp] theorem State.wr64_bar4 (s : State) (o : Nat) (v : W64) : (s.wr64 o v).bar4 = s.bar4 := rfl
@[simp] theorem State.wr64_latches (s : State) (o : Nat) (v : W64) : (s.wr64 o v).latches = s.latches := rfl
@[simp] theorem State.wr64_heldLo (s : State) (o : Nat) (v : W64) : (s.wr64 o v).heldLo = s.heldLo := rfl
@[simp] theorem State.wr64_fuses (s : State) (o : Nat) (v : W64) : (s.wr64 o v).fuses = s.fuses := rfl
@[simp] theorem State.wr64_cores (s : State) (o : Nat) (v : W64) : (s.wr64 o v).cores = s.cores := rfl
@[simp] theorem State.wr64_routes (s : State) (o : Nat) (v : W64) : (s.wr64 o v).routes = s.routes := rfl
@[simp] theorem State.wr64_sinks (s : State) (o : Nat) (v : W64) : (s.wr64 o v).sinks = s.sinks := rfl
@[simp] theorem State.wr64_eps (s : State) (o : Nat) (v : W64) : (s.wr64 o v).eps = s.eps := rfl
@[simp] theorem State.wr64_staging (s : State) (o : Nat) (v : W64) : (s.wr64 o v).staging = s.staging := rfl
@[simp] theorem State.wr64_stgEcc (s : State) (o : Nat) (v : W64) : (s.wr64 o v).stgEcc = s.stgEcc := rfl
@[simp] theorem State.wr64_regions (s : State) (o : Nat) (v : W64) : (s.wr64 o v).regions = s.regions := rfl
@[simp] theorem State.wr64_coll (s : State) (o : Nat) (v : W64) : (s.wr64 o v).coll = s.coll := rfl
@[simp] theorem State.wr64_reporter (s : State) (o : Nat) (v : W64) : (s.wr64 o v).reporter = s.reporter := rfl
@[simp] theorem State.wr64_imgA (s : State) (o : Nat) (v : W64) : (s.wr64 o v).imgA = s.imgA := rfl
@[simp] theorem State.wr64_imgB (s : State) (o : Nat) (v : W64) : (s.wr64 o v).imgB = s.imgB := rfl
@[simp] theorem State.wr64_loader (s : State) (o : Nat) (v : W64) : (s.wr64 o v).loader = s.loader := rfl
@[simp] theorem State.wr64_defPend (s : State) (o : Nat) (v : W64) : (s.wr64 o v).defPend = s.defPend := rfl
@[simp] theorem State.wr64_unloadB (s : State) (o : Nat) (v : W64) : (s.wr64 o v).unloadB = s.unloadB := rfl
@[simp] theorem State.wr64_winOpen (s : State) (o : Nat) (v : W64) : (s.wr64 o v).winOpen = s.winOpen := rfl
@[simp] theorem State.wr64_fabApplied (s : State) (o : Nat) (v : W64) : (s.wr64 o v).fabApplied = s.fabApplied := rfl
@[simp] theorem State.wr64_logical (s : State) (o : Nat) (v : W64) : (s.wr64 o v).logical = s.logical := rfl
@[simp] theorem State.wr64_mem (s : State) (o : Nat) (v : W64) : (s.wr64 o v).mem = s.mem := rfl
@[simp] theorem State.wr64_memEcc (s : State) (o : Nat) (v : W64) : (s.wr64 o v).memEcc = s.memEcc := rfl
@[simp] theorem State.wr64_stks (s : State) (o : Nat) (v : W64) : (s.wr64 o v).stks = s.stks := rfl
@[simp] theorem State.wr64_hring (s : State) (o : Nat) (v : W64) : (s.wr64 o v).hring = s.hring := rfl
@[simp] theorem State.wr64_pages (s : State) (o : Nat) (v : W64) : (s.wr64 o v).pages = s.pages := rfl
@[simp] theorem State.wr64_xbufs (s : State) (o : Nat) (v : W64) : (s.wr64 o v).xbufs = s.xbufs := rfl
@[simp] theorem State.wr64_invBusy (s : State) (o : Nat) (v : W64) : (s.wr64 o v).invBusy = s.invBusy := rfl
@[simp] theorem State.wr64_dma (s : State) (o : Nat) (v : W64) : (s.wr64 o v).dma = s.dma := rfl
@[simp] theorem State.wr64_second (s : State) (o : Nat) (v : W64) : (s.wr64 o v).second = s.second := rfl
@[simp] theorem State.wr64_fab (s : State) (o : Nat) (v : W64) : (s.wr64 o v).fab = s.fab := rfl
@[simp] theorem State.wr64_ports (s : State) (o : Nat) (v : W64) : (s.wr64 o v).ports = s.ports := rfl
@[simp] theorem State.wr64_chans (s : State) (o : Nat) (v : W64) : (s.wr64 o v).chans = s.chans := rfl
@[simp] theorem State.wr64_cals (s : State) (o : Nat) (v : W64) : (s.wr64 o v).cals = s.cals := rfl
@[simp] theorem State.wr64_rem (s : State) (o : Nat) (v : W64) : (s.wr64 o v).rem = s.rem := rfl
@[simp] theorem State.wr64_colls (s : State) (o : Nat) (v : W64) : (s.wr64 o v).colls = s.colls := rfl
@[simp] theorem State.wr64_mule (s : State) (o : Nat) (v : W64) : (s.wr64 o v).mule = s.mule := rfl
@[simp] theorem State.wr64_bwt (s : State) (o : Nat) (v : W64) : (s.wr64 o v).bwt = s.bwt := rfl
@[simp] theorem State.wr64_sav (s : State) (o : Nat) (v : W64) : (s.wr64 o v).sav = s.sav := rfl
@[simp] theorem State.wr64_drives (s : State) (o : Nat) (v : W64) : (s.wr64 o v).drives = s.drives := rfl
@[simp] theorem State.wr64_pwr (s : State) (o : Nat) (v : W64) : (s.wr64 o v).pwr = s.pwr := rfl
@[simp] theorem State.wr64_host (s : State) (o : Nat) (v : W64) : (s.wr64 o v).host = s.host := rfl
@[simp] theorem State.wr64_mgt (s : State) (o : Nat) (v : W64) : (s.wr64 o v).mgt = s.mgt := rfl
@[simp] theorem State.wr64_sd (s : State) (o : Nat) (v : W64) : (s.wr64 o v).sd = s.sd := rfl
@[simp] theorem State.wr64_fresh (s : State) (o : Nat) (v : W64) : (s.wr64 o v).fresh = s.fresh := rfl
@[simp] theorem State.wr64_out (s : State) (o : Nat) (v : W64) : (s.wr64 o v).out = s.out := rfl

/-! ### `State.wr4` -/

@[simp] theorem State.wr4_pending (s : State) (fn : Func) (o : Nat) (v : W32) : (s.wr4 fn o v).pending = s.pending := by cases s; rfl
@[simp] theorem State.wr4_reg (s : State) (fn : Func) (o : Nat) (v : W32) : (s.wr4 fn o v).reg = s.reg := by cases s; rfl
@[simp] theorem State.wr4_latches (s : State) (fn : Func) (o : Nat) (v : W32) : (s.wr4 fn o v).latches = s.latches := by cases s; rfl
@[simp] theorem State.wr4_heldLo (s : State) (fn : Func) (o : Nat) (v : W32) : (s.wr4 fn o v).heldLo = s.heldLo := by cases s; rfl
@[simp] theorem State.wr4_fuses (s : State) (fn : Func) (o : Nat) (v : W32) : (s.wr4 fn o v).fuses = s.fuses := by cases s; rfl
@[simp] theorem State.wr4_cores (s : State) (fn : Func) (o : Nat) (v : W32) : (s.wr4 fn o v).cores = s.cores := by cases s; rfl
@[simp] theorem State.wr4_routes (s : State) (fn : Func) (o : Nat) (v : W32) : (s.wr4 fn o v).routes = s.routes := by cases s; rfl
@[simp] theorem State.wr4_sinks (s : State) (fn : Func) (o : Nat) (v : W32) : (s.wr4 fn o v).sinks = s.sinks := by cases s; rfl
@[simp] theorem State.wr4_eps (s : State) (fn : Func) (o : Nat) (v : W32) : (s.wr4 fn o v).eps = s.eps := by cases s; rfl
@[simp] theorem State.wr4_staging (s : State) (fn : Func) (o : Nat) (v : W32) : (s.wr4 fn o v).staging = s.staging := by cases s; rfl
@[simp] theorem State.wr4_stgEcc (s : State) (fn : Func) (o : Nat) (v : W32) : (s.wr4 fn o v).stgEcc = s.stgEcc := by cases s; rfl
@[simp] theorem State.wr4_regions (s : State) (fn : Func) (o : Nat) (v : W32) : (s.wr4 fn o v).regions = s.regions := by cases s; rfl
@[simp] theorem State.wr4_coll (s : State) (fn : Func) (o : Nat) (v : W32) : (s.wr4 fn o v).coll = s.coll := by cases s; rfl
@[simp] theorem State.wr4_reporter (s : State) (fn : Func) (o : Nat) (v : W32) : (s.wr4 fn o v).reporter = s.reporter := by cases s; rfl
@[simp] theorem State.wr4_imgA (s : State) (fn : Func) (o : Nat) (v : W32) : (s.wr4 fn o v).imgA = s.imgA := by cases s; rfl
@[simp] theorem State.wr4_imgB (s : State) (fn : Func) (o : Nat) (v : W32) : (s.wr4 fn o v).imgB = s.imgB := by cases s; rfl
@[simp] theorem State.wr4_loader (s : State) (fn : Func) (o : Nat) (v : W32) : (s.wr4 fn o v).loader = s.loader := by cases s; rfl
@[simp] theorem State.wr4_defPend (s : State) (fn : Func) (o : Nat) (v : W32) : (s.wr4 fn o v).defPend = s.defPend := by cases s; rfl
@[simp] theorem State.wr4_unloadB (s : State) (fn : Func) (o : Nat) (v : W32) : (s.wr4 fn o v).unloadB = s.unloadB := by cases s; rfl
@[simp] theorem State.wr4_winOpen (s : State) (fn : Func) (o : Nat) (v : W32) : (s.wr4 fn o v).winOpen = s.winOpen := by cases s; rfl
@[simp] theorem State.wr4_fabApplied (s : State) (fn : Func) (o : Nat) (v : W32) : (s.wr4 fn o v).fabApplied = s.fabApplied := by cases s; rfl
@[simp] theorem State.wr4_logical (s : State) (fn : Func) (o : Nat) (v : W32) : (s.wr4 fn o v).logical = s.logical := by cases s; rfl
@[simp] theorem State.wr4_mem (s : State) (fn : Func) (o : Nat) (v : W32) : (s.wr4 fn o v).mem = s.mem := by cases s; rfl
@[simp] theorem State.wr4_memEcc (s : State) (fn : Func) (o : Nat) (v : W32) : (s.wr4 fn o v).memEcc = s.memEcc := by cases s; rfl
@[simp] theorem State.wr4_stks (s : State) (fn : Func) (o : Nat) (v : W32) : (s.wr4 fn o v).stks = s.stks := by cases s; rfl
@[simp] theorem State.wr4_hring (s : State) (fn : Func) (o : Nat) (v : W32) : (s.wr4 fn o v).hring = s.hring := by cases s; rfl
@[simp] theorem State.wr4_pages (s : State) (fn : Func) (o : Nat) (v : W32) : (s.wr4 fn o v).pages = s.pages := by cases s; rfl
@[simp] theorem State.wr4_xbufs (s : State) (fn : Func) (o : Nat) (v : W32) : (s.wr4 fn o v).xbufs = s.xbufs := by cases s; rfl
@[simp] theorem State.wr4_invBusy (s : State) (fn : Func) (o : Nat) (v : W32) : (s.wr4 fn o v).invBusy = s.invBusy := by cases s; rfl
@[simp] theorem State.wr4_dma (s : State) (fn : Func) (o : Nat) (v : W32) : (s.wr4 fn o v).dma = s.dma := by cases s; rfl
@[simp] theorem State.wr4_second (s : State) (fn : Func) (o : Nat) (v : W32) : (s.wr4 fn o v).second = s.second := by cases s; rfl
@[simp] theorem State.wr4_fab (s : State) (fn : Func) (o : Nat) (v : W32) : (s.wr4 fn o v).fab = s.fab := by cases s; rfl
@[simp] theorem State.wr4_ports (s : State) (fn : Func) (o : Nat) (v : W32) : (s.wr4 fn o v).ports = s.ports := by cases s; rfl
@[simp] theorem State.wr4_chans (s : State) (fn : Func) (o : Nat) (v : W32) : (s.wr4 fn o v).chans = s.chans := by cases s; rfl
@[simp] theorem State.wr4_cals (s : State) (fn : Func) (o : Nat) (v : W32) : (s.wr4 fn o v).cals = s.cals := by cases s; rfl
@[simp] theorem State.wr4_rem (s : State) (fn : Func) (o : Nat) (v : W32) : (s.wr4 fn o v).rem = s.rem := by cases s; rfl
@[simp] theorem State.wr4_colls (s : State) (fn : Func) (o : Nat) (v : W32) : (s.wr4 fn o v).colls = s.colls := by cases s; rfl
@[simp] theorem State.wr4_mule (s : State) (fn : Func) (o : Nat) (v : W32) : (s.wr4 fn o v).mule = s.mule := by cases s; rfl
@[simp] theorem State.wr4_bwt (s : State) (fn : Func) (o : Nat) (v : W32) : (s.wr4 fn o v).bwt = s.bwt := by cases s; rfl
@[simp] theorem State.wr4_sav (s : State) (fn : Func) (o : Nat) (v : W32) : (s.wr4 fn o v).sav = s.sav := by cases s; rfl
@[simp] theorem State.wr4_drives (s : State) (fn : Func) (o : Nat) (v : W32) : (s.wr4 fn o v).drives = s.drives := by cases s; rfl
@[simp] theorem State.wr4_pwr (s : State) (fn : Func) (o : Nat) (v : W32) : (s.wr4 fn o v).pwr = s.pwr := by cases s; rfl
@[simp] theorem State.wr4_host (s : State) (fn : Func) (o : Nat) (v : W32) : (s.wr4 fn o v).host = s.host := by cases s; rfl
@[simp] theorem State.wr4_mgt (s : State) (fn : Func) (o : Nat) (v : W32) : (s.wr4 fn o v).mgt = s.mgt := by cases s; rfl
@[simp] theorem State.wr4_sd (s : State) (fn : Func) (o : Nat) (v : W32) : (s.wr4 fn o v).sd = s.sd := by cases s; rfl
@[simp] theorem State.wr4_fresh (s : State) (fn : Func) (o : Nat) (v : W32) : (s.wr4 fn o v).fresh = s.fresh := by cases s; rfl
@[simp] theorem State.wr4_out (s : State) (fn : Func) (o : Nat) (v : W32) : (s.wr4 fn o v).out = s.out := by cases s; rfl

/-! ### `State.emit` -/

@[simp] theorem State.emit_pending (s : State) (m : Out) : (s.emit m).pending = s.pending := rfl
@[simp] theorem State.emit_reg (s : State) (m : Out) : (s.emit m).reg = s.reg := rfl
@[simp] theorem State.emit_bar4 (s : State) (m : Out) : (s.emit m).bar4 = s.bar4 := rfl
@[simp] theorem State.emit_latches (s : State) (m : Out) : (s.emit m).latches = s.latches := rfl
@[simp] theorem State.emit_heldLo (s : State) (m : Out) : (s.emit m).heldLo = s.heldLo := rfl
@[simp] theorem State.emit_fuses (s : State) (m : Out) : (s.emit m).fuses = s.fuses := rfl
@[simp] theorem State.emit_cores (s : State) (m : Out) : (s.emit m).cores = s.cores := rfl
@[simp] theorem State.emit_routes (s : State) (m : Out) : (s.emit m).routes = s.routes := rfl
@[simp] theorem State.emit_sinks (s : State) (m : Out) : (s.emit m).sinks = s.sinks := rfl
@[simp] theorem State.emit_eps (s : State) (m : Out) : (s.emit m).eps = s.eps := rfl
@[simp] theorem State.emit_staging (s : State) (m : Out) : (s.emit m).staging = s.staging := rfl
@[simp] theorem State.emit_stgEcc (s : State) (m : Out) : (s.emit m).stgEcc = s.stgEcc := rfl
@[simp] theorem State.emit_regions (s : State) (m : Out) : (s.emit m).regions = s.regions := rfl
@[simp] theorem State.emit_coll (s : State) (m : Out) : (s.emit m).coll = s.coll := rfl
@[simp] theorem State.emit_reporter (s : State) (m : Out) : (s.emit m).reporter = s.reporter := rfl
@[simp] theorem State.emit_imgA (s : State) (m : Out) : (s.emit m).imgA = s.imgA := rfl
@[simp] theorem State.emit_imgB (s : State) (m : Out) : (s.emit m).imgB = s.imgB := rfl
@[simp] theorem State.emit_loader (s : State) (m : Out) : (s.emit m).loader = s.loader := rfl
@[simp] theorem State.emit_defPend (s : State) (m : Out) : (s.emit m).defPend = s.defPend := rfl
@[simp] theorem State.emit_unloadB (s : State) (m : Out) : (s.emit m).unloadB = s.unloadB := rfl
@[simp] theorem State.emit_winOpen (s : State) (m : Out) : (s.emit m).winOpen = s.winOpen := rfl
@[simp] theorem State.emit_fabApplied (s : State) (m : Out) : (s.emit m).fabApplied = s.fabApplied := rfl
@[simp] theorem State.emit_logical (s : State) (m : Out) : (s.emit m).logical = s.logical := rfl
@[simp] theorem State.emit_mem (s : State) (m : Out) : (s.emit m).mem = s.mem := rfl
@[simp] theorem State.emit_memEcc (s : State) (m : Out) : (s.emit m).memEcc = s.memEcc := rfl
@[simp] theorem State.emit_stks (s : State) (m : Out) : (s.emit m).stks = s.stks := rfl
@[simp] theorem State.emit_hring (s : State) (m : Out) : (s.emit m).hring = s.hring := rfl
@[simp] theorem State.emit_pages (s : State) (m : Out) : (s.emit m).pages = s.pages := rfl
@[simp] theorem State.emit_xbufs (s : State) (m : Out) : (s.emit m).xbufs = s.xbufs := rfl
@[simp] theorem State.emit_invBusy (s : State) (m : Out) : (s.emit m).invBusy = s.invBusy := rfl
@[simp] theorem State.emit_dma (s : State) (m : Out) : (s.emit m).dma = s.dma := rfl
@[simp] theorem State.emit_second (s : State) (m : Out) : (s.emit m).second = s.second := rfl
@[simp] theorem State.emit_fab (s : State) (m : Out) : (s.emit m).fab = s.fab := rfl
@[simp] theorem State.emit_ports (s : State) (m : Out) : (s.emit m).ports = s.ports := rfl
@[simp] theorem State.emit_chans (s : State) (m : Out) : (s.emit m).chans = s.chans := rfl
@[simp] theorem State.emit_cals (s : State) (m : Out) : (s.emit m).cals = s.cals := rfl
@[simp] theorem State.emit_rem (s : State) (m : Out) : (s.emit m).rem = s.rem := rfl
@[simp] theorem State.emit_colls (s : State) (m : Out) : (s.emit m).colls = s.colls := rfl
@[simp] theorem State.emit_mule (s : State) (m : Out) : (s.emit m).mule = s.mule := rfl
@[simp] theorem State.emit_bwt (s : State) (m : Out) : (s.emit m).bwt = s.bwt := rfl
@[simp] theorem State.emit_sav (s : State) (m : Out) : (s.emit m).sav = s.sav := rfl
@[simp] theorem State.emit_drives (s : State) (m : Out) : (s.emit m).drives = s.drives := rfl
@[simp] theorem State.emit_pwr (s : State) (m : Out) : (s.emit m).pwr = s.pwr := rfl
@[simp] theorem State.emit_host (s : State) (m : Out) : (s.emit m).host = s.host := rfl
@[simp] theorem State.emit_mgt (s : State) (m : Out) : (s.emit m).mgt = s.mgt := rfl
@[simp] theorem State.emit_sd (s : State) (m : Out) : (s.emit m).sd = s.sd := rfl
@[simp] theorem State.emit_fresh (s : State) (m : Out) : (s.emit m).fresh = s.fresh := rfl

/-! ### `State.setIncomp` -/

@[simp] theorem State.setIncomp_pending (s : State) : (s.setIncomp).pending = s.pending := rfl
@[simp] theorem State.setIncomp_reg (s : State) : (s.setIncomp).reg = s.reg := rfl
@[simp] theorem State.setIncomp_bar4 (s : State) : (s.setIncomp).bar4 = s.bar4 := rfl
@[simp] theorem State.setIncomp_latches (s : State) : (s.setIncomp).latches = s.latches := rfl
@[simp] theorem State.setIncomp_heldLo (s : State) : (s.setIncomp).heldLo = s.heldLo := rfl
@[simp] theorem State.setIncomp_fuses (s : State) : (s.setIncomp).fuses = s.fuses := rfl
@[simp] theorem State.setIncomp_cores (s : State) : (s.setIncomp).cores = s.cores := rfl
@[simp] theorem State.setIncomp_routes (s : State) : (s.setIncomp).routes = s.routes := rfl
@[simp] theorem State.setIncomp_sinks (s : State) : (s.setIncomp).sinks = s.sinks := rfl
@[simp] theorem State.setIncomp_eps (s : State) : (s.setIncomp).eps = s.eps := rfl
@[simp] theorem State.setIncomp_staging (s : State) : (s.setIncomp).staging = s.staging := rfl
@[simp] theorem State.setIncomp_stgEcc (s : State) : (s.setIncomp).stgEcc = s.stgEcc := rfl
@[simp] theorem State.setIncomp_regions (s : State) : (s.setIncomp).regions = s.regions := rfl
@[simp] theorem State.setIncomp_coll (s : State) : (s.setIncomp).coll = s.coll := rfl
@[simp] theorem State.setIncomp_reporter (s : State) : (s.setIncomp).reporter = s.reporter := rfl
@[simp] theorem State.setIncomp_imgA (s : State) : (s.setIncomp).imgA = s.imgA := rfl
@[simp] theorem State.setIncomp_imgB (s : State) : (s.setIncomp).imgB = s.imgB := rfl
@[simp] theorem State.setIncomp_loader (s : State) : (s.setIncomp).loader = s.loader := rfl
@[simp] theorem State.setIncomp_defPend (s : State) : (s.setIncomp).defPend = s.defPend := rfl
@[simp] theorem State.setIncomp_unloadB (s : State) : (s.setIncomp).unloadB = s.unloadB := rfl
@[simp] theorem State.setIncomp_winOpen (s : State) : (s.setIncomp).winOpen = s.winOpen := rfl
@[simp] theorem State.setIncomp_fabApplied (s : State) : (s.setIncomp).fabApplied = s.fabApplied := rfl
@[simp] theorem State.setIncomp_logical (s : State) : (s.setIncomp).logical = s.logical := rfl
@[simp] theorem State.setIncomp_mem (s : State) : (s.setIncomp).mem = s.mem := rfl
@[simp] theorem State.setIncomp_memEcc (s : State) : (s.setIncomp).memEcc = s.memEcc := rfl
@[simp] theorem State.setIncomp_stks (s : State) : (s.setIncomp).stks = s.stks := rfl
@[simp] theorem State.setIncomp_hring (s : State) : (s.setIncomp).hring = s.hring := rfl
@[simp] theorem State.setIncomp_pages (s : State) : (s.setIncomp).pages = s.pages := rfl
@[simp] theorem State.setIncomp_xbufs (s : State) : (s.setIncomp).xbufs = s.xbufs := rfl
@[simp] theorem State.setIncomp_invBusy (s : State) : (s.setIncomp).invBusy = s.invBusy := rfl
@[simp] theorem State.setIncomp_dma (s : State) : (s.setIncomp).dma = s.dma := rfl
@[simp] theorem State.setIncomp_second (s : State) : (s.setIncomp).second = s.second := rfl
@[simp] theorem State.setIncomp_fab (s : State) : (s.setIncomp).fab = s.fab := rfl
@[simp] theorem State.setIncomp_ports (s : State) : (s.setIncomp).ports = s.ports := rfl
@[simp] theorem State.setIncomp_chans (s : State) : (s.setIncomp).chans = s.chans := rfl
@[simp] theorem State.setIncomp_cals (s : State) : (s.setIncomp).cals = s.cals := rfl
@[simp] theorem State.setIncomp_rem (s : State) : (s.setIncomp).rem = s.rem := rfl
@[simp] theorem State.setIncomp_colls (s : State) : (s.setIncomp).colls = s.colls := rfl
@[simp] theorem State.setIncomp_mule (s : State) : (s.setIncomp).mule = s.mule := rfl
@[simp] theorem State.setIncomp_sav (s : State) : (s.setIncomp).sav = s.sav := rfl
@[simp] theorem State.setIncomp_drives (s : State) : (s.setIncomp).drives = s.drives := rfl
@[simp] theorem State.setIncomp_pwr (s : State) : (s.setIncomp).pwr = s.pwr := rfl
@[simp] theorem State.setIncomp_host (s : State) : (s.setIncomp).host = s.host := rfl
@[simp] theorem State.setIncomp_mgt (s : State) : (s.setIncomp).mgt = s.mgt := rfl
@[simp] theorem State.setIncomp_sd (s : State) : (s.setIncomp).sd = s.sd := rfl
@[simp] theorem State.setIncomp_fresh (s : State) : (s.setIncomp).fresh = s.fresh := rfl
@[simp] theorem State.setIncomp_out (s : State) : (s.setIncomp).out = s.out := rfl

/-! ### `State.setCore` -/

@[simp] theorem State.setCore_pending (s : State) (c : Nat) (x : CoreSt) : (s.setCore c x).pending = s.pending := rfl
@[simp] theorem State.setCore_reg (s : State) (c : Nat) (x : CoreSt) : (s.setCore c x).reg = s.reg := rfl
@[simp] theorem State.setCore_bar4 (s : State) (c : Nat) (x : CoreSt) : (s.setCore c x).bar4 = s.bar4 := rfl
@[simp] theorem State.setCore_latches (s : State) (c : Nat) (x : CoreSt) : (s.setCore c x).latches = s.latches := rfl
@[simp] theorem State.setCore_heldLo (s : State) (c : Nat) (x : CoreSt) : (s.setCore c x).heldLo = s.heldLo := rfl
@[simp] theorem State.setCore_fuses (s : State) (c : Nat) (x : CoreSt) : (s.setCore c x).fuses = s.fuses := rfl
@[simp] theorem State.setCore_routes (s : State) (c : Nat) (x : CoreSt) : (s.setCore c x).routes = s.routes := rfl
@[simp] theorem State.setCore_sinks (s : State) (c : Nat) (x : CoreSt) : (s.setCore c x).sinks = s.sinks := rfl
@[simp] theorem State.setCore_eps (s : State) (c : Nat) (x : CoreSt) : (s.setCore c x).eps = s.eps := rfl
@[simp] theorem State.setCore_staging (s : State) (c : Nat) (x : CoreSt) : (s.setCore c x).staging = s.staging := rfl
@[simp] theorem State.setCore_stgEcc (s : State) (c : Nat) (x : CoreSt) : (s.setCore c x).stgEcc = s.stgEcc := rfl
@[simp] theorem State.setCore_regions (s : State) (c : Nat) (x : CoreSt) : (s.setCore c x).regions = s.regions := rfl
@[simp] theorem State.setCore_coll (s : State) (c : Nat) (x : CoreSt) : (s.setCore c x).coll = s.coll := rfl
@[simp] theorem State.setCore_reporter (s : State) (c : Nat) (x : CoreSt) : (s.setCore c x).reporter = s.reporter := rfl
@[simp] theorem State.setCore_imgA (s : State) (c : Nat) (x : CoreSt) : (s.setCore c x).imgA = s.imgA := rfl
@[simp] theorem State.setCore_imgB (s : State) (c : Nat) (x : CoreSt) : (s.setCore c x).imgB = s.imgB := rfl
@[simp] theorem State.setCore_loader (s : State) (c : Nat) (x : CoreSt) : (s.setCore c x).loader = s.loader := rfl
@[simp] theorem State.setCore_defPend (s : State) (c : Nat) (x : CoreSt) : (s.setCore c x).defPend = s.defPend := rfl
@[simp] theorem State.setCore_unloadB (s : State) (c : Nat) (x : CoreSt) : (s.setCore c x).unloadB = s.unloadB := rfl
@[simp] theorem State.setCore_winOpen (s : State) (c : Nat) (x : CoreSt) : (s.setCore c x).winOpen = s.winOpen := rfl
@[simp] theorem State.setCore_fabApplied (s : State) (c : Nat) (x : CoreSt) : (s.setCore c x).fabApplied = s.fabApplied := rfl
@[simp] theorem State.setCore_logical (s : State) (c : Nat) (x : CoreSt) : (s.setCore c x).logical = s.logical := rfl
@[simp] theorem State.setCore_mem (s : State) (c : Nat) (x : CoreSt) : (s.setCore c x).mem = s.mem := rfl
@[simp] theorem State.setCore_memEcc (s : State) (c : Nat) (x : CoreSt) : (s.setCore c x).memEcc = s.memEcc := rfl
@[simp] theorem State.setCore_stks (s : State) (c : Nat) (x : CoreSt) : (s.setCore c x).stks = s.stks := rfl
@[simp] theorem State.setCore_hring (s : State) (c : Nat) (x : CoreSt) : (s.setCore c x).hring = s.hring := rfl
@[simp] theorem State.setCore_pages (s : State) (c : Nat) (x : CoreSt) : (s.setCore c x).pages = s.pages := rfl
@[simp] theorem State.setCore_xbufs (s : State) (c : Nat) (x : CoreSt) : (s.setCore c x).xbufs = s.xbufs := rfl
@[simp] theorem State.setCore_invBusy (s : State) (c : Nat) (x : CoreSt) : (s.setCore c x).invBusy = s.invBusy := rfl
@[simp] theorem State.setCore_dma (s : State) (c : Nat) (x : CoreSt) : (s.setCore c x).dma = s.dma := rfl
@[simp] theorem State.setCore_second (s : State) (c : Nat) (x : CoreSt) : (s.setCore c x).second = s.second := rfl
@[simp] theorem State.setCore_fab (s : State) (c : Nat) (x : CoreSt) : (s.setCore c x).fab = s.fab := rfl
@[simp] theorem State.setCore_ports (s : State) (c : Nat) (x : CoreSt) : (s.setCore c x).ports = s.ports := rfl
@[simp] theorem State.setCore_chans (s : State) (c : Nat) (x : CoreSt) : (s.setCore c x).chans = s.chans := rfl
@[simp] theorem State.setCore_cals (s : State) (c : Nat) (x : CoreSt) : (s.setCore c x).cals = s.cals := rfl
@[simp] theorem State.setCore_rem (s : State) (c : Nat) (x : CoreSt) : (s.setCore c x).rem = s.rem := rfl
@[simp] theorem State.setCore_colls (s : State) (c : Nat) (x : CoreSt) : (s.setCore c x).colls = s.colls := rfl
@[simp] theorem State.setCore_mule (s : State) (c : Nat) (x : CoreSt) : (s.setCore c x).mule = s.mule := rfl
@[simp] theorem State.setCore_bwt (s : State) (c : Nat) (x : CoreSt) : (s.setCore c x).bwt = s.bwt := rfl
@[simp] theorem State.setCore_sav (s : State) (c : Nat) (x : CoreSt) : (s.setCore c x).sav = s.sav := rfl
@[simp] theorem State.setCore_drives (s : State) (c : Nat) (x : CoreSt) : (s.setCore c x).drives = s.drives := rfl
@[simp] theorem State.setCore_pwr (s : State) (c : Nat) (x : CoreSt) : (s.setCore c x).pwr = s.pwr := rfl
@[simp] theorem State.setCore_host (s : State) (c : Nat) (x : CoreSt) : (s.setCore c x).host = s.host := rfl
@[simp] theorem State.setCore_mgt (s : State) (c : Nat) (x : CoreSt) : (s.setCore c x).mgt = s.mgt := rfl
@[simp] theorem State.setCore_sd (s : State) (c : Nat) (x : CoreSt) : (s.setCore c x).sd = s.sd := rfl
@[simp] theorem State.setCore_fresh (s : State) (c : Nat) (x : CoreSt) : (s.setCore c x).fresh = s.fresh := rfl
@[simp] theorem State.setCore_out (s : State) (c : Nat) (x : CoreSt) : (s.setCore c x).out = s.out := rfl

/-! ### `State.modCore` -/

@[simp] theorem State.modCore_pending (s : State) (c : Nat) (f : CoreSt → CoreSt) : (s.modCore c f).pending = s.pending := rfl
@[simp] theorem State.modCore_reg (s : State) (c : Nat) (f : CoreSt → CoreSt) : (s.modCore c f).reg = s.reg := rfl
@[simp] theorem State.modCore_bar4 (s : State) (c : Nat) (f : CoreSt → CoreSt) : (s.modCore c f).bar4 = s.bar4 := rfl
@[simp] theorem State.modCore_latches (s : State) (c : Nat) (f : CoreSt → CoreSt) : (s.modCore c f).latches = s.latches := rfl
@[simp] theorem State.modCore_heldLo (s : State) (c : Nat) (f : CoreSt → CoreSt) : (s.modCore c f).heldLo = s.heldLo := rfl
@[simp] theorem State.modCore_fuses (s : State) (c : Nat) (f : CoreSt → CoreSt) : (s.modCore c f).fuses = s.fuses := rfl
@[simp] theorem State.modCore_routes (s : State) (c : Nat) (f : CoreSt → CoreSt) : (s.modCore c f).routes = s.routes := rfl
@[simp] theorem State.modCore_sinks (s : State) (c : Nat) (f : CoreSt → CoreSt) : (s.modCore c f).sinks = s.sinks := rfl
@[simp] theorem State.modCore_eps (s : State) (c : Nat) (f : CoreSt → CoreSt) : (s.modCore c f).eps = s.eps := rfl
@[simp] theorem State.modCore_staging (s : State) (c : Nat) (f : CoreSt → CoreSt) : (s.modCore c f).staging = s.staging := rfl
@[simp] theorem State.modCore_stgEcc (s : State) (c : Nat) (f : CoreSt → CoreSt) : (s.modCore c f).stgEcc = s.stgEcc := rfl
@[simp] theorem State.modCore_regions (s : State) (c : Nat) (f : CoreSt → CoreSt) : (s.modCore c f).regions = s.regions := rfl
@[simp] theorem State.modCore_coll (s : State) (c : Nat) (f : CoreSt → CoreSt) : (s.modCore c f).coll = s.coll := rfl
@[simp] theorem State.modCore_reporter (s : State) (c : Nat) (f : CoreSt → CoreSt) : (s.modCore c f).reporter = s.reporter := rfl
@[simp] theorem State.modCore_imgA (s : State) (c : Nat) (f : CoreSt → CoreSt) : (s.modCore c f).imgA = s.imgA := rfl
@[simp] theorem State.modCore_imgB (s : State) (c : Nat) (f : CoreSt → CoreSt) : (s.modCore c f).imgB = s.imgB := rfl
@[simp] theorem State.modCore_loader (s : State) (c : Nat) (f : CoreSt → CoreSt) : (s.modCore c f).loader = s.loader := rfl
@[simp] theorem State.modCore_defPend (s : State) (c : Nat) (f : CoreSt → CoreSt) : (s.modCore c f).defPend = s.defPend := rfl
@[simp] theorem State.modCore_unloadB (s : State) (c : Nat) (f : CoreSt → CoreSt) : (s.modCore c f).unloadB = s.unloadB := rfl
@[simp] theorem State.modCore_winOpen (s : State) (c : Nat) (f : CoreSt → CoreSt) : (s.modCore c f).winOpen = s.winOpen := rfl
@[simp] theorem State.modCore_fabApplied (s : State) (c : Nat) (f : CoreSt → CoreSt) : (s.modCore c f).fabApplied = s.fabApplied := rfl
@[simp] theorem State.modCore_logical (s : State) (c : Nat) (f : CoreSt → CoreSt) : (s.modCore c f).logical = s.logical := rfl
@[simp] theorem State.modCore_mem (s : State) (c : Nat) (f : CoreSt → CoreSt) : (s.modCore c f).mem = s.mem := rfl
@[simp] theorem State.modCore_memEcc (s : State) (c : Nat) (f : CoreSt → CoreSt) : (s.modCore c f).memEcc = s.memEcc := rfl
@[simp] theorem State.modCore_stks (s : State) (c : Nat) (f : CoreSt → CoreSt) : (s.modCore c f).stks = s.stks := rfl
@[simp] theorem State.modCore_hring (s : State) (c : Nat) (f : CoreSt → CoreSt) : (s.modCore c f).hring = s.hring := rfl
@[simp] theorem State.modCore_pages (s : State) (c : Nat) (f : CoreSt → CoreSt) : (s.modCore c f).pages = s.pages := rfl
@[simp] theorem State.modCore_xbufs (s : State) (c : Nat) (f : CoreSt → CoreSt) : (s.modCore c f).xbufs = s.xbufs := rfl
@[simp] theorem State.modCore_invBusy (s : State) (c : Nat) (f : CoreSt → CoreSt) : (s.modCore c f).invBusy = s.invBusy := rfl
@[simp] theorem State.modCore_dma (s : State) (c : Nat) (f : CoreSt → CoreSt) : (s.modCore c f).dma = s.dma := rfl
@[simp] theorem State.modCore_second (s : State) (c : Nat) (f : CoreSt → CoreSt) : (s.modCore c f).second = s.second := rfl
@[simp] theorem State.modCore_fab (s : State) (c : Nat) (f : CoreSt → CoreSt) : (s.modCore c f).fab = s.fab := rfl
@[simp] theorem State.modCore_ports (s : State) (c : Nat) (f : CoreSt → CoreSt) : (s.modCore c f).ports = s.ports := rfl
@[simp] theorem State.modCore_chans (s : State) (c : Nat) (f : CoreSt → CoreSt) : (s.modCore c f).chans = s.chans := rfl
@[simp] theorem State.modCore_cals (s : State) (c : Nat) (f : CoreSt → CoreSt) : (s.modCore c f).cals = s.cals := rfl
@[simp] theorem State.modCore_rem (s : State) (c : Nat) (f : CoreSt → CoreSt) : (s.modCore c f).rem = s.rem := rfl
@[simp] theorem State.modCore_colls (s : State) (c : Nat) (f : CoreSt → CoreSt) : (s.modCore c f).colls = s.colls := rfl
@[simp] theorem State.modCore_mule (s : State) (c : Nat) (f : CoreSt → CoreSt) : (s.modCore c f).mule = s.mule := rfl
@[simp] theorem State.modCore_bwt (s : State) (c : Nat) (f : CoreSt → CoreSt) : (s.modCore c f).bwt = s.bwt := rfl
@[simp] theorem State.modCore_sav (s : State) (c : Nat) (f : CoreSt → CoreSt) : (s.modCore c f).sav = s.sav := rfl
@[simp] theorem State.modCore_drives (s : State) (c : Nat) (f : CoreSt → CoreSt) : (s.modCore c f).drives = s.drives := rfl
@[simp] theorem State.modCore_pwr (s : State) (c : Nat) (f : CoreSt → CoreSt) : (s.modCore c f).pwr = s.pwr := rfl
@[simp] theorem State.modCore_host (s : State) (c : Nat) (f : CoreSt → CoreSt) : (s.modCore c f).host = s.host := rfl
@[simp] theorem State.modCore_mgt (s : State) (c : Nat) (f : CoreSt → CoreSt) : (s.modCore c f).mgt = s.mgt := rfl
@[simp] theorem State.modCore_sd (s : State) (c : Nat) (f : CoreSt → CoreSt) : (s.modCore c f).sd = s.sd := rfl
@[simp] theorem State.modCore_fresh (s : State) (c : Nat) (f : CoreSt → CoreSt) : (s.modCore c f).fresh = s.fresh := rfl
@[simp] theorem State.modCore_out (s : State) (c : Nat) (f : CoreSt → CoreSt) : (s.modCore c f).out = s.out := rfl

/-! ### `State.setStk` -/

@[simp] theorem State.setStk_pending (s : State) (d : Nat) (x : StackSt) : (s.setStk d x).pending = s.pending := rfl
@[simp] theorem State.setStk_reg (s : State) (d : Nat) (x : StackSt) : (s.setStk d x).reg = s.reg := rfl
@[simp] theorem State.setStk_bar4 (s : State) (d : Nat) (x : StackSt) : (s.setStk d x).bar4 = s.bar4 := rfl
@[simp] theorem State.setStk_latches (s : State) (d : Nat) (x : StackSt) : (s.setStk d x).latches = s.latches := rfl
@[simp] theorem State.setStk_heldLo (s : State) (d : Nat) (x : StackSt) : (s.setStk d x).heldLo = s.heldLo := rfl
@[simp] theorem State.setStk_fuses (s : State) (d : Nat) (x : StackSt) : (s.setStk d x).fuses = s.fuses := rfl
@[simp] theorem State.setStk_cores (s : State) (d : Nat) (x : StackSt) : (s.setStk d x).cores = s.cores := rfl
@[simp] theorem State.setStk_routes (s : State) (d : Nat) (x : StackSt) : (s.setStk d x).routes = s.routes := rfl
@[simp] theorem State.setStk_sinks (s : State) (d : Nat) (x : StackSt) : (s.setStk d x).sinks = s.sinks := rfl
@[simp] theorem State.setStk_eps (s : State) (d : Nat) (x : StackSt) : (s.setStk d x).eps = s.eps := rfl
@[simp] theorem State.setStk_staging (s : State) (d : Nat) (x : StackSt) : (s.setStk d x).staging = s.staging := rfl
@[simp] theorem State.setStk_stgEcc (s : State) (d : Nat) (x : StackSt) : (s.setStk d x).stgEcc = s.stgEcc := rfl
@[simp] theorem State.setStk_regions (s : State) (d : Nat) (x : StackSt) : (s.setStk d x).regions = s.regions := rfl
@[simp] theorem State.setStk_coll (s : State) (d : Nat) (x : StackSt) : (s.setStk d x).coll = s.coll := rfl
@[simp] theorem State.setStk_reporter (s : State) (d : Nat) (x : StackSt) : (s.setStk d x).reporter = s.reporter := rfl
@[simp] theorem State.setStk_imgA (s : State) (d : Nat) (x : StackSt) : (s.setStk d x).imgA = s.imgA := rfl
@[simp] theorem State.setStk_imgB (s : State) (d : Nat) (x : StackSt) : (s.setStk d x).imgB = s.imgB := rfl
@[simp] theorem State.setStk_loader (s : State) (d : Nat) (x : StackSt) : (s.setStk d x).loader = s.loader := rfl
@[simp] theorem State.setStk_defPend (s : State) (d : Nat) (x : StackSt) : (s.setStk d x).defPend = s.defPend := rfl
@[simp] theorem State.setStk_unloadB (s : State) (d : Nat) (x : StackSt) : (s.setStk d x).unloadB = s.unloadB := rfl
@[simp] theorem State.setStk_winOpen (s : State) (d : Nat) (x : StackSt) : (s.setStk d x).winOpen = s.winOpen := rfl
@[simp] theorem State.setStk_fabApplied (s : State) (d : Nat) (x : StackSt) : (s.setStk d x).fabApplied = s.fabApplied := rfl
@[simp] theorem State.setStk_logical (s : State) (d : Nat) (x : StackSt) : (s.setStk d x).logical = s.logical := rfl
@[simp] theorem State.setStk_mem (s : State) (d : Nat) (x : StackSt) : (s.setStk d x).mem = s.mem := rfl
@[simp] theorem State.setStk_memEcc (s : State) (d : Nat) (x : StackSt) : (s.setStk d x).memEcc = s.memEcc := rfl
@[simp] theorem State.setStk_hring (s : State) (d : Nat) (x : StackSt) : (s.setStk d x).hring = s.hring := rfl
@[simp] theorem State.setStk_pages (s : State) (d : Nat) (x : StackSt) : (s.setStk d x).pages = s.pages := rfl
@[simp] theorem State.setStk_xbufs (s : State) (d : Nat) (x : StackSt) : (s.setStk d x).xbufs = s.xbufs := rfl
@[simp] theorem State.setStk_invBusy (s : State) (d : Nat) (x : StackSt) : (s.setStk d x).invBusy = s.invBusy := rfl
@[simp] theorem State.setStk_dma (s : State) (d : Nat) (x : StackSt) : (s.setStk d x).dma = s.dma := rfl
@[simp] theorem State.setStk_second (s : State) (d : Nat) (x : StackSt) : (s.setStk d x).second = s.second := rfl
@[simp] theorem State.setStk_fab (s : State) (d : Nat) (x : StackSt) : (s.setStk d x).fab = s.fab := rfl
@[simp] theorem State.setStk_ports (s : State) (d : Nat) (x : StackSt) : (s.setStk d x).ports = s.ports := rfl
@[simp] theorem State.setStk_chans (s : State) (d : Nat) (x : StackSt) : (s.setStk d x).chans = s.chans := rfl
@[simp] theorem State.setStk_cals (s : State) (d : Nat) (x : StackSt) : (s.setStk d x).cals = s.cals := rfl
@[simp] theorem State.setStk_rem (s : State) (d : Nat) (x : StackSt) : (s.setStk d x).rem = s.rem := rfl
@[simp] theorem State.setStk_colls (s : State) (d : Nat) (x : StackSt) : (s.setStk d x).colls = s.colls := rfl
@[simp] theorem State.setStk_mule (s : State) (d : Nat) (x : StackSt) : (s.setStk d x).mule = s.mule := rfl
@[simp] theorem State.setStk_bwt (s : State) (d : Nat) (x : StackSt) : (s.setStk d x).bwt = s.bwt := rfl
@[simp] theorem State.setStk_sav (s : State) (d : Nat) (x : StackSt) : (s.setStk d x).sav = s.sav := rfl
@[simp] theorem State.setStk_drives (s : State) (d : Nat) (x : StackSt) : (s.setStk d x).drives = s.drives := rfl
@[simp] theorem State.setStk_pwr (s : State) (d : Nat) (x : StackSt) : (s.setStk d x).pwr = s.pwr := rfl
@[simp] theorem State.setStk_host (s : State) (d : Nat) (x : StackSt) : (s.setStk d x).host = s.host := rfl
@[simp] theorem State.setStk_mgt (s : State) (d : Nat) (x : StackSt) : (s.setStk d x).mgt = s.mgt := rfl
@[simp] theorem State.setStk_sd (s : State) (d : Nat) (x : StackSt) : (s.setStk d x).sd = s.sd := rfl
@[simp] theorem State.setStk_fresh (s : State) (d : Nat) (x : StackSt) : (s.setStk d x).fresh = s.fresh := rfl
@[simp] theorem State.setStk_out (s : State) (d : Nat) (x : StackSt) : (s.setStk d x).out = s.out := rfl

/-! ### `State.setPort` -/

@[simp] theorem State.setPort_pending (s : State) (p : Nat) (x : FabPort) : (s.setPort p x).pending = s.pending := rfl
@[simp] theorem State.setPort_reg (s : State) (p : Nat) (x : FabPort) : (s.setPort p x).reg = s.reg := rfl
@[simp] theorem State.setPort_bar4 (s : State) (p : Nat) (x : FabPort) : (s.setPort p x).bar4 = s.bar4 := rfl
@[simp] theorem State.setPort_latches (s : State) (p : Nat) (x : FabPort) : (s.setPort p x).latches = s.latches := rfl
@[simp] theorem State.setPort_heldLo (s : State) (p : Nat) (x : FabPort) : (s.setPort p x).heldLo = s.heldLo := rfl
@[simp] theorem State.setPort_fuses (s : State) (p : Nat) (x : FabPort) : (s.setPort p x).fuses = s.fuses := rfl
@[simp] theorem State.setPort_cores (s : State) (p : Nat) (x : FabPort) : (s.setPort p x).cores = s.cores := rfl
@[simp] theorem State.setPort_routes (s : State) (p : Nat) (x : FabPort) : (s.setPort p x).routes = s.routes := rfl
@[simp] theorem State.setPort_sinks (s : State) (p : Nat) (x : FabPort) : (s.setPort p x).sinks = s.sinks := rfl
@[simp] theorem State.setPort_eps (s : State) (p : Nat) (x : FabPort) : (s.setPort p x).eps = s.eps := rfl
@[simp] theorem State.setPort_staging (s : State) (p : Nat) (x : FabPort) : (s.setPort p x).staging = s.staging := rfl
@[simp] theorem State.setPort_stgEcc (s : State) (p : Nat) (x : FabPort) : (s.setPort p x).stgEcc = s.stgEcc := rfl
@[simp] theorem State.setPort_regions (s : State) (p : Nat) (x : FabPort) : (s.setPort p x).regions = s.regions := rfl
@[simp] theorem State.setPort_coll (s : State) (p : Nat) (x : FabPort) : (s.setPort p x).coll = s.coll := rfl
@[simp] theorem State.setPort_reporter (s : State) (p : Nat) (x : FabPort) : (s.setPort p x).reporter = s.reporter := rfl
@[simp] theorem State.setPort_imgA (s : State) (p : Nat) (x : FabPort) : (s.setPort p x).imgA = s.imgA := rfl
@[simp] theorem State.setPort_imgB (s : State) (p : Nat) (x : FabPort) : (s.setPort p x).imgB = s.imgB := rfl
@[simp] theorem State.setPort_loader (s : State) (p : Nat) (x : FabPort) : (s.setPort p x).loader = s.loader := rfl
@[simp] theorem State.setPort_defPend (s : State) (p : Nat) (x : FabPort) : (s.setPort p x).defPend = s.defPend := rfl
@[simp] theorem State.setPort_unloadB (s : State) (p : Nat) (x : FabPort) : (s.setPort p x).unloadB = s.unloadB := rfl
@[simp] theorem State.setPort_winOpen (s : State) (p : Nat) (x : FabPort) : (s.setPort p x).winOpen = s.winOpen := rfl
@[simp] theorem State.setPort_fabApplied (s : State) (p : Nat) (x : FabPort) : (s.setPort p x).fabApplied = s.fabApplied := rfl
@[simp] theorem State.setPort_logical (s : State) (p : Nat) (x : FabPort) : (s.setPort p x).logical = s.logical := rfl
@[simp] theorem State.setPort_mem (s : State) (p : Nat) (x : FabPort) : (s.setPort p x).mem = s.mem := rfl
@[simp] theorem State.setPort_memEcc (s : State) (p : Nat) (x : FabPort) : (s.setPort p x).memEcc = s.memEcc := rfl
@[simp] theorem State.setPort_stks (s : State) (p : Nat) (x : FabPort) : (s.setPort p x).stks = s.stks := rfl
@[simp] theorem State.setPort_hring (s : State) (p : Nat) (x : FabPort) : (s.setPort p x).hring = s.hring := rfl
@[simp] theorem State.setPort_pages (s : State) (p : Nat) (x : FabPort) : (s.setPort p x).pages = s.pages := rfl
@[simp] theorem State.setPort_xbufs (s : State) (p : Nat) (x : FabPort) : (s.setPort p x).xbufs = s.xbufs := rfl
@[simp] theorem State.setPort_invBusy (s : State) (p : Nat) (x : FabPort) : (s.setPort p x).invBusy = s.invBusy := rfl
@[simp] theorem State.setPort_dma (s : State) (p : Nat) (x : FabPort) : (s.setPort p x).dma = s.dma := rfl
@[simp] theorem State.setPort_second (s : State) (p : Nat) (x : FabPort) : (s.setPort p x).second = s.second := rfl
@[simp] theorem State.setPort_fab (s : State) (p : Nat) (x : FabPort) : (s.setPort p x).fab = s.fab := rfl
@[simp] theorem State.setPort_chans (s : State) (p : Nat) (x : FabPort) : (s.setPort p x).chans = s.chans := rfl
@[simp] theorem State.setPort_cals (s : State) (p : Nat) (x : FabPort) : (s.setPort p x).cals = s.cals := rfl
@[simp] theorem State.setPort_rem (s : State) (p : Nat) (x : FabPort) : (s.setPort p x).rem = s.rem := rfl
@[simp] theorem State.setPort_colls (s : State) (p : Nat) (x : FabPort) : (s.setPort p x).colls = s.colls := rfl
@[simp] theorem State.setPort_mule (s : State) (p : Nat) (x : FabPort) : (s.setPort p x).mule = s.mule := rfl
@[simp] theorem State.setPort_bwt (s : State) (p : Nat) (x : FabPort) : (s.setPort p x).bwt = s.bwt := rfl
@[simp] theorem State.setPort_sav (s : State) (p : Nat) (x : FabPort) : (s.setPort p x).sav = s.sav := rfl
@[simp] theorem State.setPort_drives (s : State) (p : Nat) (x : FabPort) : (s.setPort p x).drives = s.drives := rfl
@[simp] theorem State.setPort_pwr (s : State) (p : Nat) (x : FabPort) : (s.setPort p x).pwr = s.pwr := rfl
@[simp] theorem State.setPort_host (s : State) (p : Nat) (x : FabPort) : (s.setPort p x).host = s.host := rfl
@[simp] theorem State.setPort_mgt (s : State) (p : Nat) (x : FabPort) : (s.setPort p x).mgt = s.mgt := rfl
@[simp] theorem State.setPort_sd (s : State) (p : Nat) (x : FabPort) : (s.setPort p x).sd = s.sd := rfl
@[simp] theorem State.setPort_fresh (s : State) (p : Nat) (x : FabPort) : (s.setPort p x).fresh = s.fresh := rfl
@[simp] theorem State.setPort_out (s : State) (p : Nat) (x : FabPort) : (s.setPort p x).out = s.out := rfl

/-! ### `State.setCal` -/

@[simp] theorem State.setCal_pending (s : State) (n : Nat) (x : CalSt) : (s.setCal n x).pending = s.pending := rfl
@[simp] theorem State.setCal_reg (s : State) (n : Nat) (x : CalSt) : (s.setCal n x).reg = s.reg := rfl
@[simp] theorem State.setCal_bar4 (s : State) (n : Nat) (x : CalSt) : (s.setCal n x).bar4 = s.bar4 := rfl
@[simp] theorem State.setCal_latches (s : State) (n : Nat) (x : CalSt) : (s.setCal n x).latches = s.latches := rfl
@[simp] theorem State.setCal_heldLo (s : State) (n : Nat) (x : CalSt) : (s.setCal n x).heldLo = s.heldLo := rfl
@[simp] theorem State.setCal_fuses (s : State) (n : Nat) (x : CalSt) : (s.setCal n x).fuses = s.fuses := rfl
@[simp] theorem State.setCal_cores (s : State) (n : Nat) (x : CalSt) : (s.setCal n x).cores = s.cores := rfl
@[simp] theorem State.setCal_routes (s : State) (n : Nat) (x : CalSt) : (s.setCal n x).routes = s.routes := rfl
@[simp] theorem State.setCal_sinks (s : State) (n : Nat) (x : CalSt) : (s.setCal n x).sinks = s.sinks := rfl
@[simp] theorem State.setCal_eps (s : State) (n : Nat) (x : CalSt) : (s.setCal n x).eps = s.eps := rfl
@[simp] theorem State.setCal_staging (s : State) (n : Nat) (x : CalSt) : (s.setCal n x).staging = s.staging := rfl
@[simp] theorem State.setCal_stgEcc (s : State) (n : Nat) (x : CalSt) : (s.setCal n x).stgEcc = s.stgEcc := rfl
@[simp] theorem State.setCal_regions (s : State) (n : Nat) (x : CalSt) : (s.setCal n x).regions = s.regions := rfl
@[simp] theorem State.setCal_coll (s : State) (n : Nat) (x : CalSt) : (s.setCal n x).coll = s.coll := rfl
@[simp] theorem State.setCal_reporter (s : State) (n : Nat) (x : CalSt) : (s.setCal n x).reporter = s.reporter := rfl
@[simp] theorem State.setCal_imgA (s : State) (n : Nat) (x : CalSt) : (s.setCal n x).imgA = s.imgA := rfl
@[simp] theorem State.setCal_imgB (s : State) (n : Nat) (x : CalSt) : (s.setCal n x).imgB = s.imgB := rfl
@[simp] theorem State.setCal_loader (s : State) (n : Nat) (x : CalSt) : (s.setCal n x).loader = s.loader := rfl
@[simp] theorem State.setCal_defPend (s : State) (n : Nat) (x : CalSt) : (s.setCal n x).defPend = s.defPend := rfl
@[simp] theorem State.setCal_unloadB (s : State) (n : Nat) (x : CalSt) : (s.setCal n x).unloadB = s.unloadB := rfl
@[simp] theorem State.setCal_winOpen (s : State) (n : Nat) (x : CalSt) : (s.setCal n x).winOpen = s.winOpen := rfl
@[simp] theorem State.setCal_fabApplied (s : State) (n : Nat) (x : CalSt) : (s.setCal n x).fabApplied = s.fabApplied := rfl
@[simp] theorem State.setCal_logical (s : State) (n : Nat) (x : CalSt) : (s.setCal n x).logical = s.logical := rfl
@[simp] theorem State.setCal_mem (s : State) (n : Nat) (x : CalSt) : (s.setCal n x).mem = s.mem := rfl
@[simp] theorem State.setCal_memEcc (s : State) (n : Nat) (x : CalSt) : (s.setCal n x).memEcc = s.memEcc := rfl
@[simp] theorem State.setCal_stks (s : State) (n : Nat) (x : CalSt) : (s.setCal n x).stks = s.stks := rfl
@[simp] theorem State.setCal_hring (s : State) (n : Nat) (x : CalSt) : (s.setCal n x).hring = s.hring := rfl
@[simp] theorem State.setCal_pages (s : State) (n : Nat) (x : CalSt) : (s.setCal n x).pages = s.pages := rfl
@[simp] theorem State.setCal_xbufs (s : State) (n : Nat) (x : CalSt) : (s.setCal n x).xbufs = s.xbufs := rfl
@[simp] theorem State.setCal_invBusy (s : State) (n : Nat) (x : CalSt) : (s.setCal n x).invBusy = s.invBusy := rfl
@[simp] theorem State.setCal_dma (s : State) (n : Nat) (x : CalSt) : (s.setCal n x).dma = s.dma := rfl
@[simp] theorem State.setCal_second (s : State) (n : Nat) (x : CalSt) : (s.setCal n x).second = s.second := rfl
@[simp] theorem State.setCal_fab (s : State) (n : Nat) (x : CalSt) : (s.setCal n x).fab = s.fab := rfl
@[simp] theorem State.setCal_ports (s : State) (n : Nat) (x : CalSt) : (s.setCal n x).ports = s.ports := rfl
@[simp] theorem State.setCal_chans (s : State) (n : Nat) (x : CalSt) : (s.setCal n x).chans = s.chans := rfl
@[simp] theorem State.setCal_rem (s : State) (n : Nat) (x : CalSt) : (s.setCal n x).rem = s.rem := rfl
@[simp] theorem State.setCal_colls (s : State) (n : Nat) (x : CalSt) : (s.setCal n x).colls = s.colls := rfl
@[simp] theorem State.setCal_mule (s : State) (n : Nat) (x : CalSt) : (s.setCal n x).mule = s.mule := rfl
@[simp] theorem State.setCal_bwt (s : State) (n : Nat) (x : CalSt) : (s.setCal n x).bwt = s.bwt := rfl
@[simp] theorem State.setCal_sav (s : State) (n : Nat) (x : CalSt) : (s.setCal n x).sav = s.sav := rfl
@[simp] theorem State.setCal_drives (s : State) (n : Nat) (x : CalSt) : (s.setCal n x).drives = s.drives := rfl
@[simp] theorem State.setCal_pwr (s : State) (n : Nat) (x : CalSt) : (s.setCal n x).pwr = s.pwr := rfl
@[simp] theorem State.setCal_host (s : State) (n : Nat) (x : CalSt) : (s.setCal n x).host = s.host := rfl
@[simp] theorem State.setCal_mgt (s : State) (n : Nat) (x : CalSt) : (s.setCal n x).mgt = s.mgt := rfl
@[simp] theorem State.setCal_sd (s : State) (n : Nat) (x : CalSt) : (s.setCal n x).sd = s.sd := rfl
@[simp] theorem State.setCal_fresh (s : State) (n : Nat) (x : CalSt) : (s.setCal n x).fresh = s.fresh := rfl
@[simp] theorem State.setCal_out (s : State) (n : Nat) (x : CalSt) : (s.setCal n x).out = s.out := rfl

/-! ### `State.setChan` -/

@[simp] theorem State.setChan_pending (s : State) (n : Nat) (x : DmaCh) : (s.setChan n x).pending = s.pending := rfl
@[simp] theorem State.setChan_reg (s : State) (n : Nat) (x : DmaCh) : (s.setChan n x).reg = s.reg := rfl
@[simp] theorem State.setChan_bar4 (s : State) (n : Nat) (x : DmaCh) : (s.setChan n x).bar4 = s.bar4 := rfl
@[simp] theorem State.setChan_latches (s : State) (n : Nat) (x : DmaCh) : (s.setChan n x).latches = s.latches := rfl
@[simp] theorem State.setChan_heldLo (s : State) (n : Nat) (x : DmaCh) : (s.setChan n x).heldLo = s.heldLo := rfl
@[simp] theorem State.setChan_fuses (s : State) (n : Nat) (x : DmaCh) : (s.setChan n x).fuses = s.fuses := rfl
@[simp] theorem State.setChan_cores (s : State) (n : Nat) (x : DmaCh) : (s.setChan n x).cores = s.cores := rfl
@[simp] theorem State.setChan_routes (s : State) (n : Nat) (x : DmaCh) : (s.setChan n x).routes = s.routes := rfl
@[simp] theorem State.setChan_sinks (s : State) (n : Nat) (x : DmaCh) : (s.setChan n x).sinks = s.sinks := rfl
@[simp] theorem State.setChan_eps (s : State) (n : Nat) (x : DmaCh) : (s.setChan n x).eps = s.eps := rfl
@[simp] theorem State.setChan_staging (s : State) (n : Nat) (x : DmaCh) : (s.setChan n x).staging = s.staging := rfl
@[simp] theorem State.setChan_stgEcc (s : State) (n : Nat) (x : DmaCh) : (s.setChan n x).stgEcc = s.stgEcc := rfl
@[simp] theorem State.setChan_regions (s : State) (n : Nat) (x : DmaCh) : (s.setChan n x).regions = s.regions := rfl
@[simp] theorem State.setChan_coll (s : State) (n : Nat) (x : DmaCh) : (s.setChan n x).coll = s.coll := rfl
@[simp] theorem State.setChan_reporter (s : State) (n : Nat) (x : DmaCh) : (s.setChan n x).reporter = s.reporter := rfl
@[simp] theorem State.setChan_imgA (s : State) (n : Nat) (x : DmaCh) : (s.setChan n x).imgA = s.imgA := rfl
@[simp] theorem State.setChan_imgB (s : State) (n : Nat) (x : DmaCh) : (s.setChan n x).imgB = s.imgB := rfl
@[simp] theorem State.setChan_loader (s : State) (n : Nat) (x : DmaCh) : (s.setChan n x).loader = s.loader := rfl
@[simp] theorem State.setChan_defPend (s : State) (n : Nat) (x : DmaCh) : (s.setChan n x).defPend = s.defPend := rfl
@[simp] theorem State.setChan_unloadB (s : State) (n : Nat) (x : DmaCh) : (s.setChan n x).unloadB = s.unloadB := rfl
@[simp] theorem State.setChan_winOpen (s : State) (n : Nat) (x : DmaCh) : (s.setChan n x).winOpen = s.winOpen := rfl
@[simp] theorem State.setChan_fabApplied (s : State) (n : Nat) (x : DmaCh) : (s.setChan n x).fabApplied = s.fabApplied := rfl
@[simp] theorem State.setChan_logical (s : State) (n : Nat) (x : DmaCh) : (s.setChan n x).logical = s.logical := rfl
@[simp] theorem State.setChan_mem (s : State) (n : Nat) (x : DmaCh) : (s.setChan n x).mem = s.mem := rfl
@[simp] theorem State.setChan_memEcc (s : State) (n : Nat) (x : DmaCh) : (s.setChan n x).memEcc = s.memEcc := rfl
@[simp] theorem State.setChan_stks (s : State) (n : Nat) (x : DmaCh) : (s.setChan n x).stks = s.stks := rfl
@[simp] theorem State.setChan_hring (s : State) (n : Nat) (x : DmaCh) : (s.setChan n x).hring = s.hring := rfl
@[simp] theorem State.setChan_pages (s : State) (n : Nat) (x : DmaCh) : (s.setChan n x).pages = s.pages := rfl
@[simp] theorem State.setChan_xbufs (s : State) (n : Nat) (x : DmaCh) : (s.setChan n x).xbufs = s.xbufs := rfl
@[simp] theorem State.setChan_invBusy (s : State) (n : Nat) (x : DmaCh) : (s.setChan n x).invBusy = s.invBusy := rfl
@[simp] theorem State.setChan_second (s : State) (n : Nat) (x : DmaCh) : (s.setChan n x).second = s.second := rfl
@[simp] theorem State.setChan_fab (s : State) (n : Nat) (x : DmaCh) : (s.setChan n x).fab = s.fab := rfl
@[simp] theorem State.setChan_ports (s : State) (n : Nat) (x : DmaCh) : (s.setChan n x).ports = s.ports := rfl
@[simp] theorem State.setChan_chans (s : State) (n : Nat) (x : DmaCh) : (s.setChan n x).chans = s.chans := rfl
@[simp] theorem State.setChan_cals (s : State) (n : Nat) (x : DmaCh) : (s.setChan n x).cals = s.cals := rfl
@[simp] theorem State.setChan_rem (s : State) (n : Nat) (x : DmaCh) : (s.setChan n x).rem = s.rem := rfl
@[simp] theorem State.setChan_colls (s : State) (n : Nat) (x : DmaCh) : (s.setChan n x).colls = s.colls := rfl
@[simp] theorem State.setChan_mule (s : State) (n : Nat) (x : DmaCh) : (s.setChan n x).mule = s.mule := rfl
@[simp] theorem State.setChan_bwt (s : State) (n : Nat) (x : DmaCh) : (s.setChan n x).bwt = s.bwt := rfl
@[simp] theorem State.setChan_sav (s : State) (n : Nat) (x : DmaCh) : (s.setChan n x).sav = s.sav := rfl
@[simp] theorem State.setChan_drives (s : State) (n : Nat) (x : DmaCh) : (s.setChan n x).drives = s.drives := rfl
@[simp] theorem State.setChan_pwr (s : State) (n : Nat) (x : DmaCh) : (s.setChan n x).pwr = s.pwr := rfl
@[simp] theorem State.setChan_host (s : State) (n : Nat) (x : DmaCh) : (s.setChan n x).host = s.host := rfl
@[simp] theorem State.setChan_mgt (s : State) (n : Nat) (x : DmaCh) : (s.setChan n x).mgt = s.mgt := rfl
@[simp] theorem State.setChan_sd (s : State) (n : Nat) (x : DmaCh) : (s.setChan n x).sd = s.sd := rfl
@[simp] theorem State.setChan_fresh (s : State) (n : Nat) (x : DmaCh) : (s.setChan n x).fresh = s.fresh := rfl
@[simp] theorem State.setChan_out (s : State) (n : Nat) (x : DmaCh) : (s.setChan n x).out = s.out := rfl

/-! ### `State.setDrive` -/

@[simp] theorem State.setDrive_pending (s : State) (n : Nat) (x : DriveSt) : (s.setDrive n x).pending = s.pending := rfl
@[simp] theorem State.setDrive_reg (s : State) (n : Nat) (x : DriveSt) : (s.setDrive n x).reg = s.reg := rfl
@[simp] theorem State.setDrive_bar4 (s : State) (n : Nat) (x : DriveSt) : (s.setDrive n x).bar4 = s.bar4 := rfl
@[simp] theorem State.setDrive_latches (s : State) (n : Nat) (x : DriveSt) : (s.setDrive n x).latches = s.latches := rfl
@[simp] theorem State.setDrive_heldLo (s : State) (n : Nat) (x : DriveSt) : (s.setDrive n x).heldLo = s.heldLo := rfl
@[simp] theorem State.setDrive_fuses (s : State) (n : Nat) (x : DriveSt) : (s.setDrive n x).fuses = s.fuses := rfl
@[simp] theorem State.setDrive_cores (s : State) (n : Nat) (x : DriveSt) : (s.setDrive n x).cores = s.cores := rfl
@[simp] theorem State.setDrive_routes (s : State) (n : Nat) (x : DriveSt) : (s.setDrive n x).routes = s.routes := rfl
@[simp] theorem State.setDrive_sinks (s : State) (n : Nat) (x : DriveSt) : (s.setDrive n x).sinks = s.sinks := rfl
@[simp] theorem State.setDrive_eps (s : State) (n : Nat) (x : DriveSt) : (s.setDrive n x).eps = s.eps := rfl
@[simp] theorem State.setDrive_staging (s : State) (n : Nat) (x : DriveSt) : (s.setDrive n x).staging = s.staging := rfl
@[simp] theorem State.setDrive_stgEcc (s : State) (n : Nat) (x : DriveSt) : (s.setDrive n x).stgEcc = s.stgEcc := rfl
@[simp] theorem State.setDrive_regions (s : State) (n : Nat) (x : DriveSt) : (s.setDrive n x).regions = s.regions := rfl
@[simp] theorem State.setDrive_coll (s : State) (n : Nat) (x : DriveSt) : (s.setDrive n x).coll = s.coll := rfl
@[simp] theorem State.setDrive_reporter (s : State) (n : Nat) (x : DriveSt) : (s.setDrive n x).reporter = s.reporter := rfl
@[simp] theorem State.setDrive_imgA (s : State) (n : Nat) (x : DriveSt) : (s.setDrive n x).imgA = s.imgA := rfl
@[simp] theorem State.setDrive_imgB (s : State) (n : Nat) (x : DriveSt) : (s.setDrive n x).imgB = s.imgB := rfl
@[simp] theorem State.setDrive_loader (s : State) (n : Nat) (x : DriveSt) : (s.setDrive n x).loader = s.loader := rfl
@[simp] theorem State.setDrive_defPend (s : State) (n : Nat) (x : DriveSt) : (s.setDrive n x).defPend = s.defPend := rfl
@[simp] theorem State.setDrive_unloadB (s : State) (n : Nat) (x : DriveSt) : (s.setDrive n x).unloadB = s.unloadB := rfl
@[simp] theorem State.setDrive_winOpen (s : State) (n : Nat) (x : DriveSt) : (s.setDrive n x).winOpen = s.winOpen := rfl
@[simp] theorem State.setDrive_fabApplied (s : State) (n : Nat) (x : DriveSt) : (s.setDrive n x).fabApplied = s.fabApplied := rfl
@[simp] theorem State.setDrive_logical (s : State) (n : Nat) (x : DriveSt) : (s.setDrive n x).logical = s.logical := rfl
@[simp] theorem State.setDrive_mem (s : State) (n : Nat) (x : DriveSt) : (s.setDrive n x).mem = s.mem := rfl
@[simp] theorem State.setDrive_memEcc (s : State) (n : Nat) (x : DriveSt) : (s.setDrive n x).memEcc = s.memEcc := rfl
@[simp] theorem State.setDrive_stks (s : State) (n : Nat) (x : DriveSt) : (s.setDrive n x).stks = s.stks := rfl
@[simp] theorem State.setDrive_hring (s : State) (n : Nat) (x : DriveSt) : (s.setDrive n x).hring = s.hring := rfl
@[simp] theorem State.setDrive_pages (s : State) (n : Nat) (x : DriveSt) : (s.setDrive n x).pages = s.pages := rfl
@[simp] theorem State.setDrive_xbufs (s : State) (n : Nat) (x : DriveSt) : (s.setDrive n x).xbufs = s.xbufs := rfl
@[simp] theorem State.setDrive_invBusy (s : State) (n : Nat) (x : DriveSt) : (s.setDrive n x).invBusy = s.invBusy := rfl
@[simp] theorem State.setDrive_dma (s : State) (n : Nat) (x : DriveSt) : (s.setDrive n x).dma = s.dma := rfl
@[simp] theorem State.setDrive_second (s : State) (n : Nat) (x : DriveSt) : (s.setDrive n x).second = s.second := rfl
@[simp] theorem State.setDrive_fab (s : State) (n : Nat) (x : DriveSt) : (s.setDrive n x).fab = s.fab := rfl
@[simp] theorem State.setDrive_ports (s : State) (n : Nat) (x : DriveSt) : (s.setDrive n x).ports = s.ports := rfl
@[simp] theorem State.setDrive_chans (s : State) (n : Nat) (x : DriveSt) : (s.setDrive n x).chans = s.chans := rfl
@[simp] theorem State.setDrive_cals (s : State) (n : Nat) (x : DriveSt) : (s.setDrive n x).cals = s.cals := rfl
@[simp] theorem State.setDrive_rem (s : State) (n : Nat) (x : DriveSt) : (s.setDrive n x).rem = s.rem := rfl
@[simp] theorem State.setDrive_colls (s : State) (n : Nat) (x : DriveSt) : (s.setDrive n x).colls = s.colls := rfl
@[simp] theorem State.setDrive_mule (s : State) (n : Nat) (x : DriveSt) : (s.setDrive n x).mule = s.mule := rfl
@[simp] theorem State.setDrive_bwt (s : State) (n : Nat) (x : DriveSt) : (s.setDrive n x).bwt = s.bwt := rfl
@[simp] theorem State.setDrive_sav (s : State) (n : Nat) (x : DriveSt) : (s.setDrive n x).sav = s.sav := rfl
@[simp] theorem State.setDrive_pwr (s : State) (n : Nat) (x : DriveSt) : (s.setDrive n x).pwr = s.pwr := rfl
@[simp] theorem State.setDrive_host (s : State) (n : Nat) (x : DriveSt) : (s.setDrive n x).host = s.host := rfl
@[simp] theorem State.setDrive_mgt (s : State) (n : Nat) (x : DriveSt) : (s.setDrive n x).mgt = s.mgt := rfl
@[simp] theorem State.setDrive_sd (s : State) (n : Nat) (x : DriveSt) : (s.setDrive n x).sd = s.sd := rfl
@[simp] theorem State.setDrive_fresh (s : State) (n : Nat) (x : DriveSt) : (s.setDrive n x).fresh = s.fresh := rfl
@[simp] theorem State.setDrive_out (s : State) (n : Nat) (x : DriveSt) : (s.setDrive n x).out = s.out := rfl

/-! ### `State.setRoute` -/

@[simp] theorem State.setRoute_pending (s : State) (j : JobSlot) (r : Nat) (x : RouteSt) : (s.setRoute j r x).pending = s.pending := rfl
@[simp] theorem State.setRoute_reg (s : State) (j : JobSlot) (r : Nat) (x : RouteSt) : (s.setRoute j r x).reg = s.reg := rfl
@[simp] theorem State.setRoute_bar4 (s : State) (j : JobSlot) (r : Nat) (x : RouteSt) : (s.setRoute j r x).bar4 = s.bar4 := rfl
@[simp] theorem State.setRoute_latches (s : State) (j : JobSlot) (r : Nat) (x : RouteSt) : (s.setRoute j r x).latches = s.latches := rfl
@[simp] theorem State.setRoute_heldLo (s : State) (j : JobSlot) (r : Nat) (x : RouteSt) : (s.setRoute j r x).heldLo = s.heldLo := rfl
@[simp] theorem State.setRoute_fuses (s : State) (j : JobSlot) (r : Nat) (x : RouteSt) : (s.setRoute j r x).fuses = s.fuses := rfl
@[simp] theorem State.setRoute_cores (s : State) (j : JobSlot) (r : Nat) (x : RouteSt) : (s.setRoute j r x).cores = s.cores := rfl
@[simp] theorem State.setRoute_sinks (s : State) (j : JobSlot) (r : Nat) (x : RouteSt) : (s.setRoute j r x).sinks = s.sinks := rfl
@[simp] theorem State.setRoute_eps (s : State) (j : JobSlot) (r : Nat) (x : RouteSt) : (s.setRoute j r x).eps = s.eps := rfl
@[simp] theorem State.setRoute_staging (s : State) (j : JobSlot) (r : Nat) (x : RouteSt) : (s.setRoute j r x).staging = s.staging := rfl
@[simp] theorem State.setRoute_stgEcc (s : State) (j : JobSlot) (r : Nat) (x : RouteSt) : (s.setRoute j r x).stgEcc = s.stgEcc := rfl
@[simp] theorem State.setRoute_regions (s : State) (j : JobSlot) (r : Nat) (x : RouteSt) : (s.setRoute j r x).regions = s.regions := rfl
@[simp] theorem State.setRoute_coll (s : State) (j : JobSlot) (r : Nat) (x : RouteSt) : (s.setRoute j r x).coll = s.coll := rfl
@[simp] theorem State.setRoute_reporter (s : State) (j : JobSlot) (r : Nat) (x : RouteSt) : (s.setRoute j r x).reporter = s.reporter := rfl
@[simp] theorem State.setRoute_imgA (s : State) (j : JobSlot) (r : Nat) (x : RouteSt) : (s.setRoute j r x).imgA = s.imgA := rfl
@[simp] theorem State.setRoute_imgB (s : State) (j : JobSlot) (r : Nat) (x : RouteSt) : (s.setRoute j r x).imgB = s.imgB := rfl
@[simp] theorem State.setRoute_loader (s : State) (j : JobSlot) (r : Nat) (x : RouteSt) : (s.setRoute j r x).loader = s.loader := rfl
@[simp] theorem State.setRoute_defPend (s : State) (j : JobSlot) (r : Nat) (x : RouteSt) : (s.setRoute j r x).defPend = s.defPend := rfl
@[simp] theorem State.setRoute_unloadB (s : State) (j : JobSlot) (r : Nat) (x : RouteSt) : (s.setRoute j r x).unloadB = s.unloadB := rfl
@[simp] theorem State.setRoute_winOpen (s : State) (j : JobSlot) (r : Nat) (x : RouteSt) : (s.setRoute j r x).winOpen = s.winOpen := rfl
@[simp] theorem State.setRoute_fabApplied (s : State) (j : JobSlot) (r : Nat) (x : RouteSt) : (s.setRoute j r x).fabApplied = s.fabApplied := rfl
@[simp] theorem State.setRoute_logical (s : State) (j : JobSlot) (r : Nat) (x : RouteSt) : (s.setRoute j r x).logical = s.logical := rfl
@[simp] theorem State.setRoute_mem (s : State) (j : JobSlot) (r : Nat) (x : RouteSt) : (s.setRoute j r x).mem = s.mem := rfl
@[simp] theorem State.setRoute_memEcc (s : State) (j : JobSlot) (r : Nat) (x : RouteSt) : (s.setRoute j r x).memEcc = s.memEcc := rfl
@[simp] theorem State.setRoute_stks (s : State) (j : JobSlot) (r : Nat) (x : RouteSt) : (s.setRoute j r x).stks = s.stks := rfl
@[simp] theorem State.setRoute_hring (s : State) (j : JobSlot) (r : Nat) (x : RouteSt) : (s.setRoute j r x).hring = s.hring := rfl
@[simp] theorem State.setRoute_pages (s : State) (j : JobSlot) (r : Nat) (x : RouteSt) : (s.setRoute j r x).pages = s.pages := rfl
@[simp] theorem State.setRoute_xbufs (s : State) (j : JobSlot) (r : Nat) (x : RouteSt) : (s.setRoute j r x).xbufs = s.xbufs := rfl
@[simp] theorem State.setRoute_invBusy (s : State) (j : JobSlot) (r : Nat) (x : RouteSt) : (s.setRoute j r x).invBusy = s.invBusy := rfl
@[simp] theorem State.setRoute_dma (s : State) (j : JobSlot) (r : Nat) (x : RouteSt) : (s.setRoute j r x).dma = s.dma := rfl
@[simp] theorem State.setRoute_second (s : State) (j : JobSlot) (r : Nat) (x : RouteSt) : (s.setRoute j r x).second = s.second := rfl
@[simp] theorem State.setRoute_fab (s : State) (j : JobSlot) (r : Nat) (x : RouteSt) : (s.setRoute j r x).fab = s.fab := rfl
@[simp] theorem State.setRoute_ports (s : State) (j : JobSlot) (r : Nat) (x : RouteSt) : (s.setRoute j r x).ports = s.ports := rfl
@[simp] theorem State.setRoute_chans (s : State) (j : JobSlot) (r : Nat) (x : RouteSt) : (s.setRoute j r x).chans = s.chans := rfl
@[simp] theorem State.setRoute_cals (s : State) (j : JobSlot) (r : Nat) (x : RouteSt) : (s.setRoute j r x).cals = s.cals := rfl
@[simp] theorem State.setRoute_rem (s : State) (j : JobSlot) (r : Nat) (x : RouteSt) : (s.setRoute j r x).rem = s.rem := rfl
@[simp] theorem State.setRoute_colls (s : State) (j : JobSlot) (r : Nat) (x : RouteSt) : (s.setRoute j r x).colls = s.colls := rfl
@[simp] theorem State.setRoute_mule (s : State) (j : JobSlot) (r : Nat) (x : RouteSt) : (s.setRoute j r x).mule = s.mule := rfl
@[simp] theorem State.setRoute_bwt (s : State) (j : JobSlot) (r : Nat) (x : RouteSt) : (s.setRoute j r x).bwt = s.bwt := rfl
@[simp] theorem State.setRoute_sav (s : State) (j : JobSlot) (r : Nat) (x : RouteSt) : (s.setRoute j r x).sav = s.sav := rfl
@[simp] theorem State.setRoute_drives (s : State) (j : JobSlot) (r : Nat) (x : RouteSt) : (s.setRoute j r x).drives = s.drives := rfl
@[simp] theorem State.setRoute_pwr (s : State) (j : JobSlot) (r : Nat) (x : RouteSt) : (s.setRoute j r x).pwr = s.pwr := rfl
@[simp] theorem State.setRoute_host (s : State) (j : JobSlot) (r : Nat) (x : RouteSt) : (s.setRoute j r x).host = s.host := rfl
@[simp] theorem State.setRoute_mgt (s : State) (j : JobSlot) (r : Nat) (x : RouteSt) : (s.setRoute j r x).mgt = s.mgt := rfl
@[simp] theorem State.setRoute_sd (s : State) (j : JobSlot) (r : Nat) (x : RouteSt) : (s.setRoute j r x).sd = s.sd := rfl
@[simp] theorem State.setRoute_fresh (s : State) (j : JobSlot) (r : Nat) (x : RouteSt) : (s.setRoute j r x).fresh = s.fresh := rfl
@[simp] theorem State.setRoute_out (s : State) (j : JobSlot) (r : Nat) (x : RouteSt) : (s.setRoute j r x).out = s.out := rfl

/-! ### `State.setEp` -/

@[simp] theorem State.setEp_pending (s : State) (j : JobSlot) (d n : Nat) (x : EpSt) : (s.setEp j d n x).pending = s.pending := rfl
@[simp] theorem State.setEp_reg (s : State) (j : JobSlot) (d n : Nat) (x : EpSt) : (s.setEp j d n x).reg = s.reg := rfl
@[simp] theorem State.setEp_bar4 (s : State) (j : JobSlot) (d n : Nat) (x : EpSt) : (s.setEp j d n x).bar4 = s.bar4 := rfl
@[simp] theorem State.setEp_latches (s : State) (j : JobSlot) (d n : Nat) (x : EpSt) : (s.setEp j d n x).latches = s.latches := rfl
@[simp] theorem State.setEp_heldLo (s : State) (j : JobSlot) (d n : Nat) (x : EpSt) : (s.setEp j d n x).heldLo = s.heldLo := rfl
@[simp] theorem State.setEp_fuses (s : State) (j : JobSlot) (d n : Nat) (x : EpSt) : (s.setEp j d n x).fuses = s.fuses := rfl
@[simp] theorem State.setEp_cores (s : State) (j : JobSlot) (d n : Nat) (x : EpSt) : (s.setEp j d n x).cores = s.cores := rfl
@[simp] theorem State.setEp_routes (s : State) (j : JobSlot) (d n : Nat) (x : EpSt) : (s.setEp j d n x).routes = s.routes := rfl
@[simp] theorem State.setEp_sinks (s : State) (j : JobSlot) (d n : Nat) (x : EpSt) : (s.setEp j d n x).sinks = s.sinks := rfl
@[simp] theorem State.setEp_staging (s : State) (j : JobSlot) (d n : Nat) (x : EpSt) : (s.setEp j d n x).staging = s.staging := rfl
@[simp] theorem State.setEp_stgEcc (s : State) (j : JobSlot) (d n : Nat) (x : EpSt) : (s.setEp j d n x).stgEcc = s.stgEcc := rfl
@[simp] theorem State.setEp_regions (s : State) (j : JobSlot) (d n : Nat) (x : EpSt) : (s.setEp j d n x).regions = s.regions := rfl
@[simp] theorem State.setEp_coll (s : State) (j : JobSlot) (d n : Nat) (x : EpSt) : (s.setEp j d n x).coll = s.coll := rfl
@[simp] theorem State.setEp_reporter (s : State) (j : JobSlot) (d n : Nat) (x : EpSt) : (s.setEp j d n x).reporter = s.reporter := rfl
@[simp] theorem State.setEp_imgA (s : State) (j : JobSlot) (d n : Nat) (x : EpSt) : (s.setEp j d n x).imgA = s.imgA := rfl
@[simp] theorem State.setEp_imgB (s : State) (j : JobSlot) (d n : Nat) (x : EpSt) : (s.setEp j d n x).imgB = s.imgB := rfl
@[simp] theorem State.setEp_loader (s : State) (j : JobSlot) (d n : Nat) (x : EpSt) : (s.setEp j d n x).loader = s.loader := rfl
@[simp] theorem State.setEp_defPend (s : State) (j : JobSlot) (d n : Nat) (x : EpSt) : (s.setEp j d n x).defPend = s.defPend := rfl
@[simp] theorem State.setEp_unloadB (s : State) (j : JobSlot) (d n : Nat) (x : EpSt) : (s.setEp j d n x).unloadB = s.unloadB := rfl
@[simp] theorem State.setEp_winOpen (s : State) (j : JobSlot) (d n : Nat) (x : EpSt) : (s.setEp j d n x).winOpen = s.winOpen := rfl
@[simp] theorem State.setEp_fabApplied (s : State) (j : JobSlot) (d n : Nat) (x : EpSt) : (s.setEp j d n x).fabApplied = s.fabApplied := rfl
@[simp] theorem State.setEp_logical (s : State) (j : JobSlot) (d n : Nat) (x : EpSt) : (s.setEp j d n x).logical = s.logical := rfl
@[simp] theorem State.setEp_mem (s : State) (j : JobSlot) (d n : Nat) (x : EpSt) : (s.setEp j d n x).mem = s.mem := rfl
@[simp] theorem State.setEp_memEcc (s : State) (j : JobSlot) (d n : Nat) (x : EpSt) : (s.setEp j d n x).memEcc = s.memEcc := rfl
@[simp] theorem State.setEp_stks (s : State) (j : JobSlot) (d n : Nat) (x : EpSt) : (s.setEp j d n x).stks = s.stks := rfl
@[simp] theorem State.setEp_hring (s : State) (j : JobSlot) (d n : Nat) (x : EpSt) : (s.setEp j d n x).hring = s.hring := rfl
@[simp] theorem State.setEp_pages (s : State) (j : JobSlot) (d n : Nat) (x : EpSt) : (s.setEp j d n x).pages = s.pages := rfl
@[simp] theorem State.setEp_xbufs (s : State) (j : JobSlot) (d n : Nat) (x : EpSt) : (s.setEp j d n x).xbufs = s.xbufs := rfl
@[simp] theorem State.setEp_invBusy (s : State) (j : JobSlot) (d n : Nat) (x : EpSt) : (s.setEp j d n x).invBusy = s.invBusy := rfl
@[simp] theorem State.setEp_dma (s : State) (j : JobSlot) (d n : Nat) (x : EpSt) : (s.setEp j d n x).dma = s.dma := rfl
@[simp] theorem State.setEp_second (s : State) (j : JobSlot) (d n : Nat) (x : EpSt) : (s.setEp j d n x).second = s.second := rfl
@[simp] theorem State.setEp_fab (s : State) (j : JobSlot) (d n : Nat) (x : EpSt) : (s.setEp j d n x).fab = s.fab := rfl
@[simp] theorem State.setEp_ports (s : State) (j : JobSlot) (d n : Nat) (x : EpSt) : (s.setEp j d n x).ports = s.ports := rfl
@[simp] theorem State.setEp_chans (s : State) (j : JobSlot) (d n : Nat) (x : EpSt) : (s.setEp j d n x).chans = s.chans := rfl
@[simp] theorem State.setEp_cals (s : State) (j : JobSlot) (d n : Nat) (x : EpSt) : (s.setEp j d n x).cals = s.cals := rfl
@[simp] theorem State.setEp_rem (s : State) (j : JobSlot) (d n : Nat) (x : EpSt) : (s.setEp j d n x).rem = s.rem := rfl
@[simp] theorem State.setEp_colls (s : State) (j : JobSlot) (d n : Nat) (x : EpSt) : (s.setEp j d n x).colls = s.colls := rfl
@[simp] theorem State.setEp_mule (s : State) (j : JobSlot) (d n : Nat) (x : EpSt) : (s.setEp j d n x).mule = s.mule := rfl
@[simp] theorem State.setEp_bwt (s : State) (j : JobSlot) (d n : Nat) (x : EpSt) : (s.setEp j d n x).bwt = s.bwt := rfl
@[simp] theorem State.setEp_sav (s : State) (j : JobSlot) (d n : Nat) (x : EpSt) : (s.setEp j d n x).sav = s.sav := rfl
@[simp] theorem State.setEp_drives (s : State) (j : JobSlot) (d n : Nat) (x : EpSt) : (s.setEp j d n x).drives = s.drives := rfl
@[simp] theorem State.setEp_pwr (s : State) (j : JobSlot) (d n : Nat) (x : EpSt) : (s.setEp j d n x).pwr = s.pwr := rfl
@[simp] theorem State.setEp_host (s : State) (j : JobSlot) (d n : Nat) (x : EpSt) : (s.setEp j d n x).host = s.host := rfl
@[simp] theorem State.setEp_mgt (s : State) (j : JobSlot) (d n : Nat) (x : EpSt) : (s.setEp j d n x).mgt = s.mgt := rfl
@[simp] theorem State.setEp_sd (s : State) (j : JobSlot) (d n : Nat) (x : EpSt) : (s.setEp j d n x).sd = s.sd := rfl
@[simp] theorem State.setEp_fresh (s : State) (j : JobSlot) (d n : Nat) (x : EpSt) : (s.setEp j d n x).fresh = s.fresh := rfl
@[simp] theorem State.setEp_out (s : State) (j : JobSlot) (d n : Nat) (x : EpSt) : (s.setEp j d n x).out = s.out := rfl

/-! ### `State.setSink` -/

@[simp] theorem State.setSink_pending (s : State) (j : JobSlot) (c k : Nat) (x : SinkSt) : (s.setSink j c k x).pending = s.pending := rfl
@[simp] theorem State.setSink_reg (s : State) (j : JobSlot) (c k : Nat) (x : SinkSt) : (s.setSink j c k x).reg = s.reg := rfl
@[simp] theorem State.setSink_bar4 (s : State) (j : JobSlot) (c k : Nat) (x : SinkSt) : (s.setSink j c k x).bar4 = s.bar4 := rfl
@[simp] theorem State.setSink_latches (s : State) (j : JobSlot) (c k : Nat) (x : SinkSt) : (s.setSink j c k x).latches = s.latches := rfl
@[simp] theorem State.setSink_heldLo (s : State) (j : JobSlot) (c k : Nat) (x : SinkSt) : (s.setSink j c k x).heldLo = s.heldLo := rfl
@[simp] theorem State.setSink_fuses (s : State) (j : JobSlot) (c k : Nat) (x : SinkSt) : (s.setSink j c k x).fuses = s.fuses := rfl
@[simp] theorem State.setSink_cores (s : State) (j : JobSlot) (c k : Nat) (x : SinkSt) : (s.setSink j c k x).cores = s.cores := rfl
@[simp] theorem State.setSink_routes (s : State) (j : JobSlot) (c k : Nat) (x : SinkSt) : (s.setSink j c k x).routes = s.routes := rfl
@[simp] theorem State.setSink_eps (s : State) (j : JobSlot) (c k : Nat) (x : SinkSt) : (s.setSink j c k x).eps = s.eps := rfl
@[simp] theorem State.setSink_staging (s : State) (j : JobSlot) (c k : Nat) (x : SinkSt) : (s.setSink j c k x).staging = s.staging := rfl
@[simp] theorem State.setSink_stgEcc (s : State) (j : JobSlot) (c k : Nat) (x : SinkSt) : (s.setSink j c k x).stgEcc = s.stgEcc := rfl
@[simp] theorem State.setSink_regions (s : State) (j : JobSlot) (c k : Nat) (x : SinkSt) : (s.setSink j c k x).regions = s.regions := rfl
@[simp] theorem State.setSink_coll (s : State) (j : JobSlot) (c k : Nat) (x : SinkSt) : (s.setSink j c k x).coll = s.coll := rfl
@[simp] theorem State.setSink_reporter (s : State) (j : JobSlot) (c k : Nat) (x : SinkSt) : (s.setSink j c k x).reporter = s.reporter := rfl
@[simp] theorem State.setSink_imgA (s : State) (j : JobSlot) (c k : Nat) (x : SinkSt) : (s.setSink j c k x).imgA = s.imgA := rfl
@[simp] theorem State.setSink_imgB (s : State) (j : JobSlot) (c k : Nat) (x : SinkSt) : (s.setSink j c k x).imgB = s.imgB := rfl
@[simp] theorem State.setSink_loader (s : State) (j : JobSlot) (c k : Nat) (x : SinkSt) : (s.setSink j c k x).loader = s.loader := rfl
@[simp] theorem State.setSink_defPend (s : State) (j : JobSlot) (c k : Nat) (x : SinkSt) : (s.setSink j c k x).defPend = s.defPend := rfl
@[simp] theorem State.setSink_unloadB (s : State) (j : JobSlot) (c k : Nat) (x : SinkSt) : (s.setSink j c k x).unloadB = s.unloadB := rfl
@[simp] theorem State.setSink_winOpen (s : State) (j : JobSlot) (c k : Nat) (x : SinkSt) : (s.setSink j c k x).winOpen = s.winOpen := rfl
@[simp] theorem State.setSink_fabApplied (s : State) (j : JobSlot) (c k : Nat) (x : SinkSt) : (s.setSink j c k x).fabApplied = s.fabApplied := rfl
@[simp] theorem State.setSink_logical (s : State) (j : JobSlot) (c k : Nat) (x : SinkSt) : (s.setSink j c k x).logical = s.logical := rfl
@[simp] theorem State.setSink_mem (s : State) (j : JobSlot) (c k : Nat) (x : SinkSt) : (s.setSink j c k x).mem = s.mem := rfl
@[simp] theorem State.setSink_memEcc (s : State) (j : JobSlot) (c k : Nat) (x : SinkSt) : (s.setSink j c k x).memEcc = s.memEcc := rfl
@[simp] theorem State.setSink_stks (s : State) (j : JobSlot) (c k : Nat) (x : SinkSt) : (s.setSink j c k x).stks = s.stks := rfl
@[simp] theorem State.setSink_hring (s : State) (j : JobSlot) (c k : Nat) (x : SinkSt) : (s.setSink j c k x).hring = s.hring := rfl
@[simp] theorem State.setSink_pages (s : State) (j : JobSlot) (c k : Nat) (x : SinkSt) : (s.setSink j c k x).pages = s.pages := rfl
@[simp] theorem State.setSink_xbufs (s : State) (j : JobSlot) (c k : Nat) (x : SinkSt) : (s.setSink j c k x).xbufs = s.xbufs := rfl
@[simp] theorem State.setSink_invBusy (s : State) (j : JobSlot) (c k : Nat) (x : SinkSt) : (s.setSink j c k x).invBusy = s.invBusy := rfl
@[simp] theorem State.setSink_dma (s : State) (j : JobSlot) (c k : Nat) (x : SinkSt) : (s.setSink j c k x).dma = s.dma := rfl
@[simp] theorem State.setSink_second (s : State) (j : JobSlot) (c k : Nat) (x : SinkSt) : (s.setSink j c k x).second = s.second := rfl
@[simp] theorem State.setSink_fab (s : State) (j : JobSlot) (c k : Nat) (x : SinkSt) : (s.setSink j c k x).fab = s.fab := rfl
@[simp] theorem State.setSink_ports (s : State) (j : JobSlot) (c k : Nat) (x : SinkSt) : (s.setSink j c k x).ports = s.ports := rfl
@[simp] theorem State.setSink_chans (s : State) (j : JobSlot) (c k : Nat) (x : SinkSt) : (s.setSink j c k x).chans = s.chans := rfl
@[simp] theorem State.setSink_cals (s : State) (j : JobSlot) (c k : Nat) (x : SinkSt) : (s.setSink j c k x).cals = s.cals := rfl
@[simp] theorem State.setSink_rem (s : State) (j : JobSlot) (c k : Nat) (x : SinkSt) : (s.setSink j c k x).rem = s.rem := rfl
@[simp] theorem State.setSink_colls (s : State) (j : JobSlot) (c k : Nat) (x : SinkSt) : (s.setSink j c k x).colls = s.colls := rfl
@[simp] theorem State.setSink_mule (s : State) (j : JobSlot) (c k : Nat) (x : SinkSt) : (s.setSink j c k x).mule = s.mule := rfl
@[simp] theorem State.setSink_bwt (s : State) (j : JobSlot) (c k : Nat) (x : SinkSt) : (s.setSink j c k x).bwt = s.bwt := rfl
@[simp] theorem State.setSink_sav (s : State) (j : JobSlot) (c k : Nat) (x : SinkSt) : (s.setSink j c k x).sav = s.sav := rfl
@[simp] theorem State.setSink_drives (s : State) (j : JobSlot) (c k : Nat) (x : SinkSt) : (s.setSink j c k x).drives = s.drives := rfl
@[simp] theorem State.setSink_pwr (s : State) (j : JobSlot) (c k : Nat) (x : SinkSt) : (s.setSink j c k x).pwr = s.pwr := rfl
@[simp] theorem State.setSink_host (s : State) (j : JobSlot) (c k : Nat) (x : SinkSt) : (s.setSink j c k x).host = s.host := rfl
@[simp] theorem State.setSink_mgt (s : State) (j : JobSlot) (c k : Nat) (x : SinkSt) : (s.setSink j c k x).mgt = s.mgt := rfl
@[simp] theorem State.setSink_sd (s : State) (j : JobSlot) (c k : Nat) (x : SinkSt) : (s.setSink j c k x).sd = s.sd := rfl
@[simp] theorem State.setSink_fresh (s : State) (j : JobSlot) (c k : Nat) (x : SinkSt) : (s.setSink j c k x).fresh = s.fresh := rfl
@[simp] theorem State.setSink_out (s : State) (j : JobSlot) (c k : Nat) (x : SinkSt) : (s.setSink j c k x).out = s.out := rfl

/-! ### `State.setDieColl` -/

@[simp] theorem State.setDieColl_pending (s : State) (d : Nat) (x : DieColl) : (s.setDieColl d x).pending = s.pending := rfl
@[simp] theorem State.setDieColl_reg (s : State) (d : Nat) (x : DieColl) : (s.setDieColl d x).reg = s.reg := rfl
@[simp] theorem State.setDieColl_bar4 (s : State) (d : Nat) (x : DieColl) : (s.setDieColl d x).bar4 = s.bar4 := rfl
@[simp] theorem State.setDieColl_latches (s : State) (d : Nat) (x : DieColl) : (s.setDieColl d x).latches = s.latches := rfl
@[simp] theorem State.setDieColl_heldLo (s : State) (d : Nat) (x : DieColl) : (s.setDieColl d x).heldLo = s.heldLo := rfl
@[simp] theorem State.setDieColl_fuses (s : State) (d : Nat) (x : DieColl) : (s.setDieColl d x).fuses = s.fuses := rfl
@[simp] theorem State.setDieColl_cores (s : State) (d : Nat) (x : DieColl) : (s.setDieColl d x).cores = s.cores := rfl
@[simp] theorem State.setDieColl_routes (s : State) (d : Nat) (x : DieColl) : (s.setDieColl d x).routes = s.routes := rfl
@[simp] theorem State.setDieColl_sinks (s : State) (d : Nat) (x : DieColl) : (s.setDieColl d x).sinks = s.sinks := rfl
@[simp] theorem State.setDieColl_eps (s : State) (d : Nat) (x : DieColl) : (s.setDieColl d x).eps = s.eps := rfl
@[simp] theorem State.setDieColl_staging (s : State) (d : Nat) (x : DieColl) : (s.setDieColl d x).staging = s.staging := rfl
@[simp] theorem State.setDieColl_stgEcc (s : State) (d : Nat) (x : DieColl) : (s.setDieColl d x).stgEcc = s.stgEcc := rfl
@[simp] theorem State.setDieColl_regions (s : State) (d : Nat) (x : DieColl) : (s.setDieColl d x).regions = s.regions := rfl
@[simp] theorem State.setDieColl_reporter (s : State) (d : Nat) (x : DieColl) : (s.setDieColl d x).reporter = s.reporter := rfl
@[simp] theorem State.setDieColl_imgA (s : State) (d : Nat) (x : DieColl) : (s.setDieColl d x).imgA = s.imgA := rfl
@[simp] theorem State.setDieColl_imgB (s : State) (d : Nat) (x : DieColl) : (s.setDieColl d x).imgB = s.imgB := rfl
@[simp] theorem State.setDieColl_loader (s : State) (d : Nat) (x : DieColl) : (s.setDieColl d x).loader = s.loader := rfl
@[simp] theorem State.setDieColl_defPend (s : State) (d : Nat) (x : DieColl) : (s.setDieColl d x).defPend = s.defPend := rfl
@[simp] theorem State.setDieColl_unloadB (s : State) (d : Nat) (x : DieColl) : (s.setDieColl d x).unloadB = s.unloadB := rfl
@[simp] theorem State.setDieColl_winOpen (s : State) (d : Nat) (x : DieColl) : (s.setDieColl d x).winOpen = s.winOpen := rfl
@[simp] theorem State.setDieColl_fabApplied (s : State) (d : Nat) (x : DieColl) : (s.setDieColl d x).fabApplied = s.fabApplied := rfl
@[simp] theorem State.setDieColl_logical (s : State) (d : Nat) (x : DieColl) : (s.setDieColl d x).logical = s.logical := rfl
@[simp] theorem State.setDieColl_mem (s : State) (d : Nat) (x : DieColl) : (s.setDieColl d x).mem = s.mem := rfl
@[simp] theorem State.setDieColl_memEcc (s : State) (d : Nat) (x : DieColl) : (s.setDieColl d x).memEcc = s.memEcc := rfl
@[simp] theorem State.setDieColl_stks (s : State) (d : Nat) (x : DieColl) : (s.setDieColl d x).stks = s.stks := rfl
@[simp] theorem State.setDieColl_hring (s : State) (d : Nat) (x : DieColl) : (s.setDieColl d x).hring = s.hring := rfl
@[simp] theorem State.setDieColl_pages (s : State) (d : Nat) (x : DieColl) : (s.setDieColl d x).pages = s.pages := rfl
@[simp] theorem State.setDieColl_xbufs (s : State) (d : Nat) (x : DieColl) : (s.setDieColl d x).xbufs = s.xbufs := rfl
@[simp] theorem State.setDieColl_invBusy (s : State) (d : Nat) (x : DieColl) : (s.setDieColl d x).invBusy = s.invBusy := rfl
@[simp] theorem State.setDieColl_dma (s : State) (d : Nat) (x : DieColl) : (s.setDieColl d x).dma = s.dma := rfl
@[simp] theorem State.setDieColl_second (s : State) (d : Nat) (x : DieColl) : (s.setDieColl d x).second = s.second := rfl
@[simp] theorem State.setDieColl_fab (s : State) (d : Nat) (x : DieColl) : (s.setDieColl d x).fab = s.fab := rfl
@[simp] theorem State.setDieColl_ports (s : State) (d : Nat) (x : DieColl) : (s.setDieColl d x).ports = s.ports := rfl
@[simp] theorem State.setDieColl_chans (s : State) (d : Nat) (x : DieColl) : (s.setDieColl d x).chans = s.chans := rfl
@[simp] theorem State.setDieColl_cals (s : State) (d : Nat) (x : DieColl) : (s.setDieColl d x).cals = s.cals := rfl
@[simp] theorem State.setDieColl_rem (s : State) (d : Nat) (x : DieColl) : (s.setDieColl d x).rem = s.rem := rfl
@[simp] theorem State.setDieColl_colls (s : State) (d : Nat) (x : DieColl) : (s.setDieColl d x).colls = s.colls := rfl
@[simp] theorem State.setDieColl_mule (s : State) (d : Nat) (x : DieColl) : (s.setDieColl d x).mule = s.mule := rfl
@[simp] theorem State.setDieColl_bwt (s : State) (d : Nat) (x : DieColl) : (s.setDieColl d x).bwt = s.bwt := rfl
@[simp] theorem State.setDieColl_sav (s : State) (d : Nat) (x : DieColl) : (s.setDieColl d x).sav = s.sav := rfl
@[simp] theorem State.setDieColl_drives (s : State) (d : Nat) (x : DieColl) : (s.setDieColl d x).drives = s.drives := rfl
@[simp] theorem State.setDieColl_pwr (s : State) (d : Nat) (x : DieColl) : (s.setDieColl d x).pwr = s.pwr := rfl
@[simp] theorem State.setDieColl_host (s : State) (d : Nat) (x : DieColl) : (s.setDieColl d x).host = s.host := rfl
@[simp] theorem State.setDieColl_mgt (s : State) (d : Nat) (x : DieColl) : (s.setDieColl d x).mgt = s.mgt := rfl
@[simp] theorem State.setDieColl_sd (s : State) (d : Nat) (x : DieColl) : (s.setDieColl d x).sd = s.sd := rfl
@[simp] theorem State.setDieColl_fresh (s : State) (d : Nat) (x : DieColl) : (s.setDieColl d x).fresh = s.fresh := rfl
@[simp] theorem State.setDieColl_out (s : State) (d : Nat) (x : DieColl) : (s.setDieColl d x).out = s.out := rfl

/-! ### `State.setColl` -/

@[simp] theorem State.setColl_pending (s : State) (k : Nat) (x : CollSt) : (s.setColl k x).pending = s.pending := rfl
@[simp] theorem State.setColl_reg (s : State) (k : Nat) (x : CollSt) : (s.setColl k x).reg = s.reg := rfl
@[simp] theorem State.setColl_bar4 (s : State) (k : Nat) (x : CollSt) : (s.setColl k x).bar4 = s.bar4 := rfl
@[simp] theorem State.setColl_latches (s : State) (k : Nat) (x : CollSt) : (s.setColl k x).latches = s.latches := rfl
@[simp] theorem State.setColl_heldLo (s : State) (k : Nat) (x : CollSt) : (s.setColl k x).heldLo = s.heldLo := rfl
@[simp] theorem State.setColl_fuses (s : State) (k : Nat) (x : CollSt) : (s.setColl k x).fuses = s.fuses := rfl
@[simp] theorem State.setColl_cores (s : State) (k : Nat) (x : CollSt) : (s.setColl k x).cores = s.cores := rfl
@[simp] theorem State.setColl_routes (s : State) (k : Nat) (x : CollSt) : (s.setColl k x).routes = s.routes := rfl
@[simp] theorem State.setColl_sinks (s : State) (k : Nat) (x : CollSt) : (s.setColl k x).sinks = s.sinks := rfl
@[simp] theorem State.setColl_eps (s : State) (k : Nat) (x : CollSt) : (s.setColl k x).eps = s.eps := rfl
@[simp] theorem State.setColl_staging (s : State) (k : Nat) (x : CollSt) : (s.setColl k x).staging = s.staging := rfl
@[simp] theorem State.setColl_stgEcc (s : State) (k : Nat) (x : CollSt) : (s.setColl k x).stgEcc = s.stgEcc := rfl
@[simp] theorem State.setColl_regions (s : State) (k : Nat) (x : CollSt) : (s.setColl k x).regions = s.regions := rfl
@[simp] theorem State.setColl_coll (s : State) (k : Nat) (x : CollSt) : (s.setColl k x).coll = s.coll := rfl
@[simp] theorem State.setColl_reporter (s : State) (k : Nat) (x : CollSt) : (s.setColl k x).reporter = s.reporter := rfl
@[simp] theorem State.setColl_imgA (s : State) (k : Nat) (x : CollSt) : (s.setColl k x).imgA = s.imgA := rfl
@[simp] theorem State.setColl_imgB (s : State) (k : Nat) (x : CollSt) : (s.setColl k x).imgB = s.imgB := rfl
@[simp] theorem State.setColl_loader (s : State) (k : Nat) (x : CollSt) : (s.setColl k x).loader = s.loader := rfl
@[simp] theorem State.setColl_defPend (s : State) (k : Nat) (x : CollSt) : (s.setColl k x).defPend = s.defPend := rfl
@[simp] theorem State.setColl_unloadB (s : State) (k : Nat) (x : CollSt) : (s.setColl k x).unloadB = s.unloadB := rfl
@[simp] theorem State.setColl_winOpen (s : State) (k : Nat) (x : CollSt) : (s.setColl k x).winOpen = s.winOpen := rfl
@[simp] theorem State.setColl_fabApplied (s : State) (k : Nat) (x : CollSt) : (s.setColl k x).fabApplied = s.fabApplied := rfl
@[simp] theorem State.setColl_logical (s : State) (k : Nat) (x : CollSt) : (s.setColl k x).logical = s.logical := rfl
@[simp] theorem State.setColl_mem (s : State) (k : Nat) (x : CollSt) : (s.setColl k x).mem = s.mem := rfl
@[simp] theorem State.setColl_memEcc (s : State) (k : Nat) (x : CollSt) : (s.setColl k x).memEcc = s.memEcc := rfl
@[simp] theorem State.setColl_stks (s : State) (k : Nat) (x : CollSt) : (s.setColl k x).stks = s.stks := rfl
@[simp] theorem State.setColl_hring (s : State) (k : Nat) (x : CollSt) : (s.setColl k x).hring = s.hring := rfl
@[simp] theorem State.setColl_pages (s : State) (k : Nat) (x : CollSt) : (s.setColl k x).pages = s.pages := rfl
@[simp] theorem State.setColl_xbufs (s : State) (k : Nat) (x : CollSt) : (s.setColl k x).xbufs = s.xbufs := rfl
@[simp] theorem State.setColl_invBusy (s : State) (k : Nat) (x : CollSt) : (s.setColl k x).invBusy = s.invBusy := rfl
@[simp] theorem State.setColl_dma (s : State) (k : Nat) (x : CollSt) : (s.setColl k x).dma = s.dma := rfl
@[simp] theorem State.setColl_second (s : State) (k : Nat) (x : CollSt) : (s.setColl k x).second = s.second := rfl
@[simp] theorem State.setColl_fab (s : State) (k : Nat) (x : CollSt) : (s.setColl k x).fab = s.fab := rfl
@[simp] theorem State.setColl_ports (s : State) (k : Nat) (x : CollSt) : (s.setColl k x).ports = s.ports := rfl
@[simp] theorem State.setColl_chans (s : State) (k : Nat) (x : CollSt) : (s.setColl k x).chans = s.chans := rfl
@[simp] theorem State.setColl_cals (s : State) (k : Nat) (x : CollSt) : (s.setColl k x).cals = s.cals := rfl
@[simp] theorem State.setColl_rem (s : State) (k : Nat) (x : CollSt) : (s.setColl k x).rem = s.rem := rfl
@[simp] theorem State.setColl_mule (s : State) (k : Nat) (x : CollSt) : (s.setColl k x).mule = s.mule := rfl
@[simp] theorem State.setColl_bwt (s : State) (k : Nat) (x : CollSt) : (s.setColl k x).bwt = s.bwt := rfl
@[simp] theorem State.setColl_sav (s : State) (k : Nat) (x : CollSt) : (s.setColl k x).sav = s.sav := rfl
@[simp] theorem State.setColl_drives (s : State) (k : Nat) (x : CollSt) : (s.setColl k x).drives = s.drives := rfl
@[simp] theorem State.setColl_pwr (s : State) (k : Nat) (x : CollSt) : (s.setColl k x).pwr = s.pwr := rfl
@[simp] theorem State.setColl_host (s : State) (k : Nat) (x : CollSt) : (s.setColl k x).host = s.host := rfl
@[simp] theorem State.setColl_mgt (s : State) (k : Nat) (x : CollSt) : (s.setColl k x).mgt = s.mgt := rfl
@[simp] theorem State.setColl_sd (s : State) (k : Nat) (x : CollSt) : (s.setColl k x).sd = s.sd := rfl
@[simp] theorem State.setColl_fresh (s : State) (k : Nat) (x : CollSt) : (s.setColl k x).fresh = s.fresh := rfl
@[simp] theorem State.setColl_out (s : State) (k : Nat) (x : CollSt) : (s.setColl k x).out = s.out := rfl

/-! ### `State.setMule` -/

@[simp] theorem State.setMule_pending (s : State) (t : Nat) (x : MuleSt) : (s.setMule t x).pending = s.pending := rfl
@[simp] theorem State.setMule_reg (s : State) (t : Nat) (x : MuleSt) : (s.setMule t x).reg = s.reg := rfl
@[simp] theorem State.setMule_bar4 (s : State) (t : Nat) (x : MuleSt) : (s.setMule t x).bar4 = s.bar4 := rfl
@[simp] theorem State.setMule_latches (s : State) (t : Nat) (x : MuleSt) : (s.setMule t x).latches = s.latches := rfl
@[simp] theorem State.setMule_heldLo (s : State) (t : Nat) (x : MuleSt) : (s.setMule t x).heldLo = s.heldLo := rfl
@[simp] theorem State.setMule_fuses (s : State) (t : Nat) (x : MuleSt) : (s.setMule t x).fuses = s.fuses := rfl
@[simp] theorem State.setMule_cores (s : State) (t : Nat) (x : MuleSt) : (s.setMule t x).cores = s.cores := rfl
@[simp] theorem State.setMule_routes (s : State) (t : Nat) (x : MuleSt) : (s.setMule t x).routes = s.routes := rfl
@[simp] theorem State.setMule_sinks (s : State) (t : Nat) (x : MuleSt) : (s.setMule t x).sinks = s.sinks := rfl
@[simp] theorem State.setMule_eps (s : State) (t : Nat) (x : MuleSt) : (s.setMule t x).eps = s.eps := rfl
@[simp] theorem State.setMule_staging (s : State) (t : Nat) (x : MuleSt) : (s.setMule t x).staging = s.staging := rfl
@[simp] theorem State.setMule_stgEcc (s : State) (t : Nat) (x : MuleSt) : (s.setMule t x).stgEcc = s.stgEcc := rfl
@[simp] theorem State.setMule_regions (s : State) (t : Nat) (x : MuleSt) : (s.setMule t x).regions = s.regions := rfl
@[simp] theorem State.setMule_coll (s : State) (t : Nat) (x : MuleSt) : (s.setMule t x).coll = s.coll := rfl
@[simp] theorem State.setMule_reporter (s : State) (t : Nat) (x : MuleSt) : (s.setMule t x).reporter = s.reporter := rfl
@[simp] theorem State.setMule_imgA (s : State) (t : Nat) (x : MuleSt) : (s.setMule t x).imgA = s.imgA := rfl
@[simp] theorem State.setMule_imgB (s : State) (t : Nat) (x : MuleSt) : (s.setMule t x).imgB = s.imgB := rfl
@[simp] theorem State.setMule_loader (s : State) (t : Nat) (x : MuleSt) : (s.setMule t x).loader = s.loader := rfl
@[simp] theorem State.setMule_defPend (s : State) (t : Nat) (x : MuleSt) : (s.setMule t x).defPend = s.defPend := rfl
@[simp] theorem State.setMule_unloadB (s : State) (t : Nat) (x : MuleSt) : (s.setMule t x).unloadB = s.unloadB := rfl
@[simp] theorem State.setMule_winOpen (s : State) (t : Nat) (x : MuleSt) : (s.setMule t x).winOpen = s.winOpen := rfl
@[simp] theorem State.setMule_fabApplied (s : State) (t : Nat) (x : MuleSt) : (s.setMule t x).fabApplied = s.fabApplied := rfl
@[simp] theorem State.setMule_logical (s : State) (t : Nat) (x : MuleSt) : (s.setMule t x).logical = s.logical := rfl
@[simp] theorem State.setMule_mem (s : State) (t : Nat) (x : MuleSt) : (s.setMule t x).mem = s.mem := rfl
@[simp] theorem State.setMule_memEcc (s : State) (t : Nat) (x : MuleSt) : (s.setMule t x).memEcc = s.memEcc := rfl
@[simp] theorem State.setMule_stks (s : State) (t : Nat) (x : MuleSt) : (s.setMule t x).stks = s.stks := rfl
@[simp] theorem State.setMule_hring (s : State) (t : Nat) (x : MuleSt) : (s.setMule t x).hring = s.hring := rfl
@[simp] theorem State.setMule_pages (s : State) (t : Nat) (x : MuleSt) : (s.setMule t x).pages = s.pages := rfl
@[simp] theorem State.setMule_xbufs (s : State) (t : Nat) (x : MuleSt) : (s.setMule t x).xbufs = s.xbufs := rfl
@[simp] theorem State.setMule_invBusy (s : State) (t : Nat) (x : MuleSt) : (s.setMule t x).invBusy = s.invBusy := rfl
@[simp] theorem State.setMule_dma (s : State) (t : Nat) (x : MuleSt) : (s.setMule t x).dma = s.dma := rfl
@[simp] theorem State.setMule_second (s : State) (t : Nat) (x : MuleSt) : (s.setMule t x).second = s.second := rfl
@[simp] theorem State.setMule_fab (s : State) (t : Nat) (x : MuleSt) : (s.setMule t x).fab = s.fab := rfl
@[simp] theorem State.setMule_ports (s : State) (t : Nat) (x : MuleSt) : (s.setMule t x).ports = s.ports := rfl
@[simp] theorem State.setMule_chans (s : State) (t : Nat) (x : MuleSt) : (s.setMule t x).chans = s.chans := rfl
@[simp] theorem State.setMule_cals (s : State) (t : Nat) (x : MuleSt) : (s.setMule t x).cals = s.cals := rfl
@[simp] theorem State.setMule_rem (s : State) (t : Nat) (x : MuleSt) : (s.setMule t x).rem = s.rem := rfl
@[simp] theorem State.setMule_colls (s : State) (t : Nat) (x : MuleSt) : (s.setMule t x).colls = s.colls := rfl
@[simp] theorem State.setMule_bwt (s : State) (t : Nat) (x : MuleSt) : (s.setMule t x).bwt = s.bwt := rfl
@[simp] theorem State.setMule_sav (s : State) (t : Nat) (x : MuleSt) : (s.setMule t x).sav = s.sav := rfl
@[simp] theorem State.setMule_drives (s : State) (t : Nat) (x : MuleSt) : (s.setMule t x).drives = s.drives := rfl
@[simp] theorem State.setMule_pwr (s : State) (t : Nat) (x : MuleSt) : (s.setMule t x).pwr = s.pwr := rfl
@[simp] theorem State.setMule_host (s : State) (t : Nat) (x : MuleSt) : (s.setMule t x).host = s.host := rfl
@[simp] theorem State.setMule_mgt (s : State) (t : Nat) (x : MuleSt) : (s.setMule t x).mgt = s.mgt := rfl
@[simp] theorem State.setMule_sd (s : State) (t : Nat) (x : MuleSt) : (s.setMule t x).sd = s.sd := rfl
@[simp] theorem State.setMule_fresh (s : State) (t : Nat) (x : MuleSt) : (s.setMule t x).fresh = s.fresh := rfl
@[simp] theorem State.setMule_out (s : State) (t : Nat) (x : MuleSt) : (s.setMule t x).out = s.out := rfl

/-! ### `State.setLanding` -/

@[simp] theorem State.setLanding_pending (s : State) (n : Nat) (x : ChanSt) : (s.setLanding n x).pending = s.pending := rfl
@[simp] theorem State.setLanding_reg (s : State) (n : Nat) (x : ChanSt) : (s.setLanding n x).reg = s.reg := rfl
@[simp] theorem State.setLanding_bar4 (s : State) (n : Nat) (x : ChanSt) : (s.setLanding n x).bar4 = s.bar4 := rfl
@[simp] theorem State.setLanding_latches (s : State) (n : Nat) (x : ChanSt) : (s.setLanding n x).latches = s.latches := rfl
@[simp] theorem State.setLanding_heldLo (s : State) (n : Nat) (x : ChanSt) : (s.setLanding n x).heldLo = s.heldLo := rfl
@[simp] theorem State.setLanding_fuses (s : State) (n : Nat) (x : ChanSt) : (s.setLanding n x).fuses = s.fuses := rfl
@[simp] theorem State.setLanding_cores (s : State) (n : Nat) (x : ChanSt) : (s.setLanding n x).cores = s.cores := rfl
@[simp] theorem State.setLanding_routes (s : State) (n : Nat) (x : ChanSt) : (s.setLanding n x).routes = s.routes := rfl
@[simp] theorem State.setLanding_sinks (s : State) (n : Nat) (x : ChanSt) : (s.setLanding n x).sinks = s.sinks := rfl
@[simp] theorem State.setLanding_eps (s : State) (n : Nat) (x : ChanSt) : (s.setLanding n x).eps = s.eps := rfl
@[simp] theorem State.setLanding_staging (s : State) (n : Nat) (x : ChanSt) : (s.setLanding n x).staging = s.staging := rfl
@[simp] theorem State.setLanding_stgEcc (s : State) (n : Nat) (x : ChanSt) : (s.setLanding n x).stgEcc = s.stgEcc := rfl
@[simp] theorem State.setLanding_regions (s : State) (n : Nat) (x : ChanSt) : (s.setLanding n x).regions = s.regions := rfl
@[simp] theorem State.setLanding_coll (s : State) (n : Nat) (x : ChanSt) : (s.setLanding n x).coll = s.coll := rfl
@[simp] theorem State.setLanding_reporter (s : State) (n : Nat) (x : ChanSt) : (s.setLanding n x).reporter = s.reporter := rfl
@[simp] theorem State.setLanding_imgA (s : State) (n : Nat) (x : ChanSt) : (s.setLanding n x).imgA = s.imgA := rfl
@[simp] theorem State.setLanding_imgB (s : State) (n : Nat) (x : ChanSt) : (s.setLanding n x).imgB = s.imgB := rfl
@[simp] theorem State.setLanding_loader (s : State) (n : Nat) (x : ChanSt) : (s.setLanding n x).loader = s.loader := rfl
@[simp] theorem State.setLanding_defPend (s : State) (n : Nat) (x : ChanSt) : (s.setLanding n x).defPend = s.defPend := rfl
@[simp] theorem State.setLanding_unloadB (s : State) (n : Nat) (x : ChanSt) : (s.setLanding n x).unloadB = s.unloadB := rfl
@[simp] theorem State.setLanding_winOpen (s : State) (n : Nat) (x : ChanSt) : (s.setLanding n x).winOpen = s.winOpen := rfl
@[simp] theorem State.setLanding_fabApplied (s : State) (n : Nat) (x : ChanSt) : (s.setLanding n x).fabApplied = s.fabApplied := rfl
@[simp] theorem State.setLanding_logical (s : State) (n : Nat) (x : ChanSt) : (s.setLanding n x).logical = s.logical := rfl
@[simp] theorem State.setLanding_mem (s : State) (n : Nat) (x : ChanSt) : (s.setLanding n x).mem = s.mem := rfl
@[simp] theorem State.setLanding_memEcc (s : State) (n : Nat) (x : ChanSt) : (s.setLanding n x).memEcc = s.memEcc := rfl
@[simp] theorem State.setLanding_stks (s : State) (n : Nat) (x : ChanSt) : (s.setLanding n x).stks = s.stks := rfl
@[simp] theorem State.setLanding_hring (s : State) (n : Nat) (x : ChanSt) : (s.setLanding n x).hring = s.hring := rfl
@[simp] theorem State.setLanding_pages (s : State) (n : Nat) (x : ChanSt) : (s.setLanding n x).pages = s.pages := rfl
@[simp] theorem State.setLanding_xbufs (s : State) (n : Nat) (x : ChanSt) : (s.setLanding n x).xbufs = s.xbufs := rfl
@[simp] theorem State.setLanding_invBusy (s : State) (n : Nat) (x : ChanSt) : (s.setLanding n x).invBusy = s.invBusy := rfl
@[simp] theorem State.setLanding_dma (s : State) (n : Nat) (x : ChanSt) : (s.setLanding n x).dma = s.dma := rfl
@[simp] theorem State.setLanding_second (s : State) (n : Nat) (x : ChanSt) : (s.setLanding n x).second = s.second := rfl
@[simp] theorem State.setLanding_fab (s : State) (n : Nat) (x : ChanSt) : (s.setLanding n x).fab = s.fab := rfl
@[simp] theorem State.setLanding_ports (s : State) (n : Nat) (x : ChanSt) : (s.setLanding n x).ports = s.ports := rfl
@[simp] theorem State.setLanding_cals (s : State) (n : Nat) (x : ChanSt) : (s.setLanding n x).cals = s.cals := rfl
@[simp] theorem State.setLanding_rem (s : State) (n : Nat) (x : ChanSt) : (s.setLanding n x).rem = s.rem := rfl
@[simp] theorem State.setLanding_colls (s : State) (n : Nat) (x : ChanSt) : (s.setLanding n x).colls = s.colls := rfl
@[simp] theorem State.setLanding_mule (s : State) (n : Nat) (x : ChanSt) : (s.setLanding n x).mule = s.mule := rfl
@[simp] theorem State.setLanding_bwt (s : State) (n : Nat) (x : ChanSt) : (s.setLanding n x).bwt = s.bwt := rfl
@[simp] theorem State.setLanding_sav (s : State) (n : Nat) (x : ChanSt) : (s.setLanding n x).sav = s.sav := rfl
@[simp] theorem State.setLanding_drives (s : State) (n : Nat) (x : ChanSt) : (s.setLanding n x).drives = s.drives := rfl
@[simp] theorem State.setLanding_pwr (s : State) (n : Nat) (x : ChanSt) : (s.setLanding n x).pwr = s.pwr := rfl
@[simp] theorem State.setLanding_host (s : State) (n : Nat) (x : ChanSt) : (s.setLanding n x).host = s.host := rfl
@[simp] theorem State.setLanding_mgt (s : State) (n : Nat) (x : ChanSt) : (s.setLanding n x).mgt = s.mgt := rfl
@[simp] theorem State.setLanding_sd (s : State) (n : Nat) (x : ChanSt) : (s.setLanding n x).sd = s.sd := rfl
@[simp] theorem State.setLanding_fresh (s : State) (n : Nat) (x : ChanSt) : (s.setLanding n x).fresh = s.fresh := rfl
@[simp] theorem State.setLanding_out (s : State) (n : Nat) (x : ChanSt) : (s.setLanding n x).out = s.out := rfl

/-! ### `State.setGroup` -/

@[simp] theorem State.setGroup_pending (s : State) (g : Nat) (x : GroupSt) : (s.setGroup g x).pending = s.pending := rfl
@[simp] theorem State.setGroup_reg (s : State) (g : Nat) (x : GroupSt) : (s.setGroup g x).reg = s.reg := rfl
@[simp] theorem State.setGroup_bar4 (s : State) (g : Nat) (x : GroupSt) : (s.setGroup g x).bar4 = s.bar4 := rfl
@[simp] theorem State.setGroup_latches (s : State) (g : Nat) (x : GroupSt) : (s.setGroup g x).latches = s.latches := rfl
@[simp] theorem State.setGroup_heldLo (s : State) (g : Nat) (x : GroupSt) : (s.setGroup g x).heldLo = s.heldLo := rfl
@[simp] theorem State.setGroup_fuses (s : State) (g : Nat) (x : GroupSt) : (s.setGroup g x).fuses = s.fuses := rfl
@[simp] theorem State.setGroup_cores (s : State) (g : Nat) (x : GroupSt) : (s.setGroup g x).cores = s.cores := rfl
@[simp] theorem State.setGroup_routes (s : State) (g : Nat) (x : GroupSt) : (s.setGroup g x).routes = s.routes := rfl
@[simp] theorem State.setGroup_sinks (s : State) (g : Nat) (x : GroupSt) : (s.setGroup g x).sinks = s.sinks := rfl
@[simp] theorem State.setGroup_eps (s : State) (g : Nat) (x : GroupSt) : (s.setGroup g x).eps = s.eps := rfl
@[simp] theorem State.setGroup_staging (s : State) (g : Nat) (x : GroupSt) : (s.setGroup g x).staging = s.staging := rfl
@[simp] theorem State.setGroup_stgEcc (s : State) (g : Nat) (x : GroupSt) : (s.setGroup g x).stgEcc = s.stgEcc := rfl
@[simp] theorem State.setGroup_regions (s : State) (g : Nat) (x : GroupSt) : (s.setGroup g x).regions = s.regions := rfl
@[simp] theorem State.setGroup_coll (s : State) (g : Nat) (x : GroupSt) : (s.setGroup g x).coll = s.coll := rfl
@[simp] theorem State.setGroup_reporter (s : State) (g : Nat) (x : GroupSt) : (s.setGroup g x).reporter = s.reporter := rfl
@[simp] theorem State.setGroup_imgA (s : State) (g : Nat) (x : GroupSt) : (s.setGroup g x).imgA = s.imgA := rfl
@[simp] theorem State.setGroup_imgB (s : State) (g : Nat) (x : GroupSt) : (s.setGroup g x).imgB = s.imgB := rfl
@[simp] theorem State.setGroup_loader (s : State) (g : Nat) (x : GroupSt) : (s.setGroup g x).loader = s.loader := rfl
@[simp] theorem State.setGroup_defPend (s : State) (g : Nat) (x : GroupSt) : (s.setGroup g x).defPend = s.defPend := rfl
@[simp] theorem State.setGroup_unloadB (s : State) (g : Nat) (x : GroupSt) : (s.setGroup g x).unloadB = s.unloadB := rfl
@[simp] theorem State.setGroup_winOpen (s : State) (g : Nat) (x : GroupSt) : (s.setGroup g x).winOpen = s.winOpen := rfl
@[simp] theorem State.setGroup_fabApplied (s : State) (g : Nat) (x : GroupSt) : (s.setGroup g x).fabApplied = s.fabApplied := rfl
@[simp] theorem State.setGroup_logical (s : State) (g : Nat) (x : GroupSt) : (s.setGroup g x).logical = s.logical := rfl
@[simp] theorem State.setGroup_mem (s : State) (g : Nat) (x : GroupSt) : (s.setGroup g x).mem = s.mem := rfl
@[simp] theorem State.setGroup_memEcc (s : State) (g : Nat) (x : GroupSt) : (s.setGroup g x).memEcc = s.memEcc := rfl
@[simp] theorem State.setGroup_stks (s : State) (g : Nat) (x : GroupSt) : (s.setGroup g x).stks = s.stks := rfl
@[simp] theorem State.setGroup_hring (s : State) (g : Nat) (x : GroupSt) : (s.setGroup g x).hring = s.hring := rfl
@[simp] theorem State.setGroup_pages (s : State) (g : Nat) (x : GroupSt) : (s.setGroup g x).pages = s.pages := rfl
@[simp] theorem State.setGroup_xbufs (s : State) (g : Nat) (x : GroupSt) : (s.setGroup g x).xbufs = s.xbufs := rfl
@[simp] theorem State.setGroup_invBusy (s : State) (g : Nat) (x : GroupSt) : (s.setGroup g x).invBusy = s.invBusy := rfl
@[simp] theorem State.setGroup_dma (s : State) (g : Nat) (x : GroupSt) : (s.setGroup g x).dma = s.dma := rfl
@[simp] theorem State.setGroup_fab (s : State) (g : Nat) (x : GroupSt) : (s.setGroup g x).fab = s.fab := rfl
@[simp] theorem State.setGroup_ports (s : State) (g : Nat) (x : GroupSt) : (s.setGroup g x).ports = s.ports := rfl
@[simp] theorem State.setGroup_chans (s : State) (g : Nat) (x : GroupSt) : (s.setGroup g x).chans = s.chans := rfl
@[simp] theorem State.setGroup_cals (s : State) (g : Nat) (x : GroupSt) : (s.setGroup g x).cals = s.cals := rfl
@[simp] theorem State.setGroup_rem (s : State) (g : Nat) (x : GroupSt) : (s.setGroup g x).rem = s.rem := rfl
@[simp] theorem State.setGroup_colls (s : State) (g : Nat) (x : GroupSt) : (s.setGroup g x).colls = s.colls := rfl
@[simp] theorem State.setGroup_mule (s : State) (g : Nat) (x : GroupSt) : (s.setGroup g x).mule = s.mule := rfl
@[simp] theorem State.setGroup_bwt (s : State) (g : Nat) (x : GroupSt) : (s.setGroup g x).bwt = s.bwt := rfl
@[simp] theorem State.setGroup_sav (s : State) (g : Nat) (x : GroupSt) : (s.setGroup g x).sav = s.sav := rfl
@[simp] theorem State.setGroup_drives (s : State) (g : Nat) (x : GroupSt) : (s.setGroup g x).drives = s.drives := rfl
@[simp] theorem State.setGroup_pwr (s : State) (g : Nat) (x : GroupSt) : (s.setGroup g x).pwr = s.pwr := rfl
@[simp] theorem State.setGroup_host (s : State) (g : Nat) (x : GroupSt) : (s.setGroup g x).host = s.host := rfl
@[simp] theorem State.setGroup_mgt (s : State) (g : Nat) (x : GroupSt) : (s.setGroup g x).mgt = s.mgt := rfl
@[simp] theorem State.setGroup_sd (s : State) (g : Nat) (x : GroupSt) : (s.setGroup g x).sd = s.sd := rfl
@[simp] theorem State.setGroup_fresh (s : State) (g : Nat) (x : GroupSt) : (s.setGroup g x).fresh = s.fresh := rfl
@[simp] theorem State.setGroup_out (s : State) (g : Nat) (x : GroupSt) : (s.setGroup g x).out = s.out := rfl

/-! ### `State.setXbuf` -/

@[simp] theorem State.setXbuf_pending (s : State) (b : XBuf) (x : XBufSt) : (s.setXbuf b x).pending = s.pending := rfl
@[simp] theorem State.setXbuf_reg (s : State) (b : XBuf) (x : XBufSt) : (s.setXbuf b x).reg = s.reg := rfl
@[simp] theorem State.setXbuf_bar4 (s : State) (b : XBuf) (x : XBufSt) : (s.setXbuf b x).bar4 = s.bar4 := rfl
@[simp] theorem State.setXbuf_latches (s : State) (b : XBuf) (x : XBufSt) : (s.setXbuf b x).latches = s.latches := rfl
@[simp] theorem State.setXbuf_heldLo (s : State) (b : XBuf) (x : XBufSt) : (s.setXbuf b x).heldLo = s.heldLo := rfl
@[simp] theorem State.setXbuf_fuses (s : State) (b : XBuf) (x : XBufSt) : (s.setXbuf b x).fuses = s.fuses := rfl
@[simp] theorem State.setXbuf_cores (s : State) (b : XBuf) (x : XBufSt) : (s.setXbuf b x).cores = s.cores := rfl
@[simp] theorem State.setXbuf_routes (s : State) (b : XBuf) (x : XBufSt) : (s.setXbuf b x).routes = s.routes := rfl
@[simp] theorem State.setXbuf_sinks (s : State) (b : XBuf) (x : XBufSt) : (s.setXbuf b x).sinks = s.sinks := rfl
@[simp] theorem State.setXbuf_eps (s : State) (b : XBuf) (x : XBufSt) : (s.setXbuf b x).eps = s.eps := rfl
@[simp] theorem State.setXbuf_staging (s : State) (b : XBuf) (x : XBufSt) : (s.setXbuf b x).staging = s.staging := rfl
@[simp] theorem State.setXbuf_stgEcc (s : State) (b : XBuf) (x : XBufSt) : (s.setXbuf b x).stgEcc = s.stgEcc := rfl
@[simp] theorem State.setXbuf_regions (s : State) (b : XBuf) (x : XBufSt) : (s.setXbuf b x).regions = s.regions := rfl
@[simp] theorem State.setXbuf_coll (s : State) (b : XBuf) (x : XBufSt) : (s.setXbuf b x).coll = s.coll := rfl
@[simp] theorem State.setXbuf_reporter (s : State) (b : XBuf) (x : XBufSt) : (s.setXbuf b x).reporter = s.reporter := rfl
@[simp] theorem State.setXbuf_imgA (s : State) (b : XBuf) (x : XBufSt) : (s.setXbuf b x).imgA = s.imgA := rfl
@[simp] theorem State.setXbuf_imgB (s : State) (b : XBuf) (x : XBufSt) : (s.setXbuf b x).imgB = s.imgB := rfl
@[simp] theorem State.setXbuf_loader (s : State) (b : XBuf) (x : XBufSt) : (s.setXbuf b x).loader = s.loader := rfl
@[simp] theorem State.setXbuf_defPend (s : State) (b : XBuf) (x : XBufSt) : (s.setXbuf b x).defPend = s.defPend := rfl
@[simp] theorem State.setXbuf_unloadB (s : State) (b : XBuf) (x : XBufSt) : (s.setXbuf b x).unloadB = s.unloadB := rfl
@[simp] theorem State.setXbuf_winOpen (s : State) (b : XBuf) (x : XBufSt) : (s.setXbuf b x).winOpen = s.winOpen := rfl
@[simp] theorem State.setXbuf_fabApplied (s : State) (b : XBuf) (x : XBufSt) : (s.setXbuf b x).fabApplied = s.fabApplied := rfl
@[simp] theorem State.setXbuf_logical (s : State) (b : XBuf) (x : XBufSt) : (s.setXbuf b x).logical = s.logical := rfl
@[simp] theorem State.setXbuf_mem (s : State) (b : XBuf) (x : XBufSt) : (s.setXbuf b x).mem = s.mem := rfl
@[simp] theorem State.setXbuf_memEcc (s : State) (b : XBuf) (x : XBufSt) : (s.setXbuf b x).memEcc = s.memEcc := rfl
@[simp] theorem State.setXbuf_stks (s : State) (b : XBuf) (x : XBufSt) : (s.setXbuf b x).stks = s.stks := rfl
@[simp] theorem State.setXbuf_hring (s : State) (b : XBuf) (x : XBufSt) : (s.setXbuf b x).hring = s.hring := rfl
@[simp] theorem State.setXbuf_pages (s : State) (b : XBuf) (x : XBufSt) : (s.setXbuf b x).pages = s.pages := rfl
@[simp] theorem State.setXbuf_invBusy (s : State) (b : XBuf) (x : XBufSt) : (s.setXbuf b x).invBusy = s.invBusy := rfl
@[simp] theorem State.setXbuf_dma (s : State) (b : XBuf) (x : XBufSt) : (s.setXbuf b x).dma = s.dma := rfl
@[simp] theorem State.setXbuf_second (s : State) (b : XBuf) (x : XBufSt) : (s.setXbuf b x).second = s.second := rfl
@[simp] theorem State.setXbuf_fab (s : State) (b : XBuf) (x : XBufSt) : (s.setXbuf b x).fab = s.fab := rfl
@[simp] theorem State.setXbuf_ports (s : State) (b : XBuf) (x : XBufSt) : (s.setXbuf b x).ports = s.ports := rfl
@[simp] theorem State.setXbuf_chans (s : State) (b : XBuf) (x : XBufSt) : (s.setXbuf b x).chans = s.chans := rfl
@[simp] theorem State.setXbuf_cals (s : State) (b : XBuf) (x : XBufSt) : (s.setXbuf b x).cals = s.cals := rfl
@[simp] theorem State.setXbuf_rem (s : State) (b : XBuf) (x : XBufSt) : (s.setXbuf b x).rem = s.rem := rfl
@[simp] theorem State.setXbuf_colls (s : State) (b : XBuf) (x : XBufSt) : (s.setXbuf b x).colls = s.colls := rfl
@[simp] theorem State.setXbuf_mule (s : State) (b : XBuf) (x : XBufSt) : (s.setXbuf b x).mule = s.mule := rfl
@[simp] theorem State.setXbuf_bwt (s : State) (b : XBuf) (x : XBufSt) : (s.setXbuf b x).bwt = s.bwt := rfl
@[simp] theorem State.setXbuf_sav (s : State) (b : XBuf) (x : XBufSt) : (s.setXbuf b x).sav = s.sav := rfl
@[simp] theorem State.setXbuf_drives (s : State) (b : XBuf) (x : XBufSt) : (s.setXbuf b x).drives = s.drives := rfl
@[simp] theorem State.setXbuf_pwr (s : State) (b : XBuf) (x : XBufSt) : (s.setXbuf b x).pwr = s.pwr := rfl
@[simp] theorem State.setXbuf_host (s : State) (b : XBuf) (x : XBufSt) : (s.setXbuf b x).host = s.host := rfl
@[simp] theorem State.setXbuf_mgt (s : State) (b : XBuf) (x : XBufSt) : (s.setXbuf b x).mgt = s.mgt := rfl
@[simp] theorem State.setXbuf_sd (s : State) (b : XBuf) (x : XBufSt) : (s.setXbuf b x).sd = s.sd := rfl
@[simp] theorem State.setXbuf_fresh (s : State) (b : XBuf) (x : XBufSt) : (s.setXbuf b x).fresh = s.fresh := rfl
@[simp] theorem State.setXbuf_out (s : State) (b : XBuf) (x : XBufSt) : (s.setXbuf b x).out = s.out := rfl

/-! ### Records after their update -/

@[simp] theorem State.core_setCore (s : State) (c : Nat) (x : CoreSt) : (s.setCore c x).core c = x := by
  simp [State.core, State.setCore]
theorem State.core_setCore_ne (s : State) (c : Nat) (x : CoreSt) {d : Nat} (h : c ≠ d) :
    (s.setCore c x).core d = s.core d := by
  simp [State.core, State.setCore, Tab.look_ins_ne _ _ _ _ h]
@[simp] theorem State.stk_setStk (s : State) (c : Nat) (x : StackSt) : (s.setStk c x).stk c = x := by
  simp [State.stk, State.setStk]
theorem State.stk_setStk_ne (s : State) (c : Nat) (x : StackSt) {d : Nat} (h : c ≠ d) :
    (s.setStk c x).stk d = s.stk d := by
  simp [State.stk, State.setStk, Tab.look_ins_ne _ _ _ _ h]
@[simp] theorem State.port_setPort (s : State) (c : Nat) (x : FabPort) : (s.setPort c x).port c = x := by
  simp [State.port, State.setPort]
theorem State.port_setPort_ne (s : State) (c : Nat) (x : FabPort) {d : Nat} (h : c ≠ d) :
    (s.setPort c x).port d = s.port d := by
  simp [State.port, State.setPort, Tab.look_ins_ne _ _ _ _ h]
@[simp] theorem State.cal_setCal (s : State) (c : Nat) (x : CalSt) : (s.setCal c x).cal c = x := by
  simp [State.cal, State.setCal]
theorem State.cal_setCal_ne (s : State) (c : Nat) (x : CalSt) {d : Nat} (h : c ≠ d) :
    (s.setCal c x).cal d = s.cal d := by
  simp [State.cal, State.setCal, Tab.look_ins_ne _ _ _ _ h]
@[simp] theorem State.chan_setChan (s : State) (c : Nat) (x : DmaCh) : (s.setChan c x).chan c = x := by
  simp [State.chan, State.setChan]
theorem State.chan_setChan_ne (s : State) (c : Nat) (x : DmaCh) {d : Nat} (h : c ≠ d) :
    (s.setChan c x).chan d = s.chan d := by
  simp [State.chan, State.setChan, Tab.look_ins_ne _ _ _ _ h]
@[simp] theorem State.drive_setDrive (s : State) (c : Nat) (x : DriveSt) : (s.setDrive c x).drive c = x := by
  simp [State.drive, State.setDrive]
theorem State.drive_setDrive_ne (s : State) (c : Nat) (x : DriveSt) {d : Nat} (h : c ≠ d) :
    (s.setDrive c x).drive d = s.drive d := by
  simp [State.drive, State.setDrive, Tab.look_ins_ne _ _ _ _ h]
@[simp] theorem State.dieColl_setDieColl (s : State) (c : Nat) (x : DieColl) : (s.setDieColl c x).dieColl c = x := by
  simp [State.dieColl, State.setDieColl]
theorem State.dieColl_setDieColl_ne (s : State) (c : Nat) (x : DieColl) {d : Nat} (h : c ≠ d) :
    (s.setDieColl c x).dieColl d = s.dieColl d := by
  simp [State.dieColl, State.setDieColl, Tab.look_ins_ne _ _ _ _ h]
@[simp] theorem State.collc_setColl (s : State) (c : Nat) (x : CollSt) : (s.setColl c x).collc c = x := by
  simp [State.collc, State.setColl]
theorem State.collc_setColl_ne (s : State) (c : Nat) (x : CollSt) {d : Nat} (h : c ≠ d) :
    (s.setColl c x).collc d = s.collc d := by
  simp [State.collc, State.setColl, Tab.look_ins_ne _ _ _ _ h]
@[simp] theorem State.muleT_setMule (s : State) (c : Nat) (x : MuleSt) : (s.setMule c x).muleT c = x := by
  simp [State.muleT, State.setMule]
theorem State.muleT_setMule_ne (s : State) (c : Nat) (x : MuleSt) {d : Nat} (h : c ≠ d) :
    (s.setMule c x).muleT d = s.muleT d := by
  simp [State.muleT, State.setMule, Tab.look_ins_ne _ _ _ _ h]
@[simp] theorem State.landing_setLanding (s : State) (c : Nat) (x : ChanSt) : (s.setLanding c x).landing c = x := by
  simp [State.landing, State.setLanding]
theorem State.landing_setLanding_ne (s : State) (c : Nat) (x : ChanSt) {d : Nat} (h : c ≠ d) :
    (s.setLanding c x).landing d = s.landing d := by
  simp [State.landing, State.setLanding, Tab.look_ins_ne _ _ _ _ h]
@[simp] theorem State.group_setGroup (s : State) (c : Nat) (x : GroupSt) : (s.setGroup c x).group c = x := by
  simp [State.group, State.setGroup]
theorem State.group_setGroup_ne (s : State) (c : Nat) (x : GroupSt) {d : Nat} (h : c ≠ d) :
    (s.setGroup c x).group d = s.group d := by
  simp [State.group, State.setGroup, Tab.look_ins_ne _ _ _ _ h]

@[simp] theorem State.core_modCore (s : State) (c : Nat) (f : CoreSt → CoreSt) :
    (s.modCore c f).core c = f (s.core c) := by simp [State.modCore]
theorem State.core_modCore_ne (s : State) (c : Nat) (f : CoreSt → CoreSt) {d : Nat} (h : c ≠ d) :
    (s.modCore c f).core d = s.core d := by simp [State.modCore, State.core_setCore_ne _ _ _ h]
@[simp] theorem State.route_setRoute (s : State) (j : JobSlot) (r : Nat) (x : RouteSt) :
    (s.setRoute j r x).route j r = x := by simp [State.route, State.setRoute]
@[simp] theorem State.ep_setEp (s : State) (j : JobSlot) (d n : Nat) (x : EpSt) :
    (s.setEp j d n x).ep j d n = x := by simp [State.ep, State.setEp]
@[simp] theorem State.sink_setSink (s : State) (j : JobSlot) (c k : Nat) (x : SinkSt) :
    (s.setSink j c k x).sink j c k = x := by simp [State.sink, State.setSink]
@[simp] theorem State.xbuf_setXbuf (s : State) (b : XBuf) (x : XBufSt) :
    (s.setXbuf b x).xbuf b = x := by simp [State.xbuf, State.setXbuf]

/-! ### A record after an update of another kind -/

@[simp] theorem State.wr_core (s : State) (o : Nat) (v : W32) (d : Nat) : (s.wr o v).core d = s.core d := rfl
@[simp] theorem State.wr_stk (s : State) (o : Nat) (v : W32) (d : Nat) : (s.wr o v).stk d = s.stk d := rfl
@[simp] theorem State.wr_port (s : State) (o : Nat) (v : W32) (d : Nat) : (s.wr o v).port d = s.port d := rfl
@[simp] theorem State.wr_cal (s : State) (o : Nat) (v : W32) (d : Nat) : (s.wr o v).cal d = s.cal d := rfl
@[simp] theorem State.wr_chan (s : State) (o : Nat) (v : W32) (d : Nat) : (s.wr o v).chan d = s.chan d := rfl
@[simp] theorem State.wr_drive (s : State) (o : Nat) (v : W32) (d : Nat) : (s.wr o v).drive d = s.drive d := rfl
@[simp] theorem State.wr_dieColl (s : State) (o : Nat) (v : W32) (d : Nat) : (s.wr o v).dieColl d = s.dieColl d := rfl
@[simp] theorem State.wr_collc (s : State) (o : Nat) (v : W32) (d : Nat) : (s.wr o v).collc d = s.collc d := rfl
@[simp] theorem State.wr_muleT (s : State) (o : Nat) (v : W32) (d : Nat) : (s.wr o v).muleT d = s.muleT d := rfl
@[simp] theorem State.wr_landing (s : State) (o : Nat) (v : W32) (d : Nat) : (s.wr o v).landing d = s.landing d := rfl
@[simp] theorem State.wr_group (s : State) (o : Nat) (v : W32) (d : Nat) : (s.wr o v).group d = s.group d := rfl
@[simp] theorem State.wr_rd4 (s : State) (o : Nat) (v : W32) (d : Func) (e : Nat) : (s.wr o v).rd4 d e = s.rd4 d e := rfl
@[simp] theorem State.setF_core (s : State) (f : Fld) (v : Nat) (d : Nat) : (s.setF f v).core d = s.core d := rfl
@[simp] theorem State.setF_stk (s : State) (f : Fld) (v : Nat) (d : Nat) : (s.setF f v).stk d = s.stk d := rfl
@[simp] theorem State.setF_port (s : State) (f : Fld) (v : Nat) (d : Nat) : (s.setF f v).port d = s.port d := rfl
@[simp] theorem State.setF_cal (s : State) (f : Fld) (v : Nat) (d : Nat) : (s.setF f v).cal d = s.cal d := rfl
@[simp] theorem State.setF_chan (s : State) (f : Fld) (v : Nat) (d : Nat) : (s.setF f v).chan d = s.chan d := rfl
@[simp] theorem State.setF_drive (s : State) (f : Fld) (v : Nat) (d : Nat) : (s.setF f v).drive d = s.drive d := rfl
@[simp] theorem State.setF_dieColl (s : State) (f : Fld) (v : Nat) (d : Nat) : (s.setF f v).dieColl d = s.dieColl d := rfl
@[simp] theorem State.setF_collc (s : State) (f : Fld) (v : Nat) (d : Nat) : (s.setF f v).collc d = s.collc d := rfl
@[simp] theorem State.setF_muleT (s : State) (f : Fld) (v : Nat) (d : Nat) : (s.setF f v).muleT d = s.muleT d := rfl
@[simp] theorem State.setF_landing (s : State) (f : Fld) (v : Nat) (d : Nat) : (s.setF f v).landing d = s.landing d := rfl
@[simp] theorem State.setF_group (s : State) (f : Fld) (v : Nat) (d : Nat) : (s.setF f v).group d = s.group d := rfl
@[simp] theorem State.setF_rd4 (s : State) (f : Fld) (v : Nat) (d : Func) (e : Nat) : (s.setF f v).rd4 d e = s.rd4 d e := rfl
@[simp] theorem State.setB_core (s : State) (f : Fld) (b : Bool) (d : Nat) : (s.setB f b).core d = s.core d := rfl
@[simp] theorem State.setB_stk (s : State) (f : Fld) (b : Bool) (d : Nat) : (s.setB f b).stk d = s.stk d := rfl
@[simp] theorem State.setB_port (s : State) (f : Fld) (b : Bool) (d : Nat) : (s.setB f b).port d = s.port d := rfl
@[simp] theorem State.setB_cal (s : State) (f : Fld) (b : Bool) (d : Nat) : (s.setB f b).cal d = s.cal d := rfl
@[simp] theorem State.setB_chan (s : State) (f : Fld) (b : Bool) (d : Nat) : (s.setB f b).chan d = s.chan d := rfl
@[simp] theorem State.setB_drive (s : State) (f : Fld) (b : Bool) (d : Nat) : (s.setB f b).drive d = s.drive d := rfl
@[simp] theorem State.setB_dieColl (s : State) (f : Fld) (b : Bool) (d : Nat) : (s.setB f b).dieColl d = s.dieColl d := rfl
@[simp] theorem State.setB_collc (s : State) (f : Fld) (b : Bool) (d : Nat) : (s.setB f b).collc d = s.collc d := rfl
@[simp] theorem State.setB_muleT (s : State) (f : Fld) (b : Bool) (d : Nat) : (s.setB f b).muleT d = s.muleT d := rfl
@[simp] theorem State.setB_landing (s : State) (f : Fld) (b : Bool) (d : Nat) : (s.setB f b).landing d = s.landing d := rfl
@[simp] theorem State.setB_group (s : State) (f : Fld) (b : Bool) (d : Nat) : (s.setB f b).group d = s.group d := rfl
@[simp] theorem State.setB_rd4 (s : State) (f : Fld) (b : Bool) (d : Func) (e : Nat) : (s.setB f b).rd4 d e = s.rd4 d e := rfl
@[simp] theorem State.bumpF_core (s : State) (f : Fld) (n : Nat) (d : Nat) : (s.bumpF f n).core d = s.core d := rfl
@[simp] theorem State.bumpF_stk (s : State) (f : Fld) (n : Nat) (d : Nat) : (s.bumpF f n).stk d = s.stk d := rfl
@[simp] theorem State.bumpF_port (s : State) (f : Fld) (n : Nat) (d : Nat) : (s.bumpF f n).port d = s.port d := rfl
@[simp] theorem State.bumpF_cal (s : State) (f : Fld) (n : Nat) (d : Nat) : (s.bumpF f n).cal d = s.cal d := rfl
@[simp] theorem State.bumpF_chan (s : State) (f : Fld) (n : Nat) (d : Nat) : (s.bumpF f n).chan d = s.chan d := rfl
@[simp] theorem State.bumpF_drive (s : State) (f : Fld) (n : Nat) (d : Nat) : (s.bumpF f n).drive d = s.drive d := rfl
@[simp] theorem State.bumpF_dieColl (s : State) (f : Fld) (n : Nat) (d : Nat) : (s.bumpF f n).dieColl d = s.dieColl d := rfl
@[simp] theorem State.bumpF_collc (s : State) (f : Fld) (n : Nat) (d : Nat) : (s.bumpF f n).collc d = s.collc d := rfl
@[simp] theorem State.bumpF_muleT (s : State) (f : Fld) (n : Nat) (d : Nat) : (s.bumpF f n).muleT d = s.muleT d := rfl
@[simp] theorem State.bumpF_landing (s : State) (f : Fld) (n : Nat) (d : Nat) : (s.bumpF f n).landing d = s.landing d := rfl
@[simp] theorem State.bumpF_group (s : State) (f : Fld) (n : Nat) (d : Nat) : (s.bumpF f n).group d = s.group d := rfl
@[simp] theorem State.bumpF_rd4 (s : State) (f : Fld) (n : Nat) (d : Func) (e : Nat) : (s.bumpF f n).rd4 d e = s.rd4 d e := rfl
@[simp] theorem State.bump_core (s : State) (o n : Nat) (d : Nat) : (s.bump o n).core d = s.core d := rfl
@[simp] theorem State.bump_stk (s : State) (o n : Nat) (d : Nat) : (s.bump o n).stk d = s.stk d := rfl
@[simp] theorem State.bump_port (s : State) (o n : Nat) (d : Nat) : (s.bump o n).port d = s.port d := rfl
@[simp] theorem State.bump_cal (s : State) (o n : Nat) (d : Nat) : (s.bump o n).cal d = s.cal d := rfl
@[simp] theorem State.bump_chan (s : State) (o n : Nat) (d : Nat) : (s.bump o n).chan d = s.chan d := rfl
@[simp] theorem State.bump_drive (s : State) (o n : Nat) (d : Nat) : (s.bump o n).drive d = s.drive d := rfl
@[simp] theorem State.bump_dieColl (s : State) (o n : Nat) (d : Nat) : (s.bump o n).dieColl d = s.dieColl d := rfl
@[simp] theorem State.bump_collc (s : State) (o n : Nat) (d : Nat) : (s.bump o n).collc d = s.collc d := rfl
@[simp] theorem State.bump_muleT (s : State) (o n : Nat) (d : Nat) : (s.bump o n).muleT d = s.muleT d := rfl
@[simp] theorem State.bump_landing (s : State) (o n : Nat) (d : Nat) : (s.bump o n).landing d = s.landing d := rfl
@[simp] theorem State.bump_group (s : State) (o n : Nat) (d : Nat) : (s.bump o n).group d = s.group d := rfl
@[simp] theorem State.bump_rd4 (s : State) (o n : Nat) (d : Func) (e : Nat) : (s.bump o n).rd4 d e = s.rd4 d e := rfl
@[simp] theorem State.store_core (s : State) (o : Nat) (v : W32) (d : Nat) : (s.store o v).core d = s.core d := rfl
@[simp] theorem State.store_stk (s : State) (o : Nat) (v : W32) (d : Nat) : (s.store o v).stk d = s.stk d := rfl
@[simp] theorem State.store_port (s : State) (o : Nat) (v : W32) (d : Nat) : (s.store o v).port d = s.port d := rfl
@[simp] theorem State.store_cal (s : State) (o : Nat) (v : W32) (d : Nat) : (s.store o v).cal d = s.cal d := rfl
@[simp] theorem State.store_chan (s : State) (o : Nat) (v : W32) (d : Nat) : (s.store o v).chan d = s.chan d := rfl
@[simp] theorem State.store_drive (s : State) (o : Nat) (v : W32) (d : Nat) : (s.store o v).drive d = s.drive d := rfl
@[simp] theorem State.store_dieColl (s : State) (o : Nat) (v : W32) (d : Nat) : (s.store o v).dieColl d = s.dieColl d := rfl
@[simp] theorem State.store_collc (s : State) (o : Nat) (v : W32) (d : Nat) : (s.store o v).collc d = s.collc d := rfl
@[simp] theorem State.store_muleT (s : State) (o : Nat) (v : W32) (d : Nat) : (s.store o v).muleT d = s.muleT d := rfl
@[simp] theorem State.store_landing (s : State) (o : Nat) (v : W32) (d : Nat) : (s.store o v).landing d = s.landing d := rfl
@[simp] theorem State.store_group (s : State) (o : Nat) (v : W32) (d : Nat) : (s.store o v).group d = s.group d := rfl
@[simp] theorem State.store_rd4 (s : State) (o : Nat) (v : W32) (d : Func) (e : Nat) : (s.store o v).rd4 d e = s.rd4 d e := rfl
@[simp] theorem State.wr64_core (s : State) (o : Nat) (v : W64) (d : Nat) : (s.wr64 o v).core d = s.core d := rfl
@[simp] theorem State.wr64_stk (s : State) (o : Nat) (v : W64) (d : Nat) : (s.wr64 o v).stk d = s.stk d := rfl
@[simp] theorem State.wr64_port (s : State) (o : Nat) (v : W64) (d : Nat) : (s.wr64 o v).port d = s.port d := rfl
@[simp] theorem State.wr64_cal (s : State) (o : Nat) (v : W64) (d : Nat) : (s.wr64 o v).cal d = s.cal d := rfl
@[simp] theorem State.wr64_chan (s : State) (o : Nat) (v : W64) (d : Nat) : (s.wr64 o v).chan d = s.chan d := rfl
@[simp] theorem State.wr64_drive (s : State) (o : Nat) (v : W64) (d : Nat) : (s.wr64 o v).drive d = s.drive d := rfl
@[simp] theorem State.wr64_dieColl (s : State) (o : Nat) (v : W64) (d : Nat) : (s.wr64 o v).dieColl d = s.dieColl d := rfl
@[simp] theorem State.wr64_collc (s : State) (o : Nat) (v : W64) (d : Nat) : (s.wr64 o v).collc d = s.collc d := rfl
@[simp] theorem State.wr64_muleT (s : State) (o : Nat) (v : W64) (d : Nat) : (s.wr64 o v).muleT d = s.muleT d := rfl
@[simp] theorem State.wr64_landing (s : State) (o : Nat) (v : W64) (d : Nat) : (s.wr64 o v).landing d = s.landing d := rfl
@[simp] theorem State.wr64_group (s : State) (o : Nat) (v : W64) (d : Nat) : (s.wr64 o v).group d = s.group d := rfl
@[simp] theorem State.wr64_rd4 (s : State) (o : Nat) (v : W64) (d : Func) (e : Nat) : (s.wr64 o v).rd4 d e = s.rd4 d e := rfl
@[simp] theorem State.wr4_core (s : State) (fn : Func) (o : Nat) (v : W32) (d : Nat) : (s.wr4 fn o v).core d = s.core d := by cases s; rfl
@[simp] theorem State.wr4_stk (s : State) (fn : Func) (o : Nat) (v : W32) (d : Nat) : (s.wr4 fn o v).stk d = s.stk d := by cases s; rfl
@[simp] theorem State.wr4_port (s : State) (fn : Func) (o : Nat) (v : W32) (d : Nat) : (s.wr4 fn o v).port d = s.port d := by cases s; rfl
@[simp] theorem State.wr4_cal (s : State) (fn : Func) (o : Nat) (v : W32) (d : Nat) : (s.wr4 fn o v).cal d = s.cal d := by cases s; rfl
@[simp] theorem State.wr4_chan (s : State) (fn : Func) (o : Nat) (v : W32) (d : Nat) : (s.wr4 fn o v).chan d = s.chan d := by cases s; rfl
@[simp] theorem State.wr4_drive (s : State) (fn : Func) (o : Nat) (v : W32) (d : Nat) : (s.wr4 fn o v).drive d = s.drive d := by cases s; rfl
@[simp] theorem State.wr4_dieColl (s : State) (fn : Func) (o : Nat) (v : W32) (d : Nat) : (s.wr4 fn o v).dieColl d = s.dieColl d := by cases s; rfl
@[simp] theorem State.wr4_collc (s : State) (fn : Func) (o : Nat) (v : W32) (d : Nat) : (s.wr4 fn o v).collc d = s.collc d := by cases s; rfl
@[simp] theorem State.wr4_muleT (s : State) (fn : Func) (o : Nat) (v : W32) (d : Nat) : (s.wr4 fn o v).muleT d = s.muleT d := by cases s; rfl
@[simp] theorem State.wr4_landing (s : State) (fn : Func) (o : Nat) (v : W32) (d : Nat) : (s.wr4 fn o v).landing d = s.landing d := by cases s; rfl
@[simp] theorem State.wr4_group (s : State) (fn : Func) (o : Nat) (v : W32) (d : Nat) : (s.wr4 fn o v).group d = s.group d := by cases s; rfl
@[simp] theorem State.wr4_rd (s : State) (fn : Func) (o : Nat) (v : W32) (d : Nat) : (s.wr4 fn o v).rd d = s.rd d := by cases s; rfl
@[simp] theorem State.wr4_rd64 (s : State) (fn : Func) (o : Nat) (v : W32) (d : Nat) : (s.wr4 fn o v).rd64 d = s.rd64 d := by cases s; rfl
@[simp] theorem State.wr4_getF (s : State) (fn : Func) (o : Nat) (v : W32) (d : Fld) : (s.wr4 fn o v).getF d = s.getF d := by
  simp only [State.getF, State.wr4_rd]
@[simp] theorem State.wr4_bitF (s : State) (fn : Func) (o : Nat) (v : W32) (d : Fld) : (s.wr4 fn o v).bitF d = s.bitF d := by
  simp only [State.bitF, State.wr4_getF]
@[simp] theorem State.emit_core (s : State) (m : Out) (d : Nat) : (s.emit m).core d = s.core d := rfl
@[simp] theorem State.emit_stk (s : State) (m : Out) (d : Nat) : (s.emit m).stk d = s.stk d := rfl
@[simp] theorem State.emit_port (s : State) (m : Out) (d : Nat) : (s.emit m).port d = s.port d := rfl
@[simp] theorem State.emit_cal (s : State) (m : Out) (d : Nat) : (s.emit m).cal d = s.cal d := rfl
@[simp] theorem State.emit_chan (s : State) (m : Out) (d : Nat) : (s.emit m).chan d = s.chan d := rfl
@[simp] theorem State.emit_drive (s : State) (m : Out) (d : Nat) : (s.emit m).drive d = s.drive d := rfl
@[simp] theorem State.emit_dieColl (s : State) (m : Out) (d : Nat) : (s.emit m).dieColl d = s.dieColl d := rfl
@[simp] theorem State.emit_collc (s : State) (m : Out) (d : Nat) : (s.emit m).collc d = s.collc d := rfl
@[simp] theorem State.emit_muleT (s : State) (m : Out) (d : Nat) : (s.emit m).muleT d = s.muleT d := rfl
@[simp] theorem State.emit_landing (s : State) (m : Out) (d : Nat) : (s.emit m).landing d = s.landing d := rfl
@[simp] theorem State.emit_group (s : State) (m : Out) (d : Nat) : (s.emit m).group d = s.group d := rfl
@[simp] theorem State.emit_rd (s : State) (m : Out) (d : Nat) : (s.emit m).rd d = s.rd d := rfl
@[simp] theorem State.emit_rd64 (s : State) (m : Out) (d : Nat) : (s.emit m).rd64 d = s.rd64 d := rfl
@[simp] theorem State.emit_getF (s : State) (m : Out) (d : Fld) : (s.emit m).getF d = s.getF d := by
  simp only [State.getF, State.emit_rd]
@[simp] theorem State.emit_bitF (s : State) (m : Out) (d : Fld) : (s.emit m).bitF d = s.bitF d := by
  simp only [State.bitF, State.emit_getF]
@[simp] theorem State.emit_rd4 (s : State) (m : Out) (d : Func) (e : Nat) : (s.emit m).rd4 d e = s.rd4 d e := rfl
@[simp] theorem State.setIncomp_core (s : State) (d : Nat) : (s.setIncomp).core d = s.core d := rfl
@[simp] theorem State.setIncomp_stk (s : State) (d : Nat) : (s.setIncomp).stk d = s.stk d := rfl
@[simp] theorem State.setIncomp_port (s : State) (d : Nat) : (s.setIncomp).port d = s.port d := rfl
@[simp] theorem State.setIncomp_cal (s : State) (d : Nat) : (s.setIncomp).cal d = s.cal d := rfl
@[simp] theorem State.setIncomp_chan (s : State) (d : Nat) : (s.setIncomp).chan d = s.chan d := rfl
@[simp] theorem State.setIncomp_drive (s : State) (d : Nat) : (s.setIncomp).drive d = s.drive d := rfl
@[simp] theorem State.setIncomp_dieColl (s : State) (d : Nat) : (s.setIncomp).dieColl d = s.dieColl d := rfl
@[simp] theorem State.setIncomp_collc (s : State) (d : Nat) : (s.setIncomp).collc d = s.collc d := rfl
@[simp] theorem State.setIncomp_muleT (s : State) (d : Nat) : (s.setIncomp).muleT d = s.muleT d := rfl
@[simp] theorem State.setIncomp_landing (s : State) (d : Nat) : (s.setIncomp).landing d = s.landing d := rfl
@[simp] theorem State.setIncomp_group (s : State) (d : Nat) : (s.setIncomp).group d = s.group d := rfl
@[simp] theorem State.setIncomp_rd (s : State) (d : Nat) : (s.setIncomp).rd d = s.rd d := rfl
@[simp] theorem State.setIncomp_rd64 (s : State) (d : Nat) : (s.setIncomp).rd64 d = s.rd64 d := rfl
@[simp] theorem State.setIncomp_getF (s : State) (d : Fld) : (s.setIncomp).getF d = s.getF d := by
  simp only [State.getF, State.setIncomp_rd]
@[simp] theorem State.setIncomp_bitF (s : State) (d : Fld) : (s.setIncomp).bitF d = s.bitF d := by
  simp only [State.bitF, State.setIncomp_getF]
@[simp] theorem State.setIncomp_rd4 (s : State) (d : Func) (e : Nat) : (s.setIncomp).rd4 d e = s.rd4 d e := rfl
@[simp] theorem State.setCore_stk (s : State) (c : Nat) (x : CoreSt) (d : Nat) : (s.setCore c x).stk d = s.stk d := rfl
@[simp] theorem State.setCore_port (s : State) (c : Nat) (x : CoreSt) (d : Nat) : (s.setCore c x).port d = s.port d := rfl
@[simp] theorem State.setCore_cal (s : State) (c : Nat) (x : CoreSt) (d : Nat) : (s.setCore c x).cal d = s.cal d := rfl
@[simp] theorem State.setCore_chan (s : State) (c : Nat) (x : CoreSt) (d : Nat) : (s.setCore c x).chan d = s.chan d := rfl
@[simp] theorem State.setCore_drive (s : State) (c : Nat) (x : CoreSt) (d : Nat) : (s.setCore c x).drive d = s.drive d := rfl
@[simp] theorem State.setCore_dieColl (s : State) (c : Nat) (x : CoreSt) (d : Nat) : (s.setCore c x).dieColl d = s.dieColl d := rfl
@[simp] theorem State.setCore_collc (s : State) (c : Nat) (x : CoreSt) (d : Nat) : (s.setCore c x).collc d = s.collc d := rfl
@[simp] theorem State.setCore_muleT (s : State) (c : Nat) (x : CoreSt) (d : Nat) : (s.setCore c x).muleT d = s.muleT d := rfl
@[simp] theorem State.setCore_landing (s : State) (c : Nat) (x : CoreSt) (d : Nat) : (s.setCore c x).landing d = s.landing d := rfl
@[simp] theorem State.setCore_group (s : State) (c : Nat) (x : CoreSt) (d : Nat) : (s.setCore c x).group d = s.group d := rfl
@[simp] theorem State.setCore_rd (s : State) (c : Nat) (x : CoreSt) (d : Nat) : (s.setCore c x).rd d = s.rd d := rfl
@[simp] theorem State.setCore_rd64 (s : State) (c : Nat) (x : CoreSt) (d : Nat) : (s.setCore c x).rd64 d = s.rd64 d := rfl
@[simp] theorem State.setCore_getF (s : State) (c : Nat) (x : CoreSt) (d : Fld) : (s.setCore c x).getF d = s.getF d := by
  simp only [State.getF, State.setCore_rd]
@[simp] theorem State.setCore_bitF (s : State) (c : Nat) (x : CoreSt) (d : Fld) : (s.setCore c x).bitF d = s.bitF d := by
  simp only [State.bitF, State.setCore_getF]
@[simp] theorem State.setCore_rd4 (s : State) (c : Nat) (x : CoreSt) (d : Func) (e : Nat) : (s.setCore c x).rd4 d e = s.rd4 d e := rfl
@[simp] theorem State.modCore_stk (s : State) (c : Nat) (f : CoreSt → CoreSt) (d : Nat) : (s.modCore c f).stk d = s.stk d := rfl
@[simp] theorem State.modCore_port (s : State) (c : Nat) (f : CoreSt → CoreSt) (d : Nat) : (s.modCore c f).port d = s.port d := rfl
@[simp] theorem State.modCore_cal (s : State) (c : Nat) (f : CoreSt → CoreSt) (d : Nat) : (s.modCore c f).cal d = s.cal d := rfl
@[simp] theorem State.modCore_chan (s : State) (c : Nat) (f : CoreSt → CoreSt) (d : Nat) : (s.modCore c f).chan d = s.chan d := rfl
@[simp] theorem State.modCore_drive (s : State) (c : Nat) (f : CoreSt → CoreSt) (d : Nat) : (s.modCore c f).drive d = s.drive d := rfl
@[simp] theorem State.modCore_dieColl (s : State) (c : Nat) (f : CoreSt → CoreSt) (d : Nat) : (s.modCore c f).dieColl d = s.dieColl d := rfl
@[simp] theorem State.modCore_collc (s : State) (c : Nat) (f : CoreSt → CoreSt) (d : Nat) : (s.modCore c f).collc d = s.collc d := rfl
@[simp] theorem State.modCore_muleT (s : State) (c : Nat) (f : CoreSt → CoreSt) (d : Nat) : (s.modCore c f).muleT d = s.muleT d := rfl
@[simp] theorem State.modCore_landing (s : State) (c : Nat) (f : CoreSt → CoreSt) (d : Nat) : (s.modCore c f).landing d = s.landing d := rfl
@[simp] theorem State.modCore_group (s : State) (c : Nat) (f : CoreSt → CoreSt) (d : Nat) : (s.modCore c f).group d = s.group d := rfl
@[simp] theorem State.modCore_rd (s : State) (c : Nat) (f : CoreSt → CoreSt) (d : Nat) : (s.modCore c f).rd d = s.rd d := rfl
@[simp] theorem State.modCore_rd64 (s : State) (c : Nat) (f : CoreSt → CoreSt) (d : Nat) : (s.modCore c f).rd64 d = s.rd64 d := rfl
@[simp] theorem State.modCore_getF (s : State) (c : Nat) (f : CoreSt → CoreSt) (d : Fld) : (s.modCore c f).getF d = s.getF d := by
  simp only [State.getF, State.modCore_rd]
@[simp] theorem State.modCore_bitF (s : State) (c : Nat) (f : CoreSt → CoreSt) (d : Fld) : (s.modCore c f).bitF d = s.bitF d := by
  simp only [State.bitF, State.modCore_getF]
@[simp] theorem State.modCore_rd4 (s : State) (c : Nat) (f : CoreSt → CoreSt) (d : Func) (e : Nat) : (s.modCore c f).rd4 d e = s.rd4 d e := rfl
@[simp] theorem State.setStk_core (s : State) (d' : Nat) (x : StackSt) (d : Nat) : (s.setStk d' x).core d = s.core d := rfl
@[simp] theorem State.setStk_port (s : State) (d' : Nat) (x : StackSt) (d : Nat) : (s.setStk d' x).port d = s.port d := rfl
@[simp] theorem State.setStk_cal (s : State) (d' : Nat) (x : StackSt) (d : Nat) : (s.setStk d' x).cal d = s.cal d := rfl
@[simp] theorem State.setStk_chan (s : State) (d' : Nat) (x : StackSt) (d : Nat) : (s.setStk d' x).chan d = s.chan d := rfl
@[simp] theorem State.setStk_drive (s : State) (d' : Nat) (x : StackSt) (d : Nat) : (s.setStk d' x).drive d = s.drive d := rfl
@[simp] theorem State.setStk_dieColl (s : State) (d' : Nat) (x : StackSt) (d : Nat) : (s.setStk d' x).dieColl d = s.dieColl d := rfl
@[simp] theorem State.setStk_collc (s : State) (d' : Nat) (x : StackSt) (d : Nat) : (s.setStk d' x).collc d = s.collc d := rfl
@[simp] theorem State.setStk_muleT (s : State) (d' : Nat) (x : StackSt) (d : Nat) : (s.setStk d' x).muleT d = s.muleT d := rfl
@[simp] theorem State.setStk_landing (s : State) (d' : Nat) (x : StackSt) (d : Nat) : (s.setStk d' x).landing d = s.landing d := rfl
@[simp] theorem State.setStk_group (s : State) (d' : Nat) (x : StackSt) (d : Nat) : (s.setStk d' x).group d = s.group d := rfl
@[simp] theorem State.setStk_rd (s : State) (d' : Nat) (x : StackSt) (d : Nat) : (s.setStk d' x).rd d = s.rd d := rfl
@[simp] theorem State.setStk_rd64 (s : State) (d' : Nat) (x : StackSt) (d : Nat) : (s.setStk d' x).rd64 d = s.rd64 d := rfl
@[simp] theorem State.setStk_getF (s : State) (d' : Nat) (x : StackSt) (d : Fld) : (s.setStk d' x).getF d = s.getF d := by
  simp only [State.getF, State.setStk_rd]
@[simp] theorem State.setStk_bitF (s : State) (d' : Nat) (x : StackSt) (d : Fld) : (s.setStk d' x).bitF d = s.bitF d := by
  simp only [State.bitF, State.setStk_getF]
@[simp] theorem State.setStk_rd4 (s : State) (d' : Nat) (x : StackSt) (d : Func) (e : Nat) : (s.setStk d' x).rd4 d e = s.rd4 d e := rfl
@[simp] theorem State.setPort_core (s : State) (p : Nat) (x : FabPort) (d : Nat) : (s.setPort p x).core d = s.core d := rfl
@[simp] theorem State.setPort_stk (s : State) (p : Nat) (x : FabPort) (d : Nat) : (s.setPort p x).stk d = s.stk d := rfl
@[simp] theorem State.setPort_cal (s : State) (p : Nat) (x : FabPort) (d : Nat) : (s.setPort p x).cal d = s.cal d := rfl
@[simp] theorem State.setPort_chan (s : State) (p : Nat) (x : FabPort) (d : Nat) : (s.setPort p x).chan d = s.chan d := rfl
@[simp] theorem State.setPort_drive (s : State) (p : Nat) (x : FabPort) (d : Nat) : (s.setPort p x).drive d = s.drive d := rfl
@[simp] theorem State.setPort_dieColl (s : State) (p : Nat) (x : FabPort) (d : Nat) : (s.setPort p x).dieColl d = s.dieColl d := rfl
@[simp] theorem State.setPort_collc (s : State) (p : Nat) (x : FabPort) (d : Nat) : (s.setPort p x).collc d = s.collc d := rfl
@[simp] theorem State.setPort_muleT (s : State) (p : Nat) (x : FabPort) (d : Nat) : (s.setPort p x).muleT d = s.muleT d := rfl
@[simp] theorem State.setPort_landing (s : State) (p : Nat) (x : FabPort) (d : Nat) : (s.setPort p x).landing d = s.landing d := rfl
@[simp] theorem State.setPort_group (s : State) (p : Nat) (x : FabPort) (d : Nat) : (s.setPort p x).group d = s.group d := rfl
@[simp] theorem State.setPort_rd (s : State) (p : Nat) (x : FabPort) (d : Nat) : (s.setPort p x).rd d = s.rd d := rfl
@[simp] theorem State.setPort_rd64 (s : State) (p : Nat) (x : FabPort) (d : Nat) : (s.setPort p x).rd64 d = s.rd64 d := rfl
@[simp] theorem State.setPort_getF (s : State) (p : Nat) (x : FabPort) (d : Fld) : (s.setPort p x).getF d = s.getF d := by
  simp only [State.getF, State.setPort_rd]
@[simp] theorem State.setPort_bitF (s : State) (p : Nat) (x : FabPort) (d : Fld) : (s.setPort p x).bitF d = s.bitF d := by
  simp only [State.bitF, State.setPort_getF]
@[simp] theorem State.setPort_rd4 (s : State) (p : Nat) (x : FabPort) (d : Func) (e : Nat) : (s.setPort p x).rd4 d e = s.rd4 d e := rfl
@[simp] theorem State.setCal_core (s : State) (n : Nat) (x : CalSt) (d : Nat) : (s.setCal n x).core d = s.core d := rfl
@[simp] theorem State.setCal_stk (s : State) (n : Nat) (x : CalSt) (d : Nat) : (s.setCal n x).stk d = s.stk d := rfl
@[simp] theorem State.setCal_port (s : State) (n : Nat) (x : CalSt) (d : Nat) : (s.setCal n x).port d = s.port d := rfl
@[simp] theorem State.setCal_chan (s : State) (n : Nat) (x : CalSt) (d : Nat) : (s.setCal n x).chan d = s.chan d := rfl
@[simp] theorem State.setCal_drive (s : State) (n : Nat) (x : CalSt) (d : Nat) : (s.setCal n x).drive d = s.drive d := rfl
@[simp] theorem State.setCal_dieColl (s : State) (n : Nat) (x : CalSt) (d : Nat) : (s.setCal n x).dieColl d = s.dieColl d := rfl
@[simp] theorem State.setCal_collc (s : State) (n : Nat) (x : CalSt) (d : Nat) : (s.setCal n x).collc d = s.collc d := rfl
@[simp] theorem State.setCal_muleT (s : State) (n : Nat) (x : CalSt) (d : Nat) : (s.setCal n x).muleT d = s.muleT d := rfl
@[simp] theorem State.setCal_landing (s : State) (n : Nat) (x : CalSt) (d : Nat) : (s.setCal n x).landing d = s.landing d := rfl
@[simp] theorem State.setCal_group (s : State) (n : Nat) (x : CalSt) (d : Nat) : (s.setCal n x).group d = s.group d := rfl
@[simp] theorem State.setCal_rd (s : State) (n : Nat) (x : CalSt) (d : Nat) : (s.setCal n x).rd d = s.rd d := rfl
@[simp] theorem State.setCal_rd64 (s : State) (n : Nat) (x : CalSt) (d : Nat) : (s.setCal n x).rd64 d = s.rd64 d := rfl
@[simp] theorem State.setCal_getF (s : State) (n : Nat) (x : CalSt) (d : Fld) : (s.setCal n x).getF d = s.getF d := by
  simp only [State.getF, State.setCal_rd]
@[simp] theorem State.setCal_bitF (s : State) (n : Nat) (x : CalSt) (d : Fld) : (s.setCal n x).bitF d = s.bitF d := by
  simp only [State.bitF, State.setCal_getF]
@[simp] theorem State.setCal_rd4 (s : State) (n : Nat) (x : CalSt) (d : Func) (e : Nat) : (s.setCal n x).rd4 d e = s.rd4 d e := rfl
@[simp] theorem State.setChan_core (s : State) (n : Nat) (x : DmaCh) (d : Nat) : (s.setChan n x).core d = s.core d := rfl
@[simp] theorem State.setChan_stk (s : State) (n : Nat) (x : DmaCh) (d : Nat) : (s.setChan n x).stk d = s.stk d := rfl
@[simp] theorem State.setChan_port (s : State) (n : Nat) (x : DmaCh) (d : Nat) : (s.setChan n x).port d = s.port d := rfl
@[simp] theorem State.setChan_cal (s : State) (n : Nat) (x : DmaCh) (d : Nat) : (s.setChan n x).cal d = s.cal d := rfl
@[simp] theorem State.setChan_drive (s : State) (n : Nat) (x : DmaCh) (d : Nat) : (s.setChan n x).drive d = s.drive d := rfl
@[simp] theorem State.setChan_dieColl (s : State) (n : Nat) (x : DmaCh) (d : Nat) : (s.setChan n x).dieColl d = s.dieColl d := rfl
@[simp] theorem State.setChan_collc (s : State) (n : Nat) (x : DmaCh) (d : Nat) : (s.setChan n x).collc d = s.collc d := rfl
@[simp] theorem State.setChan_muleT (s : State) (n : Nat) (x : DmaCh) (d : Nat) : (s.setChan n x).muleT d = s.muleT d := rfl
@[simp] theorem State.setChan_landing (s : State) (n : Nat) (x : DmaCh) (d : Nat) : (s.setChan n x).landing d = s.landing d := rfl
@[simp] theorem State.setChan_group (s : State) (n : Nat) (x : DmaCh) (d : Nat) : (s.setChan n x).group d = s.group d := rfl
@[simp] theorem State.setChan_rd (s : State) (n : Nat) (x : DmaCh) (d : Nat) : (s.setChan n x).rd d = s.rd d := rfl
@[simp] theorem State.setChan_rd64 (s : State) (n : Nat) (x : DmaCh) (d : Nat) : (s.setChan n x).rd64 d = s.rd64 d := rfl
@[simp] theorem State.setChan_getF (s : State) (n : Nat) (x : DmaCh) (d : Fld) : (s.setChan n x).getF d = s.getF d := by
  simp only [State.getF, State.setChan_rd]
@[simp] theorem State.setChan_bitF (s : State) (n : Nat) (x : DmaCh) (d : Fld) : (s.setChan n x).bitF d = s.bitF d := by
  simp only [State.bitF, State.setChan_getF]
@[simp] theorem State.setChan_rd4 (s : State) (n : Nat) (x : DmaCh) (d : Func) (e : Nat) : (s.setChan n x).rd4 d e = s.rd4 d e := rfl
@[simp] theorem State.setDrive_core (s : State) (n : Nat) (x : DriveSt) (d : Nat) : (s.setDrive n x).core d = s.core d := rfl
@[simp] theorem State.setDrive_stk (s : State) (n : Nat) (x : DriveSt) (d : Nat) : (s.setDrive n x).stk d = s.stk d := rfl
@[simp] theorem State.setDrive_port (s : State) (n : Nat) (x : DriveSt) (d : Nat) : (s.setDrive n x).port d = s.port d := rfl
@[simp] theorem State.setDrive_cal (s : State) (n : Nat) (x : DriveSt) (d : Nat) : (s.setDrive n x).cal d = s.cal d := rfl
@[simp] theorem State.setDrive_chan (s : State) (n : Nat) (x : DriveSt) (d : Nat) : (s.setDrive n x).chan d = s.chan d := rfl
@[simp] theorem State.setDrive_dieColl (s : State) (n : Nat) (x : DriveSt) (d : Nat) : (s.setDrive n x).dieColl d = s.dieColl d := rfl
@[simp] theorem State.setDrive_collc (s : State) (n : Nat) (x : DriveSt) (d : Nat) : (s.setDrive n x).collc d = s.collc d := rfl
@[simp] theorem State.setDrive_muleT (s : State) (n : Nat) (x : DriveSt) (d : Nat) : (s.setDrive n x).muleT d = s.muleT d := rfl
@[simp] theorem State.setDrive_landing (s : State) (n : Nat) (x : DriveSt) (d : Nat) : (s.setDrive n x).landing d = s.landing d := rfl
@[simp] theorem State.setDrive_group (s : State) (n : Nat) (x : DriveSt) (d : Nat) : (s.setDrive n x).group d = s.group d := rfl
@[simp] theorem State.setDrive_rd (s : State) (n : Nat) (x : DriveSt) (d : Nat) : (s.setDrive n x).rd d = s.rd d := rfl
@[simp] theorem State.setDrive_rd64 (s : State) (n : Nat) (x : DriveSt) (d : Nat) : (s.setDrive n x).rd64 d = s.rd64 d := rfl
@[simp] theorem State.setDrive_getF (s : State) (n : Nat) (x : DriveSt) (d : Fld) : (s.setDrive n x).getF d = s.getF d := by
  simp only [State.getF, State.setDrive_rd]
@[simp] theorem State.setDrive_bitF (s : State) (n : Nat) (x : DriveSt) (d : Fld) : (s.setDrive n x).bitF d = s.bitF d := by
  simp only [State.bitF, State.setDrive_getF]
@[simp] theorem State.setDrive_rd4 (s : State) (n : Nat) (x : DriveSt) (d : Func) (e : Nat) : (s.setDrive n x).rd4 d e = s.rd4 d e := rfl
@[simp] theorem State.setRoute_core (s : State) (j : JobSlot) (r : Nat) (x : RouteSt) (d : Nat) : (s.setRoute j r x).core d = s.core d := rfl
@[simp] theorem State.setRoute_stk (s : State) (j : JobSlot) (r : Nat) (x : RouteSt) (d : Nat) : (s.setRoute j r x).stk d = s.stk d := rfl
@[simp] theorem State.setRoute_port (s : State) (j : JobSlot) (r : Nat) (x : RouteSt) (d : Nat) : (s.setRoute j r x).port d = s.port d := rfl
@[simp] theorem State.setRoute_cal (s : State) (j : JobSlot) (r : Nat) (x : RouteSt) (d : Nat) : (s.setRoute j r x).cal d = s.cal d := rfl
@[simp] theorem State.setRoute_chan (s : State) (j : JobSlot) (r : Nat) (x : RouteSt) (d : Nat) : (s.setRoute j r x).chan d = s.chan d := rfl
@[simp] theorem State.setRoute_drive (s : State) (j : JobSlot) (r : Nat) (x : RouteSt) (d : Nat) : (s.setRoute j r x).drive d = s.drive d := rfl
@[simp] theorem State.setRoute_dieColl (s : State) (j : JobSlot) (r : Nat) (x : RouteSt) (d : Nat) : (s.setRoute j r x).dieColl d = s.dieColl d := rfl
@[simp] theorem State.setRoute_collc (s : State) (j : JobSlot) (r : Nat) (x : RouteSt) (d : Nat) : (s.setRoute j r x).collc d = s.collc d := rfl
@[simp] theorem State.setRoute_muleT (s : State) (j : JobSlot) (r : Nat) (x : RouteSt) (d : Nat) : (s.setRoute j r x).muleT d = s.muleT d := rfl
@[simp] theorem State.setRoute_landing (s : State) (j : JobSlot) (r : Nat) (x : RouteSt) (d : Nat) : (s.setRoute j r x).landing d = s.landing d := rfl
@[simp] theorem State.setRoute_group (s : State) (j : JobSlot) (r : Nat) (x : RouteSt) (d : Nat) : (s.setRoute j r x).group d = s.group d := rfl
@[simp] theorem State.setRoute_rd (s : State) (j : JobSlot) (r : Nat) (x : RouteSt) (d : Nat) : (s.setRoute j r x).rd d = s.rd d := rfl
@[simp] theorem State.setRoute_rd64 (s : State) (j : JobSlot) (r : Nat) (x : RouteSt) (d : Nat) : (s.setRoute j r x).rd64 d = s.rd64 d := rfl
@[simp] theorem State.setRoute_getF (s : State) (j : JobSlot) (r : Nat) (x : RouteSt) (d : Fld) : (s.setRoute j r x).getF d = s.getF d := by
  simp only [State.getF, State.setRoute_rd]
@[simp] theorem State.setRoute_bitF (s : State) (j : JobSlot) (r : Nat) (x : RouteSt) (d : Fld) : (s.setRoute j r x).bitF d = s.bitF d := by
  simp only [State.bitF, State.setRoute_getF]
@[simp] theorem State.setRoute_rd4 (s : State) (j : JobSlot) (r : Nat) (x : RouteSt) (d : Func) (e : Nat) : (s.setRoute j r x).rd4 d e = s.rd4 d e := rfl
@[simp] theorem State.setEp_core (s : State) (j : JobSlot) (d' n : Nat) (x : EpSt) (d : Nat) : (s.setEp j d' n x).core d = s.core d := rfl
@[simp] theorem State.setEp_stk (s : State) (j : JobSlot) (d' n : Nat) (x : EpSt) (d : Nat) : (s.setEp j d' n x).stk d = s.stk d := rfl
@[simp] theorem State.setEp_port (s : State) (j : JobSlot) (d' n : Nat) (x : EpSt) (d : Nat) : (s.setEp j d' n x).port d = s.port d := rfl
@[simp] theorem State.setEp_cal (s : State) (j : JobSlot) (d' n : Nat) (x : EpSt) (d : Nat) : (s.setEp j d' n x).cal d = s.cal d := rfl
@[simp] theorem State.setEp_chan (s : State) (j : JobSlot) (d' n : Nat) (x : EpSt) (d : Nat) : (s.setEp j d' n x).chan d = s.chan d := rfl
@[simp] theorem State.setEp_drive (s : State) (j : JobSlot) (d' n : Nat) (x : EpSt) (d : Nat) : (s.setEp j d' n x).drive d = s.drive d := rfl
@[simp] theorem State.setEp_dieColl (s : State) (j : JobSlot) (d' n : Nat) (x : EpSt) (d : Nat) : (s.setEp j d' n x).dieColl d = s.dieColl d := rfl
@[simp] theorem State.setEp_collc (s : State) (j : JobSlot) (d' n : Nat) (x : EpSt) (d : Nat) : (s.setEp j d' n x).collc d = s.collc d := rfl
@[simp] theorem State.setEp_muleT (s : State) (j : JobSlot) (d' n : Nat) (x : EpSt) (d : Nat) : (s.setEp j d' n x).muleT d = s.muleT d := rfl
@[simp] theorem State.setEp_landing (s : State) (j : JobSlot) (d' n : Nat) (x : EpSt) (d : Nat) : (s.setEp j d' n x).landing d = s.landing d := rfl
@[simp] theorem State.setEp_group (s : State) (j : JobSlot) (d' n : Nat) (x : EpSt) (d : Nat) : (s.setEp j d' n x).group d = s.group d := rfl
@[simp] theorem State.setEp_rd (s : State) (j : JobSlot) (d' n : Nat) (x : EpSt) (d : Nat) : (s.setEp j d' n x).rd d = s.rd d := rfl
@[simp] theorem State.setEp_rd64 (s : State) (j : JobSlot) (d' n : Nat) (x : EpSt) (d : Nat) : (s.setEp j d' n x).rd64 d = s.rd64 d := rfl
@[simp] theorem State.setEp_getF (s : State) (j : JobSlot) (d' n : Nat) (x : EpSt) (d : Fld) : (s.setEp j d' n x).getF d = s.getF d := by
  simp only [State.getF, State.setEp_rd]
@[simp] theorem State.setEp_bitF (s : State) (j : JobSlot) (d' n : Nat) (x : EpSt) (d : Fld) : (s.setEp j d' n x).bitF d = s.bitF d := by
  simp only [State.bitF, State.setEp_getF]
@[simp] theorem State.setEp_rd4 (s : State) (j : JobSlot) (d' n : Nat) (x : EpSt) (d : Func) (e : Nat) : (s.setEp j d' n x).rd4 d e = s.rd4 d e := rfl
@[simp] theorem State.setSink_core (s : State) (j : JobSlot) (c k : Nat) (x : SinkSt) (d : Nat) : (s.setSink j c k x).core d = s.core d := rfl
@[simp] theorem State.setSink_stk (s : State) (j : JobSlot) (c k : Nat) (x : SinkSt) (d : Nat) : (s.setSink j c k x).stk d = s.stk d := rfl
@[simp] theorem State.setSink_port (s : State) (j : JobSlot) (c k : Nat) (x : SinkSt) (d : Nat) : (s.setSink j c k x).port d = s.port d := rfl
@[simp] theorem State.setSink_cal (s : State) (j : JobSlot) (c k : Nat) (x : SinkSt) (d : Nat) : (s.setSink j c k x).cal d = s.cal d := rfl
@[simp] theorem State.setSink_chan (s : State) (j : JobSlot) (c k : Nat) (x : SinkSt) (d : Nat) : (s.setSink j c k x).chan d = s.chan d := rfl
@[simp] theorem State.setSink_drive (s : State) (j : JobSlot) (c k : Nat) (x : SinkSt) (d : Nat) : (s.setSink j c k x).drive d = s.drive d := rfl
@[simp] theorem State.setSink_dieColl (s : State) (j : JobSlot) (c k : Nat) (x : SinkSt) (d : Nat) : (s.setSink j c k x).dieColl d = s.dieColl d := rfl
@[simp] theorem State.setSink_collc (s : State) (j : JobSlot) (c k : Nat) (x : SinkSt) (d : Nat) : (s.setSink j c k x).collc d = s.collc d := rfl
@[simp] theorem State.setSink_muleT (s : State) (j : JobSlot) (c k : Nat) (x : SinkSt) (d : Nat) : (s.setSink j c k x).muleT d = s.muleT d := rfl
@[simp] theorem State.setSink_landing (s : State) (j : JobSlot) (c k : Nat) (x : SinkSt) (d : Nat) : (s.setSink j c k x).landing d = s.landing d := rfl
@[simp] theorem State.setSink_group (s : State) (j : JobSlot) (c k : Nat) (x : SinkSt) (d : Nat) : (s.setSink j c k x).group d = s.group d := rfl
@[simp] theorem State.setSink_rd (s : State) (j : JobSlot) (c k : Nat) (x : SinkSt) (d : Nat) : (s.setSink j c k x).rd d = s.rd d := rfl
@[simp] theorem State.setSink_rd64 (s : State) (j : JobSlot) (c k : Nat) (x : SinkSt) (d : Nat) : (s.setSink j c k x).rd64 d = s.rd64 d := rfl
@[simp] theorem State.setSink_getF (s : State) (j : JobSlot) (c k : Nat) (x : SinkSt) (d : Fld) : (s.setSink j c k x).getF d = s.getF d := by
  simp only [State.getF, State.setSink_rd]
@[simp] theorem State.setSink_bitF (s : State) (j : JobSlot) (c k : Nat) (x : SinkSt) (d : Fld) : (s.setSink j c k x).bitF d = s.bitF d := by
  simp only [State.bitF, State.setSink_getF]
@[simp] theorem State.setSink_rd4 (s : State) (j : JobSlot) (c k : Nat) (x : SinkSt) (d : Func) (e : Nat) : (s.setSink j c k x).rd4 d e = s.rd4 d e := rfl
@[simp] theorem State.setDieColl_core (s : State) (d' : Nat) (x : DieColl) (d : Nat) : (s.setDieColl d' x).core d = s.core d := rfl
@[simp] theorem State.setDieColl_stk (s : State) (d' : Nat) (x : DieColl) (d : Nat) : (s.setDieColl d' x).stk d = s.stk d := rfl
@[simp] theorem State.setDieColl_port (s : State) (d' : Nat) (x : DieColl) (d : Nat) : (s.setDieColl d' x).port d = s.port d := rfl
@[simp] theorem State.setDieColl_cal (s : State) (d' : Nat) (x : DieColl) (d : Nat) : (s.setDieColl d' x).cal d = s.cal d := rfl
@[simp] theorem State.setDieColl_chan (s : State) (d' : Nat) (x : DieColl) (d : Nat) : (s.setDieColl d' x).chan d = s.chan d := rfl
@[simp] theorem State.setDieColl_drive (s : State) (d' : Nat) (x : DieColl) (d : Nat) : (s.setDieColl d' x).drive d = s.drive d := rfl
@[simp] theorem State.setDieColl_collc (s : State) (d' : Nat) (x : DieColl) (d : Nat) : (s.setDieColl d' x).collc d = s.collc d := rfl
@[simp] theorem State.setDieColl_muleT (s : State) (d' : Nat) (x : DieColl) (d : Nat) : (s.setDieColl d' x).muleT d = s.muleT d := rfl
@[simp] theorem State.setDieColl_landing (s : State) (d' : Nat) (x : DieColl) (d : Nat) : (s.setDieColl d' x).landing d = s.landing d := rfl
@[simp] theorem State.setDieColl_group (s : State) (d' : Nat) (x : DieColl) (d : Nat) : (s.setDieColl d' x).group d = s.group d := rfl
@[simp] theorem State.setDieColl_rd (s : State) (d' : Nat) (x : DieColl) (d : Nat) : (s.setDieColl d' x).rd d = s.rd d := rfl
@[simp] theorem State.setDieColl_rd64 (s : State) (d' : Nat) (x : DieColl) (d : Nat) : (s.setDieColl d' x).rd64 d = s.rd64 d := rfl
@[simp] theorem State.setDieColl_getF (s : State) (d' : Nat) (x : DieColl) (d : Fld) : (s.setDieColl d' x).getF d = s.getF d := by
  simp only [State.getF, State.setDieColl_rd]
@[simp] theorem State.setDieColl_bitF (s : State) (d' : Nat) (x : DieColl) (d : Fld) : (s.setDieColl d' x).bitF d = s.bitF d := by
  simp only [State.bitF, State.setDieColl_getF]
@[simp] theorem State.setDieColl_rd4 (s : State) (d' : Nat) (x : DieColl) (d : Func) (e : Nat) : (s.setDieColl d' x).rd4 d e = s.rd4 d e := rfl
@[simp] theorem State.setColl_core (s : State) (k : Nat) (x : CollSt) (d : Nat) : (s.setColl k x).core d = s.core d := rfl
@[simp] theorem State.setColl_stk (s : State) (k : Nat) (x : CollSt) (d : Nat) : (s.setColl k x).stk d = s.stk d := rfl
@[simp] theorem State.setColl_port (s : State) (k : Nat) (x : CollSt) (d : Nat) : (s.setColl k x).port d = s.port d := rfl
@[simp] theorem State.setColl_cal (s : State) (k : Nat) (x : CollSt) (d : Nat) : (s.setColl k x).cal d = s.cal d := rfl
@[simp] theorem State.setColl_chan (s : State) (k : Nat) (x : CollSt) (d : Nat) : (s.setColl k x).chan d = s.chan d := rfl
@[simp] theorem State.setColl_drive (s : State) (k : Nat) (x : CollSt) (d : Nat) : (s.setColl k x).drive d = s.drive d := rfl
@[simp] theorem State.setColl_dieColl (s : State) (k : Nat) (x : CollSt) (d : Nat) : (s.setColl k x).dieColl d = s.dieColl d := rfl
@[simp] theorem State.setColl_muleT (s : State) (k : Nat) (x : CollSt) (d : Nat) : (s.setColl k x).muleT d = s.muleT d := rfl
@[simp] theorem State.setColl_landing (s : State) (k : Nat) (x : CollSt) (d : Nat) : (s.setColl k x).landing d = s.landing d := rfl
@[simp] theorem State.setColl_group (s : State) (k : Nat) (x : CollSt) (d : Nat) : (s.setColl k x).group d = s.group d := rfl
@[simp] theorem State.setColl_rd (s : State) (k : Nat) (x : CollSt) (d : Nat) : (s.setColl k x).rd d = s.rd d := rfl
@[simp] theorem State.setColl_rd64 (s : State) (k : Nat) (x : CollSt) (d : Nat) : (s.setColl k x).rd64 d = s.rd64 d := rfl
@[simp] theorem State.setColl_getF (s : State) (k : Nat) (x : CollSt) (d : Fld) : (s.setColl k x).getF d = s.getF d := by
  simp only [State.getF, State.setColl_rd]
@[simp] theorem State.setColl_bitF (s : State) (k : Nat) (x : CollSt) (d : Fld) : (s.setColl k x).bitF d = s.bitF d := by
  simp only [State.bitF, State.setColl_getF]
@[simp] theorem State.setColl_rd4 (s : State) (k : Nat) (x : CollSt) (d : Func) (e : Nat) : (s.setColl k x).rd4 d e = s.rd4 d e := rfl
@[simp] theorem State.setMule_core (s : State) (t : Nat) (x : MuleSt) (d : Nat) : (s.setMule t x).core d = s.core d := rfl
@[simp] theorem State.setMule_stk (s : State) (t : Nat) (x : MuleSt) (d : Nat) : (s.setMule t x).stk d = s.stk d := rfl
@[simp] theorem State.setMule_port (s : State) (t : Nat) (x : MuleSt) (d : Nat) : (s.setMule t x).port d = s.port d := rfl
@[simp] theorem State.setMule_cal (s : State) (t : Nat) (x : MuleSt) (d : Nat) : (s.setMule t x).cal d = s.cal d := rfl
@[simp] theorem State.setMule_chan (s : State) (t : Nat) (x : MuleSt) (d : Nat) : (s.setMule t x).chan d = s.chan d := rfl
@[simp] theorem State.setMule_drive (s : State) (t : Nat) (x : MuleSt) (d : Nat) : (s.setMule t x).drive d = s.drive d := rfl
@[simp] theorem State.setMule_dieColl (s : State) (t : Nat) (x : MuleSt) (d : Nat) : (s.setMule t x).dieColl d = s.dieColl d := rfl
@[simp] theorem State.setMule_collc (s : State) (t : Nat) (x : MuleSt) (d : Nat) : (s.setMule t x).collc d = s.collc d := rfl
@[simp] theorem State.setMule_landing (s : State) (t : Nat) (x : MuleSt) (d : Nat) : (s.setMule t x).landing d = s.landing d := rfl
@[simp] theorem State.setMule_group (s : State) (t : Nat) (x : MuleSt) (d : Nat) : (s.setMule t x).group d = s.group d := rfl
@[simp] theorem State.setMule_rd (s : State) (t : Nat) (x : MuleSt) (d : Nat) : (s.setMule t x).rd d = s.rd d := rfl
@[simp] theorem State.setMule_rd64 (s : State) (t : Nat) (x : MuleSt) (d : Nat) : (s.setMule t x).rd64 d = s.rd64 d := rfl
@[simp] theorem State.setMule_getF (s : State) (t : Nat) (x : MuleSt) (d : Fld) : (s.setMule t x).getF d = s.getF d := by
  simp only [State.getF, State.setMule_rd]
@[simp] theorem State.setMule_bitF (s : State) (t : Nat) (x : MuleSt) (d : Fld) : (s.setMule t x).bitF d = s.bitF d := by
  simp only [State.bitF, State.setMule_getF]
@[simp] theorem State.setMule_rd4 (s : State) (t : Nat) (x : MuleSt) (d : Func) (e : Nat) : (s.setMule t x).rd4 d e = s.rd4 d e := rfl
@[simp] theorem State.setLanding_core (s : State) (n : Nat) (x : ChanSt) (d : Nat) : (s.setLanding n x).core d = s.core d := rfl
@[simp] theorem State.setLanding_stk (s : State) (n : Nat) (x : ChanSt) (d : Nat) : (s.setLanding n x).stk d = s.stk d := rfl
@[simp] theorem State.setLanding_port (s : State) (n : Nat) (x : ChanSt) (d : Nat) : (s.setLanding n x).port d = s.port d := rfl
@[simp] theorem State.setLanding_cal (s : State) (n : Nat) (x : ChanSt) (d : Nat) : (s.setLanding n x).cal d = s.cal d := rfl
@[simp] theorem State.setLanding_chan (s : State) (n : Nat) (x : ChanSt) (d : Nat) : (s.setLanding n x).chan d = s.chan d := rfl
@[simp] theorem State.setLanding_drive (s : State) (n : Nat) (x : ChanSt) (d : Nat) : (s.setLanding n x).drive d = s.drive d := rfl
@[simp] theorem State.setLanding_dieColl (s : State) (n : Nat) (x : ChanSt) (d : Nat) : (s.setLanding n x).dieColl d = s.dieColl d := rfl
@[simp] theorem State.setLanding_collc (s : State) (n : Nat) (x : ChanSt) (d : Nat) : (s.setLanding n x).collc d = s.collc d := rfl
@[simp] theorem State.setLanding_muleT (s : State) (n : Nat) (x : ChanSt) (d : Nat) : (s.setLanding n x).muleT d = s.muleT d := rfl
@[simp] theorem State.setLanding_group (s : State) (n : Nat) (x : ChanSt) (d : Nat) : (s.setLanding n x).group d = s.group d := rfl
@[simp] theorem State.setLanding_rd (s : State) (n : Nat) (x : ChanSt) (d : Nat) : (s.setLanding n x).rd d = s.rd d := rfl
@[simp] theorem State.setLanding_rd64 (s : State) (n : Nat) (x : ChanSt) (d : Nat) : (s.setLanding n x).rd64 d = s.rd64 d := rfl
@[simp] theorem State.setLanding_getF (s : State) (n : Nat) (x : ChanSt) (d : Fld) : (s.setLanding n x).getF d = s.getF d := by
  simp only [State.getF, State.setLanding_rd]
@[simp] theorem State.setLanding_bitF (s : State) (n : Nat) (x : ChanSt) (d : Fld) : (s.setLanding n x).bitF d = s.bitF d := by
  simp only [State.bitF, State.setLanding_getF]
@[simp] theorem State.setLanding_rd4 (s : State) (n : Nat) (x : ChanSt) (d : Func) (e : Nat) : (s.setLanding n x).rd4 d e = s.rd4 d e := rfl
@[simp] theorem State.setGroup_core (s : State) (g : Nat) (x : GroupSt) (d : Nat) : (s.setGroup g x).core d = s.core d := rfl
@[simp] theorem State.setGroup_stk (s : State) (g : Nat) (x : GroupSt) (d : Nat) : (s.setGroup g x).stk d = s.stk d := rfl
@[simp] theorem State.setGroup_port (s : State) (g : Nat) (x : GroupSt) (d : Nat) : (s.setGroup g x).port d = s.port d := rfl
@[simp] theorem State.setGroup_cal (s : State) (g : Nat) (x : GroupSt) (d : Nat) : (s.setGroup g x).cal d = s.cal d := rfl
@[simp] theorem State.setGroup_chan (s : State) (g : Nat) (x : GroupSt) (d : Nat) : (s.setGroup g x).chan d = s.chan d := rfl
@[simp] theorem State.setGroup_drive (s : State) (g : Nat) (x : GroupSt) (d : Nat) : (s.setGroup g x).drive d = s.drive d := rfl
@[simp] theorem State.setGroup_dieColl (s : State) (g : Nat) (x : GroupSt) (d : Nat) : (s.setGroup g x).dieColl d = s.dieColl d := rfl
@[simp] theorem State.setGroup_collc (s : State) (g : Nat) (x : GroupSt) (d : Nat) : (s.setGroup g x).collc d = s.collc d := rfl
@[simp] theorem State.setGroup_muleT (s : State) (g : Nat) (x : GroupSt) (d : Nat) : (s.setGroup g x).muleT d = s.muleT d := rfl
@[simp] theorem State.setGroup_landing (s : State) (g : Nat) (x : GroupSt) (d : Nat) : (s.setGroup g x).landing d = s.landing d := rfl
@[simp] theorem State.setGroup_rd (s : State) (g : Nat) (x : GroupSt) (d : Nat) : (s.setGroup g x).rd d = s.rd d := rfl
@[simp] theorem State.setGroup_rd64 (s : State) (g : Nat) (x : GroupSt) (d : Nat) : (s.setGroup g x).rd64 d = s.rd64 d := rfl
@[simp] theorem State.setGroup_getF (s : State) (g : Nat) (x : GroupSt) (d : Fld) : (s.setGroup g x).getF d = s.getF d := by
  simp only [State.getF, State.setGroup_rd]
@[simp] theorem State.setGroup_bitF (s : State) (g : Nat) (x : GroupSt) (d : Fld) : (s.setGroup g x).bitF d = s.bitF d := by
  simp only [State.bitF, State.setGroup_getF]
@[simp] theorem State.setGroup_rd4 (s : State) (g : Nat) (x : GroupSt) (d : Func) (e : Nat) : (s.setGroup g x).rd4 d e = s.rd4 d e := rfl
@[simp] theorem State.setXbuf_core (s : State) (b : XBuf) (x : XBufSt) (d : Nat) : (s.setXbuf b x).core d = s.core d := rfl
@[simp] theorem State.setXbuf_stk (s : State) (b : XBuf) (x : XBufSt) (d : Nat) : (s.setXbuf b x).stk d = s.stk d := rfl
@[simp] theorem State.setXbuf_port (s : State) (b : XBuf) (x : XBufSt) (d : Nat) : (s.setXbuf b x).port d = s.port d := rfl
@[simp] theorem State.setXbuf_cal (s : State) (b : XBuf) (x : XBufSt) (d : Nat) : (s.setXbuf b x).cal d = s.cal d := rfl
@[simp] theorem State.setXbuf_chan (s : State) (b : XBuf) (x : XBufSt) (d : Nat) : (s.setXbuf b x).chan d = s.chan d := rfl
@[simp] theorem State.setXbuf_drive (s : State) (b : XBuf) (x : XBufSt) (d : Nat) : (s.setXbuf b x).drive d = s.drive d := rfl
@[simp] theorem State.setXbuf_dieColl (s : State) (b : XBuf) (x : XBufSt) (d : Nat) : (s.setXbuf b x).dieColl d = s.dieColl d := rfl
@[simp] theorem State.setXbuf_collc (s : State) (b : XBuf) (x : XBufSt) (d : Nat) : (s.setXbuf b x).collc d = s.collc d := rfl
@[simp] theorem State.setXbuf_muleT (s : State) (b : XBuf) (x : XBufSt) (d : Nat) : (s.setXbuf b x).muleT d = s.muleT d := rfl
@[simp] theorem State.setXbuf_landing (s : State) (b : XBuf) (x : XBufSt) (d : Nat) : (s.setXbuf b x).landing d = s.landing d := rfl
@[simp] theorem State.setXbuf_group (s : State) (b : XBuf) (x : XBufSt) (d : Nat) : (s.setXbuf b x).group d = s.group d := rfl
@[simp] theorem State.setXbuf_rd (s : State) (b : XBuf) (x : XBufSt) (d : Nat) : (s.setXbuf b x).rd d = s.rd d := rfl
@[simp] theorem State.setXbuf_rd64 (s : State) (b : XBuf) (x : XBufSt) (d : Nat) : (s.setXbuf b x).rd64 d = s.rd64 d := rfl
@[simp] theorem State.setXbuf_getF (s : State) (b : XBuf) (x : XBufSt) (d : Fld) : (s.setXbuf b x).getF d = s.getF d := by
  simp only [State.getF, State.setXbuf_rd]
@[simp] theorem State.setXbuf_bitF (s : State) (b : XBuf) (x : XBufSt) (d : Fld) : (s.setXbuf b x).bitF d = s.bitF d := by
  simp only [State.bitF, State.setXbuf_getF]
@[simp] theorem State.setXbuf_rd4 (s : State) (b : XBuf) (x : XBufSt) (d : Func) (e : Nat) : (s.setXbuf b x).rd4 d e = s.rd4 d e := rfl

/-! ### Registers and fields -/

/-- A register after a write. -/
theorem State.rd_wr (s : State) (o : Nat) (v : W32) (p : Nat) :
    (s.wr o v).rd p = if o = p then v else s.rd p := Tab.look_put ..

@[simp] theorem State.rd_wr_same (s : State) (o : Nat) (v : W32) : (s.wr o v).rd o = v := by
  simp [State.rd_wr]

theorem State.rd_wr_ne (s : State) (o : Nat) (v : W32) {p : Nat} (h : o ≠ p) :
    (s.wr o v).rd p = s.rd p := by simp [State.rd_wr, h]

@[simp] theorem State.rd_setF_same (s : State) (f : Fld) (v : Nat) :
    (s.setF f v).rd f.off = f.set (s.rd f.off) v := by simp [State.setF]

theorem State.rd_setF_ne (s : State) (f : Fld) (v : Nat) {p : Nat} (h : f.off ≠ p) :
    (s.setF f v).rd p = s.rd p := State.rd_wr_ne _ _ _ h

theorem State.rd_setB_ne (s : State) (f : Fld) (b : Bool) {p : Nat} (h : f.off ≠ p) :
    (s.setB f b).rd p = s.rd p := State.rd_wr_ne _ _ _ h

/-- A word of BAR4 after a write. -/
theorem State.rd4_wr4 (s : State) (fn : Func) (o : Nat) (v : W32) (gn : Func) (p : Nat) :
    (s.wr4 fn o v).rd4 gn p
      = if fn.val * 65536 + o = gn.val * 65536 + p then v else s.rd4 gn p := Tab.look_put ..

end Sys2Proof.Machine
end

