-- ==== Sys2Proof/Laws/Memory.lean ====
section
/-! SUPPORT. What the error log and the operations over device memory can do: logging touches the
registers, the messages, Sheepdog and Bellwether's record alone; a read leaves memory as it was; a write
changes the written bytes alone; and every one of them keeps the canonical form. -/

namespace Sys2Proof.Machine

open Sys2Proof

/-- All that logging and counting an error may change: registers, MSI-X state, messages, Sheepdog,
Bellwether's record. -/
def LogFrame (s t : State) : Prop :=
  t = { s with reg := t.reg, bar4 := t.bar4, out := t.out, sd := t.sd, bwt := t.bwt }

theorem LogFrame.refl (s : State) : LogFrame s s := rfl

theorem LogFrame.trans {s t u : State} (h : LogFrame s t) (k : LogFrame t u) : LogFrame s u := by
  unfold LogFrame at *; rw [k, h]

theorem LogFrame.wr (s : State) (o : Nat) (v : W32) : LogFrame s (s.wr o v) := rfl
theorem LogFrame.setF (s : State) (f : Fld) (v : Nat) : LogFrame s (s.setF f v) := rfl
theorem LogFrame.setB (s : State) (f : Fld) (b : Bool) : LogFrame s (s.setB f b) := rfl
theorem LogFrame.bump (s : State) (o n : Nat) : LogFrame s (s.bump o n) := rfl
theorem LogFrame.bumpF (s : State) (f : Fld) (n : Nat) : LogFrame s (s.bumpF f n) := rfl
theorem LogFrame.emit (s : State) (m : Out) : LogFrame s (s.emit m) := rfl
theorem LogFrame.setIncomp (s : State) : LogFrame s s.setIncomp := rfl

theorem LogFrame.wr4 (s : State) (fn : Func) (o : Nat) (v : W32) : LogFrame s (s.wr4 fn o v) := by
  cases s; rfl

theorem LogFrame.msix (s : State) (fn : Func) (vec : Nat) : LogFrame s (s.msix fn vec) := by
  unfold State.msix; split
  · exact .wr4 ..
  · exact .emit ..

theorem LogFrame.wrList (l : List W32) : ∀ (s : State) (o : Nat), LogFrame s (s.wrList o l) := by
  induction l with
  | nil => intro s o; exact .refl s
  | cons v r ih => intro s o; exact (LogFrame.wr s o v).trans (ih ..)

theorem LogFrame.sdQueue (s : State) (t u sub : Nat) : LogFrame s (s.sdQueue t u sub) := by
  unfold State.sdQueue; split
  · exact .refl s
  · split <;> rfl

theorem LogFrame.append (s : State) (e : ErrRec) : LogFrame s (s.append e) := by
  unfold State.append
  dsimp only
  split
  · exact .wr ..
  · split
    · rfl
    · exact ((LogFrame.wrList _ s _).trans (.setF ..)).trans (.msix ..)

theorem LogFrame.sdFor (s : State) (e : ErrRec) : LogFrame s (s.sdFor e) := by
  unfold State.sdFor
  split
  · exact .refl s
  · exact .sdQueue ..

theorem LogFrame.logTail (s : State) (e : ErrRec) :
    LogFrame s (if s.logFull e then s.append e
      else ((s.append e).bump (rErrClasscnt e.cls) 1).sdFor e) := by
  split
  · exact .append ..
  · exact ((LogFrame.append s e).trans (.bump ..)).trans (.sdFor ..)

/-- Logging an error changes nothing but the parts that `LogFrame` names. -/
theorem LogFrame.log (s : State) (e : ErrRec) : LogFrame s (s.log e) := by
  by_cases h : e.incomp = true ∧ ¬ e.slotb = true
  · have := (LogFrame.setIncomp s).trans (.logTail _ e)
    simpa only [State.log, if_pos h] using this
  · simpa only [State.log, if_neg h] using LogFrame.logTail s e

theorem LogFrame.sd (s : State) (d : SdSt) : LogFrame s { s with sd := d } := rfl

theorem LogFrame.countCorr (s : State) (mem u addr : Nat) (b : Bool) :
    LogFrame s (s.countCorr mem u addr b) := by
  unfold State.countCorr
  dsimp only
  split
  · exact LogFrame.trans (.sd s _) (.log _ _)
  · exact .sd s _

theorem LogFrame.mem {s t : State} (h : LogFrame s t) : t.mem = s.mem := by rw [h]
theorem LogFrame.memEcc {s t : State} (h : LogFrame s t) : t.memEcc = s.memEcc := by rw [h]
theorem LogFrame.cores {s t : State} (h : LogFrame s t) : t.cores = s.cores := by rw [h]
theorem LogFrame.pending {s t : State} (h : LogFrame s t) : t.pending = s.pending := by rw [h]

theorem LogFrame.countBad (l : List Nat) : ∀ s : State, LogFrame s (s.countBad l) := by
  induction l with
  | nil => exact .refl
  | cons w r ih => intro s; exact (LogFrame.bumpF ..).trans (ih _)

theorem LogFrame.countFixed (b : Bool) (l : List Nat) : ∀ s : State, LogFrame s (s.countFixed b l) := by
  induction l with
  | nil => exact .refl
  | cons w r ih =>
    intro s
    exact ((LogFrame.bumpF ..).trans (.countCorr ..)).trans (ih _)

theorem LogFrame.logBad (e : Tab Ecc) (who : Acc) (l : List Nat) :
    ∀ s : State, LogFrame s (s.logBad e who l) := by
  induction l with
  | nil => exact .refl
  | cons w r ih => intro s; exact (LogFrame.log ..).trans (ih _)

/-- What a read or a read-modify-write of codewords reports changes no memory. -/
theorem LogFrame.eccReport (s : State) (who : Acc) (col : Nat) (bad fixed : List Nat) :
    LogFrame s (s.eccReport who col bad fixed) :=
  ((LogFrame.countFixed ..).trans (.countBad ..)).trans (.logBad ..)

/-- A read of device memory changes nothing but the parts that `LogFrame` names. -/
theorem LogFrame.memRead (s : State) (who : Acc) (col off n : Nat) :
    LogFrame s (s.memRead who col off n).2 := .eccReport ..

/-! ### Writes -/

/-- The bytes of memory after a write, poisoned or not. -/
theorem State.memPut_mem (s : State) (who : Acc) (off : Nat) (l : List Byte) (p : Bool) :
    (s.memPut who off l p).mem = Tab.putList (fun _ => 0) s.mem off l := by
  have h : (s.memWrite who off l).mem = Tab.putList (fun _ => 0) s.mem off l := by
    show Tab.putList _ (State.eccReport _ _ _ _ _).mem _ _ = _
    rw [(LogFrame.eccReport ..).mem]
  cases p
  · exact h
  · exact h

/-- A write keeps every byte outside the written ones, and a read after it gives those. -/
theorem State.look_memPut (s : State) (who : Acc) (off : Nat) (l : List Byte) (p : Bool) (a : Nat) :
    Tab.look (fun _ => (0 : Byte)) (s.memPut who off l p).mem a =
      if off ≤ a then (l[a - off]?).getD (Tab.look (fun _ => 0) s.mem a)
      else Tab.look (fun _ => 0) s.mem a := by
  rw [State.memPut_mem, Tab.look_putList]

/-- A write keeps the canonical form. -/
theorem Memory.wf_memPut (s : State) (who : Acc) (off : Nat) (l : List Byte) (p : Bool)
    (h : Memory.wf s.mem = true) : Memory.wf (s.memPut who off l p).mem = true := by
  rw [State.memPut_mem]; exact Tab.wf_putList _ l _ _ h

/-- A read keeps the canonical form. -/
theorem Memory.wf_memRead (s : State) (who : Acc) (col off n : Nat) (h : Memory.wf s.mem = true) :
    Memory.wf (s.memRead who col off n).2.mem = true := by
  rw [(LogFrame.memRead ..).mem]; exact h

/-- Memory is canonical at reset. -/
theorem Memory.wf_reset : Memory.wf State.reset.mem = true := rfl

end Sys2Proof.Machine
end

