-- ==== Sys2Proof/Tests/Slice0.lean ====
section
/-! SUPPORT. The model's own tests: the checks of well-formedness, the spec's worked examples, and for
each statement of the obligations a state and operands that meet its hypotheses. -/

namespace Sys2Proof.Tests

open Sys2Proof Sys2Proof.Machine Sys2Proof.Claims

-- Each test is checked where it stands, not all at once.
set_option Elab.async false

/-! ### A small device -/

/-- A port binding of the stream slot, incoming or outgoing, by a route. -/
def bnd (r : Nat) (out : Bool) : PortBind := ⟨r, 1, out⟩

/-- A core with 64 bundles, an incoming port 0 by route 1, an outgoing port 1 by route 2, a port 2 of
the drain unit by route 3, and a sink. -/
def cfg : CoreCfg where
  core := 0
  stage := 0
  savex := 0
  fherd := 0
  pxreg := 9
  vstrm := [0, 0, 0, 0]
  calmask := 3
  depth := List.replicate 32 16
  binds := [bnd 1 false, bnd 2 true, ⟨3, 3, true⟩]
  feeders := List.replicate 5 ⟨true, false, 0, false, 0⟩
  taps := []
  sinks := [⟨true, 0x1000, 0x2000, 1⟩]
  bundles := List.replicate 64 0

/-- An image with nothing in it. -/
def blank : Image where
  slotb := false
  debug := false
  portex := false
  partImg := false
  id := 7
  baseId := 0
  seed := 5
  phases := []
  cores := []
  routes := []
  scheds := []
  cals := []
  fabric := none
  herd := none
  mule := none
  windows := []
  chipmap := none
  xltwin := none
  preset := []
  staging := []
  mgmt := none
  grant := none
  second := none

/-- A debug image with the core `cfg`. -/
def img : Image := { blank with debug := true, cores := [cfg] }

/-- A word that ends a token. -/
def word (n : Nat) : SWord := ⟨BitVec.ofNat 2048 n, true, false, false, false, 0⟩

/-- The core of `cfg` at bundle 3, with a comparator pending, a word in port 0 and a sum in accumulator
0. -/
def core0 : CoreSt :=
  { CoreSt.reset with
    cfgA := some cfg
    pc := 3
    calPend := 1
    sregs := [(3, 100), (4, 0xFFFFFFFE), (5, 0x1000)]
    raccs := [(0, ⟨1, 1000, 0, 64⟩)]
    ports := [(0, { PortSt.reset with queue := [(1, word 5)] })] }

/-- The device with that core. -/
def dev : State := { State.reset with cores := [(0, core0)], imgA := some img }

/-- The device after a change of its core. -/
def devWith (f : CoreSt → CoreSt) : State := { dev with cores := [(0, f core0)] }

/-- A bundle's other slots: FMT 0, four valid slots of no-operations. -/
def others : Others := ⟨0, 15, 0, 0, 0, 0⟩

/-- The same as `Issues`, as a Boolean. -/
def issuesIn (s : State) (i : Instr) : Bool :=
  match bundleOf i with
  | none => false
  | some (c, b) => !(s.core c).stopped && !(s.core c).switching && !(s.core c).bare
    && (s.core c).cfg.isSome && (s.core c).pend == PendExc.none && !s.bkptHit c
    && s.excEcc c b == none && (s.core c).holds b == [] && s.illegalAt c b == none
    && s.protAt c b == none

theorem issues_of_issuesIn (s : State) (i : Instr) (h : issuesIn s i = true) :
    ∃ c b, bundleOf i = some (c, b) ∧ Issues s c b := by
  unfold issuesIn at h
  cases e : bundleOf i with
  | none => simp [e] at h
  | some p =>
    refine ⟨p.1, p.2, rfl, ?_⟩
    simpa [e, Issues, Runs, and_assoc] using h

/-! ### Well-formedness: one ill-formed command for each check -/

theorem test_wf_registerWrite : Instr.wf (.registerWrite .pf0 .bar4 65536 4 0) = false
    ∧ Instr.wf (.registerWrite .pf0 .bar4 65532 4 0) = true := by decide
theorem test_wf_loReadLatch : Instr.wf (.loReadLatch .pf1 .bar4 65536 4) = false
    ∧ Instr.wf (.loReadLatch .pf1 .bar0 65536 4) = true := by decide
theorem test_wf_currentEvaluation : Instr.wf (.currentEvaluation [1, 2]) = false
    ∧ Instr.wf (.currentEvaluation (List.replicate 17 0)) = true := by decide
theorem test_wf_temperatureRead : Instr.wf (.temperatureRead []) = false
    ∧ Instr.wf (.temperatureRead (List.replicate 20 0)) = true := by decide
theorem test_wf_tapBypass : Instr.wf (.tapBypass 6) = false ∧ Instr.wf (.tapBypass 7) = true := by
  decide
theorem test_wf_bar2Read : Instr.wf (.bar2Read 0 0 0 0) = false
    ∧ Instr.wf (.bar2Read 0 4095 2 0) = false ∧ Instr.wf (.bar2Read 0 4095 1 0) = true := by decide
theorem test_wf_bar2Write : Instr.wf (.bar2Write 0 0 [] false 0) = false
    ∧ Instr.wf (.bar2Write 0 4095 [1, 2] false 0) = false
    ∧ Instr.wf (.bar2Write 0 4094 [1, 2] false 0) = true := by decide
theorem test_wf_busClearAttempt : Instr.wf (.busClearAttempt 10) = false
    ∧ Instr.wf (.busClearAttempt 9) = true := by decide

/-! ### Witnesses: the bundles -/

theorem witness_control_slot_issues : ∀ i ∈ ([
    .sadd 0 ⟨1, 3, 0, 0⟩ others, .ssub 0 ⟨1, 3, 1, 8⟩ others, .sand 0 ⟨1, 3, 0, 0⟩ others,
    .sor 0 ⟨1, 3, 0, 0⟩ others, .sxor 0 ⟨1, 3, 0, 0⟩ others, .sshl 0 ⟨1, 3, 0, 0⟩ others,
    .sshr 0 ⟨1, 3, 0, 0⟩ others, .ssra 0 ⟨1, 3, 0, 0⟩ others, .smin 0 ⟨0, 3, 0, 0⟩ others,
    .smax 0 ⟨31, 3, 0, 0⟩ others, .sslt 0 ⟨1, 3, 0, 0⟩ others, .smul 0 ⟨1, 3, 0, 0⟩ others,
    .sli 0 ⟨1, 0xFFFF⟩ others, .slui 0 ⟨1, 2⟩ others, .sld 0 ⟨1, 5, 0x80⟩ others,
    .sst 0 ⟨1, 5, 0xFF⟩ others, .smfs 0 ⟨1, 0, 0⟩ others, .smfs 0 ⟨1, 5, 0⟩ others,
    .mand 0 ⟨1, 0, 0, 0⟩ others, .mor 0 ⟨1, 0, 0, 0⟩ others, .mxor 0 ⟨0, 0, 7, 0⟩ others,
    .mandn 0 ⟨7, 0, 0, 0⟩ others, .mfill 0 ⟨1, 3, 0⟩ others, .mpop 0 ⟨1, 0, 0⟩ others,
    .branch 0 ⟨0, 60⟩ others, .beqz 0 ⟨0, 0x1FFD⟩ others, .bnez 0 ⟨3, 4⟩ others,
    .bltz 0 ⟨4, 4⟩ others, .bgez 0 ⟨3, 4⟩ others, .bmany 0 ⟨0, 0, 4⟩ others,
    .bmnone 0 ⟨0, 0, 4⟩ others, .loop 0 ⟨0, 1, 3, 2⟩ others, .loop 0 ⟨2, 1, 0, 2⟩ others,
    .setmode 0 ⟨1, 0, 16⟩ others, .waitcal 0 ⟨0, 0⟩ others, .fence 0 ⟨0, 0⟩ others,
    .fence 0 ⟨4, 0⟩ others, .done 0 ⟨9, 0⟩ others, .brk 0 ⟨0⟩ others, .cnop 0 ⟨0⟩ others] :
      List Instr), issuesIn dev i = true := by decide +kernel

theorem witness_array_slot_issues : ∀ i ∈ ([
    .amac 0 ⟨1, 0, 0, 0, 0, 0, 0, 1, 1, 0⟩ others, .amac 0 ⟨15, 9, 1, 1, 1, 3, 1, 1, 1, 0⟩ others, .adrq 0 ⟨1, 0, 1, 1, 0, 0, 0, 0, 2, 0⟩ others,
    .adrw 0 ⟨1, 0, 0, 5, 0⟩ others, .aldt 0 ⟨8, 15, 0, 5, 0⟩ others, .astt 0 ⟨1, 0, 0, 5, 0⟩ others,
    .anop 0 ⟨0⟩ others] : List Instr), issuesIn dev i = true := by decide +kernel

theorem witness_vector_slot_issues : ∀ i ∈ ([
    .vadd 0 ⟨1, 2, 3, 0, 0, 0, 0, 1, 0, 0, 0⟩ others, .vsub 0 ⟨1, 2, 3, 0, 1, 0, 0, 0, 0, 0, 0⟩ others,
    .vmin 0 ⟨1, 2, 3, 0, 0, 0, 0, 0, 0, 0, 0⟩ others, .vmax 0 ⟨1, 2, 3, 1, 0, 0, 0, 0, 0, 0, 0⟩ others,
    .vabs 0 ⟨1, 2, 0, 0, 0, 0, 0, 0, 0, 0, 0⟩ others, .vneg 0 ⟨1, 2, 0, 0, 0, 0, 0, 0, 0, 0, 0⟩ others,
    .vand 0 ⟨1, 2, 3, 0, 0, 0, 0, 0, 0, 0, 0⟩ others, .vor 0 ⟨1, 2, 3, 0, 0, 0, 0, 0, 0, 0, 0⟩ others,
    .vxor 0 ⟨1, 2, 3, 0, 0, 0, 0, 0, 0, 0, 0⟩ others, .vshl 0 ⟨1, 2, 0, 0, 0, 0, 0, 0, 0, 31, 0⟩ others,
    .vshr 0 ⟨1, 2, 0, 0, 0, 0, 0, 0, 0, 5, 0⟩ others, .vrshr 0 ⟨1, 2, 0, 0, 0, 1, 0, 0, 0, 5, 0⟩ others,
    .vnarrow 0 ⟨1, 2, 0, 0, 0, 0, 0, 0, 0, 4, 0⟩ others, .vcmpEq 0 ⟨1, 2, 3, 0, 0, 0, 0, 0, 0, 0, 0⟩ others,
    .vcmpNe 0 ⟨1, 2, 3, 0, 0, 0, 0, 0, 0, 0, 0⟩ others, .vcmpLt 0 ⟨7, 2, 3, 1, 0, 0, 0, 0, 0, 0, 0⟩ others,
    .vcmpLe 0 ⟨1, 2, 3, 0, 0, 0, 0, 0, 0, 0, 0⟩ others, .vsel 0 ⟨1, 2, 3, 1, 0, 0, 0, 1, 0, 0, 0⟩ others,
    .vmov 0 ⟨1, 2, 0, 0, 0, 0, 0, 0, 0, 0, 0⟩ others, .vbcast 0 ⟨1, 3, 0, 0, 0, 0, 0, 0, 0, 0, 0⟩ others,
    .vmul 0 ⟨1, 2, 3, 0, 0, 0, 0, 0, 0, 0, 0⟩ others, .vmulr 0 ⟨1, 2, 3, 0, 0, 0, 0, 0, 0, 31, 0⟩ others,
    .vmac 0 ⟨1, 2, 3, 0, 0, 0, 0, 0, 0, 5, 0⟩ others, .vexp2 0 ⟨1, 2, 0, 0, 0, 0, 0, 0, 0, 5, 0⟩ others,
    .vexp 0 ⟨1, 2, 0, 0, 0, 0, 0, 0, 0, 5, 0⟩ others, .vlog2 0 ⟨1, 2, 0, 0, 0, 0, 0, 0, 0, 5, 0⟩ others,
    .vrcp 0 ⟨1, 2, 3, 0, 0, 0, 0, 0, 0, 5, 0⟩ others, .vrsq 0 ⟨1, 2, 3, 0, 0, 0, 0, 0, 0, 5, 0⟩ others,
    .vld 0 ⟨1, 5, 0, 0, 0, 2, 0⟩ others, .vld 0 ⟨1, 5, 0, 0, 0, 0, 0⟩ others,
    .vst 0 ⟨1, 5, 0, 0, 0, 2, 4⟩ others, .vst 0 ⟨1, 5, 0, 0, 1, 0, 0⟩ others,
    .vldx 0 ⟨1, 5, 2, 0, 0, 1, 0⟩ others, .vstx 0 ⟨1, 5, 2, 0, 0, 1, 0⟩ others,
    .vxfr 0 ⟨0, 15, 0, 5, 0⟩ others, .vxfr 0 ⟨1, 0, 0, 5, 0⟩ others,
    .vtile 0 ⟨1, 0, 1, 1, 0, 0, 0, 0, 5, 5, 0⟩ others, .rclr 0 ⟨0, 3, 0, 0, 0⟩ others,
    .rget 0 ⟨0, 0, 1, 0, 0⟩ others, .rgetn 0 ⟨0, 0, 1, 2, 0⟩ others, .vnop 0 ⟨0⟩ others] :
      List Instr), issuesIn dev i = true := by decide +kernel

theorem witness_stream_slot_issues : ∀ i ∈ ([
    .srecv 0 ⟨0, 1, 0, 0, 0⟩ others, .ssend 0 ⟨1, 1, 1, 1, 0⟩ others, .sdrop 0 ⟨0, 0, 0, 0, 0⟩ others,
    .slevel 0 ⟨0, 1, 0, 0, 0⟩ others, .slevel 0 ⟨1, 1, 0, 0, 0⟩ others, .snop 0 ⟨0⟩ others] :
      List Instr), issuesIn dev i = true := by decide +kernel

/-! ### The worked examples of the spec -/

/-- Rounding 6,700 by six bits, and the ties (02). -/
theorem test_rounding : rneShr 6700 6 = 105 ∧ srShr 6700 6 0xB0000000 = 105
    ∧ srShr 6700 6 0x4C000000 = 104 ∧ rneShr (-96) 6 = -2 ∧ rneShr (-32) 6 = 0 := by decide +kernel

/-- need() of small values (02). -/
theorem test_need : [0, -1, 127, -128, 128].map need = [1, 1, 8, 8, 9] := by decide +kernel

/-- Three k-tiles at different scales (02): instruction 2 aligned one by one. -/
theorem test_align : ([6, -10, 7, -2].map fun p => align p (-12) (-10)) = [2, -2, 2, 0]
    ∧ align 300 (-9) (-10) + align (-41) (-9) (-10) = 518 := by decide +kernel

/-- An accumulator tile to I8S, and the increment after rounding (02). -/
theorem test_quant :
    quant [239600, -41000] (-12) 8 none 0 (fun _ => none) false = ⟨[117, -20], -1, 0, false⟩
    ∧ quant [32704] 0 8 none 0 (fun _ => none) false = ⟨[64], 9, 0, false⟩ := by decide +kernel

/-- 0x1234 x 0xFDFD by limbs (02). -/
theorem test_combine16 : limb8 (-515) 0 = 253 ∧ limb8s (-515) 1 = -3
    ∧ combine16 13156 4398 (-54) = -2399900 := by decide +kernel

/-- VEXP2 of -1.489 in Q16 (04). -/
theorem test_vexp2 : (vexp2 (-97604) 16 false none).1 = 23343 := by decide +kernel

/-- Entries of the tables (04). -/
theorem test_tables : tabE.getD 0 0 = 1073741824 ∧ tabE.getD 32 0 = 1518500250
    ∧ tabL.getD 64 0 = 65536 ∧ tabRC.getD 0 0 = 2 ^ 30 ∧ tabRC.getD 64 0 = 2 ^ 29 := by decide +kernel

/-- Encoding one bundle (06). -/
theorem test_bundle_encoding :
    Bundle.decode 0x0F0463813E74870058A110123C23A600 = {
      fmt := 0
      slotv := 15
      ctl := .alu .sadd ⟨3, 3, 1, 1⟩
      arr := .amac ⟨15, 3, 1, 0, 1, 4, 0, 3, 4, 0⟩
      vec := .lane .vmulr ⟨5, 1, 2, 0, 0, 0, 1, 1, 0, 30, 0⟩
      str := .ssend ⟨7, 9, 1, 0, 0⟩ } := by decide +kernel

/-- The slots of the illegal bundle (06). -/
def illegal (slotv : BitVec 4) : Others := ⟨0, slotv, 0x980000, 0, 0, 0⟩

/-- Reporting an illegal bundle (06): SEQ_EXC under SLOTV 0b1101 and 0xF. -/
theorem test_illegal_bundle :
    Bundle.decode 0x0D980000000000000422180000000000
      = withVec (illegal 13) (.lane .vadd ⟨1, 2, 3, 0, 0, 0, 0, 0, 0, 0, 0⟩)
    ∧ (match exec (.vadd 0 ⟨1, 2, 3, 0, 0, 0, 0, 0, 0, 0, 0⟩ (illegal 13)) dev with
      | .next t => (t.core 0).exc == 0x221 && (t.core 0).stopped | _ => false) = true
    ∧ (match exec (.vadd 0 ⟨1, 2, 3, 0, 0, 0, 0, 0, 0, 0, 0⟩ (illegal 15)) dev with
      | .next t => (t.core 0).exc == 0x101 && (t.core 0).stopped | _ => false) = true := by
  decide +kernel

/-- Where a master-weight tile lives (09). -/
theorem test_striped : striped 0x2000400000 48 (1093 * 4096) = 0x2011570000
    ∧ engOf 0x11570000 = 48 ∧ groupOf 0x11570000 = 12 ∧ stackOf 0x2011570000 = 2 := by decide +kernel

/-- One element through OWNUPD (09). -/
theorem test_ownupd : (-300 : Int) + rneShr (align 1200 (-20) (-18) - -300) 3 = -225
    ∧ (5000000 : Int) - shiftRound (-225 * 26214) (-30 - (-18 + -16)) none = 5368634 := by
  decide +kernel

/-- A descriptor's bytes. -/
def desc (op fmt : Nat) : BitVec 512 := BitVec.ofNat 512 (op + 2 ^ 16 * fmt + 2 ^ 32)

/-- A binary32 tile through IMPORT, and EXPORT to binary16 (10). -/
theorem test_import_export :
    importTile (desc 3 (2 + 4 * 1 + 16)) 0 0 (leBytes 12 0x3DCCCCCDBE20000040400000)
      = ⟨[0x60, 0xFB, 0x03], 0xFB, 0, 0⟩
    ∧ exportTile (desc 4 (0 + 4 * 1)) [0x60, 0xFB, 0x03] 0xFB
      = ([0x00, 0x42, 0x00, 0xB1, 0x00, 0x2E], 0) := by decide +kernel

/-- Four contributions to one I32S element (13). -/
theorem test_collective_sum :
    [(1000003, (-30 : Int)), (-7654321, -30), (2000004, -33), (123456789, -40)].map
      (fun p => align p.1 p.2 (-27)) = [125000, -956790, 31250, 15070]
    ∧ quant [-785470] (-27) 16 none 0 (fun _ => none) false = ⟨[-24546], -22, 0, false⟩ := by
  decide +kernel

/-- The combine of token 0 (13). -/
theorem test_mule_combine :
    align 1000 (-8) (-12) + align (16384 * -300) (-15 + -6) (-12) = 6400 := by decide +kernel

/-- The device whose hold-up estimate is the example's (15). -/
def holdDev : State :=
  let drives : List Drive := [0, 1, 2, 3]
  let s := drives.foldl (fun s n => s.setB (fSavDrvStatReady n) true) State.reset
  (((((((s.setF fSavHcfgCap 400).setF fSavHcfgDiv 28).setF fSavHcfgTol 2).setF fSavHvoltVmin 9000).setF
    fSavHneedFlushe 2000).setF fSavHneedSeale 500).setF fSavHvoltVfail 0).wr rSavHestg 12400

/-- Reconciling the two estimates (15). -/
theorem test_holdup :
    (match exec (.holdupSample 1628) holdDev with
      | .next t => t.getF fSavHstatVmeas == 11396 && t.rd rSavHestv == 9773
        && !t.bitF fSavHstatHuplow && t.bitF fSavHstatHdis
      | _ => false) = true := by decide +kernel

/-- The average currents at which rail 2 stands over, neither over nor near, or near its limit. -/
def rail (i : BitVec 16) : List (BitVec 16) :=
  (List.range 17).map fun r => if r = 2 then i else 0

/-- The level of the west die after one evaluation of rail 2 at a level. -/
def level (l : Nat) (i : BitVec 16) : Nat :=
  match exec (.currentEvaluation (rail i)) (State.reset.setF fPwrStretchLevelw l) with
  | .next t => t.heldLevel 0
  | _ => 99

/-- A burst on VDD_CORE_W2 (16): over, neither over nor near, near. -/
theorem test_current_levels :
    level 0 501 = 2 ∧ level 4 501 = 6 ∧ level 6 480 = 6 ∧ level 6 0 = 5 ∧ level 0 0 = 0
      ∧ level 7 501 = 8 := by decide +kernel

/-- An accumulator error in a training step (18): the record's words. -/
theorem test_error_record :
    (⟨9, 0x301, unitArray 37 2, false, true, 0x16BC, 0⟩ : ErrRec).words true 0x129C40 0x2008
      = [0x06030109, 0x00011096, 0x00129C40, 0, 0x16BC, 0, 0x2008, 0] := by decide +kernel

/-- Addresses of the register index, and the reset value of PWR_CEIL (19). -/
theorem test_register_index : rLog 517 3 = 0xC0C0AC ∧ State.reset.rd rPwrCeil = 0x05783990
    ∧ State.reset.getF fPwrCeilLimit = 400 ∧ State.reset.getF fPwrCeilSetlimit = 1400 := by
  decide +kernel

/-! ### Witnesses: what the statements on bundles assume beside the issue -/

theorem witness_step : ({ State.reset with pending := [.marker, .gstale] } : State).pending
    = .marker :: [.gstale] := rfl

/-- A device whose time counts, after a change from multiplier 16 to 9. -/
def lowered : State :=
  ({ State.reset with
    mgt := { State.reset.mgt with pwrok := true, fref := true }
    pwr := { PwrSt.reset with vfall := some 9 } } : State)

/-- R651: one tk after the change, VREQ is the entry of multiplier 9, which the fuses give as 710 mV. -/
theorem test_vreq_falls : (match step lowered with
    | .next t => (t.getF (fPwrVqVreq 0), t.getF (fPwrVqVreq 7), t.pwr.vfall.isNone)
    | _ => (0, 0, false)) = (710, 710, true) := by decide +kernel

theorem witness_idle : lowered.counts = true ∧ lowered.pwr.vfall = some 9 ∧ lowered.pending = []
    ∧ State.reset.pwr.vfall = none ∧ State.reset.pending = [] ∧ State.reset.counts = false
    ∧ ({ State.reset with mgt := { State.reset.mgt with pwrok := true, fref := true } } : State).counts
      = true := by decide +kernel

theorem witness_bundle_round_trip :
    let b := Bundle.decode 0x0F0463813E74870058A110123C23A600
    b.ctl.undefd = false ∧ b.arr.undefd = false ∧ b.vec.undefd = false ∧ b.str.undefd = false := by
  decide +kernel

/-- In a delay slot; at the end of loop 0, whose body is bundle 3, with its count at 2 and at 1; at a
loop's end with an outer loop that ends there too. -/
theorem witness_sequencer : ∀ x ∈ ([fun x => { x with ds := true, dst := 9 },
    fun x => { x with loops := [(0, ⟨3, 3, 2, true⟩)] },
    fun x => { x with loops := [(0, ⟨3, 3, 1, true⟩)] },
    fun x => { x with loops := [(0, ⟨1, 3, 5, true⟩), (1, ⟨3, 3, 1, true⟩)] }] :
      List (CoreSt → CoreSt)), issuesIn (devWith x) (.cnop 0 ⟨0⟩ others) = true := by decide +kernel

/-- Branches taken and not taken, and branches out of loops. -/
theorem witness_branches :
    branchOf core0 (.br .eqz ⟨0, 4⟩) = some ((core0.sreg 0).toInt = 0, 4)
    ∧ (core0.sreg 0).toInt = 0 ∧ (core0.sreg 3).toInt ≠ 0 ∧ (core0.sreg 4).toInt < 0
    ∧ core0.loopCount ⟨0, 1, 3, 2⟩ = 3 ∧ core0.loopCount ⟨2, 1, 0, 2⟩ = 0 := by
  refine ⟨rfl, ?_⟩
  decide +kernel

/-- A SETMODE two bundles, one bundle and no bundle ago. -/
theorem witness_mode_shadow : ∀ n ∈ [0, 1, 2],
    issuesIn (devWith fun x => { x with pcount := n, pmode := 16 }) (.cnop 0 ⟨0⟩ others) = true := by
  decide +kernel

/-- A HERD fence of a core with words composed since its last one, in a herd of two. -/
theorem witness_fence_issue :
    let h : HerdCfg := ⟨8, [0, 0, 0, 0], [1, 1, 1, 2], 0⟩
    let map : ChipMapCfg := ⟨[0, 1], [], []⟩
    let y : State := { devWith fun x => { x with lastComp := some 5 } with
      imgA := some { img with herd := some ⟨[h], [], []⟩, chipmap := some map }
      logical := some [0, 1] }
    issuesIn y (.fence 0 ⟨4, 0⟩ others) = true ∧ (y.core 0).lastComp.isSome = true ∧ y.fencePeers 0 ≠ [] := by
  decide +kernel

/-- A DONE before and after the FIFO is full. -/
theorem witness_done :
    let e : CmpEntry := ⟨0, 1, false, false, 0, 0⟩
    let y := devWith fun x => { x with fifo := List.replicate 4 e }
    issuesIn y (.done 0 ⟨9, 0⟩ others) = true ∧ (y.core 0).fifo.length = 4
    ∧ (dev.core 0).fifo.length < 4 := by decide +kernel

/-- An AMAC behind the one in progress, and behind none. -/
theorem witness_amac_queue :
    let j : AmacJob := ⟨encodeArr (.amac ⟨1, 0, 0, 0, 0, 0, 0, 1, 1, 0⟩), 0, 0⟩
    issuesIn (devWith fun x => { x with quad := { Quad.reset with run := some ⟨j, 0, false⟩ } })
      (.amac 0 ⟨1, 0, 0, 0, 0, 0, 0, 1, 1, 0⟩ others) = true
    ∧ (dev.core 0).quad.run = none := by decide +kernel

/-- A fold at the front of the queue, of each kind that the statement names. -/
theorem witness_fold : ∀ k ∈ [1, 2, 3, 4, 5],
    let y := devWith fun x => { x with
      raccs := [(0, ⟨k, 7, 0, 0⟩)]
      folds := [⟨0, false, k, 5, 3⟩] }
    (y.core 0).folds = ⟨0, false, k, 5, 3⟩ :: [] ∧ ((y.core 0).racc 0).kind = k := by decide +kernel

/-- A SADD with no SLOTV: ILLEGAL in the control slot; an SLD below and past the scratchpad: PROT. -/
theorem witness_sync_exceptions :
    dev.illegalAt 0 (withVec (illegal 13) (.lane .vadd ⟨1, 2, 3, 0, 0, 0, 0, 0, 0, 0, 0⟩)) = some (2, 2)
    ∧ (dev.core 0).blocked (withVec (illegal 13) (.lane .vadd ⟨1, 2, 3, 0, 0, 0, 0, 0, 0, 0, 0⟩)) = []
    ∧ dev.excEcc 0 (withVec (illegal 13) (.lane .vadd ⟨1, 2, 3, 0, 0, 0, 0, 0, 0, 0, 0⟩)) = none
    ∧ (let b := withCtl others (.sld ⟨1, 0, 0xFF⟩)
      dev.excEcc 0 b = none ∧ (dev.core 0).blocked b = [] ∧ dev.illegalAt 0 b = none
      ∧ dev.protAt 0 b = some (0, ⟨0x101, 0xFFFFFFFC, -4⟩))
    ∧ (let y := devWith fun x => { x with sregs := [(3, 0x2E0000)] }
      let b := withCtl others (.sst ⟨1, 3, 0⟩)
      y.excEcc 0 b = none ∧ (y.core 0).blocked b = [] ∧ y.illegalAt 0 b = none
      ∧ y.protAt 0 b = some (0, ⟨0x101, 0x2E0000, 0x2E0000⟩)) := by decide +kernel

theorem witness_runs : Runs dev 0 ∧ (dev.core 0).pend = PendExc.none ∧ dev.bkptHit 0 = false := by
  unfold Runs
  decide +kernel

/-- A bundle held by a WAITCAL; a core that is stopped. -/
theorem witness_held :
    (dev.core 0).holds (withCtl others (.waitcal ⟨1, 0⟩)) = 5 :: []
    ∧ (dev.core 0).early (withCtl others (.waitcal ⟨1, 0⟩)) = false
    ∧ (dev.core 0).storeIs Ecc.bad = []
    ∧ ¬ Runs (devWith fun x => { x with stopped := true }) 0 := by
  unfold Runs
  decide +kernel

/-! ### Witnesses: the sequencer -/

theorem witness_debug : dev.debugOf 0 = true ∧ State.reset.debugOf 0 = false
    ∧ (let y := devWith fun x => { x with stopped := true, exc := 0x30E }
      (y.core 0).stopped = true ∧ (y.core 0).exc.toNat % 8 = 6 ∧ y.debugOf 0 = true)
    ∧ (dev.core 0).stopped = false ∧ (dev.core 0).cfg.isSome = true ∧ (dev.core 0).switching = false
    ∧ (let y := devWith fun x => { x with switching := true }
      (y.core 0).switching = true ∧ y.debugOf 0 = true) := by decide +kernel

/-- A pending exception of each class, alone and with one of a later class. -/
theorem witness_async : ∀ p ∈ ([⟨some 1, [(2, 0)], [], some 4, none⟩,
    ⟨none, [(31, 256), (2, 0)], [(0x100, 8)], none, none⟩,
    ⟨none, [], [(0x100, 8), (0x101, 4)], some 1, none⟩, ⟨none, [], [], some 4, none⟩] : List PendExc),
    let y := devWith fun x => { x with pend := p }
    (y.core 0).pend = p ∧ p.preempt = none ∧ y.excEcc 0 (y.core 0).atPc = none
    ∧ (y.core 0).stopped = false ∧ (y.core 0).switching = false ∧ (y.core 0).bare = false
    ∧ (y.core 0).cfg.isSome = true := by decide +kernel

theorem witness_preempt :
    let y := devWith fun x => { x with pend := { PendExc.none with preempt := some 5 } }
    let z := devWith fun x => { x with pend := { PendExc.none with preempt := some 5 }, stopped := true }
    (y.core 0).pend.preempt = some (5 : Fin 64).val ∧ Runs y 0
    ∧ (z.core 0).pend.preempt = some (5 : Fin 64).val ∧ (z.core 0).stopped = true
    ∧ (z.core 0).switching = false ∧ (y.core 1).pend.preempt ≠ some 5 := by
  unfold Runs
  decide +kernel

theorem witness_switch :
    let y := devWith fun x => { x with switching := true, emptyB := true, cfgB := some cfg }
    let x := y.core 0
    x.switching = true ∧ x.bare = false ∧ x.slot = .a ∧ x.emptyB = true ∧ y.testWaits 0 = false
    ∧ y.sd.retired = [] ∧ y.unloadB = false ∧ x.spEcc = [] ∧ x.ocEcc = [] ∧ x.arrays = []
    ∧ x.cfgA.isSome = true ∧ x.cfgB.isSome = true := by decide +kernel

/-! ### Witnesses: arrays -/

/-- The AMAC of the lists above, with OW, at its second slot. -/
def amacRun : AmacRun :=
  ⟨⟨encodeArr (.amac ⟨1, 0, 1, 0, 0, 0, 0, 2, 2, 0⟩), 0, 0⟩, 0, true⟩

/-- The last slot of that AMAC. -/
def amacLast : AmacRun := { amacRun with knext := 31 }

theorem witness_amac_slot : ∀ r ∈ [amacRun, amacLast],
    let y := devWith fun x => { x with quad := { Quad.reset with run := some r } }
    let x := y.core 0
    x.quad.run = some r ∧ x.quad.stopped = false ∧ x.switching = false ∧ x.quad.drainBlocks r = false
    ∧ (∀ p ∈ r.job.feeds, y.feedReady 0 p.1 p.2 = .ready)
    ∧ r.job.f.amask = BitVec.ofNat 4 (2 ^ 0) ∧ r.started = true ∧ (x.arr 0).ecc = []
    ∧ (let ks := kIdx 2 2 r.knext
      let row := y.feed 0 0 2 r.knext true ks
      row.1.valid = true ∧ (row.2.feed 0 1 2 r.knext false ks).1.valid = true)
    ∧ (amacLast.knext + 1 = kSlots r.job.f.ka.toNat r.job.f.kb.toNat) := by decide +kernel

/-- Feeders that take their vectors from an empty port. -/
theorem witness_amac_stall :
    let cf := { cfg with feeders := List.replicate 5 ⟨true, true, 3, false, 0⟩ }
    let y := devWith fun x => { x with
      cfgA := some cf
      quad := { Quad.reset with run := some amacRun } }
    ∃ p ∈ amacRun.job.feeds, y.feedReady 0 p.1 p.2 = .missing := by decide +kernel

/-- The drain of each of the four operations, waiting, with the quad stopped and running. -/
theorem witness_drain : ∀ op ∈ ([.adrq ⟨1, 0, 1, 1, 0, 0, 0, 0, 2, 0⟩, .adrw ⟨1, 0, 0, 5, 0⟩,
      .aldt ⟨1, 15, 0, 5, 0⟩, .astt ⟨8, 3, 0, 5, 0⟩] : List ArrOp), ∀ stop ∈ [true, false],
    let d : DrainJob := ⟨encodeArr op, 0x1000, 0, 0, 0, none⟩
    let y := devWith fun x => { x with quad := { Quad.reset with drain := some d, stopped := stop } }
    (y.core 0).quad.drain = some d ∧ (y.core 0).quad.stopped = stop ∧ (y.core 0).switching = false
    ∧ (y.core 0).quad.amacBlocks d = false ∧ decodeArr d.word = op := by decide +kernel

/-- An ADRQ whose port has places for the token, and one whose port has not. -/
theorem witness_drain_places :
    tokenWords 1 1 ≤ core0.free 2
    ∧ ({ core0 with ports := [(2, { PortSt.reset with queue := List.replicate 13 (3, word 0) })] } :
        CoreSt).free 2 < tokenWords 1 1 := by decide +kernel

/-! ### Witnesses: requesters -/

theorem witness_bar0_rows : Bar0Row (.errClrcnt .pf1 0) .pf1 0 0 0 0 false
    ∧ Bar0Row (.seqHalt .smbus 255) .smbus 255 0 0 0 false
    ∧ (2 : BitVec 32).getLsbD 1 = true ∧ (0 : BitVec 32).getLsbD 1 = false := by
  refine ⟨?_, ?_, rfl, rfl⟩ <;> simp [Bar0Row]

/-! ### Witnesses: routes, sinks, completions, memory slots -/

/-- An endpoint that walks four words from address 0. -/
def endp (typ route : Nat) : EpCfg :=
  ⟨typ, 0, route, 0, 0, 0, [256, 0, 0, 0], [4, 1, 1, 1]⟩

/-- The schedule of stack 0: group 0 is endpoint 0's, then endpoint 1's, then nobody's. -/
def sched : BankSchedCfg := ⟨0, 0, [0x10, 0x11, 0], [endp 1 1, endp 2 2, endp 3 3]⟩

/-- An image with a route from a core's port to a port, one from a stack endpoint to a sink, one from a
landing channel to a stack endpoint, and one from a port to a CMD endpoint. -/
def net : Image :=
  { img with
    routes := [⟨32769, 0, 0xFFFF, 0, false, []⟩ , ⟨8192, 24576, 1, 0, false, []⟩,
      ⟨32768, 8193, 0x8000, 0, false, []⟩, ⟨1, 8194, 1, 0, false, []⟩, ⟨1, 0, 1, 0, false, []⟩]
    scheds := [sched] }

/-- The fabric tables in force: landing channel 0 of port 0 for route 2. -/
def fab0 : FabricCfg := ⟨0, 0, [], [], [], [], [], [⟨0, 2, 4⟩], []⟩

/-- The device with that image, credits on every route and words at every source. -/
def wired : State :=
  { dev with
    imgA := some net
    fabApplied := some fab0
    routes := (List.range 5).map fun r => (r, { RouteSt.reset with credits := 4, creditsBack := 1 })
    cores := [(0, { core0 with ports := [(1, { PortSt.reset with queue := [(4, word 6)] })] })]
    chans := [(0, { ChanSt.reset with words := [word 7] })]
    eps := [(0, { EpSt.reset with buf := [word 8] }), (1, { EpSt.reset with buf := [word 9] })]
    sinks := [(0, { SinkSt.reset with buf := [(1, word 10)] })] }

theorem witness_route_send :
    (wired.routeCfg .a 4 = some ⟨1, 0, 1, 0, false, []⟩ ∧ epKind 1 = 0 ∧ 0 = epIdx 1 / 32
      ∧ 1 = epIdx 1 % 32 ∧ ((wired.core 0).port 1).queue = (4, word 6) :: []
      ∧ ((wired.core 0).port 1).fault = false ∧ 0 < (wired.route .a 4).credits)
    ∧ (epKind 8192 = 1 ∧ (wired.ep .a 0 0).buf = word 8 :: [])
    ∧ (4 ≤ epKind 32768 ∧ wired.chanOf 2 (epIdx 32768) = some 0
      ∧ (wired.landing 0).words = word 7 :: [] ∧ (0x8000 : BitVec 16).getLsbD 15 = true)
    ∧ 0 < (wired.route .a 4).creditsBack ∧ (State.reset.route .a 4).creditsBack = 0 := by
  decide +kernel

theorem witness_route_arrive : ∀ r ∈ [1, 2, 4],
    let y := wired.setRoute .a r { RouteSt.reset with flight := [word 3] }
    (y.routeCfg .a r).isSome = true ∧ (y.route .a r).flight = word 3 :: []
    ∧ ((y.routeCfg .a r).map fun cf => epKind cf.dst) = some (if r = 1 then 3 else if r = 2 then 1 else 0)
    ∧ ((y.core 0).port 0).discard = false := by decide +kernel

theorem witness_sink_raw :
    (wired.sink .a 0 0).buf = (1, word 10) :: [] ∧ wired.sinkCfg .a 0 0 = some ⟨true, 0x1000, 0x2000, 1⟩
    ∧ ((wired.routeCfg .a 1).map (·.tile)).getD false = false
    ∧ wired.spadOk .a 0 (0x1000 + (wired.sink .a 0 0).raw : Nat) 256 = true
    ∧ (wired.core 0).slot = .a ∧ (wired.core 0).bare = false
    ∧ (let y : State := { wired with sinks := [(0, { SinkSt.reset with raw := 0x300000, buf := [(1, word 10)] })] }
      (y.sink .a 0 0).buf = (1, word 10) :: []
      ∧ y.spadOk .a 0 (0x1000 + (y.sink .a 0 0).raw : Nat) 256 = false) := by decide +kernel

/-- The same device, route 1 a TILE route; a mantissa word, and the scale word after four. -/
theorem witness_sink_tile : ∀ z ∈ [(false, 3), (true, 4)],
    let y : State := { wired with
      imgA := some { net with routes := net.routes.set 1 ⟨8192, 24576, 1, 0, true, []⟩ }
      sinks := [(0, { SinkSt.reset with words := z.2, buf := [(1, { word 1 with last := z.1 })] })] }
    ((y.routeCfg .a 1).map (·.tile)).getD false = true ∧ (y.sink .a 0 0).discard = false
    ∧ (y.sink .a 0 0).buf = (1, { word 1 with last := z.1 }) :: []
    ∧ (if z.1 then (y.sink .a 0 0).words = 1 * (fmtBytes 1 / 256)
        ∧ y.spadOk .a 0 (0x2000 : Nat) 1 = true
      else (y.sink .a 0 0).words < 4 * (fmtBytes 1 / 256)
        ∧ y.spadOk .a 0 (0x1000 + 256 * 3 : Nat) 256 = true) := by decide +kernel

/-- A completion at the reporter's die, with its ring disabled, and with room in it. -/
theorem witness_completion :
    let e : CmpEntry := ⟨0, 1, false, false, 2, 3⟩
    let y : State := { State.reset with coll := [(0, { DieColl.reset with queue := [e] })] }
    let z := (y.wr4 0 0x2008 4).wr4 0 0x200C 1
    y.reporter.side = false ∧ (y.dieColl 0).queue = [e] ∧ (y.dieColl 1).queue = []
    ∧ y.cringFull 0 = true ∧ z.cringFull 0 = false ∧ (z.dieColl 0).queue = [e]
    ∧ (y.rd4 0 28).getLsbD 0 = true ∧ ((y.wr4 0 28 0).rd4 0 28).getLsbD 0 = false := by decide +kernel

theorem witness_memory_slot :
    (∀ g < 16, (wired.setStk 0 { StackSt.reset with sched := 2 }).slotUse 0 g 2 = .none)
    ∧ (∀ z ∈ [(0, 1), (1, 2)],
      let n := z.1
      let y := wired.setStk 0 { StackSt.reset with sched := n }
      y.slotUse 0 0 (y.stk 0).sched = .ep .a n ∧ (∀ g' < 16, g' ≠ 0 → y.slotUse 0 g' n = .none)
      ∧ y.epCfg .a 0 n = some (endp z.2 z.2) ∧ (endp z.2 z.2).access (y.ep .a 0 n).walk
        = some (.word 0 false)
      ∧ groupOf 0 = 0 ∧ y.imgXlate .a 0 0 256 ((endp z.2 z.2).typ == 2) = .ok 0
      ∧ (y.ep .a 0 n).fault = none ∧ (y.ep .a 0 n).abandoned = false
      ∧ (y.ep .a 0 n).buf.length < (y.route .a z.2).credits
      ∧ (y.ep .a 0 1).buf = [word 9]) := by decide +kernel

/-! ### Witnesses: images -/

/-- A load of slot A from address 0. -/
def load : Loader where
  drive := false
  slot := .a
  force := false
  variant := 0
  src := 0
  len := 0x80
  drv := 0
  lba := 0
  applyt := 0
  viaMailbox := none
  failed := false
  bytes := []
  img := some blank
  pages := []

/-- A device whose loader is in a state. -/
def loading (l : Loader) (st : Nat) : State :=
  ({ State.reset with loader := some l } : State).setF fImgStatusState st

theorem witness_image_control :
    State.reset.imgState = 0 ∧ (loading load 5).imgState = 5 ∧ (loading load 6).imgState = 6
    ∧ (loading load 1).loader = some load ∧ load.viaMailbox = none
    ∧ ((State.reset.wr4 0 44 0).rd4 0 44).getLsbD 0 = false
    ∧ (0x41 : BitVec 32).getLsbD 6 = true ∧ (0x41 : BitVec 32).getLsbD 1 = false := by decide +kernel

/-- GO for a load from drive 1, which is READY, with its source at `src`. -/
def driveGo (src : W64) : State :=
  ((State.reset.wr rImgLen 0x20080).wr64 rImgSrcLo src).setF fImgDrvDrive 1

theorem witness_image_drive :
    (0x10 : BitVec 32).getLsbD 4 = true ∧ (0x10 : BitVec 32).getLsbD 5 = false
    ∧ (0x10 : BitVec 32).getLsbD 2 = false ∧ (0x10 : BitVec 32).getLsbD 3 = false
    ∧ ({ load with drive := true, src := 4096, len := 0x20080, drv := 1 } : Loader).rangeOk = true
    ∧ ({ load with drive := true, src := 1, len := 0x20080, drv := 1 } : Loader).rangeOk = false
    ∧ (driveGo 4096).imgState = 0 ∧ (driveGo 4096).rd64 rImgSrcLo = 4096 ∧ (driveGo 1).rd64 rImgSrcLo = 1
    ∧ (driveGo 4096).rd rImgLen = 0x20080 ∧ (driveGo 4096).getF fImgDrvDrive = 1
    ∧ (driveGo 4096).driveReady 1 = false ∧ ((driveGo 4096).drive 1).cmds = []
    ∧ ((driveGo 4096).setB (fSavDrvStatReady 1) true).driveReady 1 = true
    ∧ State.reset.sav.clutch = none := by decide +kernel

/-- READ of a range that is not aligned, of one without an image, of a drive with a Read outstanding and of one
with a Read that failed. -/
theorem witness_load_read :
    ({ load with src := 1 } : Loader).rangeOk = false ∧ load.rangeOk = true
    ∧ (∀ st ∈ [1, 2, 3, 4], (loading load st).imgState = st ∧ (loading load st).loader = some load)
    ∧ ((loading load 1).memRead .other 256 0 0x80).1.bad = []
    ∧ headerStatus ((loading load 1).memRead .other 256 0 0x80).1.bytes 0x80 ≠ 0
    ∧ (({ loading load 1 with memEcc := [(0, .double)] } : State).memRead .other 256 0 0x80).1.bad ≠ []
    ∧ load.failed = false ∧ (loading load 1).useBusy NvmeUse.ofImage = false
    ∧ (let y : State := { loading { load with drive := true } 1 with drives := [(0, { DriveSt.reset with
        cmds := [⟨0, opRead, 0, 1, false, some 0, [], .image 0, false, some 0, 0, false⟩] })] }
      y.useBusy NvmeUse.ofImage = true ∧ y.loader = some { load with drive := true } ∧ y.imgState = 1)
    ∧ (let l := { load with drive := true, failed := true }
      l.failed = true ∧ l.rangeOk = true ∧ (loading l 1).loader = some l) := by decide +kernel

theorem witness_image_swap :
    let a := loading load 5
    let b := loading { load with slot := .b } 5
    let busy : State := { a with cores := [(0, core0)] }
    (load.img = some blank ∧ blank.partImg = false ∧ a.slotIdle .a = true ∧ a.imgState = 5)
    ∧ b.bResident = false ∧ b.slotIdle .b = true ∧ b.windowOpen = false
    ∧ (let w : Image := { img with windows := [⟨1, 2, true, 0, 1⟩] }
      let z : State := { b with imgA := some w, winOpen := [0] }
      z.windowOpen = true ∧ z.bResident = false)
    ∧ busy.slotIdle .a = false
    ∧ ({ b with cores := [(0, { core0 with slot := .b })] } : State).bResident = true
    ∧ a.okBase .a { blank with partImg := true, baseId := 1 } = false := by decide +kernel

theorem witness_core_switch :
    let y : State := { loading load 6 with cores := [(0, { core0 with nextA := some cfg })] }
    y.imgState = 6 ∧ (y.core 0).nextA = some cfg ∧ (y.core 0).slot = .a ∧ (y.core 0).bare = false
    ∧ (y.core 0).switching = false ∧ (y.core 0).quiet = true ∧ (y.core 0).cutPorts = []
    ∧ (let z : State := { y with cores := [(0, { core0 with
        nextA := some cfg
        ports := [(1, { PortSt.reset with mid := true })]
        folds := [⟨0, false, 1, 0, 0⟩] })] }
      (z.core 0).quiet = false ∧ (z.core 0).cutPorts ≠ []) := by decide +kernel

theorem witness_default_image :
    ({ State.reset with defPend := true } : State).slotIdle .a = true ∧ dev.slotIdle .a = false := by
  decide +kernel

/-! ### Witnesses: the bank engines -/

/-- A command of one unit: its OP, and other fields as first byte and value. -/
def unitCmd (op : Nat) (l : List (Nat × Nat)) : BitVec 512 :=
  BitVec.ofNat 512 (l.foldl (fun a e => a + e.2 * 2 ^ (8 * e.1)) (op + 2 ^ 32))

/-- A DIGEST of one word at 0 with its sum to 256 KiB. -/
def digest : BitVec 512 := unitCmd 6 [(44, 1)]

/-- A command at the front of its queue. -/
def cmdOf (c : BitVec 512) (units : Nat) (p : List Byte) : BeCmd :=
  ⟨c, p, .route 3, 0, units, false, 0, []⟩

/-- Stack 0 with a command in context A. -/
def queued (c : BitVec 512) (units : Nat) (p : List Byte) : State :=
  wired.setStk 0 { StackSt.reset with qa := [cmdOf c units p] }

theorem witness_command_token :
    let w : SWord := ⟨digest.setWidth 2048, true, false, false, false, 0⟩
    let y := wired.setEp .a 0 2 { EpSt.reset with buf := [w] }
    y.epCfg .a 0 2 = some (endp 3 3) ∧ (y.ep .a 0 2).buf = ([w] : List SWord) ++ []
    ∧ firstToken (y.ep .a 0 2).buf = some [w] ∧ y.bwt.lists = [] ∧ y.sav.clutch = none
    ∧ (y.stk 0).takes .a false = true ∧ w.data.extractLsb' 512 1536 = 0
    ∧ beKnown (beOp (w.data.extractLsb' 0 512)) = true
    ∧ ({ StackSt.reset with qa := List.replicate 8 (cmdOf digest 0 []) } : StackSt).takes .a false
      = false := by decide +kernel

/-- A ring of 256 entries at 0x100000 whose first entry is the DIGEST. -/
def ring : State :=
  { (State.reset.setF fMemHrsizeLog2 8).wr rMemHrbaseLo 0x100000 with
    mem := Tab.putList (fun _ => 0) [] 0x100000 (leBytes 64 digest.toNat) }

theorem witness_host_ring :
    let m := (ring.memRead .other 256 (ring.ringAddr ring.hring.fetch) 128).1.bytes
    ringAhead (1 % 65536) (ring.getF fMemHrheadHead) ≤ 2 ^ ring.getF fMemHrsizeLog2
    ∧ 2 ^ ring.getF fMemHrsizeLog2 < ringAhead (257 % 65536) (ring.getF fMemHrheadHead)
    ∧ (ring.hring.fetch + 1) % 65536 = 1 ∧ ring.hring.fetch = 0 ∧ ring.memEcc = [] ∧ ringOk m = true
    ∧ (ring.stk 0).takes .h (fieldLe m 66 2 != 0) = true ∧ fieldLe m 66 2 = 0
    ∧ ring.ringBarred (ring.ringAddr ring.hring.fetch) 128 = false
    ∧ ring.ringBarred (fieldLe m 72 8) (256 * fieldLe m 66 2) = false
    ∧ beKnown (beOp (BitVec.ofNat 512 (leNat (m.take 64)))) = true := by decide +kernel

theorem witness_command_complete :
    let y := queued digest 1 []
    let z := queued (BitVec.ofNat 512 7) 0 []
    (y.stk 0).queue .a = cmdOf digest 1 [] :: [] ∧ (cmdOf digest 1 []).origin = .route 3
    ∧ y.bwt.lists = [] ∧ y.hring.fetch = y.getF fMemHrtailTail
    ∧ y.beStart 0 .a (cmdOf digest 1 []) = none ∧ beNt digest ≤ 1 ∧ y.beSent .a digest = true
    ∧ (queued digest 0 []).beStart 0 .a (cmdOf digest 0 []) = none ∧ 0 < beNt digest
    ∧ z.beReject .a 0 (cmdOf (BitVec.ofNat 512 7) 0 []) = some none := by decide +kernel

/-- One command for each row of the bank engines, accepted and about to run its only unit. -/
theorem witness_bank_units : ∀ z ∈ [
      (unitCmd 1 [(20, 1), (40, 6), (48, 0xFFFF), (50, 8)], 256),
      (unitCmd 2 [(20, 1), (24, 2), (28, 3), (32, 4), (36, 5), (40, 6), (44, 8), (48, 0xFFFF)], 0),
      (unitCmd 3 [(24, 2), (32, 4), (36, 5), (40, 6), (44, 8)], 0),
      (unitCmd 4 [(20, 1), (32, 4), (36, 5), (40, 6), (44, 8), (48, 0xFFFF)], 0),
      (unitCmd 5 [(32, 4)], 0), (digest, 0),
      (unitCmd 7 [(20, 1), (44, 8), (48, 0xFFFF), (50, 1), (51, 1)], 512),
      (unitCmd 8 [(48, 0xFFFF), (50, 0xFF)], 0)],
    let b := cmdOf z.1 0 (List.replicate z.2 1)
    (queued z.1 0 (List.replicate z.2 1)).beStart 0 .a b = none ∧ b.poisoned = false
    ∧ b.units < beNt b.cmd ∧ (queued z.1 0 []).beGiven 0 .a b = false := by decide +kernel

/-- A slot that gives context A every group. -/
theorem witness_bank_given :
    let y := wired.setStk 0 { StackSt.reset with
      qa := [cmdOf digest 0 []], given := List.replicate 16 (.ctx .a) }
    y.beGiven 0 .a (cmdOf digest 0 []) = true ∧ y.beGiven 0 .a (cmdOf (unitCmd 1 [(20, 1)]) 0 []) = true
    ∧ (y.stk 0).queue .a = cmdOf digest 0 [] :: [] ∧ y.memEcc = [] :=
  ⟨by decide +kernel, by decide +kernel, rfl, rfl⟩

/-! ### Witnesses: translation -/

/-- An entry of slot A for the first GiB of virtual offsets. -/
def ident : XEntry := ⟨.a, true, 0, 0, true, true⟩

/-- A device with that entry in every buffer. -/
def mapped : State :=
  { State.reset with xbufs := (List.range 4).map fun n => (n, ⟨[ident], [], none⟩) }

/-- A buffer that holds the entry maps the first GiB to itself, on a device that is logical chip 0. -/
theorem idMapped_of_ident (s : State) (h : (s.xbuf .dma).entries = [ident]) (hl : s.logChip = some 0)
    (hg : s.granted 0 = false) : IdMapped s .a := by
  constructor
  · intro va n w hn hv
    have e1 : va % 2 ^ 48 / 2 ^ 30 = 0 := by omega
    have e2 : va % 2 ^ 30 = va := by omega
    have e3 : va / 2 ^ 30 = 0 := by omega
    have e4 : (va + n - 1) / 2 ^ 30 = 0 := by omega
    refine ⟨ident, ?_, ?_⟩
    · simp [State.xhit, h, ident, XEntry.covers, XEntry.size]
      omega
    · have hn0 : n ≠ 0 := by omega
      have hiso : s.isoOk false va n = true := by
        simp only [State.isoOk, gibs, if_neg hn0, e3, e4]
        simp [hg]
      have : ident.ppage * ident.size + va % ident.size = va := by
        simp [ident, XEntry.size]
        omega
      have hs : (ident.slot == JobSlot.b) = false := rfl
      simp only [State.through, this, hs, hiso]
      cases w <;> rfl
  · intro a ha
    have e : a / 281474976710656 = 0 := by omega
    simp [State.place, hl, e]

theorem witness_identity_map : IdMapped mapped .a :=
  idMapped_of_ident mapped (by decide +kernel) (by decide +kernel) (by decide +kernel)

theorem witness_invalidation :
    let y := mapped.setB fXltStatusInvbusy true
    mapped.bitF fXltStatusInvbusy = false ∧ y.bitF fXltStatusInvbusy = true
    ∧ (7 : BitVec 32).toNat % 4 = 3 ∧ (4 : BitVec 32).getLsbD 2 = true
    ∧ (let w : XWalk := ⟨.a, 0, true, true, .read 0 0 4⟩
      let z : State := { mapped with xbufs := [(0, ⟨[], [w], none⟩)], invBusy := some (2, .a, 0) }
      (z.xbuf .host).walks.any (·.old) = true ∧ z.invBusy.isSome = true
      ∧ (∀ b, (mapped.xbuf b).walks.any (·.old) = false)
      ∧ (z.xbuf .host).walks = [w] ∧ z.memEcc = [] ∧ w.waiter = .read 0 0 4) := by
  refine ⟨by decide +kernel, by decide +kernel, rfl, rfl, by decide +kernel, rfl, ?_, by decide +kernel,
    rfl, rfl⟩
  intro b
  cases b <;> decide +kernel

/-- A leaf of the first GiB in the table at 0, and an empty table. -/
theorem witness_walk :
    let y : State := { State.reset with mem := Tab.putList (fun _ => 0) [] 0 [0x0F] }
    (y.walk .a 0).1 = .leaf ⟨0, true, true, true⟩ ∧ (State.reset.walk .a 0).1 = .fault .notPresent
    ∧ (let e := XEntry.ofLeaf .a 0 ⟨0, true, true, true⟩
      y.fillStale ⟨.a, 0, false, true, .read 0 0 4⟩ e = false
      ∧ ({ y with invBusy := some (2, .a, 0) } : State).fillStale ⟨.a, 0, true, true, .read 0 0 4⟩ e = true
      ∧ y.through e 0 4 false = .ok 0)
    ∧ (let w : XWalk := ⟨.a, 0, false, true, .read 0 0 4⟩
      let p : State := { y with mem := Tab.putList (fun _ => 0) [] 0 [1, 0x10], xbufs := [(0, ⟨[], [w], none⟩)] }
      let z := p.setStk 0 { StackSt.reset with given := [.cls 1] }
      let k := z.setXbuf .host ⟨[], [w], some 0x1000⟩
      (p.xbuf .host).walks = w :: [] ∧ (p.xbuf .host).ptr = none ∧ p.topAt .a 0 + 8 ≤ memTop
      ∧ p.givenAt (p.topAt .a 0) ≠ .cls 1
      ∧ (z.walkTop .a 0).1 = .table 0x1000 ∧ z.walkServed (z.topAt .a 0) = true
      ∧ z.walkServed (lowAt 0x1000 0) = true
      ∧ (let h := p.setStk 0 { StackSt.reset with given := [.cls 1, .nothing] }
        (∀ a ∈ [lowAt 0x4000 0], h.walkServed a = (h.givenAt a == .cls 1)) ∧ h.memEcc = [])
      ∧ (k.xbuf .host).ptr = some 0x1000 ∧ k.walkServed (lowAt (0x1000 : W64).toNat 0) = true
      ∧ (k.xbuf .host).walks = [w]) := by decide +kernel

theorem witness_held_fault :
    let f : HeldFault := ⟨true, 1, 256, 0, false⟩
    let y := wired.setEp .a 0 1 { EpSt.reset with fault := some f }
    y.heldFault .a 0 1 = some (endp 2 2, f) ∧ y.farPort .a (endp 2 2) = none
    ∧ y.farPort .a (endp 1 4) = some (0, 0)
    ∧ (y.core 0).slot = .a ∧ (y.core 0).bare = false ∧ wired.heldFault .a 0 1 = none
    ∧ wired.heldFault .b 0 1 = none := by decide +kernel

/-- A window of 4 pages of slot A. -/
theorem witness_window :
    let w : WinCfg := ⟨0, true, true, false, 0, 4, 0⟩
    let y : State := { State.reset with imgA := some { blank with xltwin := some [w] } }
    ((y.windowsOf .a).getD [])[(0 : Fin 256).val]? = some w
    ∧ ((y.windowsOf .a).getD [])[(1 : Fin 256).val]? = none
    ∧ w.npage ≤ (4 : BitVec 16).toNat ∧ (3 : BitVec 16).toNat < w.npage := by decide +kernel

/-! ### Witnesses: DMA -/

/-- A descriptor: OP, FMT, one unit, source, destination and scales. -/
def dmaDesc (op fmt : Nat) : BitVec 512 :=
  BitVec.ofNat 512 (op + 2 ^ 16 * fmt + 2 ^ 32 + 0x10000 * 2 ^ 64 + 0x20000 * 2 ^ 128
    + (if 3 ≤ op then 0x40000 * 2 ^ 192 else 0))

/-- Channel 0 enabled, with a ring of 256 entries at 0x100000 and one descriptor posted. -/
def channel (d : BitVec 512) : State :=
  let s := { mapped with mem := Tab.putList (fun _ => 0) [] 0x100000 (leBytes 64 d.toNat) }
  (((s.setB (fDmaChCtlEn 0) true).setF (fDmaChSizeLog2 0) 8).wr (rDmaChBaseLo 0) 0x100000).setF
    (fDmaChTailTail 0) 1

/-- A descriptor of each operation, ready to start. -/
theorem witness_dma_ready : ∀ z ∈ [(1, 0), (2, 0), (3, 6), (4, 6)],
    let d := dmaDesc z.1 z.2
    let s := channel d
    s.bitF (fDmaChCtlEn 0) = true ∧ s.chStopped 0 = false ∧ s.chNext 0 ≠ s.getF (fDmaChTailTail 0)
    ∧ (s.chan 0).started = [] ∧ (s.chan 0).resumeAt = none ∧ (s.chan 0).fetch = none
    ∧ (s.chFetch 0 (s.chNext 0)).1 = some (.ok d)
    ∧ (s.chFetch 0 (s.chNext 0)).2 = s
    ∧ dOk d = true ∧ dNt d = 1 ∧ dFlag d 2 = false ∧ dFlag d 3 = false ∧ dFlag d 4 = false
    ∧ s.chEntry 0 (s.chNext 0) + 64 ≤ 2 ^ 30 ∧ s.memEcc = [] ∧ s.loader = none ∧ dOp d = z.1
    ∧ dF d 8 8 + 0x2000 ≤ 2 ^ 30 ∧ dF d 16 8 + 0x2000 ≤ 2 ^ 30 ∧ dF d 24 8 + 1 ≤ 2 ^ 30
    ∧ s.chSlot 0 = .a ∧ s.xbuf .dma = mapped.xbuf .dma ∧ s.logChip = some 0 ∧ s.granted 0 = false := by
  decide +kernel

/-- A descriptor with a reserved OP is rejected. -/
theorem witness_dma_reject :
    let d : BitVec 512 := BitVec.ofNat 512 (9 + 2 ^ 32)
    dOk d = false ∧ dFlag d 1 = false ∧ ((channel d).chFetch 0 ((channel d).chNext 0)).1 = some (.ok d) := by
  decide +kernel

theorem witness_dma_registers :
    let s := channel (dmaDesc 1 0)
    let stopped := s.setF (fDmaChStatusState 0) 2
    let x : DmaDesc := ⟨0, dmaDesc 1 0, 1, 1, true, [], 0, false, false⟩
    let run : State := { s with dma := [(0, ⟨[x], none, none⟩)] }
    s.chReach .pf0 0 = true ∧ s.chReach .pf1 0 = false
    ∧ (1 % 65536 + 65536 - s.getF (fDmaChHeadHead 0)) % 65536 ≤ 2 ^ s.getF (fDmaChSizeLog2 0)
    ∧ 2 ^ s.getF (fDmaChSizeLog2 0) < (257 % 65536 + 65536 - s.getF (fDmaChHeadHead 0)) % 65536
    ∧ (1 : BitVec 32).getLsbD 2 = false ∧ (1 : BitVec 32).getLsbD 1 = false
    ∧ s.chStopped 0 = false ∧ stopped.chStopped 0 = true ∧ stopped.memEcc = []
    ∧ stopped.chEntry 0 (stopped.getF (fDmaChHeadHead 0)) + 64 ≤ 2 ^ 30
    ∧ (run.chan 0).started = x :: [] ∧ x.performed = true ∧ run.chEntry 0 x.idx + 64 ≤ 2 ^ 30
    ∧ s.bitF (fDmaChCtlSlot 0) = false ∧ dFlag x.desc 0 = false
    ∧ ((run.wr4 0 (16 * 8 + 12) 0).rd4 (run.chFunc 0) (16 * (8 + 0) + 12)).getLsbD 0 = false := by
  decide +kernel

theorem witness_dma_ready_whole : DmaReady (channel (dmaDesc 1 0)) 0 (dmaDesc 1 0) := by
  have h := witness_dma_ready (1, 0) (by simp)
  obtain ⟨h1, h2, h3, h4, h5, hf, h6, _, h7, h8, h9, h10, h11, h12, h13, h14, h15, h16, h17, h18, h19, h20,
    h21, h22⟩ := h
  refine ⟨h1, h2, h3, h4, h5, hf, h6, h7, h8, h9, h10, h11, ?_, h12, h13, h14, fun _ => h16, h17, fun _ => h18⟩
  have e : (channel (dmaDesc 1 0)).chSlot ((0 : Fin 16) : Nat) = .a := h19
  rw [e]
  exact idMapped_of_ident _ (by rw [h20]; decide +kernel) h21 h22

/-- A channel whose next entry misses in the buffer. -/
theorem witness_dma_miss :
    let s : State := { channel (dmaDesc 1 0) with xbufs := [] }
    s.bitF (fDmaChCtlEn 0) = true ∧ s.chStopped 0 = false ∧ s.chNext 0 ≠ s.getF (fDmaChTailTail 0)
    ∧ (s.chan 0).fetch = none ∧ s.xhit .dma (s.chSlot 0) (s.chEntry 0 (s.chNext 0)) = none := by
  decide +kernel

/-! ### Witnesses: the host, remote requests, fences -/

theorem witness_bar2 :
    let y := mapped.setB fXltCtlB2xlt true
    (0x1000 : BitVec 39).toNat < mapped.host.bar2 * 2 ^ 30
    ∧ mapped.host.bar2 * 2 ^ 30 ≤ (BitVec.allOnes 39 : BitVec 39).toNat
    ∧ mapped.bitF fXltCtlB2xlt = false ∧ mapped.memEcc = [] ∧ mapped.loader = none
    ∧ 0x1000 + mapped.getF fXltB2baseBaseg * 2 ^ 30 + 4 ≤ memTop
    ∧ mapped.isoOk false 0x1000 4 = true ∧ (mapped.wr (rXltBmap 0) 1).isoOk false 0x1000 4 = false
    ∧ memTop < 0x1000 + (mapped.setF fXltB2baseBaseg 511).getF fXltB2baseBaseg * 2 ^ 30 + 2 ^ 30
    ∧ y.bar2Off 0 0x1000 = (some .a, 0x1000) ∧ y.bar2Off 1 0x1000 = (some .b, 0x1000)
    ∧ y.xhit .host .a 0x1000 = some ident ∧ y.through ident 0x1000 4 true = .ok 0x1000
    ∧ y.xhit .host .b 0x1000 = none ∧ y.writeWaits 0 = false := by decide +kernel

theorem witness_doorbell :
    let s := channel (dmaDesc 1 0)
    let y : State := { s with xbufs := [(0, ⟨[], [⟨.a, 0, false, true, .write 0 0 [1] false 0⟩], none⟩)] }
    s.writeWaits 0 = false ∧ s.chFunc 0 = 0 ∧ s.chFunc 0 ≠ 1 ∧ s.writeWaits 1 = false
    ∧ (2 % 65536 + 65536 - s.getF (fDmaChHeadHead 0)) % 65536 ≤ 2 ^ s.getF (fDmaChSizeLog2 0)
    ∧ y.writeWaits 0 = true := by decide +kernel

/-- A COPY from host memory, started, with its read outstanding under tag 5. -/
def hostRead : State :=
  let x : DmaDesc := ⟨0, BitVec.ofNat 512 (1 + 4 * 256 + 2 ^ 32 + 0x20000 * 2 ^ 128), 0, 0, false, [], 0, true,
    false⟩
  { mapped with
    dma := [(0, ⟨[x], none, none⟩)]
    host := { mapped.host with reqs := [⟨5, 0, some 0, 256, 0⟩] } }

theorem witness_host_read :
    let q : HostReq := ⟨5, 0, some 0, 256, 0⟩
    let x : DmaDesc := ⟨0, BitVec.ofNat 512 (1 + 4 * 256 + 2 ^ 32 + 0x20000 * 2 ^ 128), 0, 0, false, [], 0,
      true, false⟩
    hostRead.hostReq (5 : BitVec 10).toNat = some q ∧ q.idx = some x.idx
    ∧ (hostRead.chan q.ch).started = x :: [] ∧ q.tag = (5 : BitVec 10).toNat
    ∧ hostRead.hostReq (6 : BitVec 10).toNat = none
    ∧ dOp x.desc = 1 ∧ dNt x.desc = 1 ∧ dFlag x.desc 3 = false ∧ dFlag x.desc 2 = true ∧ x.units = 0
    ∧ hostRead.memEcc = []
    ∧ hostRead.loader = none ∧ dF x.desc 16 8 + 256 ≤ 2 ^ 30 ∧ hostRead.chSlot q.ch = .a := by
  decide +kernel

theorem witness_aer :
    (State.reset.rd (rErrClasscnt 17)).toNat < 2 ^ 32 - 1
    ∧ State.reset.logFull ⟨17, 3, unitFunc 0, false, false, 7, 0⟩ = false := by decide +kernel

/-- A request or an answer as a cell: kind, op, source, tag, destination, offset. -/
def remCell (kind op src tag dest off : Nat) (slotb : Bool := false) : Cell :=
  ⟨BitVec.ofNat 128 (remHdr kind slotb op 0 src tag dest off), 0⟩

/-- A device on which a cell has come in at port 0. -/
def arrived (c : Cell) : State := mapped.setPort 0 { FabPort.reset with remin := [(0, c)] }

theorem witness_remote_request : ∀ op ∈ [0, 1, 2],
    let c := remCell 3 op 1 9 0 0x100
    let s := arrived c
    (s.port 0).remin = (0, c) :: [] ∧ cellFld c 0 4 = 3 ∧ cellFld c 5 3 = op
    ∧ cellFld c 112 16 = s.physChip ∧ cellFld c 4 1 = 0 ∧ cellFld (remCell 3 op 1 9 2 0) 112 16 ≠ s.physChip
    ∧ cellFld (remCell 3 op 1 9 0 0 true) 4 1 = 1
    ∧ s.memEcc = [] ∧ s.loader = none
    ∧ s.xhit (remBuf 0) .a (remVa c) = some ident
    ∧ s.through ident (remVa c) 256 (op == 1) = .ok 0x100
    ∧ ({ s with xbufs := [] } : State).xhit (remBuf 0) .a (remVa c) = none := by decide +kernel

theorem witness_fence_answer :
    let f : FenceReq := ⟨remCell 3 2 1 9 0 0, 0, none⟩
    let g : FenceReq := ⟨remCell 3 2 1 9 0 0, BitVec.allOnes 64, none⟩
    let y : State := { mapped with
      rem := { mapped.rem with fences := [g, f] }
      fab := { FabSt.reset with time := 0x10000000000 } }
    y.rem.fences.find? y.fenceReady = some f ∧ y.fenceReady g = false ∧ cellFld f.cell 4 1 = 0 := by
  decide +kernel

/-- A core whose HERD fence waits for tags 9 and 10. -/
def fenced (f : FenceSt) : State :=
  { arrived (remCell 4 0 1 9 0 0) with
    cores := [(0, { core0 with fence := some f })]
    imgA := some img
    rem := ⟨[⟨9, .fence 0, 1, 0⟩, ⟨10, .dead, 1, 0⟩], [], 11, []⟩ }

theorem witness_remote_answer :
    let f : FenceSt := ⟨4, some [9, 10], [], none, none⟩
    let s := fenced f
    let c := remCell 4 0 1 9 0 0
    (s.port 0).remin = (0, c) :: [] ∧ cellFld c 0 4 = 4 ∧ cellFld c 112 16 = s.physChip
    ∧ s.rem.reqs.find? (fun q => q.tag == cellFld c 32 16) = some ⟨9, .fence 0, 1, 0⟩
    ∧ cellFld c 5 3 = 0 ∧ (s.core 0).fence = some f ∧ f.asked = some [9, 10]
    ∧ (∀ q ∈ (arrived c).rem.reqs, q.tag ≠ cellFld c 32 16) := by decide +kernel

theorem witness_remote_timeout :
    let s := fenced ⟨4, some [9], [], none, none⟩
    let x : DmaDesc := ⟨3, dmaDesc 1 0, 0, 0, false, [], 0, true, false⟩
    let y : State := { s with
      rem := ⟨[⟨9, .dma 0 3, 1, 0⟩], [], 11, []⟩
      dma := [(0, ⟨[x], none, none⟩)] }
    s.rem.reqs.find? (fun q => q.tag == (10 : BitVec 16).toNat) = some ⟨10, .dead, 1, 0⟩
    ∧ s.rem.reqs.find? (fun q => q.tag == (9 : BitVec 16).toNat) = some ⟨9, .fence 0, 1, 0⟩
    ∧ (s.core 0).slot = .a ∧ (s.core 0).bare = false
    ∧ y.rem.reqs.find? (fun q => q.tag == (9 : BitVec 16).toNat) = some ⟨9, .dma 0 x.idx, 1, 0⟩
    ∧ (y.chan 0).started = x :: [] ∧ (∀ q ∈ s.rem.reqs, q.tag ≠ (8 : BitVec 16).toNat) := by
  decide +kernel

/-- Fences of each kind that may complete, and one that may not. -/
theorem witness_fence_complete :
    let f : FenceSt := ⟨0, none, [], none, none⟩
    let g : FenceSt := ⟨4, some [], [], none, none⟩
    let n : FenceSt := ⟨4, none, [], none, none⟩
    let sent : State := { fenced n with cores := [(0, { core0 with
      fence := some n
      lastComp := some 5 })] }
    let d : DrainJob := ⟨encodeArr (.adrq ⟨1, 0, 1, 1, 0, 0, 0, 0, 2, 0⟩), 0, 0, 0, 0, none⟩
    let busy : State := { fenced f with cores := [(0, { core0 with
      fence := some f
      quad := { Quad.reset with drain := some d } })] }
    (fenced f).fenceMet 0 f = true ∧ f.kind ≠ 4 ∧ (fenced g).fenceMet 0 g = true
    ∧ g.asked = some ([] : List Nat) ∧ busy.fenceMet 0 f = false
    ∧ (fenced n).fenceMet 0 n = true ∧ (fenced n).composed 0 n = true ∧ ((fenced n).core 0).lastComp = none
    ∧ sent.fenceMet 0 n = true ∧ sent.composed 0 n = true ∧ sent.fencePeers 0 = []
    ∧ (let q : State := { sent with
        imgA := some { img with routes := [⟨1, 32768, 1, 0, false, []⟩] }
        ports := [(0, { FabPort.reset with delivered := [(routeKey .a 0, [word 1])] })] }
      (q.core 0).fence = some n ∧ q.fenceMet 0 n = true ∧ q.composed 0 n = false) ∧ dev.core 0 = core0 ∧ core0.fence = none := by
  decide +kernel

/-- A HERD fence that has asked nobody yet, in a herd of two. -/
theorem witness_herd_fence :
    let f : FenceSt := ⟨4, none, [], none, none⟩
    let h : HerdCfg := ⟨8, [0, 0, 0, 0], [1, 1, 1, 2], 0⟩
    let map : ChipMapCfg := ⟨[0, 1], [], []⟩
    let y : State := { fenced f with
      imgA := some { img with herd := some ⟨[h], [], []⟩, chipmap := some map }
      cores := [(0, { core0 with fence := some f, lastComp := some 5 })]
      logical := some [0, 1] }
    y.fenceMet 0 f = true ∧ y.fencePeers 0 ≠ [] ∧ (y.core 0).lastComp ≠ none ∧ y.composed 0 f = true := by
  decide +kernel

/-! ### Witnesses: ports and frames -/

/-- A device whose port 16 is in a state, with light, enabled. -/
def linked (st : Nat) : State :=
  ((({ State.reset with fabApplied := some fab0 } : State).setPort 16 { FabPort.reset with
    signal := true, neighbour := some (1, 16) }).setB (fFabPctlEn 16) true).setF (fFabPstatState 16) st

theorem witness_ports :
    (∀ st < 7, (linked st).portState 16 = st) ∧ (linked 0).powered 16 = true
    ∧ (linked 0).powered 0 = false ∧ (linked 6).bitF (fFabPctlAuto 16) = true
    ∧ ((linked 6).setB (fFabPctlAuto 16) false).bitF (fFabPctlAuto 16) = false
    ∧ (linked 0).portMay 16 = true ∧ ((linked 0).port 16).remq = [] := by decide +kernel

/-- A frame that its check code passes: the header's bytes as (place, value). -/
def frame (l : List (Nat × Nat)) : Frame :=
  let h := leBytes 60 (l.foldl (fun a e => a + e.2 * 2 ^ (8 * e.1)) (2 ^ 8))
  ⟨BitVec.ofNat 512 (leNat (h ++ leBytes 4 (crc32 h))), []⟩

/-- A TRAIN frame from chip 1's port 16, with flags. -/
def train (flags vmin : Nat) : Frame :=
  frame [(0, 4), (4, 1), (6, 16), (28, vmin), (29, 1), (30, 1), (32, flags)]

/-- Port 16 in TIMED at a tick. -/
def timed (n : Nat) : State :=
  { (linked 4).setB fFabPchipValid true with fab := { FabSt.reset with time := BitVec.ofNat 64 n } }

/-- The flight of a TRAIN frame that arrived `ago` thirty-seconds of a tk ago (R500). -/
def flight (s : State) (f : Frame) (ago : BitVec 16) : Int :=
  let raw : Int := 32 * (s.time : Int) - ago.toNat - 32 * frameFld f 8 8
  if s.bitF fFabTstatFrameset = true ∧ (frameFld f 32 1).testBit 1 = true then raw else raw % 2 ^ 20

theorem witness_train :
    let s := (linked 3).setB fFabPchipValid true
    (∀ v ∈ [1, 2], frameGood (train 1 v) = true ∧ frameFld (train 1 v) 0 1 = 4
      ∧ frameFld (train 1 v) 28 1 = v)
    ∧ s.portState 16 = 3 ∧ s.bitF fFabPchipValid = true
    ∧ (frameFld (train 1 1) 32 1).testBit 0 = true ∧ (frameFld (train 1 1) 32 1).testBit 1 = false
    ∧ neighbourOk s.physChip (frameFld (train 1 1) 30 2) 16 = true
    ∧ frameFld (train 1 1) 6 1 = peerPort 16 ∧ 1 ≤ frameFld (train 1 1) 29 1
    ∧ neighbourOk s.physChip (frameFld (train 1 1) 30 2) 17 = false
    ∧ flight (timed 510) (train 1 1) 0 = 16320 ∧ flight (timed 511) (train 1 1) 0 = 16352
    ∧ flight ((timed 0).setB fFabTstatFrameset true) (train 3 1) 1 < 0
    ∧ (timed 0).portState 16 = 4 ∧ flight s (train 1 1) 0 = 0
    ∧ (frameFld (train 3 1) 32 1).testBit 1 = true ∧ (timed 1).bitF fFabTstatFrameset = false
    ∧ frameFld (train 3 1) 1 1 = 1 ∧ frameFld (frame [(0, 4), (1, 1)]) 1 1 ≠ 1
    ∧ frameGood (frame [(0, 4), (1, 1)]) = true ∧ frameFld (frame [(0, 4), (1, 1)]) 0 1 = 4
    ∧ flight (timed 1) (train 3 1) 0 = 32
    ∧ adoptFrame ((timed 1).time % 32768) (32 * frameFld (train 3 1) 8 8 + (32 : Int).toNat + (0 : BitVec 16).toNat)
      = some 0 := by
  decide +kernel

/-- Port 16 UP, with an EXACT allocation of one word in slot 0 and in every receive place. -/
def exact0 : State :=
  let g : FabricCfg := { fab0 with
    tx := [(1024 * 16, 1)]
    rx := [(1024 * 16, 1)]
    ldly := List.replicate 19 1
    tpls := [[⟨0, 2, 1, 0⟩]] }
  { linked 5 with fabApplied := some g }

theorem witness_compose :
    let t := nextSlot exact0.time (exact0.port 16).lastSlot
    exact0.portState 16 = 5 ∧ (exact0.port 16).settling = false ∧ exact0.dieLate (portDie 16) = false
    ∧ t = 32 ∧ exact0.txEntry 16 (t / 32) = 0
    ∧ (let y : State := { exact0 with fab := { FabSt.reset with time := 32768 - 4 } }
      let u := nextSlot y.time (y.port 16).lastSlot
      y.txEntry 16 (u / 32) = 1 ∧ y.allocs (y.txEntry 16 (u / 32)) = [⟨0, 2, 1, 0⟩]
      ∧ ((y.port 16).words 2).length < 1
      ∧ 1 ≤ (((y.port 16).setWords 2 [word 4]).words 2).length
      ∧ (y.setB fFabGateLatew true).dieLate (portDie 16) = true)
    ∧ (linked 2).portState 16 = 2 ∧ (linked 1).portState 16 < 2 ∧ ((linked 2).port 16).settling = false
    ∧ (((linked 2).setPort 16 { FabPort.reset with settling := true }).port 16).settling = true
    ∧ (let y : State := { linked 5 with
        fabApplied := some { fab0 with tx := [(1024 * 16, 0xFFFE)] }
        fab := { FabSt.reset with time := 32768 - 4 } }
      let z := y.setPort 16 { y.port 16 with consq := [(32768, ⟨1, 0⟩), (65536, ⟨2, 0⟩)] }
      let u := nextSlot z.time (z.port 16).lastSlot
      z.txEntry 16 (u / 32) = 0xFFFE ∧ z.portState 16 = 5 ∧ (z.port 16).settling = false
      ∧ ((z.port 16).consq.filter fun c => c.1.toNat == u) = [(32768, ⟨1, 0⟩)]) := by decide +kernel

theorem witness_frames_in :
    let f := frame [(0, 1), (4, 1), (6, 16)]
    let s := linked 5
    s.portState 16 = 5 ∧ frameGood f = true ∧ frameFld f 0 1 < 5 ∧ frameFld f 1 1 = 1
    ∧ (s.port 16).neighbour = some (frameFld f 4 2, frameFld f 6 1)
    ∧ 5 ≤ frameFld (frame [(0, 5)]) 0 1 ∧ frameGood (frame [(0, 5)]) = true
    ∧ frameGood ⟨0, []⟩ = false
    ∧ ((24 : BitVec 8).toInt - (s.port 16).align).natAbs ≤ 24
    ∧ 24 < ((25 : BitVec 8).toInt - (s.port 16).align).natAbs
    ∧ 8 < ((9 : BitVec 8).toInt - (s.port 16).align).natAbs ∧ (s.port 16).driftRun < 15
    ∧ 15 ≤ ({ s.port 16 with driftRun := 15 } : FabPort).driftRun
    ∧ (linked 3).portState 16 = 3 ∧ (linked 2).portState 16 < 3 ∧ 5 < (linked 6).portState 16
    ∧ s.rxEntry 16 (nextPlace s.time (s.port 16).lastRx / 32) = 0 ∧ (s.port 16).framesIn = []
    ∧ (s.port 16).lossRun < 15 := by decide +kernel

/-! A data cell whose check code passes: header 1 with the code 0x2C9A over its bytes and 256 zero bytes,
worked by hand from R509. -/

def goodCell : Cell := ⟨0x2C9A000000000001, 0⟩

theorem crc16_zeros :
    (List.replicate 64 (0 : Byte)).foldl crc16Byte 60618 = 48303
    ∧ (List.replicate 64 (0 : Byte)).foldl crc16Byte 48303 = 58972
    ∧ (List.replicate 64 (0 : Byte)).foldl crc16Byte 58972 = 43708
    ∧ (List.replicate 64 (0 : Byte)).foldl crc16Byte 43708 = 11418 := by decide +kernel

theorem crc16_head : ((leBytes 16 0x2C9A000000000001).drop 8
    ++ (leBytes 16 0x2C9A000000000001).take 6).foldl crc16Byte 0xFFFF = 60618 := by decide +kernel

theorem leBytes_zero (n : Nat) : leBytes n 0 = List.replicate n 0 := by
  induction n with
  | zero => rfl
  | succ n ih => rw [leBytes, Nat.zero_div, ih, List.replicate_succ]; rfl

theorem payload_zeros : Payload.bytes 0 = List.replicate 64 0 ++ (List.replicate 64 0
    ++ (List.replicate 64 0 ++ List.replicate 64 0)) := by
  have h : (0 : Payload).toNat = 0 := BitVec.toNat_zero
  rw [Payload.bytes, h, leBytes_zero, List.replicate_append_replicate,
    List.replicate_append_replicate, List.replicate_append_replicate]

theorem witness_cell : cellGood goodCell = true ∧ cellFld goodCell 0 4 = 1 := by
  refine ⟨?_, by decide +kernel⟩
  obtain ⟨a, b, c, d⟩ := crc16_zeros
  have hh : (0x2C9A000000000001 : BitVec 128).toNat = 0x2C9A000000000001 := by decide +kernel
  have hc : cellCrc goodCell.hdr goodCell.payload = 11418 := by
    rw [goodCell, cellCrc, crc16, payload_zeros, hh, List.foldl_append, crc16_head]
    rw [List.foldl_append, List.foldl_append, List.foldl_append, a, b, c, d]
  have hf : cellFld goodCell 48 16 = 11418 := by decide +kernel
  rw [cellGood, hc, hf]; rfl

theorem witness_placement :
    let t := nextPlace exact0.time (exact0.port 16).lastRx
    let x := exact0.landing 0
    exact0.portState 16 = 5 ∧ t = 0 ∧ exact0.rxEntry 16 (t / 32) = 1
    ∧ exact0.allocs 1 = [⟨0, 2, 1, 0⟩] ∧ (∀ c ∈ [(⟨0, 2, 4⟩ : ChanCfg)], exact0.muleChan c = false)
    ∧ x.skip = false ∧ x.debts = 0 ∧ x.words.length < exact0.chanDepth 0
    ∧ (exact0.port 16).framesIn = [] ∧ (exact0.port 16).lossRun < 15 := by
  decide +kernel

/-! ### Witnesses: fabric time -/

theorem witness_time :
    let s : State := { State.reset with imgA := some blank }
    let l := s.setB fFabTstatLock true
    (s.imgA.bind (·.chipmap)) = none ∧ s.bitF fFabTstatFreflost = false ∧ s.fab.setPend = false
    ∧ s.bitF fFabTstatSource = false ∧ s.bitF fFabTstatLock = false ∧ s.bitF fFabTstatFrameset = false
    ∧ (1 : BitVec 32).toNat % 4 ≠ s.getF fFabPchipBidx ∧ (4 : BitVec 32).toNat % 4 = s.getF fFabPchipBidx
    ∧ l.bitF fFabTstatLock = true ∧ l.time % 32768 = 0 ∧ l.pwr.deferred = none
    ∧ (l.setB fFabTstatSource true).bitF fFabTstatSource = true
    ∧ (l.setB fFabTstatSource true).bitF fFabTstatLock = true
    ∧ (l.setB fFabTstatSource true).bitF fFabTstatFreflost = false
    ∧ (let y : State := { l with fab := { FabSt.reset with time := 5, wrongPhase := 5, wrongCount := 4 } }
      y.time % 32768 ≠ 0 ∧ y.fab.wrongPhase = y.fab.time.setWidth 15 ∧ y.fab.wrongCount + 1 = 5)
    ∧ (s.setB fFabTstatFreflost true).bitF fFabTstatFreflost = true
    ∧ (s.setB fFabTstatSource true).bitF fFabTstatSource = true
    ∧ (s.setB fFabTstatFrameset true).bitF fFabTstatFrameset = true
    ∧ (({ blank with chipmap := some ⟨[], [], []⟩ } : Image).chipmap).isSome = true := by decide +kernel

/-- Comparator 1, armed for job slot A, in an image whose phase 2 it starts, and in one where it starts
nothing; pending and not pending in the core. -/
theorem witness_calendar :
    let s : State := { dev with cals := [(0, ⟨32768, 0, 0, 1, true⟩), (1, ⟨32768, 0, 0, 1, true⟩)] }
    let ph (n : Nat) : PhaseCfg := ⟨8, 200, n⟩
    (s.cal 1).armed = true ∧ s.timeRuns = true ∧ ownerSlot (s.cal 1).owner = some .a
    ∧ (((s.image .a).map fun i => i.startedBy 1).getD []) = [] ∧ (1 : Fin 64).val ≠ s.getF fBwtCfgStartcal
    ∧ ((s.imgA.map (·.windows)).getD []) = [] ∧ (s.imgA.bind (·.herd)).isNone ∧ (s.imgA.bind (·.mule)).isNone
    ∧ (s.core 0).calAssigned .a 1 = true ∧ (s.core 0).calPend.getLsbD 1 = false
    ∧ (s.core 0).calAssigned .a 0 = true ∧ (s.core 0).calPend.getLsbD 0 = true
    ∧ (s.core 0).calAssigned .a 2 = false ∧ (State.reset.cal 1).armed = false
    ∧ ownerSlot (State.reset.cal 1).owner = none
    ∧ ({ img with phases := [ph 60, ph 60, ph 1] } : Image).startedBy 1 = [2]
    ∧ ({ s with imgA := some { img with phases := [ph 60, ph 60, ph 1] } } : State).phaseRefused 2 = false
    ∧ ({ s with imgA := some { img with phases := [ph 60, ph 60, ⟨9, 200, 1⟩] } } : State).phaseRefused 2 = true := by
  decide +kernel

/-! ### Witnesses: collectives and Mule -/

/-- A RAW32 collective of `nt` tiles over herd 0. -/
def collCfg (op nt : Nat) : CollCfg :=
  ⟨0, op, true, 0, 0, 0, 0, 0, nt, 2, 2, 0, 0, 6, 7, 60, 60, 0, 1, 0, 0⟩

/-- A device in a herd of two members along Z, or alone in its herd. -/
def herded (axes : BitVec 4) (op nt : Nat) : State :=
  { (State.reset.setB (fHrdCollActive 0) true) with
    imgA := some { blank with
      staging := [⟨0, 2, 0, 0, 4096⟩]
      herd := some ⟨[⟨axes, [0, 0, 0, 0], [1, 1, 1, 2], 0⟩], [collCfg op nt], [⟨1, 5, 0⟩]⟩
      chipmap := some ⟨[0, 1], [], []⟩ }
    logical := some [0, 1]
    fabApplied := some fab0
    routes := [(2, { RouteSt.reset with dst := [word 3] }), (6, { RouteSt.reset with dst := [] })] }

theorem witness_collective_add :
    let c : ChunkSt := ⟨0, [], [], 0, 2, 1, 4, 0⟩
    let s : State := { herded 8 1 4 with colls := [(0, ⟨[c], 1, []⟩)] }
    let a : Act := ⟨true, 1, [0, 1], [0, 1], true⟩
    let e : CollEnv := ⟨0, collCfg 1 4, [2], 0, none, [⟨1, 5, 0⟩], 0⟩
    s.unitColls 0 = [e] ∧ s.stgEcc = [] ∧ s.collEnv 0 = some e ∧ e.cf.raw32 = true ∧ e.cf.red = 0
    ∧ (s.collc 0).chunks = [c] ∧ c.phase = 2 ∧ (s.collc 0).nextChunk = e.chunks
    ∧ (e.units c.idx e.inShards).length ≤ c.took ∧ (s.route .a e.cf.inroute).dst = []
    ∧ (s.phaseActs e c)[c.step]? = some a ∧ s.fromPeer e a.peer = some 2 ∧ 2 ≠ e.cf.inroute
    ∧ (s.route .a 2).dst = [word 3] ∧ ((e.keysOf c a.segs)[c.rcvd]?).any (fun k => decide (k < 2 ^ 40)) = true
    ∧ c.rcvd + 1 < (e.keysOf c a.segs).length
    ∧ State.reset.bitF (fHrdCollActive 0) = false := by decide +kernel

theorem witness_collective_alone :
    let s : State := { herded 0 1 1 with
      colls := [(0, ⟨[⟨0, [], [], 0, 0, 0, 0, 0⟩], 1, []⟩)]
      routes := [(6, { RouteSt.reset with dst := [word 3] }), (7, { RouteSt.reset with src := [(none, word 1)] })] }
    (s.unitColls 0).length = 1 ∧ s.stgEcc = [] ∧ (State.reset.unitColls 0) = []
    ∧ ((s.collEnv 0).map fun e => (e.exts, e.rank, e.cf.op, e.cf.nt)) = some ([], 0, 1, 1)
    ∧ (s.route .a 6).dst = [word 3] ∧ (s.route .a 7).src ≠ []
    ∧ s.collc 0 = ⟨[⟨0, [], [], 0, 0, 0, 0, 0⟩], 1, []⟩ := by decide +kernel

theorem witness_aligned_bound :
    (-(2 ^ 31) : Int).natAbs ≤ 2 ^ (32 - 1) ∧ (align (-(2 ^ 31)) 5 (5 + 32 + 2 - 31)).natAbs ≤ 2 ^ (30 - 2) := by
  decide +kernel

/-- Table 0 over that herd: expert 0 belongs to rank 1, expert 1 to this device. -/
def mcfg : MuleCfg where
  herd := 0
  k := 2
  nexp := 2
  q := 1
  nex := 1
  pw := 1
  i16 := true
  openCal := 1
  dclose := 2
  rclose := 3
  stg := 0
  dinroute := 6
  retroute := 7
  resroute := 8
  coutroute := 9
  gscale := 0
  rscale := 0
  cscale := 0
  expbase := 0
  tmax := 10
  twords := 1

/-- A token: a header of the given bytes, and one word of payload. -/
def token (l : List Nat) : List SWord :=
  [{ word 0 with data := Payload.ofBytes (l.map (BitVec.ofNat 8)), last := false }, word 1]

/-- The device with that table, exchange 0 open, port 16 UP towards chip 1, and a token on a route. -/
def muled (r : Nat) (ws : List SWord) : State :=
  let g : FabricCfg := { fab0 with
    tx := [(1024 * 16, 1)]
    tpls := [[⟨0, 5, 1, 1⟩]]
    fwd := [(1, 16)] }
  let rt (n : Nat) : RouteCfg := if n = 5 then ⟨16384, 32784, 1, 0, false, []⟩
    else if n = 2 then ⟨32768, 16384, 1, 0, false, []⟩ else ⟨0, 0, 1, 0, false, []⟩
  { linked 5 with
    imgA := some { blank with
      routes := (List.range 12).map rt
      staging := [⟨0, 2, 0, 0, 4⟩]
      herd := some ⟨[⟨8, [0, 0, 0, 0], [1, 1, 1, 2], 0⟩], [], []⟩
      mule := some ⟨[mcfg], [(1, 10), (0, 11)]⟩
      chipmap := some ⟨[0, 1], [], []⟩ }
    logical := some [0, 1]
    fabApplied := some g
    routes := [(r, { RouteSt.reset with dst := ws })]
    mule := [(0, { MuleSt.reset with nextX := 1, dOpen := [0], rOpen := [0] })] }

/-- The environment of that table. -/
def menv : MuleEnv := ⟨0, mcfg, ⟨8, [0, 0, 0, 0], [1, 1, 1, 2], 0⟩, 0, [(1, 10), (0, 11)], 0⟩

/-- Descriptors with one selection of expert 0: accepted, past the capacity, of an unopened exchange, bad. -/
theorem witness_mule_dispatch :
    let ws := token [0, 0, 0, 0, 1, 0, 0, 0, 0, 0]
    let s := muled 6 ws
    let m := s.muleT 0
    s.muleEnv 0 = some menv ∧ takeToken (s.route .a 6).dst = some (ws, [])
    ∧ payFld (tokHdr ws) 6 1 < m.nextX ∧ menv.bad m (m.exch 0) (tokHdr ws) = false
    ∧ payFld (tokHdr ws) 4 1 = 1 ∧ m.rOpen.contains (m.exch 0) = true
    ∧ Tab.look (fun _ => 0) m.counts 0 < mcfg.q ∧ menv.ownerOf 0 ≠ menv.me
    ∧ (ws.drop 1).length = mcfg.pw ∧ s.memberChip menv.herd (menv.ownerOf 0) = 1
    ∧ tokDst ({ word 0 with data := Payload.ofBytes [1, 0] } :: ws.drop 1) = 1
    ∧ ((s.portFor 0 1).bind fun p => s.muleRoute p 0) = some 5
    ∧ m.nextX ≤ payFld (tokHdr (token [0, 0, 0, 0, 1, 0, 1])) 6 1
    ∧ menv.bad m (m.exch 0) (tokHdr (token [10, 0, 0, 0, 1, 0, 0])) = true
    ∧ takeToken (s.route .a 7).dst = none := by decide +kernel

/-- Expert 1 of this device: its slot without a token, with dispatch open and closed. -/
theorem witness_mule_delivery :
    let m := (muled 6 []).muleT 0
    menv.ownerOf 1 = menv.me ∧ (1 : Fin 4096).val < mcfg.nexp ∧ m.opened 0 = true
    ∧ m.dOpen.contains 0 = true ∧ ({ m with dOpen := [] } : MuleSt).dOpen.contains 0 = false
    ∧ Tab.look (fun _ => 0) m.owner (slotKey 0 1 0) = 0
    ∧ Tab.look (fun _ => 0) ({ m with owner := [(slotKey 0 1 0, 1)] } : MuleSt).owner (slotKey 0 1 0) = 1
    ∧ (muled 6 []).stgEcc = []
    ∧ menv.ownerOf 0 ≠ menv.me := by decide +kernel

/-- A returned token for this device and for chip 1. -/
theorem witness_mule_return :
    let ws := token [0, 0, 0, 0, 0, 0, 0, 0, 0, 0, 0, 0, 0]
    let vs := token [0, 0, 1, 0]
    let s := muled 7 ws
    takeToken (s.route .a mcfg.retroute).dst = some (ws, []) ∧ menv.clean ws = true
    ∧ payFld (tokHdr ws) 2 2 = s.physChip ∧ (s.muleT 0).newest (payFld (tokHdr ws) 12 1) = some 0
    ∧ (s.muleT 0).rOpen.contains 0 = true
    ∧ (let d : MuleDesc := ⟨payFld (tokHdr ws) 8 4, 0, [(0, 0)]⟩
      d.exch = 0 ∧ d.waits (payFld (tokHdr ws) 6 1) = true)
    ∧ menv.clean vs = true ∧ payFld (tokHdr vs) 2 2 ≠ s.physChip ∧ mcfg.retroute ≠ 5
    ∧ ((s.portFor 0 (payFld (tokHdr vs) 2 2)).bind fun p => s.muleRoute p mcfg.stg) = some 5
    ∧ menv.clean (ws.drop 1) = false := by decide +kernel

/-- A token that arrives for this device's expert 1 from chip 1, and one for chip 1. -/
theorem witness_mule_arrival :
    let ws := token [0, 0, 1, 0, 1, 0, 0, 0, 0, 0, 0, 0, 0, 0, 0, 0]
    let vs := token [1, 0, 0, 0, 1, 0, 0, 0, 0, 0, 0, 0, 0, 0, 0, 0]
    let s := muled 2 ws
    (s.fabApplied.bind fun f => f.chans[(0 : Fin 4096).val]?) = some ⟨0, 2, 4⟩
    ∧ s.routeTable 2 = some (0 : Fin 16).val ∧ takeToken (s.route .a 2).dst = some (ws, [])
    ∧ menv.clean ws = true ∧ s.badMule menv (tokHdr ws) = false ∧ tokDst ws = s.physChip
    ∧ payFld (tokHdr ws) 2 2 ≠ tokDst ws ∧ (s.muleT 0).newest (payFld (tokHdr ws) 12 1) = some 0
    ∧ (s.muleT 0).dOpen.contains 0 = true
    ∧ tokDst vs ≠ s.physChip ∧ s.badMule menv (tokHdr vs) = false
    ∧ (s.transitFree menv).length < vs.length
    ∧ (let e : MuleEnv := { menv with cf := { mcfg with twords := 2 } }
      let y : State := { s with imgA := s.imgA.map fun i => { i with
        mule := some ⟨[{ mcfg with twords := 2 }], [(1, 10), (0, 11)]⟩ } }
      y.muleEnv 0 = some e ∧ vs.length ≤ (y.transitFree e).length ∧ e.clean vs = true
      ∧ ((y.portFor (portDie 0) (tokDst vs)).bind fun p => y.muleRoute p e.cf.stg) = some 5)
    ∧ Tab.look (fun _ => 0) (s.muleT 0).owner (slotKey 0 (payFld (tokHdr ws) 4 2) (payFld (tokHdr ws) 14 2)) = 0
    ∧ s.badMule menv (tokHdr (token [0, 0, 0, 0, 2])) = true := by decide +kernel

/-- A descriptor that waits for a selection, and one answered, with its residual. -/
theorem witness_mule_combine :
    let d : MuleDesc := ⟨0, 0, [(1, 0)]⟩
    let s := muled 8 [word 7]
    d.sels.any (fun x => x.1 == 0) = false ∧ takeToken (s.route .a mcfg.resroute).dst = some ([word 7], [])
    ∧ s.stgEcc = [] ∧ ({ d with sels := [(0, 0)] } : MuleDesc).sels.any (fun x => x.1 == 0) = true
    ∧ ({ s.muleT 0 with descs := [d] } : MuleSt).descs = d :: [] := by decide +kernel

/-! ### Witnesses: the second order and Bellwether -/

/-- A SECOND section with one cadence group of lag 1, period at most 8, and 2 to 8 microbatches. -/
def second : SecondCfg where
  subk := 0
  substream := 0
  stepwaddr := 0
  startcal := 1
  lrs := 0
  nshift := 0
  stepwcores := 1
  mbmin := 2
  mbmax := 8
  mbinit := 4
  steermin := 2
  ndp := 1
  tpm := 1
  knum := 1
  gcap := 1
  groups := [⟨4, 0, 1, 8⟩]
  blocks := []
  points := []

/-- A device with that section in a job of one chip, 4 microbatches a step. -/
def steered : State :=
  { dev with
    imgA := some { img with second := some second, chipmap := some ⟨[0], [], []⟩ }
    cals := [(1, ⟨32768, 32, 0, 1, true⟩)]
    -- the consensus programme in memory is one DECIDE
    mem := [(0x1000, 4), (0x1001, 0xFF), (0x1002, 0xFF), (0x1004, 0xFF)] }
  |>.setF fBwtSombCur 4 |>.wr64 rBwtCpbaseLo 0x1000 |>.setF fBwtCplenEntries 1
  |>.setF fBwtCfgStartcal 1 |>.wr64 rBwtResumetLo 1000 |>.wr64 rBwtRstepLo 1

theorem witness_cadence_and_steering :
    (State.reset.secondCfg.bind fun c => c.groups[0]?) = none
    ∧ (∃ cf, (steered.secondCfg.bind fun c => c.groups[0]?) = some cf
      ∧ (1 : BitVec 16).toNat ≤ cf.lag ∧ cf.pmax < (9 : BitVec 16).toNat
      ∧ cf.lag < (2 : BitVec 16).toNat ∧ (2 : BitVec 16).toNat ≤ cf.pmax
      ∧ (8 : BitVec 16).toNat ≤ cf.pmax)
    ∧ steered.secondCfg = some second ∧ steered.getF fBwtSombCur = 4
    ∧ (∀ n ∈ [2, 8], second.mbmin ≤ n ∧ n ≤ second.mbmax ∧ 4 ≤ 2 * n ∧ n ≤ 2 * 4)
    ∧ 8 < 9 ∧ (steered.committed + 1).toNat < 2 ∧ steered.second.lastApply = none
    ∧ steered.getF fBwtSombNext = 0 := by
  refine ⟨by decide +kernel, ⟨⟨4, 0, 1, 8⟩, ?_⟩, ?_⟩ <;> decide +kernel

theorem witness_arm :
    let r := steered.readProgram
    steered.memEcc = [] ∧ r.2.1 = true ∧ progOk r.1 = some [0xFF00FFFF04]
    ∧ steered.armError (progOk r.1) = 0 ∧ steered.armError none = 4
    ∧ (let t := (steered.setF fBwtStatusState bwtHalted).setB fBwtStatusUndec true
      t.bitF fBwtStatusUndec = true ∧ t.getF fBwtStatusState = bwtHalted
      ∧ (0x10002 : BitVec 32).toNat / 65536 ≠ t.stepA.toNat % 65536
      ∧ (2 : BitVec 32).toNat / 65536 = t.stepA.toNat % 65536
      ∧ (2 : BitVec 32).getLsbD 1 = true ∧ (0 : BitVec 32).getLsbD 1 = false)
    ∧ (let t := steered.setF fBwtStatusState bwtHalted
      t.getF fBwtStatusState = bwtHalted ∧ t.bitF fBwtStatusUndec = false) := by decide +kernel

/-- An armed device whose programme run is at an entry. -/
def running (e : W64) (s : State := State.reset) : State :=
  ({ s with bwt := { s.bwt with code := [e], prog := some ⟨0, 0, []⟩, started := true } } : State).setF
    fBwtStatusState bwtArmed

theorem witness_programme :
    (∀ k ∈ [1, 2, 3, 4], State.reset.progNext k = none)
    ∧ (∀ k ∈ [1, 2, 3, 4], ((running (BitVec.ofNat 64 (0x100FF1000 + k + (if k = 2 then 2 ^ 40 else 0)))).progNext k).isSome = true)
    ∧ ceRegA 0x100FF1002 = 0 ∧ ceRegB 0x100FF1002 ≠ 0xFF ∧ cePorts 0x100FF1002 = [16]
    ∧ (cePorts 0x100FF1002).findSome? (State.reset.consCopy ⟨0, 0, []⟩ 0x100FF1002) = none
    ∧ ceRegB 0xFF00FFFF04 = 0xFF ∧ (running 0x100FF1002).getF fBwtStatusState ≠ bwtHalted
    ∧ (running 0x100FF1002).sav.clutch = none
    ∧ (((running 0x100FF1004).setF fBwtStatusState bwtHalted).progNext 4).isSome = true := by decide +kernel

/-- CAL60 and CAL61 armed for the device, on a standby spare and on a member. -/
theorem witness_consensus_cals :
    let cals := [(60, ⟨32768, 0, 0, 3, true⟩), (61, ⟨32768, 0, 0, 3, true⟩)]
    let spare : State := { State.reset with imgA := some { img with chipmap := some ⟨[], [], []⟩ }, logical := some [], cals := cals }
    let member : State := { spare with logical := some [0] }
    (spare.cal 61).armed = true ∧ ownerSlot (spare.cal 61).owner = none ∧ spare.timeRuns = true
    ∧ (spare.cal 60).armed = true ∧ ownerSlot (spare.cal 60).owner = none
    ∧ spare.standby = true ∧ member.inJob = true ∧ spare.programRuns = false
    ∧ (member.setF fBwtStatusState bwtHalted).programRuns = true := by decide +kernel

theorem witness_decisions :
    decideWord (cwSet (cwSet 0 12 2 16) 14 1 3) 0 0 3 = .halt 3
    ∧ decideWord (cwSet 0 12 2 8) 0 0 3 = .hold ∧ decideWord (cwSet 0 12 2 1) 0 0 3 = .skip
    ∧ decideWord 0 0 0 3 = .commit ∧ cwFlags 0 = 0
    ∧ decideWord (cwSet 0 8 4 1) 0 0 3 = .halt 2 ∧ decideWord 0 1 0 3 = .skip
    ∧ decideWord (cwSet 0 0 4 1) 0 0 3 = .halt 3 ∧ decideWord (cwSet 0 16 2 1) 0 0 3 = .halt 4
    ∧ decideWord (cwSet 0 12 2 4) 0 2 3 = .halt 5 ∧ decideWord (cwSet 0 12 2 4) 0 1 3 = .skip
    ∧ decideWord (cwSet 0 12 2 32) 0 0 3 = .halt 2 := by decide +kernel

/-! A CONS cell of the word 0 for slot 0: header 5 with the code D8C0, worked by hand from R509. -/

def goodCons : Cell := ⟨0xD8C0000000000005, 0⟩

theorem crc16_zeros_cons :
    (List.replicate 64 (0 : Byte)).foldl crc16Byte 60011 = 31254
    ∧ (List.replicate 64 (0 : Byte)).foldl crc16Byte 31254 = 63129
    ∧ (List.replicate 64 (0 : Byte)).foldl crc16Byte 63129 = 4752
    ∧ (List.replicate 64 (0 : Byte)).foldl crc16Byte 4752 = 55488 := by decide +kernel

theorem crc16_head_cons : ((leBytes 16 0xD8C0000000000005).drop 8
    ++ (leBytes 16 0xD8C0000000000005).take 6).foldl crc16Byte 0xFFFF = 60011 := by decide +kernel

theorem witness_cons_cell : consValid 0 goodCons = true := by
  obtain ⟨a, b, c, d⟩ := crc16_zeros_cons
  have hh : (0xD8C0000000000005 : BitVec 128).toNat = 0xD8C0000000000005 := by decide +kernel
  have hc : cellCrc goodCons.hdr goodCons.payload = 55488 := by
    rw [goodCons, cellCrc, crc16, payload_zeros, hh, List.foldl_append, crc16_head_cons]
    rw [List.foldl_append, List.foldl_append, List.foldl_append, a, b, c, d]
  have hf : cellFld goodCons 48 16 = 55488 := by decide +kernel
  have hg : cellGood goodCons = true := by rw [cellGood, hc, hf]; rfl
  have hk : cellFld goodCons 0 4 = 5 := by decide +kernel
  have hp : goodCons.payload.toNat / 2 ^ 512 % 2 ^ 64 = (0 : W64).toNat := by decide +kernel
  rw [consValid, hg, hk, hp]; rfl

/-- A device that has received that cell from port 16, at a RECV at slot 1 and hop 1. -/
def received : State :=
  running 0x1010100FF1002 { State.reset with bwt := { State.reset.bwt with cons := [⟨16, 0, goodCons⟩] } }

theorem consCopy_of (s : State) (r : ProgRun) (e : W64) (p : Nat) (c : ConsCell)
    (hl : (s.bwt.cons.filter fun c => c.port == p
      && c.slot.toNat == r.cs.toNat + 32 * ceSlot e - 32 * ceHop e)[
        Tab.look (fun _ => 0) r.taken (consKey p (ceSlot e) (ceHop e))]? = some c)
    (hv : consValid r.cs c.cell = true) (hp : cePorts e = [p]) :
    (cePorts e).findSome? (s.consCopy r e) = some (c.cell.payload.setWidth 512) := by
  rw [hp]
  simp [State.consCopy, hl, hv]

theorem witness_cons_copy : (received.progNext 2).isSome = true
    ∧ (cePorts 0x1010100FF1002).findSome? (received.consCopy ⟨0, 0, []⟩ 0x1010100FF1002)
      = some (goodCons.payload.setWidth 512) :=
  ⟨by decide +kernel, consCopy_of received ⟨0, 0, []⟩ 0x1010100FF1002 16 ⟨16, 0, goodCons⟩
    (by decide +kernel) witness_cons_cell (by decide +kernel)⟩

/-! ### Witnesses: the save port -/

/-- A command outstanding at a drive. -/
def nvme (cid : BitVec 16) (opc : Nat) (use : NvmeUse) (retried : Bool := false) : NvmeCmd :=
  ⟨cid, opc, 0, 1, false, none, [], use, retried, some 0, 0, false⟩

/-- Drive 0, attached or attaching, with a command. -/
def drv (ready : Bool) (attach : Nat) (c : NvmeCmd) (again paired : Bool := false) : State :=
  ({ State.reset with drives := [(0, ⟨[c], 9, attach, again, ⟨0, 0, true⟩, ⟨0, 0, true⟩, paired, []⟩)] } :
    State).setB (fSavDrvStatReady 0) ready

theorem witness_drive_wf : ∀ c : NvmeCmd, c.cid = 3 → c.sent = some 0 → c.blocks = 1 → ∀ r k a b,
    DriveWf ((drv r k c a b).drive 0) := by
  intro c h1 h2 h3 r k a b
  have e : (drv r k c a b).drive 0 = ⟨[c], 9, k, a, ⟨0, 0, true⟩, ⟨0, 0, true⟩, b, []⟩ := rfl
  rw [e]
  simp [DriveWf, h1, h2, h3]

theorem witness_drives :
    (let s := drv true 0 (nvme 3 2 (.rrec 0));
      (s.drive 0).cmds.find? (fun c => c.cid == (3 : BitVec 16) && c.sent.isSome) = some (nvme 3 2 (.rrec 0))
      ∧ (3 : BitVec 16).getLsbD 0 = (s.drive 0).io.phase ∧ (2 : BitVec 16).getLsbD 0 ≠ (s.drive 0).io.phase
      ∧ (nvme 3 2 (.rrec 0)).adm = false ∧ (nvme 3 0x106 .attach).adm = true ∧ s.memEcc = []
      ∧ s.age (nvme 3 2 (.rrec 0)).since < 125000 * s.getF fSavCfgTmo
      ∧ (s.drive 0).resetTried = false ∧ (nvme 3 2 (.rrec 0)).timed = false
      ∧ ({ nvme 3 2 (.rrec 0) with timed := true } : NvmeCmd).timed = true
      ∧ (let y : State := { s with fab := { s.fab with time := 0x10000000000 } }
        125000 * y.getF fSavCfgTmo ≤ y.age (nvme 3 2 (.rrec 0)).since)
      ∧ (let y : State := { drv true 0 (nvme 3 2 (.image 0)) with loader := some { load with drive := true } }
        y.loader = some { load with drive := true } ∧ (∀ x ∈ (y.drive 0).cmds, x.sent.isSome = true))
      ∧ (∀ c ∈ (s.drive 0).cmds, c.cid ≠ 4) ∧ s.bitF (fSavDrvStatReady 0) = true
      ∧ (63 : BitVec 16).toNat < 64 ∧ (15 : BitVec 16).toNat < 16
      ∧ (3 : BitVec 16).toNat / 2 ≠ 0 ∧ (1 : BitVec 16).toNat / 2 = 0 ∧ (1 : BitVec 16).getLsbD 0 = true
      ∧ s.sav.clutch = none ∧ s.sav.restore = none)
    ∧ (nvme 3 0 .flush).retried = false ∧ ¬ ((nvme 3 0 .flush).opc = 1 ∨ (nvme 3 0 .flush).opc = 2)
    ∧ (nvme 3 1 (.record 0) true).retried = true
    ∧ (∀ b : Bool, ((drv false 2 (nvme 3 0x104 .attach) b).drive 0).resetTried = b
      ∧ ((drv false 2 (nvme 3 0x104 .attach) b).drive 0).attach = 2)
    ∧ (∀ b : Bool, ((drv true 0 (nvme 3 2 .dead) false b).drive 0).paired = b)
    ∧ ((drv false 3 (nvme 3 0x106 .attach)).drive 0).attach = 3 ∧ identCtlOk (List.replicate 78 0) = true
    ∧ identCtlOk (List.replicate 77 0 ++ [3]) = false
    ∧ ((drv false 4 (nvme 3 0x106 .attach)).drive 0).attach ≠ 7
    ∧ (drv false 4 (nvme 3 6 .attach)).identNsOk 0 (List.replicate 130 0 ++ [12]) = true
    ∧ ((drv false 7 (nvme 3 0x101 .attach)).drive 0).attach = 7
    ∧ (1 : BitVec 32).getLsbD 0 = true ∧ (0 : BitVec 32).getLsbD 0 = false
    ∧ (drv true 0 (nvme 3 2 .dead)).bitF (fSavDrvCtlEn 0) = true
    ∧ ((drv true 0 (nvme 3 2 .dead)).setB (fSavDrvCtlEn 0) false).bitF (fSavDrvCtlEn 0) = false := by
  decide +kernel

theorem witness_drive_requests :
    let s := drv true 0 (nvme 3 2 (.rrec 0))
    s.drvReqOk 0 0x3FFFF 1 = true ∧ s.drvReqOk 0 0x3FFFF 2 = false ∧ s.drvReqOk 1 0 1 = false
    ∧ ((s.drive 0).badReqs.filter fun t => s.age t < 125000000).length < 2
    ∧ 2 ≤ (([0, 0] : List W64).filter fun t => s.age t < 125000000).length := by decide +kernel

/-- A hold-up supply whose gauge is fresh, with needs of 10 and an estimate of the gauge. -/
def held (stale : Bool) (g : W32) : State :=
  ((State.reset.setB fSavHstatGstale stale).setF fSavHneedSeale 10).wr rSavHestg g

theorem witness_holdup :
    (held false 0).bitF fSavHstatGstale = false ∧ ((held false 0).rd rSavHestg).toNat = 0
    ∧ (held true 5).bitF fSavHstatGstale = true ∧ (held false 7).holdNeed = 10
    ∧ ((held false 7).rd rSavHestg).toNat = 7
    ∧ State.reset.age (State.reset.sav.gaugeAt.getD 0) < 6250000
    ∧ (let s : State := { State.reset with fab := { FabSt.reset with time := 6250000 } }
      6250000 ≤ s.age (s.sav.gaugeAt.getD 0)) := by decide +kernel

/-- A plan of one piece: word 0 of block 0 of stack 0, by route 0 to the save port. -/
def ent : PlanEnt := ⟨0, 0, 0, 0xFFFFFFFF, 1, 0⟩

/-- A device that can save: its plan in memory, a route for it, drive 0 ready or not. -/
def saver (ready : Bool) : State :=
  (((({ State.reset with
    imgA := some { blank with routes := [⟨8192, 32788, 1, 0, false, []⟩] }
    mem := [(0x2008, 0xFF), (0x2009, 0xFF), (0x200A, 0xFF), (0x200B, 0xFF), (0x200C, 1)] } : State).wr64
      rSavPlanLo 0x2000).setF fSavPlanlenEntries 1).setB (fSavDrvStatReady 0) ready).wr rSavArealen 1000

theorem witness_grant :
    let s := saver true
    let bs := (s.readPlan (s.rd64 rSavPlanLo).toNat (s.getF fSavPlanlenEntries)).1
    s.getF fSavStatusState = savIdle ∧ s.armed = false ∧ s.memEcc = [] ∧ s.sav.clutch = none
    ∧ s.queuedBreach (bs.map PlanEnt.ofBytes) = false
    ∧ (s.setStk 0 { StackSt.reset with qa := [cmdOf (unitCmd 5 []) 0 []] }).queuedBreach [ent] = true
    ∧ s.planOk bs = true ∧ bs.map PlanEnt.ofBytes = [ent] ∧ s.bitF (fSavDrvStatReady 0) = true
    ∧ (∀ n : Drive, (saver false).bitF (fSavDrvStatReady n) = false)
    ∧ State.reset.planOk (State.reset.readPlan 0 (State.reset.getF fSavPlanlenEntries)).1 = false
    ∧ (s.setF fBwtStatusState bwtArmed).armed = true
    ∧ (s.setF fSavStatusState savCapture).getF fSavStatusState ≠ savIdle
    ∧ (s.getF fSavRstrDrvmask).testBit 0 = true
    ∧ ((s.setF fSavRstrDrvmask 2).getF fSavRstrDrvmask).testBit 0 = false
    ∧ (∀ x ∈ s.drives, ∀ y ∈ x.2.cmds, y.use.ofRestore = false) := by decide +kernel

/-- A clutch over that plan, its piece in a phase, its record as it stands, in a step of its seal. -/
def clutch (phase step : Nat) (r : RecSt) : Clutch :=
  ⟨1, [ent], 0, 7, 0, [(0, ⟨phase, none, false, [], []⟩)], [(0, r)], false, false, false, none, step, []⟩

/-- A device with a clutch in a state of the save port. -/
def clutching (st : Nat) (c : Clutch) : State :=
  let s := (saver true).setF fSavStatusState st
  { s with sav := { s.sav with clutch := some c } }

/-- A record that is not captured yet, and one that is written. -/
def rec0 : RecSt := ⟨false, none, 0, false, false, 0, 0⟩
def rec1 : RecSt := ⟨true, some 0, 0, true, true, 0, 0⟩

theorem witness_piece :
    let c := clutch 0 0 rec0
    let s := clutching savCapture c
    c.plan[0]? = some ent ∧ s.getF fSavStatusState = savCapture ∧ s.mayRead = true
    ∧ (s.stk 0).qh.length < 8 ∧ (s.stk 0).qa = [] ∧ (s.stk 0).qh = []
    ∧ (∀ j ∈ c.reading, c.plan[j]?.map (·.route) ≠ some ent.route)
    ∧ (∀ k ∈ [0, 1, 2], ((clutch k 0 rec0).piece 0).phase = k) ∧ ((clutch 1 0 rec0).piece 0).log = false
    ∧ (s.route .a 0).dst.length < ent.nt
    ∧ (let t := s.setRoute .a 0 { RouteSt.reset with dst := [word 1] }
      ent.nt ≤ (t.route .a 0).dst.length)
    ∧ (let t : State := { s with bwt := { s.bwt with started := true, decided := true } }
      t.mayRead = false)
    ∧ (∃ j ∈ (clutch 1 0 rec0).reading, (clutch 1 0 rec0).plan[j]?.map (·.route) = some ent.route) := by
  decide +kernel

theorem witness_records :
    let c := clutch 2 0 rec0
    let s := clutching savCapture c
    (c.recd 0).captured = false ∧ 0 < c.nrec ∧ s.placeFree c 0 = true
    ∧ (∀ k ∈ c.overlaps 0, (c.piece k).phase = 2) ∧ s.recDrive c = some 0
    ∧ s.useBusy (· == .zero) = false
    ∧ (({ s with drives := [(0, { DriveSt.reset with cmds := [nvme 3 1 .zero] })] } : State).useBusy (· == .zero)
      = true)
    ∧ (clutching savCapture (clutch 2 0 rec0) |>.wr rSavArealen 1).recDrive c = none
    ∧ (∃ k ∈ (clutch 0 0 rec0).overlaps 0, ((clutch 0 0 rec0).piece k).phase ≠ 2)
    ∧ (let d := clutch 2 0 rec1
      let t := clutching savDrain d
      t.getF fSavStatusState = savDrain ∧ d.sealStep = 0 ∧ t.sav.restore = none
      ∧ (∀ i < d.nrec, (d.recd i).written = true ∧ (d.recd i).issued = true)
      ∧ (d.recsBy fun r => r.drive == some 0) ≠ [])
    ∧ (let d := clutch 2 4 rec1
      let t : State := { clutching savSeal d with drives := [(0, { DriveSt.reset with cmds := [nvme 3 1 .header] })] }
      t.getF fSavStatusState = savSeal ∧ d.sealStep = 4 ∧ (∀ i < d.nrec, (d.recd i).issued = true)
      ∧ (t.drives.map (·.1)).Pairwise (· < ·)
      ∧ (∀ x ∈ t.drives, ∀ y ∈ x.2.cmds, y.use.ofClutch = true → x.1 = 0 ∧ y.cid = 3)) := by
  decide +kernel

/-! ### Witnesses: power and clocks -/

/-- A device under an image of one phase from multiplier 8, at multiplier 16, at most 24. -/
def powered : State :=
  ({ State.reset with
    imgA := some { blank with phases := [⟨8, 255, 1⟩] }
    cals := [(1, ⟨32768, 0, 0, 1, true⟩)] } : State).setF fPwrOppointMult 16 |>.setF fPwrCapMaxmult 24

/-- A change to multiplier 20 that a die waits to make. -/
def changing (other : Bool) : State :=
  { powered with pwr := { PwrSt.reset with
    target := some 20
    waiting := true
    pll := [(0, true)]
    switched := [(1, other)] } }

theorem witness_oppoint :
    powered.phaseCfg 0 = some ⟨8, 255, 1⟩ ∧ powered.startOnFrame ⟨8, 255, 1⟩ = true
    ∧ powered.getF fPwrOppointMult = 16 ∧ powered.bitF fPwrOppointSwpend = false
    ∧ (20 : BitVec 5).toNat ≤ powered.getF fPwrCapMaxmult ∧ (9 * 20 + 1) / 2 ≤ 255
    ∧ powered.phaseCfg 1 = none ∧ powered.getF fPwrCapMaxmult < (25 : BitVec 5).toNat := by
  decide +kernel

theorem witness_switch_over : powered.pwr.target = none ∧ (changing true).pwr.target = some 20
    ∧ (changing true).pwr.waiting = true ∧ (changing true).pllOk 0 = true
    ∧ (changing true).hasSwitched (otherDie 0) = true ∧ (changing false).hasSwitched (otherDie 0) = false
    ∧ (let t := (List.range 8).foldl (fun (t : State) q => t.setB (fPwrVqVok q) true) (changing true)
      (quadrants 0).all (fun q => t.bitF (fPwrVqVok q)) = true)
    ∧ (quadrants 0).all (fun q => ((changing true).setB (fPwrVqVok 0) false).bitF (fPwrVqVok q)) = false
    ∧ (let t := changing true
      t.getF (fPwrVqVreq 1) ≤ 0x7FF) := by decide +kernel

theorem witness_currents :
    (List.replicate 17 (0 : BitVec 16)).length = 17 ∧ (List.replicate 20 (0 : BitVec 12)).length = 20
    ∧ (let s := State.reset.setF (fPwrIlimAct 8) 100
      s.act 8 = 100 ∧ (125 : BitVec 16).toNat ≤ s.act 8 + s.act 8 / 4
      ∧ s.act 8 + s.act 8 / 4 < (126 : BitVec 16).toNat)
    ∧ (let s := (State.reset.setF fPwrThcfgTcrit 100).setB fPwrThstatCrit false
      let hot := (List.replicate 19 (0 : BitVec 12)) ++ [800]
      (∃ n < 20, (8 * s.getF fPwrThcfgTcrit : Int) ≤ (hot.getD n 0).toInt)
      ∧ ¬ (∃ n < 20, (8 * s.getF fPwrThcfgTcrit : Int) ≤ ((List.replicate 20 (799 : BitVec 12)).getD n 0).toInt)
      ∧ s.bitF fPwrThstatCrit = false ∧ (s.setF (fPwrOptStatState 1) optOn).opt 1 = optOn) := by
  decide +kernel

/-- Load switch 1 in a state, with trips and retries. -/
def switched (st : Nat) (trip : Bool) (n : Nat) : State :=
  ({ State.reset with
    fab := { FabSt.reset with time := 1000 }
    pwr := { PwrSt.reset with
      tripped := [(1, trip)], retries := [(1, List.replicate n 900)] } } : State).setF (fPwrOptStatState 1) st

theorem witness_switches : (∀ st < 5, (switched st false 0).opt 1 = st)
    ∧ (switched 3 true 3).bitF fPwrThstatCrit = false
    ∧ ((switched 3 true 3).setB fPwrThstatCrit true).bitF fPwrThstatCrit = true
    ∧ Tab.look (fun _ => false) (switched 3 true 3).pwr.tripped 1 = true
    ∧ Tab.look (fun _ => false) (switched 0 false 0).pwr.tripped 1 = false
    ∧ 3 ≤ ((switched 3 true 3).retriesOf 1).length ∧ ((switched 3 true 2).retriesOf 1).length < 3 := by
  decide +kernel

/-! ### Witnesses: the mailboxes -/

/-- A device with a request of CMD, LEN and payload bytes from offset 8 in PF0's mailbox, first in
line or not, in a state of the firmware. -/
def asked (cmd len fw : Nat) (payload : List Byte) (first : Bool := true) (base : State := dev) : State :=
  let s := ((base.wr4 0 mbxReqBuf (BitVec.ofNat 32 (cmd + 65536 * len))).wr4List 0 (mbxReqBuf + 8)
    (wordsOf payload)).setF fMgtFwstatState fw
  if first then { s.mbxSet 0 0 true with host := { s.host with posts := [0] } } else s

theorem witness_mailbox :
    (∀ z ∈ [(1, 0), (2, 20), (3, 2), (4, 2), (5, 145), (6, 97), (7, 66), (8, 40), (9, 2), (10, 4), (11, 3)],
      let s := asked z.1 z.2 fwRunning []
      s.mbxFirst 0 = true ∧ s.mbxTurned 0 = none ∧ s.mbxCmd 0 = z.1 ∧ s.mbxLen 0 = z.2
      ∧ s.mbxBusy 0 = true)
    ∧ (asked 3 2 fwNone []).mbxTurned 0 = some mbxNoFw ∧ (asked 12 0 fwRunning []).mbxTurned 0 = some 1
    ∧ (asked 3 2 fwRunning [] false).mbxFirst 0 = false ∧ (asked 3 2 fwRunning [] false).mbxBusy 0 = false
    ∧ (asked 3 249 fwRunning []).mbxLen 0 = 249 ∧ (asked 5 144 fwRunning []).mbxLen 0 < 145
    ∧ (asked 3 2 fwHung [] false).fwState = fwHung ∧ mbxReserved ((asked 12 0 fwRunning []).mbxCmd 0) = true
    ∧ mbxReserved ((asked 11 0 fwRunning []).mbxCmd 0) = false
    ∧ (asked 12 0 fwRunning [] false).host.posts = []
    ∧ (∃ g, (asked 1 0 fwRunning []).host.posts.head? = some g ∧ g ≠ (1 : Func).val)
    ∧ dev.bitF fMgtStrapFwauto = false := by decide +kernel

/-- A load of Jusia: one whose Reads stand or failed, the start of one on FWAUTO, and the drive that a request
names, READY or not. -/
theorem witness_fw_load :
    (let f : FwLoad := ⟨some 0, some 0, fwRunning, [], false⟩
      let s : State := asked 2 20 fwRunning [1, 3]
      let y : State := { s with mgt := { s.mgt with fw := some f } }
      let z : State := { y with drives := [(3, { DriveSt.reset with cmds := [nvme 3 2 (.fw 0)] })] }
      y.mgt.fw = some f ∧ f.was ≤ 3 ∧ f.failed = false ∧ y.useBusy NvmeUse.ofFw = false
      ∧ z.useBusy NvmeUse.ofFw = true ∧ y.fwCheck f.bytes ≠ 0 ∧ y.mbxBusy 0 = true
      ∧ ({ f with failed := true } : FwLoad).failed = true ∧ s.mgt.fw = none
      ∧ s.driveReady 3 = false ∧ (s.setB (fSavDrvStatReady 3) true).driveReady 3 = true
      ∧ (s.drive 3).cmds = [])
    ∧ (let s := dev.setB fMgtStrapFwauto true
      s.mbxFirst 0 = false ∧ s.mgt.fw = none ∧ s.bitF fMgtStrapFwauto = true ∧ s.mgt.booted = false
      ∧ s.driveReady 0 = false ∧ (s.setB (fSavDrvStatReady 0) true).driveReady 0 = true) := by decide +kernel

/-- WIN_REFILL of page 1 of a window of two: its walk fails, gives a leaf of the window's stack, and one of
another stack. -/
theorem witness_win_refill :
    let w (stack : Nat) (big : Bool) : WinCfg := ⟨stack, true, true, big, 0, 2, 0⟩
    let s (c : WinCfg) (m : Tab Byte) : State :=
      asked 10 4 fwRunning [0, 0, 1] true { dev with imgA := some { img with xltwin := some [c] }, mem := m }
    let m0 : Tab Byte := [(0, 0x0F)]
    Served (s (w 0 false) []) 0 10 4 ∧ Served (s (w 0 false) m0) 0 10 4
    ∧ (∀ m ∈ [[], m0], ((s (w 0 false) m).windowsOf (funcSlot 0)).getD [] = [w 0 false]
      ∧ (s (w 0 false) m).mbxF 0 8 2 = 0 ∧ (s (w 0 false) m).mbxF 0 10 2 = 1 ∧ (s (w 0 false) m).memEcc = [])
    ∧ ((s (w 0 false) []).walk .a (1 * (w 0 false).psize)).1 = .fault .notPresent
    ∧ ((s (w 0 false) m0).walk .a (1 * (w 0 false).psize)).1 = .leaf ⟨0, true, true, true⟩
    ∧ stackOf ((⟨0, true, true, true⟩ : Leaf).phys (1 * (w 0 false).psize)) = (w 0 false).stack
    ∧ (s (w 0 false) m0).isoOk false ((⟨0, true, true, true⟩ : Leaf).phys (1 * (w 0 false).psize)) (w 0 false).psize
      = true
    ∧ stackOf ((⟨0, true, true, true⟩ : Leaf).phys (1 * (w 1 false).psize)) ≠ (w 1 false).stack
    ∧ (w 0 true).big = true ∧ (⟨0, false, true, true⟩ : Leaf).big = false := by
  unfold Served
  decide +kernel

/-- FW_LOAD from memory and from drive 3; an image of 0 bytes is no image. -/
theorem witness_mbx_load :
    (let s := asked 2 20 fwRunning [1, 3];
      s.mbxF 0 8 1 = 1 ∧ s.mbxF 0 9 1 ≤ 3 ∧ s.mbxF 0 24 4 ≤ 2 ^ 24 ∧ s.armed = false
      ∧ s.fwCheck [] ≠ 0 ∧ (s.setF fBwtStatusState bwtArmed).armed = true)
    ∧ (let s := asked 2 20 fwRunning [];
      s.mbxF 0 8 1 = 0 ∧ s.memEcc = [] ∧ s.mbxF 0 16 8 + s.mbxF 0 24 4 ≤ memTop)
    ∧ (let s := asked 8 40 fwRunning [1, 3, 1];
      s.mbxF 0 8 1 ≤ 1 ∧ s.mbxF 0 9 1 ≤ 3 ∧ s.mbxF 0 10 1 ≤ 1 ∧ s.mbxF 0 12 2 ≤ 4095
      ∧ s.imgState = imgIdle ∧ (s.setF fImgStatusState imgRead).imgState ≠ imgIdle) := by decide +kernel

/-- The other commands with their payloads at the limits of their ranges. -/
theorem witness_mbx_others :
    ((asked 4 2 fwRunning [5, 10]).mbxF 0 8 1 &&& (asked 4 2 fwRunning [5, 10]).mbxF 0 9 1 = 0
      ∧ (asked 4 2 fwRunning [15, 0]).mbxF 0 8 1 ≤ 15 ∧ 15 < (asked 4 2 fwRunning [16, 0]).mbxF 0 8 1
      ∧ (asked 4 2 fwRunning [1, 1]).mbxF 0 8 1 &&& (asked 4 2 fwRunning [1, 1]).mbxF 0 9 1 ≠ 0)
    ∧ (asked 5 145 fwRunning [3]).mbxF 0 8 1 ≤ 3 ∧ 3 < (asked 5 145 fwRunning [4]).mbxF 0 8 1
    ∧ (let s := { asked 5 145 fwRunning [3] with fuses := { Config.fuses with owner := 8, revoked := 0 } };
      (s.fuses.owner.getLsbD 3 || s.fuses.revoked.getLsbD 3) = true)
    ∧ (let s := { asked 5 145 fwRunning [3] with fuses := { Config.fuses with owner := 0, revoked := 0 } };
      (s.fuses.owner.getLsbD 3 || s.fuses.revoked.getLsbD 3) = false)
    ∧ (asked 7 66 fwRunning []).imgB = none ∧ ({ asked 7 66 fwRunning [] with imgB := some blank }).imgB ≠ none
    ∧ (asked 9 2 fwRunning [255]).mbxF 0 8 2 ≤ 255 ∧ 255 < (asked 9 2 fwRunning [0, 1]).mbxF 0 8 2
    ∧ (let s := asked 9 2 fwRunning [0] true (devWith fun x => { x with stopped := true });
      (s.core 0).cfgA ≠ none ∧ (s.core 0).holdsA = true ∧ (s.core 0).stopped = true
      ∧ (s.core 0).exc.toNat % 8 ≠ 6 ∧ s.stageOut .a 0 = false)
    ∧ (asked 9 2 fwRunning [0]).core 0 = dev.core 0 ∧ (dev.core 0).stopped = false
    ∧ (asked 9 2 fwRunning [255] |>.core 255).cfgA = none
    ∧ (let s := { asked 9 2 fwRunning [0] with sd := { SdSt.reset with retired := [0] } };
      s.stageOut .a 0 = true)
    ∧ (let w : WinCfg := ⟨0, true, true, false, 0, 2, 0⟩;
      let s := asked 10 4 fwRunning [0, 0, 1] true { dev with imgA := some { img with xltwin := some [w] } };
      let t := asked 10 4 fwRunning [0, 0, 2] true { dev with imgA := some { img with xltwin := some [w] } };
      ((s.windowsOf (funcSlot 0)).getD [])[s.mbxF 0 8 2]? = some w ∧ s.mbxF 0 10 2 < w.npage
      ∧ w.npage ≤ t.mbxF 0 10 2 ∧ ((s.windowsOf (funcSlot 0)).getD [])[1]? = none)
    ∧ (let s := asked 11 5 fwRunning [127, 1, 32];
      s.mbxF 0 8 1 ≤ 127 ∧ s.mbxF 0 10 1 ≤ 32 ∧ s.mbxF 0 9 1 ≤ 1 ∧ 4 + s.mbxF 0 9 1 ≤ s.mbxF 0 2 2)
    ∧ 127 < (asked 11 3 fwRunning [128]).mbxF 0 8 1 ∧ (asked 11 36 fwRunning [0, 32, 0]).mbxF 0 9 1 ≤ 32
    ∧ 32 < (asked 11 37 fwRunning [0, 33, 0]).mbxF 0 9 1
    ∧ (asked 11 35 fwRunning [0, 32, 0]).mbxF 0 2 2 < 4 + (asked 11 35 fwRunning [0, 32, 0]).mbxF 0 9 1
    ∧ (asked 11 3 fwRunning []).i2cState ≠ 3 ∧ (asked 11 3 fwRunning []).mgt.tx = none
    ∧ ((asked 11 3 fwRunning []).setF fMgtI2cstatState 3).i2cState = 3 := by decide +kernel

/-! ### Witnesses: the I²C controller and the SMBus target -/

/-- A device with one poll entry, the gauge due at some time, a transfer waiting or not. -/
def polled (gauge : W64) (x : Option Func) (tx : Option I2cTx) (st : Nat) : State :=
  ({ State.reset with
    imgA := some { blank with mgmt := some ⟨false, [⟨0x30, 1, 32, 10⟩]⟩ }
    mgt := { MgtSt.reset with gaugeDue := gauge, xfer := x, tx := tx } } : State).setF fMgtI2cstatState st

theorem witness_i2c :
    (polled 0 none none 0).firstTx = some .gauge ∧ (polled 9 (some 0) none 0).firstTx = some (.xfer 0)
    ∧ (polled 9 none none 0).firstTx = some (.poll 0)
    ∧ (∀ st < 4, (polled 9 none none st).i2cState = st)
    ∧ (polled 9 none none 0).skipped (.poll 0) = false
    ∧ ((polled 9 none none 0).setF fSavHgaugeAddr 0x30).skipped (.poll 0) = true
    ∧ (polled 9 none none 0).mgt.tx = none ∧ (polled 9 none (some .gauge) 1).mgt.tx = some .gauge
    ∧ (polled 9 none (some (.poll 0)) 1).polls[0]? = some ⟨0x30, 1, 32, 10⟩
    ∧ (let s := asked 11 3 fwRunning [127, 1, 32] true (polled 9 (some 0) (some (.xfer 0)) 1);
      s.mgt.tx = some (.xfer 0) ∧ s.mgt.xfer = some 0 ∧ s.mbxBusy 0 = true)
    ∧ (∀ n < 3, ((polled 9 none none 2).setF fMgtI2cstatAttempt n).getF fMgtI2cstatAttempt = n)
    ∧ ((9 : Fin 11).val ≤ 9 ∧ (10 : Fin 11).val = 10) := by decide +kernel

/-- The SMBus target at an offset, VAUX valid, the device READY or not. -/
def target (off : W32) (ready : Bool) : State :=
  { State.reset with mgt := { MgtSt.reset with vaux := true, pwrok := ready, fref := ready, smbOff := off } }

theorem witness_smbus :
    State.reset.mgt.vaux = false ∧ (target 0 true).mgt.vaux = true
    ∧ (target 0 true).bitF fMgtSmbcfgPecreq = false
    ∧ ((target 0 true).setB fMgtSmbcfgPecreq true).bitF fMgtSmbcfgPecreq = true
    ∧ (target 0 true).smbReady = true ∧ (target 0 false).smbReady = false
    ∧ (target (BitVec.ofNat 32 rMgtRstctl) true).mgt.smbOff.toNat = rMgtRstctl
    ∧ (1 : BitVec 32).getLsbD 0 = true
    ∧ (∀ o ∈ [0, 0xFFFFC, 0x1FFFFC, 0xC00000, 0xDFFFFC, 0x600000, 0x60003C, 0xB00070, 0xB0008C, 0xA00000,
      0xA0000C], smbReach o = true)
    ∧ (∀ o ∈ [0x200000, 0x600040, 0xB0006C, 0xB00090, 0xA00010, 0xE00000], smbReach o = false)
    ∧ (target 0 true).mgt.smbOff.toNat ≠ rMgtGpiodata
    ∧ latchOf (target 0 true).latches .smbus 0 = none := by decide +kernel

/-! ### Witnesses: resets -/

/-- A device whose PWROK, FREF and sag are as given. -/
def supplied (pwrok fref sag : Bool) : State :=
  { State.reset with mgt := { MgtSt.reset with pwrok := pwrok, fref := fref, sag := sag } }

theorem witness_resets :
    State.reset.mgt.pwrok = false ∧ (supplied true true false).mgt.pwrok = true
    ∧ (supplied true true true).mgt.sag = true ∧ (supplied true false false).mgt.fref = false
    ∧ (supplied false true false).mgt.pwrok = false ∧ (supplied true true false).mgt.fref = true
    ∧ State.reset.bitF fMgtRstcfgPerstwarm = false
    ∧ (State.reset.setB fMgtRstcfgPerstwarm true).bitF fMgtRstcfgPerstwarm = true
    ∧ State.reset.imgB = none ∧ ({ State.reset with imgB := some blank }).bResident = false
    ∧ ({ dev with imgB := some { blank with slotb := true }, cores := [(0, { core0 with slot := .b })] }).bResident
        = true
    ∧ Tab.wf regReset ({ State.reset with reg := [] }).reg = true
    ∧ ({ State.reset with reg := [] }).bitF fMgtTapstatHeld = false
    ∧ (({ State.reset with reg := [] } : State).setB fMgtTapstatHeld true).bitF fMgtTapstatHeld = true
    ∧ Tab.wf regReset (({ State.reset with reg := [] } : State).setB fMgtTapstatHeld true).reg = true
    ∧ (6 : BitVec 8).toNat < 7 ∧ ¬ (7 : BitVec 8).toNat < 7
    ∧ (∃ ch < 16, State.reset.chSlot ch = funcSlot 0) ∧ (∃ ch < 16, (State.reset.setB
        (fDmaChCtlSlot 3) true).chSlot ch ≠ funcSlot 0) := by decide +kernel

/-! ### Witnesses: Sheepdog -/

/-- A device with a test queued, and one with it running. -/
def sdq (k u sub : Nat) : State := { State.reset with sd := { SdSt.reset with queue := [⟨k, u, sub, 0⟩] } }
def sdr (k u sub : Nat) : State :=
  { State.reset with sd := { SdSt.reset with running := some ⟨k, u, sub, 0⟩ } }

theorem witness_sd_start :
    (∀ z ∈ [(1, 2048, 1), (2, 4096, 0), (3, 8192, 5), (4, 10240, 0), (5, 12288, 0)],
      let s := sdq z.1 z.2.1 z.2.2
      s.sd.queue.find? s.eligible = some ⟨z.1, z.2.1, z.2.2, 0⟩ ∧ s.sd.running = none
      ∧ (s.cal 62).armed = false)
    ∧ (sdr 1 2048 1).sd.running ≠ none
    ∧ State.reset.sd.queue.find? State.reset.eligible = none
    ∧ (let s : State := { sdq 5 12288 0 with cals := [(62, ⟨32768, 0, 9, 3, true⟩)] };
      let u := (s.reach 9).putCal 62 { s.cal 62 with next := (s.cal 62).next + 32768 }
      (s.cal 62).armed = true ∧ s.timeRuns = true ∧ ownerSlot (s.cal 62).owner = none
      ∧ (s.setB fFabTstatFreflost true).timeRuns = false
      ∧ u.sd.queue.find? u.eligible = some ⟨5, 12288, 0, 0⟩)
    ∧ (let s : State := { devWith (fun x => { x with cfgA := some cfg }) with
        sd := { SdSt.reset with queue := [⟨1, 2048, 1, 0⟩] } };
      s.sd.queue.find? (fun t => !s.eligible t) = some ⟨1, 2048, 1, 0⟩)
    ∧ (∀ x ∈ (sdq 3 8192 5).sd.queue, (sdq 3 8192 5).eligible x = true) := by decide +kernel

theorem witness_sd_end :
    ((sdr 1 2048 1).sdResult ⟨1, 2048, 1, 0⟩ 1 0 = sdLasting)
    ∧ ((sdr 5 12288 0).port 0).signal = false
    ∧ (let s : State := ({ sdr 5 12288 0 with ports := [(0, { FabPort.reset with signal := true })] }).setF
        fErrSdcfgRecur 3;
      (s.port 0).signal = true ∧ 2 ^ 24 ≤ (16777216 : BitVec 32).toNat
      ∧ (16777216 : BitVec 32).toNat < (4097 : BitVec 32).toNat * 4096
      ∧ s.sdResult ⟨5, 12288, 0, 0⟩ 100 16777216 = sdTransient
      ∧ (let t : State := { s with sd := { s.sd with hist := [(5, 12288, 0, 0), (5, 12288, 0, 0)] } };
        t.getF fErrSdcfgRecur - 1 ≤ t.sdRecent ⟨5, 12288, 0, 0⟩))
    ∧ (⟨1, 2048, 1, 0⟩ : SdTest).core = some 0 ∧ (⟨2, 4099, 0, 0⟩ : SdTest).core = some 0
    ∧ (⟨1, 6144, 3, 0⟩ : SdTest).core = none
    ∧ (let s : State := { sdr 1 2048 1 with cores := [(0, core0), (1, core0), (2, { core0 with
          cfgA := some { cfg with stage := 9 } })] }
      let t : State := { s with sd := { s.sd with retired := [0] } }
      (s.core 1).bare = false ∧ t.stageOut (s.core 1).slot 1 = true ∧ t.stageOut (s.core 2).slot 2 = false)
    ∧ (sdr 1 2048 1).sd.retired.contains 0 = false ∧ 0 < (sdr 1 2048 1).spares 0
    ∧ Tab.look (fun _ => 0) ((sdr 3 8192 5).stk 0).spareUsed 5 < 32
    ∧ (let s := (sdr 3 8192 5).setStk 0 { StackSt.reset with spareUsed := [(5, 32)] };
      32 ≤ Tab.look (fun _ => 0) (s.stk 0).spareUsed 5
      ∧ (codewords 8 (0 * stackBytes + 5 * 0x1000) 0x1000) ≠ []) := by decide +kernel

theorem witness_sd_request :
    sdTaken 1 1 255 4 = true ∧ sdTaken 1 1 256 4 = false ∧ sdTaken 1 1 0 0 = false
    ∧ sdTaken 1 3 31 15 = true ∧ sdTaken 2 2 1023 0 = true ∧ sdTaken 3 4 7 9 = true
    ∧ sdTaken 4 5 511 0 = true ∧ sdTaken 5 6 18 0 = true ∧ sdTaken 5 6 19 0 = false
    ∧ (sdq 5 12288 0).sd.holds 5 12288 0 = true ∧ (sdq 5 12288 0).sd.holds 5 12289 0 = false
    ∧ 64 ≤ (List.replicate 64 (⟨5, 12288, 0, 0⟩ : SdTest)).length
    ∧ (sdq 5 12288 0).sd.queue.length < 64 := by decide +kernel

/-! ### Witnesses: register accesses -/

theorem witness_writes :
    (pairLo rBwtCfg = false ∧ pairHi rBwtCfg = false ∧ rBwtCfg / 0x100000 ≠ 1 ∧ inCore rBwtCfg = false
      ∧ chanAt rBwtCfg = none ∧ State.reset.action rBwtCfg 0x300 = none ∧ rBwtCfg % 4 = 0
      ∧ rBwtCfg < 2 ^ 26)
    ∧ State.reset.wrCheck rBwtCfg (regRw rBwtCfg) = .ok
    ∧ (∃ d, State.reset.wrCheck rBwtCfg 0 = .drop d) ∧ fBwtCfgDigmax.get 0 = 0
    ∧ (pairLo rBwtRstepLo = true ∧ regRw rBwtRstepLo ≠ 0 ∧ rBwtRstepLo % 4 = 0)
    ∧ (pairHi (rBwtRstepLo + 4) = true ∧ pairLo (rBwtRstepLo + 4) = false
      ∧ chanAt (rBwtRstepLo + 4) = none)
    ∧ (let s : State := { State.reset with heldLo := [⟨.pf0, rBwtRstepLo, 7⟩] };
      latchOf s.heldLo .pf0 rBwtRstepLo = some 7 ∧ s.pairCheck rBwtRstepLo 7 = .ok)
    ∧ State.reset.pairCheck rBwtCpbaseLo 1 ≠ .ok
    ∧ rXltTbasebLo % 4 = 0 ∧ rXltTbasebHi < 2 ^ 26
    ∧ (let s : State := { State.reset with heldLo := [⟨.jusia, rXltTbasebLo, 0x200000⟩] };
      latchOf s.heldLo .jusia rXltTbasebLo = some 0x200000 ∧ (0x200000 : W32).toNat % 0x200000 = 0
      ∧ (1 : W32).toNat % 0x200000 ≠ 0) := by
  refine ⟨by decide +kernel, by decide +kernel, ⟨1, by decide +kernel⟩, ?_⟩
  decide +kernel

/-- A value that each clause of the reserved encodings names. -/
theorem witness_reserved : (∀ z ∈ [(rBwtCfg, 0), (rBwtConsoff, 0), (rBwtCplen, 257), (rBwtPgrp, 0x90000),
    (rXltTimeout, 0), (rSavRinglen, 3), (rSavHcfg, 0), (rErrSdcfg, 0), (rMemSavedl, 0)],
      State.reset.wrCheck z.1 (BitVec.ofNat 32 z.2 &&& regRw z.1) = .drop 1)
    ∧ State.reset.wrCheck rSavRstr (0xFFFFFFFF &&& regRw rSavRstr) = .drop 1
    ∧ State.reset.wrCheck rMgtI2ccfg (0xFFFFFFFF &&& regRw rMgtI2ccfg) = .drop 1 := by decide +kernel

theorem witness_reads :
    rBwtRstepLo ≠ rMgtGpiodata ∧ latchOf State.reset.latches .pf0 (rBwtRstepLo + 4) = none
    ∧ (let s : State := { State.reset with latches := [⟨.pf0, rBwtRstepLo + 4, 7⟩] };
      latchOf s.latches .pf0 (rBwtRstepLo + 4) = some 7)
    ∧ (State.reset.rd4 0 0x800).getLsbD 3 = false
    ∧ ((State.reset.wr4 0 0x800 8).rd4 0 0x800).getLsbD 3 = true
    ∧ (State.reset.rd4 0 0x200C).getLsbD 0 = false
    ∧ ((State.reset.wr4 0 0x200C 1).rd4 0 0x200C).getLsbD 0 = true := by decide +kernel

/-! ### Witness: the invariant -/

theorem witness_canonical : let s : State := { State.reset with reg := [], mem := [(3, 1)] };
    Canonical s ∧ (∃ t, step s = .next t) ∧ ¬ Canonical { s with mem := [(3, 0)] } := by
  refine ⟨by unfold Canonical; decide +kernel, ⟨_, rfl⟩, by unfold Canonical; decide +kernel⟩

end Sys2Proof.Tests
end

/-! ## The cold reset (O3) -/

section

namespace Sys2Proof.Machine

open Sys2Proof Sys2Proof.Claims

/-! ### Tables filled by a run of writes -/

/-- A run of writes leaves every key that it does not name as it was. -/
theorem Tab.look_foldl_put_of_not_mem {α : Type} [DecidableEq α] (d : Nat → α) (l : List (Nat × α))
    {k : Nat} : ∀ t : Tab α, k ∉ l.map (·.1) →
      Tab.look d (l.foldl (fun u e => Tab.put d u e.1 e.2) t) k = Tab.look d t k := by
  induction l with
  | nil => intro t _; rfl
  | cons e l ih =>
    intro t hk
    rw [List.map_cons, List.mem_cons, not_or] at hk
    rw [List.foldl_cons, ih _ hk.2, Tab.look_put_ne d t e.1 e.2 (Ne.symm hk.1)]

/-- A run of writes keeps the canonical form. -/
theorem Tab.wf_foldl_put {α : Type} [DecidableEq α] (d : Nat → α) (l : List (Nat × α)) :
    ∀ t : Tab α, Tab.wf d t = true →
      Tab.wf d (l.foldl (fun u e => Tab.put d u e.1 e.2) t) = true := by
  induction l with
  | nil => intro t ht; exact ht
  | cons e l ih => intro t ht; exact ih _ (Tab.wf_put d e.1 e.2 ht)

/-! ### The registers after a cold reset -/

/-- The fuses load their own words alone: every other register has its value of the index. -/
theorem look_regCold_of_not_fuse (f : Fuses) {o : Nat} (h : o ∉ (fuseWords f).map (·.1)) :
    Tab.look regReset (regCold f) o = regReset o :=
  Tab.look_foldl_put_of_not_mem regReset (fuseWords f) [] h

theorem wf_regCold (f : Fuses) : Tab.wf regReset (regCold f) = true :=
  Tab.wf_foldl_put regReset (fuseWords f) [] (Tab.wf_nil regReset)

/-- Both functions' BAR4 have the same reset values. -/
theorem bar4Reset_of_func (fn : Func) (o : Nat) : bar4Reset (fn.val * 65536 + o) = bar4Reset o := by
  have h65536 : (fn.val * 65536 + o) % 65536 = o % 65536 := by omega
  have h16 : (fn.val * 65536 + o) % 16 = o % 16 := by omega
  simp only [bar4Reset, h65536, h16]

theorem State.reset_rd_of_not_fuse {o : Nat} (h : o ∉ (fuseWords Config.fuses).map (·.1)) :
    State.reset.rd o = regReset o := look_regCold_of_not_fuse Config.fuses h

theorem State.reset_rd4 (fn : Func) (o : Nat) : State.reset.rd4 fn o = bar4Reset o :=
  bar4Reset_of_func fn o

/-- Bellwether is IDLE: no fuse loads BWT_STATUS, and the index gives it 0. -/
theorem State.reset_bwtState : State.reset.getF fBwtStatusState = 0 := by
  have hrd : State.reset.rd rBwtStatus = regReset rBwtStatus :=
    State.reset_rd_of_not_fuse (by decide)
  rw [State.getF, show fBwtStatusState.off = rBwtStatus from rfl, hrd]
  decide

theorem canonical_reset : Canonical State.reset :=
  ⟨wf_regCold Config.fuses, Tab.wf_nil bar4Reset, rfl, Tab.wf_nil _⟩

/-- Settles O3: the register index's values outside the fuse words are what the fuses' run of writes
leaves as it was; the rest are the fields of `State.reset`. -/
theorem coldResetLeavesIndexValues : Obligations.ColdResetLeavesIndexValues := by
  refine ⟨fun _ => State.reset_rd_of_not_fuse, State.reset_rd4, rfl, rfl, fun _ => ?_, rfl, rfl, rfl,
    fun _ => rfl, State.reset_bwtState, canonical_reset⟩
  exact ⟨rfl, rfl, rfl, rfl⟩

end Sys2Proof.Machine
end

/-! ## Register accesses (O59) -/

section

namespace Sys2Proof.Machine

open Sys2Proof Sys2Proof.Claims

/-! ### Latches -/

theorem latchOf_latchDrop (l : List Latch) (r : Requester) (off : Nat) :
    latchOf (latchDrop l r off) r off = none := by
  have hnone : (latchDrop l r off).find? (fun x => x.who == r && x.off == off) = none := by
    rw [List.find?_eq_none]
    intro x hx
    have hkept := (List.mem_filter.1 hx).2
    rw [Bool.not_eq_true'] at hkept
    rw [hkept]
    exact Bool.false_ne_true
  rw [latchOf, hnone]
  rfl

theorem latchOf_latchPut (l : List Latch) (r : Requester) (off : Nat) (v : W32) :
    latchOf (latchPut l r off v) r off = some v := by
  have hnone : (latchDrop l r off).find? (fun x => x.who == r && x.off == off) = none := by
    simpa [latchOf] using latchOf_latchDrop l r off
  simp [latchOf, latchPut, List.find?_append, hnone]

/-! ### What a stored write leaves in the registers (R13, R14) -/

theorem getLsbD_regStored (off : Nat) (old v : W32) {i : Nat} (hi : i < 32) :
    (regStored off old v).getLsbD i
      = ((if (regRw off).getLsbD i then v.getLsbD i else old.getLsbD i)
          && !((regW1c off).getLsbD i && v.getLsbD i)) := by
  cases hrw : (regRw off).getLsbD i <;>
    simp only [regStored, BitVec.getLsbD_and, BitVec.getLsbD_or, BitVec.getLsbD_not, hi, hrw] <;>
    simp [Bool.and_comm]

theorem State.rd_store_same (s : State) (o : Nat) (v : W32) :
    (s.store o v).rd o = regStored o (s.rd o) v := State.rd_wr_same s o _

theorem State.rd_store_ne (s : State) (o : Nat) (v : W32) {p : Nat} (h : o ≠ p) :
    (s.store o v).rd p = s.rd p := State.rd_wr_ne s o _ h

theorem onlyRegs_store (s : State) (o : Nat) (v : W32) : OnlyRegs [o] s (s.store o v) :=
  ⟨fun _ hq => State.rd_store_ne s o v fun h => hq (List.mem_singleton.2 h.symm), rfl⟩

/-- Two writes of registers in a row change those two alone. -/
theorem onlyRegs_wr_wr (s : State) (o p : Nat) (v w : W32) : OnlyRegs [o, p] s ((s.wr o v).wr p w) := by
  refine ⟨fun q hq => ?_, rfl⟩
  simp only [List.mem_cons, List.not_mem_nil, or_false, not_or] at hq
  rw [State.rd_wr_ne _ _ _ (Ne.symm hq.2), State.rd_wr_ne _ _ _ (Ne.symm hq.1)]

/-- The two halves of a pair, put together again. -/
theorem append_halves (v : W64) :
    ((v >>> 32).setWidth 32 ++ v.setWidth 32 : BitVec (32 + 32)) = v := by
  refine BitVec.eq_of_getLsbD_eq fun i hi => ?_
  rw [BitVec.getLsbD_append]
  by_cases h : i < 32
  · simp [h]
  · simp [h, show i - 32 < 32 by omega, show 32 + (i - 32) = i by omega]

theorem State.rd64_wr64_same (s : State) (o : Nat) (v : W64) : (s.wr64 o v).rd64 o = v := by
  rw [State.rd64, State.wr64, State.rd_wr_same, State.rd_wr_ne _ _ _ (by omega : o + 4 ≠ o),
    State.rd_wr_same]
  exact append_halves v

/-! ### What refused accesses and logging leave alone -/

theorem LogFrame.heldLo {s t : State} (h : LogFrame s t) : t.heldLo = s.heldLo := by rw [h]

theorem LogFrame.sameStores {s t : State} (h : LogFrame s t) : SameStores s t := by
  rw [h]; exact ⟨rfl, rfl, rfl, rfl, rfl, rfl, rfl⟩

theorem State.logCsr_heldLo (s : State) (d off v : Nat) : (s.logCsr d off v).heldLo = s.heldLo :=
  (LogFrame.log s _).heldLo

@[simp] theorem State.storeIf_ok (s : State) (a : Nat) (v : W32) (k : State → State) :
    s.storeIf a v .ok k = k s := rfl

@[simp] theorem State.storeIf_drop (s : State) (a : Nat) (v : W32) (d : Nat) (k : State → State) :
    s.storeIf a v (.drop d) k = s.logCsr d a v.toNat := rfl

/-! ### Which rule a write of BAR0 follows -/

theorem accessOk_bar0 (off size : Nat) :
    accessOk .bar0 off size = true ↔ size = 4 ∧ off % 4 = 0 := by simp [accessOk]

/-- Jusia and PF0 reach BAR0 (R675). -/
theorem State.bar0_of_reach {r : Requester} (hr : r = .jusia ∨ r = .pf0) (s : State) (k : State → State) :
    s.bar0 r k = k s := by rcases hr with rfl | rfl <;> rfl

theorem exec_registerWrite_bar0 (r : Requester) (off : BitVec 26) (size : BitVec 13) (v : BitVec 64)
    (s : State) :
    exec (.registerWrite r .bar0 off size v) s = .next (s.bar0 r fun t =>
      if accessOk .bar0 off.toNat size.toNat then t.bar0Write r off.toNat (v.setWidth 32)
      else t.logCsr 3 off.toNat (v.toNat % 2 ^ 32)) := rfl

theorem exec_registerWrite_bar0_word {r : Requester} (hr : r = .jusia ∨ r = .pf0) {off : BitVec 26}
    (ho : off.toNat % 4 = 0) (v : BitVec 64) (s : State) :
    exec (.registerWrite r .bar0 off 4 v) s = .next (s.bar0Write r off.toNat (v.setWidth 32)) := by
  have hacc : accessOk .bar0 off.toNat (4 : BitVec 13).toNat = true := (accessOk_bar0 _ _).2 ⟨rfl, ho⟩
  rw [exec_registerWrite_bar0, State.bar0_of_reach hr, if_pos hacc]

/-- A size and an alignment that BAR0 does not take. -/
theorem accessOk_bar0_misfit {off : Nat} {size : BitVec 13} (h : size ≠ 4 ∨ off % 4 ≠ 0) :
    ¬ accessOk .bar0 off size.toNat = true := by
  rw [accessOk_bar0, not_and_or]
  exact h.imp_left fun hs he => hs (BitVec.eq_of_toNat_eq he)

/-- A write of another size or alignment is refused (R676, R718). -/
theorem exec_registerWrite_bar0_misfit {r : Requester} (hr : r = .jusia ∨ r = .pf0) {off : BitVec 26}
    {size : BitVec 13} (h : size ≠ 4 ∨ off.toNat % 4 ≠ 0) (v : BitVec 64) (s : State) :
    exec (.registerWrite r .bar0 off size v) s
      = .next (s.logCsr 3 off.toNat (v.toNat % 2 ^ 32)) := by
  rw [exec_registerWrite_bar0, State.bar0_of_reach hr, if_neg (accessOk_bar0_misfit h)]

/-- Only the halves of XLT_TBASEB go by Jusia's own rule, and they are a pair. -/
theorem not_tbaseB_of_not_pair {off : Nat} (hlo : pairLo off = false) (hhi : pairHi off = false)
    (r : Requester) : ¬ (r = .jusia ∧ (off = rXltTbasebLo ∨ off = rXltTbasebHi)) := by
  rintro ⟨-, rfl | rfl⟩
  · exact absurd hlo (by decide)
  · exact absurd hhi (by decide)

/-- A write of no pair is a write of one register. -/
theorem State.bar0Write_single {off : Nat} (hlo : pairLo off = false) (hhi : pairHi off = false)
    (s : State) (r : Requester) (v : W32) : s.bar0Write r off v = s.wordWrite r off v := by
  rw [State.bar0Write, if_neg (not_tbaseB_of_not_pair hlo hhi r)]
  simp [hlo, hhi]

/-- A write of a register that only stores is checked, and stores (R14, R15). -/
theorem State.wordWrite_storing {off : Nat} {s : State} {v : W32} (hpwr : off / 0x100000 ≠ 1)
    (hcore : inCore off = false) (hchan : chanAt off = none) (hact : s.action off v = none)
    (r : Requester) :
    s.wordWrite r off v = s.storeIf off v (s.wrCheck off (v &&& regRw off)) fun t => t.store off v := by
  simp [State.wordWrite, hpwr, hcore, hchan, hact]

/-! ### Registers that act -/

/-- The addresses of the registers whose writes act. -/
def actionRegs : List Nat :=
  [rImgCtl, rXltCtl, rXltInv, rDmaCtl, rMemCtl, rMemHrtail, rFabTctl, rFabPchip, rHrdCtl, rMulCtl, rBwtCtl,
    rBwtResolve, rSavCtl, rSavHneed, rSavHcfg, rErrCtl, rErrSdreq, rMgtRstctl, rMgtI2cctl]
  ++ (List.range 19).map rFabPctl ++ (List.range 4).map rSavDrvCtl

/-- A register outside that list only stores. -/
theorem State.action_eq_none {off : Nat} (h : off ∉ actionRegs) (s : State) (v : W32) :
    s.action off v = none := by
  simp only [actionRegs, List.mem_append, List.mem_cons, List.not_mem_nil, or_false, not_or] at h
  obtain ⟨⟨hsingle, hport⟩, hdrive⟩ := h
  have hp : ((List.range 19).find? fun p => off == rFabPctl p) = none := by
    rw [List.find?_eq_none]
    exact fun p hp he => hport (List.mem_map.2 ⟨p, hp, (beq_iff_eq.1 he).symm⟩)
  have hd : ((List.range 4).find? fun n => off == rSavDrvCtl n) = none := by
    rw [List.find?_eq_none]
    exact fun n hn he => hdrive (List.mem_map.2 ⟨n, hn, (beq_iff_eq.1 he).symm⟩)
  simp [State.action, hsingle, hp, hd]

/-! ### Reserved encodings (R15) -/

/-- A field that lies in a mask is read whole through it. -/
theorem Fld.get_and_of_covered (f : Fld) (w m : W32)
    (h : ∀ i < f.width, m.getLsbD (f.lo + i) = true) : f.get (w &&& m) = f.get w := by
  refine Nat.eq_of_testBit_eq fun i => ?_
  simp only [Fld.get, Nat.testBit_mod_two_pow, Nat.testBit_div_two_pow, BitVec.testBit_toNat,
    BitVec.getLsbD_and]
  by_cases hi : i < f.width
  · simp [Nat.add_comm i, h i hi]
  · simp [hi]

/-- The registers that have a reserved encoding of their own. -/
def reservedRegs : List Nat :=
  [rBwtCfg, rBwtConsoff, rBwtCplen, rBwtPgrp, rXltTimeout, rSavRinglen, rSavRstr, rSavHcfg, rMgtI2ccfg,
    rErrSdcfg, rMemSavedl]

theorem mem_reservedRegs {off : Nat} {v : W32} (h : Reserved off v) : off ∈ reservedRegs := by
  unfold Reserved at h
  simp only [reservedRegs, List.mem_cons, List.not_mem_nil, or_false]
  tauto

/-- None of them is a pair, a register of PWR, of a core or of a channel. -/
theorem reservedRegs_single : ∀ off ∈ reservedRegs, pairLo off = false ∧ pairHi off = false ∧ off % 4 = 0
    ∧ off / 0x100000 ≠ 1 ∧ inCore off = false ∧ chanAt off = none := by decide

/-- SAV_HCFG apart, none of them acts. -/
theorem reservedRegs_not_action : ∀ off ∈ reservedRegs, off ≠ rSavHcfg → off ∉ actionRegs := by decide

/-- The fields that have reserved encodings lie in the RW bits of their registers, so the check of a write's
RW bits finds each reserved encoding. -/
theorem State.wrCheck_of_reserved (s : State) {off : Nat} {v : W32} (h : Reserved off v) :
    s.wrCheck off (v &&& regRw off) = .drop 1 := by
  have hget (f : Fld) (o : Nat) (hcov : ∀ i < f.width, (regRw o).getLsbD (f.lo + i) = true) :
      f.get (v &&& regRw o) = f.get v := Fld.get_and_of_covered f v (regRw o) hcov
  have hbad {b : Bool} (hb : b = true) : rsvIf b = .drop 1 := if_pos hb
  unfold Reserved at h
  rcases h with ⟨rfl, h⟩ | ⟨rfl, h⟩ | ⟨rfl, h⟩ | ⟨rfl, h⟩ | ⟨rfl, h⟩ | ⟨rfl, h⟩ | ⟨rfl, h⟩ | ⟨rfl, h⟩
    | ⟨rfl, h⟩ | ⟨rfl, h⟩ | ⟨rfl, h⟩
  · exact hbad (by simpa [hget fBwtCfgDigmax rBwtCfg (by decide)] using h)
  · exact hbad (by simpa [hget fBwtConsoffSlots rBwtConsoff (by decide)] using h)
  · exact hbad (by simpa [hget fBwtCplenEntries rBwtCplen (by decide)] using h)
  · exact hbad (by simpa [hget fBwtPgrpMember rBwtPgrp (by decide)] using h)
  · exact hbad (by simpa [hget fXltTimeoutSlots rXltTimeout (by decide)] using h)
  · exact hbad (by simpa [hget fSavRinglenPlaces rSavRinglen (by decide)] using h)
  · exact hbad (by simpa [hget fSavRstrArea rSavRstr (by decide)] using h)
  · exact hbad (by simpa [hget fSavHcfgTol rSavHcfg (by decide)] using h)
  · exact hbad (by simpa [hget fMgtI2ccfgSpeed rMgtI2ccfg (by decide)] using h)
  · exact hbad (by
      simpa [hget fErrSdcfgRecur rErrSdcfg (by decide), hget fErrSdcfgRwin rErrSdcfg (by decide),
        hget fErrSdcfgDefer rErrSdcfg (by decide), hget fErrSdcfgCthr rErrSdcfg (by decide), or_assoc] using h)
  · exact hbad (by
      simpa [hget fMemSavedlHightk rMemSavedl (by decide),
        hget fMemSavedlUrgtk rMemSavedl (by decide)] using h)

/-- A write of SAV_HCFG is checked like one of a register that only stores, and then reconciles. -/
theorem State.wordWrite_savHcfg (s : State) (r : Requester) (v : W32) :
    s.wordWrite r rSavHcfg v
      = s.storeIf rSavHcfg v (s.wrCheck rSavHcfg (v &&& regRw rSavHcfg))
          fun t => (t.store rSavHcfg v).reconcile := rfl

/-- A write that places a reserved encoding is dropped whole, with its record. -/
theorem State.bar0Write_reserved {off : Nat} {v : W32} (h : Reserved off v) (s : State) (r : Requester) :
    s.bar0Write r off v = s.logCsr 1 off v.toNat := by
  have hmem := mem_reservedRegs h
  have hdrop := s.wrCheck_of_reserved h
  obtain ⟨hlo, hhi, -, hpwr, hcore, hchan⟩ := reservedRegs_single off hmem
  rw [State.bar0Write_single hlo hhi]
  by_cases hcfg : off = rSavHcfg
  · subst hcfg
    rw [State.wordWrite_savHcfg, hdrop, State.storeIf_drop]
  · have hact := State.action_eq_none (reservedRegs_not_action off hmem hcfg) s v
    rw [State.wordWrite_storing hpwr hcore hchan hact, hdrop, State.storeIf_drop]

/-! ### Pairs (R742) -/

theorem four_le_of_pairHi {off : Nat} (h : pairHi off = true) : 4 ≤ off :=
  of_decide_eq_true (Bool.and_eq_true_iff.1 h).1

/-- The _LO half of an RW pair is held for its requester. -/
theorem State.bar0Write_lo {off : Nat} (hlo : pairLo off = true) (hrw : regRw off ≠ 0) (s : State)
    (r : Requester) (v : W32) :
    s.bar0Write r off v = { s with heldLo := latchPut s.heldLo r off v } := by
  have hcase : ¬ (r = .jusia ∧ (off = rXltTbasebLo ∨ off = rXltTbasebHi)) := by
    rintro ⟨-, rfl | rfl⟩
    · exact absurd hrw (by decide)
    · exact absurd hlo (by decide)
  rw [State.bar0Write, if_neg hcase, if_pos hlo, if_neg hrw]

/-- The _HI half of an RW pair releases the _LO half held, and both halves go to the pair's check. -/
theorem State.bar0Write_hi {p : Nat} {r : Requester} {s : State} {lo : W32} (hhi : pairHi (p + 4) = true)
    (hlo : pairLo (p + 4) = false) (hrw : regRw p ≠ 0) (hchan : chanAt (p + 4) = none)
    (hheld : latchOf s.heldLo r p = some lo) (v : W32) :
    s.bar0Write r (p + 4) v
      = ({ s with heldLo := latchDrop s.heldLo r p } : State).pairStore p (p + 4) lo v := by
  have hcase : ¬ (r = .jusia ∧ (p + 4 = rXltTbasebLo ∨ p + 4 = rXltTbasebHi)) := by
    rintro ⟨-, h | h⟩
    · rw [h] at hlo; exact absurd hlo (by decide)
    · obtain rfl : p = rXltTbasebLo := Nat.add_right_cancel h
      exact absurd hrw (by decide)
  rw [State.bar0Write, if_neg hcase, if_neg (Bool.eq_false_iff.1 hlo), if_pos hhi, Nat.add_sub_cancel,
    if_neg hrw]
  simp only [State.takeLo, hheld, hchan, Option.getD_some]

/-- The check of a pair does not see what is held. -/
theorem State.pairCheck_heldLo (s : State) (l : List Latch) (off : Nat) (v : W64) :
    ({ s with heldLo := l } : State).pairCheck off v = s.pairCheck off v := rfl

theorem State.pairStore_of_ok {s : State} {off : Nat} {lo hi : W32}
    (h : s.pairCheck off ((hi &&& regRw (off + 4)) ++ (lo &&& regRw off)) = .ok) (a : Nat) :
    s.pairStore off a lo hi = (s.store off lo).store (off + 4) hi := by
  rw [State.pairStore, h, State.storeIf_ok]

theorem State.pairStore_of_drop {s : State} {off d : Nat} {lo hi : W32}
    (h : s.pairCheck off ((hi &&& regRw (off + 4)) ++ (lo &&& regRw off)) = .drop d) (a : Nat) :
    s.pairStore off a lo hi = s.logCsr d a hi.toNat := by
  rw [State.pairStore, h, State.storeIf_drop]

/-- Whatever the check finds, a pair's write leaves the halves held as they are. -/
theorem State.pairStore_heldLo (s : State) (off a : Nat) (lo hi : W32) :
    (s.pairStore off a lo hi).heldLo = s.heldLo := by
  cases h : s.pairCheck off ((hi &&& regRw (off + 4)) ++ (lo &&& regRw off)) with
  | ok => rw [State.pairStore_of_ok h]; rfl
  | drop d => rw [State.pairStore_of_drop h, State.logCsr_heldLo]

/-! ### XLT_TBASEB (R442) -/

/-- No rule but Jusia's writes XLT_TBASEB. -/
theorem State.bar0Write_tbaseB_pf0 {off : Nat} (h : off = rXltTbasebLo ∨ off = rXltTbasebHi) (s : State)
    (v : W32) : s.bar0Write .pf0 off v = s := by rcases h with rfl | rfl <;> rfl

theorem State.bar0Write_tbaseBLo_jusia (s : State) (v : W32) :
    s.bar0Write .jusia rXltTbasebLo v
      = { s with heldLo := latchPut s.heldLo .jusia rXltTbasebLo v } := rfl

/-- A base of 48 bits is aligned to 2 MiB when its low half is. -/
theorem toNat_append_mod_two_mib (hi lo : W32) :
    (hi ++ lo : BitVec (32 + 32)).toNat % 0x200000 = lo.toNat % 0x200000 := by
  rw [BitVec.toNat_append, ← Nat.shiftLeft_add_eq_or_of_lt lo.isLt, Nat.shiftLeft_eq]
  omega

theorem State.pairCheck_tbaseB (s : State) (hi lo : W32) :
    s.pairCheck rXltTbasebLo (hi ++ lo) = if lo.toNat % 0x200000 = 0 then .ok else .drop 1 := by
  have hrsv : s.pairCheck rXltTbasebLo (hi ++ lo)
      = rsvIf ((hi ++ lo : BitVec (32 + 32)).toNat % 0x200000 != 0) := rfl
  rw [hrsv, toNat_append_mod_two_mib]
  by_cases h : lo.toNat % 0x200000 = 0 <;> simp [rsvIf, h]

/-- Jusia's _HI half takes effect with the _LO half held, in the low 48 bits. -/
theorem State.bar0Write_tbaseBHi_jusia {s : State} {lo : W32}
    (hheld : latchOf s.heldLo .jusia rXltTbasebLo = some lo) (v : W32) :
    s.bar0Write .jusia rXltTbasebHi v
      = ({ s with heldLo := latchDrop s.heldLo .jusia rXltTbasebLo } : State).storeIf rXltTbasebHi v
          (if lo.toNat % 0x200000 = 0 then .ok else .drop 1)
          fun t => t.wr64 rXltTbasebLo ((v &&& 0xFFFF#32) ++ lo) := by
  have hset : s.bar0Write .jusia rXltTbasebHi v = s.setTbaseB rXltTbasebHi v := rfl
  have hne : rXltTbasebHi ≠ rXltTbasebLo := by decide
  rw [hset, State.setTbaseB, if_neg hne]
  simp only [State.takeLo, hheld, Option.getD_some, State.pairCheck_tbaseB]

/-! ### Reads of BAR0 (R742) -/

theorem exec_loReadLatch_bar0_word {r : Requester} (hr : r = .jusia ∨ r = .pf0) {off : BitVec 26}
    (ho : off.toNat % 4 = 0) (s : State) :
    exec (.loReadLatch r .bar0 off 4) s
      = .next ((s.bar0Read r off.toNat).2.emit
          (.readData r .bar0 off.toNat ((s.bar0Read r off.toNat).1.setWidth 64))) := by
  have hacc : accessOk .bar0 off.toNat 4 = true := (accessOk_bar0 _ _).2 ⟨rfl, ho⟩
  have hexec : exec (.loReadLatch r .bar0 off 4) s
      = .next (s.regRead r .bar0 off.toNat 4) := rfl
  rw [hexec]
  rcases hr with rfl | rfl <;> simp [State.regRead, hacc]

/-- A read of another size or alignment ends in a Completer Abort, and its record keeps the stores
(R676, R718). -/
theorem exec_loReadLatch_bar0_misfit {r : Requester} (hr : r = .jusia ∨ r = .pf0) {off : BitVec 26}
    {size : BitVec 13} (h : size ≠ 4 ∨ off.toNat % 4 ≠ 0) (s : State) :
    exec (.loReadLatch r .bar0 off size) s
      = .next ((s.takeFree.2.logCsr 3 off.toNat (s.takeFree.1.toNat % 2 ^ 32)).emit
          (.readAbort r .bar0 off.toNat)) := by
  have hacc := accessOk_bar0_misfit h
  have hexec : exec (.loReadLatch r .bar0 off size) s
      = .next (s.regRead r .bar0 off.toNat size.toNat) := rfl
  rw [hexec]
  rcases hr with rfl | rfl <;> simp [State.regRead, hacc]

/-- A _LO half read latches its _HI half. -/
theorem State.bar0Read_lo {off : Nat} (hpin : off ≠ rMgtGpiodata) (hlo : pairLo off = true) (s : State)
    (r : Requester) :
    s.bar0Read r off = (s.regVal off 0,
      { s with latches := latchPut s.latches r (off + 4) (s.regVal (off + 4) 0) }) := by
  simp [State.bar0Read, hpin, hlo]

/-- A word that its requester has latched reads as the latch, which is released. -/
theorem State.bar0Read_latched {off : Nat} (hpin : off ≠ rMgtGpiodata) (hlo : pairLo off = false)
    {s : State} {r : Requester} {h : W32} (hl : latchOf s.latches r off = some h) :
    s.bar0Read r off = (h, { s with latches := latchDrop s.latches r off }) := by
  simp [State.bar0Read, hpin, hlo, hl]

theorem State.bar0Read_plain {off : Nat} (hpin : off ≠ rMgtGpiodata) (hlo : pairLo off = false)
    {s : State} {r : Requester} (hl : latchOf s.latches r off = none) :
    s.bar0Read r off = (s.regVal off 0, s) := by
  simp [State.bar0Read, hpin, hlo, hl]

/-! ### MSI-X vectors and completion rings (R681, R683) -/

theorem State.rd4_wr4_same (s : State) (fn : Func) (o : Nat) (v : W32) : (s.wr4 fn o v).rd4 fn o = v := by
  rw [State.rd4_wr4, if_pos rfl]

theorem State.rd4_wr4_ne (s : State) (fn : Func) {o p : Nat} (v : W32) (h : o ≠ p) :
    (s.wr4 fn o v).rd4 fn p = s.rd4 fn p := by
  rw [State.rd4_wr4, if_neg fun e => h (Nat.add_left_cancel e)]

/-- `t` differs from `s` in nothing but words of BAR4. -/
def OnlyBar4 (s t : State) : Prop := t = { s with bar4 := t.bar4 }

theorem OnlyBar4.wr4 (s : State) (fn : Func) (o : Nat) (v : W32) : OnlyBar4 s (s.wr4 fn o v) := rfl

theorem OnlyBar4.trans {s t u : State} (h : OnlyBar4 s t) (k : OnlyBar4 t u) : OnlyBar4 s u := by
  unfold OnlyBar4 at *; rw [k, h]

theorem OnlyBar4.out {s t : State} (h : OnlyBar4 s t) : t.out = s.out := by rw [h]

/-- With a message sent besides, the messages differ too. -/
theorem OnlyBar4.emit {s t : State} (h : OnlyBar4 s t) (m : Out) :
    t.emit m = { s with bar4 := (t.emit m).bar4, out := (t.emit m).out } := by rw [h]; rfl

/-- Clearing one bit of the pending word. -/
theorem getLsbD_and_not_bit (x : W32) {n k : Nat} (hk : k < 32) :
    (x &&& ~~~(BitVec.ofNat 32 (2 ^ n))).getLsbD k = (x.getLsbD k && decide (k ≠ n)) := by
  simp only [BitVec.getLsbD_and, BitVec.getLsbD_not, BitVec.getLsbD_ofNat, Nat.testBit_two_pow, hk]
  simp [eq_comm]

theorem exec_msixUnmask (fn : Func) (vec : Fin 32) (s : State) :
    exec (.msixUnmask fn vec) s = .next (s.vecCtl fn vec.val 0) := rfl

theorem exec_cringEnable (fn : Func) (v : BitVec 32) (s : State) :
    exec (.cringEnable fn v) s = .next (s.cringCtl fn (v ||| 1)) := rfl

/-- Unmasking a vector whose pending bit is set clears the bit and sends the message. -/
theorem State.vecCtl_unmask_pending {s : State} {fn : Func} {n : Nat}
    (h : (s.rd4 fn 0x800).getLsbD n = true) :
    s.vecCtl fn n 0 = ((s.wr4 fn (16 * n + 12) 0).wr4 fn 0x800
      (s.rd4 fn 0x800 &&& ~~~(BitVec.ofNat 32 (2 ^ n)))).emit (.msix fn n) := by
  simp [State.vecCtl, h]

theorem State.vecCtl_unmask_idle {s : State} {fn : Func} {n : Nat}
    (h : (s.rd4 fn 0x800).getLsbD n = false) : s.vecCtl fn n 0 = s.wr4 fn (16 * n + 12) 0 := by
  simp [State.vecCtl, h]

theorem getLsbD_or_one (v : W32) : (v ||| 1).getLsbD 0 = true := by simp

/-- Enabling a ring that is off sets HEAD and TAIL to 0. -/
theorem State.cringCtl_enable {s : State} {fn : Func} (h : (s.rd4 fn rCringCtl).getLsbD 0 = false)
    (v : W32) : s.cringCtl fn (v ||| 1)
      = ((s.wr4 fn rCringCtl ((v ||| 1) &&& 1)).wr4 fn rCringHead 0).wr4 fn rCringTail 0 :=
  if_pos ⟨getLsbD_or_one v, Bool.eq_false_iff.1 h⟩

theorem State.cringCtl_enabled {s : State} {fn : Func} (h : (s.rd4 fn rCringCtl).getLsbD 0 = true)
    (v : W32) : s.cringCtl fn (v ||| 1) = s.wr4 fn rCringCtl ((v ||| 1) &&& 1) :=
  if_neg fun hoff => hoff.2 h

/-! ### The clauses -/

/-- A write that a register's check lets pass stores its RW and W1C bits, and changes no other register. -/
theorem State.bar0Write_storing_ok {s : State} {o : Nat} {w : W32} (hlo : pairLo o = false)
    (hhi : pairHi o = false) (hpwr : o / 0x100000 ≠ 1) (hcore : inCore o = false)
    (hchan : chanAt o = none) (hact : s.action o w = none) (hok : s.wrCheck o (w &&& regRw o) = .ok)
    (r : Requester) : s.bar0Write r o w = s.store o w := by
  rw [State.bar0Write_single hlo hhi, State.wordWrite_storing hpwr hcore hchan hact, hok, State.storeIf_ok]

theorem State.bar0Write_storing_drop {s : State} {o d : Nat} {w : W32} (hlo : pairLo o = false)
    (hhi : pairHi o = false) (hpwr : o / 0x100000 ≠ 1) (hcore : inCore o = false)
    (hchan : chanAt o = none) (hact : s.action o w = none)
    (hdrop : s.wrCheck o (w &&& regRw o) = .drop d) (r : Requester) :
    s.bar0Write r o w = s.logCsr d o w.toNat := by
  rw [State.bar0Write_single hlo hhi, State.wordWrite_storing hpwr hcore hchan hact, hdrop,
    State.storeIf_drop]

theorem State.getLsbD_rd_store (s : State) (o : Nat) (w : W32) {i : Nat} (hi : i < 32) :
    ((s.store o w).rd o).getLsbD i
      = ((if (regRw o).getLsbD i then w.getLsbD i else (s.rd o).getLsbD i)
          && !((regW1c o).getLsbD i && w.getLsbD i)) := by
  rw [State.rd_store_same, getLsbD_regStored o _ _ hi]

/-- What a pair's write leaves when its check lets it pass: both halves stored. -/
theorem State.pairStore_rules {s : State} {p : Nat} {lo w : W32} (a : Nat)
    (hok : s.pairCheck p ((w &&& regRw (p + 4)) ++ (lo &&& regRw p)) = .ok) :
    OnlyRegs [p, p + 4] s (s.pairStore p a lo w)
      ∧ (s.pairStore p a lo w).rd p = regStored p (s.rd p) lo
      ∧ (s.pairStore p a lo w).rd (p + 4) = regStored (p + 4) (s.rd (p + 4)) w := by
  rw [State.pairStore_of_ok hok]
  refine ⟨onlyRegs_wr_wr s p (p + 4) _ _, ?_, ?_⟩
  · rw [State.rd_store_ne _ _ _ (by omega : p + 4 ≠ p), State.rd_store_same]
  · rw [State.rd_store_same, State.rd_store_ne _ _ _ (by omega : p ≠ p + 4)]

/-- A frame of registers does not depend on the halves held. -/
theorem onlyRegs_put_heldLo {l : List Nat} {s t : State} {h : List Latch}
    (ht : OnlyRegs l { s with heldLo := h } t) : OnlyRegs l s { t with heldLo := s.heldLo } := by
  obtain ⟨hrd, heq⟩ := ht
  refine ⟨hrd, ?_⟩
  rw [heq]

/-- The write of a _HI half, with the _LO half of its requester held: the hold is released, and the check of
the pair decides whether both halves are stored or the write is dropped with its record. -/
theorem State.bar0Write_hi_rules {p : Nat} {r : Requester} {s : State} {lo : W32}
    (hhi : pairHi (p + 4) = true) (hlo : pairLo (p + 4) = false) (hrw : regRw p ≠ 0)
    (hchan : chanAt (p + 4) = none) (hheld : latchOf s.heldLo r p = some lo) (w : W32) :
    let x := (w &&& regRw (p + 4)) ++ (lo &&& regRw p)
    let t := s.bar0Write r (p + 4) w
    latchOf t.heldLo r p = none
      ∧ (s.pairCheck p x = .ok → OnlyRegs [p, p + 4] s { t with heldLo := s.heldLo }
        ∧ t.rd p = regStored p (s.rd p) lo ∧ t.rd (p + 4) = regStored (p + 4) (s.rd (p + 4)) w)
      ∧ ∀ d, s.pairCheck p x = .drop d →
        t = ({ s with heldLo := t.heldLo } : State).logCsr d (p + 4) w.toNat := by
  intro x t
  have ht : t = ({ s with heldLo := latchDrop s.heldLo r p } : State).pairStore p (p + 4) lo w :=
    State.bar0Write_hi hhi hlo hrw hchan hheld w
  have hkept : t.heldLo = latchDrop s.heldLo r p := by rw [ht, State.pairStore_heldLo]
  refine ⟨?_, fun hok => ?_, fun d hdrop => ?_⟩
  · rw [hkept, latchOf_latchDrop]
  · rw [← State.pairCheck_heldLo s (latchDrop s.heldLo r p)] at hok
    obtain ⟨honly, hrdlo, hrdhi⟩ := State.pairStore_rules (p + 4) hok
    rw [← ht] at honly hrdlo hrdhi
    exact ⟨onlyRegs_put_heldLo honly, hrdlo, hrdhi⟩
  · rw [hkept, ht]
    exact State.pairStore_of_drop (by rwa [State.pairCheck_heldLo]) (p + 4)

/-- Jusia's write of XLT_TBASEB_HI stores the 48 bits where they are a multiple of 2 MiB. -/
theorem State.bar0Write_tbaseBHi_aligned {s : State} {lo : W32}
    (hheld : latchOf s.heldLo .jusia rXltTbasebLo = some lo) (hal : lo.toNat % 0x200000 = 0) (w : W32) :
    let t := s.bar0Write .jusia rXltTbasebHi w
    t.rd64 rXltTbasebLo = (w &&& 0xFFFF#32) ++ lo
      ∧ OnlyRegs [rXltTbasebLo, rXltTbasebHi] s { t with heldLo := s.heldLo } := by
  intro t
  have ht : t = ({ s with heldLo := latchDrop s.heldLo .jusia rXltTbasebLo } : State).wr64 rXltTbasebLo
      ((w &&& 0xFFFF#32) ++ lo) := by
    rw [show t = s.bar0Write .jusia rXltTbasebHi w from rfl, State.bar0Write_tbaseBHi_jusia hheld,
      if_pos hal, State.storeIf_ok]
  rw [ht]
  exact ⟨State.rd64_wr64_same _ _ _, onlyRegs_put_heldLo (onlyRegs_wr_wr _ _ _ _ _)⟩

theorem State.bar0Write_tbaseBHi_misaligned {s : State} {lo : W32}
    (hheld : latchOf s.heldLo .jusia rXltTbasebLo = some lo) (hal : lo.toNat % 0x200000 ≠ 0) (w : W32) :
    let t := s.bar0Write .jusia rXltTbasebHi w
    t = ({ s with heldLo := t.heldLo } : State).logCsr 1 rXltTbasebHi w.toNat := by
  intro t
  have ht : t = ({ s with heldLo := latchDrop s.heldLo .jusia rXltTbasebLo } : State).logCsr 1
      rXltTbasebHi w.toNat := by
    rw [show t = s.bar0Write .jusia rXltTbasebHi w from rfl, State.bar0Write_tbaseBHi_jusia hheld,
      if_neg hal, State.storeIf_drop]
  have hkept : t.heldLo = latchDrop s.heldLo .jusia rXltTbasebLo := by rw [ht, State.logCsr_heldLo]
  rw [hkept, ht]

/-- A read that is refused leaves the stores alone: it takes a free value and logs. -/
theorem State.sameStores_takeFree_logCsr (s : State) (d off v : Nat) (m : Out) :
    SameStores s ((s.takeFree.2.logCsr d off v).emit m) :=
  ((LogFrame.log s.takeFree.2 _).trans (LogFrame.emit _ m)).sameStores

/-- Unmasking a vector sends its pending message once, and leaves the other vectors alone (R681). -/
theorem State.vecCtl_unmask_rules (s : State) (fn : Func) (vec : Fin 32) :
    let pend := (s.rd4 fn 0x800).getLsbD vec
    let t := s.vecCtl fn vec.val 0
    t.rd4 fn (16 * vec + 12) = 0
      ∧ (pend = true → t.out = s.out ++ [.msix fn vec] ∧ (t.rd4 fn 0x800).getLsbD vec = false)
      ∧ (pend = false → t.out = s.out)
      ∧ (∀ k < 32, k ≠ vec.val → (t.rd4 fn 0x800).getLsbD k = (s.rd4 fn 0x800).getLsbD k)
      ∧ t = { s with bar4 := t.bar4, out := t.out } := by
  intro pend t
  have hne : 16 * vec.val + 12 ≠ 0x800 := by omega
  cases hp : pend with
  | true =>
    have ht : t = _ := State.vecCtl_unmask_pending hp
    have honly := (OnlyBar4.wr4 s fn (16 * vec + 12) 0).trans
      (OnlyBar4.wr4 _ fn 0x800 (s.rd4 fn 0x800 &&& ~~~(BitVec.ofNat 32 (2 ^ vec.val))))
    have hword : t.rd4 fn 0x800 = s.rd4 fn 0x800 &&& ~~~(BitVec.ofNat 32 (2 ^ vec.val)) := by
      rw [ht, State.emit_rd4, State.rd4_wr4_same]
    refine ⟨?_, fun _ => ⟨?_, ?_⟩, nofun, fun k hk hkv => ?_, ?_⟩
    · rw [ht, State.emit_rd4, State.rd4_wr4_ne _ _ _ hne.symm, State.rd4_wr4_same]
    · rw [ht, State.emit, honly.out]
    · rw [hword, getLsbD_and_not_bit _ vec.isLt]; simp
    · rw [hword, getLsbD_and_not_bit _ hk]; simp [hkv]
    · rw [ht]; exact honly.emit _
  | false =>
    have ht : t = s.wr4 fn (16 * vec.val + 12) 0 := State.vecCtl_unmask_idle hp
    have honly : OnlyBar4 s t := ht ▸ OnlyBar4.wr4 s fn _ 0
    refine ⟨?_, nofun, fun _ => honly.out, fun k _ _ => ?_, ?_⟩
    · rw [ht, State.rd4_wr4_same]
    · rw [ht, State.rd4_wr4_ne _ _ _ hne]
    · rw [honly.out]; exact honly

/-- Enabling the completion ring sets HEAD and TAIL to 0 where it was off (R683). -/
theorem State.cringCtl_enable_rules (s : State) (fn : Func) (v : W32) :
    let t := s.cringCtl fn (v ||| 1)
    (t.rd4 fn 0x200C).getLsbD 0 = true
      ∧ ((s.rd4 fn 0x200C).getLsbD 0 = false → t.rd4 fn 0x2010 = 0 ∧ t.rd4 fn 0x2014 = 0)
      ∧ ((s.rd4 fn 0x200C).getLsbD 0 = true → t.rd4 fn 0x2010 = s.rd4 fn 0x2010
        ∧ t.rd4 fn 0x2014 = s.rd4 fn 0x2014)
      ∧ t = { s with bar4 := t.bar4 } := by
  intro t
  have hen : ((v ||| 1) &&& 1).getLsbD 0 = true := by simp
  cases hc : (s.rd4 fn 0x200C).getLsbD 0 with
  | false =>
    have ht : t = ((s.wr4 fn 0x200C ((v ||| 1) &&& 1)).wr4 fn 0x2010 0).wr4 fn 0x2014 0 :=
      State.cringCtl_enable hc v
    refine ⟨?_, fun _ => ⟨?_, ?_⟩, nofun, ?_⟩
    · rw [ht, State.rd4_wr4_ne _ _ _ (by decide), State.rd4_wr4_ne _ _ _ (by decide), State.rd4_wr4_same, hen]
    · rw [ht, State.rd4_wr4_ne _ _ _ (by decide), State.rd4_wr4_same]
    · rw [ht, State.rd4_wr4_same]
    · rw [ht]; exact ((OnlyBar4.wr4 s fn _ _).trans (OnlyBar4.wr4 _ fn _ _)).trans (OnlyBar4.wr4 _ fn _ _)
  | true =>
    have ht : t = s.wr4 fn 0x200C ((v ||| 1) &&& 1) := State.cringCtl_enabled hc v
    refine ⟨?_, nofun, fun _ => ⟨?_, ?_⟩, ht ▸ OnlyBar4.wr4 s fn _ _⟩
    · rw [ht, State.rd4_wr4_same, hen]
    · rw [ht, State.rd4_wr4_ne _ _ _ (by decide)]
    · rw [ht, State.rd4_wr4_ne _ _ _ (by decide)]

/-- Settles O59: writes and reads of BAR0 go by the kind of their address (single, pair, XLT_TBASEB), and
each kind by its lemma above. -/
theorem registerAccessesFollowTheirRules : Obligations.RegisterAccessesFollowTheirRules := by
  refine ⟨fun r off v s => ?_, fun r off s hr => ?_, fun fn s => ?_⟩
  · refine ⟨fun size => ⟨rfl, ?_⟩, fun hr => ⟨fun size hsize => ?_, ?_, ?_, ?_, ?_⟩, ?_, ?_, ?_⟩
    · rintro (rfl | rfl) <;> rfl
    · exact exec_registerWrite_bar0_misfit hr hsize v s
    · intro ho hlo hhi hpwr hcore hchan hact
      rw [exec_registerWrite_bar0_word hr ho]
      refine ⟨fun d hdrop => ?_, fun hok => ⟨_, rfl, ?_⟩⟩
      · rw [State.bar0Write_storing_drop hlo hhi hpwr hcore hchan hact hdrop]
      · rw [State.bar0Write_storing_ok hlo hhi hpwr hcore hchan hact hok]
        exact ⟨onlyRegs_store s _ _, fun i hi => s.getLsbD_rd_store _ _ hi⟩
    · intro hres
      obtain ⟨-, -, ho, -⟩ := reservedRegs_single _ (mem_reservedRegs hres)
      rw [exec_registerWrite_bar0_word hr ho, State.bar0Write_reserved hres]
    · intro hlo hrw ho
      rw [exec_registerWrite_bar0_word hr ho, State.bar0Write_lo hlo hrw]
    · intro hhi hlo hrw ho hchan lo hheld
      refine ⟨_, exec_registerWrite_bar0_word hr ho v s, ?_⟩
      generalize off.toNat = o at hhi hlo hrw hchan hheld ⊢
      obtain ⟨p, rfl⟩ := Nat.exists_eq_add_of_le' (four_le_of_pairHi hhi)
      rw [Nat.add_sub_cancel] at hrw hheld ⊢
      exact State.bar0Write_hi_rules hhi hlo hrw hchan hheld _
    · rintro rfl ho
      have hal : off.toNat % 4 = 0 := by rcases ho with h | h <;> rw [h] <;> rfl
      rw [exec_registerWrite_bar0_word (.inr rfl) hal, State.bar0Write_tbaseB_pf0 ho]
    · rintro rfl ho
      have hal : off.toNat % 4 = 0 := by rw [ho]; rfl
      rw [exec_registerWrite_bar0_word (.inl rfl) hal, ho, State.bar0Write_tbaseBLo_jusia]
    · rintro rfl ho lo hheld
      have hal : off.toNat % 4 = 0 := by rw [ho]; rfl
      rw [exec_registerWrite_bar0_word (.inl rfl) hal, ho]
      exact ⟨fun h => ⟨_, rfl, State.bar0Write_tbaseBHi_aligned hheld h _⟩,
        fun h => ⟨_, rfl, State.bar0Write_tbaseBHi_misaligned hheld h _⟩⟩
  · refine ⟨fun size hsize => ?_, fun ho hpin => ⟨fun hlo => ?_, fun hlo h hl => ?_, fun hlo hl => ?_⟩⟩
    · exact ⟨_, exec_loReadLatch_bar0_misfit hr hsize s, ⟨_, rfl⟩, s.sameStores_takeFree_logCsr _ _ _ _⟩
    · refine ⟨_, exec_loReadLatch_bar0_word hr ho s, ?_⟩
      rw [State.bar0Read_lo hpin hlo]
      exact ⟨rfl, latchOf_latchPut _ _ _ _, rfl⟩
    · refine ⟨_, exec_loReadLatch_bar0_word hr ho s, ?_⟩
      rw [State.bar0Read_latched hpin hlo hl]
      exact ⟨rfl, latchOf_latchDrop _ _ _, rfl⟩
    · rw [exec_loReadLatch_bar0_word hr ho, State.bar0Read_plain hpin hlo hl]
      rfl
  · exact ⟨fun vec => ⟨_, exec_msixUnmask fn vec s, s.vecCtl_unmask_rules fn vec⟩,
      fun v => ⟨_, exec_cringEnable fn v s, s.cringCtl_enable_rules fn v⟩⟩

end Sys2Proof.Machine
end

/-! ## Fabric time (O45) -/

section

namespace Sys2Proof.Machine

open Sys2Proof Sys2Proof.Claims

/-! ### A link that ends while a channel's ring lies beyond memory

The statement's states are not bound to what a walk can fill. A walk refuses a leaf at or above `memTop`
(RANGE, R402), but the data of a translation buffer may hold any page. The error counters of the stack
0x8000 that the address 2^51 names have the address of port 0's state. -/

theorem rMemEcc_beyond_eq_rFabPstat : rMemEcc 0x8000 = rFabPstat 0 := rfl

/-- An entry that maps the first 2 MiB of job slot A to the address 2^51, which no stack holds. -/
def strayEntry : XEntry := ⟨.a, false, 0, 2 ^ 30, true, true⟩

/-- Port 1 has the cell of channel 0's outstanding request to send. The channel's ring stands at virtual offset
0, so by `strayEntry` the end of its descriptor is written at 2^51 + 48, into a codeword with a single-bit
error. -/
def strayRing : State :=
  { State.reset with
    xbufs := [(xbufNat .dma, ⟨[strayEntry], [], none⟩)]
    memEcc := [((2 ^ 51 + 48) / 8, .single)]
    dma := [(0, ⟨[⟨0, 0, 0, 0, false, [], 0, true, false⟩], none, none⟩)]
    rem := ⟨[⟨0, .dma 0 0, 1, 0⟩], [], 1, []⟩
    ports := [(1, { FabPort.reset with remq := [⟨3, 0⟩] })] }

theorem strayRing_freflost : strayRing.bitF fFabTstatFreflost = false := by decide +kernel

/-- The write at 2^51 + 48 comes when port 1 goes DOWN, after port 0 did, and its corrected error is counted. -/
theorem strayRing_frefLost_counts : strayRing.frefLost.rd (rMemEcc 0x8000) = 1 := by decide +kernel

/-- The count stands where port 0's state does, which then reads LIGHT. -/
theorem strayRing_frefLost_portState : strayRing.frefLost.portState 0 = portLight := by
  have hcount : strayRing.frefLost.rd (fFabPstatState 0).off = 1 := strayRing_frefLost_counts
  rw [State.portState, State.getF, hcount]
  decide

/-- Refutes O45: FREF_LOST does not leave every port DOWN from every state. Port 1, as it goes DOWN, ends a
DMA request whose ring entry lies beyond memory, and the error counted there makes port 0 LIGHT. -/
theorem not_fabricTimeMarksFiresAndGates : ¬ Obligations.FabricTimeMarksFiresAndGates := by
  unfold Obligations.FabricTimeMarksFiresAndGates
  rintro ⟨-, htime, -, -⟩
  obtain ⟨-, hlost, -⟩ := htime strayRing
  obtain ⟨t, hexec, -, hdown, -, -⟩ := hlost strayRing_freflost
  obtain rfl : strayRing.frefLost = t := Host.Outcome.next.inj hexec
  exact absurd (hdown 0 (by decide)) (by rw [strayRing_frefLost_portState]; decide)

end Sys2Proof.Machine
end

/-! ## Array slots and drains (O24) -/

section

namespace Sys2Proof.Machine

open Sys2Proof Sys2Proof.Claims

/-! ### Tables read in a row, and tables with keys unlisted -/

section Tables

variable {α : Type}

/-- Reading a table whose entries were selected by key. -/
theorem Tab.look_filter (d : Nat → α) (t : Tab α) (p : Nat → Bool) (k : Nat) :
    Tab.look d (t.filter fun e => p e.1) k = if p k then Tab.look d t k else d k := by
  induction t with
  | nil => simp
  | cons e r ih =>
    obtain ⟨a, b⟩ := e
    rw [List.filter_cons, Tab.look_cons]
    by_cases hak : a = k
    · subst hak
      cases hp : p a <;> simp [Tab.look_cons, ih, hp]
    · cases hp : p a <;> simp [Tab.look_cons, ih, hak]

theorem Tab.look_drop (d : Nat → α) (t : Tab α) (p : Nat → Bool) (k : Nat) :
    Tab.look d (Tab.drop t p) k = if p k then d k else Tab.look d t k := by
  rw [Tab.drop, Tab.look_filter d t (fun j => !p j)]
  cases p k <;> rfl

/-- A row of entries is what its keys read as: the window is there for speed. -/
theorem Tab.lookList_eq_map (d : Nat → α) (t : Tab α) (k n : Nat) :
    Tab.lookList d t k n = (List.range n).map fun i => Tab.look d t (k + i) := by
  refine List.map_congr_left fun i hi => ?_
  rw [Tab.window, Tab.look_filter d t fun j => decide (k ≤ j) && decide (j < k + n), if_pos]
  simpa using hi

@[simp] theorem Tab.length_lookList (d : Nat → α) (t : Tab α) (k n : Nat) :
    (Tab.lookList d t k n).length = n := by simp [Tab.lookList]

theorem Tab.getElem?_lookList (d : Nat → α) (t : Tab α) (k : Nat) {i n : Nat} (h : i < n) :
    (Tab.lookList d t k n)[i]? = some (Tab.look d t (k + i)) := by
  simp [Tab.lookList_eq_map, h]

/-- A part of a row is a shorter row. -/
theorem Tab.take_drop_lookList (d : Nat → α) (t : Tab α) (k : Nat) {i m n : Nat} (h : i + m ≤ n) :
    ((Tab.lookList d t k n).drop i).take m = Tab.lookList d t (k + i) m := by
  refine List.ext_getElem? fun j => ?_
  by_cases hj : j < m
  · rw [List.getElem?_take_of_lt hj, List.getElem?_drop, Tab.getElem?_lookList d t k (by omega),
      Tab.getElem?_lookList d t (k + i) hj, Nat.add_assoc]
  · rw [List.getElem?_eq_none (by simp; omega), List.getElem?_eq_none (by simp; omega)]

end Tables

/-! ### Lists in blocks of one length, and bytes -/

/-- The place of an element in blocks of length `w`. -/
theorem getElem?_flatMap_of_length {α β : Type} {g : α → List β} {w : Nat}
    (hg : ∀ x, (g x).length = w) {k : Nat} (hk : k < w) (l : List α) :
    ∀ e, (l.flatMap g)[w * e + k]? = l[e]?.bind fun x => (g x)[k]? := by
  induction l with
  | nil => intro e; simp
  | cons x r ih =>
    intro e
    rw [List.flatMap_cons]
    cases e with
    | zero => rw [Nat.mul_zero, Nat.zero_add, List.getElem?_append_left (by rw [hg]; exact hk)]; rfl
    | succ e =>
      rw [List.getElem?_append_right (by rw [hg, Nat.mul_succ]; omega), hg,
        show w * (e + 1) + k - w = w * e + k by rw [Nat.mul_succ]; omega, ih e]
      rfl

/-- The groups of a list, each where it begins. -/
theorem getElem?_groupsOf {α : Type} (n i : Nat) : ∀ (fuel : Nat) (l : List α), i < fuel →
    n * i < l.length → (groupsOf n fuel l)[i]? = some ((l.drop (n * i)).take n) := by
  induction i with
  | zero =>
    rintro (_ | fuel) (_ | ⟨x, r⟩) hi hl
    · omega
    · omega
    · simp at hl
    · rfl
  | succ i ih =>
    rintro (_ | fuel) (_ | ⟨x, r⟩) hi hl
    · omega
    · omega
    · simp at hl
    · rw [Nat.mul_succ] at hl ⊢
      rw [groupsOf, List.getElem?_cons_succ, ih fuel _ (by omega) (by rw [List.length_drop]; omega),
        List.drop_drop, Nat.add_comm n]
      exact List.cons_ne_nil x r

@[simp] theorem length_leBytes (n v : Nat) : (leBytes n v).length = n := by
  induction n generalizing v with
  | zero => rfl
  | succ n ih => simp [leBytes, ih]

theorem getElem?_leBytes (k : Nat) : ∀ (n v : Nat), k < n →
    (leBytes n v)[k]? = some (BitVec.ofNat 8 (v / 256 ^ k)) := by
  induction k with
  | zero =>
    rintro (_ | n) v hk
    · omega
    · simp [leBytes]
  | succ k ih =>
    rintro (_ | n) v hk
    · omega
    · rw [leBytes, List.getElem?_cons_succ, ih n _ (by omega), Nat.div_div_eq_div_mul, Nat.pow_succ']

theorem leNat_lt (l : List Byte) : leNat l < 256 ^ l.length := by
  induction l with
  | nil => simp [leNat]
  | cons b r ih =>
    have hb := b.isLt
    rw [leNat, List.length_cons, Nat.pow_succ']
    omega

/-- Byte `k` of a word, as stored and as shifted out. -/
theorem ofNat_byte_eq_shift (v : W32) (k : Nat) :
    BitVec.ofNat 8 (v.toNat / 256 ^ k) = (v >>> (8 * k)).setWidth 8 := by
  apply BitVec.eq_of_toNat_eq
  rw [BitVec.toNat_setWidth, BitVec.toNat_ushiftRight, Nat.shiftRight_eq_div_pow, BitVec.toNat_ofNat,
    Nat.pow_mul]

/-! ### Steps that change one core -/

/-- No core and no device memory changes. -/
def SameCores (s t : State) : Prop := t.cores = s.cores ∧ t.mem = s.mem

theorem SameCores.refl (s : State) : SameCores s s := ⟨rfl, rfl⟩

theorem SameCores.trans {s t u : State} (h : SameCores s t) (k : SameCores t u) : SameCores s u :=
  ⟨k.1.trans h.1, k.2.trans h.2⟩

theorem SameCores.core {s t : State} (h : SameCores s t) (d : Nat) : t.core d = s.core d := by
  rw [State.core, h.1]; rfl

theorem LogFrame.sameCores {s t : State} (h : LogFrame s t) : SameCores s t := ⟨h.cores, h.mem⟩

theorem LogFrame.logWords (c mem : Nat) (l : List Nat) : ∀ s : State, LogFrame s (s.logWords c mem l) := by
  induction l with
  | nil => exact .refl
  | cons w r ih => exact fun s => (LogFrame.log s _).trans (ih _)

theorem LogFrame.corrWords (c mem : Nat) (l : List Nat) : ∀ s : State, LogFrame s (s.corrWords c mem l) := by
  induction l with
  | nil => exact .refl
  | cons w r ih => exact fun s => (LogFrame.countCorr s _ _ _ _).trans (ih _)

theorem LogFrame.logAcc (c n : Nat) (l : List Nat) : ∀ s : State, LogFrame s (s.logAcc c n l) := by
  induction l with
  | nil => exact .refl
  | cons e r ih => exact fun s => (LogFrame.log s _).trans (ih _)

theorem LogFrame.corrAcc (c n : Nat) (l : List Nat) : ∀ s : State, LogFrame s (s.corrAcc c n l) := by
  induction l with
  | nil => exact .refl
  | cons e r ih => exact fun s => (LogFrame.countCorr s _ _ _ _).trans (ih _)

theorem LogFrame.incompFor (s : State) (c : Nat) : LogFrame s (s.incompFor c) := by
  unfold State.incompFor
  split
  · exact .setIncomp s
  · exact .refl s

theorem LogFrame.pexSat (s : State) (n : Nat) : LogFrame s (s.pexSat n) := by
  unfold State.pexSat
  split <;> rfl

theorem sameCores_takeFree (s : State) : SameCores s s.takeFree.2 := ⟨rfl, rfl⟩

theorem sameCores_creditsBack (j : JobSlot) (l : List Nat) :
    ∀ s : State, SameCores s (s.creditsBack j l) := by
  induction l with
  | nil => exact .refl
  | cons r t ih => exact fun s => SameCores.trans ⟨rfl, rfl⟩ (ih _)

/-- Core `c` alone may change, and keeps what `view` shows of it; device memory stays. -/
structure Keeps {β : Type} (view : CoreSt → β) (c : Nat) (s t : State) : Prop where
  core : view (t.core c) = view (s.core c)
  others : ∀ d, d ≠ c → t.core d = s.core d
  mem : t.mem = s.mem

section Keeps

variable {β γ : Type} {view : CoreSt → β} {c : Nat} {s t u : State}

theorem Keeps.refl (s : State) : Keeps view c s s := ⟨rfl, fun _ _ => rfl, rfl⟩

theorem Keeps.trans (h : Keeps view c s t) (k : Keeps view c t u) : Keeps view c s u :=
  ⟨k.core.trans h.core, fun d hd => (k.others d hd).trans (h.others d hd), k.mem.trans h.mem⟩

theorem SameCores.keeps (h : SameCores s t) : Keeps view c s t :=
  ⟨by rw [h.core], fun d _ => h.core d, h.2⟩

theorem Keeps.setCore {x : CoreSt} (h : view x = view (s.core c)) : Keeps view c s (s.setCore c x) :=
  ⟨by rw [State.core_setCore, h], fun _ hd => State.core_setCore_ne s c x (Ne.symm hd), rfl⟩

theorem Keeps.of_setCore {x : CoreSt} (h : SameCores (s.setCore c x) t) (hx : view x = view (s.core c)) :
    Keeps view c s t := (Keeps.setCore hx).trans h.keeps

theorem Keeps.modCore {f : CoreSt → CoreSt} (h : ∀ x, view (f x) = view x) :
    Keeps view c s (s.modCore c f) := Keeps.setCore (h _)

/-- What shows less is kept as well. -/
theorem Keeps.mono {view' : CoreSt → γ} (h : Keeps view c s t)
    (hview : ∀ x y, view x = view y → view' x = view' y) : Keeps view' c s t :=
  ⟨hview _ _ h.core, h.others, h.mem⟩

end Keeps

/-! ### The scratchpad, the operand cache and the accumulators -/

theorem sameCores_spadRead (s : State) (c a n : Nat) :
    SameCores (s.setCore c { s.core c with
      spEcc := eccFixed (s.core c).spEcc (s.spadRead c a n).1.fixed }) (s.spadRead c a n).2 :=
  ((LogFrame.corrWords c 2 _ _).trans (LogFrame.logWords c 2 _ _)).sameCores

theorem sameCores_spadWrite (s : State) (c a : Nat) (l : List Byte) :
    SameCores (s.setCore c { s.core c with
      spad := Tab.putList (fun _ => 0) (s.core c).spad a l
      spEcc := eccWritten (s.core c).spEcc 4 a l.length }) (s.spadWrite c a l) :=
  ((LogFrame.corrWords c 2 _ _).trans (LogFrame.logWords c 2 _ _)).sameCores

/-- A write of the operand cache changes the written bytes, codewords and counts. -/
theorem sameCores_ocWrite (s : State) (c a : Nat) (l : List Byte) : ∃ corr bad,
    SameCores (s.setCore c { (s.core c).ocCount corr bad with
      ocache := Tab.putList (fun _ => 0) (s.core c).ocache a l
      ocEcc := eccWritten (s.core c).ocEcc 4 a l.length }) (s.ocWrite c a l) :=
  ⟨_, _, ((LogFrame.corrWords c 4 _ _).trans (LogFrame.logWords c 4 _ _)).sameCores⟩

/-! ### Arrays and tiles -/

@[simp] theorem CoreSt.arr_setArr (x : CoreSt) (n : Nat) (a : ArrayRec) : (x.setArr n a).arr n = a :=
  Tab.look_ins_same _ _ _ _

theorem CoreSt.arr_setArr_ne (x : CoreSt) (a : ArrayRec) {n m : Nat} (h : n ≠ m) :
    (x.setArr n a).arr m = x.arr m := Tab.look_ins_ne _ _ _ _ h

/-- An element after a tile is written: the tile's elements are the list's, missing ones 0. -/
theorem ArrayRec.look_setTile (a : ArrayRec) (t : Nat) (l : List W32) (e : Nat) :
    Tab.look (fun _ => 0) (a.setTile t l).elem e
      = if e / 1024 = t then (l[e - 1024 * t]?).getD 0 else Tab.look (fun _ => 0) a.elem e := by
  rw [ArrayRec.setTile, Tab.look_putList, Tab.look_drop]
  by_cases het : e / 1024 = t
  · rw [if_pos (by omega), if_pos het, if_pos (by simpa using het), List.getElem?_take_of_lt (by omega)]
  · rw [if_neg het, beq_false_of_ne het, if_neg Bool.false_ne_true]
    by_cases hle : 1024 * t ≤ e
    · rw [if_pos hle, List.getElem?_eq_none (by simp; omega)]; rfl
    · rw [if_neg hle]

theorem ArrayRec.look_setTile_ne (a : ArrayRec) (l : List W32) {t e : Nat} (h : e / 1024 ≠ t) :
    Tab.look (fun _ => 0) (a.setTile t l).elem e = Tab.look (fun _ => 0) a.elem e := by
  rw [ArrayRec.look_setTile, if_neg h]

theorem ArrayRec.look_setTile_mem (a : ArrayRec) (t : Nat) (l : List W32) {i : Nat} (h : i < 1024) :
    Tab.look (fun _ => 0) (a.setTile t l).elem (1024 * t + i) = (l[i]?).getD 0 := by
  rw [ArrayRec.look_setTile, if_pos (by omega), Nat.add_sub_cancel_left]

@[simp] theorem ArrayRec.setScale_elem (a : ArrayRec) (t : Nat) (v : BitVec 10) :
    (a.setScale t v).elem = a.elem := rfl

@[simp] theorem ArrayRec.count_elem (a : ArrayRec) (t sats scls : Nat) :
    (a.count t sats scls).elem = a.elem := rfl

theorem ArrayRec.getElem?_tile (a : ArrayRec) (t : Nat) {i : Nat} (h : i < 1024) :
    (a.tile t)[i]? = some (Tab.look (fun _ => 0) a.elem (1024 * t + i)) :=
  Tab.getElem?_lookList _ _ _ h

/-- The start of an AMAC with OW clears its tile alone. -/
theorem ArrayRec.look_start_ne (a : ArrayRec) (j : AmacJob) (sp : Int) {e : Nat}
    (h : e / 1024 ≠ j.f.tile.toNat) :
    Tab.look (fun _ => 0) (a.start j sp).elem e = Tab.look (fun _ => 0) a.elem e := by
  unfold ArrayRec.start
  split
  · rfl
  · exact ArrayRec.look_setTile_ne a [] h

theorem ArrayRec.look_addSlot_ne (a : ArrayRec) (j : AmacJob) (row col : FeedVec) {e : Nat}
    (h : e / 1024 ≠ j.f.tile.toNat) :
    Tab.look (fun _ => 0) (a.addSlot j row col).1.elem e = Tab.look (fun _ => 0) a.elem e := by
  rw [ArrayRec.addSlot, ArrayRec.count_elem, ArrayRec.look_setTile_ne _ _ h]

/-- The slot adds to each element its product, aligned to the tile's scale, under ovfw() (R72, R73, R104). -/
theorem ArrayRec.look_addSlot (a : ArrayRec) (j : AmacJob) (row col : FeedVec) {i : Nat} (h : i < 1024) :
    Tab.look (fun _ => 0) (a.addSlot j row col).1.elem (1024 * j.f.tile.toNat + i)
      = BitVec.ofInt 32 (ovfw ((Tab.look (fun _ => 0) a.elem (1024 * j.f.tile.toNat + i)).toInt
          + align (cellProd (j.f.neg == 1) (cellVec j.f.ka.toNat j.f.kb.toNat row.vals).1
              (cellVec j.f.kb.toNat j.f.ka.toNat col.vals).1 (i / 32) (i % 32))
            (row.scale + col.scale) (a.scale j.f.tile.toNat)) 32 (j.f.ovf == 1)).1 := by
  rw [ArrayRec.addSlot, ArrayRec.count_elem, ArrayRec.look_setTile_mem _ _ _ h, List.getElem?_map,
    List.getElem?_mapIdx, ArrayRec.getElem?_tile a _ h]
  rfl

theorem ovfw_fst (x : Int) (w : Nat) (o : BitVec 1) :
    (ovfw x w (o == 1)).1 = if o = 1 then wrapw x w else satw x w := by
  simp only [ovfw, beq_iff_eq, apply_ite Prod.fst]

/-- A tile stored at full width: byte `k` of element `i`. -/
theorem ArrayRec.getElem?_tileBytes (a : ArrayRec) (t : Nat) {i k : Nat} (hi : i < 1024) (hk : k < 4) :
    (a.tileBytes t)[4 * i + k]?
      = some ((Tab.look (fun _ => 0) a.elem (1024 * t + i) >>> (8 * k)).setWidth 8) := by
  rw [ArrayRec.tileBytes, getElem?_flatMap_of_length (fun _ => length_leBytes 4 _) hk,
    ArrayRec.getElem?_tile a t hi, Option.bind_some, getElem?_leBytes k 4 _ hk, ofNat_byte_eq_shift]

/-- Element `i` of a tile that is loaded from a row of bytes. -/
theorem ArrayRec.look_load (a : ArrayRec) (t : Nat) (m : Tab Byte) (b : Nat) (desc : List Byte) (bad : Bool)
    {i : Nat} (hi : i < 1024) :
    (Tab.look (fun _ => 0) (a.load t (Tab.lookList (fun _ => 0) m b 4096) desc bad).elem
      (1024 * t + i)).toNat = leNat (Tab.lookList (fun _ => 0) m (b + 4 * i) 4) := by
  have hlt := leNat_lt (Tab.lookList (fun _ => 0) m (b + 4 * i) 4)
  rw [Tab.length_lookList] at hlt
  rw [ArrayRec.load, ArrayRec.setScale_elem, ArrayRec.look_setTile_mem _ _ _ hi, List.getElem?_map,
    getElem?_groupsOf 4 i 1024 _ hi (by rw [Tab.length_lookList]; omega),
    Tab.take_drop_lookList _ _ _ (by omega), Option.map_some, Option.getD_some, BitVec.toNat_ofNat,
    Nat.mod_eq_of_lt (hlt.trans_eq (by norm_num))]

theorem mem_masked {m : BitVec 4} {n : Nat} (h : n ∈ masked m) : m.getLsbD n = true :=
  (List.mem_filter.1 h).2

theorem masked_single {n : Nat} (h : n < 4) : masked (BitVec.ofNat 4 (2 ^ n)) = [n] := by
  interval_cases n <;> rfl

/-! ### What the operations of the quad keep -/

/-- The scalar registers, the quad and the arrays: what no feeder changes. -/
def CoreSt.unfed (x : CoreSt) : Tab W32 × Quad × Tab ArrayRec := (x.sregs, x.quad, x.arrays)

/-- The scalar registers, the quad, the arrays outside mask `m` and the elements outside tile `t`: what
work on tile `t` of the arrays of `m` leaves alone. -/
def CoreSt.offTile (m : BitVec 4) (t : Nat) (x : CoreSt) :
    Tab W32 × Quad × (Nat → Option ArrayRec) × (Nat → Nat → Option W32) :=
  (x.sregs, x.quad, fun n => if m.getLsbD n then none else some (x.arr n),
    fun n e => if e / 1024 = t then none else some (Tab.look (fun _ => 0) (x.arr n).elem e))

/-- The scalar registers and the AMAC in progress: what the drain unit leaves alone. -/
def CoreSt.undrained (x : CoreSt) : Tab W32 × Option AmacRun := (x.sregs, x.quad.run)

theorem CoreSt.offTile_of_unfed (m : BitVec 4) (t : Nat) {x y : CoreSt} (h : x.unfed = y.unfed) :
    x.offTile m t = y.offTile m t := by
  obtain ⟨hsregs, hquad, harrays⟩ : x.sregs = y.sregs ∧ x.quad = y.quad ∧ x.arrays = y.arrays := by
    simpa [CoreSt.unfed] using h
  simp only [CoreSt.offTile, CoreSt.arr, hsregs, hquad, harrays]

theorem CoreSt.undrained_of_offTile {m : BitVec 4} {t : Nat} {x y : CoreSt}
    (h : x.offTile m t = y.offTile m t) : x.undrained = y.undrained := by
  simp only [CoreSt.offTile, Prod.mk.injEq] at h
  simp only [CoreSt.undrained, h.1, h.2.1]

/-- An array of the mask replaced by one that differs from it on the tile alone. -/
theorem CoreSt.offTile_setArr {m : BitVec 4} {t n : Nat} {x : CoreSt} {a : ArrayRec}
    (hn : m.getLsbD n = true) (ha : ∀ e, e / 1024 ≠ t →
      Tab.look (fun _ => 0) a.elem e = Tab.look (fun _ => 0) (x.arr n).elem e) :
    (x.setArr n a).offTile m t = x.offTile m t := by
  have harr : ∀ k, m.getLsbD k = false → (x.setArr n a).arr k = x.arr k := fun k hk =>
    CoreSt.arr_setArr_ne x a (by rintro rfl; simp [hn] at hk)
  have helem : ∀ k e, e / 1024 ≠ t → Tab.look (fun _ => 0) ((x.setArr n a).arr k).elem e
      = Tab.look (fun _ => 0) (x.arr k).elem e := fun k e he => by
    by_cases hk : n = k
    · subst hk; rw [CoreSt.arr_setArr, ha e he]
    · rw [CoreSt.arr_setArr_ne x a hk]
  refine Prod.ext rfl (Prod.ext rfl (Prod.ext (funext fun k => ?_) (funext fun k => funext fun e => ?_)))
  · cases hk : m.getLsbD k <;> simp [CoreSt.offTile, hk, harr]
  · by_cases he : e / 1024 = t
    · simp only [CoreSt.offTile, if_pos he]
    · simp only [CoreSt.offTile, if_neg he, helem k e he]

section Work

variable {c : Nat} {m : BitVec 4} {t n : Nat}

/-- A tile without codewords in error is read as it stands (R99). -/
theorem State.scanTile_of_ecc_nil {s : State} (h : ((s.core c).arr n).ecc = []) (t : Nat) :
    s.scanTile c n t = s := by simp [State.scanTile, h]

theorem Keeps.scanTile (s : State) (hn : m.getLsbD n = true) :
    Keeps (CoreSt.offTile m t) c s (s.scanTile c n t) := by
  unfold State.scanTile
  dsimp only
  split
  · exact .refl s
  · refine .of_setCore ((LogFrame.corrAcc c n _ _).trans (LogFrame.logAcc c n _ _)).sameCores
      (CoreSt.offTile_setArr hn fun e he => ?_)
    rw [Tab.look_drop, if_neg]
    simp only [List.contains_iff_mem, List.mem_map, List.mem_filter, beq_iff_eq]
    rintro ⟨x, ⟨⟨-, hx⟩, -⟩, rfl⟩
    exact he hx

/-! ### Feeders -/

theorem Keeps.feedSpad (s : State) (c f k : Nat) (row : Bool) (ks : List Nat) (cf : FeederCfg) :
    Keeps CoreSt.unfed c s (s.feedSpad c f k row ks cf).2 := by
  have hwords := fun (u : State) (l l' : List Nat) =>
    ((LogFrame.corrWords c 2 l u).trans (LogFrame.logWords c 2 l' _))
  unfold State.feedSpad
  dsimp only
  split
  · exact .of_setCore (hwords _ _ _).sameCores rfl
  · exact .of_setCore ((hwords _ _ _).trans (LogFrame.incompFor _ c)).sameCores rfl

theorem Keeps.feedPort (s : State) (c f k knext : Nat) (row : Bool) (ks : List Nat) (cf : FeederCfg) :
    Keeps CoreSt.unfed c s (s.feedPort c f k knext row ks cf).2 := by
  unfold State.feedPort
  dsimp only
  split
  · exact .refl s
  · split
    · split
      · exact ((sameCores_takeFree s).trans (LogFrame.log _ _).sameCores).keeps
      · exact (sameCores_takeFree s).keeps
    · dsimp only
      refine .trans ?_ (.modCore fun _ => ?_)
      · split
        · exact (LogFrame.incompFor s c).sameCores.keeps
        · exact .refl s
      · rfl

theorem Keeps.feed (s : State) (c f k knext : Nat) (row : Bool) (ks : List Nat) :
    Keeps CoreSt.unfed c s (s.feed c f k knext row ks).2 := by
  unfold State.feed
  split
  · exact .refl s
  · split
    · exact .feedPort ..
    · exact .feedSpad ..

theorem Keeps.feedNext (s : State) (c f k knext : Nat) (last : Bool) :
    Keeps CoreSt.unfed c s (s.feedNext c f k knext last) := by
  unfold State.feedNext
  dsimp only
  split
  · exact .setCore rfl
  · split
    · exact .refl s
    · split
      · exact .setCore rfl
      · split
        · exact .refl s
        · split
          · exact .of_setCore (sameCores_creditsBack _ _ _) rfl
          · exact .setCore rfl

theorem Keeps.feedsNext (c kb knext : Nat) (last : Bool) (l : List Nat) :
    ∀ s : State, Keeps CoreSt.unfed c s (s.feedsNext c kb knext last l) := by
  induction l with
  | nil => exact .refl
  | cons n r ih => exact fun s => (Keeps.feedNext s c (n + 1) kb knext last).trans (ih _)

/-! ### A slot in the selected arrays -/

theorem Keeps.slotArray (s : State) (run : AmacRun) (row col : FeedVec)
    (hn : run.job.f.amask.getLsbD n = true) :
    Keeps (CoreSt.offTile run.job.f.amask run.job.f.tile.toNat) c s (s.slotArray c n run row col) := by
  unfold State.slotArray
  extract_lets s1 s2 r s3
  have hstart : Keeps (CoreSt.offTile run.job.f.amask run.job.f.tile.toNat) c s s1 := by
    unfold s1
    split
    · exact .refl s
    · exact .modCore fun x => CoreSt.offTile_setArr hn fun _ => ArrayRec.look_start_ne _ _ _
  have hsum : Keeps (CoreSt.offTile run.job.f.amask run.job.f.tile.toNat) c s1 s3 :=
    (Keeps.scanTile s1 hn).trans
      (.setCore (CoreSt.offTile_setArr hn fun _ => ArrayRec.look_addSlot_ne _ _ _ _))
  split
  · split
    · exact (hstart.trans hsum).trans (LogFrame.pexSat _ _).sameCores.keeps
    · exact hstart.trans hsum
  · exact hstart

theorem Keeps.slotArrays (run : AmacRun) (row : FeedVec) (ks : List Nat) (l : List Nat)
    (hl : ∀ n ∈ l, run.job.f.amask.getLsbD n = true) : ∀ s : State,
    Keeps (CoreSt.offTile run.job.f.amask run.job.f.tile.toNat) c s (s.slotArrays c run row ks l) := by
  induction l with
  | nil => exact .refl
  | cons n r ih =>
    intro s
    have hfeed := (Keeps.feed s c (n + 1) run.job.f.kb.toNat run.knext false ks).mono
      fun _ _ => CoreSt.offTile_of_unfed run.job.f.amask run.job.f.tile.toNat
    exact (hfeed.trans (.slotArray _ run row _ (hl n (List.mem_cons_self ..)))).trans
      (ih (fun k hk => hl k (List.mem_cons_of_mem _ hk)) _)

/-- A later slot of an array, under two valid vectors and without codewords in error, is its sum. -/
theorem State.arr_slotArray {s : State} {run : AmacRun} {row col : FeedVec} (hstarted : run.started = true)
    (hecc : ((s.core c).arr n).ecc = []) (hrow : row.valid = true) (hcol : col.valid = true) :
    ((s.slotArray c n run row col).core c).arr n = (((s.core c).arr n).addSlot run.job row col).1 := by
  rw [State.slotArray, if_pos hstarted, if_pos ⟨hrow, hcol⟩, State.scanTile_of_ecc_nil hecc]
  dsimp only
  split
  · rw [(LogFrame.pexSat _ _).sameCores.core, State.core_modCore, CoreSt.arr_setArr]
  · rw [State.core_modCore, CoreSt.arr_setArr]

end Work

/-! ### The slot that an AMAC takes -/

/-- Whether the slot is the AMAC's last. -/
def AmacRun.last (run : AmacRun) : Bool := run.knext + 1 == kSlots run.job.f.ka.toNat run.job.f.kb.toNat

/-- The row vector of the slot, and the state after the row feeder served. -/
def State.slotRow (s : State) (c : Nat) (run : AmacRun) : FeedVec × State :=
  s.feed c 0 run.job.f.ka.toNat run.knext true (kIdx run.job.f.ka.toNat run.job.f.kb.toNat run.knext)

/-- The slot's sums in every selected array. -/
def State.slotSums (s : State) (c : Nat) (run : AmacRun) : State :=
  (s.slotRow c run).2.slotArrays c run (s.slotRow c run).1
    (kIdx run.job.f.ka.toNat run.job.f.kb.toNat run.knext) (masked run.job.f.amask)

/-- The slot's sums, and its feeders gone on. -/
def State.slotServed (s : State) (c : Nat) (run : AmacRun) : State :=
  ((s.slotSums c run).feedNext c 0 run.job.f.ka.toNat run.knext run.last).feedsNext c
    run.job.f.kb.toNat run.knext run.last (masked run.job.f.amask)

/-- A core whose AMAC has taken a slot. -/
def CoreSt.slotDone (x : CoreSt) (run : AmacRun) : CoreSt := { x with quad := x.quad.slotDone run run.last }

@[simp] theorem CoreSt.slotDone_quad (x : CoreSt) (run : AmacRun) :
    (x.slotDone run).quad = x.quad.slotDone run run.last := rfl

@[simp] theorem CoreSt.slotDone_sregs (x : CoreSt) (run : AmacRun) : (x.slotDone run).sregs = x.sregs := rfl

@[simp] theorem CoreSt.slotDone_arr (x : CoreSt) (run : AmacRun) (n : Nat) :
    (x.slotDone run).arr n = x.arr n := rfl

theorem firstFault_eq_none {l : List FeedReady} (h : ∀ r ∈ l, r = .ready) : firstFault l = none := by
  induction l with
  | nil => rfl
  | cons r l ih =>
    obtain rfl := h r (List.mem_cons_self ..)
    exact ih fun x hx => h x (List.mem_cons_of_mem _ hx)

section Slot

variable {s : State} {c : Nat} {run : AmacRun}

/-- The guard under which an AMAC looks at its feeders. -/
theorem State.amacSlot_guard_false (hstop : (s.core c).quad.stopped = false)
    (hswitch : (s.core c).switching = false) (hblock : (s.core c).quad.drainBlocks run = false) :
    ¬ ((s.core c).quad.stopped = true ∨ (s.core c).switching = true
      ∨ (s.core c).quad.drainBlocks run = true) := by simp [hstop, hswitch, hblock]

variable (hrun : (s.core c).quad.run = some run) (hstop : (s.core c).quad.stopped = false)
  (hswitch : (s.core c).switching = false) (hblock : (s.core c).quad.drainBlocks run = false)
include hrun hstop hswitch hblock

/-- Without a vector the slot is not taken (R105). -/
theorem State.amacSlot_of_missing (h : ∃ p ∈ run.job.feeds, s.feedReady c p.1 p.2 = .missing) :
    s.amacSlot c = s := by
  have hmissing : (run.job.feeds.map fun p => s.feedReady c p.1 p.2).contains .missing = true := by
    obtain ⟨p, hp, hr⟩ := h
    exact List.contains_iff_mem.2 (List.mem_map.2 ⟨p, hp, hr⟩)
  simp only [State.amacSlot, hrun]
  rw [if_neg (State.amacSlot_guard_false hstop hswitch hblock), if_pos hmissing]

/-- With every vector the slot is taken: its arrays add, its feeders go on, and it counts (R101, R102). -/
theorem State.amacSlot_of_ready (h : ∀ p ∈ run.job.feeds, s.feedReady c p.1 p.2 = .ready) :
    s.amacSlot c = (s.slotServed c run).modCore c fun y => y.slotDone run := by
  have hready : ∀ r ∈ run.job.feeds.map fun p => s.feedReady c p.1 p.2, r = .ready := by
    simpa using fun r a b hp hr => hr ▸ h (a, b) hp
  have hmissing : ¬ (run.job.feeds.map fun p => s.feedReady c p.1 p.2).contains .missing = true :=
    fun hm => nomatch hready _ (List.contains_iff_mem.1 hm)
  simp only [State.amacSlot, hrun]
  rw [if_neg (State.amacSlot_guard_false hstop hswitch hblock), if_neg hmissing, firstFault_eq_none hready]
  rfl

end Slot

section Served

variable (s : State) (c : Nat) (run : AmacRun)

theorem Keeps.slotRow : Keeps CoreSt.unfed c s (s.slotRow c run).2 := .feed ..

theorem Keeps.slotSums :
    Keeps (CoreSt.offTile run.job.f.amask run.job.f.tile.toNat) c s (s.slotSums c run) :=
  ((Keeps.slotRow s c run).mono fun _ _ => CoreSt.offTile_of_unfed _ _).trans
    (.slotArrays run _ _ _ (fun _ => mem_masked) _)

theorem Keeps.feedersServed : Keeps CoreSt.unfed c (s.slotSums c run) (s.slotServed c run) :=
  (Keeps.feedNext ..).trans (.feedsNext ..)

theorem Keeps.slotServed :
    Keeps (CoreSt.offTile run.job.f.amask run.job.f.tile.toNat) c s (s.slotServed c run) :=
  (Keeps.slotSums s c run).trans
    ((Keeps.feedersServed s c run).mono fun _ _ => CoreSt.offTile_of_unfed _ _)

end Served

theorem Keeps.arr {c n : Nat} {s t : State} (h : Keeps CoreSt.unfed c s t) :
    (t.core c).arr n = (s.core c).arr n := by
  have harrays : (t.core c).arrays = (s.core c).arrays := congrArg (fun v => v.2.2) h.core
  rw [CoreSt.arr, harrays]; rfl

/-- A single selected array after a later slot is its sum. -/
theorem State.arr_slotServed {s : State} {c n : Nat} {run : AmacRun} (hn : n < 4)
    (hmask : run.job.f.amask = BitVec.ofNat 4 (2 ^ n)) (hstarted : run.started = true)
    (hecc : ((s.core c).arr n).ecc = []) :
    let row := s.slotRow c run
    let col := (row.2.feed c (n + 1) run.job.f.kb.toNat run.knext false
      (kIdx run.job.f.ka.toNat run.job.f.kb.toNat run.knext)).1
    row.1.valid = true → col.valid = true →
      ((s.slotServed c run).core c).arr n = (((s.core c).arr n).addSlot run.job row.1 col).1 := by
  intro row col hrow hcol
  have hfed := ((Keeps.slotRow s c run).trans (.feed row.2 c (n + 1) run.job.f.kb.toNat run.knext false
    (kIdx run.job.f.ka.toNat run.job.f.kb.toNat run.knext))).arr (n := n)
  rw [(Keeps.feedersServed s c run).arr, State.slotSums, hmask, masked_single hn]
  show ((State.slotArray _ c n run row.1 col).core c).arr n = _
  rw [State.arr_slotArray hstarted (by rw [hfed, hecc]) hrow hcol, hfed]

/-! ### The drain unit -/

/-- An ADRQ of the array slot has its own layout (R244). -/
theorem decodeArr_adrq {w : BitVec 32} {g : FmtAdrq} (h : decodeArr w = .adrq g) : g = FmtAdrq.dec w := by
  unfold decodeArr at h
  split at h <;> simp_all

/-- ADRW, ALDT and ASTT share theirs (R245). -/
theorem decodeArr_tileMove {w : BitVec 32} {g : FmtTileMove}
    (h : decodeArr w = .astt g ∨ decodeArr w = .adrw g ∨ decodeArr w = .aldt g) : g = FmtTileMove.dec w := by
  unfold decodeArr at h
  split at h <;> simp_all

section Drain

variable {c : Nat}

/-! ### A token put out to a port -/

theorem CoreSt.port_setPort (x : CoreSt) (p : Nat) (v : PortSt) : (x.setPort p v).port p = v :=
  Tab.look_ins_same _ _ _ _

theorem CoreSt.pushWords_queue (plane p : Nat) (l : List SWord) : ∀ x : CoreSt,
    ((x.pushWords plane p l).port p).queue.map (·.2) = (x.port p).queue.map (·.2) ++ l := by
  induction l with
  | nil => intro x; rw [CoreSt.pushWords, List.append_nil]
  | cons w r ih =>
    intro x
    rw [CoreSt.pushWords, ih, CoreSt.pushWord, CoreSt.port_setPort]
    simp

/-- Pushing words changes no record of the core but its ports. -/
theorem CoreSt.pushWords_frame (plane p : Nat) (l : List SWord) : ∀ x : CoreSt,
    x.pushWords plane p l = { x with ports := (x.pushWords plane p l).ports } := by
  induction l with
  | nil => exact fun _ => rfl
  | cons w r ih => intro x; rw [CoreSt.pushWords, ih]; rfl

/-- The core after an ADRQ has pushed a token of `m` tiles: the port counts them, and the drain unit is
free again. -/
def CoreSt.tokenOut (x : CoreSt) (g : FmtAdrq) (d : DrainJob) (m : Nat) (token : List SWord) : CoreSt :=
  let z := x.pushWords d.plane g.dst.toNat token
  let p := z.port g.dst.toNat
  { z.setPort g.dst.toNat (if d.px.isSome then p else { p with drainTile := p.drainTile + m })
    with quad := { z.quad with drain := none } }

theorem CoreSt.tokenOut_drain (x : CoreSt) (g : FmtAdrq) (d : DrainJob) (m : Nat) (token : List SWord) :
    (x.tokenOut g d m token).quad.drain = none := rfl

theorem CoreSt.undrained_tokenOut (x : CoreSt) (g : FmtAdrq) (d : DrainJob) (m : Nat)
    (token : List SWord) : (x.tokenOut g d m token).undrained = x.undrained := by
  rw [CoreSt.tokenOut, CoreSt.pushWords_frame]
  rfl

theorem CoreSt.tokenOut_queue (x : CoreSt) (g : FmtAdrq) (d : DrainJob) (m : Nat) (token : List SWord) :
    ((x.tokenOut g d m token).port g.dst.toNat).queue.map (·.2)
      = (x.port g.dst.toNat).queue.map (·.2) ++ token := by
  rw [← CoreSt.pushWords_queue d.plane]
  have hport : (x.tokenOut g d m token).port g.dst.toNat = _ := CoreSt.port_setPort _ _ _
  rw [hport]
  split <;> rfl

/-- An ADRQ whose port lacks places for the whole token waits (R266). -/
theorem State.runAdrq_of_full {s : State} {g : FmtAdrq} (d : DrainJob)
    (h : (s.core c).free g.dst.toNat < tokenWords g.w (masked g.amask).length) : s.runAdrq c g d = s :=
  if_pos h

/-- Otherwise it drains its tiles and puts out their token (R111, R266). -/
theorem State.runAdrq_of_free {s : State} {g : FmtAdrq} (d : DrainJob)
    (h : ¬ (s.core c).free g.dst.toNat < tokenWords g.w (masked g.amask).length) :
    let v := s.drainTiles c g d (s.drainKey (s.core c) g d) ((s.core c).drainSeq g d) (masked g.amask)
    s.runAdrq c g d = v.2.modCore c fun y =>
      y.tokenOut g d (masked g.amask).length (tileToken (fmtBytes g.w.toNat / 256) v.1) := if_neg h

/-! ### What every drain keeps -/

theorem Keeps.scanTile_undrained (s : State) {n : Nat} (hn : n < 4) (t : Nat) :
    Keeps CoreSt.undrained c s (s.scanTile c n t) :=
  (Keeps.scanTile (m := 15) (t := t) s (by interval_cases n <;> rfl)).mono
    fun _ _ => CoreSt.undrained_of_offTile

theorem Keeps.spadWrite_undrained (s : State) (a : Nat) (l : List Byte) :
    Keeps CoreSt.undrained c s (s.spadWrite c a l) := .of_setCore (sameCores_spadWrite s c a l) rfl

theorem Keeps.ocWrite_undrained (s : State) (a : Nat) (l : List Byte) :
    Keeps CoreSt.undrained c s (s.ocWrite c a l) :=
  let ⟨_, _, h⟩ := sameCores_ocWrite s c a l
  .of_setCore h rfl

theorem Keeps.spadRead_undrained (s : State) (a n : Nat) :
    Keeps CoreSt.undrained c s (s.spadRead c a n).2 := .of_setCore (sameCores_spadRead s c a n) rfl

theorem Keeps.runAstt (base t : Nat) (l : List Nat) (hl : ∀ n ∈ l, n < 4) :
    ∀ s : State, Keeps CoreSt.undrained c s (s.runAstt c base t l) := by
  induction l with
  | nil => exact .refl
  | cons n r ih =>
    intro s
    exact (((Keeps.scanTile_undrained s (hl n (List.mem_cons_self ..)) t).trans
      (.spadWrite_undrained ..)).trans (.spadWrite_undrained ..)).trans
        (ih (fun k hk => hl k (List.mem_cons_of_mem _ hk)) _)

theorem Keeps.runAdrw (base t : Nat) (l : List Nat) (hl : ∀ n ∈ l, n < 4) :
    ∀ s : State, Keeps CoreSt.undrained c s (s.runAdrw c base t l) := by
  induction l with
  | nil => exact .refl
  | cons n r ih =>
    intro s
    exact (((Keeps.scanTile_undrained s (hl n (List.mem_cons_self ..)) t).trans
      (.ocWrite_undrained ..)).trans (.ocWrite_undrained ..)).trans
        (ih (fun k hk => hl k (List.mem_cons_of_mem _ hk)) _)

theorem Keeps.runAldt (base t : Nat) (l : List Nat) :
    ∀ s : State, Keeps CoreSt.undrained c s (s.runAldt c base t l) := by
  induction l with
  | nil => exact .refl
  | cons n r ih =>
    intro s
    refine Keeps.trans ?_ (ih _)
    refine ((Keeps.spadRead_undrained s _ _).trans (.spadRead_undrained ..)).trans (.modCore fun _ => ?_)
    rfl

theorem Keeps.drainTile (s : State) {n : Nat} (hn : n < 4) (f : FmtAdrq) (d : DrainJob)
    (key : Option SrKey) (tseq : Nat) : Keeps CoreSt.undrained c s (s.drainTile c n f d key tseq).2 := by
  unfold State.drainTile
  dsimp only
  refine (Keeps.scanTile_undrained s hn f.tile.toNat).trans (.modCore fun _ => ?_)
  rfl

theorem Keeps.drainTiles (f : FmtAdrq) (d : DrainJob) (key : Option SrKey) (l : List Nat)
    (hl : ∀ n ∈ l, n < 4) : ∀ (s : State) (tseq : Nat),
    Keeps CoreSt.undrained c s (s.drainTiles c f d key tseq l).2 := by
  induction l with
  | nil => exact fun s _ => .refl s
  | cons n r ih =>
    intro s tseq
    exact (Keeps.drainTile s (hl n (List.mem_cons_self ..)) f d key tseq).trans
      (ih (fun k hk => hl k (List.mem_cons_of_mem _ hk)) _ _)

theorem mem_masked_lt {m : BitVec 4} {n : Nat} (h : n ∈ masked m) : n < 4 := by
  have hmem := (List.mem_filter.1 h).1
  simp only [List.mem_cons, List.not_mem_nil, or_false] at hmem
  omega

theorem Keeps.drainDone (s : State) : Keeps CoreSt.undrained c s (s.modCore c CoreSt.drainDone) :=
  .modCore fun _ => rfl

theorem Keeps.runAdrq (s : State) (g : FmtAdrq) (d : DrainJob) :
    Keeps CoreSt.undrained c s (s.runAdrq c g d) := by
  by_cases h : (s.core c).free g.dst.toNat < tokenWords g.w (masked g.amask).length
  · rw [State.runAdrq_of_full d h]
    exact .refl s
  · rw [State.runAdrq_of_free d h]
    exact (Keeps.drainTiles g d _ _ (fun _ => mem_masked_lt) _ _).trans
      (.modCore fun x => x.undrained_tokenOut g d _ _)

theorem Keeps.runDrain (s : State) (d : DrainJob) : Keeps CoreSt.undrained c s (s.runDrain c d) := by
  unfold State.runDrain
  dsimp only
  split
  · exact .runAdrq ..
  · exact (Keeps.runAdrw _ _ _ (fun _ => mem_masked_lt) s).trans (.drainDone _)
  · exact (Keeps.runAldt _ _ _ s).trans (.drainDone _)
  · exact (Keeps.runAstt _ _ _ (fun _ => mem_masked_lt) s).trans (.drainDone _)
  all_goals exact .drainDone s

/-! ### What the drain of one array writes -/

theorem State.spadWrite_spad (s : State) (a : Nat) (l : List Byte) :
    ((s.spadWrite c a l).core c).spad = Tab.putList (fun _ => 0) (s.core c).spad a l := by
  rw [(sameCores_spadWrite s c a l).core, State.core_setCore]

theorem State.ocWrite_ocache (s : State) (a : Nat) (l : List Byte) :
    ((s.ocWrite c a l).core c).ocache = Tab.putList (fun _ => 0) (s.core c).ocache a l := by
  obtain ⟨_, _, h⟩ := sameCores_ocWrite s c a l
  rw [h.core, State.core_setCore]

theorem State.ocWrite_spad (s : State) (a : Nat) (l : List Byte) :
    ((s.ocWrite c a l).core c).spad = (s.core c).spad := by
  obtain ⟨_, _, h⟩ := sameCores_ocWrite s c a l
  rw [h.core, State.core_setCore]; rfl

/-- A tile's bytes stand at `b`, and survive the write of a descriptor elsewhere. -/
theorem ArrayRec.look_tileBytes_desc (a : ArrayRec) (t : Nat) (m : Tab Byte) {b p i k : Nat}
    (hp : b + 4096 ≤ p) (hi : i < 1024) (hk : k < 4) :
    Tab.look (fun _ => 0) (Tab.putList (fun _ => 0) (Tab.putList (fun _ => 0) m b (a.tileBytes t)) p
        (a.desc t)) (b + 4 * i + k)
      = (Tab.look (fun _ => 0) a.elem (1024 * t + i) >>> (8 * k)).setWidth 8 := by
  rw [Tab.look_putList, if_neg (by omega), Tab.look_putList, if_pos (by omega),
    show b + 4 * i + k - b = 4 * i + k by omega, ArrayRec.getElem?_tileBytes a t hi hk, Option.getD_some]

variable {s : State} {n : Nat}

/-- ASTT of one array without codewords in error: its tile, then its descriptor. -/
theorem State.runAstt_single (hecc : ((s.core c).arr n).ecc = []) (base t : Nat) {i k : Nat}
    (hi : i < 1024) (hk : k < 4) :
    Tab.look (fun _ => 0) ((s.runAstt c base t [n]).core c).spad (base + n * 0x2000 + 4 * i + k)
      = (Tab.look (fun _ => 0) ((s.core c).arr n).elem (1024 * t + i) >>> (8 * k)).setWidth 8 := by
  simp only [State.runAstt, State.scanTile_of_ecc_nil hecc, State.spadWrite_spad]
  exact ArrayRec.look_tileBytes_desc _ t _ (by omega) hi hk

/-- ADRW of one array: the same in the operand cache, its descriptor behind the four tiles. -/
theorem State.runAdrw_single (hn : n < 4) (hecc : ((s.core c).arr n).ecc = []) (base t : Nat) {i k : Nat}
    (hi : i < 1024) (hk : k < 4) :
    Tab.look (fun _ => 0) ((s.runAdrw c base t [n]).core c).ocache (base + n * 0x1000 + 4 * i + k)
      = (Tab.look (fun _ => 0) ((s.core c).arr n).elem (1024 * t + i) >>> (8 * k)).setWidth 8 := by
  simp only [State.runAdrw, State.scanTile_of_ecc_nil hecc, State.ocWrite_ocache]
  exact ArrayRec.look_tileBytes_desc _ t _ (by omega) hi hk

theorem State.runAdrw_single_spad (hecc : ((s.core c).arr n).ecc = []) (base t : Nat) :
    ((s.runAdrw c base t [n]).core c).spad = (s.core c).spad := by
  simp only [State.runAdrw, State.scanTile_of_ecc_nil hecc, State.ocWrite_spad]

theorem eccFixed_nil (e : Tab Ecc) : eccFixed e [] = e := by simp [eccFixed]

/-- A scratchpad without codewords in error is read as it stands, and stays as it is. -/
theorem State.spadRead_of_ecc_nil (hecc : (s.core c).spEcc = []) (a k : Nat) :
    s.spadRead c a k = (⟨Tab.lookList (fun _ => 0) (s.core c).spad a k, [], []⟩, s.setCore c (s.core c)) := by
  have hread : ramRead (s.core c).spad (s.core c).spEcc 4 a k
      = ⟨Tab.lookList (fun _ => 0) (s.core c).spad a k, [], []⟩ := by simp [ramRead, hecc, eccIn]
  simp only [State.spadRead, hread, eccFixed_nil]
  rfl

/-- ALDT of one array: its tile holds the scratchpad's words. -/
theorem State.runAldt_single (hecc : (s.core c).spEcc = []) (base t : Nat) :
    ((s.runAldt c base t [n]).core c).spad = (s.core c).spad ∧ ∀ i < 1024,
      (Tab.look (fun _ => 0) (((s.runAldt c base t [n]).core c).arr n).elem (1024 * t + i)).toNat
        = leNat (Tab.lookList (fun _ => 0) (s.core c).spad (base + n * 0x2000 + 4 * i) 4) := by
  have hecc' : ((s.setCore c (s.core c)).core c).spEcc = [] := by rw [State.core_setCore, hecc]
  simp only [State.runAldt, State.spadRead_of_ecc_nil hecc, State.spadRead_of_ecc_nil hecc',
    State.core_modCore, State.core_setCore, CoreSt.arr_setArr]
  exact ⟨rfl, fun i hi => ArrayRec.look_load _ t _ _ _ _ hi⟩

/-- The tile that ADRQ puts out of one array: through quant() (R76, R111). -/
def State.adrqQuant (s : State) (c n : Nat) (g : FmtAdrq) (d : DrainJob) : Quant :=
  quant ((((s.core c).arr n).tile g.tile.toNat).map (·.toInt)) (((s.core c).arr n).scale g.tile.toNat)
    (wBits g.w) (if g.pol = 0 then some (satw d.sreg.toInt 8) else none) g.h.toNat
    (srWord (s.drainKey (s.core c) g d) ((s.core c).drainSeq g d)) (g.ovf == 1)

/-- The one tile that ADRQ drains of an array without codewords in error. -/
theorem State.drainTiles_single (hecc : ((s.core c).arr n).ecc = []) (g : FmtAdrq) (d : DrainJob) :
    let q := s.adrqQuant c n g d
    let v := s.drainTiles c g d (s.drainKey (s.core c) g d) ((s.core c).drainSeq g d) [n]
    v.1 = [(packMant (wBits g.w) q.y, BitVec.ofInt 8 q.scale, ((s.core c).arr n).poison.getLsbD g.tile.toNat)]
      ∧ (v.2.core c).ports = (s.core c).ports := by
  intro q v
  simp only [v, State.drainTiles, State.drainTile, State.scanTile_of_ecc_nil hecc, State.core_modCore]
  exact ⟨rfl, rfl⟩

/-- ADRQ of one array without codewords in error: its token joins the port's queue. -/
theorem State.runAdrq_single {g : FmtAdrq} (d : DrainJob) (hmask : masked g.amask = [n])
    (hecc : ((s.core c).arr n).ecc = []) (h : tokenWords g.w 1 ≤ (s.core c).free g.dst.toNat) :
    let q := s.adrqQuant c n g d
    ((s.runAdrq c g d).core c).quad.drain = none
      ∧ (((s.runAdrq c g d).core c).port g.dst.toNat).queue.map (·.2)
        = ((s.core c).port g.dst.toNat).queue.map (·.2) ++ tileToken (fmtBytes g.w.toNat / 256)
          [(packMant (wBits g.w) q.y, BitVec.ofInt 8 q.scale,
            ((s.core c).arr n).poison.getLsbD g.tile.toNat)] := by
  intro q
  obtain ⟨htiles, hports⟩ := State.drainTiles_single hecc g d
  rw [State.runAdrq_of_free d (by rw [hmask]; exact Nat.not_lt.2 h), hmask, htiles, State.core_modCore]
  refine ⟨CoreSt.tokenOut_drain .., ?_⟩
  rw [CoreSt.tokenOut_queue, CoreSt.port, hports]
  rfl

end Drain

/-! ### The commands -/

theorem exec_amacSlot (c : Core) (s : State) : exec (.amacSlot c) s = .next (s.amacSlot c) := rfl

theorem exec_drainStart (c : Core) (s : State) : exec (.drainStart c) s = .next (s.drainStart c) := rfl

section Clauses

variable {c : Nat} {s : State}

/-- After a slot the next one is due (R101), or the AMAC that waited is in progress (R102). -/
theorem Quad.slotDone_rules (q : Quad) (run : AmacRun) :
    (run.knext + 1 ≠ kSlots run.job.f.ka.toNat run.job.f.kb.toNat →
      (q.slotDone run run.last).run = some { run with knext := run.knext + 1, started := true }
        ∧ (q.slotDone run run.last).queued = q.queued)
    ∧ (run.knext + 1 = kSlots run.job.f.ka.toNat run.job.f.kb.toNat →
      (q.slotDone run run.last).run = q.queued.map (fun j => ⟨j, 0, false⟩)
        ∧ (q.slotDone run run.last).queued = none)
    ∧ (q.slotDone run run.last).drain = q.drain := by
  cases hlast : run.last <;> simp_all [AmacRun.last, Quad.slotDone]

/-- A single selected array after a later slot: each element of the tile with its product. -/
theorem State.look_slotServed {run : AmacRun} {n i : Nat} (hn : n < 4)
    (hmask : run.job.f.amask = BitVec.ofNat 4 (2 ^ n)) (hstarted : run.started = true)
    (hecc : ((s.core c).arr n).ecc = []) :
    let f := run.job.f
    let row := s.slotRow c run
    let col := (row.2.feed c (n + 1) f.kb.toNat run.knext false (kIdx f.ka.toNat f.kb.toNat run.knext)).1
    let v := (Tab.look (fun _ => 0) ((s.core c).arr n).elem (1024 * f.tile.toNat + i)).toInt
      + align (cellProd (f.neg == 1) (cellVec f.ka.toNat f.kb.toNat row.1.vals).1
          (cellVec f.kb.toNat f.ka.toNat col.vals).1 (i / 32) (i % 32))
        (row.1.scale + col.scale) (((s.core c).arr n).scale f.tile.toNat)
    row.1.valid = true → col.valid = true → i < 1024 →
      Tab.look (fun _ => 0) (((s.slotServed c run).core c).arr n).elem (1024 * f.tile.toNat + i)
        = BitVec.ofInt 32 (if f.ovf = 1 then wrapw v 32 else satw v 32) := by
  intro f row col v hrow hcol hi
  rw [State.arr_slotServed hn hmask hstarted hecc hrow hcol, ArrayRec.look_addSlot _ _ _ _ hi, ovfw_fst]

/-- What work on a tile of some arrays leaves alone, read off its view. -/
theorem CoreSt.offTile_rules {m : BitVec 4} {t : Nat} {x y : CoreSt} (h : y.offTile m t = x.offTile m t) :
    y.sregs = x.sregs ∧ y.quad = x.quad ∧ (∀ n, m.getLsbD n = false → y.arr n = x.arr n)
      ∧ ∀ n e, e / 1024 ≠ t → Tab.look (fun _ => 0) (y.arr n).elem e = Tab.look (fun _ => 0) (x.arr n).elem e := by
  simp only [CoreSt.offTile, Prod.mk.injEq] at h
  obtain ⟨hsregs, hquad, harr, helem⟩ := h
  refine ⟨hsregs, hquad, fun n hn => ?_, fun n e he => ?_⟩
  · simpa [hn] using congrFun harr n
  · have hlook := congrFun (congrFun helem n) e
    rw [if_neg he, if_neg he] at hlook
    exact Option.some.inj hlook

/-- The waiting drain does not start in a stopped quad, nor before an AMAC on its tile (R110, R127). -/
theorem State.drainStart_of_blocked {d : DrainJob} (hd : (s.core c).quad.drain = some d)
    (h : (s.core c).quad.stopped = true ∨ (s.core c).switching = true
      ∨ (s.core c).quad.amacBlocks d = true) : s.drainStart c = s := by
  simp only [State.drainStart, hd]
  exact if_pos h

theorem State.drainStart_of_free {d : DrainJob} (hd : (s.core c).quad.drain = some d)
    (hstop : (s.core c).quad.stopped = false) (hswitch : (s.core c).switching = false)
    (hblock : (s.core c).quad.amacBlocks d = false) : s.drainStart c = s.runDrain c d := by
  simp only [State.drainStart, hd]
  exact if_neg (by simp [hstop, hswitch, hblock])

@[simp] theorem CoreSt.drainDone_drain (x : CoreSt) : x.drainDone.quad.drain = none := rfl

@[simp] theorem CoreSt.drainDone_spad (x : CoreSt) : x.drainDone.spad = x.spad := rfl

@[simp] theorem CoreSt.drainDone_ocache (x : CoreSt) : x.drainDone.ocache = x.ocache := rfl

@[simp] theorem CoreSt.drainDone_arr (x : CoreSt) (n : Nat) : x.drainDone.arr n = x.arr n := rfl

theorem State.runDrain_astt {d : DrainJob} {g : FmtTileMove} (h : decodeArr d.word = .astt g) :
    s.runDrain c d
      = (s.runAstt c d.sreg.toNat g.tile.toNat (masked g.amask)).modCore c CoreSt.drainDone := by
  obtain rfl := decodeArr_tileMove (.inl h)
  rw [State.runDrain, h]

theorem State.runDrain_adrw {d : DrainJob} {g : FmtTileMove} (h : decodeArr d.word = .adrw g) :
    s.runDrain c d
      = (s.runAdrw c d.sreg.toNat g.tile.toNat (masked g.amask)).modCore c CoreSt.drainDone := by
  obtain rfl := decodeArr_tileMove (.inr (.inl h))
  rw [State.runDrain, h]

theorem State.runDrain_aldt {d : DrainJob} {g : FmtTileMove} (h : decodeArr d.word = .aldt g) :
    s.runDrain c d
      = (s.runAldt c d.sreg.toNat g.tile.toNat (masked g.amask)).modCore c CoreSt.drainDone := by
  obtain rfl := decodeArr_tileMove (.inr (.inr h))
  rw [State.runDrain, h]

theorem State.runDrain_adrq {d : DrainJob} {g : FmtAdrq} (h : decodeArr d.word = .adrq g) :
    s.runDrain c d = s.runAdrq c g d := by rw [State.runDrain, h]

end Clauses

/-- Settles O24: a slot taken is the feeders' service, which leaves the arrays alone, and each selected
array's sum; a drain of one array is what its operation writes, and every drain keeps the AMAC in progress. -/
theorem arrayWorkAccumulatesAndDrains : Obligations.ArrayWorkAccumulatesAndDrains := by
  unfold Obligations.ArrayWorkAccumulatesAndDrains
  constructor
  · intro c s run x f hrun hstop hswitch hblock
    refine ⟨fun hmissing => ?_, fun hready => ⟨_, exec_amacSlot c s, ?_⟩⟩
    · rw [exec_amacSlot, State.amacSlot_of_missing hrun hstop hswitch hblock hmissing]
    · have hserved := Keeps.slotServed s c run
      obtain ⟨hsregs, hquad, harr, helem⟩ := CoreSt.offTile_rules hserved.core
      obtain ⟨hnext, hlast, hdrain⟩ := x.quad.slotDone_rules run
      rw [State.amacSlot_of_ready hrun hstop hswitch hblock hready]
      simp only [State.core_modCore, CoreSt.slotDone_quad, CoreSt.slotDone_sregs, CoreSt.slotDone_arr, hquad]
      refine ⟨hnext, hlast, hdrain, hsregs, fun e he => ?_, hserved.mem, fun n _ => harr n,
        fun n _ => helem n, fun n hn hmask hstarted hecc hrow hcol i hi old hold => ?_⟩
      · rw [State.core_modCore_ne _ _ _ (Ne.symm he), hserved.others e he]
      · subst hold
        exact State.look_slotServed hn hmask hstarted hecc hrow hcol hi
  · intro c s d x f a byte hd
    refine ⟨fun hblocked => ?_, fun hstop hswitch hblock => ⟨_, exec_drainStart c s, ?_⟩⟩
    · rw [exec_drainStart, State.drainStart_of_blocked hd hblocked]
    · have hdrained := Keeps.runDrain (c := c) s d
      rw [State.drainStart_of_free hd hstop hswitch hblock]
      refine ⟨hdrained.others, hdrained.mem, congrArg Prod.fst hdrained.core,
        congrArg Prod.snd hdrained.core, fun n hn hmask hecc => ?_⟩
      have hmasked : masked (FmtTileMove.dec d.word).amask = [n] := by rw [← masked_single hn, ← hmask]
      refine ⟨fun g hg => ?_, fun g hg => ?_, fun g hg hspad => ?_, fun g hg => ?_⟩
      · rw [State.runDrain_astt hg, State.core_modCore, CoreSt.drainDone_drain, CoreSt.drainDone_spad,
          decodeArr_tileMove (.inl hg), hmasked]
        exact ⟨rfl, fun i hi k hk => State.runAstt_single hecc a _ hi hk⟩
      · rw [State.runDrain_adrw hg, State.core_modCore, CoreSt.drainDone_drain, CoreSt.drainDone_spad,
          CoreSt.drainDone_ocache, decodeArr_tileMove (.inr (.inl hg)), hmasked]
        exact ⟨rfl, State.runAdrw_single_spad hecc a _,
          fun i hi k hk => State.runAdrw_single hn hecc a _ hi hk⟩
      · rw [State.runDrain_aldt hg, State.core_modCore, CoreSt.drainDone_drain, CoreSt.drainDone_spad,
          CoreSt.drainDone_arr, decodeArr_tileMove (.inr (.inr hg)), hmasked]
        exact ⟨rfl, State.runAldt_single hspad a _⟩
      · have hmaskedq : masked g.amask = [n] := by rw [decodeArr_adrq hg]; exact hmasked
        rw [State.runDrain_adrq hg]
        exact ⟨fun hfull => State.runAdrq_of_full d (by rw [hmaskedq]; exact hfull),
          fun hfree => State.runAdrq_single d hmaskedq hecc hfree⟩

end Sys2Proof.Machine
end

/-! ## The lifetime counters (O26) -/

section

namespace Sys2Proof.Machine

open Sys2Proof Sys2Proof.Claims

/-! ### Frames of registers and of one core, put together -/

theorem onlyRegs_refl (s : State) : OnlyRegs [] s s := ⟨fun _ _ => rfl, rfl⟩

theorem onlyRegs_trans {l m : List Nat} {s t u : State} (h : OnlyRegs l s t) (k : OnlyRegs m t u) :
    OnlyRegs (l ++ m) s u := by
  obtain ⟨hrd, hframe⟩ := h
  obtain ⟨krd, kframe⟩ := k
  refine ⟨fun o ho => ?_, ?_⟩
  · rw [List.mem_append, not_or] at ho
    rw [krd o ho.2, hrd o ho.1]
  · rw [kframe, hframe]

theorem onlyRegs_mono {l m : List Nat} {s t : State} (h : OnlyRegs l s t) (hlm : l ⊆ m) : OnlyRegs m s t :=
  ⟨fun o ho => h.1 o fun hl => ho (hlm hl), h.2⟩

theorem onlyRegs_wr (s : State) (o : Nat) (v : W32) : OnlyRegs [o] s (s.wr o v) :=
  ⟨fun _ hq => State.rd_wr_ne s o v fun h => hq (List.mem_singleton.2 h.symm), rfl⟩

theorem onlyRegs_setF (s : State) (f : Fld) (v : Nat) : OnlyRegs [f.off] s (s.setF f v) :=
  onlyRegs_wr s f.off _

theorem onlyCore_modCore (s : State) (c : Nat) (f : CoreSt → CoreSt) : OnlyCore c s (s.modCore c f) :=
  ⟨fun _ hd => State.core_modCore_ne s c f (Ne.symm hd), rfl⟩

/-! ### Fields -/

/-- A field that lies in its register reads as the value that was written, modulo its width. -/
theorem Fld.get_set (f : Fld) (w : W32) (v : Nat) (h : f.lo + f.width ≤ 32) :
    f.get (f.set w v) = v % 2 ^ f.width := by
  refine Nat.eq_of_testBit_eq fun i => ?_
  simp only [Fld.get, Fld.set, Fld.mask, Nat.testBit_mod_two_pow, Nat.testBit_div_two_pow,
    BitVec.testBit_toNat, BitVec.getLsbD_or, BitVec.getLsbD_and, BitVec.getLsbD_not, BitVec.getLsbD_ofNat,
    Nat.testBit_mul_two_pow, Nat.testBit_two_pow_sub_one]
  by_cases hi : i < f.width
  · simp [hi, show i + f.lo < 32 by omega]
  · simp [hi]

theorem State.getF_setF_same (s : State) (f : Fld) (v : Nat) (h : f.lo + f.width ≤ 32) :
    (s.setF f v).getF f = v % 2 ^ f.width := by
  rw [State.getF, State.rd_setF_same, Fld.get_set f _ v h]

theorem State.getF_of_rd_eq {s t : State} {f : Fld} (h : t.rd f.off = s.rd f.off) : t.getF f = s.getF f := by
  rw [State.getF, h, State.getF]

theorem State.bitF_setB_same (s : State) (f : Fld) (b : Bool) (h : f.lo + f.width ≤ 32) (hw : f.width = 1) :
    (s.setB f b).bitF f = b := by
  rw [State.bitF, State.setB, State.getF_setF_same s f _ h, hw]
  cases b <;> rfl

/-! ### Registers and fields set to 0 one after another -/

/-- The registers of a list at 0. -/
def State.zeroRegs (s : State) (l : List Nat) : State := l.foldl (fun t o => t.wr o 0) s

/-- The fields of a list at 0. -/
def State.zeroFields (s : State) (l : List Fld) : State := l.foldl (fun t f => t.setF f 0) s

theorem State.zeroRegs_cons (s : State) (o : Nat) (l : List Nat) :
    s.zeroRegs (o :: l) = (s.wr o 0).zeroRegs l := rfl

theorem State.rd_zeroRegs (l : List Nat) (o : Nat) :
    ∀ s : State, (s.zeroRegs l).rd o = if o ∈ l then 0 else s.rd o := by
  induction l with
  | nil => intro s; rfl
  | cons p l ih =>
    intro s
    rw [State.zeroRegs_cons, ih, State.rd_wr]
    by_cases hl : o ∈ l
    · rw [if_pos hl, if_pos (List.mem_cons_of_mem p hl)]
    · simp only [List.mem_cons, hl, or_false, if_false, eq_comm (a := o)]

theorem State.rd_zeroRegs_mem {l : List Nat} {o : Nat} (h : o ∈ l) (s : State) : (s.zeroRegs l).rd o = 0 := by
  rw [State.rd_zeroRegs, if_pos h]

theorem onlyRegs_zeroRegs (l : List Nat) : ∀ s : State, OnlyRegs l s (s.zeroRegs l) := by
  induction l with
  | nil => exact onlyRegs_refl
  | cons p l ih => exact fun s => onlyRegs_trans (onlyRegs_wr s p 0) (ih _)

theorem onlyRegs_zeroFields (l : List Fld) : ∀ s : State, OnlyRegs (l.map (·.off)) s (s.zeroFields l) := by
  induction l with
  | nil => exact onlyRegs_refl
  | cons f l ih => exact fun s => onlyRegs_trans (onlyRegs_setF s f 0) (ih _)

/-- Each field of the list reads as 0 when each lies in its register and no two share one. -/
theorem State.getF_zeroFields (l : List Fld) {f : Fld} (hlie : ∀ g ∈ l, g.lo + g.width ≤ 32)
    (hdiff : (l.map (·.off)).Nodup) : ∀ s : State, f ∈ l → (s.zeroFields l).getF f = 0 := by
  induction l with
  | nil => exact fun s hf => absurd hf List.not_mem_nil
  | cons g l ih =>
    intro s hf
    rw [List.map_cons, List.nodup_cons] at hdiff
    rcases List.mem_cons.1 hf with rfl | hf
    · have hkept : (s.zeroFields (f :: l)).getF f = (s.setF f 0).getF f :=
        State.getF_of_rd_eq ((onlyRegs_zeroFields l _).1 _ hdiff.1)
      rw [hkept, State.getF_setF_same s f 0 (hlie f List.mem_cons_self), Nat.zero_mod]
    · exact ih (fun k hk => hlie k (List.mem_cons_of_mem g hk)) hdiff.2 _ hf

/-- Consecutive registers cleared are the registers of their addresses set to 0. -/
theorem State.clearRegs_eq_zeroRegs (st n : Nat) : ∀ (s : State) (off : Nat),
    s.clearRegs off st n = s.zeroRegs ((List.range n).map (off + st * ·)) := by
  induction n with
  | zero => intro s off; rfl
  | succ n ih =>
    intro s off
    rw [State.clearRegs, ih, List.range_succ_eq_map, List.map_cons, List.map_map]
    have haddr : ∀ k, off + st + st * k = off + st * (k + 1) := fun k => by ring
    simp only [haddr]
    rfl

/-! ### The counters of each block -/

/-- The arrays' counters cleared: each array's own are (R120). -/
theorem CoreSt.arr_arraysClr (x : CoreSt) (n : Nat) : x.arraysClr.arr n = (x.arr n).clrcnt := by
  have hfind : ∀ l : Tab ArrayRec, Tab.look (fun _ => ArrayRec.reset) (l.map fun a => (a.1, a.2.clrcnt)) n
      = (Tab.look (fun _ => ArrayRec.reset) l n).clrcnt := fun l => by
    induction l with
    | nil => rfl
    | cons a l ih =>
      rw [List.map_cons, Tab.look_cons, ih, Tab.look_cons, apply_ite ArrayRec.clrcnt]
  exact hfind x.arrays

/-- The counters of the eight stacks (R393). -/
def memCounters : List Nat :=
  (List.range 8).flatMap fun d => [rMemEcc d, rMemBedone d, rMemBerej d, rMemSat d]

/-- The counters of some Mule tables (R572). -/
def mulCounters (l : List Nat) : List Nat :=
  l.flatMap fun n => [rMulDrop n, rMulLost n, rMulLate n, rMulBad n]

/-- The lifetime counters of the ERR block that fill a register (R738). -/
def errCounters : List Nat := rErrSdcnt :: (List.range 21).map rErrClasscnt

theorem State.memClrAll_eq (s : State) : s.memClrAll = s.zeroRegs memCounters := by
  have hstack : ∀ (t : State) (d : Nat),
      t.memClr d = t.zeroRegs [rMemEcc d, rMemBedone d, rMemBerej d, rMemSat d] := fun _ _ => rfl
  simp only [State.memClrAll, hstack, State.zeroRegs, memCounters, List.foldl_flatMap]

theorem State.xltClr_eq (s : State) : s.xltClr = s.zeroRegs [rXltMisscnt, rXltFltcnt, rXltAbandon] := rfl

theorem State.dmaClr_eq (s : State) :
    s.dmaClr = s.zeroRegs (rDmaSattot :: rDmaDomtot :: (List.range 16).map rDmaChDone) := by
  have haddr : (rDmaChDone 0 + 64 * ·) = rDmaChDone := funext fun n => by simp [rDmaChDone]
  rw [State.dmaClr, State.clearRegs_eq_zeroRegs, haddr, State.zeroRegs_cons, State.zeroRegs_cons]

theorem State.hrdClr_eq (s : State) : s.hrdClr = s.zeroRegs [rHrdSattot, rHrdIncomp, rHrdStale] := rfl

theorem State.mulClrTabs_eq (l : List Nat) : ∀ s : State, s.mulClrTabs l = s.zeroRegs (mulCounters l) := by
  induction l with
  | nil => exact fun _ => rfl
  | cons n l ih => exact fun s => ih _

theorem State.bwtClr_eq (s : State) : s.bwtClr
    = s.zeroRegs [rBwtCommits, rBwtSkips, rBwtHolds, rBwtHalts, rBwtMiss, rBwtListlate] := rfl

theorem State.savClr_eq (s : State) : s.savClr
    = (s.zeroRegs [rSavHoldcnt, rSavReread]).zeroFields ((List.range 4).map fSavDrvStatStray) := rfl

theorem State.pwrClr_eq (s : State) : s.pwrClr
    = (s.zeroRegs [rPwrHeldw, rPwrHelde]).zeroFields ((List.range 4).map fPwrOptStatTrips) := rfl

theorem State.errClr_eq (s : State) : s.errClr
    = ((s.zeroRegs [rErrLost]).zeroFields [fErrSdstatQfull]).zeroRegs errCounters := by
  have haddr : (rErrClasscnt 0 + 4 * ·) = rErrClasscnt := funext fun n => by simp [rErrClasscnt]
  rw [State.errClr, State.clearRegs_eq_zeroRegs, haddr, errCounters, State.zeroRegs_cons]
  rfl

/-- A write of ERR_CTL with CLRCNT set, and CLRLOG clear, clears the counters alone. -/
theorem State.errCtl_clrcnt (s : State) {v : W32} (h : v.getLsbD 1 = false) :
    s.errCtl (v ||| 1) = s.errClr := by
  have hlog : (v ||| 1).getLsbD 1 = false := by rw [BitVec.getLsbD_or, h]; rfl
  rw [State.errCtl, getLsbD_or_one, hlog]
  rfl

/-- The command of a register write by Jusia or PF0 does what the write does (R675). -/
theorem next_bar0_of_reach {r : Requester} (hr : r = .jusia ∨ r = .pf0) (s : State) (k : State → State) :
    (.next (s.bar0 r k) : Host.Outcome State Fault Refusal) = .next (k s) := by
  rw [State.bar0_of_reach hr]

/-! ### The clauses -/

/-- Registers at 0, then fields at 0 in other registers: both read as 0, and no other register changes. -/
theorem State.zeroRegs_zeroFields_rules (s : State) (l : List Nat) (m : List Fld)
    (hlie : ∀ g ∈ m, g.lo + g.width ≤ 32) (hdiff : (l ++ m.map (·.off)).Nodup) :
    OnlyRegs (l ++ m.map (·.off)) s ((s.zeroRegs l).zeroFields m)
      ∧ (∀ o ∈ l, ((s.zeroRegs l).zeroFields m).rd o = 0)
      ∧ (∀ f ∈ m, ((s.zeroRegs l).zeroFields m).getF f = 0) := by
  obtain ⟨_, hm, hdisj⟩ := List.nodup_append'.1 hdiff
  refine ⟨onlyRegs_trans (onlyRegs_zeroRegs l s) (onlyRegs_zeroFields m _), fun o ho => ?_,
    fun f hf => State.getF_zeroFields m hlie hm _ hf⟩
  rw [(onlyRegs_zeroFields m _).1 o (hdisj ho), State.rd_zeroRegs_mem ho]

/-- What MEM_CTL.CLRCNT leaves (R393). -/
theorem State.memClrcnt_rules (s : State) (b : Bool) :
    let t := s.memClrAll.setB fMemCtlScruben b
    (∀ o ∈ memCounters, t.rd o = 0) ∧ t.bitF fMemCtlScruben = b ∧ OnlyRegs (rMemCtl :: memCounters) s t := by
  have hctl : rMemCtl ∉ memCounters := by decide
  refine ⟨fun o ho => ?_, State.bitF_setB_same _ _ b (by decide) rfl, ?_⟩
  · have hne : fMemCtlScruben.off ≠ o := by rintro rfl; exact hctl ho
    rw [State.rd_setB_ne _ _ _ hne, State.memClrAll_eq, State.rd_zeroRegs_mem ho]
  · rw [State.memClrAll_eq]
    refine onlyRegs_mono (onlyRegs_trans (onlyRegs_zeroRegs memCounters s) (onlyRegs_setF _ fMemCtlScruben _)) ?_
    exact List.append_subset.2 ⟨List.subset_cons_self _ _, List.cons_subset.2 ⟨List.mem_cons_self, List.nil_subset _⟩⟩

/-- What XLT_CTL.CLRCNT leaves (R442). -/
theorem State.xltClrcnt_rules (s : State) (v : W32) :
    let t := (s.store rXltCtl v).xltClr
    (∀ o ∈ [rXltMisscnt, rXltFltcnt, rXltAbandon], t.rd o = 0)
      ∧ t.rd rXltCtl = regStored rXltCtl (s.rd rXltCtl) v
      ∧ OnlyRegs [rXltCtl, rXltMisscnt, rXltFltcnt, rXltAbandon] s t := by
  have hctl : rXltCtl ∉ [rXltMisscnt, rXltFltcnt, rXltAbandon] := by decide
  rw [State.xltClr_eq]
  refine ⟨fun o ho => State.rd_zeroRegs_mem ho _, ?_, 
    onlyRegs_trans (onlyRegs_store s rXltCtl v) (onlyRegs_zeroRegs _ _)⟩
  rw [(onlyRegs_zeroRegs _ _).1 _ hctl, State.rd_store_same]

/-- What ERR_CTL.CLRCNT leaves (R738). -/
theorem State.errClr_rules (s : State) :
    s.errClr.rd rErrLost = 0 ∧ s.errClr.getF fErrSdstatQfull = 0 ∧ (∀ o ∈ errCounters, s.errClr.rd o = 0)
      ∧ OnlyRegs (rErrLost :: rErrSdstat :: errCounters) s s.errClr := by
  obtain ⟨honly, hreg, hfld⟩ := s.zeroRegs_zeroFields_rules [rErrLost] [fErrSdstatQfull] (by decide) (by decide)
  have hlost : rErrLost ∉ errCounters := by decide
  have hsdstat : fErrSdstatQfull.off ∉ errCounters := by decide
  have hkept := onlyRegs_zeroRegs errCounters ((s.zeroRegs [rErrLost]).zeroFields [fErrSdstatQfull])
  rw [State.errClr_eq]
  refine ⟨?_, ?_, fun o ho => State.rd_zeroRegs_mem ho _, onlyRegs_trans honly hkept⟩
  · rw [hkept.1 _ hlost, hreg _ List.mem_cons_self]
  · rw [State.getF_of_rd_eq (hkept.1 _ hsdstat), hfld _ List.mem_cons_self]

/-- Settles O26: each block's CLRCNT sets a list of registers and fields to 0, and changes no other. -/
theorem clrcntClearsLifetimeCounters : Obligations.ClrcntClearsLifetimeCounters := by
  unfold Obligations.ClrcntClearsLifetimeCounters
  intro r c v s hr
  have hmem (d : Nat) (hd : d < 8) (o : Nat) (ho : o ∈ [rMemEcc d, rMemBedone d, rMemBerej d, rMemSat d]) :
      o ∈ memCounters := List.mem_flatMap.2 ⟨d, List.mem_range.2 hd, ho⟩
  have hmul (n : Nat) (hn : n < 16) (o : Nat) (ho : o ∈ [rMulDrop n, rMulLost n, rMulLate n, rMulBad n]) :
      o ∈ mulCounters (List.range 16) := List.mem_flatMap.2 ⟨n, List.mem_range.2 hn, ho⟩
  have hfield {f : Nat → Fld} (n : Nat) (hn : n < 4) : f n ∈ (List.range 4).map f :=
    List.mem_map_of_mem (List.mem_range.2 hn)
  refine ⟨⟨_, next_bar0_of_reach hr s fun s => s.modCore c CoreSt.arraysClr, onlyCore_modCore .., ?_, ?_⟩,
    ⟨_, next_bar0_of_reach hr s fun s => s.modCore c CoreSt.vecClr, onlyCore_modCore .., State.core_modCore ..⟩,
    ⟨_, next_bar0_of_reach hr s fun s => s.memClrAll.setB fMemCtlScruben (v.getLsbD 1), ?_⟩,
    ⟨_, next_bar0_of_reach hr s fun s => (s.store rXltCtl v).xltClr, ?_⟩,
    ⟨_, next_bar0_of_reach hr s State.dmaClr, ?_⟩,
    ⟨_, next_bar0_of_reach hr s State.hrdClr, ?_⟩,
    ⟨_, next_bar0_of_reach hr s fun s => s.mulClrTabs (List.range 16), ?_⟩,
    ⟨_, next_bar0_of_reach hr s State.bwtClr, ?_⟩,
    ⟨_, next_bar0_of_reach hr s State.savClr, ?_⟩,
    ⟨_, next_bar0_of_reach hr s State.pwrClr, ?_⟩,
    fun hclrlog => ⟨_, next_bar0_of_reach hr s fun s => s.errCtl (v ||| 1), ?_⟩⟩
  · intro n
    rw [State.core_modCore, CoreSt.arr_arraysClr]
    exact ⟨rfl, rfl, rfl, rfl, rfl, rfl⟩
  · rw [State.core_modCore]; rfl
  · obtain ⟨hzero, hscrub, honly⟩ := s.memClrcnt_rules (v.getLsbD 1)
    exact ⟨fun d hd => ⟨hzero _ (hmem d hd _ (by simp)), hzero _ (hmem d hd _ (by simp)),
      hzero _ (hmem d hd _ (by simp)), hzero _ (hmem d hd _ (by simp))⟩, hscrub, honly⟩
  · obtain ⟨hzero, hctl, honly⟩ := s.xltClrcnt_rules v
    exact ⟨hzero _ (by simp), hzero _ (by simp), hzero _ (by simp), hctl, honly⟩
  · rw [State.dmaClr_eq]
    refine ⟨State.rd_zeroRegs_mem (by simp) s, State.rd_zeroRegs_mem (by simp) s, fun n hn => ?_,
      onlyRegs_zeroRegs _ s⟩
    exact State.rd_zeroRegs_mem (by simp [List.mem_map_of_mem (List.mem_range.2 hn)]) s
  · rw [State.hrdClr_eq]
    exact ⟨State.rd_zeroRegs_mem (by simp) s, State.rd_zeroRegs_mem (by simp) s,
      State.rd_zeroRegs_mem (by simp) s, onlyRegs_zeroRegs _ s⟩
  · rw [State.mulClrTabs_eq]
    have hzero (n : Nat) (hn : n < 16) (o : Nat) (ho : o ∈ [rMulDrop n, rMulLost n, rMulLate n, rMulBad n]) :=
      State.rd_zeroRegs_mem (hmul n hn o ho) s
    exact ⟨fun n hn => ⟨hzero n hn _ (by simp), hzero n hn _ (by simp), hzero n hn _ (by simp),
      hzero n hn _ (by simp)⟩, onlyRegs_zeroRegs _ s⟩
  · rw [State.bwtClr_eq]
    exact ⟨State.rd_zeroRegs_mem (by simp) s, State.rd_zeroRegs_mem (by simp) s,
      State.rd_zeroRegs_mem (by simp) s, State.rd_zeroRegs_mem (by simp) s,
      State.rd_zeroRegs_mem (by simp) s, State.rd_zeroRegs_mem (by simp) s, onlyRegs_zeroRegs _ s⟩
  · obtain ⟨honly, hreg, hfld⟩ := s.zeroRegs_zeroFields_rules [rSavHoldcnt, rSavReread]
      ((List.range 4).map fSavDrvStatStray) (by decide) (by decide)
    exact ⟨hreg _ (by simp), hreg _ (by simp), fun n hn => hfld _ (hfield n hn), honly⟩
  · obtain ⟨honly, hreg, hfld⟩ := s.zeroRegs_zeroFields_rules [rPwrHeldw, rPwrHelde]
      ((List.range 4).map fPwrOptStatTrips) (by decide) (by decide)
    exact ⟨hreg _ (by simp), hreg _ (by simp), fun n hn => hfld _ (hfield n hn), honly⟩
  · rw [State.errCtl_clrcnt s hclrlog]
    obtain ⟨hlost, hfull, hzero, honly⟩ := s.errClr_rules
    exact ⟨hlost, hfull, hzero _ (by simp [errCounters]), fun n hn => hzero _
      (List.mem_cons_of_mem _ (List.mem_map_of_mem (List.mem_range.2 hn))), honly⟩

end Sys2Proof.Machine
end

/-! ## Operations of the array slot (O11) -/

section

namespace Sys2Proof.Machine

open Sys2Proof Sys2Proof.Claims

/-! ### The issue of a bundle -/

/-- A command that names a bundle issues it at its core (R226): one case for each command. -/
theorem exec_of_bundleOf {i : Instr} {c : Core} {b : Bundle} (h : bundleOf i = some (c, b)) (s : State) :
    exec i s = .next (s.issue c b) := by
  cases i <;> cases h <;> rfl

/-- Nothing is due at the boundary before a bundle that issues (R208). -/
theorem State.due_of_issues {s : State} {c : Nat} {b : Bundle} (h : Issues s c b) : s.due c b = .go := by
  obtain ⟨_, hpend, hbkpt, hecc, hholds, hill, hprot⟩ := h
  have hfence : (s.core c).fence.isSome = false := by
    simp only [CoreSt.holds, List.append_eq_nil_iff] at hholds
    simpa using hholds.2
  have hblocked : (s.core c).blocked b = [] := by simp [CoreSt.blocked, hfence, hholds]
  have hpreempt : (s.core c).excPreempt = none := by rw [CoreSt.excPreempt, hpend]; rfl
  have hasync : s.excAsync c = none := by simp [State.excAsync, hpend, PendExc.none, hbkpt]
  have hsync : s.excSync c b = none := by simp [State.excSync, hill, hprot]
  simp only [State.due, hpreempt, hecc, hasync, hblocked, hsync]

/-- A bundle that issues is performed. -/
theorem State.issue_of_issues {s : State} {c : Nat} {b : Bundle} (h : Issues s c b) :
    s.issue c b = s.perform c b := by
  obtain ⟨hstopped, hswitching, hbare, hcfg⟩ := h.1
  have hprogram : (s.core c).cfg.isNone = false := by simpa [Option.isSome_iff_ne_none] using hcfg
  simp only [State.issue, hstopped, hswitching, hbare, hprogram, State.due_of_issues h, Bool.false_eq_true,
    or_false, if_false]

/-- A bundle that issues finds the queue of its array operation free (R102, R109). -/
theorem CoreSt.arrHold_of_issues {s : State} {c : Nat} {b : Bundle} (h : Issues s c b) :
    (s.core c).arrHold b.arr = false := by
  obtain ⟨_, _, _, _, hholds, _⟩ := h
  simp only [CoreSt.holds, List.append_eq_nil_iff] at hholds
  simpa using hholds.1.1.1.1

/-! ### What the slots but the array slot keep of the quad and the arrays -/

/-- The quad and the arrays: what the array slot alone changes at an issue. -/
def CoreSt.arrayWork (x : CoreSt) : Quad × Tab ArrayRec := (x.quad, x.arrays)

@[simp] theorem CoreSt.arrayWork_setS (x : CoreSt) (n : BitVec 5) (v : W32) :
    (x.setS n v).arrayWork = x.arrayWork := by
  unfold CoreSt.setS
  split <;> rfl

@[simp] theorem CoreSt.arrayWork_setM (x : CoreSt) (n : BitVec 3) (v : W64) :
    (x.setM n v).arrayWork = x.arrayWork := by
  unfold CoreSt.setM
  split <;> rfl

@[simp] theorem CoreSt.arrayWork_seqNext (y x : CoreSt) (rnd : BitVec 1) (n : Nat) :
    (y.seqNext x rnd n).arrayWork = y.arrayWork := by
  unfold CoreSt.seqNext
  split <;> rfl

/-! #### The sequencer -/

theorem CoreSt.arrayWork_loopTest (l : List Nat) :
    ∀ x : CoreSt, (x.loopTest l).1.arrayWork = x.arrayWork := by
  induction l with
  | nil => exact fun _ => rfl
  | cons n l ih =>
    intro x
    unfold CoreSt.loopTest
    split_ifs
    · rfl
    · exact ih _
    · rfl
    · exact ih x

theorem CoreSt.arrayWork_leave (tgt : Nat) (l : List Nat) :
    ∀ x : CoreSt, (x.leave tgt l).arrayWork = x.arrayWork := by
  induction l with
  | nil => exact fun _ => rfl
  | cons n l ih =>
    intro x
    unfold CoreSt.leave
    split_ifs
    · exact ih _
    · exact ih x

theorem CoreSt.arrayWork_feedersToBase (l : List Nat) :
    ∀ x : CoreSt, (x.feedersToBase l).arrayWork = x.arrayWork := by
  induction l with
  | nil => exact fun _ => rfl
  | cons f l ih =>
    intro x
    unfold CoreSt.feedersToBase
    split
    · split_ifs
      · exact ih x
      · exact ih _
    · exact ih x

theorem CoreSt.arrayWork_shadow (x : CoreSt) : x.shadow.arrayWork = x.arrayWork := by
  unfold CoreSt.shadow
  split_ifs
  · rfl
  · exact CoreSt.arrayWork_feedersToBase _ _
  · rfl

theorem CoreSt.arrayWork_advance (x x0 : CoreSt) (op : CtlOp) :
    (x.advance x0 op).arrayWork = x.arrayWork := by
  unfold CoreSt.advance
  extract_lets t t2 t3 y z
  have ht : t.1.arrayWork = x.arrayWork := by
    unfold t
    split_ifs
    · rfl
    · exact CoreSt.arrayWork_loopTest _ x
  have ht2 : t2.1.arrayWork = t.1.arrayWork := by
    unfold t2
    split
    · split_ifs
      · exact CoreSt.arrayWork_leave _ _ t.1
      · rfl
    · rfl
  have ht3 : t3.1.arrayWork = t2.1.arrayWork := by
    unfold t3
    split
    · split_ifs <;> rfl
    · rfl
  have hz : z.arrayWork = y.arrayWork := by
    unfold z
    split <;> rfl
  calc z.arrayWork = y.arrayWork := hz
    _ = t3.1.arrayWork := CoreSt.arrayWork_shadow t3.1
    _ = x.arrayWork := by rw [ht3, ht2, ht]

theorem CoreSt.arrayWork_issued (y x : CoreSt) (op : CtlOp) : (y.issued x op).arrayWork = y.arrayWork :=
  CoreSt.arrayWork_advance y x op

section Slots

variable {c : Nat}

theorem Keeps.trans_sameCores {β : Type} {view : CoreSt → β} {s t u : State} (h : Keeps view c s t)
    (k : SameCores t u) : Keeps view c s u := h.trans k.keeps

/-! #### The control slot -/

theorem sameCores_doneMeaning (s : State) (code : Byte) : SameCores s (s.doneMeaning c code) := by
  unfold State.doneMeaning
  split_ifs
  · exact .refl s
  · unfold State.gateDone
    dsimp only
    split_ifs
    · exact ⟨rfl, rfl⟩
    · exact .refl s
  all_goals exact ⟨rfl, rfl⟩

theorem sameCores_setDieColl (s : State) (d : Nat) (x : DieColl) :
    SameCores s (s.setDieColl d x) := ⟨rfl, rfl⟩

theorem Keeps.arrayWork_post (s : State) (code : Byte) : Keeps CoreSt.arrayWork c s (s.post c code) := by
  unfold State.post
  dsimp only
  split
  · exact Keeps.setCore rfl
  · refine Keeps.trans_sameCores (Keeps.trans_sameCores (Keeps.setCore ?_) (sameCores_setDieColl ..))
      (LogFrame.log _ _).sameCores
    rfl

theorem Keeps.arrayWork_spadRead (s : State) (a n : Nat) : Keeps CoreSt.arrayWork c s (s.spadRead c a n).2 :=
  Keeps.of_setCore (sameCores_spadRead ..) rfl

theorem Keeps.arrayWork_spadWrite (s : State) (a : Nat) (l : List Byte) :
    Keeps CoreSt.arrayWork c s (s.spadWrite c a l) := Keeps.of_setCore (sameCores_spadWrite ..) rfl

theorem Keeps.arrayWork_ctlEff (s : State) (x : CoreSt) (op : CtlOp) :
    Keeps CoreSt.arrayWork c s (s.ctlEff c x op) := by
  cases op with
  | sld f => exact (Keeps.arrayWork_spadRead ..).trans (Keeps.modCore fun y => CoreSt.arrayWork_setS ..)
  | sst f => exact Keeps.arrayWork_spadWrite ..
  | done f => exact (Keeps.arrayWork_post s f.code).trans (sameCores_doneMeaning ..).keeps
  | mask o f => exact Keeps.modCore fun y => CoreSt.arrayWork_setM ..
  | mfill f => exact Keeps.modCore fun y => CoreSt.arrayWork_setM ..
  | waitcal | brk =>
    rw [State.ctlEff]
    exact Keeps.modCore fun y => rfl
  | alu | smfs | mpop | sli | slui => exact Keeps.modCore fun y => CoreSt.arrayWork_setS ..
  | cnop | br | bmany | bmnone | loop | setmode | fence | undef => exact Keeps.refl s

/-! #### The vector slot -/

theorem Keeps.arrayWork_laneEff (s : State) (x : CoreSt) (o : LaneOp) (f : FmtL) :
    Keeps CoreSt.arrayWork c s (s.laneEff c x o f) := by
  unfold State.laneEff
  split
  · exact Keeps.modCore fun y => CoreSt.arrayWork_setM ..
  · extract_lets rs d
    clear_value rs d
    refine Keeps.modCore fun y => ?_
    extract_lets z
    have hz : z.arrayWork = y.arrayWork := CoreSt.arrayWork_seqNext ..
    split_ifs
    · exact hz
    · exact hz

theorem sameCores_ocReport (s : State) (fixed bad : List Nat) :
    SameCores s ((s.corrWords c 4 fixed).logWords c 4 bad) :=
  ((LogFrame.corrWords c 4 _ s).trans (LogFrame.logWords c 4 _ _)).sameCores

theorem Keeps.arrayWork_loadEff (s : State) (x : CoreSt) (o : MemOp) (f : FmtVM) :
    Keeps CoreSt.arrayWork c s (s.loadEff c x o f) := by
  unfold State.loadEff
  extract_lets ws bad fixed d
  clear_value ws bad fixed d
  refine Keeps.trans_sameCores (Keeps.modCore ?_) (sameCores_ocReport ..)
  exact fun y => rfl

theorem Keeps.arrayWork_storeEff (s : State) (x : CoreSt) (o : MemOp) (f : FmtVM) :
    Keeps CoreSt.arrayWork c s (s.storeEff c x o f) := by
  unfold State.storeEff
  extract_lets act el bs ws part bad fixed
  clear_value act el bs ws part bad fixed
  refine Keeps.trans_sameCores (Keeps.modCore ?_) (sameCores_ocReport ..)
  exact fun y => rfl

theorem Keeps.arrayWork_ocRead (s : State) (a n : Nat) : Keeps CoreSt.arrayWork c s (s.ocRead c a n).2 :=
  Keeps.of_setCore (sameCores_ocReport ..) rfl

theorem Keeps.arrayWork_ocWrite (s : State) (a : Nat) (l : List Byte) :
    Keeps CoreSt.arrayWork c s (s.ocWrite c a l) := by
  obtain ⟨_, _, h⟩ := sameCores_ocWrite s c a l
  exact Keeps.of_setCore h rfl

theorem Keeps.arrayWork_xfrEff (s : State) (x : CoreSt) (f : FmtXfr) :
    Keeps CoreSt.arrayWork c s (s.xfrEff c x f) := by
  unfold State.xfrEff
  dsimp only
  split_ifs
  · exact ((Keeps.arrayWork_spadRead ..).trans (Keeps.arrayWork_ocWrite ..)).trans
      (Keeps.modCore fun _ => rfl)
  · exact (Keeps.arrayWork_ocRead ..).trans (Keeps.arrayWork_spadWrite ..)

theorem Keeps.arrayWork_readClasses (base stride n : Nat) (l : List Nat) :
    ∀ s : State, Keeps CoreSt.arrayWork c s (s.readClasses c base stride n l).2 := by
  induction l with
  | nil => exact Keeps.refl
  | cons k l ih => exact fun s => ((Keeps.arrayWork_ocRead ..).trans (Keeps.arrayWork_ocRead ..)).trans (ih _)

theorem Keeps.arrayWork_tileArray (s : State) (x : CoreSt) (f : FmtVtile) (n tseq : Nat) :
    Keeps CoreSt.arrayWork c s (s.tileArray c x f n tseq) := by
  unfold State.tileArray
  extract_lets mode u cls st cb q sat p s1 s2 s3
  have hread : Keeps CoreSt.arrayWork c s u.2 := Keeps.arrayWork_readClasses ..
  have htiles : Keeps CoreSt.arrayWork c u.2 s2 := by
    unfold s2
    split_ifs
    · exact (Keeps.arrayWork_ocWrite ..).trans (Keeps.arrayWork_ocWrite ..)
    · exact Keeps.arrayWork_ocWrite ..
  have hdesc : Keeps CoreSt.arrayWork c s2 s3 :=
    (Keeps.arrayWork_ocWrite ..).trans (Keeps.arrayWork_ocWrite ..)
  exact ((hread.trans htiles).trans hdesc).trans (Keeps.modCore fun _ => rfl)

theorem Keeps.arrayWork_tileArrays (x : CoreSt) (f : FmtVtile) (l : List Nat) :
    ∀ (s : State) (tseq : Nat), Keeps CoreSt.arrayWork c s (s.tileArrays c x f tseq l) := by
  induction l with
  | nil => exact fun s _ => Keeps.refl s
  | cons n l ih => exact fun s tseq => (Keeps.arrayWork_tileArray s x f n tseq).trans (ih _ _)

theorem Keeps.arrayWork_vecEff (s : State) (x : CoreSt) (op : VecOp) :
    Keeps CoreSt.arrayWork c s (s.vecEff c x op) := by
  cases op with
  | lane o f => exact Keeps.arrayWork_laneEff s x o f
  | mem o f =>
    cases o with
    | vld | vldx => exact Keeps.arrayWork_loadEff s x _ f
    | vst | vstx => exact Keeps.arrayWork_storeEff s x _ f
  | vxfr f => exact Keeps.arrayWork_xfrEff s x f
  | vtile f =>
    exact (Keeps.arrayWork_tileArrays x f _ s _).trans (Keeps.modCore fun _ => CoreSt.arrayWork_seqNext ..)
  | rclr f =>
    rw [State.vecEff]
    refine Keeps.modCore fun y => ?_
    split_ifs <;> rfl
  | rget f => exact Keeps.modCore fun y => CoreSt.arrayWork_setS ..
  | rgetn f =>
    rw [State.vecEff]
    exact Keeps.modCore fun y => by rw [CoreSt.arrayWork_setS, CoreSt.arrayWork_setS]
  | vnop | undef => exact Keeps.refl s

/-! #### The stream slot, the fence and the fetch -/

theorem Keeps.arrayWork_popWord (s : State) (p : Nat) : Keeps CoreSt.arrayWork c s (s.popWord c p).2 := by
  unfold State.popWord
  dsimp only
  split
  · exact Keeps.refl s
  · exact Keeps.of_setCore ⟨rfl, rfl⟩ rfl

theorem Keeps.arrayWork_dropWords (s : State) (p : Nat) : Keeps CoreSt.arrayWork c s (s.dropWords c p) := by
  unfold State.dropWords
  dsimp only
  split
  · exact Keeps.refl s
  · exact Keeps.of_setCore (sameCores_creditsBack ..) rfl

theorem Keeps.arrayWork_strEff (s : State) (x : CoreSt) (op : StrOp) :
    Keeps CoreSt.arrayWork c s (s.strEff c x op) := by
  cases op with
  | srecv f =>
    have hpop := Keeps.arrayWork_popWord (c := c) s f.port.toNat
    unfold State.strEff
    dsimp only
    split
    next w t heq =>
      rw [heq] at hpop
      have hset : Keeps CoreSt.arrayWork c s (t.modCore c fun y => y.setV f.v w.data) :=
        hpop.trans (Keeps.modCore fun _ => rfl)
      split_ifs
      · exact hset.trans (LogFrame.incompFor _ c).sameCores.keeps
      · exact hset
    next t heq =>
      rw [heq] at hpop
      exact hpop
  | ssend f =>
    rw [State.strEff]
    exact Keeps.modCore fun _ => rfl
  | sdrop f => exact Keeps.arrayWork_dropWords s _
  | slevel f => exact Keeps.modCore fun _ => CoreSt.arrayWork_setS ..
  | snop | undef => exact Keeps.refl s

theorem Keeps.arrayWork_fenceEff (s : State) (x : CoreSt) (b : Bundle) :
    Keeps CoreSt.arrayWork c s (s.fenceEff c x b) := by
  unfold State.fenceEff
  split
  · unfold State.startFence
    split_ifs <;> exact Keeps.modCore fun _ => rfl
  · exact Keeps.refl s

/-- The fetch corrects codewords of the core and reports them; every other field of the core stays. -/
theorem State.core_fetchFix (s : State) (b : Bundle) : (s.fetchFix c b).core c
    = { (s.core c).fixRegs ((s.core c).readsOf b) with
        storeEcc := eccFixed (s.core c).storeEcc ((s.core c).storeIs (· == .single)) } := by
  rw [State.fetchFix, (LogFrame.corrWords c 1 _ _).sameCores.core, State.core_setCore]

end Slots

/-! ### The array slot -/

/-- The quad of a core after its array slot has acted (R97, R102, R109). -/
def CoreSt.quadAfter (x : CoreSt) (op : ArrOp) : Quad :=
  match op with
  | .amac f => x.quad.amac ⟨encodeArr op, x.sreg f.sreg, x.quad.order⟩
  | .adrq f => x.quad.drainIn (x.drainJob op f.sreg)
  | .adrw f | .aldt f | .astt f => x.quad.drainIn (x.drainJob op f.sreg)
  | .anop _ | .undef _ => x.quad

/-- The array slot acts on a quad that the control slot has left as it was. -/
theorem State.arrayWork_arrEff {s : State} {c : Nat} {x : CoreSt}
    (h : (s.core c).arrayWork = x.arrayWork) (op : ArrOp) :
    ((s.arrEff c x op).core c).arrayWork = (x.quadAfter op, x.arrays) := by
  obtain ⟨hquad, harrays⟩ := Prod.ext_iff.1 h
  change (s.core c).quad = x.quad at hquad
  change (s.core c).arrays = x.arrays at harrays
  cases op with
  | amac | adrq | adrw | aldt | astt =>
    rw [State.arrEff, State.core_modCore, CoreSt.arrayWork, hquad, harrays]; rfl
  | anop | undef => rw [State.arrEff, CoreSt.arrayWork, hquad, harrays]; rfl

/-- A bundle that is performed changes the quad by its array slot, and no array. -/
theorem State.arrayWork_perform (s : State) (c : Nat) (b : Bundle) :
    ((s.perform c b).core c).arrayWork = ((s.core c).quadAfter b.arr, (s.core c).arrays) := by
  unfold State.perform
  extract_lets s0 x
  have hx : (x.quadAfter b.arr, x.arrays) = ((s.core c).quadAfter b.arr, (s.core c).arrays) := by
    unfold x s0
    rw [State.core_fetchFix]
    rfl
  have hctl := (Keeps.arrayWork_ctlEff (c := c) s0 x b.ctl).core
  calc (((_ : State).modCore c _).core c).arrayWork
      = ((s0.ctlEff c x b.ctl).arrEff c x b.arr |>.core c).arrayWork := by
        rw [State.core_modCore, CoreSt.arrayWork_issued, (Keeps.arrayWork_fenceEff _ x b).core,
          (Keeps.arrayWork_strEff _ x b.str).core, (Keeps.arrayWork_vecEff _ x b.vec).core]
    _ = (x.quadAfter b.arr, x.arrays) := State.arrayWork_arrEff hctl b.arr
    _ = ((s.core c).quadAfter b.arr, (s.core c).arrays) := hx

/-- An AMAC starts when nothing is in progress, and waits behind the one that is (R102). -/
theorem Quad.amac_rules (q : Quad) (j : AmacJob) :
    (q.amac j).drain = q.drain ∧ (q.amac j).order = q.order + 1
      ∧ (q.run = none → (q.amac j).run = some ⟨j, 0, false⟩ ∧ (q.amac j).queued = q.queued)
      ∧ (q.run ≠ none → (q.amac j).run = q.run ∧ (q.amac j).queued = some j) := by
  cases hrun : q.run with
  | none => simp [Quad.amac, hrun]
  | some run => simp [Quad.amac, hrun]

/-- The operations of the drain unit take its waiting place: the drain that they make. -/
theorem CoreSt.quadAfter_drain (x : CoreSt) {op : ArrOp} {r : BitVec 5}
    (h : ∃ f, (op = .adrq f ∧ r = f.sreg)
      ∨ (∃ g, (op = .adrw g ∨ op = .aldt g ∨ op = .astt g) ∧ r = g.sreg)) :
    x.quadAfter op = x.quad.drainIn (x.drainJob op r) ∧ x.arrHold op = x.quad.drain.isSome := by
  obtain ⟨_, ⟨rfl, rfl⟩ | ⟨_, rfl | rfl | rfl, rfl⟩⟩ := h <;> exact ⟨rfl, rfl⟩

/-- Settles O11: the bundle's other slots leave the quad and the arrays alone, so what the array slot latches
stands at the end. -/
theorem arrayOperationsQueueWithLatchedSreg : Obligations.ArrayOperationsQueueWithLatchedSreg := by
  unfold Obligations.ArrayOperationsQueueWithLatchedSreg
  intro i s c b hb hissues x
  obtain ⟨hquad, harrays⟩ := Prod.ext_iff.1 (s.arrayWork_perform c b)
  change ((s.perform c b).core c).quad = x.quadAfter b.arr at hquad
  have hfree : x.arrHold b.arr = false := CoreSt.arrHold_of_issues hissues
  refine ⟨s.perform c b, by rw [exec_of_bundleOf hb, State.issue_of_issues hissues], ?_⟩
  intro q
  change q = _ at hquad
  refine ⟨fun f hf => ?_, fun r hr => ?_, fun f hf => ?_, harrays⟩
  · intro j
    rw [hf] at hquad hfree
    obtain ⟨hdrain, horder, hstart, hwait⟩ := x.quad.amac_rules j
    rw [hquad]
    refine ⟨hdrain, horder, hstart, fun hrun => ⟨?_, hwait hrun⟩⟩
    simpa [CoreSt.arrHold, Option.isSome_iff_ne_none, hrun] using hfree
  · obtain ⟨hdrain, hhold⟩ := x.quadAfter_drain hr
    rw [hhold] at hfree
    rw [hquad, hdrain]
    exact ⟨by simpa using hfree, rfl, rfl, rfl, _, rfl, rfl, rfl, rfl, rfl, rfl, rfl⟩
  · rw [hquad, hf]; rfl

end Sys2Proof.Machine
end

/-! ## What the slots of a bundle leave to one another (O7, O12, O13, O15, O16) -/

section

namespace Sys2Proof.Machine

open Sys2Proof Sys2Proof.Claims

/-! ### Registers by name -/

/-- The value that a register reads as. -/
def CoreSt.reg (x : CoreSt) : RegName → Nat
  | .s n => (x.sreg n).toNat
  | .m n => (x.mreg n).toNat
  | .v n => (x.vreg n).toNat

theorem CoreSt.sreg_eq_of_reg {x y : CoreSt} {n : BitVec 5} (h : x.reg (.s n) = y.reg (.s n)) :
    x.sreg n = y.sreg n := BitVec.eq_of_toNat_eq h

theorem CoreSt.mreg_eq_of_reg {x y : CoreSt} {n : BitVec 3} (h : x.reg (.m n) = y.reg (.m n)) :
    x.mreg n = y.mreg n := BitVec.eq_of_toNat_eq h

theorem CoreSt.vreg_eq_of_reg {x y : CoreSt} {n : BitVec 5} (h : x.reg (.v n) = y.reg (.v n)) :
    x.vreg n = y.vreg n := BitVec.eq_of_toNat_eq h

/-- A register outside a list of destinations; S0 and M0 may stand in it, because a write of them is
ignored (R138, R182, R184). -/
def Spared (r : RegName) (l : List RegName) : Prop := r ∈ l → r.exempt = true

theorem RegName.exempt_s {n : BitVec 5} : (RegName.s n).exempt = true ↔ n = 0 := by simp [RegName.exempt]

theorem RegName.exempt_m {n : BitVec 3} : (RegName.m n).exempt = true ↔ n = 0 := by simp [RegName.exempt]

theorem RegName.not_exempt_v (n : BitVec 5) : (RegName.v n).exempt = false := by simp [RegName.exempt]

theorem Spared.mono {r : RegName} {l m : List RegName} (h : Spared r m) (hlm : l ⊆ m) : Spared r l :=
  fun hr => h (hlm hr)

@[simp] theorem CoreSt.sreg_setS_same (x : CoreSt) {n : BitVec 5} (hn : n ≠ 0) (v : W32) :
    (x.setS n v).sreg n = v := by
  rw [CoreSt.setS, if_neg hn, CoreSt.sreg, if_neg hn, Tab.look_put_same]

@[simp] theorem CoreSt.mreg_setM_same (x : CoreSt) {n : BitVec 3} (hn : n ≠ 0) (v : W64) :
    (x.setM n v).mreg n = v := by
  rw [CoreSt.setM, if_neg hn, CoreSt.mreg, if_neg hn, Tab.look_put_same]

@[simp] theorem CoreSt.vreg_setV_same (x : CoreSt) (n : BitVec 5) (v : Payload) : (x.setV n v).vreg n = v :=
  Tab.look_put_same ..

theorem CoreSt.reg_setS (x : CoreSt) {n : BitVec 5} (v : W32) {r : RegName} (h : Spared r [.s n]) :
    (x.setS n v).reg r = x.reg r := by
  unfold CoreSt.setS
  split_ifs with hn
  · rfl
  · cases r with
    | s k =>
      have hk : n ≠ k := fun hnk => hn (RegName.exempt_s.1 (hnk ▸ h (by simp [hnk])))
      have hne : n.toNat ≠ k.toNat := fun e => hk (BitVec.eq_of_toNat_eq e)
      simp only [CoreSt.reg, CoreSt.sreg, Tab.look_put_ne _ _ _ _ hne]
    | m k => rfl
    | v k => rfl

theorem CoreSt.reg_setM (x : CoreSt) {n : BitVec 3} (v : W64) {r : RegName} (h : Spared r [.m n]) :
    (x.setM n v).reg r = x.reg r := by
  unfold CoreSt.setM
  split_ifs with hn
  · rfl
  · cases r with
    | m k =>
      have hk : n ≠ k := fun hnk => hn (RegName.exempt_m.1 (hnk ▸ h (by simp [hnk])))
      have hne : n.toNat ≠ k.toNat := fun e => hk (BitVec.eq_of_toNat_eq e)
      simp only [CoreSt.reg, CoreSt.mreg, Tab.look_put_ne _ _ _ _ hne]
    | s k => rfl
    | v k => rfl

theorem CoreSt.reg_setV (x : CoreSt) {n : BitVec 5} (v : Payload) {r : RegName} (h : Spared r [.v n]) :
    (x.setV n v).reg r = x.reg r := by
  cases r with
  | v k =>
    have hk : n ≠ k := fun hnk => by simpa [RegName.not_exempt_v] using h (by simp [hnk])
    have hne : n.toNat ≠ k.toNat := fun e => hk (BitVec.eq_of_toNat_eq e)
    simp only [CoreSt.reg, CoreSt.vreg, CoreSt.setV, Tab.look_put_ne _ _ _ _ hne]
  | s k => rfl
  | m k => rfl

/-! ### What the slots but the vector slot keep -/

/-- The operand cache, the reduction accumulators and the folds: what the vector slot alone changes at an
issue. -/
def CoreSt.vecStore (x : CoreSt) : Tab Byte × Tab Ecc × Tab RAcc × List FoldItem :=
  (x.ocache, x.ocEcc, x.raccs, x.folds)

/-- A register, with what the vector slot alone changes. -/
def CoreSt.beside (r : RegName) (x : CoreSt) : Nat × Tab Byte × Tab Ecc × Tab RAcc × List FoldItem :=
  (x.reg r, x.vecStore)

@[simp] theorem CoreSt.vecStore_setS (x : CoreSt) (n : BitVec 5) (v : W32) :
    (x.setS n v).vecStore = x.vecStore := by
  unfold CoreSt.setS
  split <;> rfl

@[simp] theorem CoreSt.vecStore_setM (x : CoreSt) (n : BitVec 3) (v : W64) :
    (x.setM n v).vecStore = x.vecStore := by
  unfold CoreSt.setM
  split <;> rfl

section Beside

variable {r : RegName} {c : Nat}

theorem CoreSt.beside_setS (x : CoreSt) {n : BitVec 5} (v : W32) (h : Spared r [.s n]) :
    (x.setS n v).beside r = x.beside r :=
  Prod.ext (CoreSt.reg_setS x v h) (CoreSt.vecStore_setS ..)

theorem CoreSt.beside_setM (x : CoreSt) {n : BitVec 3} (v : W64) (h : Spared r [.m n]) :
    (x.setM n v).beside r = x.beside r :=
  Prod.ext (CoreSt.reg_setM x v h) (CoreSt.vecStore_setM ..)

theorem CoreSt.beside_setV (x : CoreSt) {n : BitVec 5} (v : Payload) (h : Spared r [.v n]) :
    (x.setV n v).beside r = x.beside r :=
  Prod.ext (CoreSt.reg_setV x v h) rfl

/-- The fetch, and the correction of the registers that the bundle reads (R777). -/
def CoreSt.fetched (x : CoreSt) (b : Bundle) : CoreSt :=
  { x.fixRegs (x.readsOf b) with storeEcc := eccFixed x.storeEcc (x.storeIs (· == .single)) }

theorem State.core_fetchFix_eq (s : State) (b : Bundle) :
    (s.fetchFix c b).core c = (s.core c).fetched b := State.core_fetchFix s b

/-! #### The sequencer -/

/-- The core but for the parts that the advance of the sequencer writes. -/
def CoreSt.unsequenced (x : CoreSt) : CoreSt :=
  { x with pc := 0, ds := false, dst := 0, loops := [], feeders := [], mode := 0, pmode := 0, pcount := 0 }

theorem CoreSt.unsequenced_loopTest (l : List Nat) :
    ∀ x : CoreSt, (x.loopTest l).1.unsequenced = x.unsequenced := by
  induction l with
  | nil => exact fun _ => rfl
  | cons n l ih =>
    intro x
    unfold CoreSt.loopTest
    split_ifs
    · rfl
    · exact ih _
    · rfl
    · exact ih x

theorem CoreSt.unsequenced_leave (tgt : Nat) (l : List Nat) :
    ∀ x : CoreSt, (x.leave tgt l).unsequenced = x.unsequenced := by
  induction l with
  | nil => exact fun _ => rfl
  | cons n l ih =>
    intro x
    unfold CoreSt.leave
    split_ifs
    · exact ih _
    · exact ih x

theorem CoreSt.unsequenced_feedersToBase (l : List Nat) :
    ∀ x : CoreSt, (x.feedersToBase l).unsequenced = x.unsequenced := by
  induction l with
  | nil => exact fun _ => rfl
  | cons f l ih =>
    intro x
    unfold CoreSt.feedersToBase
    split
    · split_ifs
      · exact ih x
      · exact ih _
    · exact ih x

theorem CoreSt.unsequenced_shadow (x : CoreSt) : x.shadow.unsequenced = x.unsequenced := by
  unfold CoreSt.shadow
  split_ifs
  · rfl
  · exact CoreSt.unsequenced_feedersToBase _ _
  · rfl

/-- The advance of the sequencer writes nothing else (R198-R200). -/
theorem CoreSt.unsequenced_advance (x x0 : CoreSt) (op : CtlOp) :
    (x.advance x0 op).unsequenced = x.unsequenced := by
  unfold CoreSt.advance
  extract_lets t t2 t3 y z
  have ht : t.1.unsequenced = x.unsequenced := by
    unfold t
    split_ifs
    · rfl
    · exact CoreSt.unsequenced_loopTest _ x
  have ht2 : t2.1.unsequenced = t.1.unsequenced := by
    unfold t2
    split
    · split_ifs
      · exact CoreSt.unsequenced_leave _ _ t.1
      · rfl
    · rfl
  have ht3 : t3.1.unsequenced = t2.1.unsequenced := by
    unfold t3
    split
    · split_ifs <;> rfl
    · rfl
  have hz : z.unsequenced = y.unsequenced := by
    unfold z
    split <;> rfl
  calc z.unsequenced = y.unsequenced := hz
    _ = t3.1.unsequenced := CoreSt.unsequenced_shadow t3.1
    _ = x.unsequenced := by rw [ht3, ht2, ht]

theorem CoreSt.beside_issued (y x : CoreSt) (op : CtlOp) : (y.issued x op).beside r = y.beside r :=
  calc (y.issued x op).beside r = (y.advance x op).unsequenced.beside r := rfl
    _ = y.unsequenced.beside r := by rw [CoreSt.unsequenced_advance]
    _ = y.beside r := rfl

/-! #### The control slot and the array slot -/

theorem Keeps.beside_post (s : State) (code : Byte) : Keeps (CoreSt.beside r) c s (s.post c code) := by
  unfold State.post
  dsimp only
  split
  · exact Keeps.setCore rfl
  · refine Keeps.trans_sameCores (Keeps.trans_sameCores (Keeps.setCore ?_) (sameCores_setDieColl ..))
      (LogFrame.log _ _).sameCores
    rfl

theorem Keeps.beside_spadRead (s : State) (a n : Nat) : Keeps (CoreSt.beside r) c s (s.spadRead c a n).2 :=
  Keeps.of_setCore (sameCores_spadRead ..) rfl

/-- The control slot writes its destination, no other register, and nothing of the vector engine (R181). -/
theorem Keeps.beside_ctlEff (s : State) (x : CoreSt) {op : CtlOp} (h : Spared r op.writes) :
    Keeps (CoreSt.beside r) c s (s.ctlEff c x op) := by
  cases op with
  | sld f => exact (Keeps.beside_spadRead ..).trans (Keeps.modCore fun y => CoreSt.beside_setS y _ h)
  | sst f => exact Keeps.of_setCore (sameCores_spadWrite ..) rfl
  | done f => exact (Keeps.beside_post s f.code).trans (sameCores_doneMeaning ..).keeps
  | mask | mfill => exact Keeps.modCore fun y => CoreSt.beside_setM y _ h
  | waitcal | brk =>
    rw [State.ctlEff]
    exact Keeps.modCore fun y => rfl
  | alu | smfs | mpop | sli | slui => exact Keeps.modCore fun y => CoreSt.beside_setS y _ h
  | cnop | br | bmany | bmnone | loop | setmode | fence | undef => exact Keeps.refl s

theorem Keeps.beside_arrEff (s : State) (x : CoreSt) (op : ArrOp) :
    Keeps (CoreSt.beside r) c s (s.arrEff c x op) := by
  cases op with
  | amac | adrq | adrw | aldt | astt =>
    rw [State.arrEff]
    exact Keeps.modCore fun _ => rfl
  | anop | undef => exact Keeps.refl s

/-! #### The stream slot and the fence -/

theorem Keeps.beside_popWord (s : State) (p : Nat) : Keeps (CoreSt.beside r) c s (s.popWord c p).2 := by
  unfold State.popWord
  dsimp only
  split
  · exact Keeps.refl s
  · exact Keeps.of_setCore ⟨rfl, rfl⟩ rfl

theorem Keeps.beside_dropWords (s : State) (p : Nat) : Keeps (CoreSt.beside r) c s (s.dropWords c p) := by
  unfold State.dropWords
  dsimp only
  split
  · exact Keeps.refl s
  · exact Keeps.of_setCore (sameCores_creditsBack ..) rfl

/-- The stream slot writes its destination, no other register, and nothing of the vector engine. -/
theorem Keeps.beside_strEff (s : State) (x : CoreSt) {op : StrOp} (h : Spared r op.writes) :
    Keeps (CoreSt.beside r) c s (s.strEff c x op) := by
  cases op with
  | srecv f =>
    have hpop := Keeps.beside_popWord (r := r) (c := c) s f.port.toNat
    unfold State.strEff
    dsimp only
    split
    next w t heq =>
      rw [heq] at hpop
      have hset : Keeps (CoreSt.beside r) c s (t.modCore c fun y => y.setV f.v w.data) :=
        hpop.trans (Keeps.modCore fun y => CoreSt.beside_setV y _ h)
      split_ifs
      · exact hset.trans (LogFrame.incompFor _ c).sameCores.keeps
      · exact hset
    next t heq =>
      rw [heq] at hpop
      exact hpop
  | ssend f =>
    rw [State.strEff]
    exact Keeps.modCore fun _ => rfl
  | sdrop f => exact Keeps.beside_dropWords s _
  | slevel f => exact Keeps.modCore fun y => CoreSt.beside_setS y _ h
  | snop | undef => exact Keeps.refl s

theorem Keeps.beside_fenceEff (s : State) (x : CoreSt) (b : Bundle) :
    Keeps (CoreSt.beside r) c s (s.fenceEff c x b) := by
  unfold State.fenceEff
  split
  · unfold State.startFence
    split_ifs <;> exact Keeps.modCore fun _ => rfl
  · exact Keeps.refl s

end Beside

/-! ### What the vector slot keeps of the registers -/

section Reg

variable {r : RegName} {c : Nat}

/-- A view that keeps a register. -/
theorem Keeps.reg_of_beside {s t : State} (h : Keeps (CoreSt.beside r) c s t) :
    Keeps (fun x => x.reg r) c s t := h.mono fun _ _ e => congrArg Prod.fst e

theorem CoreSt.reg_seqNext (y x : CoreSt) (rnd : BitVec 1) (n : Nat) :
    (y.seqNext x rnd n).reg r = y.reg r := by
  unfold CoreSt.seqNext
  split <;> rfl

theorem Keeps.reg_laneEff (s : State) (x : CoreSt) {o : LaneOp} {f : FmtL}
    (h : Spared r (VecOp.lane o f).writes) : Keeps (fun x => x.reg r) c s (s.laneEff c x o f) := by
  unfold State.laneEff
  cases hcmp : o.cmp
  · rw [VecOp.writes, hcmp, if_neg Bool.false_ne_true] at h
    rw [if_neg Bool.false_ne_true]
    extract_lets rs d
    clear_value rs d
    refine Keeps.modCore fun y => ?_
    extract_lets z
    have hz : z.reg r = y.reg r := (CoreSt.reg_seqNext ..).trans (CoreSt.reg_setV y d h)
    split_ifs
    · exact hz
    · exact hz
  · rw [VecOp.writes, hcmp, if_pos rfl] at h
    rw [if_pos rfl]
    exact Keeps.modCore fun y => CoreSt.reg_setM y _ h

theorem Keeps.reg_loadEff (s : State) (x : CoreSt) (o : MemOp) {f : FmtVM} (h : Spared r [.v f.v]) :
    Keeps (fun x => x.reg r) c s (s.loadEff c x o f) := by
  unfold State.loadEff
  extract_lets ws bad fixed d
  clear_value ws bad fixed d
  refine Keeps.trans_sameCores (Keeps.modCore ?_) (sameCores_ocReport ..)
  exact fun y => CoreSt.reg_setV y d h

theorem Keeps.reg_storeEff (s : State) (x : CoreSt) (o : MemOp) (f : FmtVM) :
    Keeps (fun x => x.reg r) c s (s.storeEff c x o f) := by
  unfold State.storeEff
  extract_lets act el bs ws part bad fixed
  clear_value act el bs ws part bad fixed
  refine Keeps.trans_sameCores (Keeps.modCore ?_) (sameCores_ocReport ..)
  exact fun y => rfl

theorem Keeps.reg_ocRead (s : State) (a n : Nat) : Keeps (fun x => x.reg r) c s (s.ocRead c a n).2 :=
  Keeps.of_setCore (sameCores_ocReport ..) rfl

theorem Keeps.reg_ocWrite (s : State) (a : Nat) (l : List Byte) :
    Keeps (fun x => x.reg r) c s (s.ocWrite c a l) := by
  obtain ⟨_, _, h⟩ := sameCores_ocWrite s c a l
  exact Keeps.of_setCore h rfl

theorem Keeps.reg_xfrEff (s : State) (x : CoreSt) (f : FmtXfr) :
    Keeps (fun x => x.reg r) c s (s.xfrEff c x f) := by
  unfold State.xfrEff
  dsimp only
  split_ifs
  · exact ((Keeps.reg_of_beside (Keeps.beside_spadRead ..)).trans (Keeps.reg_ocWrite ..)).trans
      (Keeps.modCore fun _ => rfl)
  · exact (Keeps.reg_ocRead ..).trans (Keeps.of_setCore (sameCores_spadWrite ..) rfl)

theorem Keeps.reg_readClasses (base stride n : Nat) (l : List Nat) :
    ∀ s : State, Keeps (fun x => x.reg r) c s (s.readClasses c base stride n l).2 := by
  induction l with
  | nil => exact Keeps.refl
  | cons k l ih => exact fun s => ((Keeps.reg_ocRead ..).trans (Keeps.reg_ocRead ..)).trans (ih _)

theorem Keeps.reg_tileArray (s : State) (x : CoreSt) (f : FmtVtile) (n tseq : Nat) :
    Keeps (fun x => x.reg r) c s (s.tileArray c x f n tseq) := by
  unfold State.tileArray
  extract_lets mode u cls st cb q sat p s1 s2 s3
  have hread : Keeps (fun x => x.reg r) c s u.2 := Keeps.reg_readClasses ..
  have htiles : Keeps (fun x => x.reg r) c u.2 s2 := by
    unfold s2
    split_ifs
    · exact (Keeps.reg_ocWrite ..).trans (Keeps.reg_ocWrite ..)
    · exact Keeps.reg_ocWrite ..
  have hdesc : Keeps (fun x => x.reg r) c s2 s3 := (Keeps.reg_ocWrite ..).trans (Keeps.reg_ocWrite ..)
  exact ((hread.trans htiles).trans hdesc).trans (Keeps.modCore fun _ => rfl)

theorem Keeps.reg_tileArrays (x : CoreSt) (f : FmtVtile) (l : List Nat) :
    ∀ (s : State) (tseq : Nat), Keeps (fun x => x.reg r) c s (s.tileArrays c x f tseq l) := by
  induction l with
  | nil => exact fun s _ => Keeps.refl s
  | cons n l ih => exact fun s tseq => (Keeps.reg_tileArray s x f n tseq).trans (ih _ _)

/-- The vector slot writes its destinations and no other register. -/
theorem Keeps.reg_vecEff (s : State) (x : CoreSt) {op : VecOp} (h : Spared r op.writes) :
    Keeps (fun x => x.reg r) c s (s.vecEff c x op) := by
  cases op with
  | lane o f => exact Keeps.reg_laneEff s x h
  | mem o f =>
    cases o with
    | vld | vldx => exact Keeps.reg_loadEff s x _ h
    | vst | vstx => exact Keeps.reg_storeEff s x _ f
  | vxfr f => exact Keeps.reg_xfrEff s x f
  | vtile f =>
    rw [State.vecEff]
    exact (Keeps.reg_tileArrays x f _ s _).trans (Keeps.modCore fun _ => CoreSt.reg_seqNext ..)
  | rclr f =>
    rw [State.vecEff]
    refine Keeps.modCore fun y => ?_
    split_ifs <;> rfl
  | rget f =>
    rw [State.vecEff]
    exact Keeps.modCore fun y => CoreSt.reg_setS y _ h
  | rgetn f =>
    rw [State.vecEff]
    refine Keeps.modCore fun y => ?_
    rw [CoreSt.reg_setS _ _ (h.mono (by simp [VecOp.writes])),
      CoreSt.reg_setS _ _ (h.mono (by simp [VecOp.writes]))]
  | vnop | undef => exact Keeps.refl s

end Reg

/-! ### The step number and the images under the slots that act first -/

/-- The images and the step number of job slot A: what the slots read beside their core. -/
def State.jobs (s : State) : Option Image × Option Image × W64 := (s.imgA, s.imgB, s.stepA)

theorem State.stepOf_of_jobs {s t : State} (h : t.jobs = s.jobs) (j : JobSlot) : t.stepOf j = s.stepOf j := by
  obtain ⟨-, -, hstep⟩ : t.imgA = s.imgA ∧ t.imgB = s.imgB ∧ t.stepA = s.stepA := by
    simpa [State.jobs] using h
  rw [State.stepOf, hstep]; rfl

theorem State.vecKey_of_jobs {s t : State} (h : t.jobs = s.jobs) (x : CoreSt) (rnd : BitVec 1) :
    t.vecKey x rnd = s.vecKey x rnd := by
  obtain ⟨hA, hB, -⟩ : t.imgA = s.imgA ∧ t.imgB = s.imgB ∧ t.stepA = s.stepA := by
    simpa [State.jobs] using h
  rw [State.vecKey, State.stepOf_of_jobs h, State.seedOf, State.image, hA, hB]; rfl

/-- The control registers below the ERR block stand; logging writes that block alone (R712). -/
structure BelowLog (s t : State) : Prop where
  rd : ∀ o < 0xC00000, t.rd o = s.rd o

theorem BelowLog.of_reg {s t : State} (h : t.reg = s.reg) : BelowLog s t :=
  ⟨fun _ _ => by rw [State.rd, h]; rfl⟩

theorem BelowLog.refl (s : State) : BelowLog s s := .of_reg rfl

theorem BelowLog.trans {s t u : State} (h : BelowLog s t) (k : BelowLog t u) : BelowLog s u :=
  ⟨fun o ho => (k.rd o ho).trans (h.rd o ho)⟩

theorem BelowLog.wr (s : State) {o : Nat} (v : W32) (h : 0xC00000 ≤ o) : BelowLog s (s.wr o v) :=
  ⟨fun _ hp => State.rd_wr_ne s o v (Nat.ne_of_gt (Nat.lt_of_lt_of_le hp h))⟩

theorem BelowLog.setF (s : State) {f : Fld} (v : Nat) (h : 0xC00000 ≤ f.off) : BelowLog s (s.setF f v) :=
  .wr s _ h

theorem BelowLog.wrList (l : List W32) :
    ∀ (s : State) (o : Nat), 0xC00000 ≤ o → BelowLog s (s.wrList o l) := by
  induction l with
  | nil => exact fun s _ _ => .refl s
  | cons v r ih => exact fun s o ho => (BelowLog.wr s v ho).trans (ih _ _ (by omega))

theorem BelowLog.msix (s : State) (fn : Func) (vec : Nat) : BelowLog s (s.msix fn vec) := by
  unfold State.msix
  split
  · exact .of_reg (State.wr4_reg ..)
  · exact .of_reg (State.emit_reg ..)

theorem BelowLog.sd (s : State) (d : SdSt) : BelowLog s { s with sd := d } := .of_reg rfl

theorem le_rErrLog (n k : Nat) : 0xC00000 ≤ rErrLog n k := by unfold rErrLog; omega

theorem le_rErrClasscnt (n : Nat) : 0xC00000 ≤ rErrClasscnt n := by unfold rErrClasscnt; omega

theorem BelowLog.append (s : State) (e : ErrRec) : BelowLog s (s.append e) := by
  unfold State.append
  dsimp only
  split
  · exact .wr s _ (le_rErrLog ..)
  · split
    · exact (BelowLog.wr s (o := rErrLost) _ (by decide)).trans (.wr _ _ (by decide))
    · exact ((BelowLog.wrList _ s _ (le_rErrLog ..)).trans
        (.setF _ _ (by decide))).trans (.msix _ _ _)

theorem BelowLog.sdFor (s : State) (e : ErrRec) : BelowLog s (s.sdFor e) := by
  unfold State.sdFor
  split
  · exact .refl s
  · unfold State.sdQueue
    split_ifs
    · exact .refl s
    · exact .setF s _ (by decide)
    · exact BelowLog.trans (.sd s _) (.setF (f := fErrSdstatQlevel) _ _ (by decide))

theorem BelowLog.log (s : State) (e : ErrRec) : BelowLog s (s.log e) := by
  unfold State.log
  extract_lets s1
  have h1 : BelowLog s s1 := by
    unfold s1
    split_ifs
    · exact .of_reg rfl
    · exact .refl s
  split_ifs
  · exact h1.trans (.append _ _)
  · exact ((h1.trans (.append _ _)).trans (.wr _ _ (le_rErrClasscnt _))).trans (.sdFor _ _)

theorem BelowLog.countCorr (s : State) (mem u addr : Nat) (b : Bool) :
    BelowLog s (s.countCorr mem u addr b) := by
  unfold State.countCorr
  dsimp only
  split
  · exact BelowLog.trans (.sd s _) (.log _ _)
  · exact .sd s _

theorem State.jobs_of_logFrame {s t : State} (h : LogFrame s t) (k : BelowLog s t) : t.jobs = s.jobs := by
  have hstep : t.stepA = s.stepA := by
    rw [State.stepA, State.rd64, k.rd _ (by decide), k.rd _ (by decide)]; rfl
  rw [State.jobs, hstep, h]; rfl

theorem State.jobs_log (s : State) (e : ErrRec) : (s.log e).jobs = s.jobs :=
  State.jobs_of_logFrame (.log s e) (.log s e)

theorem State.jobs_logWords (c mem : Nat) (l : List Nat) : ∀ s : State, (s.logWords c mem l).jobs = s.jobs := by
  induction l with
  | nil => exact fun _ => rfl
  | cons w r ih => exact fun s => (ih _).trans (State.jobs_log ..)

theorem State.jobs_corrWords (c mem : Nat) (l : List Nat) :
    ∀ s : State, (s.corrWords c mem l).jobs = s.jobs := by
  induction l with
  | nil => exact fun _ => rfl
  | cons w r ih =>
    exact fun s => (ih _).trans (State.jobs_of_logFrame (.countCorr s ..) (.countCorr s ..))

theorem State.jobs_fetchFix (s : State) (c : Nat) (b : Bundle) : (s.fetchFix c b).jobs = s.jobs :=
  State.jobs_corrWords c 1 _ _

/-- A register that is no half of BWT_STEP. -/
theorem State.jobs_wr (s : State) {o : Nat} (v : W32) (hlo : o ≠ rBwtStepLo) (hhi : o ≠ rBwtStepLo + 4) :
    (s.wr o v).jobs = s.jobs := by
  have hstep : (s.wr o v).stepA = s.stepA := by
    rw [State.stepA, State.rd64, State.rd_wr_ne _ _ _ hlo, State.rd_wr_ne _ _ _ hhi]; rfl
  rw [State.jobs, hstep]; rfl

/-- The gate registers of a group are no half of BWT_STEP. -/
theorem State.jobs_putGroup (s : State) (g : Nat) (x : GroupSt) : (s.putGroup g x).jobs = s.jobs := by
  unfold State.putGroup
  extract_lets lo st
  clear_value lo st
  have hcad : (fBwtSocadPeriod g).off = rBwtSocad g := rfl
  have hstep : rBwtStepLo = 0xA00040 := rfl
  rw [State.setF, State.jobs_wr _ _ (by unfold rBwtSocad at hcad; omega) (by unfold rBwtSocad at hcad; omega),
    State.jobs_wr _ _ (by unfold rBwtSogstat; omega) (by unfold rBwtSogstat; omega),
    State.jobs_wr _ _ (by unfold rBwtSodone; omega) (by unfold rBwtSodone; omega),
    State.jobs_wr _ _ (by unfold rBwtSoround; omega) (by unfold rBwtSoround; omega)]
  rfl

theorem State.jobs_doneMeaning (s : State) (c : Nat) (code : Byte) :
    (s.doneMeaning c code).jobs = s.jobs := by
  unfold State.doneMeaning
  split_ifs
  · rfl
  · unfold State.gateDone
    dsimp only
    split_ifs
    · exact State.jobs_putGroup ..
    · rfl
  · exact State.jobs_wr (o := fBwtStatusRebuilt.off) s _ (by decide) (by decide)
  · rfl
  · rfl
  · rfl

section Eff

variable {c : Nat}

theorem State.jobs_post (s : State) (code : Byte) : (s.post c code).jobs = s.jobs := by
  unfold State.post
  dsimp only
  split
  · rfl
  · exact State.jobs_log ..

theorem State.jobs_ctlEff (s : State) (x : CoreSt) (op : CtlOp) : (s.ctlEff c x op).jobs = s.jobs := by
  cases op with
  | sld f => exact (State.jobs_logWords ..).trans (State.jobs_corrWords ..)
  | sst f => exact (State.jobs_logWords ..).trans (State.jobs_corrWords ..)
  | done f => exact (State.jobs_doneMeaning ..).trans (State.jobs_post ..)
  | _ => rfl

theorem State.jobs_arrEff (s : State) (x : CoreSt) (op : ArrOp) : (s.arrEff c x op).jobs = s.jobs := by
  cases op <;> rfl

end Eff

/-! ### The issue of a bundle, slot by slot -/

@[simp] theorem CoreSt.fetched_sreg (x : CoreSt) (b : Bundle) (n : BitVec 5) :
    (x.fetched b).sreg n = x.sreg n := rfl

/-- The state in which the vector slot of a bundle acts: the bundle is fetched, and its control slot and
array slot have acted. -/
def State.vecFrom (s : State) (c : Nat) (b : Bundle) : State :=
  ((s.fetchFix c b).ctlEff c ((s.core c).fetched b) b.ctl).arrEff c ((s.core c).fetched b) b.arr

/-- The state after the vector slot of a bundle. -/
def State.vecTo (s : State) (c : Nat) (b : Bundle) : State :=
  (s.vecFrom c b).vecEff c ((s.core c).fetched b) b.vec

section Perform

variable {s : State} {c : Nat} {b : Bundle} {r : RegName}

theorem State.jobs_vecFrom (s : State) (c : Nat) (b : Bundle) : (s.vecFrom c b).jobs = s.jobs :=
  (State.jobs_arrEff ..).trans ((State.jobs_ctlEff ..).trans (State.jobs_fetchFix s c b))

/-- The vector slot finds what the vector engine alone changes as it was before the issue. -/
theorem State.beside_vecFrom (h : Spared r b.ctl.writes) :
    ((s.vecFrom c b).core c).beside r = (s.core c).beside r :=
  calc ((s.vecFrom c b).core c).beside r
      = ((s.fetchFix c b).core c).beside r :=
        ((Keeps.beside_ctlEff _ _ h).trans (Keeps.beside_arrEff ..)).core
    _ = ((s.core c).fetched b).beside r := by rw [State.core_fetchFix_eq]
    _ = (s.core c).beside r := rfl

/-- What follows the vector slot writes the stream slot's destination and no other register. -/
theorem State.beside_perform (h : Spared r b.str.writes) :
    ((s.perform c b).core c).beside r = ((s.vecTo c b).core c).beside r := by
  unfold State.perform
  extract_lets s0 x
  have hx : x = (s.core c).fetched b := State.core_fetchFix_eq s b
  rw [State.core_modCore, CoreSt.beside_issued, (Keeps.beside_fenceEff _ x b).core,
    (Keeps.beside_strEff _ x h).core, hx]
  rfl

theorem State.vecStore_vecFrom (s : State) (c : Nat) (b : Bundle) :
    ((s.vecFrom c b).core c).vecStore = (s.core c).vecStore :=
  congrArg Prod.snd (State.beside_vecFrom (r := .s 0) fun _ => rfl)

theorem State.vecStore_perform (s : State) (c : Nat) (b : Bundle) :
    ((s.perform c b).core c).vecStore = ((s.vecTo c b).core c).vecStore :=
  congrArg Prod.snd (State.beside_perform (r := .s 0) fun _ => rfl)

/-- A bundle that issues raises ILLEGAL neither in its vector slot nor by a write conflict (R234). -/
theorem checks_of_issues (h : Issues s c b) : (s.core c).vecIll b.vec = none ∧ b.conflict = none := by
  obtain ⟨-, -, -, -, -, hill, -⟩ := h
  simp only [State.illegalAt] at hill
  split_ifs at hill
  simp only [Option.orElse_eq_or, Option.or_eq_none_iff, Option.map_eq_none_iff] at hill
  obtain ⟨⟨⟨-, hvec⟩, -⟩, hconf⟩ := hill
  exact ⟨hvec, hconf⟩

/-- Two slots of a bundle that issues write no register in common (R182). -/
theorem spared_of_issues (h : Issues s c b) :
    (∀ r ∈ b.ctl.writes, Spared r (b.vec.writes ++ b.str.writes))
      ∧ ∀ r ∈ b.vec.writes, Spared r b.str.writes := by
  have hclash : ∀ l m, ¬ clash l m = true → ∀ r ∈ l, Spared r m := fun l m hlm r hr hrm => by
    by_contra hex
    exact hlm (List.any_eq_true.2 ⟨r, hr, by simp [hex, hrm]⟩)
  have hconf := (checks_of_issues h).2
  unfold Bundle.conflict at hconf
  split_ifs at hconf with h0 h1
  exact ⟨hclash _ _ h0, hclash _ _ h1⟩

/-- A destination of the control slot holds at the end what the control slot wrote. -/
theorem State.reg_perform_of_ctl (h : Issues s c b) (hr : r ∈ b.ctl.writes) :
    ((s.perform c b).core c).reg r
      = (((s.fetchFix c b).ctlEff c ((s.core c).fetched b) b.ctl).core c).reg r := by
  have hsp := (spared_of_issues h).1 r hr
  calc ((s.perform c b).core c).reg r
      = ((s.vecTo c b).core c).reg r :=
        congrArg Prod.fst (State.beside_perform (hsp.mono (List.subset_append_right ..)))
    _ = ((s.vecFrom c b).core c).reg r := (Keeps.reg_vecEff _ _ (hsp.mono (List.subset_append_left ..))).core
    _ = _ := (Keeps.beside_arrEff ..).reg_of_beside.core

/-- A destination of the vector slot holds at the end what the vector slot wrote. -/
theorem State.reg_perform_of_vec (h : Issues s c b) (hr : r ∈ b.vec.writes) :
    ((s.perform c b).core c).reg r = ((s.vecTo c b).core c).reg r :=
  congrArg Prod.fst (State.beside_perform ((spared_of_issues h).2 r hr))

end Perform

end Sys2Proof.Machine
end

/-! ## Scalar and mask results (O7) -/

section

namespace Sys2Proof.Machine

open Sys2Proof Sys2Proof.Claims

/-! ### Values of the control slot (R187) -/

/-- A scalar operation on words is the integer operation of R187: one case for each. -/
theorem aluSays_aluVal (o : AluOp) (a b : W32) : AluSays o a b (aluVal o a b) := by
  cases o with
  | sadd => exact BitVec.toNat_add a b
  | ssub =>
    have ha := a.isLt
    have hb := b.isLt
    simp only [AluSays, aluVal, BitVec.toNat_sub]
    omega
  | sand => exact fun i => BitVec.getLsbD_and
  | sor => exact fun i => BitVec.getLsbD_or
  | sxor => exact fun i => BitVec.getLsbD_xor
  | sshl => simp [AluSays, aluVal, Nat.shiftLeft_eq]
  | sshr => simp [AluSays, aluVal, Nat.shiftRight_eq_div_pow]
  | ssra => simp [AluSays, aluVal, BitVec.toInt_sshiftRight, Int.shiftRight_eq_div_pow]
  | smin =>
    simp only [AluSays, aluVal, BitVec.slt, decide_eq_true_eq]
    split_ifs <;> omega
  | smax =>
    simp only [AluSays, aluVal, BitVec.slt, decide_eq_true_eq]
    split_ifs <;> omega
  | sslt =>
    simp only [AluSays, aluVal, BitVec.slt, decide_eq_true_eq]
    split_ifs <;> rfl
  | smul => exact BitVec.toNat_mul a b

/-- SLUI replaces the upper half of a word. -/
theorem toNat_slui (a : W32) (v : BitVec 16) :
    ((a &&& ((0xFFFF : Nat) : W32)) ||| (v.setWidth 32 <<< 16)).toNat = a.toNat % 2 ^ 16 + 2 ^ 16 * v.toNat := by
  have hv := v.isLt
  have hlow : (a &&& ((0xFFFF : Nat) : W32)).toNat = a.toNat % 2 ^ 16 := by
    rw [BitVec.toNat_and]; exact Nat.and_two_pow_sub_one_eq_mod _ 16
  have hhigh : ((v.setWidth 32 : W32) <<< 16).toNat = 2 ^ 16 * v.toNat := by
    rw [BitVec.toNat_shiftLeft, BitVec.toNat_setWidth, Nat.shiftLeft_eq]
    omega
  rw [BitVec.toNat_or, hlow, hhigh, Nat.or_comm, Nat.add_comm,
    Nat.two_pow_add_eq_or_of_lt (Nat.mod_lt _ (by decide))]

theorem toNat_popVal (a : W64) : (popVal a).toNat = (List.range 64).countP fun l => a.getLsbD l := by
  have h := (List.range 64).countP_le_length (p := fun l => a.getLsbD l)
  rw [List.length_range] at h
  rw [popVal, BitVec.toNat_ofNat, Nat.mod_eq_of_lt (by omega)]

theorem getLsbD_maskVal (o : MaskOp) (a b : W64) {l : Nat} (hl : l < 64) : (maskVal o a b).getLsbD l =
    match o with
    | .mand => a.getLsbD l && b.getLsbD l
    | .mor => a.getLsbD l || b.getLsbD l
    | .mxor => xor (a.getLsbD l) (b.getLsbD l)
    | .mandn => a.getLsbD l && !b.getLsbD l := by
  cases o <;> simp [maskVal, hl]

theorem getLsbD_fillVal (a : W32) {l : Nat} (hl : l < 64) :
    (fillVal a).getLsbD l = decide (l < a.toNat) := by
  rw [fillVal, BitVec.getLsbD_ofNat, decide_eq_true hl, Bool.true_and, Nat.testBit_two_pow_sub_one]
  simp [hl]

/-! ### The mask of a compare (R148) -/

/-- The mask whose bit `l` is set where `p l` holds, for the lanes below `n`. -/
def bitsOf (p : Nat → Bool) (n : Nat) : Nat := sumNat ((List.range n).map fun l => if p l then 2 ^ l else 0)

theorem bitsOf_succ (p : Nat → Bool) (n : Nat) :
    bitsOf p (n + 1) = bitsOf p n + if p n then 2 ^ n else 0 := by
  simp [bitsOf, sumNat, List.range_succ]

theorem bitsOf_lt (p : Nat → Bool) (n : Nat) : bitsOf p n < 2 ^ n := by
  induction n with
  | zero => exact Nat.one_pos
  | succ n ih =>
    rw [bitsOf_succ, Nat.pow_succ]
    split <;> omega

theorem testBit_bitsOf (p : Nat → Bool) {l n : Nat} (hl : l < n) : (bitsOf p n).testBit l = p l := by
  induction n with
  | zero => omega
  | succ n ih =>
    have hlt := bitsOf_lt p n
    rw [bitsOf_succ]
    rcases Nat.lt_succ_iff_lt_or_eq.1 hl with h | rfl
    · split
      · rw [Nat.add_comm, Nat.testBit_two_pow_add_gt h, ih h]
      · rw [Nat.add_zero, ih h]
    · split
      next hp => rw [Nat.add_comm, Nat.testBit_two_pow_add_eq, Nat.testBit_lt_two_pow hlt, hp]; rfl
      next hp => rw [Nat.add_zero, Nat.testBit_lt_two_pow hlt]; simpa using hp

/-- A compare of two words is that of their signed values. -/
theorem cmpVal_eq (o : LaneOp) (a b : W32) : o.cmp = true → cmpVal o a b =
    match o with
    | .vcmpEq => decide (a.toInt = b.toInt)
    | .vcmpNe => decide (a.toInt ≠ b.toInt)
    | .vcmpLt => decide (a.toInt < b.toInt)
    | _ => decide (a.toInt ≤ b.toInt) := by
  intro h
  cases o with
  | vcmpEq => simp only [cmpVal, BitVec.toInt_inj, Bool.beq_eq_decide_eq]
  | vcmpNe => simp only [cmpVal, ne_eq, BitVec.toInt_inj, bne, Bool.beq_eq_decide_eq, decide_not]
  | vcmpLt => rfl
  | vcmpLe => rfl
  | _ => cases h

/-- The mask register that a compare writes: an inactive lane gives 0 (R141, R148). -/
theorem State.mreg_laneEff_cmp (s : State) (c : Nat) (x : CoreSt) {o : LaneOp} {f : FmtL} (ho : o.cmp = true)
    (hd : f.d.extractLsb' 0 3 ≠ 0) {l : Nat} (hl : l < 64) :
    (((s.laneEff c x o f).core c).mreg (f.d.extractLsb' 0 3)).getLsbD l
      = ((x.mreg f.mask).getLsbD l && cmpVal o (lane (x.vreg f.a) l) (lane (x.vreg f.b) l)) := by
  have h := testBit_bitsOf
    (fun l => (x.mreg f.mask).getLsbD l && cmpVal o (lane (x.vreg f.a) l) (lane (x.vreg f.b) l)) hl
  rw [State.laneEff, if_pos ho, State.core_modCore, CoreSt.mreg_setM_same _ hd, BitVec.getLsbD_ofNat,
    decide_eq_true hl, Bool.true_and]
  exact h

/-! ### The statement -/

section Results

variable {s : State} {c : Core} {b : Bundle}

/-- A scalar destination of the control slot holds at the end the value that the slot set. -/
theorem State.sreg_perform_of_setS (h : Issues s c b) {n : BitVec 5} {v : W32}
    (hw : .s n ∈ b.ctl.writes) (hn : n ≠ 0)
    (heff : (s.fetchFix c b).ctlEff c ((s.core c).fetched b) b.ctl
      = (s.fetchFix c b).modCore c fun y => y.setS n v) : ((s.perform c b).core c).sreg n = v := by
  rw [CoreSt.sreg_eq_of_reg (State.reg_perform_of_ctl h hw), heff, State.core_modCore,
    CoreSt.sreg_setS_same _ hn]

/-- The same for a mask destination. -/
theorem State.mreg_perform_of_setM (h : Issues s c b) {n : BitVec 3} {v : W64}
    (hw : .m n ∈ b.ctl.writes) (hn : n ≠ 0)
    (heff : (s.fetchFix c b).ctlEff c ((s.core c).fetched b) b.ctl
      = (s.fetchFix c b).modCore c fun y => y.setM n v) : ((s.perform c b).core c).mreg n = v := by
  rw [CoreSt.mreg_eq_of_reg (State.reg_perform_of_ctl h hw), heff, State.core_modCore,
    CoreSt.mreg_setM_same _ hn]

/-- SMFS reads the core number, the step, the job slot and the loop counts (R189). -/
theorem State.special_rules (s : State) (c : Core) (x : CoreSt) (sel : BitVec 4) :
    (sel = 0 → (s.special c x sel.toNat).toNat = c.val)
      ∧ (sel = 1 → x.slot = .a → (s.special c x sel.toNat).toNat = s.stepA.toNat % 2 ^ 32)
      ∧ (sel = 2 → (s.special c x sel.toNat).toNat = if x.slot = .a then 0 else 1)
      ∧ (3 ≤ sel.toNat → (s.special c x sel.toNat).toNat =
          if (x.loop (sel.toNat - 3)).act then (x.loop (sel.toNat - 3)).lc.toNat else 0) := by
  have hc := c.isLt
  have hslotNat : slotNat x.slot = if x.slot = .a then 0 else 1 := rfl
  refine ⟨?_, ?_, ?_, fun hsel => ?_⟩
  · rintro rfl
    exact (BitVec.toNat_ofNat ..).trans (Nat.mod_eq_of_lt (by omega))
  · rintro rfl hslot
    have hstep : s.special c x (1 : BitVec 4).toNat = (s.stepOf x.slot).setWidth 32 := rfl
    rw [hstep, hslot, BitVec.toNat_setWidth]; rfl
  · rintro rfl
    refine (BitVec.toNat_ofNat ..).trans (Nat.mod_eq_of_lt ?_)
    rw [hslotNat]
    split <;> decide
  · obtain ⟨n, hn⟩ := Nat.exists_eq_add_of_le hsel
    have hlc := (x.loop n).lc.isLt
    rw [hn, Nat.add_comm, Nat.add_sub_cancel]
    change (if (x.loop n).act then (x.loop n).lc.setWidth 32 else 0 : W32).toNat = _
    split
    · rw [BitVec.toNat_setWidth, Nat.mod_eq_of_lt (by omega)]
    · rfl

end Results

/-- Settles O7: no other slot writes the destination of the control slot or of a compare, so it holds at the
end what that slot computed from the registers as they were. -/
theorem scalarAndMaskResultsFollowTables : Obligations.ScalarAndMaskResultsFollowTables := by
  unfold Obligations.ScalarAndMaskResultsFollowTables
  constructor
  · intro i s c b hb h
    refine ⟨s.perform c b, by rw [exec_of_bundleOf hb, State.issue_of_issues h], rfl, ?_, ?_, ?_, ?_, ?_⟩
    · intro o f hctl hd
      rw [State.sreg_perform_of_setS h (by simp [hctl, CtlOp.writes]) hd (by rw [hctl, State.ctlEff])]
      exact aluSays_aluVal ..
    · intro f hctl hd
      rw [State.sreg_perform_of_setS h (by simp [hctl, CtlOp.writes]) hd (by rw [hctl, State.ctlEff])]
      exact BitVec.toInt_signExtend_of_le (by decide)
    · intro f hctl hd
      rw [State.sreg_perform_of_setS h (by simp [hctl, CtlOp.writes]) hd (by rw [hctl, State.ctlEff])]
      exact toNat_slui ..
    · intro f hctl hd
      rw [State.sreg_perform_of_setS h (by simp [hctl, CtlOp.writes]) hd (by rw [hctl, State.ctlEff])]
      exact toNat_popVal ..
    · intro f hctl hd
      have hspecial : (s.fetchFix c b).special c ((s.core c).fetched b) f.sel.toNat
          = s.special c (s.core c) f.sel.toNat := by
        unfold State.special
        rw [State.stepOf_of_jobs (State.jobs_fetchFix s c b)]; rfl
      rw [State.sreg_perform_of_setS h (by simp [hctl, CtlOp.writes]) hd (by rw [hctl, State.ctlEff]), hspecial]
      exact s.special_rules c (s.core c) f.sel
  · intro i s c b hb h
    refine ⟨s.perform c b, by rw [exec_of_bundleOf hb, State.issue_of_issues h], rfl, ?_, ?_, ?_⟩
    · intro o f hctl hd l hl
      rw [State.mreg_perform_of_setM h (by simp [hctl, CtlOp.writes]) hd (by rw [hctl, State.ctlEff])]
      exact getLsbD_maskVal _ _ _ hl
    · intro f hctl hd l hl
      rw [State.mreg_perform_of_setM h (by simp [hctl, CtlOp.writes]) hd (by rw [hctl, State.ctlEff])]
      exact getLsbD_fillVal _ hl
    · intro o f hvec ho hd l hl
      have hend := CoreSt.mreg_eq_of_reg
        (State.reg_perform_of_vec h (r := .m (f.d.extractLsb' 0 3)) (by simp [hvec, VecOp.writes, ho]))
      rw [hend, State.vecTo, hvec, State.vecEff, State.mreg_laneEff_cmp _ _ _ ho hd hl, cmpVal_eq o _ _ ho]
      rfl

end Sys2Proof.Machine
end

/-! ## The reduction unit (O16) -/

section

namespace Sys2Proof.Machine

open Sys2Proof Sys2Proof.Claims

/-! ### Accumulators (R165) -/

theorem CoreSt.racc_setRacc (x : CoreSt) (n : Nat) (a : RAcc) : (x.setRacc n a).racc n = a :=
  Tab.look_ins_same _ _ _ _

theorem CoreSt.racc_setRacc_ne (x : CoreSt) (a : RAcc) {n m : Nat} (h : n ≠ m) :
    (x.setRacc n a).racc m = x.racc m := Tab.look_ins_ne _ _ _ _ h

/-- The starting state of each kind. -/
theorem RAcc.start_rules (k : BitVec 3) :
    (RAcc.start k).kind = k ∧ (RAcc.start k).ecnt = 0
      ∧ (RAcc.start k).val.toInt = (if k = 3 ∨ k = 5 then -(2 ^ 31) else if k = 4 then 2 ^ 31 - 1 else 0)
      ∧ (k = 5 → (RAcc.start k).idx = 0xFFFFFFFF) := by
  decide +revert

/-- The parts that RGET moves. -/
theorem RAcc.part_eq (a : RAcc) (p : Nat) : a.part p =
    match p with
    | 0 => a.val.extractLsb' 0 32
    | 1 => a.val.extractLsb' 32 32
    | _ => a.idx := by
  match p with
  | 0 => exact BitVec.setWidth_eq_extractLsb' (by decide)
  | 1 =>
    refine BitVec.eq_of_getLsbD_eq fun i hi => ?_
    simp [RAcc.part]
  | _ + 2 => rfl

/-- A 64-bit value needs no more than 64 bits (R59). -/
theorem need_toInt_le (v : W64) : need v.toInt ≤ 64 := by
  have hhi := BitVec.two_mul_toInt_lt (x := v)
  have hlo := BitVec.le_two_mul_toInt (x := v)
  unfold need
  generalize hm : (if 0 ≤ v.toInt then v.toInt else -v.toInt - 1) = m
  have hbound : 0 ≤ m ∧ m < 2 ^ 63 := by
    rw [← hm]
    split <;> omega
  by_cases h0 : m = 0
  · rw [if_pos h0]; decide
  · have hlog : Nat.log2 m.toNat < 63 := (Nat.log2_lt (by omega)).2 (by omega)
    rw [if_neg h0]
    omega

/-- The shift of RGETN fits its register (R168). -/
theorem RAcc.toNat_normShift (a : RAcc) :
    (BitVec.ofNat 32 a.normShift).toNat = need a.val.toInt - 32 := by
  have h := need_toInt_le a.val
  rw [BitVec.toNat_ofNat, Nat.mod_eq_of_lt]
  · rfl
  · unfold RAcc.normShift; omega

/-! ### Folds (R165-R167) -/

/-- The values of the active lanes, lowest lane first. -/
theorem FoldItem.vals_snd (i : FoldItem) :
    i.vals.map (·.2) = ((List.range 64).filter fun l => i.act.getLsbD l).map fun l => (lane i.lanes l).toInt := by
  rw [FoldItem.vals, List.map_map]; rfl

/-- A fold counts 64 elements in an accumulator that has a kind. -/
theorem RAcc.fold_ecnt (a : RAcc) (i : FoldItem) (h : a.kind.toNat ∈ [1, 2, 3, 4, 5]) :
    (a.fold i).1.ecnt = a.ecnt + 64 := by
  simp only [List.mem_cons, List.not_mem_nil, or_false] at h
  unfold RAcc.fold
  rcases h with h | h | h | h | h <;> simp only [h]
  split
  · split <;> rfl
  · rfl

/-- The value that a fold leaves, by the kind of the accumulator. -/
theorem RAcc.fold_val (a : RAcc) (i : FoldItem) {l : List Int} (hl : i.vals.map (·.2) = l) :
    (a.kind = 1 → (a.fold i).1.val = BitVec.ofInt 64 (satw (a.val.toInt + l.sum) 48))
      ∧ (a.kind = 2 → (a.fold i).1.val = BitVec.ofInt 64 (satw (a.val.toInt + (l.map fun e => e * e).sum) 64))
      ∧ (a.kind = 3 → (a.fold i).1.val = BitVec.ofInt 64 (l.foldl max a.val.toInt))
      ∧ (a.kind = 4 → (a.fold i).1.val = BitVec.ofInt 64 (l.foldl min a.val.toInt)) := by
  have hsq : (i.vals.map fun p => p.2 * p.2) = l.map fun e => e * e := by
    rw [← hl, List.map_map]; rfl
  refine ⟨fun h => ?_, fun h => ?_, fun h => ?_, fun h => ?_⟩
  · rw [RAcc.fold, h, ← hl, List.sum_eq_foldl]; rfl
  · rw [RAcc.fold, h, ← hsq, List.sum_eq_foldl]; rfl
  · rw [RAcc.fold, h, ← hl]; rfl
  · rw [RAcc.fold, h, ← hl]; rfl

/-- The oldest fold acts on its accumulator alone. -/
theorem CoreSt.foldFront_rules {x : CoreSt} {it : FoldItem} {r : List FoldItem} (hx : x.folds = it :: r)
    (hclr : it.clr = false) : x.foldFront.folds = r ∧ (∀ n, n ≠ it.racc → x.foldFront.racc n = x.racc n)
      ∧ x.foldFront.racc it.racc = ((x.racc it.racc).fold it).1 := by
  have h : x.foldFront = ((({ x with folds := r } : CoreSt).setRacc it.racc ((x.racc it.racc).fold it).1).vsat
      (if ((x.racc it.racc).fold it).2 then 1 else 0)) := by
    rw [CoreSt.foldFront, hx]
    dsimp only
    rw [hclr, if_neg Bool.false_ne_true]; rfl
  rw [h]
  exact ⟨rfl, fun n hn => CoreSt.racc_setRacc_ne _ _ (Ne.symm hn), CoreSt.racc_setRacc ..⟩

/-! ### The operations of the vector slot on the unit -/

theorem CoreSt.vecStore_fields {x y : CoreSt} (h : x.vecStore = y.vecStore) :
    x.ocache = y.ocache ∧ x.ocEcc = y.ocEcc ∧ x.raccs = y.raccs ∧ x.folds = y.folds := by
  simpa [CoreSt.vecStore] using h

theorem CoreSt.racc_of_vecStore {x y : CoreSt} (h : x.vecStore = y.vecStore) (n : Nat) :
    x.racc n = y.racc n := by rw [CoreSt.racc, (CoreSt.vecStore_fields h).2.2.1]; rfl

/-- A bundle that issues finds its vector operation free to go (R144, R168). -/
theorem CoreSt.vecHold_of_issues {s : State} {c : Nat} {b : Bundle} (h : Issues s c b) :
    (s.core c).vecHold b.vec = false := by
  obtain ⟨_, _, _, _, hholds, _⟩ := h
  simp only [CoreSt.holds, List.append_eq_nil_iff] at hholds
  simpa using hholds.1.1.1.2

/-- A bundle that issues names no bad operand in its vector slot. -/
theorem CoreSt.vecChecks_of_issues {s : State} {c : Nat} {b : Bundle} (h : Issues s c b) :
    b.vec.rsv = false ∧ b.vec.bad = false := by
  have hill := (checks_of_issues h).1
  simp only [CoreSt.vecIll, firstFail] at hill
  split_ifs at hill with _ hrsv _ hbad
  rw [CoreSt.vecBad.eq_def, Bool.not_eq_true, Bool.or_eq_false_iff] at hbad
  exact ⟨by simpa using hrsv, hbad.1⟩

section Unit

variable {s : State} {c : Core} {b : Bundle}

theorem State.rclr_rules {f : FmtRed} (hvec : b.vec = .rclr f) (hfolds : (s.core c).folds = []) :
    ((s.perform c b).core c).racc f.racc.toNat = RAcc.start f.kind
      ∧ ∀ n, n ≠ f.racc.toNat → ((s.perform c b).core c).racc n = (s.core c).racc n := by
  have hfrom := s.vecStore_vecFrom c b
  have hempty : ((s.vecFrom c b).core c).folds = [] := (CoreSt.vecStore_fields hfrom).2.2.2.trans hfolds
  have hto : (s.vecTo c b).core c = ((s.vecFrom c b).core c).setRacc f.racc.toNat (RAcc.start f.kind) := by
    rw [State.vecTo, hvec, State.vecEff, State.core_modCore, hempty]; rfl
  have hend := CoreSt.racc_of_vecStore (s.vecStore_perform c b)
  refine ⟨by rw [hend, hto, CoreSt.racc_setRacc], fun n hn => ?_⟩
  rw [hend, hto, CoreSt.racc_setRacc_ne _ _ (Ne.symm hn), CoreSt.racc_of_vecStore hfrom]

/-- The vector slot that writes scalar registers alone leaves the unit as it was. -/
theorem State.unit_perform (h : ((s.vecTo c b).core c).vecStore = ((s.vecFrom c b).core c).vecStore) :
    ((s.perform c b).core c).raccs = (s.core c).raccs ∧ ((s.perform c b).core c).folds = (s.core c).folds :=
  (CoreSt.vecStore_fields
    ((s.vecStore_perform c b).trans (h.trans (s.vecStore_vecFrom c b)))).2.2

/-- A scalar destination of the vector slot holds at the end what the vector slot wrote. -/
theorem State.sreg_perform_of_vec (h : Issues s c b) {n : BitVec 5} (hw : .s n ∈ b.vec.writes) :
    ((s.perform c b).core c).sreg n = ((s.vecTo c b).core c).sreg n :=
  CoreSt.sreg_eq_of_reg (State.reg_perform_of_vec h hw)

theorem State.rget_rules (h : Issues s c b) {f : FmtRed} (hvec : b.vec = .rget f) :
    (s.core c).folds = [] ∧ ((s.perform c b).core c).raccs = (s.core c).raccs
      ∧ (f.sd ≠ 0 → ((s.perform c b).core c).sreg f.sd
          = ((s.core c).racc f.racc.toNat).part (f.kind.extractLsb' 1 2).toNat) := by
  have hhold := CoreSt.vecHold_of_issues h
  rw [hvec, CoreSt.vecHold, Bool.or_eq_false_iff] at hhold
  have hto : (s.vecTo c b).core c = ((s.vecFrom c b).core c).setS f.sd
      (((s.core c).racc f.racc.toNat).part (f.kind.extractLsb' 1 2).toNat) := by
    rw [State.vecTo, hvec, State.vecEff, State.core_modCore]; rfl
  refine ⟨by simpa using hhold.1, (State.unit_perform (by rw [hto, CoreSt.vecStore_setS])).1, fun hd => ?_⟩
  rw [State.sreg_perform_of_vec h (by simp [hvec, VecOp.writes]), hto, CoreSt.sreg_setS_same _ hd]

theorem State.rgetn_rules (h : Issues s c b) {f : FmtRed} (hvec : b.vec = .rgetn f) :
    (s.core c).folds = [] ∧ ((s.perform c b).core c).raccs = (s.core c).raccs
      ∧ (f.sh ≠ 0 → (((s.perform c b).core c).sreg f.sh).toNat
          = need ((s.core c).racc f.racc.toNat).val.toInt - 32)
      ∧ (f.sd ≠ 0 → ((s.perform c b).core c).sreg f.sd
          = BitVec.ofInt 32 (rneShr ((s.core c).racc f.racc.toNat).val.toInt
              (need ((s.core c).racc f.racc.toNat).val.toInt - 32))) := by
  have hhold := CoreSt.vecHold_of_issues h
  rw [hvec, CoreSt.vecHold, Bool.or_eq_false_iff] at hhold
  have hne : f.sd ≠ f.sh := by
    have hbad := (CoreSt.vecChecks_of_issues h).2
    rw [hvec] at hbad
    simpa [VecOp.bad] using hbad
  have hto : (s.vecTo c b).core c
      = (((s.vecFrom c b).core c).setS f.sd (BitVec.ofInt 32 (rneShr
          ((s.core c).racc f.racc.toNat).val.toInt ((s.core c).racc f.racc.toNat).normShift))).setS f.sh
        (BitVec.ofNat 32 ((s.core c).racc f.racc.toNat).normShift) := by
    rw [State.vecTo, hvec, State.vecEff, State.core_modCore]; rfl
  refine ⟨by simpa using hhold.1,
    (State.unit_perform (by rw [hto, CoreSt.vecStore_setS, CoreSt.vecStore_setS])).1,
    fun hd => ?_, fun hd => ?_⟩
  · rw [State.sreg_perform_of_vec h (by simp [hvec, VecOp.writes]), hto, CoreSt.sreg_setS_same _ hd,
      RAcc.toNat_normShift]
  · have hspared : Spared (.s f.sd) [.s f.sh] := fun hmem => absurd (by simpa using hmem) hne
    rw [State.sreg_perform_of_vec h (by simp [hvec, VecOp.writes]), hto,
      CoreSt.sreg_eq_of_reg (CoreSt.reg_setS _ _ hspared), CoreSt.sreg_setS_same _ hd]
    rfl

end Unit

/-- Settles O16: the slots around the vector slot leave the unit as it was, and a fold is that of its
accumulator's kind. -/
theorem reductionAccumulatesAndReads : Obligations.ReductionAccumulatesAndReads := by
  unfold Obligations.ReductionAccumulatesAndReads
  constructor
  · intro i s c b hb h x
    refine ⟨s.perform c b, by rw [exec_of_bundleOf hb, State.issue_of_issues h], ?_⟩
    intro y
    refine ⟨fun f hvec hfolds => ?_, fun f hvec => ?_, fun f hvec => ?_, fun f hvec => ?_⟩
    · obtain ⟨hracc, hother⟩ := State.rclr_rules hvec hfolds
      obtain ⟨hkind, hecnt, hval, hidx⟩ := RAcc.start_rules f.kind
      rw [show y.racc f.racc.toNat = RAcc.start f.kind from hracc]
      exact ⟨hkind, hecnt, hval, hidx, hother⟩
    · obtain ⟨hfolds, hraccs, hread⟩ := State.rget_rules h hvec
      exact ⟨hfolds, hraccs, fun hd => (hread hd).trans (RAcc.part_eq ..)⟩
    · exact State.rgetn_rules h hvec
    · exact State.unit_perform (by rw [State.vecTo, hvec]; rfl)
  · intro s c it r hfolds hclr
    obtain ⟨hrest, hother, hfold⟩ := CoreSt.foldFront_rules hfolds hclr
    refine ⟨s.modCore c CoreSt.foldFront, rfl, onlyCore_modCore s c _, ?_⟩
    rw [State.core_modCore, hfold]
    exact ⟨hrest, hother, RAcc.fold_ecnt _ it, RAcc.fold_val _ it (FoldItem.vals_snd it)⟩

end Sys2Proof.Machine
end

/-! ## Lane instructions (O12) -/

section

namespace Sys2Proof.Machine

open Sys2Proof Sys2Proof.Claims

/-! ### Lanes of a payload (R137) -/

theorem wordsNat_div_mod (l : List W32) : ∀ i, wordsNat l / 2 ^ (32 * i) % 2 ^ 32 = (l.getD i 0).toNat := by
  induction l with
  | nil => intro i; simp [wordsNat]
  | cons w r ih =>
    have hw := w.isLt
    rintro (_ | i)
    · simp only [wordsNat, List.getD_cons_zero, Nat.mul_zero, Nat.pow_zero, Nat.div_one]
      omega
    · have hdiv : (w.toNat + 4294967296 * wordsNat r) / 2 ^ 32 = wordsNat r := by omega
      rw [wordsNat, Nat.mul_succ, Nat.add_comm (32 * i), Nat.pow_add, ← Nat.div_div_eq_div_mul, hdiv, ih i,
        List.getD_cons_succ]

theorem lane_ofLanes {l : List W32} (hl : l.length = 64) {i : Nat} (hi : i < 64) :
    lane (ofLanes l) i = l.getD i 0 := by
  refine BitVec.eq_of_getLsbD_eq fun j hj => ?_
  have hplace : 32 * i + j < 2048 := by omega
  rw [lane, BitVec.getLsbD_extractLsb', ofLanes, List.take_of_length_le hl.le, BitVec.getLsbD_ofNat,
    ← BitVec.testBit_toNat, ← wordsNat_div_mod l i, Nat.testBit_mod_two_pow, Nat.testBit_div_two_pow,
    Nat.add_comm j]
  simp [hj, hplace]

theorem lane_ofLanes_map (g : Nat → W32) {i : Nat} (hi : i < 64) :
    lane (ofLanes ((List.range 64).map g)) i = g i := by
  rw [lane_ofLanes (by simp) hi]
  simp [hi]

/-! ### The value of a lane (R148, R160-R164) -/

/-- The model's value of a lane is that of the table, for every operation but the compares and VSEL. -/
theorem laneSpec_eq_laneVal {o : LaneOp} (hcmp : o.cmp = false) (hsel : o ≠ .vsel) (wrap : Bool) (n qi : Int)
    (a b c : W32) (r : Option W32) :
    laneSpec o wrap n qi a b c r = some (laneVal o wrap n qi a b c r).1 := by
  have hovf : ∀ v w, (ovfw v w wrap).1 = if wrap then wrapw v w else satw v w := fun v w => by
    cases wrap <;> rfl
  cases o with
  | vsel => exact absurd rfl hsel
  | vcmpEq | vcmpNe | vcmpLt | vcmpLe => cases hcmp
  | vadd | vsub | vneg | vrshr | vnarrow | vmul | vmulr | vmac | vshl =>
    simp only [laneSpec, laneVal, noDom, hovf, narrowWidth, shl, Nat.cast_pow, Nat.cast_ofNat]
  | vabs =>
    have habs : |a.toInt| = if a.toInt < 0 then -a.toInt else a.toInt := by
      split_ifs with h
      · exact abs_of_neg h
      · exact abs_of_nonneg (not_lt.1 h)
    simp only [laneSpec, laneVal, noDom, hovf, habs]
  | vmin | vmax | vand | vor | vxor | vmov | vbcast | vshr => rfl
  | vexp2 | vexp => rfl
  | vlog2 =>
    simp only [laneSpec, laneVal]
    split_ifs with h
    · rw [vlog2, if_pos h]; rfl
    · rfl
  | vrcp =>
    simp only [laneSpec, laneVal]
    split_ifs with h
    · rw [vrcp, if_pos h]; rfl
    · rfl
  | vrsq =>
    simp only [laneSpec, laneVal]
    split_ifs with h
    · rw [vrsq, if_pos h]; rfl
    · rfl

/-! ### The destination -/

/-- The vector that a lane instruction writes. -/
def State.laneDest (s : State) (x : CoreSt) (o : LaneOp) (f : FmtL) : Payload :=
  ofLanes ((s.laneResults x o f).mapIdx fun l r => match r with
    | some v => BitVec.ofInt 32 v.1
    | none => lane (x.vreg f.d) l)

section Lane

variable {s : State} {x : CoreSt} {o : LaneOp} {f : FmtL} {l : Nat}

theorem State.lane_laneDest (hl : l < 64) {v : Option (Int × Bool × Bool)}
    (hv : (s.laneResults x o f)[l]? = some v) :
    lane (s.laneDest x o f) l = (v.map fun v => BitVec.ofInt 32 v.1).getD (lane (x.vreg f.d) l) := by
  rw [State.laneDest, lane_ofLanes (by simp [State.laneResults]) hl, List.getD_eq_getElem?_getD,
    List.getElem?_mapIdx, hv]
  cases v <;> rfl

/-- The results of the active lanes and of the inactive ones (R141). -/
theorem State.getElem?_laneResults (hl : l < 64) : (s.laneResults x o f)[l]?
    = some (if (laneAct o (x.mreg f.mask)).getLsbD l then
        some (if o = .vsel then plain (if (x.mreg f.mask).getLsbD l
              then (if o = .vbcast then x.sreg f.a else lane (x.vreg f.a) l).toInt
              else (lane (x.vreg f.b) l).toInt)
          else laneVal o (f.ovf == 1) (x.laneN f) (x.laneQi f)
            (if o = .vbcast then x.sreg f.a else lane (x.vreg f.a) l) (lane (x.vreg f.b) l)
            (lane (x.vreg f.d) l) (srWord (s.vecKey x f.rnd) x.seqNo l))
      else none) := by
  rw [State.laneResults, List.getElem?_map, List.getElem?_range hl]; rfl

/-- An active lane gets its value. -/
theorem State.lane_laneDest_of_active (ho : o ≠ .vsel) (hl : l < 64) (hm : (x.mreg f.mask).getLsbD l = true) :
    lane (s.laneDest x o f) l = BitVec.ofInt 32 (laneVal o (f.ovf == 1) (x.laneN f) (x.laneQi f)
      (if o = .vbcast then x.sreg f.a else lane (x.vreg f.a) l) (lane (x.vreg f.b) l)
      (lane (x.vreg f.d) l) (srWord (s.vecKey x f.rnd) x.seqNo l)).1 := by
  have hres := State.getElem?_laneResults (s := s) (x := x) (o := o) (f := f) hl
  rw [laneAct, if_neg ho, if_pos hm, if_neg ho] at hres
  exact State.lane_laneDest hl hres

/-- An inactive lane keeps its value. -/
theorem State.lane_laneDest_of_inactive (ho : o ≠ .vsel) (hl : l < 64)
    (hm : (x.mreg f.mask).getLsbD l = false) : lane (s.laneDest x o f) l = lane (x.vreg f.d) l := by
  have hres := State.getElem?_laneResults (s := s) (x := x) (o := o) (f := f) hl
  rw [laneAct, if_neg ho, hm, if_neg Bool.false_ne_true] at hres
  exact State.lane_laneDest hl hres

/-- VSEL chooses in every lane. -/
theorem State.lane_laneDest_vsel (hl : l < 64) : lane (s.laneDest x .vsel f) l
    = if (x.mreg f.mask).getLsbD l then lane (x.vreg f.a) l else lane (x.vreg f.b) l := by
  have hres := State.getElem?_laneResults (s := s) (x := x) (o := .vsel) (f := f) hl
  have hnot : ¬ (LaneOp.vsel = .vbcast) := by decide
  rw [laneAct, if_pos rfl, BitVec.getLsbD_allOnes, decide_eq_true hl, if_pos rfl, if_pos rfl, if_neg hnot]
    at hres
  rw [State.lane_laneDest hl hres, Option.map_some, Option.getD_some, plain]
  split_ifs
  · exact BitVec.ofInt_toInt
  · exact BitVec.ofInt_toInt

/-- A core after a lane instruction that is no compare: the destination, the counts of events, the sequence
number, and the fold where RED names one. -/
def CoreSt.laneDone (y x : CoreSt) (f : FmtL) (d : Payload) (act : W64) (sats doms : Nat) : CoreSt :=
  let z := (((y.setV f.d d).vsat sats).vdom doms).seqNext x f.rnd 1
  if f.rop = 0 then z else { z with folds := z.folds ++ [⟨f.racc.toNat, false, f.rop, d, act⟩] }

theorem CoreSt.laneDone_vreg (y x : CoreSt) (f : FmtL) (d : Payload) (act : W64) (sats doms : Nat) :
    (y.laneDone x f d act sats doms).vreg f.d = d := by
  have h : (y.laneDone x f d act sats doms).vregs = (y.setV f.d d).vregs := by
    unfold CoreSt.laneDone CoreSt.seqNext
    split_ifs <;> rfl
  rw [CoreSt.vreg, h]
  exact CoreSt.vreg_setV_same ..

theorem CoreSt.laneDone_folds (y x : CoreSt) (f : FmtL) (d : Payload) (act : W64) (sats doms : Nat) :
    (y.laneDone x f d act sats doms).folds
      = if f.rop = 0 then y.folds else y.folds ++ [⟨f.racc.toNat, false, f.rop, d, act⟩] := by
  unfold CoreSt.laneDone CoreSt.seqNext
  split_ifs <;> rfl

theorem State.core_laneEff (c : Nat) (ho : o.cmp = false) : ∃ sats doms, (s.laneEff c x o f).core c
    = (s.core c).laneDone x f (s.laneDest x o f) (laneAct o (x.mreg f.mask)) sats doms := by
  rw [State.laneEff, ho, if_neg Bool.false_ne_true]
  extract_lets rs d
  rw [State.core_modCore]
  exact ⟨_, _, rfl⟩

end Lane

section Statement

variable {s : State} {c : Core} {b : Bundle} {o : LaneOp} {f : FmtL}

/-- The destination of a lane instruction at the end of its bundle. -/
theorem State.vreg_perform_lane (h : Issues s c b) (hvec : b.vec = .lane o f) (ho : o.cmp = false) :
    ((s.perform c b).core c).vreg f.d = (s.vecFrom c b).laneDest ((s.core c).fetched b) o f := by
  have hend := CoreSt.vreg_eq_of_reg
    (State.reg_perform_of_vec h (r := .v f.d) (by simp [hvec, VecOp.writes, ho]))
  obtain ⟨_, _, heff⟩ := State.core_laneEff (s := s.vecFrom c b) (x := (s.core c).fetched b) (f := f) c ho
  rw [hend, State.vecTo, hvec, State.vecEff, heff, CoreSt.laneDone_vreg]

/-- The folds that wait at the end of the bundle of a lane instruction with a RED field. -/
theorem State.folds_perform_lane (hvec : b.vec = .lane o f) (ho : o.cmp = false) (hrop : f.rop ≠ 0) :
    ((s.perform c b).core c).folds = (s.core c).folds ++ [⟨f.racc.toNat, false, f.rop,
      (s.vecFrom c b).laneDest ((s.core c).fetched b) o f, laneAct o ((s.core c).mreg f.mask)⟩] := by
  obtain ⟨-, -, -, hend⟩ := CoreSt.vecStore_fields (s.vecStore_perform c b)
  obtain ⟨-, -, -, hfrom⟩ := CoreSt.vecStore_fields (s.vecStore_vecFrom c b)
  obtain ⟨_, _, heff⟩ := State.core_laneEff (s := s.vecFrom c b) (x := (s.core c).fetched b) (f := f) c ho
  rw [hend, State.vecTo, hvec, State.vecEff, heff, CoreSt.laneDone_folds, if_neg hrop, hfrom]
  rfl

theorem LaneOp.cmp_of_red (o : LaneOp) (h : o.use.red = true) : o.cmp = false := by
  cases o with
  | vcmpEq | vcmpNe | vcmpLt | vcmpLe => cases h
  | _ => rfl

/-- A lane instruction with a RED field is no compare (R250). -/
theorem cmp_of_rop (h : Issues s c b) (hvec : b.vec = .lane o f) (hrop : f.rop ≠ 0) : o.cmp = false := by
  have hrsv := (CoreSt.vecChecks_of_issues h).1
  rw [hvec] at hrsv
  simp only [VecOp.rsv, laneRsv, Bool.or_eq_false_iff] at hrsv
  obtain ⟨⟨⟨-, hred⟩, -⟩, -⟩ := hrsv
  refine o.cmp_of_red (by_contra fun hno => hrop ?_)
  rw [Bool.not_eq_true] at hno
  rw [hno, Bool.not_false, Bool.true_and, Bool.or_eq_false_iff] at hred
  simpa using hred.2

/-- The lanes that a fold takes: those of the mask, and all of them under VSEL (R141). -/
theorem getLsbD_laneAct (o : LaneOp) (m : W64) {l : Nat} (hl : l < 64) :
    (laneAct o m).getLsbD l = (o == .vsel || m.getLsbD l) := by
  unfold laneAct
  split_ifs with ho
  · rw [BitVec.getLsbD_allOnes, decide_eq_true hl, ho]; rfl
  · simp [ho]

end Statement

/-- Settles O12: the vector slot finds its sources, the step and the images as they were, and no other slot
writes its destination. -/
theorem laneResultsFollowTable : Obligations.LaneResultsFollowTable := by
  unfold Obligations.LaneResultsFollowTable
  intro i s c b hb h x
  refine ⟨s.perform c b, by rw [exec_of_bundleOf hb, State.issue_of_issues h], ?_, ?_, ?_⟩
  · intro o f hvec hcmp hsel l hl src r
    rw [State.vreg_perform_lane h hvec hcmp]
    refine ⟨fun hm => ⟨_, laneSpec_eq_laneVal hcmp hsel .., ?_⟩,
      fun hm => State.lane_laneDest_of_inactive hsel hl hm⟩
    have hkey := State.vecKey_of_jobs (s.jobs_vecFrom c b) ((s.core c).fetched b) f.rnd
    rw [State.lane_laneDest_of_active (x := (s.core c).fetched b) hsel hl hm, hkey]
    rfl
  · intro f hvec l hl
    rw [State.vreg_perform_lane h hvec rfl]
    exact State.lane_laneDest_vsel hl
  · intro o f hvec hrop
    have hcmp := cmp_of_rop h hvec hrop
    exact ⟨_, State.folds_perform_lane hvec hcmp hrop, rfl, rfl, rfl,
      (State.vreg_perform_lane h hvec hcmp).symm, fun l hl => getLsbD_laneAct o _ hl⟩

end Sys2Proof.Machine
end

/-! ## Loads and stores of the operand cache (O13) -/

section

namespace Sys2Proof.Machine

open Sys2Proof Sys2Proof.Claims

/-! ### Loads (R147-R149) -/

/-- The element that a load gives an active lane: 0 from an uncorrectable word. -/
def CoreSt.loadLane (x : CoreSt) (o : MemOp) (f : FmtVM) (l : Nat) : W32 :=
  if (Tab.look (fun _ => Ecc.good) x.ocEcc ((x.memAddr o f l).1.toNat / 4)).bad then 0
  else loadElem f.size (x.memAddr o f l).2
    (Tab.lookList (fun _ => 0) x.ocache (x.memAddr o f l).1.toNat (sizeBytes f.size))

theorem CoreSt.mem_memWords {x : CoreSt} {o : MemOp} {f : FmtVM} {l : Nat} (hl : l < 64)
    (hm : (x.mreg f.mask).getLsbD l = true) : (x.memAddr o f l).1.toNat / 4 ∈ x.memWords o f := by
  rw [CoreSt.memWords, List.mem_eraseDups]
  exact List.mem_map.2 ⟨l, List.mem_filter.2 ⟨List.mem_range.2 hl, hm⟩, rfl⟩

/-- The destination of a load, lane by lane. -/
theorem State.lane_loadEff (s : State) (c : Nat) (x : CoreSt) (o : MemOp) (f : FmtVM) {l : Nat} (hl : l < 64) :
    lane (((s.loadEff c x o f).core c).vreg f.v) l
      = if (x.mreg f.mask).getLsbD l then x.loadLane o f l else lane (x.vreg f.v) l := by
  have hbad : (x.mreg f.mask).getLsbD l = true →
      (((x.memWords o f).filter fun w => (Tab.look (fun _ => Ecc.good) x.ocEcc w).bad).contains
          ((x.memAddr o f l).1.toNat / 4)
        = (Tab.look (fun _ => Ecc.good) x.ocEcc ((x.memAddr o f l).1.toNat / 4)).bad) := fun hm => by
    rw [Bool.eq_iff_iff, List.contains_iff_mem, List.mem_filter]
    exact and_iff_right (CoreSt.mem_memWords hl hm)
  unfold State.loadEff
  extract_lets ws bad fixed d
  have hd : lane d l = if (x.mreg f.mask).getLsbD l then x.loadLane o f l else lane (x.vreg f.v) l := by
    unfold d
    rw [lane_ofLanes_map _ hl]
    split_ifs with hm
    · unfold CoreSt.loadLane bad ws
      rw [← hbad hm]
    · rfl
  clear_value ws bad fixed d
  rw [(sameCores_ocReport ..).core, State.core_modCore, ← hd]
  exact congrArg (lane · l) (CoreSt.vreg_setV_same ..)

/-- What a load gives an active lane, by the condition of its word and by its size. -/
theorem CoreSt.loadLane_rules (x : CoreSt) (o : MemOp) (f : FmtVM) (l : Nat) :
    let a := x.memAddr o f l
    let e := Tab.look (fun _ => Ecc.good) x.ocEcc (a.1.toNat / 4)
    let v := leNat (Tab.lookList (fun _ => 0) x.ocache a.1.toNat (sizeBytes f.size))
    ((e = .double ∨ e = .poisoned) → x.loadLane o f l = 0)
      ∧ ((e = .good ∨ e = .single) →
        (f.size ≠ 0 → x.loadLane o f l = BitVec.ofInt 32 (toS (8 * sizeBytes f.size) v))
        ∧ (f.size = 0 → x.loadLane o f l = BitVec.ofInt 32 (toS 4 (v / (if a.2 then 16 else 1))))) := by
  intro a e v
  refine ⟨fun he => ?_, fun he => ?_⟩
  · have hbad : e.bad = true := by rcases he with he | he <;> rw [he] <;> rfl
    exact if_pos hbad
  · have hbad : ¬ e.bad = true := by rcases he with he | he <;> rw [he] <;> decide
    have hload : x.loadLane o f l = loadElem f.size a.2 (Tab.lookList (fun _ => 0) x.ocache a.1.toNat
        (sizeBytes f.size)) := if_neg hbad
    exact ⟨fun hz => by rw [hload, loadElem, if_neg hz], fun hz => by rw [hload, loadElem, if_pos hz]⟩

/-! ### Stores (R146) -/

theorem putMasked_append (l l' : List (Nat × Byte × Byte)) :
    ∀ m, putMasked m (l ++ l') = putMasked (putMasked m l) l' := by
  induction l with
  | nil => exact fun _ => rfl
  | cons e r ih => exact fun m => ih _

/-- What a reading `rd` gives after the lanes of a list have stored one after another, where the store of one
lane changes it for the lanes of `cov` alone: the value of the last of these lanes. -/
theorem putMasked_flatMap {β : Type} (rd : Tab Byte → β) (g : Nat → List (Nat × Byte × Byte)) (cov : Nat → Bool)
    (val : Nat → β) (h : ∀ m l, rd (putMasked m (g l)) = if cov l then val l else rd m) (m : Tab Byte)
    (ls : List Nat) :
    rd (putMasked m (ls.flatMap g)) = ((ls.filter cov).getLast?.map val).getD (rd m) := by
  induction ls using List.reverseRecOn with
  | nil => rfl
  | append_singleton ls l ih =>
    rw [List.flatMap_append, putMasked_append, List.flatMap_singleton, h, List.filter_append, ih]
    cases hc : cov l <;> simp [hc]

/-- Whole bytes are written as a row. -/
theorem putMasked_whole (l : List Byte) : ∀ (m : Tab Byte) (a : Nat),
    putMasked m (l.mapIdx fun i b => (a + i, b, 0xFF)) = Tab.putList (fun _ => 0) m a l := by
  induction l with
  | nil => exact fun _ _ => rfl
  | cons b r ih =>
    intro m a
    have hb : ∀ v : Byte, (v &&& ~~~0xFF) ||| (b &&& 0xFF) = b := fun v => by
      rw [show (0xFF : Byte) = BitVec.allOnes 8 from rfl, BitVec.not_allOnes, BitVec.and_zero, BitVec.and_allOnes,
        BitVec.zero_or]
    have hrow : (r.mapIdx fun i b => (a + (i + 1), b, (0xFF : Byte)))
        = r.mapIdx fun i b => (a + 1 + i, b, 0xFF) := by
      congr 1; funext i b; rw [Nat.add_assoc, Nat.add_comm 1]
    rw [List.mapIdx_cons, hrow, putMasked, hb, ih]
    rfl

/-- A half of a byte. -/
def nibble (b : Byte) (hi : Bool) : BitVec 4 := b.extractLsb' (if hi then 4 else 0) 4

theorem toNat_nibble (b : Byte) (hi : Bool) : (nibble b hi).toNat = b.toNat / (if hi then 16 else 1) % 16 := by
  rw [nibble, BitVec.extractLsb'_toNat, Nat.shiftRight_eq_div_pow]
  cases hi <;> rfl

theorem nibble_masked (b v : Byte) (h hi : Bool) :
    nibble ((b &&& ~~~(if h then 0xF0 else 0x0F)) ||| (v &&& (if h then 0xF0 else 0x0F))) hi
      = if h = hi then nibble v hi else nibble b hi := by
  have hmask : ∀ h hi : Bool, ∀ j < 4,
      (if h then 0xF0 else 0x0F : Byte).getLsbD ((if hi then 4 else 0) + j) = (h == hi) := by decide
  refine BitVec.eq_of_getLsbD_eq fun j hj => ?_
  have hbit : (if hi then 4 else 0) + j < 8 := by split <;> omega
  simp only [nibble, BitVec.getLsbD_extractLsb', BitVec.getLsbD_or, BitVec.getLsbD_and, BitVec.getLsbD_not,
    hmask h hi j hj, hj, hbit, decide_true, Bool.true_and]
  by_cases hh : h = hi
  · simp [hh, hj]
  · simp [hh, hj, beq_false_of_ne hh]

/-- The value that a lane stores (R146). -/
def CoreSt.storeVal (x : CoreSt) (f : FmtVM) (l : Nat) : Int :=
  (storeElem f.size (f.ovf == 1) (lane (x.vreg f.v) l)).1

/-- The bytes that a lane stores. -/
def CoreSt.storeLane (x : CoreSt) (o : MemOp) (f : FmtVM) (l : Nat) : List (Nat × Byte × Byte) :=
  storeBytes f.size (x.memAddr o f l).1.toNat (x.memAddr o f l).2 (x.storeVal f l)

theorem CoreSt.storeVal_eq (x : CoreSt) (f : FmtVM) (l : Nat) : x.storeVal f l =
    if f.ovf = 1 then wrapw (lane (x.vreg f.v) l).toInt (if f.size = 0 then 4 else 8 * sizeBytes f.size)
    else satw (lane (x.vreg f.v) l).toInt (if f.size = 0 then 4 else 8 * sizeBytes f.size) :=
  ovfw_fst ..

/-- The cache after a store: the active lanes store in the order of their numbers. -/
theorem State.ocache_storeEff (s : State) (c : Nat) (x : CoreSt) (o : MemOp) (f : FmtVM) :
    ((s.storeEff c x o f).core c).ocache = putMasked (s.core c).ocache
      (((List.range 64).filter fun l => (x.mreg f.mask).getLsbD l).flatMap (x.storeLane o f)) := by
  unfold State.storeEff
  extract_lets act el bs ws part bad fixed
  have hbs : bs = act.flatMap (x.storeLane o f) := List.flatMap_map ..
  clear_value bs part bad fixed ws
  rw [(sameCores_ocReport ..).core, State.core_modCore, ← hbs]

/-- A byte after the store of one lane of I8, I16 or I32. -/
theorem CoreSt.look_storeLane (x : CoreSt) (o : MemOp) {f : FmtVM} (hz : f.size ≠ 0) (p : Nat) (m : Tab Byte)
    (l : Nat) : Tab.look (fun _ => 0) (putMasked m (x.storeLane o f l)) p
      = if decide ((x.memAddr o f l).1.toNat ≤ p)
          && decide (p < (x.memAddr o f l).1.toNat + sizeBytes f.size) then
          (leInt (sizeBytes f.size) (x.storeVal f l)).getD (p - (x.memAddr o f l).1.toNat) 0
        else Tab.look (fun _ => 0) m p := by
  rw [CoreSt.storeLane, storeBytes, if_neg hz, putMasked_whole, Tab.look_putList]
  generalize (x.memAddr o f l).1.toNat = a
  by_cases hlo : a ≤ p
  · by_cases hhi : p < a + sizeBytes f.size
    · have hlen : p - a < (leInt (sizeBytes f.size) (x.storeVal f l)).length := by
        rw [leInt, length_leBytes]; omega
      rw [if_pos hlo, if_pos (by simp [hlo, hhi]), List.getElem?_eq_getElem hlen, List.getD_eq_getElem _ _ hlen]
      rfl
    · have hlen : (leInt (sizeBytes f.size) (x.storeVal f l)).length ≤ p - a := by
        rw [leInt, length_leBytes]; omega
      rw [if_pos hlo, if_neg (by simp [hhi]), List.getElem?_eq_none hlen]
      rfl
  · rw [if_neg hlo, if_neg (by simp [hlo])]

/-- A half of a byte after the store of one lane of I4. -/
theorem CoreSt.nibble_storeLane (x : CoreSt) (o : MemOp) {f : FmtVM} (hz : f.size = 0) (p : Nat) (hi : Bool)
    (m : Tab Byte) (l : Nat) :
    (nibble (Tab.look (fun _ => 0) (putMasked m (x.storeLane o f l)) p) hi).toNat
      = if decide ((x.memAddr o f l).1.toNat = p) && (x.memAddr o f l).2 == hi then (x.storeVal f l % 16).toNat
        else (nibble (Tab.look (fun _ => 0) m p) hi).toNat := by
  rw [CoreSt.storeLane, storeBytes, if_pos hz]
  generalize (x.memAddr o f l).1.toNat = a
  generalize (x.memAddr o f l).2 = h
  have hn : (x.storeVal f l % 16).toNat < 16 := by omega
  generalize (x.storeVal f l % 16).toNat = n at hn
  have hrow : (if h then (a, BitVec.ofNat 8 (n * 16), 0xF0) else (a, BitVec.ofNat 8 n, 0x0F) : Nat × Byte × Byte)
      = (a, BitVec.ofNat 8 (n * if h then 16 else 1), if h then 0xF0 else 0x0F) := by cases h <;> simp
  rw [hrow, putMasked, putMasked, Tab.look_put]
  by_cases hap : a = p
  · have hval : (nibble (BitVec.ofNat 8 (n * if h then 16 else 1)) h).toNat = n := by
      rw [toNat_nibble, BitVec.toNat_ofNat]
      cases h <;> simp <;> omega
    rw [if_pos hap, nibble_masked, hap]
    by_cases hh : h = hi
    · rw [if_pos hh, ← hh, hval]; simp
    · rw [if_neg hh, if_neg (by simpa using hh)]
  · rw [if_neg hap, if_neg (by simp [hap])]

/-- The lanes that count among the active ones. -/
theorem filter_active (act cov : Nat → Bool) (ls : List Nat) :
    (ls.filter act).filter cov = ls.filter fun l => act l && cov l := by
  rw [List.filter_filter]
  exact List.filter_congr fun l _ => Bool.and_comm ..

section Statement

variable {s : State} {c : Core} {b : Bundle} {o : MemOp} {f : FmtVM}

/-- The destination of a load at the end of its bundle. -/
theorem State.lane_perform_load (h : Issues s c b) (hvec : b.vec = .mem o f) (ho : o = .vld ∨ o = .vldx)
    {l : Nat} (hl : l < 64) : lane (((s.perform c b).core c).vreg f.v) l
      = if ((s.core c).mreg f.mask).getLsbD l then (s.core c).loadLane o f l
        else lane ((s.core c).vreg f.v) l := by
  have hend := CoreSt.vreg_eq_of_reg
    (State.reg_perform_of_vec h (r := .v f.v) (by rcases ho with rfl | rfl <;> simp [hvec, VecOp.writes]))
  have heff : s.vecTo c b = (s.vecFrom c b).loadEff c ((s.core c).fetched b) o f := by
    rw [State.vecTo, hvec]
    rcases ho with rfl | rfl <;> rfl
  rw [hend, heff, State.lane_loadEff _ _ _ _ _ hl]
  rcases ho with rfl | rfl <;> rfl

/-- The cache at the end of the bundle of a store. -/
theorem State.ocache_perform_store (hvec : b.vec = .mem o f) (ho : o = .vst ∨ o = .vstx) :
    ((s.perform c b).core c).ocache = putMasked (s.core c).ocache
      (((List.range 64).filter fun l => ((s.core c).mreg f.mask).getLsbD l).flatMap
        ((s.core c).storeLane o f)) := by
  obtain ⟨hend, -⟩ := CoreSt.vecStore_fields (s.vecStore_perform c b)
  obtain ⟨hfrom, -⟩ := CoreSt.vecStore_fields (s.vecStore_vecFrom c b)
  have heff : s.vecTo c b = (s.vecFrom c b).storeEff c ((s.core c).fetched b) o f := by
    rw [State.vecTo, hvec]
    rcases ho with rfl | rfl <;> rfl
  rw [hend, heff, State.ocache_storeEff, hfrom]
  rcases ho with rfl | rfl <;> rfl

end Statement

/-- Settles O13: a load reads the cache as it was before the issue, and the lanes of a store write it one
after another, so that the last of those that cover a byte or a nibble stands. -/
theorem cacheAccessesReachActiveLanes : Obligations.CacheAccessesReachActiveLanes := by
  unfold Obligations.CacheAccessesReachActiveLanes
  constructor
  · intro i s c b hb h x
    refine ⟨s.perform c b, by rw [exec_of_bundleOf hb, State.issue_of_issues h], ?_⟩
    intro o f hvec ho l hl a e v
    rw [State.lane_perform_load h hvec ho hl]
    refine ⟨fun hm => by rw [hm, if_neg Bool.false_ne_true], fun hm => ?_⟩
    rw [hm, if_pos rfl]
    exact x.loadLane_rules o f l
  · intro i s c b hb h x
    refine ⟨s.perform c b, by rw [exec_of_bundleOf hb, State.issue_of_issues h], ?_, ?_⟩
    · intro o f hvec ho hz p nib hi
      have hlast : lastNibble x o f p hi = (((List.range 64).filter fun l => (x.mreg f.mask).getLsbD l).filter
          fun l => decide ((x.memAddr o f l).1.toNat = p) && (x.memAddr o f l).2 == hi).getLast? := by
        rw [filter_active]; simp only [lastNibble, Bool.and_assoc]
      have hstore := putMasked_flatMap (fun m => (nibble (Tab.look (fun _ => 0) m p) hi).toNat) _ _ _
        (x.nibble_storeLane o hz p hi) x.ocache ((List.range 64).filter fun l => (x.mreg f.mask).getLsbD l)
      rw [← hlast, ← State.ocache_perform_store hvec ho, toNat_nibble, toNat_nibble] at hstore
      have hend : nib ((s.perform c b).core c).ocache hi
          = ((lastNibble x o f p hi).map fun l => (x.storeVal f l % 16).toNat).getD (nib x.ocache hi) := hstore
      rw [hend]
      cases lastNibble x o f p hi with
      | none => rfl
      | some l =>
        have hval := x.storeVal_eq f l
        rw [if_pos hz] at hval
        exact (Int.toNat_of_nonneg (by omega)).trans (congrArg (· % 16) hval)
    · intro o f hvec ho hz p
      have hlast : lastLane x o f p = (((List.range 64).filter fun l => (x.mreg f.mask).getLsbD l).filter
          fun l => decide ((x.memAddr o f l).1.toNat ≤ p)
            && decide (p < (x.memAddr o f l).1.toNat + sizeBytes f.size)).getLast? := by
        rw [filter_active]; simp only [lastLane, Bool.and_assoc]
      have hstore := putMasked_flatMap (fun m => Tab.look (fun _ => 0) m p) _ _ _
        (x.look_storeLane o hz p) x.ocache ((List.range 64).filter fun l => (x.mreg f.mask).getLsbD l)
      rw [← hlast, ← State.ocache_perform_store hvec ho] at hstore
      rw [hstore]
      cases lastLane x o f p with
      | none => rfl
      | some l =>
        have hval := x.storeVal_eq f l
        rw [if_neg hz] at hval
        rw [Option.map_some, Option.getD_some, hval]

end Sys2Proof.Machine
end

/-! ## VTILE (O15) -/

section

namespace Sys2Proof.Machine

open Sys2Proof Sys2Proof.Claims

/-! ### Lengths -/

theorem groupsOf_lookList {α : Type} (d : Nat → α) (m : Tab α) {n : Nat} (hn : 0 < n) (k : Nat) :
    ∀ a, groupsOf n k (Tab.lookList d m a (n * k))
      = (List.range k).map fun e => Tab.lookList d m (a + n * e) n := by
  induction k with
  | zero => intro a; rfl
  | succ k ih =>
    intro a
    have hne : Tab.lookList d m a (n * (k + 1)) ≠ [] := by
      rw [← List.length_pos_iff_ne_nil, Tab.length_lookList]
      positivity
    have hhead : (Tab.lookList d m a (n * (k + 1))).take n = Tab.lookList d m a n :=
      Tab.take_drop_lookList d m a (i := 0) (by rw [Nat.mul_succ]; omega)
    have htail : (Tab.lookList d m a (n * (k + 1))).drop n = Tab.lookList d m (a + n) (n * k) := by
      rw [← Tab.take_drop_lookList d m a (i := n) (m := n * k) (n := n * (k + 1)) (by rw [Nat.mul_succ]; omega),
        List.take_of_length_le]
      rw [List.length_drop, Tab.length_lookList, Nat.mul_succ]
      omega
    rw [groupsOf, hhead, htail, ih, List.range_succ_eq_map, List.map_cons, List.map_map]
    · congr 1
      refine List.map_congr_left fun e _ => ?_
      rw [Function.comp_apply, Nat.mul_succ]
      congr 1
      omega
    · exact hne

theorem length_groupsOf {α : Type} {n : Nat} (hn : 0 < n) (m : Nat) : ∀ (fuel : Nat) (l : List α),
    l.length = n * m → m ≤ fuel → (groupsOf n fuel l).length = m := by
  induction m with
  | zero =>
    intro fuel l hl _
    obtain rfl : l = [] := List.length_eq_zero_iff.1 hl
    cases fuel <;> rfl
  | succ m ih =>
    rintro (_ | fuel) l hl hfuel
    · omega
    · have hne : l ≠ [] := by
        rw [← List.length_pos_iff_ne_nil, hl]
        positivity
      rw [groupsOf, List.length_cons, ih fuel _ (by rw [List.length_drop, hl, Nat.mul_succ]; omega) (by omega)]
      exact hne

@[simp] theorem length_roundAll (t : List Int) (n : Int) (r : Nat → Option W32) :
    (roundAll t n r).length = t.length := by simp [roundAll]

@[simp] theorem length_quantEnd (y : List Int) (sOut : Int) (w : Nat) (fixed wrap clamp : Bool) :
    (quantEnd y sOut w fixed wrap clamp).y.length = y.length := by simp [quantEnd]

/-- quant() gives one mantissa for each element. -/
theorem length_quant (t : List Int) (sT : Int) (w : Nat) (fix : Option Int) (h : Nat)
    (r : Nat → Option W32) (wrap : Bool) : (quant t sT w fix h r wrap).y.length = t.length := by
  cases fix with
  | some sFix => simp [quant]
  | none =>
    rw [quant]
    split_ifs
    · simp
    · dsimp only
      split_ifs <;> simp

/-- The bytes of a stored tile (R53). -/
theorem length_packMant (w : BitVec 2) {y : List Int} (hy : y.length = 1024) :
    (packMant (wBits w) y).length = 128 * wBits w := by
  have hbytes : ∀ v, v = 8 ∨ v = 16 ∨ v = 32 → (packMant v y).length = 128 * v := fun v hv => by
    have hv4 : v ≠ 4 := by omega
    rw [packMant, if_neg hv4, List.length_flatMap]
    simp only [leInt, length_leBytes, List.map_const', List.sum_replicate, hy, smul_eq_mul]
    omega
  match w with
  | 0 =>
    rw [show wBits 0 = 4 from rfl, packMant, if_pos rfl, List.length_map,
      length_groupsOf (by decide) 512 _ _ hy (by omega)]
  | 1 => exact hbytes 8 (.inl rfl)
  | 2 => exact hbytes 16 (.inr (.inl rfl))
  | 3 => exact hbytes 32 (.inr (.inr rfl))

/-! ### The read of a class and the output of a tile -/

section Tile

variable {s : State} {c : Nat}

theorem State.ocRead_of_ecc_nil (h : (s.core c).ocEcc = []) (a n : Nat) :
    (s.ocRead c a n).1.bytes = Tab.lookList (fun _ => 0) (s.core c).ocache a n
      ∧ ((s.ocRead c a n).2.core c).ocache = (s.core c).ocache
      ∧ ((s.ocRead c a n).2.core c).ocEcc = [] ∧ (s.ocRead c a n).2.jobs = s.jobs := by
  have hread : (s.ocRead c a n).1
      = ⟨Tab.lookList (fun _ => 0) (s.core c).ocache a n, [], []⟩ := by
    rw [State.ocRead, ramRead, h]
    simp [eccIn]
  have hcore : (s.ocRead c a n).2.core c = { (s.core c).ocCount (s.ocRead c a n).1.fixed.length
        (s.ocRead c a n).1.bad.length with ocEcc := eccFixed (s.core c).ocEcc (s.ocRead c a n).1.fixed } :=
    ((sameCores_ocReport ..).core c).trans (State.core_setCore ..)
  refine ⟨by rw [hread], by rw [hcore]; rfl, by rw [hcore, h]; rfl, ?_⟩
  exact (State.jobs_logWords ..).trans (State.jobs_corrWords ..)

/-- The elements and the scale of a class, read from a cache without codewords in error. -/
theorem State.readClass_of_ecc_nil (h : (s.core c).ocEcc = []) (base stride n : Nat) :
    (s.readClass c base stride n 0).1.vals = ((List.range 1024).map fun e =>
          toS 32 (leNat (Tab.lookList (fun _ => 0) (s.core c).ocache (base + n * 0x1000 + 4 * e) 4)))
      ∧ (s.readClass c base stride n 0).1.scale
        = toS 16 (leNat (Tab.lookList (fun _ => 0) (s.core c).ocache (base + 0x4000 + n * 8) 2))
      ∧ ((s.readClass c base stride n 0).2.core c).ocache = (s.core c).ocache
      ∧ (s.readClass c base stride n 0).2.jobs = s.jobs := by
  obtain ⟨helem, hcache, hecc, hjobs⟩ := State.ocRead_of_ecc_nil h (base + n * 0x1000) 4096
  obtain ⟨hscale, hcache', -, hjobs'⟩ := State.ocRead_of_ecc_nil hecc (base + 0x4000 + n * 8) 8
  simp only [State.readClass, Nat.zero_mul, Nat.add_zero]
  refine ⟨?_, ?_, hcache'.trans hcache, hjobs'.trans hjobs⟩
  · rw [helem, groupsOf_lookList _ _ (n := 4) (by decide) 1024, List.map_map]
    rfl
  · rw [hscale, hcache, fieldLe, Tab.take_drop_lookList _ _ _ (by decide)]
    rfl

/-- VTILE of one array under mode 0: the tile that it quantises (R153, R154). -/
def State.tileQuant (s : State) (c : Nat) (x : CoreSt) (f : FmtVtile) (n tseq : Nat) : Quant :=
  let u := s.readClass c (x.sreg f.sbase).toNat (0x1000 * f.stride.toNat) n 0
  quant ((List.range 1024).map fun e => u.1.vals.getD e 0) u.1.scale (wBits f.w)
    (if f.pol = 0 then some (satw (x.sreg f.h).toInt 8) else none) f.h.toNat
    (fun e => srWord (u.2.vecKey x f.rnd) (tseq + e / 1024) (e % 1024)) (f.ovf == 1)

/-- Mode 0 takes the elements of its one class as they are. -/
theorem combineTile_zero (wrap : Bool) (k : TileClass) :
    (combineTile 0 wrap [k]).1 = (List.range 1024).map fun e => k.vals.getD e 0 := by
  simp only [combineTile, OfNat.zero_ne_ofNat, if_false, if_true, List.map_map]
  exact List.map_congr_left fun e _ => rfl

theorem CoreSt.ocache_counted (y : CoreSt) (sats doms : Nat) : ((y.vsat sats).vdom doms).ocache = y.ocache :=
  rfl

/-- The cache after VTILE of one array under mode 0: the mantissas, the scale byte and the descriptor. -/
theorem State.ocache_tileArray {f : FmtVtile} (hmode : f.mode = 0) (x : CoreSt) (n tseq : Nat) :
    ∃ desc, ((s.tileArray c x f n tseq).core c).ocache
      = Tab.putList (fun _ => 0) (Tab.putList (fun _ => 0) (Tab.putList (fun _ => 0)
          ((s.readClass c (x.sreg f.sbase).toNat (0x1000 * f.stride.toNat) n 0).2.core c).ocache
          ((x.sreg f.sdst).toNat + n * 0x1000)
          (packMant (wBits f.w) ((s.tileQuant c x f n tseq).y.take 1024)))
          ((x.sreg f.sdst).toNat + 0x4000 + n) (leInt 1 (s.tileQuant c x f n tseq).scale))
          ((x.sreg f.sdst).toNat + 0x4004 + n) [desc] := by
  have hmode0 : f.mode.toNat = 0 := by rw [hmode]; rfl
  have hrange : List.range (tileShifts f.mode.toNat).length = [0] := by rw [hmode0]; rfl
  unfold State.tileArray
  extract_lets mode u cls st cb q sat p s1 s2 s3
  have hu : u = ([(s.readClass c (x.sreg f.sbase).toNat (0x1000 * f.stride.toNat) n 0).1],
      (s.readClass c (x.sreg f.sbase).toNat (0x1000 * f.stride.toNat) n 0).2) := by
    unfold u
    rw [hrange, State.readClasses, State.readClasses]
  have hcb : cb.1 = (List.range 1024).map fun e =>
      (s.readClass c (x.sreg f.sbase).toNat (0x1000 * f.stride.toNat) n 0).1.vals.getD e 0 := by
    unfold cb cls mode
    rw [hu, hmode0, combineTile_zero]
  have hq : q = s.tileQuant c x f n tseq := by
    unfold q st cls
    rw [hcb, hu]
    rfl
  have hp : p = ((x.sreg f.sdst).toNat + n * 0x1000, 0, (x.sreg f.sdst).toNat + 0x4000 + n,
      (x.sreg f.sdst).toNat + 0x4004 + n) := by
    unfold p mode
    rw [hmode0, tilePlace, if_neg (by decide)]
  have hmode4 : ¬ mode = 4 := by
    unfold mode
    omega
  have hs2 : s2 = s1 := if_neg hmode4
  refine ⟨BitVec.ofNat 8 ((if sat then 1 else 0) + if cls.any (·.poison) then 2 else 0), ?_⟩
  rw [State.core_modCore, CoreSt.ocache_counted]
  unfold s3
  rw [State.ocWrite_ocache, State.ocWrite_ocache, hs2]
  unfold s1
  rw [State.ocWrite_ocache, hp, hq, hu]

/-- What VTILE of one array under mode 0 leaves at its mantissas and at its scale byte. -/
theorem State.look_tileArray {f : FmtVtile} (hmode : f.mode = 0) (x : CoreSt) {n : Nat} (hn : n < 4) (tseq : Nat) :
    (∀ k < 128 * wBits f.w,
      Tab.look (fun _ => 0) ((s.tileArray c x f n tseq).core c).ocache ((x.sreg f.sdst).toNat + n * 0x1000 + k)
        = (packMant (wBits f.w) (s.tileQuant c x f n tseq).y).getD k 0)
      ∧ Tab.look (fun _ => 0) ((s.tileArray c x f n tseq).core c).ocache ((x.sreg f.sdst).toNat + 0x4000 + n)
        = (leInt 1 (s.tileQuant c x f n tseq).scale).getD 0 0 := by
  obtain ⟨desc, hcache⟩ := State.ocache_tileArray (s := s) (c := c) hmode x n tseq
  have hy : (s.tileQuant c x f n tseq).y.length = 1024 := by
    rw [State.tileQuant, length_quant, List.length_map, List.length_range]
  rw [hcache, List.take_of_length_le hy.le]
  generalize (x.sreg f.sdst).toNat = dst
  constructor
  · intro k hk
    have hw : wBits f.w ≤ 32 := by
      have hcode := f.w.isLt
      unfold wBits
      interval_cases f.w.toNat <;> decide
    have hlen : k < (packMant (wBits f.w) (s.tileQuant c x f n tseq).y).length := by
      rwa [length_packMant f.w hy]
    rw [Tab.look_putList, if_neg (by omega), Tab.look_putList, if_neg (by omega), Tab.look_putList,
      if_pos (by omega), show dst + n * 0x1000 + k - (dst + n * 0x1000) = k by omega,
      List.getElem?_eq_getElem hlen, List.getD_eq_getElem _ _ hlen, Option.getD_some]
  · rw [Tab.look_putList, if_neg (by omega), Tab.look_putList, if_pos (by omega), Nat.sub_self]
    rfl

end Tile

/-- The cache at the end of the bundle of a VTILE of one array. -/
theorem State.ocache_perform_tile {s : State} {c : Core} {b : Bundle} {f : FmtVtile} {n : Nat}
    (hvec : b.vec = .vtile f) (hn : n < 4) (hmask : f.amask = BitVec.ofNat 4 (2 ^ n)) :
    ((s.perform c b).core c).ocache
      = (((s.vecFrom c b).tileArray c ((s.core c).fetched b) f n (s.core c).seqNo).core c).ocache := by
  have hseq : ∀ (y x : CoreSt) k, (y.seqNext x f.rnd k).ocache = y.ocache := fun y x k => by
    unfold CoreSt.seqNext
    split <;> rfl
  obtain ⟨hend, -⟩ := CoreSt.vecStore_fields (s.vecStore_perform c b)
  rw [hend, State.vecTo, hvec, State.vecEff, State.tileEff, State.core_modCore, hseq, hmask, masked_single hn]
  rfl

/-- The tile that VTILE quantises, from a cache without codewords in error. -/
theorem State.tileQuant_vecFrom {s : State} {c : Core} {b : Bundle} (hecc : (s.core c).ocEcc = [])
    (f : FmtVtile) (n : Nat) :
    let x := s.core c
    let base := (x.sreg f.sbase).toNat
    (s.vecFrom c b).tileQuant c (x.fetched b) f n x.seqNo
      = quant ((List.range 1024).map fun e =>
            toS 32 (leNat (Tab.lookList (fun _ => 0) x.ocache (base + n * 0x1000 + 4 * e) 4)))
          (toS 16 (leNat (Tab.lookList (fun _ => 0) x.ocache (base + 0x4000 + n * 8) 2))) (wBits f.w)
          (if f.pol = 0 then some (satw (x.sreg f.h).toInt 8) else none) f.h.toNat
          (fun e => srWord (s.vecKey x f.rnd) (x.seqNo + e / 1024) (e % 1024)) (f.ovf == 1) := by
  intro x base
  obtain ⟨hcache, hecc', -⟩ := CoreSt.vecStore_fields (s.vecStore_vecFrom c b)
  obtain ⟨hvals, hscale, -, hjobs⟩ :=
    State.readClass_of_ecc_nil (hecc'.trans hecc) base (0x1000 * f.stride.toNat) n
  have hkey : ((s.vecFrom c b).readClass c base (0x1000 * f.stride.toNat) n 0).2.vecKey (x.fetched b) f.rnd
      = s.vecKey x f.rnd := State.vecKey_of_jobs (hjobs.trans (s.jobs_vecFrom c b)) _ _
  rw [hcache] at hvals hscale
  have helems : ((List.range 1024).map fun e =>
      ((s.vecFrom c b).readClass c base (0x1000 * f.stride.toNat) n 0).1.vals.getD e 0)
      = (List.range 1024).map fun e =>
          toS 32 (leNat (Tab.lookList (fun _ => 0) x.ocache (base + n * 0x1000 + 4 * e) 4)) := by
    refine List.map_congr_left fun e he => ?_
    rw [hvals, List.getD_eq_getElem?_getD, List.getElem?_map, List.getElem?_range (List.mem_range.1 he)]
    rfl
  rw [State.tileQuant, CoreSt.fetched_sreg, helems, hscale, hkey]
  rfl

/-- Settles O15: the slots before the vector slot leave the cache, the step and the images as they were, and
the scale byte and the descriptor lie past the mantissas. -/
theorem tileOutputIsQuantised : Obligations.TileOutputIsQuantised := by
  unfold Obligations.TileOutputIsQuantised
  intro i s c b hb h x
  refine ⟨s.perform c b, by rw [exec_of_bundleOf hb, State.issue_of_issues h], ?_⟩
  intro f n hvec hmode hn hmask hecc base dst vals sT q
  have hlook := State.look_tileArray (s := s.vecFrom c b) (c := c) hmode ((s.core c).fetched b) hn x.seqNo
  rw [State.tileQuant_vecFrom hecc, ← State.ocache_perform_tile hvec hn hmask] at hlook
  exact hlook

end Sys2Proof.Machine
end

/-! ## The context switch and back (O23) -/

section

namespace Sys2Proof.Machine

open Sys2Proof Sys2Proof.Claims

/-! ### Rows of bytes, written and read -/

section Bytes

variable {α : Type}

/-- A row that was written reads back. -/
theorem Tab.lookList_putList_same [DecidableEq α] (d : Nat → α) (m : Tab α) (a : Nat) (l : List α) :
    Tab.lookList d (Tab.putList d m a l) a l.length = l := by
  refine List.ext_getElem (by simp) fun i hi hl => ?_
  have h := Tab.getElem?_lookList d (Tab.putList d m a l) a hl
  rw [Tab.look_putList, if_pos (by omega), Nat.add_sub_cancel_left, List.getElem?_eq_getElem hl] at h
  exact List.getElem_eq_iff hi |>.2 h

/-- A row is determined by its entries. -/
theorem Tab.lookList_congr (d : Nat → α) {m m' : Tab α} {a n : Nat}
    (h : ∀ p, a ≤ p → p < a + n → Tab.look d m p = Tab.look d m' p) :
    Tab.lookList d m a n = Tab.lookList d m' a n := by
  rw [Tab.lookList_eq_map, Tab.lookList_eq_map]
  exact List.map_congr_left fun i hi => h _ (by omega) (by have := List.mem_range.1 hi; omega)

theorem Tab.look_putList_outside [DecidableEq α] (d : Nat → α) (m : Tab α) {a p : Nat} {l : List α}
    (h : p < a ∨ a + l.length ≤ p) : Tab.look d (Tab.putList d m a l) p = Tab.look d m p := by
  rw [Tab.look_putList]
  split_ifs with hp
  · rw [List.getElem?_eq_none (by omega)]; rfl
  · rfl

end Bytes

theorem leNat_leBytes (n : Nat) : ∀ v, leNat (leBytes n v) = v % 256 ^ n := by
  induction n with
  | zero => intro v; rw [Nat.pow_zero, Nat.mod_one]; rfl
  | succ n ih =>
    intro v
    have hb : (BitVec.ofNat 8 v).toNat = v % 256 := BitVec.toNat_ofNat ..
    rw [leBytes, leNat, ih, hb, show 256 ^ (n + 1) = 256 * 256 ^ n from Nat.pow_succ', Nat.mod_mul]

/-- A word that is stored in enough bytes is loaded as it was. -/
theorem ofNat_leNat_leBytes {w : Nat} (v : BitVec w) {n : Nat} (h : w ≤ 8 * n) :
    BitVec.ofNat w (leNat (leBytes n v.toNat)) = v := by
  have hpow : 2 ^ w ≤ 256 ^ n := by
    rw [show 256 = 2 ^ 8 from rfl, ← Nat.pow_mul]
    exact Nat.pow_le_pow_right (by decide) h
  rw [leNat_leBytes, Nat.mod_eq_of_lt (v.isLt.trans_le hpow), BitVec.ofNat_toNat, BitVec.setWidth_eq]

theorem fieldLe_eq (l : List Byte) (o n : Nat) : fieldLe l o n = leNat (slice l o n) := rfl

theorem slice_append_right (l r : List Byte) {k : Nat} (hk : l.length = k) (o n : Nat) :
    slice (l ++ r) (k + o) n = slice r o n := by
  rw [slice, slice, ← hk, List.drop_append, List.drop_of_length_le (by omega), List.nil_append,
    Nat.add_sub_cancel_left]

/-- A part of a row that lies in its first `k` bytes. -/
theorem slice_append_left (l r : List Byte) {o n : Nat} (h : o + n ≤ l.length) :
    slice (l ++ r) o n = slice l o n := by
  rw [slice, slice, List.drop_append_of_le_length (by omega), List.take_append_of_le_length]
  rw [List.length_drop]; omega

theorem slice_padTo (l : List Byte) {k o n : Nat} (hk : o + n ≤ k) (hl : o + n ≤ l.length) :
    slice (padTo k l) o n = slice l o n := by
  rw [slice, padTo, List.drop_take, List.take_take, Nat.min_eq_left (by omega)]
  exact slice_append_left l _ hl

@[simp] theorem length_padTo (n : Nat) (l : List Byte) : (padTo n l).length = n := by
  simp [padTo]; omega

/-- One record of a run of records of one length. -/
theorem slice_flatMap_range {g : Nat → List Byte} {w : Nat} (hg : ∀ n, (g n).length = w) (N : Nat) {e : Nat}
    (he : e < N) : slice ((List.range N).flatMap g) (w * e) w = g e := by
  have hlen : ((List.range N).flatMap g).length = w * N := by
    simp [List.length_flatMap, hg, Nat.mul_comm]
  refine List.ext_getElem? fun k => ?_
  by_cases hk : k < w
  · rw [slice, List.getElem?_take_of_lt hk, List.getElem?_drop, getElem?_flatMap_of_length hg hk,
      List.getElem?_range he]
    rfl
  · rw [List.getElem?_eq_none (by simp [slice]; omega), List.getElem?_eq_none (by rw [hg]; omega)]

/-! ### Registers filled one after another -/

/-- What a reading gives after a run of writes of which number `k` alone changes it. -/
theorem CoreSt.read_foldl {β : Type} (rd : CoreSt → β) (set : CoreSt → Nat → CoreSt) {k : Nat} {v : β} (l : List Nat)
    (h : ∀ x, ∀ n ∈ l, rd (set x n) = if n = k then v else rd x) :
    ∀ x, rd (l.foldl set x) = if k ∈ l then v else rd x := by
  induction l with
  | nil => exact fun _ => rfl
  | cons n l ih =>
    intro x
    rw [List.foldl_cons, ih fun y m hm => h y m (List.mem_cons_of_mem n hm), h x n List.mem_cons_self]
    by_cases hn : n = k
    · simp [hn]
    · simp [hn, Ne.symm hn]

/-- What a run of writes leaves as each of them does. -/
theorem CoreSt.view_foldl {β : Type} (view : CoreSt → β) (set : CoreSt → Nat → CoreSt)
    (h : ∀ x n, view (set x n) = view x) (l : List Nat) : ∀ x, view (l.foldl set x) = view x := by
  induction l with
  | nil => exact fun _ => rfl
  | cons n l ih => exact fun x => (ih _).trans (h x n)

theorem ofNat_eq_iff_toNat {w n : Nat} (hn : n < 2 ^ w) (k : BitVec w) : BitVec.ofNat w n = k ↔ n = k.toNat := by
  rw [← BitVec.toNat_inj, BitVec.toNat_ofNat, Nat.mod_eq_of_lt hn]

theorem CoreSt.sreg_setS_ofNat (x : CoreSt) {n : Nat} (hn : n < 32) (v : W32) {k : BitVec 5} (hk : k ≠ 0) :
    (x.setS (BitVec.ofNat 5 n) v).sreg k = if n = k.toNat then v else x.sreg k := by
  by_cases h : BitVec.ofNat 5 n = k
  · rw [if_pos ((ofNat_eq_iff_toNat hn k).1 h), h, CoreSt.sreg_setS_same _ hk]
  · rw [if_neg (mt (ofNat_eq_iff_toNat hn k).2 h)]
    exact CoreSt.sreg_eq_of_reg (CoreSt.reg_setS x _ fun hm => absurd (by simpa using hm) (Ne.symm h))

theorem CoreSt.mreg_setM_ofNat (x : CoreSt) {n : Nat} (hn : n < 8) (v : W64) {k : BitVec 3} (hk : k ≠ 0) :
    (x.setM (BitVec.ofNat 3 n) v).mreg k = if n = k.toNat then v else x.mreg k := by
  by_cases h : BitVec.ofNat 3 n = k
  · rw [if_pos ((ofNat_eq_iff_toNat hn k).1 h), h, CoreSt.mreg_setM_same _ hk]
  · rw [if_neg (mt (ofNat_eq_iff_toNat hn k).2 h)]
    exact CoreSt.mreg_eq_of_reg (CoreSt.reg_setM x _ fun hm => absurd (by simpa using hm) (Ne.symm h))

theorem CoreSt.vreg_setV_ofNat (x : CoreSt) {n : Nat} (hn : n < 32) (v : Payload) (k : BitVec 5) :
    (x.setV (BitVec.ofNat 5 n) v).vreg k = if n = k.toNat then v else x.vreg k := by
  by_cases h : BitVec.ofNat 5 n = k
  · rw [if_pos ((ofNat_eq_iff_toNat hn k).1 h), h, CoreSt.vreg_setV_same]
  · rw [if_neg (mt (ofNat_eq_iff_toNat hn k).2 h)]
    exact CoreSt.vreg_eq_of_reg (CoreSt.reg_setV x _ fun hm => absurd (by simpa using hm) (Ne.symm h))

/-! ### The records of a context, as written and as read -/

/-- The part of the sequencer context record before the scalar registers (R216). -/
def seqRecHead (x : CoreSt) : List Byte :=
  padTo 0x18
    (leBytes 2 x.pc.toNat ++ leBytes 2 x.dst.toNat
      ++ leBytes 1 (bitNat x.ds 1 + bitNat x.bksup 2 + bitNat x.stopped 4 + bitNat x.fence.isSome 8)
      ++ leBytes 1 ((x.fence.map fun f => f.kind.toNat).getD 0)
      ++ leBytes 1 x.pcount
      ++ leBytes 1 (bitNat x.pend.cal.isSome 1 + bitNat (!x.pend.xlt.isEmpty) 2
          + bitNat (!x.pend.prot.isEmpty) 4 + bitNat x.pend.brk.isSome 8)
      ++ leBytes 4 x.mode.toNat ++ leBytes 4 x.pmode.toNat
      ++ leBytes 1 (bitNat (x.loop 0).act 1 + bitNat (x.loop 1).act 2 + bitNat (x.loop 2).act 4))
    ++ (x.loop 0).bytes ++ (x.loop 1).bytes ++ (x.loop 2).bytes
    ++ leBytes 8 x.calPend.toNat ++ leBytes 4 x.exc.toNat ++ leBytes 4 x.excInfo.toNat
    ++ padTo 0x40 (leBytes 2 x.excPc.toNat)

theorem seqRecBytes_eq (x : CoreSt) : seqRecBytes x
    = seqRecHead x ++ padTo 0x180 ((List.range 32).flatMap fun n => leBytes 4 (x.sreg (BitVec.ofNat 5 n)).toNat) :=
  rfl

theorem length_seqRecHead (x : CoreSt) : (seqRecHead x).length = 0x80 := by
  simp [seqRecHead, LoopLv.bytes]

@[simp] theorem length_seqRecBytes (x : CoreSt) : (seqRecBytes x).length = 512 := by
  rw [seqRecBytes_eq, List.length_append, length_seqRecHead, length_padTo]

theorem fieldLe_seqRec_sreg (x : CoreSt) {n : Nat} (hn : n < 32) :
    fieldLe (seqRecBytes x) (0x80 + 4 * n) 4 = leNat (leBytes 4 (x.sreg (BitVec.ofNat 5 n)).toNat) := by
  have hlen : ((List.range 32).flatMap fun n => leBytes 4 (x.sreg (BitVec.ofNat 5 n)).toNat).length = 128 := by
    simp [List.length_flatMap]
  rw [fieldLe_eq, seqRecBytes_eq, slice_append_right _ _ (length_seqRecHead x),
    slice_padTo _ (by omega) (by rw [hlen]; omega),
    slice_flatMap_range (fun _ => length_leBytes 4 _) 32 hn]

theorem slice_seqRec_of_head (x : CoreSt) {o n : Nat} (h : o + n ≤ 0x80) :
    slice (seqRecBytes x) o n = slice (seqRecHead x) o n := by
  rw [seqRecBytes_eq, slice_append_left _ _ (by rw [length_seqRecHead]; exact h)]

/-- The words of the sequencer context record, each at its place (R216). -/
theorem slice_seqRec (x : CoreSt) :
    slice (seqRecBytes x) 0 2 = leBytes 2 x.pc.toNat ∧ slice (seqRecBytes x) 2 2 = leBytes 2 x.dst.toNat
      ∧ slice (seqRecBytes x) 8 4 = leBytes 4 x.mode.toNat ∧ slice (seqRecBytes x) 12 4 = leBytes 4 x.pmode.toNat
      ∧ slice (seqRecBytes x) 0x30 8 = leBytes 8 x.calPend.toNat
      ∧ slice (seqRecBytes x) 0x38 4 = leBytes 4 x.exc.toNat := by
  refine ⟨?_, ?_, ?_, ?_, ?_, ?_⟩ <;> rw [slice_seqRec_of_head x (by decide)] <;>
    simp [seqRecHead, padTo, leBytes, LoopLv.bytes, slice]

/-- The bytes of flags of the record. -/
theorem getD_seqRec (x : CoreSt) :
    (seqRecBytes x).getD 4 0
        = BitVec.ofNat 8 (bitNat x.ds 1 + bitNat x.bksup 2 + bitNat x.stopped 4 + bitNat x.fence.isSome 8)
      ∧ (seqRecBytes x).getD 0x10 0
        = BitVec.ofNat 8 (bitNat (x.loop 0).act 1 + bitNat (x.loop 1).act 2 + bitNat (x.loop 2).act 4) := by
  have hbyte : ∀ o, o < 0x80 → (seqRecBytes x).getD o 0 = (seqRecHead x).getD o 0 := fun o ho => by
    rw [seqRecBytes_eq, List.getD_append _ _ _ _ (by rw [length_seqRecHead]; exact ho)]
  rw [hbyte _ (by decide), hbyte _ (by decide)]
  constructor <;> simp [seqRecHead, padTo, leBytes]

/-- The loop levels of the record. -/
theorem slice_seqRec_loop (x : CoreSt) {n : Nat} (hn : n < 3) :
    slice (seqRecBytes x) (0x18 + 8 * n) 2 = leBytes 2 (x.loop n).ls.toNat
      ∧ slice (seqRecBytes x) (0x1A + 8 * n) 2 = leBytes 2 (x.loop n).le.toNat
      ∧ slice (seqRecBytes x) (0x1C + 8 * n) 4 = leBytes 4 (x.loop n).lc.toNat := by
  rw [slice_seqRec_of_head x (by omega), slice_seqRec_of_head x (by omega), slice_seqRec_of_head x (by omega)]
  interval_cases n <;> simp [seqRecHead, padTo, leBytes, LoopLv.bytes, slice]

/-- The lowest bit of a byte of flags. -/
theorem getLsbD_flags (a b c d : Bool) :
    let v := BitVec.ofNat 8 (bitNat a 1 + bitNat b 2 + bitNat c 4 + bitNat d 8)
    v.getLsbD 0 = a ∧ v.getLsbD 1 = b ∧ v.getLsbD 2 = c := by
  revert a b c d; decide

theorem getLsbD_acts (a b c : Bool) :
    let v := BitVec.ofNat 8 (bitNat a 1 + bitNat b 2 + bitNat c 4)
    v.getLsbD 0 = a ∧ v.getLsbD 1 = b ∧ v.getLsbD 2 = c := by
  revert a b c; decide

/-- The vector context record: the cache, the vector registers, the mask registers, the rest (R176). -/
theorem vectorRecBytes_eq (x : CoreSt) (oc : List Byte) : ∃ rest, rest.length = 0x140 ∧ vectorRecBytes x oc
    = padTo 0x40000 oc ++ ((List.range 32).flatMap (fun n => leBytes 256 (x.vreg (BitVec.ofNat 5 n)).toNat)
      ++ ((List.range 8).flatMap (fun n => leBytes 8 (if n = 0 then 0 else (x.mreg (BitVec.ofNat 3 n)).toNat))
      ++ rest)) := by
  refine ⟨(List.range 4).flatMap (fun n => (x.racc n).bytes) ++ ((List.range 8).flatMap (fun t => (x.tap t).bytes)
    ++ padTo 64 (leBytes 2 x.satStep.toNat ++ leBytes 2 x.domStep.toNat ++ leBytes 4 x.vseq.toNat)), ?_, ?_⟩
  · simp [List.length_flatMap, RAcc.bytes, TapSt.bytes]
  · simp only [vectorRecBytes, List.append_assoc]

theorem length_vregBytes (x : CoreSt) :
    ((List.range 32).flatMap fun n => leBytes 256 (x.vreg (BitVec.ofNat 5 n)).toNat).length = 0x2000 := by
  simp [List.length_flatMap]

theorem length_mregBytes (x : CoreSt) : ((List.range 8).flatMap fun n =>
    leBytes 8 (if n = 0 then 0 else (x.mreg (BitVec.ofNat 3 n)).toNat)).length = 0x40 := by
  simp [List.length_flatMap]

@[simp] theorem length_vectorRecBytes (x : CoreSt) (oc : List Byte) : (vectorRecBytes x oc).length = 0x42180 := by
  obtain ⟨rest, hlen, heq⟩ := vectorRecBytes_eq x oc
  rw [heq, List.length_append, List.length_append, List.length_append, length_padTo, length_vregBytes,
    length_mregBytes, hlen]

theorem slice_vectorRec_vreg (x : CoreSt) (oc : List Byte) {n : Nat} (hn : n < 32) :
    slice (vectorRecBytes x oc) (0x40000 + 256 * n) 256 = leBytes 256 (x.vreg (BitVec.ofNat 5 n)).toNat := by
  obtain ⟨rest, -, heq⟩ := vectorRecBytes_eq x oc
  rw [heq, slice_append_right _ _ (length_padTo ..), slice_append_left _ _ (by rw [length_vregBytes]; omega),
    slice_flatMap_range (fun _ => length_leBytes 256 _) 32 hn]

theorem fieldLe_vectorRec_mreg (x : CoreSt) (oc : List Byte) {n : Nat} (hn : n < 8) (hn0 : n ≠ 0) :
    fieldLe (vectorRecBytes x oc) (0x42000 + 8 * n) 8 = leNat (leBytes 8 (x.mreg (BitVec.ofNat 3 n)).toNat) := by
  obtain ⟨rest, -, heq⟩ := vectorRecBytes_eq x oc
  rw [fieldLe_eq, heq, show 0x42000 + 8 * n = 0x40000 + (0x2000 + 8 * n) by omega,
    slice_append_right _ _ (length_padTo ..), slice_append_right _ _ (length_vregBytes x),
    slice_append_left _ _ (by rw [length_mregBytes]; omega),
    slice_flatMap_range (fun _ => length_leBytes 8 _) 8 hn, if_neg hn0]

/-! ### What a context restores from its records -/

/-- Two cores show a program the same registers, sequencer state and exception record. -/
structure SameContext (y x : CoreSt) : Prop where
  sreg : ∀ n, y.sreg n = x.sreg n
  mreg : ∀ n, y.mreg n = x.mreg n
  vreg : ∀ n, y.vreg n = x.vreg n
  pc : y.pc = x.pc
  ds : y.ds = x.ds
  dst : y.dst = x.dst
  loop : ∀ n < 3, y.loop n = x.loop n
  mode : y.mode = x.mode
  pmode : y.pmode = x.pmode
  calPend : y.calPend = x.calPend
  stopped : y.stopped = x.stopped
  exc : y.exc = x.exc

/-- The vector and the mask registers, and the job slot. -/
def CoreSt.vecRegs (x : CoreSt) : Tab Payload × Tab W64 × JobSlot := (x.vregs, x.mregs, x.slot)

theorem CoreSt.vecRegs_setS (x : CoreSt) (n : BitVec 5) (v : W32) : (x.setS n v).vecRegs = x.vecRegs := by
  unfold CoreSt.setS
  split <;> rfl

theorem CoreSt.vecRegs_setRacc (x : CoreSt) (n : Nat) (v : RAcc) : (x.setRacc n v).vecRegs = x.vecRegs := rfl

theorem CoreSt.vecRegs_setTap (x : CoreSt) (n : Nat) (v : TapSt) : (x.setTap n v).vecRegs = x.vecRegs := rfl

/-- The vector registers and the job slot. -/
def CoreSt.vecSlot (x : CoreSt) : Tab Payload × JobSlot := (x.vregs, x.slot)

theorem CoreSt.vecSlot_setM (x : CoreSt) (n : BitVec 3) (v : W64) : (x.setM n v).vecSlot = x.vecSlot := by
  unfold CoreSt.setM
  split <;> rfl

theorem CoreSt.slot_setV (x : CoreSt) (n : BitVec 5) (v : Payload) : (x.setV n v).slot = x.slot := rfl

theorem CoreSt.loop_setLoop_same (x : CoreSt) (n : Nat) (v : LoopLv) : (x.setLoop n v).loop n = v :=
  Tab.look_ins_same ..

theorem CoreSt.loop_setLoop_ne (x : CoreSt) (v : LoopLv) {n m : Nat} (h : n ≠ m) :
    (x.setLoop n v).loop m = x.loop m := Tab.look_ins_ne _ _ _ _ h

theorem CoreSt.loop_setLoops (x : CoreSt) (lv : Nat → LoopLv) {n : Nat} (hn : n < 3) :
    (((x.setLoop 0 (lv 0)).setLoop 1 (lv 1)).setLoop 2 (lv 2)).loop n = lv n := by
  interval_cases n
  · rw [CoreSt.loop_setLoop_ne _ _ (by decide), CoreSt.loop_setLoop_ne _ _ (by decide), CoreSt.loop_setLoop_same]
  · rw [CoreSt.loop_setLoop_ne _ _ (by decide), CoreSt.loop_setLoop_same]
  · rw [CoreSt.loop_setLoop_same]

/-- The fill of the scalar registers from a sequencer record (R216). -/
def CoreSt.sregsOfRec (y : CoreSt) (b : List Byte) : CoreSt :=
  (List.range 32).foldl (fun (a : CoreSt) n =>
    a.setS (BitVec.ofNat 5 n) (BitVec.ofNat 32 (fieldLe b (0x80 + 4 * n) 4))) { y with sregs := [] }

theorem CoreSt.sregsOfRec_rules (y x : CoreSt) : (y.sregsOfRec (seqRecBytes x)).vecRegs = y.vecRegs
    ∧ ∀ n, (y.sregsOfRec (seqRecBytes x)).sreg n = x.sreg n := by
  unfold CoreSt.sregsOfRec
  refine ⟨CoreSt.view_foldl CoreSt.vecRegs _ (fun a n => CoreSt.vecRegs_setS ..) _ { y with sregs := [] },
    fun n => ?_⟩
  by_cases hn : n = 0
  · rw [hn, CoreSt.sreg, CoreSt.sreg, if_pos rfl, if_pos rfl]
  · rw [CoreSt.read_foldl (fun z => z.sreg n) _ (k := n.toNat)
        (v := BitVec.ofNat 32 (fieldLe (seqRecBytes x) (0x80 + 4 * n.toNat) 4)) (List.range 32)
        (fun z m hm => by
          rw [CoreSt.sreg_setS_ofNat z (List.mem_range.1 hm) _ hn]
          split_ifs with h
          · rw [h]
          · rfl),
      if_pos (List.mem_range.2 n.isLt), fieldLe_seqRec_sreg x n.isLt, ofNat_leNat_leBytes _ (by decide),
      BitVec.ofNat_toNat, BitVec.setWidth_eq]

/-- A restored sequencer record (R216, R218). -/
theorem CoreSt.seqOfRec_rules (y x : CoreSt) (k : Option KeptCtx) :
    let z := y.seqOfRec (seqRecBytes x) k
    (∀ n, z.sreg n = x.sreg n) ∧ z.pc = x.pc ∧ z.ds = x.ds ∧ z.dst = x.dst ∧ (∀ n < 3, z.loop n = x.loop n)
      ∧ z.mode = x.mode ∧ z.pmode = x.pmode ∧ z.calPend = x.calPend ∧ z.stopped = x.stopped ∧ z.exc = x.exc
      ∧ z.mregs = y.mregs ∧ z.vregs = y.vregs ∧ z.slot = y.slot := by
  obtain ⟨hkept, hsreg⟩ := y.sregsOfRec_rules x
  obtain ⟨hpc, hdst, hmode, hpmode, hcal, hexc⟩ := slice_seqRec x
  obtain ⟨hflags, hacts⟩ := getD_seqRec x
  obtain ⟨hds, -, hstopped⟩ := getLsbD_flags x.ds x.bksup x.stopped x.fence.isSome
  have hact : ∀ n < 3, ((seqRecBytes x).getD 0x10 0).getLsbD n = (x.loop n).act := fun n hn => by
    obtain ⟨h0, h1, h2⟩ := getLsbD_acts (x.loop 0).act (x.loop 1).act (x.loop 2).act
    rw [hacts]
    interval_cases n
    · exact h0
    · exact h1
    · exact h2
  have hlevel : ∀ n < 3, (⟨BitVec.ofNat 12 (fieldLe (seqRecBytes x) (0x18 + 8 * n) 2),
      BitVec.ofNat 12 (fieldLe (seqRecBytes x) (0x1A + 8 * n) 2),
      BitVec.ofNat 20 (fieldLe (seqRecBytes x) (0x1C + 8 * n) 4), ((seqRecBytes x).getD 0x10 0).getLsbD n⟩ : LoopLv)
        = x.loop n := fun n hn => by
    obtain ⟨hls, hle, hlc⟩ := slice_seqRec_loop x hn
    simp only [fieldLe_eq, hls, hle, hlc, hact n hn]
    rw [ofNat_leNat_leBytes _ (by decide), ofNat_leNat_leBytes _ (by decide), ofNat_leNat_leBytes _ (by decide)]
  have hword : ∀ {w : Nat} (v : BitVec w) (o n : Nat), slice (seqRecBytes x) o n = leBytes n v.toNat → w ≤ 8 * n →
      BitVec.ofNat w (fieldLe (seqRecBytes x) o n) = v := fun v o n h hw => by
    rw [fieldLe_eq, h, ofNat_leNat_leBytes v hw]
  have hpc' := hword x.pc 0 2 hpc (by decide)
  have hdst' := hword x.dst 2 2 hdst (by decide)
  have hmode' := hword x.mode 8 4 hmode (by decide)
  have hpmode' := hword x.pmode 12 4 hpmode (by decide)
  have hcal' := hword x.calPend 0x30 8 hcal (by decide)
  have hexc' := hword x.exc 0x38 4 hexc (by decide)
  rw [← hflags] at hds hstopped
  clear hword hpc hdst hmode hpmode hcal hexc hflags hacts hact
  generalize seqRecBytes x = b at *
  intro z
  unfold z CoreSt.seqOfRec
  extract_lets w fl pd kp lv y' z'
  change y'.vecRegs = y.vecRegs at hkept
  change ∀ n, y'.sreg n = x.sreg n at hsreg
  obtain ⟨hvregs, hmregs, hslot⟩ : y'.vregs = y.vregs ∧ y'.mregs = y.mregs ∧ y'.slot = y.slot := by
    simpa [CoreSt.vecRegs] using hkept
  clear_value y'
  refine ⟨hsreg, hpc', hds, hdst', fun n hn => ?_, hmode', hpmode', hcal', hstopped, hexc',
    hmregs, hvregs, hslot⟩
  have hlv : lv n = x.loop n := hlevel n hn
  clear_value z' lv
  exact (CoreSt.loop_setLoops z' lv hn).trans hlv

/-- The fill of the vector registers from a vector record, and of the mask registers (R176). -/
def CoreSt.vregsOfRec (y : CoreSt) (b : List Byte) : CoreSt :=
  (List.range 32).foldl (fun (a : CoreSt) n =>
    a.setV (BitVec.ofNat 5 n) (Payload.ofBytes (slice b (0x40000 + 256 * n) 256))) { y with vregs := [] }
def CoreSt.mregsOfRec (y : CoreSt) (b : List Byte) : CoreSt :=
  (List.range 8).foldl (fun (a : CoreSt) n =>
    a.setM (BitVec.ofNat 3 n) (BitVec.ofNat 64 (fieldLe b (0x42000 + 8 * n) 8))) { y with mregs := [] }

theorem CoreSt.vregsOfRec_rules (y x : CoreSt) (oc : List Byte) :
    (y.vregsOfRec (vectorRecBytes x oc)).slot = y.slot
      ∧ ∀ n, (y.vregsOfRec (vectorRecBytes x oc)).vreg n = x.vreg n := by
  unfold CoreSt.vregsOfRec
  refine ⟨CoreSt.view_foldl CoreSt.slot _ (fun a n => CoreSt.slot_setV ..) _ { y with vregs := [] }, fun n => ?_⟩
  rw [CoreSt.read_foldl (fun z => z.vreg n) _ (k := n.toNat)
      (v := Payload.ofBytes (slice (vectorRecBytes x oc) (0x40000 + 256 * n.toNat) 256)) (List.range 32)
      (fun z m hm => by
        rw [CoreSt.vreg_setV_ofNat z (List.mem_range.1 hm)]
        split_ifs with h
        · rw [h]
        · rfl),
    if_pos (List.mem_range.2 n.isLt), slice_vectorRec_vreg x oc n.isLt, Payload.ofBytes,
    List.take_of_length_le (length_leBytes ..).le, ofNat_leNat_leBytes _ (by decide), BitVec.ofNat_toNat,
    BitVec.setWidth_eq]

theorem CoreSt.mregsOfRec_rules (y x : CoreSt) (oc : List Byte) :
    (y.mregsOfRec (vectorRecBytes x oc)).vecSlot = y.vecSlot
      ∧ ∀ n, (y.mregsOfRec (vectorRecBytes x oc)).mreg n = x.mreg n := by
  unfold CoreSt.mregsOfRec
  refine ⟨CoreSt.view_foldl CoreSt.vecSlot _ (fun a n => CoreSt.vecSlot_setM ..) _ { y with mregs := [] },
    fun n => ?_⟩
  by_cases hn : n = 0
  · rw [hn, CoreSt.mreg, CoreSt.mreg, if_pos rfl, if_pos rfl]
  · have hn0 : n.toNat ≠ 0 := fun h => hn (BitVec.eq_of_toNat_eq h)
    rw [CoreSt.read_foldl (fun z => z.mreg n) _ (k := n.toNat)
        (v := BitVec.ofNat 64 (fieldLe (vectorRecBytes x oc) (0x42000 + 8 * n.toNat) 8)) (List.range 8)
        (fun z m hm => by
          rw [CoreSt.mreg_setM_ofNat z (List.mem_range.1 hm) _ hn]
          split_ifs with h
          · rw [h]
          · rfl),
      if_pos (List.mem_range.2 n.isLt), fieldLe_vectorRec_mreg x oc n.isLt hn0, ofNat_leNat_leBytes _ (by decide),
      BitVec.ofNat_toNat, BitVec.setWidth_eq]

/-- A restored vector record (R176). -/
theorem CoreSt.vecOfRec_rules (y x : CoreSt) (oc : List Byte) :
    let z := y.vecOfRec (vectorRecBytes x oc)
    (∀ n, z.vreg n = x.vreg n) ∧ (∀ n, z.mreg n = x.mreg n) ∧ z.slot = y.slot := by
  obtain ⟨hkeptv, hv⟩ := y.vregsOfRec_rules x oc
  obtain ⟨hkeptm, hm⟩ := (y.vregsOfRec (vectorRecBytes x oc)).mregsOfRec_rules x oc
  generalize vectorRecBytes x oc = b at *
  intro z
  unfold z CoreSt.vecOfRec
  extract_lets c0 yv zm r t
  change zm.vecSlot = yv.vecSlot at hkeptm
  change ∀ n, zm.mreg n = x.mreg n at hm
  change yv.slot = y.slot at hkeptv
  change ∀ n, yv.vreg n = x.vreg n at hv
  clear_value yv zm
  have hr : r.vecRegs = zm.vecRegs := by
    unfold r
    exact CoreSt.view_foldl CoreSt.vecRegs _ (fun _ _ => CoreSt.vecRegs_setRacc ..) _ zm
  clear_value r
  have ht : t.vecRegs = r.vecRegs := by
    unfold t
    exact CoreSt.view_foldl CoreSt.vecRegs _ (fun _ _ => CoreSt.vecRegs_setTap ..) _ r
  clear_value t
  obtain ⟨htv, htm, hts⟩ : t.vregs = zm.vregs ∧ t.mregs = zm.mregs ∧ t.slot = zm.slot := by
    simpa [CoreSt.vecRegs] using ht.trans hr
  obtain ⟨hmv, hms⟩ : zm.vregs = yv.vregs ∧ zm.slot = yv.slot := by simpa [CoreSt.vecSlot] using hkeptm
  refine ⟨fun n => ?_, fun n => ?_, hts.trans (hms.trans hkeptv)⟩
  · rw [← hv]
    exact congrArg (fun l => Tab.look (fun _ => 0) l n.toNat) (htv.trans hmv)
  · rw [← hm]
    exact congrArg (fun l => if n = 0 then BitVec.allOnes 64 else Tab.look (fun _ => 0) l n.toNat) htm

/-- What a context holds of registers, sequencer state and exception record, as it stands in the core. -/
def CoreSt.context (x : CoreSt) : Tab W32 × Tab W64 × Tab Payload × (BitVec 12 × Bool × BitVec 12 × Tab LoopLv)
    × (W32 × W32 × W64) × Bool × W32 × JobSlot :=
  (x.sregs, x.mregs, x.vregs, (x.pc, x.ds, x.dst, x.loops), (x.mode, x.pmode, x.calPend), x.stopped, x.exc, x.slot)

theorem sameContext_of_context {x y : CoreSt} (h : y.context = x.context) : SameContext y x ∧ y.slot = x.slot := by
  simp only [CoreSt.context, Prod.mk.injEq] at h
  obtain ⟨hs, hm, hv, ⟨hpc, hds, hdst, hloops⟩, ⟨hmode, hpmode, hcal⟩, hstopped, hexc, hslot⟩ := h
  exact ⟨⟨fun n => by rw [CoreSt.sreg, hs]; rfl, fun n => by rw [CoreSt.mreg, hm]; rfl,
    fun n => by rw [CoreSt.vreg, hv]; rfl, hpc, hds, hdst, fun n _ => by rw [CoreSt.loop, hloops]; rfl, hmode,
    hpmode, hcal, hstopped, hexc⟩, hslot⟩

theorem CoreSt.context_setFeeder (x : CoreSt) (n : Nat) (v : FeederSt) : (x.setFeeder n v).context = x.context := rfl

theorem CoreSt.context_feedersOfRec (x : CoreSt) (b : List Byte) : (x.feedersOfRec b).context = x.context := by
  unfold CoreSt.feedersOfRec
  exact CoreSt.view_foldl CoreSt.context _ (fun _ _ => CoreSt.context_setFeeder ..) _ x

theorem CoreSt.context_quadStop (x : CoreSt) : x.quadStop.context = x.context := by
  unfold CoreSt.quadStop
  split
  · rfl
  · rfl

/-- The core that the records of a context give. -/
def CoreSt.ofRecs (y : CoreSt) (v q f : List Byte) (quad : Quad) (k : Option KeptCtx) : CoreSt :=
  ((({ y.vecOfRec v with quad := quad } : CoreSt).seqOfRec q k).feedersOfRec f).quadStop

/-- A core whose records hold a context has that context after they are restored. -/
theorem CoreSt.sameContext_ofRecs (y x x' : CoreSt) (oc f : List Byte) (quad : Quad) (k : Option KeptCtx)
    (hv : ∀ n, x'.vreg n = x.vreg n) (hm : ∀ n, x'.mreg n = x.mreg n) :
    SameContext (y.ofRecs (vectorRecBytes x' oc) (seqRecBytes x) f quad k) x
      ∧ (y.ofRecs (vectorRecBytes x' oc) (seqRecBytes x) f quad k).slot = y.slot := by
  obtain ⟨hvreg, hmreg, hslot⟩ := y.vecOfRec_rules x' oc
  unfold CoreSt.ofRecs
  generalize y.vecOfRec (vectorRecBytes x' oc) = p at *
  obtain ⟨w, hw⟩ : ∃ w, w = ({ p with quad := quad } : CoreSt) := ⟨_, rfl⟩
  rw [← hw]
  obtain ⟨hsreg, hpc, hds, hdst, hloop, hmode, hpmode, hcal, hstopped, hexc, hmregs, hvregs, hslot'⟩ :=
    w.seqOfRec_rules x k
  generalize w.seqOfRec (seqRecBytes x) k = u at *
  obtain ⟨hsame, hsame'⟩ := sameContext_of_context
    ((CoreSt.context_quadStop _).trans (CoreSt.context_feedersOfRec u f))
  have hvu : ∀ n, u.vreg n = x.vreg n := fun n => by
    rw [← hv, ← hvreg, CoreSt.vreg, CoreSt.vreg, hvregs, hw]
  have hmu : ∀ n, u.mreg n = x.mreg n := fun n => by
    rw [← hm, ← hmreg, CoreSt.mreg, CoreSt.mreg, hmregs, hw]
  refine ⟨⟨fun n => (hsame.sreg n).trans (hsreg n), fun n => (hsame.mreg n).trans (hmu n),
    fun n => (hsame.vreg n).trans (hvu n), hsame.pc.trans hpc, hsame.ds.trans hds, hsame.dst.trans hdst,
    fun n hn => (hsame.loop n hn).trans (hloop n hn), hsame.mode.trans hmode, hsame.pmode.trans hpmode,
    hsame.calPend.trans hcal, hsame.stopped.trans hstopped, hsame.exc.trans hexc⟩, ?_⟩
  rw [hsame', hslot', ← hslot, hw]

/-! ### One core alone changes -/

theorem onlyCore_refl (s : State) (c : Nat) : OnlyCore c s s := ⟨fun _ _ => rfl, rfl⟩

theorem onlyCore_trans {c : Nat} {s t u : State} (h : OnlyCore c s t) (k : OnlyCore c t u) : OnlyCore c s u :=
  ⟨fun d hd => (k.1 d hd).trans (h.1 d hd), by rw [k.2, h.2]⟩

theorem onlyCore_setCore (s : State) (c : Nat) (x : CoreSt) : OnlyCore c s (s.setCore c x) :=
  ⟨fun _ hd => State.core_setCore_ne s c x (Ne.symm hd), rfl⟩

/-! ### The save of a context without codewords in error (R436) -/

/-- No codeword of the core's memories is in error. -/
def CoreSt.Sound (x : CoreSt) : Prop := x.spEcc = [] ∧ x.ocEcc = [] ∧ ∀ n, (x.arr n).ecc = []

/-- The core but for its scratchpad, its reduction unit and its counts of words and of events: what the save of a
context leaves as it was. -/
def CoreSt.unsaved (x : CoreSt) : CoreSt :=
  { x with spad := [], raccs := [], folds := [], satStep := 0, satTot := 0, ocCorr := 0, ocUncorr := 0 }

theorem CoreSt.sound_of_unsaved {x y : CoreSt} (h : y.unsaved = x.unsaved) (hx : x.Sound) : y.Sound := by
  have hy : y.unsaved.Sound := by rw [h]; exact hx
  exact hy

theorem seqRecHead_unsaved (x : CoreSt) : seqRecHead x.unsaved = seqRecHead x := rfl

/-- The sequencer context record shows nothing that a save changes. -/
theorem seqRecBytes_unsaved (x : CoreSt) : seqRecBytes x.unsaved = seqRecBytes x := by
  rw [seqRecBytes_eq, seqRecBytes_eq, seqRecHead_unsaved]
  rfl

theorem CoreSt.unsaved_foldFront (x : CoreSt) : x.foldFront.unsaved = x.unsaved := by
  unfold CoreSt.foldFront
  split
  · rfl
  · dsimp only
    split <;> rfl

theorem CoreSt.unsaved_foldAll (n : Nat) : ∀ x : CoreSt, (x.foldAll n).unsaved = x.unsaved := by
  induction n with
  | zero => exact fun _ => rfl
  | succ n ih => exact fun x => (ih _).trans x.unsaved_foldFront

theorem CoreSt.spad_foldAll (n : Nat) : ∀ x : CoreSt, (x.foldAll n).spad = x.spad := by
  have hfront : ∀ x : CoreSt, x.foldFront.spad = x.spad := fun x => by
    unfold CoreSt.foldFront
    split
    · rfl
    · dsimp only
      split <;> rfl
  induction n with
  | zero => exact fun _ => rfl
  | succ n ih => exact fun x => (ih _).trans (hfront x)

/-- The end of the context-save area of a job slot (R433). -/
def csaEnd (j : JobSlot) : Nat := csaBase j + 0x84000

/-- Core `c` alone changes, keeps what a save leaves as it was, and its scratchpad outside the context-save area
of job slot `j`. -/
structure SavesIn (j : JobSlot) (c : Nat) (s t : State) : Prop where
  only : OnlyCore c s t
  unsaved : (t.core c).unsaved = (s.core c).unsaved
  outside : ∀ p, p < csaBase j ∨ csaEnd j ≤ p →
    Tab.look (fun _ => 0) (t.core c).spad p = Tab.look (fun _ => 0) (s.core c).spad p

section Save

variable {j : JobSlot} {c : Nat} {s t u : State}

theorem SavesIn.refl (s : State) : SavesIn j c s s := ⟨onlyCore_refl s c, rfl, fun _ _ => rfl⟩

theorem SavesIn.trans (h : SavesIn j c s t) (k : SavesIn j c t u) : SavesIn j c s u :=
  ⟨onlyCore_trans h.only k.only, k.unsaved.trans h.unsaved, fun p hp => (k.outside p hp).trans (h.outside p hp)⟩

theorem SavesIn.sound (h : SavesIn j c s t) (hs : (s.core c).Sound) : (t.core c).Sound :=
  CoreSt.sound_of_unsaved h.unsaved hs

/-- A write of the scratchpad without codewords in error. -/
theorem State.spadWrite_of_ecc_nil (h : (s.core c).spEcc = []) (a : Nat) (l : List Byte) :
    s.spadWrite c a l = s.setCore c { s.core c with spad := Tab.putList (fun _ => 0) (s.core c).spad a l } := by
  have hbad : ∀ p : List Nat, (p.filter fun w => (Tab.look (fun _ => Ecc.good) (s.core c).spEcc w).bad) = [] :=
    fun p => by rw [h]; exact List.filter_eq_nil_iff.2 fun _ _ => by simp [Ecc.bad]
  have hfixed : ∀ p : List Nat,
      (p.filter fun w => Tab.look (fun _ => Ecc.good) (s.core c).spEcc w == .single) = [] :=
    fun p => by rw [h]; exact List.filter_eq_nil_iff.2 fun _ _ => by simp
  have hecc : eccWritten (s.core c).spEcc 4 a l.length = (s.core c).spEcc := by
    rw [h, eccWritten]; split <;> rfl
  simp only [State.spadWrite, hbad, hfixed, hecc]
  rfl

theorem SavesIn.spadWrite (h : (s.core c).spEcc = []) {a : Nat} {l : List Byte} (hlo : csaBase j ≤ a)
    (hhi : a + l.length ≤ csaEnd j) : SavesIn j c s (s.spadWrite c a l) := by
  rw [State.spadWrite_of_ecc_nil h]
  refine ⟨onlyCore_setCore .., by rw [State.core_setCore]; rfl, fun p hp => ?_⟩
  rw [State.core_setCore]
  exact Tab.look_putList_outside _ _ (by omega)

theorem State.scanTiles_of_ecc_nil {n : Nat} (h : ((s.core c).arr n).ecc = []) (l : List Nat) :
    s.scanTiles c n l = s := by
  induction l with
  | nil => rfl
  | cons t l ih => rw [State.scanTiles, State.scanTile_of_ecc_nil h, ih]

theorem ArrayRec.length_tileBytes (a : ArrayRec) (t : Nat) : (a.tileBytes t).length = 4096 := by
  rw [ArrayRec.tileBytes, List.length_flatMap]
  simp only [length_leBytes, List.map_const', List.sum_replicate, ArrayRec.tile, Tab.length_lookList, smul_eq_mul]

theorem length_arrayRecBytes (q : Quad) (a : ArrayRec) : (arrayRecBytes q a).length = 0x10100 := by
  rw [arrayRecBytes, List.length_append, List.length_append, length_padTo, length_padTo, List.length_flatMap]
  simp only [ArrayRec.length_tileBytes, List.map_const', List.sum_replicate, List.length_range, smul_eq_mul]

theorem SavesIn.saveArray (h : (s.core c).Sound) {n : Nat} (hn : n < 4) :
    SavesIn j c s (s.saveArray c j n) := by
  obtain ⟨hsp, -, harr⟩ := h
  unfold State.saveArray
  rw [State.scanTiles_of_ecc_nil (harr n)]
  exact SavesIn.spadWrite hsp (by unfold csaArray; omega)
    (by rw [length_arrayRecBytes, csaArray, csaEnd]; omega)

theorem State.saveArrays_cons (s : State) (c : Nat) (j : JobSlot) (n : Nat) (l : List Nat) :
    s.saveArrays c j (n :: l) = (s.saveArray c j n).saveArrays c j l := by
  rw [State.saveArrays, State.saveArrays, List.foldl_cons]

theorem SavesIn.saveArrays (l : List Nat) (hl : ∀ n ∈ l, n < 4) :
    ∀ s : State, (s.core c).Sound → SavesIn j c s (s.saveArrays c j l) := by
  induction l with
  | nil => exact fun s _ => SavesIn.refl s
  | cons n l ih =>
    intro s hs
    have hone : SavesIn j c s (s.saveArray c j n) := SavesIn.saveArray hs (hl n List.mem_cons_self)
    rw [State.saveArrays_cons]
    exact hone.trans (ih (fun m hm => hl m (List.mem_cons_of_mem n hm)) _ (hone.sound hs))

theorem SavesIn.ocRead (h : (s.core c).ocEcc = []) (a n : Nat) : SavesIn j c s (s.ocRead c a n).2 := by
  have hread : ramRead (s.core c).ocache (s.core c).ocEcc 4 a n
      = ⟨Tab.lookList (fun _ => 0) (s.core c).ocache a n, [], []⟩ := by simp [ramRead, h, eccIn]
  simp only [State.ocRead, hread, eccFixed_nil]
  exact ⟨onlyCore_setCore .., by rw [State.corrWords, State.logWords, State.core_setCore]; rfl,
    fun p _ => by rw [State.corrWords, State.logWords, State.core_setCore]; rfl⟩

/-- A row of the scratchpad reads back after it was written. -/
theorem State.lookList_spadWrite (h : (s.core c).spEcc = []) (a : Nat) (l : List Byte) :
    Tab.lookList (fun _ => 0) ((s.spadWrite c a l).core c).spad a l.length = l := by
  rw [State.spadWrite_of_ecc_nil h, State.core_setCore]
  exact Tab.lookList_putList_same ..

/-- A row of the scratchpad that a write does not reach. -/
theorem State.lookList_spadWrite_of_disjoint (h : (s.core c).spEcc = []) {a b n : Nat} {l : List Byte}
    (hd : b + n ≤ a ∨ a + l.length ≤ b) :
    Tab.lookList (fun _ => 0) ((s.spadWrite c a l).core c).spad b n
      = Tab.lookList (fun _ => 0) (s.core c).spad b n := by
  rw [State.spadWrite_of_ecc_nil h, State.core_setCore]
  exact Tab.lookList_congr _ fun p hlo hhi => Tab.look_putList_outside _ _ (by omega)

end Save

/-- The save area of job slot `j` in a scratchpad holds the records of `x`, the vector record with some reduction
state and cache. -/
def HoldsRecords (m : Tab Byte) (j : JobSlot) (x : CoreSt) : Prop :=
  Tab.lookList (fun _ => 0) m (csaSeq j) 512 = seqRecBytes x
    ∧ ∃ (y : CoreSt) (oc : List Byte), (∀ n, y.vreg n = x.vreg n) ∧ (∀ n, y.mreg n = x.mreg n)
      ∧ Tab.lookList (fun _ => 0) m (csaVector j) 0x42180 = vectorRecBytes y oc

/-- The records stand where nothing in the area is written. -/
theorem HoldsRecords.of_outside {m m' : Tab Byte} {j : JobSlot} {x : CoreSt} (h : HoldsRecords m j x)
    (hm : ∀ p, csaBase j ≤ p → p < csaEnd j → Tab.look (fun _ => 0) m' p = Tab.look (fun _ => 0) m p) :
    HoldsRecords m' j x := by
  obtain ⟨hseq, y, oc, hv, hmr, hvec⟩ := h
  refine ⟨?_, y, oc, hv, hmr, ?_⟩
  · rw [← hseq]
    exact Tab.lookList_congr _ fun p hlo hhi => hm p (by unfold csaSeq at hlo; omega)
      (by unfold csaSeq at hhi; unfold csaEnd; omega)
  · rw [← hvec]
    exact Tab.lookList_congr _ fun p hlo hhi => hm p (by unfold csaVector at hlo; omega)
      (by unfold csaVector at hhi; unfold csaEnd; omega)

/-- The writes of the vector, the sequencer and the stream record in their places (R433, R435). -/
theorem State.writeRecords_rules {s : State} {c : Nat} (hs : (s.core c).Sound) (j : JobSlot) (v q f : List Byte)
    (hv : v.length = 0x42180) (hq : q.length = 512) (hf : f.length = 64) :
    let t := ((s.spadWrite c (csaVector j) v).spadWrite c (csaSeq j) q).spadWrite c (csaStream j) f
    SavesIn j c s t ∧ Tab.lookList (fun _ => 0) (t.core c).spad (csaSeq j) 512 = q
      ∧ Tab.lookList (fun _ => 0) (t.core c).spad (csaVector j) 0x42180 = v := by
  intro t
  have h1 : SavesIn j c s (s.spadWrite c (csaVector j) v) :=
    SavesIn.spadWrite hs.1 (by unfold csaVector; omega) (by rw [hv, csaVector, csaEnd]; omega)
  have hs1 := h1.sound hs
  have h2 : SavesIn j c _ ((s.spadWrite c (csaVector j) v).spadWrite c (csaSeq j) q) :=
    SavesIn.spadWrite hs1.1 (by unfold csaSeq; omega) (by rw [hq, csaSeq, csaEnd]; omega)
  have hs2 := h2.sound hs1
  have h3 : SavesIn j c _ t :=
    SavesIn.spadWrite hs2.1 (by unfold csaStream; omega) (by rw [hf, csaStream, csaEnd]; omega)
  refine ⟨(h1.trans h2).trans h3, ?_, ?_⟩
  · unfold t
    rw [State.lookList_spadWrite_of_disjoint hs2.1 (.inl (by unfold csaSeq csaStream; omega)), ← hq,
      State.lookList_spadWrite hs1.1]
  · unfold t
    rw [State.lookList_spadWrite_of_disjoint hs2.1 (.inl (by unfold csaVector csaStream; omega)),
      State.lookList_spadWrite_of_disjoint hs1.1 (.inl (by unfold csaVector csaSeq; omega)), ← hv,
      State.lookList_spadWrite hs.1]

/-- The core with the area of a job slot marked as full. -/
def CoreSt.markFull (x : CoreSt) (j : JobSlot) : CoreSt :=
  if j = .a then { x with emptyA := false, keptA := some x.keep }
  else { x with emptyB := false, keptB := some x.keep }

/-- The save writes the records of the context in its area, and marks that area as full (R436). -/
theorem State.saveCtx_rules {s : State} {c : Nat} (hs : (s.core c).Sound) :
    ∃ u : State, SavesIn (s.core c).slot c s u ∧ HoldsRecords (u.core c).spad (s.core c).slot (s.core c)
      ∧ s.saveCtx c = u.modCore c fun z => z.markFull (s.core c).slot := by
  unfold State.saveCtx
  extract_lets s0 x j s1 oc y s2
  have hx : x.unsaved = (s.core c).unsaved := by
    unfold x s0
    rw [State.core_modCore]
    exact CoreSt.unsaved_foldAll ..
  have hj : j = (s.core c).slot := by
    unfold j
    exact (congrArg CoreSt.slot hx :)
  have h0 : SavesIn j c s s0 := ⟨onlyCore_modCore .., hx, fun p _ => by
    unfold s0
    rw [State.core_modCore, CoreSt.spad_foldAll]⟩
  have h1 : SavesIn j c s s1 := h0.trans (SavesIn.saveArrays _ (by decide) _ (h0.sound hs))
  have hoc : SavesIn j c s oc.2 := h1.trans (SavesIn.ocRead (h1.sound hs).2.1 ..)
  have hy : y.unsaved = (s.core c).unsaved := hoc.unsaved
  clear_value y oc s1 s0 x j
  subst hj
  obtain ⟨hseq, hv, hm⟩ : seqRecBytes y = seqRecBytes (s.core c) ∧ (∀ n, y.vreg n = (s.core c).vreg n)
      ∧ ∀ n, y.mreg n = (s.core c).mreg n :=
    ⟨by rw [← seqRecBytes_unsaved, hy, seqRecBytes_unsaved], fun n => (congrArg (CoreSt.vreg · n) hy :),
      fun n => (congrArg (CoreSt.mreg · n) hy :)⟩
  obtain ⟨hsave, hq, hvec⟩ := State.writeRecords_rules (hoc.sound hs) (s.core c).slot (vectorRecBytes y oc.1.bytes)
    (seqRecBytes y) (streamRecBytes y) (length_vectorRecBytes ..) (length_seqRecBytes y) (length_padTo ..)
  exact ⟨s2, hoc.trans hsave, ⟨hq.trans hseq, y, oc.1.bytes, hv, hm, hvec⟩, rfl⟩

/-! ### The restore of a context -/

theorem SameContext.trans {x y z : CoreSt} (h : SameContext y x) (k : SameContext z y) : SameContext z x :=
  ⟨fun n => (k.sreg n).trans (h.sreg n), fun n => (k.mreg n).trans (h.mreg n), fun n => (k.vreg n).trans (h.vreg n),
    k.pc.trans h.pc, k.ds.trans h.ds, k.dst.trans h.dst, fun n hn => (k.loop n hn).trans (h.loop n hn),
    k.mode.trans h.mode, k.pmode.trans h.pmode, k.calPend.trans h.calPend, k.stopped.trans h.stopped,
    k.exc.trans h.exc⟩

/-- The job slot, and the scratchpad with its codewords. -/
def CoreSt.spadSlot (x : CoreSt) : JobSlot × Tab Byte × Tab Ecc := (x.slot, x.spad, x.spEcc)

/-- The core but for the positions of its feeders. -/
def CoreSt.sansFeeders (x : CoreSt) : CoreSt := { x with feeders := [] }

theorem CoreSt.sansFeeders_feedersToBase (l : List Nat) :
    ∀ x : CoreSt, (x.feedersToBase l).sansFeeders = x.sansFeeders := by
  induction l with
  | nil => exact fun _ => rfl
  | cons f l ih =>
    intro x
    unfold CoreSt.feedersToBase
    split
    · split_ifs
      · exact ih x
      · exact ih _
    · exact ih x

theorem Tab.look_map_snd {α β : Type} (g : α → β) (d : Nat → α) (t : Tab α) (k : Nat) :
    Tab.look (fun i => g (d i)) (t.map fun e => (e.1, g e.2)) k = g (Tab.look d t k) := by
  induction t with
  | nil => rfl
  | cons e t ih =>
    obtain ⟨a, b⟩ := e
    rw [List.map_cons, Tab.look_cons, Tab.look_cons, ih]
    split <;> rfl

/-- The reset state of R339 in a core whose scratchpad has no codeword in error. -/
theorem CoreSt.freshCtx_rules (x : CoreSt) (hx : x.spEcc = []) :
    let y := x.freshCtx
    y.slot = x.slot ∧ y.bare = x.bare ∧ y.pc = 0 ∧ y.emptyA = x.emptyA ∧ (∀ n, y.sreg n = 0) ∧ y.spad = x.spad
      ∧ y.Sound := by
  intro y
  have hy : y.sansFeeders = _ := CoreSt.sansFeeders_feedersToBase ..
  clear_value y
  refine ⟨(congrArg CoreSt.slot hy :), (congrArg CoreSt.bare hy :), (congrArg CoreSt.pc hy :),
    (congrArg CoreSt.emptyA hy :), fun n => (congrArg (CoreSt.sreg · n) hy :).trans ?_, (congrArg CoreSt.spad hy :),
    (congrArg CoreSt.spEcc hy :).trans hx, (congrArg CoreSt.ocEcc hy :), fun n => ?_⟩
  · exact ite_self _
  · have harr : y.arr n = ArrayRec.fresh (x.arr n) :=
      (congrArg (CoreSt.arr · n) hy :).trans (Tab.look_map_snd ArrayRec.fresh (fun _ => ArrayRec.reset) x.arrays n)
    rw [harr]
    rfl

section Restore

variable {c : Nat}

/-- The restore of the arrays reads the scratchpad and leaves it as it is. -/
theorem State.restoreArrays_rules (j : JobSlot) (l : List Nat) : ∀ s : State, (s.core c).spEcc = [] →
    OnlyCore c s (s.restoreArrays c j l) ∧ ((s.restoreArrays c j l).core c).spadSlot = (s.core c).spadSlot := by
  induction l with
  | nil => exact fun s _ => ⟨onlyCore_refl s c, rfl⟩
  | cons n l ih =>
    intro s hs
    rw [State.restoreArrays, State.spadRead_of_ecc_nil hs]
    generalize ht : (s.setCore c (s.core c)).modCore c _ = t
    have hone : OnlyCore c s t := by
      rw [← ht]
      exact onlyCore_trans (onlyCore_setCore ..) (onlyCore_modCore ..)
    have hview : (t.core c).spadSlot = (s.core c).spadSlot := by
      rw [← ht, State.core_modCore, State.core_setCore]
      rfl
    have hecc : (t.core c).spEcc = [] := (congrArg (fun v => v.2.2) hview :).trans hs
    obtain ⟨honly, hkept⟩ := ih t hecc
    exact ⟨onlyCore_trans hone honly, hkept.trans hview⟩

/-- A read of a scratchpad without codewords in error leaves the core as it is. -/
theorem State.spadRead_rules {s : State} (hs : (s.core c).spEcc = []) (a n : Nat) :
    (s.spadRead c a n).1.bytes = Tab.lookList (fun _ => 0) (s.core c).spad a n ∧ OnlyCore c s (s.spadRead c a n).2
      ∧ (s.spadRead c a n).2.core c = s.core c := by
  rw [State.spadRead_of_ecc_nil hs]
  exact ⟨rfl, onlyCore_setCore .., State.core_setCore ..⟩

/-- The restore of a context from its records (R218, R436). -/
theorem State.restoreCtx_of_full {s : State} (hs : (s.core c).spEcc = []) (hfull : (s.core c).emptyA = false) :
    OnlyCore c s (s.restoreCtx c .a) ∧ ∃ (y : CoreSt) (f : List Byte) (quad : Quad) (k : Option KeptCtx),
      y.slot = .a ∧ (s.restoreCtx c .a).core c
        = y.ofRecs (Tab.lookList (fun _ => 0) (s.core c).spad (csaVector .a) 0x42180)
            (Tab.lookList (fun _ => 0) (s.core c).spad (csaSeq .a) 512) f quad k := by
  unfold State.restoreCtx
  extract_lets x empty kept s0 s1 st v q f
  have hempty : ¬ empty = true := by
    unfold empty x
    rw [if_pos rfl, hfull]
    exact Bool.false_ne_true
  rw [if_neg hempty]
  have h0 : OnlyCore c s s0 := onlyCore_setCore ..
  have hview0 : (s0.core c).spadSlot = (.a, (s.core c).spad, (s.core c).spEcc) := by
    unfold s0
    rw [State.core_setCore]
    rfl
  have hecc0 : (s0.core c).spEcc = [] := (congrArg (fun v => v.2.2) hview0 :).trans hs
  obtain ⟨h1, hview1⟩ : OnlyCore c s0 s1 ∧ (s1.core c).spadSlot = (s0.core c).spadSlot :=
    State.restoreArrays_rules .a [0, 1, 2, 3] s0 hecc0
  obtain ⟨hslot, hspad, hecc⟩ : (s1.core c).slot = .a ∧ (s1.core c).spad = (s.core c).spad
      ∧ (s1.core c).spEcc = [] := by
    simpa [CoreSt.spadSlot, hs] using hview1.trans hview0
  obtain ⟨-, hst, hst'⟩ : _ ∧ OnlyCore c s1 st.2 ∧ st.2.core c = s1.core c := State.spadRead_rules hecc ..
  obtain ⟨hv, hvo, hv'⟩ : v.1.bytes = _ ∧ OnlyCore c st.2 v.2 ∧ v.2.core c = st.2.core c :=
    State.spadRead_rules (by rw [hst', hecc]) ..
  obtain ⟨hq, hqo, hq'⟩ : q.1.bytes = _ ∧ OnlyCore c v.2 q.2 ∧ q.2.core c = v.2.core c :=
    State.spadRead_rules (by rw [hv', hst', hecc]) ..
  obtain ⟨-, hfo, hf'⟩ : _ ∧ OnlyCore c q.2 f.2 ∧ f.2.core c = q.2.core c :=
    State.spadRead_rules (by rw [hq', hv', hst', hecc]) ..
  have honly : OnlyCore c s f.2 := onlyCore_trans (onlyCore_trans h0 h1)
    (onlyCore_trans (onlyCore_trans hst hvo) (onlyCore_trans hqo hfo))
  refine ⟨onlyCore_trans honly (onlyCore_modCore ..), f.2.core c, f.1.bytes, Quad.ofRec st.1.bytes kept, kept,
    by rw [hf', hq', hv', hst', hslot], ?_⟩
  rw [hst', hspad] at hv
  rw [hv', hst', hspad] at hq
  rw [← hv, ← hq, State.core_modCore]
  rfl

theorem State.restoreCtx_b_of_empty {s : State} (hempty : (s.core c).emptyB = true) :
    ∃ p, s.restoreCtx c .b = (s.setCore c { s.core c with slot := .b, bare := false }).modCore c fun y =>
      { y.freshCtx with pend := p, emptyB := false } :=
  ⟨_, if_pos hempty⟩

/-- The restore of a context whose area is EMPTY gives it the reset state (R436). -/
theorem State.restoreCtx_of_empty {s : State} (hs : (s.core c).spEcc = []) (hempty : (s.core c).emptyB = true) :
    let t := s.restoreCtx c .b
    let y := t.core c
    OnlyCore c s t ∧ y.slot = .b ∧ y.bare = false ∧ y.pc = 0 ∧ y.emptyA = (s.core c).emptyA ∧ y.emptyB = false
      ∧ (∀ n, y.sreg n = 0) ∧ y.spad = (s.core c).spad ∧ y.Sound := by
  obtain ⟨p, heq⟩ := State.restoreCtx_b_of_empty hempty
  obtain ⟨hslot, hbare, hpc, hA, hsreg, hspad, hsound⟩ :=
    ({ s.core c with slot := .b, bare := false } : CoreSt).freshCtx_rules hs
  intro t y
  have hy : y = { ({ s.core c with slot := .b, bare := false } : CoreSt).freshCtx with
      pend := p, emptyB := false } := by
    unfold y t
    rw [heq, State.core_modCore, State.core_setCore]
  refine ⟨?_, ?_⟩
  · unfold t
    rw [heq]
    exact onlyCore_trans (onlyCore_setCore ..) (onlyCore_modCore ..)
  · rw [hy]
    exact ⟨hslot, hbare, hpc, hA, rfl, hsreg, hspad, hsound⟩

end Restore

/-! ### The switch (R437) -/

section Switch

variable {s : State} {c : Nat}

/-- The end of a switch. -/
def CoreSt.switchDone (y : CoreSt) : CoreSt := { y with switching := false, bkpt := y.bkpt &&& 0xFFF }

theorem CoreSt.context_switchDone (y : CoreSt) : y.switchDone.context = y.context := rfl

theorem State.contextSwitch_of_slot_a (hsw : (s.core c).switching = true) (hbare : (s.core c).bare = false)
    (hslot : (s.core c).slot = .a) (htest : s.testWaits c = false) :
    s.contextSwitch c = ((s.saveCtx c).restoreCtx c .b).modCore c CoreSt.switchDone := by
  unfold State.contextSwitch
  dsimp only
  rw [if_neg (by simp [hsw]), if_neg (by simp [hbare]), if_pos hslot, if_neg (by simp [htest])]
  rfl

theorem State.contextSwitch_of_slot_b (hsw : (s.core c).switching = true) (hbare : (s.core c).bare = false)
    (hslot : (s.core c).slot = .b) :
    s.contextSwitch c = ((s.saveCtx c).restoreCtx c .a).modCore c CoreSt.switchDone := by
  unfold State.contextSwitch
  dsimp only
  rw [if_neg (by simp [hsw]), if_neg (by simp [hbare]), if_neg (by simp [hslot])]
  rfl

/-- What core `x` is after its switch from job slot A into an empty context of job slot B: the reset state, with the
records of the context that was saved in the area of job slot A. -/
structure CoreSt.SwitchedToB (x y : CoreSt) : Prop where
  slot : y.slot = .b
  switching : y.switching = false
  bare : y.bare = false
  pc : y.pc = 0
  emptyA : y.emptyA = false
  emptyB : y.emptyB = false
  sreg : ∀ n, y.sreg n = 0
  step : y.bkpt.getLsbD 12 = false
  sound : y.Sound
  records : HoldsRecords y.spad .a x

theorem CoreSt.switchedToB_switchDone {x y : CoreSt} (hslot : y.slot = .b) (hbare : y.bare = false) (hpc : y.pc = 0)
    (hA : y.emptyA = false) (hB : y.emptyB = false) (hsreg : ∀ n, y.sreg n = 0) (hsound : y.Sound)
    (hrec : HoldsRecords y.spad .a x) : x.SwitchedToB y.switchDone :=
  ⟨hslot, rfl, hbare, hpc, hA, hB, hsreg, by simp [CoreSt.switchDone], hsound, hrec⟩

/-- The save of job slot A's context leaves the core with its records and its area FULL. -/
theorem State.saveCtx_of_slot_a (hslot : (s.core c).slot = .a) (hs : (s.core c).Sound) :
    OnlyCore c s (s.saveCtx c) ∧ ((s.saveCtx c).core c).Sound ∧ ((s.saveCtx c).core c).emptyA = false
      ∧ ((s.saveCtx c).core c).emptyB = (s.core c).emptyB
      ∧ HoldsRecords ((s.saveCtx c).core c).spad .a (s.core c) := by
  obtain ⟨u, hsave, hrec, heq⟩ := State.saveCtx_rules hs
  rw [hslot] at hsave hrec heq
  have hcore : (s.saveCtx c).core c = (u.core c).markFull .a := by rw [heq, State.core_modCore]
  refine ⟨?_, ?_, ?_, ?_, ?_⟩
  · rw [heq]
    exact onlyCore_trans hsave.only (onlyCore_modCore ..)
  · rw [hcore]
    exact hsave.sound hs
  · rw [hcore]
    rfl
  · rw [hcore]
    exact (congrArg CoreSt.emptyB hsave.unsaved :)
  · rw [hcore]
    exact hrec

/-- The switch from job slot A into an empty context of job slot B. -/
theorem State.contextSwitch_to_b (hsw : (s.core c).switching = true) (hbare : (s.core c).bare = false)
    (hslot : (s.core c).slot = .a) (hempty : (s.core c).emptyB = true) (htest : s.testWaits c = false)
    (hs : (s.core c).Sound) :
    OnlyCore c s (s.contextSwitch c) ∧ (s.core c).SwitchedToB ((s.contextSwitch c).core c) := by
  obtain ⟨honly, hsound, hemptyA, hemptyB, hrec⟩ := State.saveCtx_of_slot_a hslot hs
  obtain ⟨hrest, hslotB, hbareB, hpc, hA, hB, hsreg, hspadB, hsoundB⟩ :=
    State.restoreCtx_of_empty hsound.1 (hemptyB.trans hempty)
  rw [State.contextSwitch_of_slot_a hsw hbare hslot htest]
  refine ⟨onlyCore_trans (onlyCore_trans honly hrest) (onlyCore_modCore ..), ?_⟩
  rw [State.core_modCore]
  exact CoreSt.switchedToB_switchDone hslotB hbareB hpc (hA.trans hemptyA) hB hsreg hsoundB
    ((congrArg (HoldsRecords · .a (s.core c)) hspadB).mpr hrec)

/-- The switch from job slot B back: the context whose records stand in the area of job slot A. -/
theorem State.contextSwitch_to_a (hsw : (s.core c).switching = true) (hbare : (s.core c).bare = false)
    (hslot : (s.core c).slot = .b) (hfull : (s.core c).emptyA = false) (hs : (s.core c).Sound) {x : CoreSt}
    (hx : HoldsRecords (s.core c).spad .a x) :
    let t := s.contextSwitch c
    OnlyCore c s t ∧ (t.core c).slot = .a ∧ SameContext (t.core c) x := by
  obtain ⟨u, hsave, -, heq⟩ := State.saveCtx_rules hs
  rw [hslot] at hsave heq
  have hcore : (s.saveCtx c).core c = (u.core c).markFull .b := by rw [heq, State.core_modCore]
  have honly : OnlyCore c s (s.saveCtx c) := by
    rw [heq]
    exact onlyCore_trans hsave.only (onlyCore_modCore ..)
  have hecc : ((s.saveCtx c).core c).spEcc = [] := by
    rw [hcore]
    exact (hsave.sound hs).1
  have hfullA : ((s.saveCtx c).core c).emptyA = false := by
    rw [hcore]
    exact (congrArg CoreSt.emptyA hsave.unsaved :).trans hfull
  have hspad : ((s.saveCtx c).core c).spad = (u.core c).spad := by rw [hcore]; rfl
  obtain ⟨hseq, x', oc, hv, hm, hvec⟩ : HoldsRecords ((s.saveCtx c).core c).spad .a x := by
    rw [hspad]
    exact hx.of_outside fun p _ hp => hsave.outside p (.inl hp)
  obtain ⟨hrest, y, f, quad, k, hy, hrestored⟩ := State.restoreCtx_of_full hecc hfullA
  rw [hseq, hvec] at hrestored
  obtain ⟨hsame, hslotA⟩ := y.sameContext_ofRecs x x' oc f quad k hv hm
  rw [← hrestored] at hsame hslotA
  intro t
  have ht : t = _ := State.contextSwitch_of_slot_b hsw hbare hslot
  obtain ⟨hdone, hdone'⟩ := sameContext_of_context
    (CoreSt.context_switchDone (((s.saveCtx c).restoreCtx c .a).core c))
  rw [ht, State.core_modCore]
  exact ⟨onlyCore_trans (onlyCore_trans honly hrest) (onlyCore_modCore ..), hdone'.trans (hslotA.trans hy),
    hsame.trans hdone⟩

end Switch

/-! ### What follows the switch (R326, R707) -/

theorem State.sdYield_frame (s : State) (held : Nat → Bool) : let t := s.sdYield held
    t.cores = s.cores ∧ t.mem = s.mem ∧ t.unloadB = s.unloadB ∧ t.sd.retired = s.sd.retired := by
  intro t
  unfold t State.sdYield
  split
  · exact ⟨rfl, rfl, rfl, rfl⟩
  · split
    · exact ⟨rfl, rfl, rfl, rfl⟩
    · exact ⟨rfl, rfl, rfl, rfl⟩

/-- Without retired cores and without an unloading that waits, a switch leads to nothing else in the cores and
in device memory. -/
theorem State.switchCore_frame {s : State} {c : Nat} (h : OnlyCore c s (s.contextSwitch c))
    (hret : s.sd.retired = []) (hunload : s.unloadB = false) : let t := s.switchCore c
    t.cores = (s.contextSwitch c).cores ∧ t.mem = s.mem ∧ t.unloadB = false ∧ t.sd.retired = [] := by
  obtain ⟨-, h⟩ := h
  have hret' : (s.contextSwitch c).sd.retired = [] := by rw [h]; exact hret
  have hunload' : (s.contextSwitch c).unloadB = false := by rw [h]; exact hunload
  have hmem' : (s.contextSwitch c).mem = s.mem := by rw [h]
  have hstop : (s.contextSwitch c).stopRetired c = s.contextSwitch c :=
    if_neg (by simp [State.stageOut, hret'])
  have hdue : (s.contextSwitch c).unloadIfDue = s.contextSwitch c := if_neg (by simp [hunload'])
  intro t
  have ht : t = (s.contextSwitch c).sdYield fun k => k == c && !((s.contextSwitch c).core c).bare := by
    unfold t State.switchCore
    rw [hstop, hdue]
  obtain ⟨hcores, hmem, hun, hre⟩ := (s.contextSwitch c).sdYield_frame fun k =>
    k == c && !((s.contextSwitch c).core c).bare
  rw [ht]
  exact ⟨hcores, hmem.trans hmem', hun.trans hunload', hre.trans hret'⟩

/-- Settles O23: the save writes the records of the context in the area of its job slot, the save of the other slot
leaves that area as it is, and each field of the records is restored from the bytes in which it was saved. -/
theorem switchAwayAndBackRestoresTheContext : Obligations.SwitchAwayAndBackRestoresTheContext := by
  unfold Obligations.SwitchAwayAndBackRestoresTheContext
  intro c s x hsw hbare hslot hempty htest hret hunload hsp hoc harr _ _
  obtain ⟨honly, hb⟩ := State.contextSwitch_to_b hsw hbare hslot hempty htest ⟨hsp, hoc, harr⟩
  obtain ⟨hcores, hmem, hunloadB, hretB⟩ := State.switchCore_frame honly hret hunload
  have hcore : ∀ d, (s.switchCore c).core d = (s.contextSwitch c).core d := fun d => by
    rw [State.core, hcores]; rfl
  refine ⟨s.switchCore c, rfl, ?_⟩
  rw [hcore]
  refine ⟨hb.slot, hb.switching, hb.pc, hb.emptyA, hb.emptyB, hb.sreg, hb.step,
    fun d hd => by rw [hcore]; exact honly.1 d hd, hmem, ?_⟩
  generalize hs' : (s.switchCore c).setCore c { (s.contextSwitch c).core c with switching := true } = s'
  have hcore' : s'.core c = { (s.contextSwitch c).core c with switching := true } := by
    rw [← hs', State.core_setCore]
  obtain ⟨honly', hslotA, hsame⟩ := State.contextSwitch_to_a (s := s') (c := c) (x := x) (by rw [hcore'])
    (by rw [hcore']; exact hb.bare) (by rw [hcore']; exact hb.slot) (by rw [hcore']; exact hb.emptyA)
    (by rw [hcore']; exact hb.sound) (by rw [hcore']; exact hb.records)
  obtain ⟨hcores', -, -, -⟩ := State.switchCore_frame honly'
    (by rw [← hs']; exact hretB) (by rw [← hs']; exact hunloadB)
  have hcoreA : (s'.switchCore c).core c = (s'.contextSwitch c).core c := by rw [State.core, hcores']; rfl
  refine ⟨s'.switchCore c, rfl, ?_⟩
  rw [hcoreA]
  exact ⟨hslotA, hsame.sreg, hsame.mreg, hsame.vreg, hsame.pc, hsame.ds, hsame.dst, hsame.loop, hsame.mode,
    hsame.pmode, hsame.calPend, hsame.stopped, hsame.exc⟩

end Sys2Proof.Machine
end

/-! ## Exceptions, holds and the debug controls of the sequencer (O18-O22) -/

section

namespace Sys2Proof.Machine

open Sys2Proof Sys2Proof.Claims

/-! ### The error log and the incomplete bit -/

theorem State.wrList_bwt (l : List W32) : ∀ (s : State) (o : Nat), (s.wrList o l).bwt = s.bwt := by
  induction l with
  | nil => exact fun _ _ => rfl
  | cons v r ih => exact fun _ _ => ih ..

theorem State.msix_bwt (s : State) (fn : Func) (v : Nat) : (s.msix fn v).bwt = s.bwt := by
  unfold State.msix
  split
  · exact State.wr4_bwt ..
  · rfl

theorem State.append_bwt (s : State) (e : ErrRec) : (s.append e).bwt = s.bwt := by
  unfold State.append
  dsimp only
  split
  · rfl
  · split
    · rfl
    · rw [State.msix_bwt, State.setF_bwt, State.wrList_bwt]

theorem State.sdFor_bwt (s : State) (e : ErrRec) : (s.sdFor e).bwt = s.bwt := by
  unfold State.sdFor State.sdQueue
  split
  · rfl
  · split_ifs <;> rfl

/-- An error of job slot A that says so leaves its step incomplete (R210, R579). -/
theorem State.log_incomp {e : ErrRec} (hincomp : e.incomp = true) (hslot : e.slotb = false) (s : State) :
    (s.log e).bwt.incomp = true := by
  have hset : (if e.incomp ∧ ¬ e.slotb then s.setIncomp else s) = s.setIncomp := if_pos (by simp [hincomp, hslot])
  unfold State.log
  rw [hset]
  dsimp only
  split_ifs
  · rw [State.append_bwt]; rfl
  · rw [State.sdFor_bwt, State.bump_bwt, State.append_bwt]; rfl

/-! ### An exception that is taken (R205) -/

section Take

variable {s : State} {c : Nat} {e : Exc}

theorem State.logFrame_takeExc (s : State) (c : Nat) (e : Exc) :
    LogFrame (s.setCore c ((s.core c).take e)) (s.takeExc c e) := by
  unfold State.takeExc
  dsimp only
  split_ifs
  · exact LogFrame.emit ..
  · exact (LogFrame.log ..).trans (LogFrame.emit ..)

/-- The core that takes an exception, and what the exception leaves alone. -/
theorem State.takeExc_rules (s : State) (c : Nat) (e : Exc) :
    (s.takeExc c e).core c = (s.core c).take e ∧ (∀ d, d ≠ c → (s.takeExc c e).core d = s.core d)
      ∧ (s.takeExc c e).mem = s.mem ∧ (s.takeExc c e).routes = s.routes ∧ (s.takeExc c e).pending = s.pending := by
  have h := s.logFrame_takeExc c e
  have hcore : ∀ d, (s.takeExc c e).core d = (s.setCore c ((s.core c).take e)).core d := fun d => by
    rw [State.core, h.cores]; rfl
  exact ⟨by rw [hcore, State.core_setCore], fun d hd => by rw [hcore, State.core_setCore_ne _ _ _ (Ne.symm hd)],
    h.mem, by rw [h]; rfl, h.pending⟩

/-- ILLEGAL, XLT_FAULT, PROT, ECC_UNCORR and CAL_MISS leave job slot A's step incomplete (R210). -/
theorem State.incomp_takeExc (hcls : excIncomp e.cls = true) (hslot : (s.core c).slot = .a) :
    (s.takeExc c e).bwt.incomp = true := by
  have hne : ¬ (e.cls = 5 ∨ e.cls = 6) := by
    rintro (h | h) <;> rw [h] at hcls <;> exact absurd hcls (by decide)
  unfold State.takeExc
  dsimp only
  rw [if_neg hne]
  exact State.log_incomp (by simp [hcls, CoreSt.isB, hslot]) (by simp [CoreSt.isB, hslot]) _

/-- PREEMPT and BREAK are events, not errors: nothing is logged (R211). -/
theorem State.takeExc_of_event (hcls : e.cls = 5 ∨ e.cls = 6) :
    (s.takeExc c e).bwt = s.bwt ∧ (s.takeExc c e).reg = s.reg := by
  unfold State.takeExc
  dsimp only
  rw [if_pos hcls]
  exact ⟨rfl, rfl⟩

end Take

/-! ### What is due at the boundary (R208) -/

section Due

variable {s : State} {c : Nat} {b : Bundle}

/-- A core that runs has none of the reasons to issue nothing. -/
theorem State.runs_guard (h : Runs s c) : ¬ ((s.core c).stopped = true ∨ (s.core c).switching = true
    ∨ (s.core c).bare = true ∨ (s.core c).cfg.isNone = true) := by
  obtain ⟨hstopped, hswitching, hbare, hcfg⟩ := h
  have hprogram : (s.core c).cfg.isNone = false := by simpa [Option.isSome_iff_ne_none] using hcfg
  simp [hstopped, hswitching, hbare, hprogram]

theorem State.issue_of_hold {k : Nat} (h : Runs s c) (hdue : s.due c b = .hold k) :
    s.issue c b = (s.holdDrop c b).modCore c fun y => { y with hcause := k } := by
  unfold State.issue
  dsimp only
  rw [if_neg (State.runs_guard h), hdue]

theorem State.issue_of_take {e : Exc} (h : Runs s c) (hdue : s.due c b = .take e) :
    s.issue c b = s.takeExc c e := by
  unfold State.issue
  dsimp only
  rw [if_neg (State.runs_guard h), hdue]

/-- A core that does not run issues nothing (R205, R213, R224, R727). -/
theorem State.issue_of_not_runs (h : ¬ Runs s c) : s.issue c b = s := by
  unfold State.issue
  dsimp only
  refine if_pos ?_
  by_contra hno
  simp only [not_or, Bool.not_eq_true, Option.isNone_eq_false_iff] at hno
  exact h hno

/-- No asynchronous exception is due where none is pending and no breakpoint matches. -/
theorem State.excAsync_eq_none (hpend : (s.core c).pend = PendExc.none) (hbkpt : s.bkptHit c = false) :
    s.excAsync c = none := by
  simp [State.excAsync, hpend, PendExc.none, hbkpt]

theorem CoreSt.excPreempt_eq_none {x : CoreSt} (h : x.pend.preempt = none) : x.excPreempt = none := by
  rw [CoreSt.excPreempt, h]; rfl

/-- Where no asynchronous exception and no codeword in error is due, the holds come next. -/
theorem State.due_of_blocked (hpend : (s.core c).pend = PendExc.none) (hbkpt : s.bkptHit c = false)
    (hecc : s.excEcc c b = none) {k : Nat} {l : List Nat} (hblocked : (s.core c).blocked b = k :: l) :
    s.due c b = .hold k := by
  have hpreempt : (s.core c).excPreempt = none := CoreSt.excPreempt_eq_none (by rw [hpend]; rfl)
  unfold State.due
  dsimp only
  rw [hpreempt, hecc, State.excAsync_eq_none hpend hbkpt, hblocked]

/-- Then the synchronous exceptions. -/
theorem State.due_of_excSync (hpend : (s.core c).pend = PendExc.none) (hbkpt : s.bkptHit c = false)
    (hecc : s.excEcc c b = none) (hblocked : (s.core c).blocked b = []) {e : Exc}
    (hsync : s.excSync c b = some e) : s.due c b = .take e := by
  have hpreempt : (s.core c).excPreempt = none := CoreSt.excPreempt_eq_none (by rw [hpend]; rfl)
  unfold State.due
  dsimp only
  rw [hpreempt, hecc, State.excAsync_eq_none hpend hbkpt, hblocked, hsync]

end Due

/-! ### Holds (R179, R183) -/

section Hold

variable {s : State} {c : Nat} {b : Bundle}

theorem State.holdDrop_of_no_sdrop (h : ∀ f, b.str ≠ .sdrop f) : s.holdDrop c b = s := by
  unfold State.holdDrop
  split
  case h_1 f hf => exact absurd hf (h f)
  case h_2 => rfl

/-- A bundle that decoding accepts is blocked by what holds it. -/
theorem CoreSt.blocked_of_not_early {x : CoreSt} (h : x.early b = false) : x.blocked b = x.holds b :=
  if_neg (by simp [h])

/-- No codeword of a bundle that holds is reported (log entry 10). -/
theorem State.excEcc_of_blocked (hstore : (s.core c).storeIs Ecc.bad = [])
    (h : (s.core c).blocked b ≠ []) : s.excEcc c b = none := by
  unfold State.excEcc
  dsimp only
  split_ifs with hlen hbad hfence hblocked
  · rfl
  · rfl
  · rw [hstore] at hbad
    exact absurd hbad (by decide)
  · rfl
  · exact absurd (by simpa using h) hblocked

/-- Settles O19: a core that does not run issues nothing, and a hold without an SDROP writes HCAUSE alone. -/
theorem heldBundleChangesOnlyItsCause : Obligations.HeldBundleChangesOnlyItsCause := by
  unfold Obligations.HeldBundleChangesOnlyItsCause
  intro i s c b hb
  rw [exec_of_bundleOf hb]
  refine ⟨fun h => by rw [State.issue_of_not_runs h], fun hruns hpend hbkpt hstore hearly k l hholds hdrop => ?_⟩
  have hblocked : (s.core c).blocked b = k :: l := by rw [CoreSt.blocked_of_not_early hearly, hholds]
  have hecc : s.excEcc c b = none := State.excEcc_of_blocked hstore (by rw [hblocked]; simp)
  rw [State.issue_of_hold hruns (State.due_of_blocked hpend hbkpt hecc hblocked), State.holdDrop_of_no_sdrop hdrop]
  rfl

end Hold

/-! ### Synchronous exceptions (R205-R212) -/

section Sync

variable {s : State} {c : Nat} {b : Bundle} {e : Exc}

/-- A bundle whose synchronous exception is due is not issued: the core takes the exception. -/
theorem State.issue_of_excSync (hruns : Runs s c) (hpend : (s.core c).pend = PendExc.none)
    (hbkpt : s.bkptHit c = false) (hecc : s.excEcc c b = none) (hblocked : (s.core c).blocked b = [])
    (hsync : s.excSync c b = some e) : s.issue c b = s.takeExc c e :=
  State.issue_of_take hruns (State.due_of_excSync hpend hbkpt hecc hblocked hsync)

/-- The control slot's PROT comes first: that of an SLD or an SST whose word lies outside the job slot's range of
the scratchpad (R188, R209). -/
theorem State.protAt_control {p : ProtInfo} {f : FmtM} (hp : s.protAt c b = some (0, p))
    (hf : b.ctl = .sld f ∨ b.ctl = .sst f) :
    p.detail = 0x0101 ∧ (p.addr < (s.spadRange (s.core c).slot c).1
      ∨ ((s.spadRange (s.core c).slot c).2 : Int) < p.addr + 4) := by
  have hctl : s.ctlProt c (s.core c) b.ctl = if s.spadOk (s.core c).slot c ((s.core c).ldAddr f) 4 then none
      else some ((s.core c).ldAddr f) := by
    rcases hf with h | h <;> rw [h] <;> rfl
  unfold State.protAt at hp
  dsimp only at hp
  rw [hctl] at hp
  split_ifs at hp with hok
  · exact absurd hp (by simp)
  · obtain rfl : spadProt ((s.core c).ldAddr f) = p := by simpa using hp
    refine ⟨rfl, ?_⟩
    simp only [State.spadOk, Bool.and_eq_true, decide_eq_true_eq, not_and_or, Int.not_le] at hok
    exact hok

/-- Settles O18: the synchronous exception of the bundle is taken, and what its record says is read off. -/
theorem synchronousExceptionsStopTheCore : Obligations.SynchronousExceptionsStopTheCore := by
  unfold Obligations.SynchronousExceptionsStopTheCore
  constructor
  · intro i s c b slot d hb hruns hpend hbkpt hecc hblocked hill
    have hsync : s.excSync c b = some ⟨1, slot, d, false, 0, 0⟩ := by rw [State.excSync, hill]
    obtain ⟨hcore, hother, hmem, hroutes, hpending⟩ := s.takeExc_rules c ⟨1, slot, d, false, 0, 0⟩
    refine ⟨_, by rw [exec_of_bundleOf hb, State.issue_of_excSync hruns hpend hbkpt hecc hblocked hsync], ?_⟩
    rw [hcore]
    exact ⟨by simp [CoreSt.take], rfl, rfl, rfl, rfl, rfl, rfl, rfl, rfl, rfl, rfl, rfl, rfl, rfl, hother,
      State.incomp_takeExc rfl, hmem, hroutes, hpending⟩
  · intro i s c b slot p hb hruns hpend hbkpt hecc hblocked hill hprot
    have hsync : s.excSync c b = some ⟨3, slot, p.detail, false, p.info, p.addr⟩ := by
      rw [State.excSync, hill, hprot]; rfl
    obtain ⟨hcore, hother, -⟩ := s.takeExc_rules c ⟨3, slot, p.detail, false, p.info, p.addr⟩
    refine ⟨_, by rw [exec_of_bundleOf hb, State.issue_of_excSync hruns hpend hbkpt hecc hblocked hsync], ?_⟩
    rw [hcore]
    refine ⟨by simp [CoreSt.take], rfl, rfl, rfl, rfl, rfl, rfl, rfl, rfl, rfl, hother, State.incomp_takeExc rfl, ?_⟩
    rintro f hf rfl
    exact State.protAt_control hprot hf

end Sync

/-! ### Asynchronous exceptions (R208) -/

section Async

variable {s : State} {c : Nat} {e : Exc}

/-- An asynchronous exception that is due is taken at the boundary. -/
theorem State.boundary_of_excAsync (hruns : Runs s c) (hpend : (s.core c).pend ≠ PendExc.none)
    (hpreempt : (s.core c).pend.preempt = none) (hecc : s.excEcc c (s.core c).atPc = none)
    (hasync : s.excAsync c = some e) : s.boundary c = s.takeExc c e := by
  have hguard := State.runs_guard hruns
  have hdue : s.due c (s.core c).atPc = .take e := by
    unfold State.due
    dsimp only
    rw [CoreSt.excPreempt_eq_none hpreempt, hecc, hasync]
  unfold State.boundary
  dsimp only
  rw [if_neg (by simp only [not_or] at hguard ⊢; exact ⟨hguard.1, hguard.2.1, hguard.2.2.1, hguard.2.2.2, hpend⟩),
    hdue]

/-- Settles O21: the first pending exception in the order of R208 is the one that is due. -/
theorem asyncExceptionsFollowTheirOrder : Obligations.AsyncExceptionsFollowTheirOrder := by
  unfold Obligations.AsyncExceptionsFollowTheirOrder
  intro c s hruns hecc hpreempt p
  have hexec : ∀ e, p ≠ PendExc.none → s.excAsync c = some e →
      exec (.asyncException c) s = .next (s.takeExc c e) := fun e hp he => by
    rw [← State.boundary_of_excAsync hruns hp hpreempt hecc he]; rfl
  refine ⟨fun n hcal => ?_, fun q off r hcal hxlt => ?_, fun d a r hcal hxlt hprot => ?_,
    fun d hcal hxlt hprot hbrk => ?_⟩
  · obtain ⟨hcore, hother, -⟩ := s.takeExc_rules c ⟨7, 0, n, true, 0, 0⟩
    refine ⟨_, hexec ⟨7, 0, n, true, 0, 0⟩ (fun h => by rw [h] at hcal; cases hcal)
      (by unfold p at hcal; simp [State.excAsync, hcal]), ?_⟩
    rw [hcore]
    exact ⟨by simp [CoreSt.take], rfl, rfl, rfl, rfl, State.incomp_takeExc rfl, hother⟩
  · obtain ⟨hcore, -⟩ := s.takeExc_rules c ⟨2, 0, q, true, off.toNat % 2 ^ 32, off.toNat⟩
    refine ⟨_, hexec ⟨2, 0, q, true, off.toNat % 2 ^ 32, off.toNat⟩ (fun h => by rw [h] at hxlt; cases hxlt)
      (by unfold p at hcal hxlt; simp [State.excAsync, hcal, hxlt]), ?_⟩
    rw [hcore]
    refine ⟨by simp [CoreSt.take], rfl, ?_, ?_, rfl, rfl, State.incomp_takeExc rfl⟩
    · exact BitVec.eq_of_toNat_eq (by simp [CoreSt.take])
    · show { p with xlt := p.xlt.tail } = _
      rw [hxlt]; rfl
  · obtain ⟨hcore, -⟩ := s.takeExc_rules c ⟨3, 0, d, true, a.toNat % 2 ^ 32, a.toNat⟩
    refine ⟨_, hexec ⟨3, 0, d, true, a.toNat % 2 ^ 32, a.toNat⟩ (fun h => by rw [h] at hprot; cases hprot)
      (by unfold p at hcal hxlt hprot; simp [State.excAsync, hcal, hxlt, hprot]), ?_⟩
    rw [hcore]
    refine ⟨by simp [CoreSt.take], rfl, ?_, ?_, rfl, rfl⟩
    · exact BitVec.eq_of_toNat_eq (by simp [CoreSt.take])
    · show { p with prot := p.prot.tail } = _
      rw [hprot]; rfl
  · obtain ⟨hcore, -⟩ := s.takeExc_rules c ⟨6, 0, d, true, 0, 0⟩
    obtain ⟨hbwt, hreg⟩ := State.takeExc_of_event (s := s) (c := c) (e := ⟨6, 0, d, true, 0, 0⟩) (.inr rfl)
    refine ⟨_, hexec ⟨6, 0, d, true, 0, 0⟩ (fun h => by rw [h] at hbrk; cases hbrk)
      (by unfold p at hcal hxlt hprot hbrk; simp [State.excAsync, hcal, hxlt, hprot, hbrk]), ?_⟩
    rw [hcore]
    exact ⟨by simp [CoreSt.take], rfl, rfl, rfl, rfl, hbwt, hreg⟩

end Async

/-! ### Pre-emption at a window boundary (R213, R215) -/

/-- The core after a PREEMPT for comparator `n` reached it. -/
def CoreSt.preempted (x : CoreSt) (n : Nat) : CoreSt :=
  if x.pend.preempt = some n then
    if x.switching then x
    else if x.stopped ∨ x.bare ∨ x.cfg.isNone then
      { x with switching := true, pend := { x.pend with preempt := none }, quad := x.quad.stop 5 }
    else x.take ⟨5, 0, 0, true, n, 0⟩
  else x

/-- What a PREEMPT leaves alone whichever core it reaches. -/
def State.unpreempted (s : State) : Tab Byte × Tab W32 × List Instr := (s.mem, s.reg, s.pending)

theorem State.preemptCore_rules {s : State} {c n : Nat} (h : (s.core c).pend.preempt = some n) :
    (s.preemptCore c).core c = (s.core c).preempted n ∧ (∀ d, d ≠ c → (s.preemptCore c).core d = s.core d)
      ∧ (s.preemptCore c).unpreempted = s.unpreempted := by
  unfold State.preemptCore CoreSt.preempted
  dsimp only
  rw [h, if_pos rfl]
  dsimp only
  split_ifs
  · exact ⟨rfl, fun _ _ => rfl, rfl⟩
  · exact ⟨State.core_setCore .., fun d hd => State.core_setCore_ne _ _ _ (Ne.symm hd), rfl⟩
  · obtain ⟨hcore, hother, hmem, -, hpending⟩ := s.takeExc_rules c ⟨5, 0, 0, true, n, 0⟩
    obtain ⟨-, hreg⟩ := State.takeExc_of_event (s := s) (c := c) (e := ⟨5, 0, 0, true, n, 0⟩) (.inl rfl)
    exact ⟨hcore, hother, by rw [State.unpreempted, hmem, hreg, hpending]; rfl⟩

/-- The visit of one core by a PREEMPT. -/
theorem State.preemptVisit_rules (s : State) (d n : Nat) :
    let t := if (s.core d).pend.preempt = some n then s.preemptCore d else s
    t.core d = (s.core d).preempted n ∧ (∀ c, c ≠ d → t.core c = s.core c)
      ∧ t.unpreempted = s.unpreempted := by
  intro t
  unfold t
  split_ifs with h
  · exact State.preemptCore_rules h
  · exact ⟨(if_neg h).symm, fun _ _ => rfl, rfl⟩

/-- PREEMPT reaches the cores of the list, once each, and no other. -/
theorem State.preemptCores_rules (n : Nat) (l : List Nat) : l.Nodup → ∀ s : State,
    (∀ c, (s.preemptCores n l).core c = if c ∈ l then (s.core c).preempted n else s.core c)
      ∧ (s.preemptCores n l).unpreempted = s.unpreempted := by
  induction l with
  | nil => exact fun _ s => ⟨fun c => rfl, rfl⟩
  | cons d l ih =>
    intro hdl s
    obtain ⟨hd, hl⟩ := List.nodup_cons.1 hdl
    obtain ⟨hsame, hother, hkept⟩ := s.preemptVisit_rules d n
    rw [State.preemptCores]
    obtain ⟨hcores, hkept'⟩ := ih hl (if (s.core d).pend.preempt = some n then s.preemptCore d else s)
    refine ⟨fun c => ?_, hkept'.trans hkept⟩
    rw [hcores]
    by_cases hc : c = d
    · rw [hc, if_neg hd, hsame, if_pos List.mem_cons_self]
    · rw [hother c hc]
      simp [hc]

/-- Settles O22: each core of the window is visited once, and what PREEMPT does there is read off. -/
theorem preemptReachesEveryCoreOfTheWindow : Obligations.PreemptReachesEveryCoreOfTheWindow := by
  unfold Obligations.PreemptReachesEveryCoreOfTheWindow
  intro n s
  obtain ⟨hcores, hkept⟩ := State.preemptCores_rules n.val (List.range 256) List.nodup_range s
  have hcore : ∀ c < 256, (s.preemptCores n (List.range 256)).core c = (s.core c).preempted n := fun c hc => by
    rw [hcores, if_pos (List.mem_range.2 hc)]
  obtain ⟨hmem, hreg, hpending⟩ : _ = s.mem ∧ _ = s.reg ∧ _ = s.pending := by
    simpa only [State.unpreempted, Prod.mk.injEq] using hkept
  refine ⟨_, rfl, fun c hc hp => ?_, fun c hc hp hruns => ?_, fun c hc hp hstop hsw => ?_, hmem, hreg, hpending⟩
  · rw [hcore c hc, CoreSt.preempted, if_neg hp]
  · obtain ⟨hstopped, hswitching, hbare, hcfg⟩ := hruns
    have hprogram : (s.core c).cfg.isNone = false := by simpa [Option.isSome_iff_ne_none] using hcfg
    have htake : (s.core c).preempted n = (s.core c).take ⟨5, 0, 0, true, n, 0⟩ := by
      rw [CoreSt.preempted, if_pos hp, if_neg (by simp [hswitching]), if_neg (by simp [hstopped, hbare, hprogram])]
    rw [hcore c hc, htake]
    exact ⟨by simp [CoreSt.take], by simp [CoreSt.take, hstopped], rfl, rfl, rfl, rfl, rfl, rfl, rfl, rfl⟩
  · rw [hcore c hc, CoreSt.preempted, if_pos hp, if_neg (by simp [hsw]), if_pos (.inl hstop)]
    exact ⟨rfl, hstop, rfl, rfl⟩

/-! ### The debug controls (R221, R222) -/

section Debug

variable {s : State} {r : Requester}

/-- Without the debug flag a write of SEQ_CTL is ignored (R221). -/
theorem State.seqCtl_of_no_debug (hr : r = .jusia ∨ r = .pf0) (c : Core) (hdebug : s.debugOf c = false)
    (f : CoreSt → CoreSt) : s.seqCtl r c f = s := by
  unfold State.seqCtl
  rw [State.bar0_of_reach hr, if_neg (by simp [hdebug])]

theorem State.seqCtl_of_debug (hr : r = .jusia ∨ r = .pf0) (c : Core) (hdebug : s.debugOf c = true)
    (f : CoreSt → CoreSt) : s.seqCtl r c f = s.modCore c f := by
  unfold State.seqCtl
  rw [State.bar0_of_reach hr, if_pos hdebug]

theorem CoreSt.stoppedBy_break_iff (x : CoreSt) : x.stoppedBy = 6 ↔ x.stopped = true ∧ x.exc.toNat % 8 = 6 := by
  unfold CoreSt.stoppedBy
  split_ifs with h
  · simp [h]
  · simp [h]

/-- RESUME and STEP leave a core that BREAK has not stopped. -/
theorem CoreSt.not_stoppedBy_break {x : CoreSt} (h : x.stopped = false ∨ x.exc.toNat % 8 ≠ 6) :
    x.stoppedBy ≠ 6 := by
  rw [Ne, CoreSt.stoppedBy_break_iff]
  rintro ⟨hstopped, hbreak⟩
  rcases h with h | h
  · rw [h] at hstopped
    cases hstopped
  · exact h hbreak

end Debug

/-- Settles O20: RESUME and STEP act where BREAK has stopped the core, HALT where the core runs. -/
theorem debugControlsActOnBreakOnly : Obligations.DebugControlsActOnBreakOnly := by
  unfold Obligations.DebugControlsActOnBreakOnly
  intro r c s hr x
  refine ⟨fun hdebug => ?_, fun hdebug => ?_⟩
  · exact ⟨congrArg Host.Outcome.next (State.seqCtl_of_no_debug hr c hdebug _),
      congrArg Host.Outcome.next (State.seqCtl_of_no_debug hr c hdebug _),
      congrArg Host.Outcome.next (State.seqCtl_of_no_debug hr c hdebug _)⟩
  · have hctl : ∀ f, (.next (s.seqCtl r c f) : Host.Outcome State Fault Refusal)
        = .next (s.modCore c f) := fun f => by
      rw [State.seqCtl_of_debug hr c hdebug]
    refine ⟨⟨_, hctl CoreSt.ctlResume, onlyCore_modCore .., ?_⟩,
      ⟨_, hctl CoreSt.ctlStep, onlyCore_modCore .., ?_⟩,
      ⟨_, hctl CoreSt.ctlHalt, onlyCore_modCore .., ?_⟩⟩ <;>
      rw [State.core_modCore]
    · refine ⟨fun hstopped hbreak => ?_, fun h => ?_⟩
      · rw [CoreSt.ctlResume, if_pos (x.stoppedBy_break_iff.2 ⟨hstopped, hbreak⟩)]
        exact ⟨rfl, rfl, rfl, rfl⟩
      · exact if_neg (CoreSt.not_stoppedBy_break h)
    · refine ⟨fun hstopped hbreak => ?_, fun h => ?_⟩
      · rw [CoreSt.ctlStep, if_pos (x.stoppedBy_break_iff.2 ⟨hstopped, hbreak⟩)]
        exact ⟨rfl, rfl, rfl⟩
      · exact if_neg (CoreSt.not_stoppedBy_break h)
    · refine ⟨fun hstopped hswitching hcfg => ?_, fun h => ?_⟩
      · have hprogram : x.cfg.isNone = false := by simpa [Option.isSome_iff_ne_none] using hcfg
        rw [CoreSt.ctlHalt, if_neg (by rw [hprogram]; simp [CoreSt.halted, x, hstopped, hswitching])]
        exact ⟨rfl, hstopped, rfl⟩
      · exact if_pos (.inl (by simpa [CoreSt.halted] using h))

end Sys2Proof.Machine
end

/-! ## What the slots of a bundle leave alone (O6, O8, O9, O10) -/

section

namespace Sys2Proof.Machine

open Sys2Proof Sys2Proof.Claims

/-! ### Views of a core and of the device -/

/-- The core but for what a slot works on: registers, cache, reduction unit, quad, ports, counts and codewords.
The scratchpad stands in it. -/
def CoreSt.held (x : CoreSt) : CoreSt :=
  { x with
    sregs := [], sEcc := [], mregs := [], mEcc := [], vregs := [], storeEcc := [], spEcc := []
    ocache := [], ocEcc := [], raccs := [], folds := [], quad := Quad.reset, ports := []
    satStep := 0, satTot := 0, domStep := 0, domTot := 0, vseq := 0, ocCorr := 0, ocUncorr := 0 }

/-- The same without the scratchpad. -/
def CoreSt.unworked (x : CoreSt) : CoreSt := { x.held with spad := [] }

/-- The same, with the scratchpad, without what WAITCAL, DONE, BRK and FENCE write. -/
def CoreSt.eventless (x : CoreSt) : CoreSt :=
  { x.held with
    calPend := 0, fifo := [], dropped := false, pend := PendExc.none, fence := none, lastComp := none }

/-- What every slot leaves alone. -/
def CoreSt.idle (x : CoreSt) : CoreSt := { x.eventless with spad := [] }

/-- The device but for its cores, its routes and what logging touches. -/
def State.apart (s : State) : State :=
  { s with
    cores := [], routes := [], reg := [], bar4 := [], out := [], sd := State.reset.sd, bwt := State.reset.bwt }

/-- The same without what a DONE writes: the collectors and the root gate. -/
def State.remote (s : State) : State := { s.apart with coll := [], second := State.reset.second }

theorem CoreSt.unworked_of_held {x y : CoreSt} (h : x.held = y.held) : x.unworked = y.unworked :=
  congrArg (fun z : CoreSt => { z with spad := [] }) h

theorem CoreSt.eventless_of_held {x y : CoreSt} (h : x.held = y.held) : x.eventless = y.eventless :=
  congrArg (fun z : CoreSt => { z with
    calPend := 0, fifo := [], dropped := false, pend := PendExc.none, fence := none, lastComp := none }) h

theorem CoreSt.idle_of_unworked {x y : CoreSt} (h : x.unworked = y.unworked) : x.idle = y.idle :=
  congrArg (fun z : CoreSt => { z with
    calPend := 0, fifo := [], dropped := false, pend := PendExc.none, fence := none, lastComp := none }) h

theorem CoreSt.idle_of_eventless {x y : CoreSt} (h : x.eventless = y.eventless) : x.idle = y.idle :=
  congrArg (fun z : CoreSt => { z with spad := [] }) h

theorem State.remote_of_apart {s t : State} (h : t.apart = s.apart) : t.remote = s.remote :=
  congrArg (fun u : State => { u with coll := [], second := State.reset.second }) h

theorem LogFrame.apart {s t : State} (h : LogFrame s t) : t.apart = s.apart := by rw [h]; rfl

/-! ### A slot works in its core -/

/-- Core `c` alone changes and keeps what `view` shows of it; beside it nothing but routes, what logging touches, and
no register below the log. -/
structure Works {β : Type} (view : CoreSt → β) (c : Nat) (s t : State) : Prop where
  keeps : Keeps view c s t
  apart : t.apart = s.apart
  below : BelowLog s t

section Works

variable {β γ : Type} {view : CoreSt → β} {c : Nat} {s t u : State}

theorem Works.refl (s : State) : Works view c s s := ⟨.refl s, rfl, .refl s⟩

theorem Works.trans (h : Works view c s t) (k : Works view c t u) : Works view c s u :=
  ⟨h.keeps.trans k.keeps, k.apart.trans h.apart, h.below.trans k.below⟩

theorem Works.setCore {x : CoreSt} (h : view x = view (s.core c)) : Works view c s (s.setCore c x) :=
  ⟨.setCore h, rfl, .of_reg rfl⟩

theorem Works.modCore {f : CoreSt → CoreSt} (h : ∀ x, view (f x) = view x) : Works view c s (s.modCore c f) :=
  Works.setCore (h _)

theorem Works.of_log (h : LogFrame s t) (k : BelowLog s t) : Works view c s t :=
  ⟨h.sameCores.keeps, h.apart, k⟩

theorem Works.mono {view' : CoreSt → γ} (h : Works view c s t)
    (hview : ∀ x y, view x = view y → view' x = view' y) : Works view' c s t :=
  ⟨h.keeps.mono hview, h.apart, h.below⟩

theorem Works.unworked (h : Works CoreSt.held c s t) : Works CoreSt.unworked c s t :=
  h.mono fun _ _ => CoreSt.unworked_of_held

/-- The words of a memory that a step corrected or found uncorrectable are counted and logged. -/
theorem Works.report (s : State) (mem : Nat) (fixed bad : List Nat) :
    Works view c s ((s.corrWords c mem fixed).logWords c mem bad) := by
  have hcorr : ∀ (l : List Nat) (s : State), BelowLog s (s.corrWords c mem l) := fun l => by
    induction l with
    | nil => exact .refl
    | cons w r ih => exact fun s => (BelowLog.countCorr s ..).trans (ih _)
  have hlog : ∀ (l : List Nat) (s : State), BelowLog s (s.logWords c mem l) := fun l => by
    induction l with
    | nil => exact .refl
    | cons w r ih => exact fun s => (BelowLog.log s _).trans (ih _)
  exact .of_log ((LogFrame.corrWords c mem _ s).trans (LogFrame.logWords c mem _ _))
    ((hcorr fixed s).trans (hlog bad _))

theorem Works.of_report {x : CoreSt} {mem : Nat} {fixed bad : List Nat}
    (ht : t = ((s.setCore c x).corrWords c mem fixed).logWords c mem bad) (h : view x = view (s.core c)) :
    Works view c s t := by
  rw [ht]
  exact (Works.setCore h).trans (Works.report ..)

end Works

/-! ### The fetch, the array slot and the memories of a core -/

section Slots

variable {c : Nat}

theorem CoreSt.held_setS (x : CoreSt) (n : BitVec 5) (v : W32) : (x.setS n v).held = x.held := by
  unfold CoreSt.setS
  split <;> rfl

theorem CoreSt.held_setM (x : CoreSt) (n : BitVec 3) (v : W64) : (x.setM n v).held = x.held := by
  unfold CoreSt.setM
  split <;> rfl

theorem CoreSt.held_seqNext (y x : CoreSt) (rnd : BitVec 1) (n : Nat) : (y.seqNext x rnd n).held = y.held := by
  unfold CoreSt.seqNext
  split <;> rfl

theorem Works.fetchFix (s : State) (b : Bundle) : Works CoreSt.held c s (s.fetchFix c b) :=
  Works.of_report (mem := 1) (bad := []) rfl rfl

theorem Works.arrEff (s : State) (x : CoreSt) (op : ArrOp) : Works CoreSt.held c s (s.arrEff c x op) := by
  cases op with
  | amac | adrq | adrw | aldt | astt =>
    rw [State.arrEff]
    exact Works.modCore fun _ => rfl
  | anop | undef => exact Works.refl s

theorem Works.spadRead (s : State) (a n : Nat) : Works CoreSt.held c s (s.spadRead c a n).2 :=
  Works.of_report rfl rfl

theorem Works.spadWrite (s : State) (a : Nat) (l : List Byte) : Works CoreSt.unworked c s (s.spadWrite c a l) :=
  Works.of_report rfl rfl

theorem Works.ocRead (s : State) (a n : Nat) : Works CoreSt.held c s (s.ocRead c a n).2 :=
  Works.of_report rfl rfl

theorem Works.ocWrite (s : State) (a : Nat) (l : List Byte) : Works CoreSt.held c s (s.ocWrite c a l) :=
  Works.of_report rfl rfl

/-! ### The vector slot -/

theorem Works.laneEff (s : State) (x : CoreSt) (o : LaneOp) (f : FmtL) :
    Works CoreSt.held c s (s.laneEff c x o f) := by
  unfold State.laneEff
  split
  · exact Works.modCore fun y => CoreSt.held_setM ..
  · extract_lets rs d
    clear_value rs d
    refine Works.modCore fun y => ?_
    extract_lets z
    have hz : z.held = y.held := CoreSt.held_seqNext ..
    split_ifs
    · exact hz
    · exact hz

theorem Works.loadEff (s : State) (x : CoreSt) (o : MemOp) (f : FmtVM) :
    Works CoreSt.held c s (s.loadEff c x o f) := by
  unfold State.loadEff
  extract_lets ws bad fixed d
  clear_value ws bad fixed d
  refine Works.trans (Works.modCore fun y => ?_) (Works.report ..)
  rfl

theorem Works.storeEff (s : State) (x : CoreSt) (o : MemOp) (f : FmtVM) :
    Works CoreSt.held c s (s.storeEff c x o f) := by
  unfold State.storeEff
  extract_lets act el bs ws part bad fixed
  clear_value act el bs ws part bad fixed
  refine Works.trans (Works.modCore fun y => ?_) (Works.report ..)
  rfl

theorem Works.xfrEff (s : State) (x : CoreSt) (f : FmtXfr) : Works CoreSt.unworked c s (s.xfrEff c x f) := by
  unfold State.xfrEff
  dsimp only
  split_ifs
  · exact (((Works.spadRead ..).trans (Works.ocWrite ..)).unworked).trans (Works.modCore fun _ => rfl)
  · exact (Works.ocRead ..).unworked.trans (Works.spadWrite ..)

theorem Works.readClasses (base stride n : Nat) (l : List Nat) :
    ∀ s : State, Works CoreSt.held c s (s.readClasses c base stride n l).2 := by
  induction l with
  | nil => exact Works.refl
  | cons k l ih => exact fun s => ((Works.ocRead ..).trans (Works.ocRead ..)).trans (ih _)

theorem Works.tileArray (s : State) (x : CoreSt) (f : FmtVtile) (n tseq : Nat) :
    Works CoreSt.held c s (s.tileArray c x f n tseq) := by
  unfold State.tileArray
  extract_lets mode u cls st cb q sat p s1 s2 s3
  have hread : Works CoreSt.held c s u.2 := Works.readClasses ..
  have htiles : Works CoreSt.held c u.2 s2 := by
    unfold s2
    split_ifs
    · exact (Works.ocWrite ..).trans (Works.ocWrite ..)
    · exact Works.ocWrite ..
  have hdesc : Works CoreSt.held c s2 s3 := (Works.ocWrite ..).trans (Works.ocWrite ..)
  exact ((hread.trans htiles).trans hdesc).trans (Works.modCore fun _ => rfl)

theorem Works.tileArrays (x : CoreSt) (f : FmtVtile) (l : List Nat) :
    ∀ (s : State) (tseq : Nat), Works CoreSt.held c s (s.tileArrays c x f tseq l) := by
  induction l with
  | nil => exact fun s _ => Works.refl s
  | cons n l ih => exact fun s tseq => (Works.tileArray s x f n tseq).trans (ih _ _)

/-- The vector slot works on the scratchpad in a VXFR alone. -/
theorem Works.vecEff (s : State) (x : CoreSt) {op : VecOp} (h : ∀ f, op ≠ .vxfr f) :
    Works CoreSt.held c s (s.vecEff c x op) := by
  cases op with
  | lane o f => exact Works.laneEff s x o f
  | mem o f =>
    cases o with
    | vld | vldx => exact Works.loadEff s x _ f
    | vst | vstx => exact Works.storeEff s x _ f
  | vxfr f => exact absurd rfl (h f)
  | vtile f => exact (Works.tileArrays x f _ s _).trans (Works.modCore fun _ => CoreSt.held_seqNext ..)
  | rclr f =>
    rw [State.vecEff]
    refine Works.modCore fun y => ?_
    split_ifs <;> rfl
  | rget f => exact Works.modCore fun y => CoreSt.held_setS ..
  | rgetn f =>
    rw [State.vecEff]
    exact Works.modCore fun y => by rw [CoreSt.held_setS, CoreSt.held_setS]
  | vnop | undef => exact Works.refl s

theorem Works.unworked_vecEff (s : State) (x : CoreSt) (op : VecOp) :
    Works CoreSt.unworked c s (s.vecEff c x op) := by
  by_cases h : ∃ f, op = .vxfr f
  · obtain ⟨f, rfl⟩ := h
    exact Works.xfrEff s x f
  · exact (Works.vecEff s x fun f hf => h ⟨f, hf⟩).unworked

/-! ### The stream slot -/

theorem Works.setRoute (s : State) (j : JobSlot) (r : Nat) (x : RouteSt) : Works CoreSt.held c s (s.setRoute j r x) :=
  ⟨SameCores.keeps ⟨rfl, rfl⟩, rfl, .of_reg rfl⟩

theorem Works.creditsBack (j : JobSlot) (l : List Nat) :
    ∀ s : State, Works CoreSt.held c s (s.creditsBack j l) := by
  induction l with
  | nil => exact Works.refl
  | cons r l ih => exact fun s => (Works.setRoute ..).trans (ih _)

theorem Works.popWord (s : State) (p : Nat) : Works CoreSt.held c s (s.popWord c p).2 := by
  unfold State.popWord
  dsimp only
  split
  · exact Works.refl s
  · refine Works.trans (Works.setCore ?_) (Works.setRoute ..)
    rfl

theorem Works.dropWords (s : State) (p : Nat) : Works CoreSt.held c s (s.dropWords c p) := by
  unfold State.dropWords
  dsimp only
  split
  · exact Works.refl s
  · refine Works.trans (Works.setCore ?_) (Works.creditsBack ..)
    rfl

theorem Works.incompFor (s : State) : Works CoreSt.held c s (s.incompFor c) := by
  refine .of_log (LogFrame.incompFor s c) ?_
  unfold State.incompFor
  split_ifs
  · exact .of_reg rfl
  · exact .refl s

theorem Works.strEff (s : State) (x : CoreSt) (op : StrOp) : Works CoreSt.held c s (s.strEff c x op) := by
  cases op with
  | srecv f =>
    have hpop := Works.popWord (c := c) s f.port.toNat
    unfold State.strEff
    dsimp only
    split
    next w t heq =>
      rw [heq] at hpop
      have hset : Works CoreSt.held c s (t.modCore c fun y => y.setV f.v w.data) :=
        hpop.trans (Works.modCore fun _ => rfl)
      split_ifs
      · exact hset.trans (Works.incompFor _)
      · exact hset
    next t heq =>
      rw [heq] at hpop
      exact hpop
  | ssend f =>
    rw [State.strEff]
    exact Works.modCore fun _ => rfl
  | sdrop f => exact Works.dropWords s _
  | slevel f => exact Works.modCore fun y => CoreSt.held_setS ..
  | snop | undef => exact Works.refl s

/-! ### The control slot -/

/-- Whether a control operation writes neither the scratchpad nor what WAITCAL, DONE and BRK write. -/
def CtlOp.plain : CtlOp → Bool
  | .sst _ | .waitcal _ | .done _ | .brk _ => false
  | _ => true

theorem Works.ctlEff (s : State) (x : CoreSt) {op : CtlOp} (h : op.plain = true) :
    Works CoreSt.held c s (s.ctlEff c x op) := by
  cases op with
  | sld f => exact (Works.spadRead ..).trans (Works.modCore fun y => CoreSt.held_setS ..)
  | mask | mfill => exact Works.modCore fun y => CoreSt.held_setM ..
  | alu | smfs | mpop | sli | slui => exact Works.modCore fun y => CoreSt.held_setS ..
  | sst | waitcal | done | brk => cases h
  | cnop | br | bmany | bmnone | loop | setmode | fence | undef => exact Works.refl s

/-- Core `c` alone changes, and keeps what `view` shows of it; beside it nothing but routes, collectors, the root gate
and what logging touches. -/
structure Idles {β : Type} (view : CoreSt → β) (c : Nat) (s t : State) : Prop where
  keeps : Keeps view c s t
  remote : t.remote = s.remote

theorem Idles.trans {β : Type} {view : CoreSt → β} {s t u : State} (h : Idles view c s t) (k : Idles view c t u) :
    Idles view c s u :=
  ⟨h.keeps.trans k.keeps, k.remote.trans h.remote⟩

theorem Works.eventless {s t : State} (h : Works CoreSt.held c s t) : Idles CoreSt.eventless c s t :=
  ⟨h.keeps.mono fun _ _ => CoreSt.eventless_of_held, State.remote_of_apart h.apart⟩

theorem Works.idle {s t : State} (h : Works CoreSt.unworked c s t) : Idles CoreSt.idle c s t :=
  ⟨h.keeps.mono fun _ _ => CoreSt.idle_of_unworked, State.remote_of_apart h.apart⟩

theorem Idles.idle {s t : State} (h : Idles CoreSt.eventless c s t) : Idles CoreSt.idle c s t :=
  ⟨h.keeps.mono fun _ _ => CoreSt.idle_of_eventless, h.remote⟩

theorem Idles.modCore {β : Type} {view : CoreSt → β} {s : State} {f : CoreSt → CoreSt}
    (h : ∀ x, view (f x) = view x) : Idles view c s (s.modCore c f) := ⟨Keeps.modCore h, rfl⟩

theorem State.remote_doneMeaning (s : State) (code : Byte) : (s.doneMeaning c code).remote = s.remote := by
  unfold State.doneMeaning
  split_ifs
  · rfl
  · unfold State.gateDone
    dsimp only
    split_ifs <;> rfl
  · rfl
  · rfl
  · rfl
  · rfl

theorem Idles.done (s : State) (code : Byte) : Idles CoreSt.eventless c s ((s.post c code).doneMeaning c code) := by
  refine ⟨?_, (State.remote_doneMeaning ..).trans ?_⟩
  · refine Keeps.trans ?_ (sameCores_doneMeaning ..).keeps
    unfold State.post
    dsimp only
    split
    · exact Keeps.setCore rfl
    · refine Keeps.trans_sameCores (Keeps.trans_sameCores (Keeps.setCore ?_) (sameCores_setDieColl ..))
        (LogFrame.log _ _).sameCores
      rfl
  · unfold State.post
    dsimp only
    split
    · rfl
    · exact (State.remote_of_apart (LogFrame.log _ _).apart).trans rfl

theorem Idles.ctlEff (s : State) (x : CoreSt) {op : CtlOp} (h : ∀ f, op ≠ .sst f) :
    Idles CoreSt.eventless c s (s.ctlEff c x op) := by
  by_cases hplain : op.plain = true
  · exact (Works.ctlEff s x hplain).eventless
  · cases op with
    | sst f => exact absurd rfl (h f)
    | done f => exact Idles.done s f.code
    | waitcal | brk =>
      rw [State.ctlEff]
      exact Idles.modCore fun _ => rfl
    | _ => exact absurd rfl hplain

theorem Idles.idle_ctlEff (s : State) (x : CoreSt) (op : CtlOp) : Idles CoreSt.idle c s (s.ctlEff c x op) := by
  by_cases h : ∃ f, op = .sst f
  · obtain ⟨f, rfl⟩ := h
    exact (Works.spadWrite ..).idle
  · exact (Idles.ctlEff s x fun f hf => h ⟨f, hf⟩).idle

theorem Idles.fenceEff (s : State) (x : CoreSt) (b : Bundle) :
    Idles CoreSt.eventless c s (s.fenceEff c x b) := by
  unfold State.fenceEff
  split
  · unfold State.startFence
    split_ifs <;> exact Idles.modCore fun _ => rfl
  · exact ⟨Keeps.refl s, rfl⟩

/-! ### The issue of a bundle -/

/-- The state after every slot of a bundle, before the sequencer advances. -/
def State.worked (s : State) (c : Nat) (b : Bundle) : State :=
  ((s.vecTo c b).strEff c ((s.core c).fetched b) b.str).fenceEff c ((s.core c).fetched b) b

theorem State.perform_eq (s : State) (c : Nat) (b : Bundle) :
    s.perform c b = (s.worked c b).modCore c fun y => y.issued ((s.core c).fetched b) b.ctl := by
  unfold State.perform
  dsimp only
  rw [State.core_fetchFix_eq]
  rfl

theorem State.core_perform (s : State) (c : Nat) (b : Bundle) :
    (s.perform c b).core c = ((s.worked c b).core c).issued ((s.core c).fetched b) b.ctl := by
  rw [State.perform_eq, State.core_modCore]

/-- What every bundle leaves alone while its slots work. -/
theorem Idles.worked (s : State) (b : Bundle) : Idles CoreSt.idle c s (s.worked c b) :=
  ((((Works.fetchFix s b).eventless.idle.trans (Idles.idle_ctlEff ..)).trans (Works.arrEff ..).eventless.idle).trans
    (Works.unworked_vecEff ..).idle).trans ((Works.strEff ..).eventless.trans (Idles.fenceEff ..)).idle

/-- A bundle without SST and VXFR leaves the scratchpad alone as well. -/
theorem Idles.eventless_worked (s : State) {b : Bundle} (hctl : ∀ f, b.ctl ≠ .sst f) (hvec : ∀ f, b.vec ≠ .vxfr f) :
    Idles CoreSt.eventless c s (s.worked c b) :=
  ((((Works.fetchFix s b).eventless.trans (Idles.ctlEff _ _ hctl)).trans (Works.arrEff ..).eventless).trans
    (Works.vecEff _ _ hvec).eventless).trans ((Works.strEff ..).eventless.trans (Idles.fenceEff ..))

end Slots

/-! ### The frame of a bundle that issues (O6) -/

section Frame

variable {s : State} {c : Nat} {b : Bundle} {r : RegName}

/-- A register that no slot of the bundle writes. -/
theorem State.reg_perform_of_spared (h : Spared r (written b)) :
    ((s.perform c b).core c).reg r = (s.core c).reg r := by
  have hcv : b.ctl.writes ++ b.vec.writes ⊆ written b := List.subset_append_left ..
  have hc : Spared r b.ctl.writes := h.mono (List.Subset.trans (List.subset_append_left ..) hcv)
  have hv : Spared r b.vec.writes := h.mono (List.Subset.trans (List.subset_append_right ..) hcv)
  have hs : Spared r b.str.writes := h.mono (List.subset_append_right ..)
  calc ((s.perform c b).core c).reg r
      = ((s.vecTo c b).core c).reg r := congrArg Prod.fst (State.beside_perform hs)
    _ = ((s.vecFrom c b).core c).reg r := (Keeps.reg_vecEff _ _ hv).core
    _ = (s.core c).reg r := congrArg Prod.fst (State.beside_vecFrom hc)

theorem spared_of_notMem (h : r ∉ written b) : Spared r (written b) := fun hr => absurd hr h

/-- Whether a vector operation stores in the operand cache. -/
def VecOp.caches : VecOp → Bool
  | .mem .vst _ | .mem .vstx _ | .vxfr _ | .vtile _ => true
  | _ => false

theorem CoreSt.ocache_setS (x : CoreSt) (n : BitVec 5) (v : W32) : (x.setS n v).ocache = x.ocache :=
  (CoreSt.vecStore_fields (CoreSt.vecStore_setS x n v)).1

/-- A vector operation that does not store in the operand cache leaves it as it was. -/
theorem Keeps.ocache_vecEff (s : State) (x : CoreSt) {op : VecOp} (h : op.caches = false) :
    Keeps CoreSt.ocache c s (s.vecEff c x op) := by
  cases op with
  | lane o f =>
    rw [State.vecEff]
    unfold State.laneEff
    split
    · exact Keeps.modCore fun y => (CoreSt.vecStore_fields (CoreSt.vecStore_setM ..)).1
    · extract_lets rs d
      clear_value rs d
      refine Keeps.modCore fun y => ?_
      unfold CoreSt.seqNext
      split_ifs <;> rfl
  | mem o f =>
    cases o with
    | vld | vldx =>
      rw [State.vecEff]
      unfold State.loadEff
      extract_lets ws bad fixed d
      clear_value ws bad fixed d
      refine Keeps.trans_sameCores (Keeps.modCore fun y => ?_) (sameCores_ocReport ..)
      rfl
    | vst | vstx => cases h
  | vxfr | vtile => cases h
  | rclr f =>
    rw [State.vecEff]
    refine Keeps.modCore fun y => ?_
    split_ifs <;> rfl
  | rget f => exact Keeps.modCore fun y => CoreSt.ocache_setS ..
  | rgetn f =>
    rw [State.vecEff]
    exact Keeps.modCore fun y => by rw [CoreSt.ocache_setS, CoreSt.ocache_setS]
  | vnop | undef => exact Keeps.refl s

theorem State.ocache_perform (h : b.vec.caches = false) :
    ((s.perform c b).core c).ocache = (s.core c).ocache :=
  calc ((s.perform c b).core c).ocache
      = ((s.vecTo c b).core c).ocache := (CoreSt.vecStore_fields (s.vecStore_perform c b)).1
    _ = ((s.vecFrom c b).core c).ocache := (Keeps.ocache_vecEff _ _ h).core
    _ = (s.core c).ocache := (CoreSt.vecStore_fields (s.vecStore_vecFrom c b)).1

theorem CoreSt.spad_issued (y x : CoreSt) (op : CtlOp) : (y.issued x op).spad = y.spad :=
  (congrArg CoreSt.spad (CoreSt.unsequenced_advance y x op) :)

theorem State.spad_perform (hctl : ∀ f, b.ctl ≠ .sst f) (hvec : ∀ f, b.vec ≠ .vxfr f) :
    ((s.perform c b).core c).spad = (s.core c).spad := by
  rw [State.core_perform, CoreSt.spad_issued]
  exact (congrArg CoreSt.spad (Idles.eventless_worked s hctl hvec).keeps.core :)

theorem State.remote_perform (s : State) (c : Nat) (b : Bundle) : (s.perform c b).remote = s.remote := by
  rw [State.perform_eq]
  exact (Idles.worked s b).remote

theorem VecOp.caches_eq_false {op : VecOp} (hst : ∀ f, op ≠ .mem .vst f) (hstx : ∀ f, op ≠ .mem .vstx f)
    (hxfr : ∀ f, op ≠ .vxfr f) (htile : ∀ f, op ≠ .vtile f) : op.caches = false := by
  cases op with
  | mem o f =>
    cases o with
    | vst => exact absurd rfl (hst f)
    | vstx => exact absurd rfl (hstx f)
    | vld | vldx => rfl
  | vxfr f => exact absurd rfl (hxfr f)
  | vtile f => exact absurd rfl (htile f)
  | lane | rclr | rget | rgetn | vnop | undef => rfl

end Frame

/-- Settles O6: each slot works in its own part of its core, and beside the core on routes, collectors, the root gate
and the log alone. -/
theorem issueLeavesTheRestAlone : Obligations.IssueLeavesTheRestAlone := by
  unfold Obligations.IssueLeavesTheRestAlone
  intro i s c b hb h
  have hfar := s.remote_perform c b
  refine ⟨s.perform c b, by rw [exec_of_bundleOf hb, State.issue_of_issues h],
    fun n hn => CoreSt.sreg_eq_of_reg (State.reg_perform_of_spared (spared_of_notMem hn)),
    fun n hn => CoreSt.mreg_eq_of_reg (State.reg_perform_of_spared (spared_of_notMem hn)),
    fun n hn => CoreSt.vreg_eq_of_reg (State.reg_perform_of_spared (spared_of_notMem hn)), fun d hd => ?_,
    State.spad_perform, fun hst hstx hxfr htile => State.ocache_perform (VecOp.caches_eq_false hst hstx hxfr htile),
    (congrArg State.mem hfar :), (congrArg State.memEcc hfar :), (congrArg State.staging hfar :),
    (congrArg State.stks hfar :), (congrArg State.imgA hfar :), (congrArg State.imgB hfar :),
    (congrArg State.fab hfar :), (congrArg State.pending hfar :)⟩
  rw [State.perform_eq, State.core_modCore_ne _ _ _ (Ne.symm hd)]
  exact (Idles.worked s b).keeps.others d hd

end Sys2Proof.Machine
end

/-! ## The sequencer: the next bundle and the mode (O9, O10) -/

section

namespace Sys2Proof.Machine

open Sys2Proof Sys2Proof.Claims

/-! ### Loop levels (R194, R198, R199) -/

section Loops

/-- The core but for its loop levels. -/
def CoreSt.sansLoops (x : CoreSt) : CoreSt := { x with loops := [] }

theorem CoreSt.sansLoops_loopTest (l : List Nat) : ∀ x : CoreSt, (x.loopTest l).1.sansLoops = x.sansLoops := by
  induction l with
  | nil => exact fun _ => rfl
  | cons n l ih =>
    intro x
    unfold CoreSt.loopTest
    split_ifs
    · rfl
    · exact ih _
    · rfl
    · exact ih x

theorem CoreSt.sansLoops_leave (tgt : Nat) (l : List Nat) : ∀ x : CoreSt, (x.leave tgt l).sansLoops = x.sansLoops := by
  induction l with
  | nil => exact fun _ => rfl
  | cons n l ih =>
    intro x
    unfold CoreSt.leave
    split_ifs
    · exact ih _
    · exact ih x

/-- No active loop ends at the bundle that issues: the next bundle follows, and the levels stand. -/
theorem CoreSt.loopTest_of_no_end {x : CoreSt} (l : List Nat)
    (h : ∀ n ∈ l, (x.loop n).act = true → (x.loop n).le ≠ x.pc) : x.loopTest l = (x, x.pc.toNat + 1) := by
  induction l with
  | nil => rfl
  | cons n l ih =>
    unfold CoreSt.loopTest
    split_ifs with hact hend hlc
    · exact absurd hend (h n List.mem_cons_self hact)
    · exact absurd hend (h n List.mem_cons_self hact)
    · rfl
    · exact ih fun m hm => h m (List.mem_cons_of_mem n hm)

/-- A level outside the list that is tested stands. -/
theorem CoreSt.loop_loopTest_of_notMem {m : Nat} (l : List Nat) :
    m ∉ l → ∀ x : CoreSt, (x.loopTest l).1.loop m = x.loop m := by
  induction l with
  | nil => exact fun _ _ => rfl
  | cons n l ih =>
    intro hm x
    obtain ⟨hne, hml⟩ : m ≠ n ∧ m ∉ l := by simpa using hm
    unfold CoreSt.loopTest
    split_ifs
    · exact CoreSt.loop_setLoop_ne _ _ (Ne.symm hne)
    · exact (ih hml _).trans (CoreSt.loop_setLoop_ne _ _ (Ne.symm hne))
    · rfl
    · exact ih hml x

/-- The test begins at the innermost active level. -/
theorem CoreSt.loopTest_from {x : CoreSt} {n : Nat} (hn : n < 3)
    (h : ∀ m < 3, n < m → (x.loop m).act = false) :
    x.loopTest [2, 1, 0] = x.loopTest (n :: (List.range n).reverse) := by
  have hskip : ∀ m l, (x.loop m).act = false → x.loopTest (m :: l) = x.loopTest l := fun m l hm => by
    rw [CoreSt.loopTest, if_neg (by simp [hm])]
  interval_cases n
  · rw [hskip 2 _ (h 2 (by decide) (by decide)), hskip 1 _ (h 1 (by decide) (by decide))]
    rfl
  · rw [hskip 2 _ (h 2 (by decide) (by decide))]
    rfl
  · rfl

/-- A level after a taken branch to `tgt`. -/
def LoopLv.left (v : LoopLv) (tgt : Nat) : LoopLv :=
  if v.act = true ∧ (tgt < v.ls.toNat ∨ v.le.toNat < tgt) then { v with act := false } else v

theorem LoopLv.act_left (v : LoopLv) (tgt : Nat) :
    (v.left tgt).act = (v.act && decide (v.ls.toNat ≤ tgt) && decide (tgt ≤ v.le.toNat)) := by
  unfold LoopLv.left
  by_cases h : v.act = true ∧ (tgt < v.ls.toNat ∨ v.le.toNat < tgt)
  · rw [if_pos h]
    rcases h.2 with hlt | hlt
    · simp [Nat.not_le.2 hlt]
    · simp [Nat.not_le.2 hlt]
  · rw [if_neg h]
    cases hact : v.act
    · rfl
    · simp only [hact, true_and, not_or, Nat.not_lt] at h
      simp [h.1, h.2]

theorem CoreSt.leave_cons (x : CoreSt) (tgt m : Nat) (l : List Nat) :
    ∃ y : CoreSt, x.leave tgt (m :: l) = y.leave tgt l ∧ y.loop m = (x.loop m).left tgt
      ∧ ∀ n, n ≠ m → y.loop n = x.loop n := by
  rw [CoreSt.leave]
  split_ifs with h
  · exact ⟨_, rfl, by rw [CoreSt.loop_setLoop_same, LoopLv.left, if_pos h],
      fun n hn => CoreSt.loop_setLoop_ne _ _ (Ne.symm hn)⟩
  · exact ⟨x, rfl, by rw [LoopLv.left, if_neg h], fun _ _ => rfl⟩

/-- A taken branch deactivates each level that does not contain its target. -/
theorem CoreSt.loop_leave (tgt n : Nat) (l : List Nat) : l.Nodup → ∀ x : CoreSt,
    (x.leave tgt l).loop n = if n ∈ l then (x.loop n).left tgt else x.loop n := by
  induction l with
  | nil => exact fun _ x => rfl
  | cons m l ih =>
    intro hml x
    obtain ⟨hm, hl⟩ := List.nodup_cons.1 hml
    obtain ⟨y, heq, hsame, hother⟩ := x.leave_cons tgt m l
    rw [heq, ih hl]
    by_cases hn : n = m
    · rw [hn, if_neg hm, hsame, if_pos List.mem_cons_self]
    · rw [hother n hn]
      simp [hn]

end Loops

/-! ### The advance, step by step -/

/-- The bundle after this one where nothing branches: the end of a delay slot, or the loop test. -/
def CoreSt.passed (x : CoreSt) : CoreSt × Nat :=
  if x.ds then ({ x with ds := false }, x.dst.toNat) else x.loopTest [2, 1, 0]

/-- The branch: its delay slot is next. -/
def CoreSt.branched (x x0 : CoreSt) (op : CtlOp) (t : CoreSt × Nat) : CoreSt × Nat :=
  match x0.branch op with
  | some (taken, off) =>
    let tgt := (x.pc.toNat + off).toNat
    let y := if taken then t.1.leave tgt [0, 1, 2] else t.1
    ({ y with ds := true, dst := BitVec.ofNat 12 (if taken then tgt else x.pc.toNat + 2) }, x.pc.toNat + 1)
  | none => t

/-- The start of a loop, or the skip over its body. -/
def CoreSt.looped (x x0 : CoreSt) (op : CtlOp) (t : CoreSt × Nat) : CoreSt × Nat :=
  match op with
  | .loop f =>
    let e := x.pc.toNat + f.endo.toNat
    if x0.loopCount f = 0 then (t.1, e + 1)
    else
      (t.1.setLoop f.n.toNat ⟨x.pc + 1, BitVec.ofNat 12 e, BitVec.ofNat 20 (x0.loopCount f), true⟩, t.2)
  | _ => t

/-- The core and the index after the bundle, but for the mode. -/
def CoreSt.followed (x x0 : CoreSt) (op : CtlOp) : CoreSt × Nat := x.looped x0 op (x.branched x0 op x.passed)

/-- The pending mode that a SETMODE writes. -/
def CoreSt.modeSet (y x0 : CoreSt) (op : CtlOp) : CoreSt :=
  match op with
  | .setmode f => { y with pmode := x0.modeVal f, pcount := 2 }
  | _ => y

theorem CoreSt.advance_eq (x x0 : CoreSt) (op : CtlOp) : x.advance x0 op
    = { (x.followed x0 op).1.shadow.modeSet x0 op with pc := BitVec.ofNat 12 (x.followed x0 op).2 } := rfl

/-- The delay slot and the loop levels. -/
def CoreSt.flow (x : CoreSt) : Bool × BitVec 12 × Tab LoopLv := (x.ds, x.dst, x.loops)

theorem CoreSt.flow_shadow (x : CoreSt) : x.shadow.flow = x.flow := by
  unfold CoreSt.shadow
  split_ifs
  · rfl
  · exact (congrArg CoreSt.flow (CoreSt.sansFeeders_feedersToBase ..) :)
  · rfl

theorem CoreSt.flow_modeSet (y x0 : CoreSt) (op : CtlOp) : (y.modeSet x0 op).flow = y.flow := by
  unfold CoreSt.modeSet
  split <;> rfl

theorem CoreSt.advance_flow (x x0 : CoreSt) (op : CtlOp) :
    (x.advance x0 op).flow = (x.followed x0 op).1.flow
      ∧ (x.advance x0 op).pc = BitVec.ofNat 12 (x.followed x0 op).2 := by
  rw [CoreSt.advance_eq]
  exact ⟨(CoreSt.flow_modeSet ..).trans (CoreSt.flow_shadow _), rfl⟩

theorem CoreSt.loop_of_flow {x y : CoreSt} (h : x.flow = y.flow) (n : Nat) : x.loop n = y.loop n := by
  have hloops : x.loops = y.loops := congrArg (fun v => v.2.2) h
  rw [CoreSt.loop, hloops]
  rfl

theorem ofNat_succ_toNat (v : BitVec 12) : BitVec.ofNat 12 (v.toNat + 1) = v + 1 := by
  apply BitVec.eq_of_toNat_eq
  simp

/-- A branch bundle outside a delay slot and not at the end of a loop (R191, R193, R197). -/
theorem CoreSt.followed_branch {x x0 : CoreSt} {op : CtlOp} {taken : Bool} {off : Int}
    (hbr : x0.branch op = some (taken, off)) (hpass : x.passed = (x, x.pc.toNat + 1)) :
    x.followed x0 op = ({ (if taken then x.leave (x.pc.toNat + off).toNat [0, 1, 2] else x) with
      ds := true, dst := BitVec.ofNat 12 (if taken then (x.pc.toNat + off).toNat else x.pc.toNat + 2) },
      x.pc.toNat + 1) := by
  have hloop : ∀ t, x.looped x0 op t = t := fun t => by
    unfold CoreSt.looped
    split
    · cases hbr
    · rfl
  rw [CoreSt.followed, hloop, CoreSt.branched, hbr, hpass]

theorem CoreSt.followed_loop {x x0 : CoreSt} {f : FmtLP} (hpass : x.passed = (x, x.pc.toNat + 1)) :
    x.followed x0 (.loop f) = if x0.loopCount f = 0 then (x, x.pc.toNat + f.endo.toNat + 1)
      else (x.setLoop f.n.toNat ⟨x.pc + 1, BitVec.ofNat 12 (x.pc.toNat + f.endo.toNat),
        BitVec.ofNat 20 (x0.loopCount f), true⟩, x.pc.toNat + 1) := by
  rw [CoreSt.followed, hpass]
  rfl

theorem CoreSt.followed_of_no_jump {x x0 : CoreSt} {op : CtlOp} (h : jumps op = false) :
    x.followed x0 op = x.passed := by
  cases op with
  | br | bmany | bmnone | loop => cases h
  | _ => rfl

/-- The loop test at the bundle that ends the innermost active loop (R198). -/
theorem CoreSt.passed_at_end {x : CoreSt} (hds : x.ds = false) {n : Nat} (hn : n < 3) (hact : (x.loop n).act = true)
    (hend : (x.loop n).le = x.pc) (hin : ∀ m < 3, n < m → (x.loop m).act = false) :
    x.passed = if 1 < (x.loop n).lc.toNat then
        (x.setLoop n { x.loop n with lc := (x.loop n).lc - 1 }, (x.loop n).ls.toNat)
      else (x.setLoop n { x.loop n with act := false }).loopTest (List.range n).reverse := by
  rw [CoreSt.passed, if_neg (by simp [hds]), CoreSt.loopTest_from hn hin, CoreSt.loopTest, if_pos hact, if_pos hend]

theorem CoreSt.passed_of_no_end {x : CoreSt} (hds : x.ds = false)
    (h : ∀ n < 3, (x.loop n).act = true → (x.loop n).le ≠ x.pc) : x.passed = (x, x.pc.toNat + 1) := by
  rw [CoreSt.passed, if_neg (by simp [hds])]
  refine CoreSt.loopTest_of_no_end _ fun n hn => h n ?_
  simp only [List.mem_cons, List.not_mem_nil, or_false] at hn
  omega

/-- After the last pass of a loop its level is no longer active; where no outer loop ends here too, the next bundle
follows. -/
theorem CoreSt.passed_last {x : CoreSt} (hds : x.ds = false) {n : Nat} (hn : n < 3) (hact : (x.loop n).act = true)
    (hend : (x.loop n).le = x.pc) (hin : ∀ m < 3, n < m → (x.loop m).act = false)
    (hlc : (x.loop n).lc.toNat ≤ 1) :
    (x.passed.1.loop n).act = false ∧ ((∀ m < n, (x.loop m).act = true → (x.loop m).le ≠ x.pc) →
      x.passed.2 = x.pc.toNat + 1 ∧ ∀ m, m ≠ n → x.passed.1.loop m = x.loop m) := by
  rw [CoreSt.passed_at_end hds hn hact hend hin, if_neg (by omega)]
  refine ⟨?_, fun hout => ?_⟩
  · rw [CoreSt.loop_loopTest_of_notMem _ (by simp), CoreSt.loop_setLoop_same]
  · rw [CoreSt.loopTest_of_no_end _ fun m hm => ?_]
    · exact ⟨rfl, fun m hm => CoreSt.loop_setLoop_ne _ _ (Ne.symm hm)⟩
    · have hlt : m < n := by simpa using hm
      rw [CoreSt.loop_setLoop_ne _ _ (Nat.ne_of_gt hlt)]
      exact hout m hlt

/-! ### Conditions and targets of branches (R187, R191) -/

theorem brTaken_iff (o : BrOp) (a : W32) : brTaken o a = true ↔ match o with
    | .always => True
    | .eqz => a.toInt = 0
    | .nez => a.toInt ≠ 0
    | .ltz => a.toInt < 0
    | .gez => 0 ≤ a.toInt := by
  have hzero : a.toInt = 0 ↔ a = 0 := by
    rw [← BitVec.toInt_inj]
    rfl
  cases o with
  | always => simp [brTaken]
  | eqz => simp [brTaken, hzero]
  | nez => simp [brTaken, hzero]
  | ltz => simp [brTaken, BitVec.msb_eq_toInt]
  | gez => simp [brTaken, BitVec.msb_eq_toInt]

theorem mask_ne_zero_iff (m : W64) : m ≠ 0 ↔ ∃ l < 64, m.getLsbD l = true := by
  constructor
  · intro h
    by_contra hno
    refine h (BitVec.eq_of_getLsbD_eq fun i hi => ?_)
    by_contra hbit
    exact hno ⟨i, hi, by simpa using hbit⟩
  · rintro ⟨l, -, hl⟩ rfl
    simp at hl

/-- The claim's condition and offset are those of the model. -/
theorem CoreSt.branch_of_branchOf {x : CoreSt} {op : CtlOp} {p : Prop} {off : Int}
    (h : branchOf x op = some (p, off)) : ∃ taken, x.branch op = some (taken, off) ∧ (taken = true ↔ p) := by
  cases op with
  | br o f =>
    refine ⟨brTaken o (x.sreg f.a), ?_, ?_⟩
    · cases o <;> cases h <;> rfl
    · rw [brTaken_iff]
      cases o <;> cases h <;> rfl
  | bmany f =>
    cases h
    exact ⟨_, rfl, by simpa using mask_ne_zero_iff (x.mreg f.ma)⟩
  | bmnone f =>
    cases h
    refine ⟨_, rfl, ?_⟩
    have hnot := not_congr (mask_ne_zero_iff (x.mreg f.ma))
    simpa using hnot
  | _ => cases h

/-! ### What issues raises no ILLEGAL in its control slot (R193-R197, R200, R203) -/

theorem firstFail_eq_none {l : List (Bool × Nat)} (h : firstFail l = none) : ∀ e ∈ l, e.1 = false := by
  induction l with
  | nil => simp
  | cons e l ih =>
    obtain ⟨b, d⟩ := e
    unfold firstFail at h
    split_ifs at h with hb
    simp only [List.mem_cons, forall_eq_or_imp]
    exact ⟨by simpa using hb, ih h⟩

section Checks

variable {s : State} {c : Nat} {b : Bundle}

theorem CoreSt.ctlChecks_of_issues (h : Issues s c b) : (s.core c).ctlMisaligned b.ctl = false
    ∧ (s.core c).ctlBad b.ctl = false ∧ (s.core c).badTarget b.ctl = false ∧ (s.core c).ctlInDs b.ctl = false
    ∧ (s.core c).loopEnd b.ctl = false ∧ (s.core c).loopNest b.ctl = false
    ∧ (b.ctl.isSetmode && (s.core c).pcount != 0) = false := by
  obtain ⟨-, -, -, -, -, hill, -⟩ := h
  simp only [State.illegalAt] at hill
  split_ifs at hill
  simp only [Option.orElse_eq_or, Option.or_eq_none_iff, Option.map_eq_none_iff] at hill
  obtain ⟨⟨⟨⟨⟨-, hctl⟩, -⟩, -⟩, -⟩, -⟩ := hill
  have hall := firstFail_eq_none hctl
  simp only [List.mem_cons, List.not_mem_nil, or_false, forall_eq_or_imp, forall_eq] at hall
  obtain ⟨-, -, hmis, hbad, htarget, hds, hend, hnest, hshadow, -⟩ := hall
  exact ⟨hmis, hbad, htarget, hds, hend, hnest, hshadow⟩

/-- A bundle that branches or starts a loop issues neither in a delay slot nor at the end of a loop. -/
theorem CoreSt.passed_of_jump (h : Issues s c b) (hjump : jumps b.ctl = true) :
    (s.core c).ds = false ∧ ∀ n < 3, ((s.core c).loop n).act = true → ((s.core c).loop n).le ≠ (s.core c).pc := by
  obtain ⟨-, -, -, hds, hend, hnest, -⟩ := CoreSt.ctlChecks_of_issues h
  have hends : (s.core c).loopEnds.contains (s.core c).pc.toNat = false → ∀ n < 3,
      ((s.core c).loop n).act = true → ((s.core c).loop n).le ≠ (s.core c).pc := fun hno n hn hact heq => by
    have hmem : (s.core c).pc.toNat ∈ (s.core c).loopEnds := by
      refine List.mem_map.2 ⟨n, List.mem_filter.2 ⟨?_, hact⟩, by rw [heq]⟩
      simp only [List.mem_cons, List.not_mem_nil, or_false]
      omega
    simp [hmem] at hno
  cases hop : b.ctl with
  | br | bmany | bmnone =>
    rw [hop] at hds hend
    simp only [CoreSt.ctlInDs, CoreSt.loopEnd, CoreSt.branch, Option.isSome_some, Bool.true_or, Bool.and_true,
      Bool.true_and, Bool.or_eq_false_iff] at hds hend
    exact ⟨hds, hends hend.1⟩
  | loop f =>
    rw [hop] at hds hnest
    simp only [CoreSt.ctlInDs, Bool.or_true, Bool.and_true] at hds
    simp only [CoreSt.loopNest, Bool.or_eq_false_iff] at hnest
    exact ⟨hds, hends hnest.2⟩
  | _ =>
    rw [hop] at hjump
    cases hjump

end Checks

/-! ### What an issue does to the delay slot and the loops (R191-R199) -/

section Issued

variable {w x0 : CoreSt} {op : CtlOp}

theorem CoreSt.issued_flow (w x0 : CoreSt) (op : CtlOp) : (w.issued x0 op).flow = (w.followed x0 op).1.flow
    ∧ (w.issued x0 op).pc = BitVec.ofNat 12 (w.followed x0 op).2 := w.advance_flow x0 op

/-- A branch (R191): its delay slot is next, and the target or the bundle after the delay slot follows that. -/
theorem CoreSt.issued_branch {taken : Bool} {off : Int} (hbr : x0.branch op = some (taken, off))
    (hpass : w.passed = (w, w.pc.toNat + 1)) (hlo : 0 ≤ w.pc.toNat + off) (hhi : w.pc.toNat + off ≤ 4095) :
    let y := w.issued x0 op
    y.ds = true ∧ y.pc = w.pc + 1
      ∧ (taken = true → (y.dst.toNat : Int) = w.pc.toNat + off ∧ ∀ n < 3, (y.loop n).act = ((w.loop n).act
          && decide (((w.loop n).ls.toNat : Int) ≤ w.pc.toNat + off)
          && decide ((w.pc.toNat : Int) + off ≤ (w.loop n).le.toNat)))
      ∧ (taken = false → y.dst = w.pc + 2 ∧ ∀ n < 3, y.loop n = w.loop n) := by
  intro y
  obtain ⟨hflow, hpc⟩ := w.issued_flow x0 op
  rw [CoreSt.followed_branch hbr hpass] at hflow hpc
  refine ⟨(congrArg (fun v => v.1) hflow :), hpc.trans (ofNat_succ_toNat _), ?_, ?_⟩
  · rintro rfl
    have hdst : y.dst = BitVec.ofNat 12 (w.pc.toNat + off).toNat := (congrArg (fun v => v.2.1) hflow :)
    refine ⟨?_, fun n hn => ?_⟩
    · rw [hdst, BitVec.toNat_ofNat, Nat.mod_eq_of_lt (by omega)]
      omega
    · have hmem : n ∈ [0, 1, 2] := by simp only [List.mem_cons, List.not_mem_nil, or_false]; omega
      have hloop : y.loop n = ((w.leave (w.pc.toNat + off).toNat [0, 1, 2]).loop n) :=
        (CoreSt.loop_of_flow hflow n).trans rfl
      obtain ⟨k, hk⟩ := Int.eq_ofNat_of_zero_le hlo
      rw [hloop, CoreSt.loop_leave _ _ _ (by decide), if_pos hmem, LoopLv.act_left, hk]
      simp
  · rintro rfl
    have hdst : y.dst = BitVec.ofNat 12 (w.pc.toNat + 2) := (congrArg (fun v => v.2.1) hflow :)
    refine ⟨?_, fun n _ => (CoreSt.loop_of_flow hflow n).trans rfl⟩
    rw [hdst]
    exact BitVec.eq_of_toNat_eq (by simp)

/-- A LOOP (R194, R195). -/
theorem CoreSt.issued_loop {f : FmtLP} (hpass : w.passed = (w, w.pc.toNat + 1)) :
    let y := w.issued x0 (.loop f)
    (x0.loopCount f = 0 → y.pc.toNat = (w.pc.toNat + f.endo.toNat + 1) % 4096 ∧ ∀ n < 3, y.loop n = w.loop n)
      ∧ (x0.loopCount f ≠ 0 → y.pc = w.pc + 1 ∧ (y.loop f.n.toNat).act = true ∧ (y.loop f.n.toNat).ls = w.pc + 1
        ∧ (y.loop f.n.toNat).le = BitVec.ofNat 12 (w.pc.toNat + f.endo.toNat)
        ∧ (y.loop f.n.toNat).lc.toNat = x0.loopCount f ∧ ∀ n < 3, n ≠ f.n.toNat → y.loop n = w.loop n) := by
  intro y
  obtain ⟨hflow, hpc⟩ := w.issued_flow x0 (.loop f)
  rw [CoreSt.followed_loop hpass] at hflow hpc
  refine ⟨fun hz => ?_, fun hnz => ?_⟩
  · rw [if_pos hz] at hflow hpc
    refine ⟨?_, fun n _ => CoreSt.loop_of_flow hflow n⟩
    rw [hpc, BitVec.toNat_ofNat]
  · rw [if_neg hnz] at hflow hpc
    have hcount : x0.loopCount f < 2 ^ 20 := by
      unfold CoreSt.loopCount
      split
      · have := f.cnt.isLt
        omega
      · exact Nat.mod_lt _ (by decide)
    have hloop : y.loop f.n.toNat = _ := (CoreSt.loop_of_flow hflow _).trans (CoreSt.loop_setLoop_same ..)
    rw [hloop]
    refine ⟨hpc.trans (ofNat_succ_toNat _), rfl, rfl, rfl, ?_, fun n _ hn => ?_⟩
    · rw [BitVec.toNat_ofNat, Nat.mod_eq_of_lt hcount]
    · exact (CoreSt.loop_of_flow hflow n).trans (CoreSt.loop_setLoop_ne _ _ (Ne.symm hn))

/-- Any other operation (R192, R198). -/
theorem CoreSt.issued_of_no_jump (hjump : jumps op = false) :
    let y := w.issued x0 op
    y.ds = false
      ∧ (w.ds = true → y.pc = w.dst ∧ ∀ n < 3, y.loop n = w.loop n)
      ∧ (w.ds = false → (∀ n < 3, (w.loop n).act = true → (w.loop n).le ≠ w.pc) →
          y.pc = w.pc + 1 ∧ ∀ n < 3, y.loop n = w.loop n)
      ∧ (w.ds = false → ∀ n < 3, (w.loop n).act = true → (w.loop n).le = w.pc →
          (∀ m < 3, n < m → (w.loop m).act = false) →
          (1 < (w.loop n).lc.toNat → y.pc = (w.loop n).ls
            ∧ (y.loop n).lc = (w.loop n).lc - 1 ∧ (y.loop n).act = true
            ∧ ∀ m < 3, m ≠ n → y.loop m = w.loop m)
          ∧ ((w.loop n).lc.toNat ≤ 1 → (y.loop n).act = false
            ∧ ((∀ m < n, (w.loop m).act = true → (w.loop m).le ≠ w.pc) →
                y.pc = w.pc + 1 ∧ ∀ m < 3, m ≠ n → y.loop m = w.loop m))) := by
  intro y
  obtain ⟨hflow, hpc⟩ := w.issued_flow x0 op
  rw [CoreSt.followed_of_no_jump hjump] at hflow hpc
  have hloop : ∀ n, y.loop n = w.passed.1.loop n := CoreSt.loop_of_flow hflow
  refine ⟨?_, fun hds => ?_, fun hds hend => ?_, fun hds n hn hact hend hin => ⟨fun hlc => ?_, fun hlc => ?_⟩⟩
  · have hds : y.ds = w.passed.1.ds := (congrArg (fun v => v.1) hflow :)
    rw [hds, CoreSt.passed]
    split_ifs with h
    · rfl
    · exact (congrArg CoreSt.ds (CoreSt.sansLoops_loopTest _ w) :).trans (show w.ds = false by simpa using h)
  · have hpass : w.passed = ({ w with ds := false }, w.dst.toNat) := if_pos hds
    rw [hpass] at hpc hloop
    refine ⟨hpc.trans (by simp), fun n _ => (hloop n).trans rfl⟩
  · rw [CoreSt.passed_of_no_end hds hend] at hpc hloop
    exact ⟨hpc.trans (ofNat_succ_toNat _), fun n _ => hloop n⟩
  · rw [CoreSt.passed_at_end hds hn hact hend hin, if_pos hlc] at hpc hloop
    have hn' : y.loop n = _ := (hloop n).trans (CoreSt.loop_setLoop_same ..)
    rw [hn']
    exact ⟨hpc.trans (by simp), rfl, hact, fun m _ hm => (hloop m).trans (CoreSt.loop_setLoop_ne _ _ (Ne.symm hm))⟩
  · obtain ⟨hoff, hout⟩ := CoreSt.passed_last hds hn hact hend hin hlc
    refine ⟨by rw [hloop]; exact hoff, fun h => ?_⟩
    obtain ⟨hnext, hkept⟩ := hout h
    rw [hnext] at hpc
    exact ⟨hpc.trans (ofNat_succ_toNat _), fun m _ hm => (hloop m).trans (hkept m hm)⟩

end Issued

/-- The sequencer's state stands while the slots of a bundle work. -/
theorem State.sequencer_worked (s : State) (c : Nat) (b : Bundle) :
    let w := (s.worked c b).core c
    let x := s.core c
    w.pc = x.pc ∧ w.ds = x.ds ∧ w.dst = x.dst ∧ ∀ n, w.loop n = x.loop n := by
  intro w x
  have hidle : w.idle = x.idle := (Idles.worked s b).keeps.core
  clear_value w x
  have hloops : w.loops = x.loops := (congrArg CoreSt.loops hidle :)
  exact ⟨(congrArg CoreSt.pc hidle :), (congrArg CoreSt.ds hidle :), (congrArg CoreSt.dst hidle :),
    fun n => by rw [CoreSt.loop, hloops]; rfl⟩

theorem CoreSt.branch_fetched (x : CoreSt) (b : Bundle) (op : CtlOp) : (x.fetched b).branch op = x.branch op := by
  cases op <;> rfl

/-- Settles O9: the slots leave the sequencer's state as it was, and the advance goes one of the ways of R191 to R199. -/
theorem sequencerPicksTheNextBundle : Obligations.SequencerPicksTheNextBundle := by
  unfold Obligations.SequencerPicksTheNextBundle
  intro i s c b hb h
  extract_lets x
  obtain ⟨hpc, hds, hdst, hloop⟩ := s.sequencer_worked c b
  refine ⟨s.perform c b, by rw [exec_of_bundleOf hb, State.issue_of_issues h], ?_⟩
  rw [State.core_perform]
  have hpass : jumps b.ctl = true →
      ((s.worked c b).core c).passed = ((s.worked c b).core c, ((s.worked c b).core c).pc.toNat + 1) := fun hjump => by
    obtain ⟨hxds, hxend⟩ := CoreSt.passed_of_jump h hjump
    refine CoreSt.passed_of_no_end (hds.trans hxds) fun n hn => ?_
    rw [hloop, hpc]
    exact hxend n hn
  generalize (s.worked c b).core c = w at *
  refine ⟨fun p off hbr => ?_, fun f hf => ?_, fun hjump => ?_⟩
  · obtain ⟨taken, hbranch, htaken⟩ := CoreSt.branch_of_branchOf hbr
    have hjump : jumps b.ctl = true := by
      cases hop : b.ctl with
      | br | bmany | bmnone => rfl
      | _ => rw [hop] at hbranch; cases hbranch
    obtain ⟨-, -, htarget, -⟩ := CoreSt.ctlChecks_of_issues h
    rw [CoreSt.badTarget, hbranch] at htarget
    simp only [Bool.or_eq_false_iff, decide_eq_false_iff_not, Int.not_lt] at htarget
    obtain ⟨hyds, hypc, hyes, hno⟩ := CoreSt.issued_branch (x0 := x.fetched b) (op := b.ctl)
      ((CoreSt.branch_fetched ..).trans hbranch) (hpass hjump) (by rw [hpc]; exact htarget.1)
      (by rw [hpc]; exact htarget.2)
    simp only [hpc, hloop] at hypc hyes hno
    exact ⟨hyds, hypc, fun hp => hyes (htaken.2 hp), fun hp => hno (by simpa using mt htaken.1 hp)⟩
  · rw [hf] at hpass
    have hrules := CoreSt.issued_loop (x0 := x.fetched b) (f := f) (hpass rfl)
    rw [hf]
    simp only [hpc, hloop] at hrules
    exact hrules
  · have hrules := CoreSt.issued_of_no_jump (w := w) (x0 := x.fetched b) hjump
    simp only [hpc, hds, hdst, hloop] at hrules
    exact hrules

end Sys2Proof.Machine
end

/-! ## The mode and the control events of a bundle (O10) -/

section

namespace Sys2Proof.Machine

open Sys2Proof Sys2Proof.Claims

/-! ### The mode (R200) -/

/-- The mode, the pending mode and the count of bundles before it takes effect. -/
def CoreSt.modes (x : CoreSt) : W32 × W32 × Nat := (x.mode, x.pmode, x.pcount)

theorem CoreSt.modes_passed (x : CoreSt) : x.passed.1.modes = x.modes := by
  unfold CoreSt.passed
  split_ifs
  · rfl
  · exact (congrArg CoreSt.modes (CoreSt.sansLoops_loopTest _ x) :)

theorem CoreSt.modes_branched (x x0 : CoreSt) (op : CtlOp) (t : CoreSt × Nat) :
    (x.branched x0 op t).1.modes = t.1.modes := by
  unfold CoreSt.branched
  split
  · split_ifs
    · exact (congrArg CoreSt.modes (CoreSt.sansLoops_leave _ _ t.1) :)
    · rfl
  · rfl

theorem CoreSt.modes_looped (x x0 : CoreSt) (op : CtlOp) (t : CoreSt × Nat) :
    (x.looped x0 op t).1.modes = t.1.modes := by
  unfold CoreSt.looped
  split
  · split_ifs <;> rfl
  · rfl

theorem CoreSt.modes_followed (x x0 : CoreSt) (op : CtlOp) : (x.followed x0 op).1.modes = x.modes :=
  (CoreSt.modes_looped ..).trans ((CoreSt.modes_branched ..).trans x.modes_passed)

theorem CoreSt.modes_eq {x y : CoreSt} (h : x.modes = y.modes) :
    x.mode = y.mode ∧ x.pmode = y.pmode ∧ x.pcount = y.pcount := by
  simpa [CoreSt.modes] using h

/-- The count of the bundles before a new mode. -/
theorem CoreSt.shadow_rules (x : CoreSt) : x.shadow.pmode = x.pmode
    ∧ (x.pcount = 0 → x.shadow.mode = x.mode ∧ x.shadow.pcount = 0)
    ∧ (x.pcount = 1 → x.shadow.mode = x.pmode ∧ x.shadow.pcount = 0)
    ∧ (2 ≤ x.pcount → x.shadow.mode = x.mode ∧ x.shadow.pcount = x.pcount - 1) := by
  unfold CoreSt.shadow
  split_ifs with hzero hone
  · exact ⟨rfl, fun _ => ⟨rfl, hzero⟩, by omega, by omega⟩
  · obtain ⟨hmode, hpmode, hpcount⟩ := CoreSt.modes_eq (congrArg CoreSt.modes
      (CoreSt.sansFeeders_feedersToBase [0, 1, 2, 3, 4] { x with pcount := 0, mode := x.pmode }) :)
    exact ⟨hpmode, fun h => absurd h hzero, fun _ => ⟨hmode, hpcount⟩, by omega⟩
  · exact ⟨rfl, fun h => absurd h hzero, fun h => absurd h hone, fun _ => ⟨rfl, rfl⟩⟩

/-- What an issue does to the mode. -/
theorem CoreSt.issued_mode (w x0 : CoreSt) (op : CtlOp) :
    let y := w.issued x0 op
    (∀ f, op = .setmode f → w.pcount = 0 → y.mode = w.mode ∧ y.pcount = 2 ∧ y.pmode = x0.modeVal f)
      ∧ ((∀ f, op ≠ .setmode f) → y.pmode = w.pmode
        ∧ (w.pcount = 0 → y.mode = w.mode ∧ y.pcount = 0)
        ∧ (w.pcount = 1 → y.mode = w.pmode ∧ y.pcount = 0)
        ∧ (2 ≤ w.pcount → y.mode = w.mode ∧ y.pcount = w.pcount - 1)) := by
  intro y
  obtain ⟨hmode, hpmode, hpcount⟩ := CoreSt.modes_eq (CoreSt.modes_followed w x0 op)
  obtain ⟨hspmode, hzero, hone, htwo⟩ := (w.followed x0 op).1.shadow_rules
  rw [hpcount] at hzero hone htwo
  rw [hmode] at hzero htwo
  rw [hpmode] at hone hspmode
  have hy : y.modes = ((w.followed x0 op).1.shadow.modeSet x0 op).modes := (congrArg CoreSt.modes (w.advance_eq x0 op) :)
  clear_value y
  constructor
  · rintro f rfl hz
    obtain ⟨hym, hyp, hyc⟩ : y.mode = _ ∧ y.pmode = _ ∧ y.pcount = _ := CoreSt.modes_eq hy
    exact ⟨hym.trans (hzero hz).1, hyc, hyp⟩
  · intro hno
    have hset : ∀ u : CoreSt, u.modeSet x0 op = u := fun u => by
      unfold CoreSt.modeSet
      split
      next f => exact absurd rfl (hno f)
      · rfl
    rw [hset] at hy
    obtain ⟨hym, hyp, hyc⟩ := CoreSt.modes_eq hy
    rw [hym, hyp, hyc]
    exact ⟨hspmode, hzero, hone, htwo⟩

/-! ### What follows the control slot keeps of its events -/

/-- The state after the control slot of a bundle. -/
def State.controlled (s : State) (c : Nat) (b : Bundle) : State :=
  (s.fetchFix c b).ctlEff c ((s.core c).fetched b) b.ctl

/-- The state after the stream slot of a bundle. -/
def State.slotted (s : State) (c : Nat) (b : Bundle) : State :=
  (s.vecTo c b).strEff c ((s.core c).fetched b) b.str

section Events

variable {s : State} {c : Nat} {b : Bundle}

/-- The array, the vector and the stream slot leave alone what the control slot wrote beside registers and memory. -/
theorem Works.slotted (s : State) (c : Nat) (b : Bundle) :
    Works CoreSt.unworked c (s.controlled c b) (s.slotted c b) :=
  ((Works.arrEff ..).unworked.trans (Works.unworked_vecEff ..)).trans (Works.strEff ..).unworked

theorem Works.coll {β : Type} {view : CoreSt → β} {t : State} (h : Works view c s t) : t.coll = s.coll :=
  (congrArg (fun u : State => u.coll) h.apart :)

theorem Works.fab {β : Type} {view : CoreSt → β} {t : State} (h : Works view c s t) : t.fab = s.fab :=
  (congrArg (fun u : State => u.fab) h.apart :)

theorem State.worked_of_no_fence (h : ∀ f, b.ctl ≠ .fence f) : s.worked c b = s.slotted c b := by
  show (s.slotted c b).fenceEff c _ b = _
  unfold State.fenceEff
  split
  case h_1 f hf => exact absurd hf (h f)
  case h_2 => rfl

/-- What the sequencer's advance leaves of a core, apart from the pending exceptions. -/
theorem CoreSt.issued_rules (w x0 : CoreSt) (op : CtlOp) : let y := w.issued x0 op
    y.calPend = w.calPend ∧ y.fifo = w.fifo ∧ y.dropped = w.dropped ∧ y.fence = w.fence
      ∧ (∀ d, w.pend.brk = some d → y.pend.brk = some d) := by
  intro y
  have h := CoreSt.unsequenced_advance w x0 op
  have hpend : (w.advance x0 op).pend = w.pend := (congrArg CoreSt.pend h :)
  refine ⟨(congrArg CoreSt.calPend h :), (congrArg CoreSt.fifo h :), (congrArg CoreSt.dropped h :),
    (congrArg CoreSt.fence h :), fun d hd => ?_⟩
  have hy : y.pend = if x0.stepping = true ∧ (w.advance x0 op).pend.brk.isNone = true then
      { (w.advance x0 op).pend with brk := some 3 } else (w.advance x0 op).pend := rfl
  rw [hy, hpend, if_neg (by simp [hd]), hd]

/-- The registers, the memories and the units stand while the sequencer advances. -/
theorem CoreSt.issued_stores (w x0 : CoreSt) (op : CtlOp) : let y := w.issued x0 op
    y.sregs = w.sregs ∧ y.mregs = w.mregs ∧ y.vregs = w.vregs ∧ y.spad = w.spad ∧ y.ocache = w.ocache
      ∧ y.quad = w.quad ∧ y.arrays = w.arrays ∧ y.raccs = w.raccs ∧ y.folds = w.folds ∧ y.ports = w.ports
      ∧ y.stopped = w.stopped := by
  intro y
  have h := CoreSt.unsequenced_advance w x0 op
  exact ⟨(congrArg CoreSt.sregs h :), (congrArg CoreSt.mregs h :), (congrArg CoreSt.vregs h :),
    (congrArg CoreSt.spad h :), (congrArg CoreSt.ocache h :), (congrArg CoreSt.quad h :),
    (congrArg CoreSt.arrays h :), (congrArg CoreSt.raccs h :), (congrArg CoreSt.folds h :),
    (congrArg CoreSt.ports h :), (congrArg CoreSt.stopped h :)⟩

/-- WAITCAL alone writes the pending bits of the comparators. -/
theorem Keeps.calPend_ctlEff (s : State) (x : CoreSt) {op : CtlOp} (h : ∀ f, op ≠ .waitcal f) :
    Keeps CoreSt.calPend c s (s.ctlEff c x op) := by
  by_cases hplain : op.plain = true
  · exact (Works.ctlEff s x hplain).keeps.mono fun _ _ e => (congrArg CoreSt.calPend e :)
  · cases op with
    | sst f => exact (Works.spadWrite s _ _).keeps.mono fun _ _ e => (congrArg CoreSt.calPend e :)
    | done f =>
      refine Keeps.trans ?_ (sameCores_doneMeaning ..).keeps
      unfold State.post
      dsimp only
      split
      · exact Keeps.setCore rfl
      · refine Keeps.trans_sameCores (Keeps.trans_sameCores (Keeps.setCore ?_) (sameCores_setDieColl ..))
          (LogFrame.log _ _).sameCores
        rfl
    | brk f =>
      rw [State.ctlEff]
      exact Keeps.modCore fun _ => rfl
    | waitcal f => exact absurd rfl (h f)
    | _ => exact absurd rfl hplain

theorem Keeps.calPend_fenceEff (s : State) (x : CoreSt) (b : Bundle) :
    Keeps CoreSt.calPend c s (s.fenceEff c x b) := by
  unfold State.fenceEff
  split
  · unfold State.startFence
    split_ifs <;> exact Keeps.modCore fun _ => rfl
  · exact Keeps.refl s

theorem State.calPend_worked (h : ∀ f, b.ctl ≠ .waitcal f) : ((s.worked c b).core c).calPend = (s.core c).calPend :=
  calc ((s.worked c b).core c).calPend
      = ((s.slotted c b).core c).calPend := (Keeps.calPend_fenceEff ..).core
    _ = ((s.controlled c b).core c).calPend := (congrArg CoreSt.calPend (Works.slotted s c b).keeps.core :)
    _ = ((s.fetchFix c b).core c).calPend := (Keeps.calPend_ctlEff _ _ h).core
    _ = (s.core c).calPend := by rw [State.core_fetchFix_eq]; rfl

theorem getLsbD_and_not_two_pow (v : W64) {n l : Nat} (hl : l < 64) :
    (v &&& ~~~BitVec.ofNat 64 (2 ^ n)).getLsbD l = (v.getLsbD l && decide (l ≠ n)) := by
  rw [BitVec.getLsbD_and, BitVec.getLsbD_not, BitVec.getLsbD_ofNat, Nat.testBit_two_pow]
  simp [hl, eq_comm]

/-- A bundle that issues with a WAITCAL finds the bit of its comparator set (R203). -/
theorem CoreSt.calPend_of_issues (h : Issues s c b) {f : FmtWC} (hf : b.ctl = .waitcal f) :
    (s.core c).calPend.getLsbD f.n.toNat = true := by
  obtain ⟨-, hbad, -⟩ := CoreSt.ctlChecks_of_issues h
  obtain ⟨-, -, -, -, hholds, -⟩ := h
  simp only [CoreSt.holds, List.append_eq_nil_iff] at hholds
  have hhold : (s.core c).calHold b.ctl = false := by simpa using hholds.1.2
  rw [hf] at hbad hhold
  simp only [CoreSt.ctlBad, Bool.or_eq_false_iff, Bool.not_eq_false'] at hbad
  simp only [CoreSt.calHold, hbad.2, Bool.true_and, Bool.not_eq_false'] at hhold
  exact hhold

/-! ### DONE (R298, R303) -/

theorem State.stepA_fetchFix (s : State) (c : Nat) (b : Bundle) : (s.fetchFix c b).stepOf .a = s.stepA :=
  State.stepOf_of_jobs (s.jobs_fetchFix c b) .a

theorem State.coll_doneMeaning (s : State) (code : Byte) : (s.doneMeaning c code).coll = s.coll := by
  unfold State.doneMeaning
  split_ifs
  · rfl
  · unfold State.gateDone
    dsimp only
    split_ifs <;> rfl
  · rfl
  · rfl
  · rfl
  · rfl

/-- A DONE whose FIFO has room posts its entry. -/
theorem State.post_of_room {u : State} (h : (u.core c).fifo.length < 4) (code : Byte) :
    ∃ e, ((u.post c code).core c).fifo = (u.core c).fifo ++ [e] ∧ e.core = c ∧ e.code = code
      ∧ e.slotb = (u.core c).isB ∧ e.drop = (u.core c).dropped ∧ e.ftime = u.fab.time
      ∧ e.step = (u.stepOf (u.core c).slot).setWidth 32 ∧ ((u.post c code).core c).dropped = false := by
  unfold State.post
  dsimp only
  rw [if_pos h, State.core_setCore]
  exact ⟨_, rfl, rfl, rfl, rfl, rfl, rfl, rfl, rfl⟩

/-- A DONE that finds its FIFO full is dropped and counted. -/
theorem State.post_of_full {u : State} (h : 4 ≤ (u.core c).fifo.length) (code : Byte) :
    ((u.post c code).core c).fifo = (u.core c).fifo ∧ ((u.post c code).core c).dropped = true
      ∧ ((u.core c).isB = false → (u.post c code).coll
        = Tab.ins u.coll (coreDie c)
          { u.dieColl (coreDie c) with dropA := inc16 (u.dieColl (coreDie c)).dropA 1 }) := by
  unfold State.post
  dsimp only
  rw [if_neg (Nat.not_lt.2 h), (LogFrame.log _ _).sameCores.core, (sameCores_setDieColl ..).core, State.core_setCore]
  refine ⟨rfl, rfl, fun hb => ?_⟩
  refine (congrArg State.coll (LogFrame.log _ _).apart :).trans ?_
  rw [hb]
  rfl

/-- Where the control slot holds no FENCE, the core's events at the end are those after the control slot. -/
theorem State.unworked_worked (h : ∀ f, b.ctl ≠ .fence f) :
    ((s.worked c b).core c).unworked = ((s.controlled c b).core c).unworked := by
  rw [State.worked_of_no_fence h]
  exact (Works.slotted s c b).keeps.core

theorem State.calPend_controlled (h : ∀ f, b.ctl ≠ .fence f) :
    ((s.worked c b).core c).calPend = ((s.controlled c b).core c).calPend :=
  (congrArg CoreSt.calPend (State.unworked_worked h) :)

theorem State.brk_worked {f : FmtN} (hf : b.ctl = .brk f) : ((s.worked c b).core c).pend.brk = some 1 := by
  have hpend : ((s.worked c b).core c).pend = ((s.controlled c b).core c).pend :=
    (congrArg CoreSt.pend (State.unworked_worked fun g hg => by rw [hf] at hg; cases hg) :)
  rw [hpend, State.controlled, hf, State.ctlEff, State.core_modCore]

/-- The core, the FIFO and the collectors after a DONE are those after its post. -/
theorem State.done_rules {f : FmtDN} (hf : b.ctl = .done f) :
    ((s.worked c b).core c).fifo = (((s.fetchFix c b).post c f.code).core c).fifo
      ∧ ((s.worked c b).core c).dropped = (((s.fetchFix c b).post c f.code).core c).dropped
      ∧ (s.perform c b).coll = ((s.fetchFix c b).post c f.code).coll := by
  have hno : ∀ g, b.ctl ≠ .fence g := by simp [hf]
  have hun := State.unworked_worked (s := s) (c := c) hno
  have hctl : s.controlled c b = ((s.fetchFix c b).post c f.code).doneMeaning c f.code := by
    rw [State.controlled, hf]
    rfl
  generalize (s.fetchFix c b).post c f.code = u at hctl
  have hcore : (s.controlled c b).core c = u.core c := by rw [hctl, (sameCores_doneMeaning ..).core]
  have hcoll : (s.controlled c b).coll = u.coll := by rw [hctl, State.coll_doneMeaning]
  rw [hcore] at hun
  refine ⟨(congrArg CoreSt.fifo hun :), (congrArg CoreSt.dropped hun :), ?_⟩
  rw [State.perform_eq, State.modCore_coll, State.worked_of_no_fence hno, (Works.slotted s c b).coll, hcoll]

/-- A DONE that finds room in the FIFO posts its entry. -/
theorem State.done_of_room {f : FmtDN} (hf : b.ctl = .done f) (hroom : (s.core c).fifo.length < 4) :
    ∃ e, ((s.worked c b).core c).fifo = (s.core c).fifo ++ [e] ∧ e.core = c ∧ e.code = f.code
      ∧ e.slotb = (s.core c).isB ∧ e.drop = (s.core c).dropped ∧ e.ftime = s.fab.time
      ∧ ((s.core c).slot = .a → e.step = s.stepA.setWidth 32) ∧ ((s.worked c b).core c).dropped = false := by
  obtain ⟨hfifo, hdropped, -⟩ := State.done_rules (s := s) (c := c) hf
  obtain ⟨e, hpost, hcore, hcode, hslotb, hdrop, hftime, hstep, hclear⟩ :=
    State.post_of_room (u := s.fetchFix c b) (c := c) (by rw [State.core_fetchFix_eq]; exact hroom) f.code
  rw [State.core_fetchFix_eq] at hpost hslotb hdrop hstep
  refine ⟨e, hfifo.trans hpost, hcore, hcode, hslotb, hdrop, hftime.trans ?_, fun hslot => ?_, hdropped.trans hclear⟩
  · rw [(Works.fetchFix s b).fab]
  · have hslot' : ((s.core c).fetched b).slot = .a := hslot
    rw [hstep, hslot', State.stepA_fetchFix]

/-- A DONE that finds the FIFO full is dropped, and counted for job slot A. -/
theorem State.done_of_full {f : FmtDN} (hf : b.ctl = .done f) (hfull : 4 ≤ (s.core c).fifo.length) :
    ((s.worked c b).core c).fifo = (s.core c).fifo ∧ ((s.worked c b).core c).dropped = true
      ∧ ((s.core c).slot = .a → ((s.perform c b).dieColl (coreDie c)).dropA
        = BitVec.ofNat 16 (min ((s.dieColl (coreDie c)).dropA.toNat + 1) 0xFFFF)) := by
  obtain ⟨hfifo, hdropped, hcoll⟩ := State.done_rules (s := s) (c := c) hf
  obtain ⟨hkept, hlost, hcount⟩ :=
    State.post_of_full (u := s.fetchFix c b) (c := c) (by rw [State.core_fetchFix_eq]; exact hfull) f.code
  rw [State.core_fetchFix_eq] at hkept hcount
  refine ⟨hfifo.trans hkept, hdropped.trans hlost, fun hslot => ?_⟩
  have hsame : (s.fetchFix c b).dieColl (coreDie c) = s.dieColl (coreDie c) := by
    rw [State.dieColl, (Works.fetchFix (c := c) s b).coll]
    rfl
  have hslotb : ((s.core c).fetched b).isB = false := by
    show ((s.core c).slot == JobSlot.b) = false
    rw [hslot]
    rfl
  rw [State.dieColl, hcoll, hcount hslotb, Tab.look_ins_same, hsame]
  rfl

/-! ### HERD fences (R293, R529) -/

/-- The other members of the herd of the core's fence are the same while the slots work. -/
theorem State.fencePeers_of_works {t : State} (h : Works CoreSt.unworked c s t) : t.fencePeers c = s.fencePeers c := by
  have himg : t.imgA = s.imgA := (congrArg State.imgA h.apart :)
  have hlogical : t.logical = s.logical := (congrArg State.logical h.apart :)
  have hcfg : (t.core c).cfg = (s.core c).cfg := (congrArg CoreSt.cfg h.keeps.core :)
  have hphys : t.physChip = s.physChip := by
    rw [State.physChip, State.getF_of_rd_eq (h.below.rd _ (by decide))]
    rfl
  have hherd : t.fenceHerd c = s.fenceHerd c := by
    have hcfgs : t.herdCfg = s.herdCfg := funext fun n => by rw [State.herdCfg, himg]; rfl
    rw [State.fenceHerd, hcfg, hcfgs]
    rfl
  have hpeers : t.herdPeers = s.herdPeers := funext fun k => by
    have hchip : t.resolveChip = s.resolveChip := funext fun n => by
      rw [State.resolveChip, State.resolveChip, hlogical, hphys]
    have hme : t.herdMe k = s.herdMe k := by
      rw [State.herdMe, State.herdMe, State.logChip, State.logChip, hlogical, hphys]
    rw [State.herdPeers, State.herdPeers, hme, hchip]
  rw [State.fencePeers, hherd, hpeers]
  rfl

theorem Works.slotted_of_plain (s : State) (c : Nat) {b : Bundle} (h : b.ctl.plain = true) :
    Works CoreSt.unworked c s (s.slotted c b) :=
  ((Works.fetchFix s b).trans (Works.ctlEff _ _ h)).unworked.trans (Works.slotted s c b)

theorem CoreSt.fence_of_issues (h : Issues s c b) : (s.core c).fence = none := by
  obtain ⟨-, -, -, -, hholds, -⟩ := h
  simp only [CoreSt.holds, List.append_eq_nil_iff] at hholds
  simpa using hholds.2

/-- The fence of a FENCE bundle, where the core has none pending. -/
theorem State.startFence_rules {u : State} (hu : (u.core c).fence = none) (f : FenceSt) :
    (∀ q, ((u.startFence c f).core c).fence = some q → q = f)
      ∧ (f.kind = 4 → (u.core c).lastComp.isSome = true → u.fencePeers c ≠ [] →
        ((u.startFence c f).core c).fence.isSome = true) := by
  unfold State.startFence
  by_cases hmet : u.fenceMet c f = true ∧ (f.kind ≠ 4 ∨ u.herdDone c f = true)
  · rw [if_pos hmet, State.core_modCore]
    have hnone : (if f.kind = 4 then { u.core c with lastComp := none } else u.core c : CoreSt).fence = none := by
      split_ifs <;> exact hu
    refine ⟨fun q hq => ?_, fun hkind hlast hpeers => ?_⟩
    · rw [hnone] at hq
      cases hq
    · exfalso
      rcases hmet.2 with hne | hdone
      · exact hne hkind
      · simp only [State.herdDone, Bool.and_eq_true, Bool.or_eq_true, List.isEmpty_iff] at hdone
        rcases hdone.2 with hlost | hempty
        · rw [Option.isNone_iff_eq_none.1 hlost] at hlast
          cases hlast
        · exact hpeers hempty
  · rw [if_neg hmet, State.core_modCore]
    exact ⟨fun q hq => (Option.some.inj hq).symm, fun _ _ _ => rfl⟩

/-- What a FENCE leaves in its core. -/
theorem State.fence_worked (h : Issues s c b) {f : FmtFN} (hf : b.ctl = .fence f) :
    (∀ q, ((s.worked c b).core c).fence = some q → q.kind = f.kind)
      ∧ (f.kind = 4 → (s.core c).lastComp.isSome = true → s.fencePeers c ≠ [] →
        ((s.worked c b).core c).fence.isSome = true) := by
  have hworks := Works.slotted_of_plain s c (b := b) (by rw [hf]; rfl)
  have hnone : ((s.slotted c b).core c).fence = none :=
    (congrArg CoreSt.fence hworks.keeps.core :).trans (CoreSt.fence_of_issues h)
  have hlast : ((s.slotted c b).core c).lastComp = (s.core c).lastComp := (congrArg CoreSt.lastComp hworks.keeps.core :)
  have heq : s.worked c b = (s.slotted c b).startFence c (((s.core c).fetched b).fenceOwn b f.kind) := by
    show (s.slotted c b).fenceEff c _ b = _
    rw [State.fenceEff, hf]
  obtain ⟨hown, hpends⟩ := State.startFence_rules hnone (((s.core c).fetched b).fenceOwn b f.kind)
  rw [heq]
  refine ⟨fun q hq => by rw [hown q hq]; rfl, fun hkind hcomp hpeers => hpends hkind ?_ ?_⟩
  · rw [hlast]
    exact hcomp
  · rw [State.fencePeers_of_works hworks]
    exact hpeers

/-! ### Four no-operations (R231) -/

theorem State.worked_of_nops (hctl : b.ctl = .cnop ⟨0⟩) (harr : b.arr = .anop ⟨0⟩) (hvec : b.vec = .vnop ⟨0⟩)
    (hstr : b.str = .snop ⟨0⟩) : s.worked c b = s.fetchFix c b := by
  rw [State.worked_of_no_fence (by simp [hctl]), State.slotted, State.vecTo, State.vecFrom, hctl, harr, hvec, hstr]
  rfl

theorem State.routes_fetchFix (s : State) (c : Nat) (b : Bundle) : (s.fetchFix c b).routes = s.routes := by
  have h : LogFrame _ (s.fetchFix c b) := LogFrame.corrWords c 1 _ _
  rw [h]
  rfl

theorem State.routes_of_nops (hctl : b.ctl = .cnop ⟨0⟩) (harr : b.arr = .anop ⟨0⟩) (hvec : b.vec = .vnop ⟨0⟩)
    (hstr : b.str = .snop ⟨0⟩) : (s.perform c b).routes = s.routes := by
  rw [State.perform_eq, State.modCore_routes, State.worked_of_nops hctl harr hvec hstr, State.routes_fetchFix]

end Events

/-- Settles O10: the sequencer counts the bundles before a new mode, and the events are those that the control slot
leaves, which the other slots leave alone. -/
theorem modeAndControlEventsOfABundle : Obligations.ModeAndControlEventsOfABundle := by
  unfold Obligations.ModeAndControlEventsOfABundle
  constructor
  · intro i s c b hb h
    extract_lets x
    refine ⟨s.perform c b, by rw [exec_of_bundleOf hb, State.issue_of_issues h], ?_⟩
    rw [State.core_perform]
    have hidle : ((s.worked c b).core c).idle = x.idle := (Idles.worked s b).keeps.core
    generalize hw : (s.worked c b).core c = w at *
    have hmode : w.mode = x.mode := (congrArg CoreSt.mode hidle :)
    have hpmode : w.pmode = x.pmode := (congrArg CoreSt.pmode hidle :)
    have hpcount : w.pcount = x.pcount := (congrArg CoreSt.pcount hidle :)
    obtain ⟨hset, hcount⟩ := w.issued_mode (x.fetched b) b.ctl
    rw [hmode, hpmode, hpcount] at hcount
    refine ⟨fun f hf => ?_, hcount⟩
    obtain ⟨-, -, -, -, -, -, hshadow⟩ := CoreSt.ctlChecks_of_issues h
    have hzero : x.pcount = 0 := by simpa [hf, CtlOp.isSetmode] using hshadow
    obtain ⟨hm, hc, hp⟩ := hset f hf (hpcount.trans hzero)
    exact ⟨hm.trans hmode, hc, hp⟩
  · intro i s c b hb h
    extract_lets x
    refine ⟨s.perform c b, by rw [exec_of_bundleOf hb, State.issue_of_issues h], ?_⟩
    rw [State.core_perform]
    obtain ⟨hcal, hfifo, hdropped, hfence, hbrk⟩ := ((s.worked c b).core c).issued_rules (x.fetched b) b.ctl
    extract_lets y
    change y.calPend = _ at hcal
    change y.fifo = _ at hfifo
    change y.dropped = _ at hdropped
    change y.fence = _ at hfence
    change ∀ d, _ → y.pend.brk = some d at hbrk
    refine ⟨fun f hf => ⟨CoreSt.calPend_of_issues h hf, fun l hl => ?_⟩, fun hno => ?_, fun f hf hroom => ?_,
      fun f hf hfull => ?_, fun f hf => ?_, fun f hf => ?_, fun hctl harr hvec hstr => ?_⟩
    · rw [hcal, State.calPend_controlled (by simp [hf]), State.controlled, hf, State.ctlEff, State.core_modCore,
        State.core_fetchFix_eq]
      exact getLsbD_and_not_two_pow _ hl
    · rw [hcal, State.calPend_worked hno]
    · obtain ⟨e, hpost, hcore, hcode, hslotb, hdrop, hftime, hstep, hclear⟩ :=
        State.done_of_room (s := s) (c := c) hf hroom
      rw [hfifo, hdropped]
      exact ⟨⟨e, hpost, hcore, hcode, hslotb, hdrop, hftime, hstep⟩, hclear⟩
    · obtain ⟨hkept, hlost, hcount⟩ := State.done_of_full (s := s) (c := c) hf hfull
      rw [hfifo, hdropped]
      exact ⟨hkept, hlost, hcount⟩
    · exact hbrk 1 (State.brk_worked hf)
    · rw [hfence]
      exact State.fence_worked h hf
    · obtain ⟨hstopped, -⟩ := h.1
      have hw : (s.worked c b).core c = x.fetched b := by
        rw [State.worked_of_nops hctl harr hvec hstr, State.core_fetchFix_eq]
      obtain ⟨hsregs, hmregs, hvregs, hspad, hocache, hquad, harrays, hraccs, hfolds, hports, hstop⟩ :=
        ((s.worked c b).core c).issued_stores (x.fetched b) b.ctl
      have hy : y = ((s.worked c b).core c).issued (x.fetched b) b.ctl := rfl
      rw [hw] at hsregs hmregs hvregs hspad hocache hquad harrays hraccs hfolds hports hstop hfifo hcal hy
      rw [hfifo, hcal, hy]
      exact ⟨hsregs, hmregs, hvregs, hspad, hocache, hquad, harrays, hraccs, hfolds, hports, rfl, rfl,
        hstop.trans hstopped, State.routes_of_nops hctl harr hvec hstr⟩

end Sys2Proof.Machine
end

/-! ## SLD and a table that lists a codeword twice (O8) -/

section

namespace Sys2Proof.Machine

open Sys2Proof Sys2Proof.Claims

/-! ### SLD under a table of codewords that is not in canonical form

The statement's states are not bound to tables that list each codeword once. The check before the bundle issues takes
the first condition that a codeword is listed with, and the read of the scratchpad every one: a codeword that is listed
as good and then as uncorrectable lets the SLD issue, and reads as 0 (R147, R778). -/

/-- A core's configuration with a program of one bundle. -/
def oneBundle : CoreCfg where
  core := 0
  stage := 0
  savex := 0
  fherd := 0
  pxreg := 0
  vstrm := []
  calmask := 0
  depth := []
  binds := []
  feeders := []
  taps := []
  sinks := []
  bundles := [0]

/-- Core 0 runs that program. Its scratchpad holds the byte 1 at address 0, in a codeword that is listed twice. -/
def listedTwice : State :=
  { State.reset with
    cores := [(0, { CoreSt.reset with
      cfgA := some oneBundle, spad := [(0, 1)], spEcc := [(0, .good), (0, .double)] })] }

/-- SLD of S1 from address 0, beside three no-operations. -/
def loadBundle : Bundle := withCtl ⟨0, 15, 0, 0, 0, 0⟩ (.sld ⟨1, 0, 0⟩)

theorem listedTwice_runs : Runs listedTwice 0 := by unfold Runs; decide +kernel

theorem listedTwice_issues : Issues listedTwice 0 loadBundle := by
  refine ⟨listedTwice_runs, ?_, ?_, ?_, ?_, ?_, ?_⟩ <;> decide +kernel

/-- The word at the address is 1. -/
theorem listedTwice_word : leNat (Tab.lookList (fun _ => 0) (listedTwice.core 0).spad 0 4) = 1 := by decide +kernel

/-- The SLD leaves 0 in S1. -/
theorem listedTwice_load : (((listedTwice.perform 0 loadBundle).core 0).sreg 1).toNat = 0 := by decide +kernel

/-- Refutes O8: an SLD does not load the word from every state in which it issues. Where the table of codewords lists
the word's codeword as good and again as uncorrectable, the SLD loads 0 in place of the word. -/
theorem not_scalarLoadAndStoreReachTheWord : ¬ Obligations.ScalarLoadAndStoreReachTheWord := by
  unfold Obligations.ScalarLoadAndStoreReachTheWord
  intro h
  obtain ⟨t, hexec, hload, -⟩ :=
    h (.sld 0 ⟨1, 0, 0⟩ ⟨0, 15, 0, 0, 0, 0⟩) listedTwice 0 loadBundle rfl listedTwice_issues
  have hperform : exec (.sld 0 ⟨1, 0, 0⟩ ⟨0, 15, 0, 0, 0, 0⟩) listedTwice
      = .next (listedTwice.perform 0 loadBundle) := by
    rw [exec_of_bundleOf (b := loadBundle) (c := 0) rfl]
    exact congrArg _ (State.issue_of_issues listedTwice_issues)
  obtain rfl : listedTwice.perform 0 loadBundle = t := Host.Outcome.next.inj (hperform.symm.trans hexec)
  have hword : ((listedTwice.core 0).ldAddr ⟨1, 0, 0⟩).toNat = 0 := by decide +kernel
  have hone : (((listedTwice.perform 0 loadBundle).core 0).sreg 1).toNat = leNat (Tab.lookList (fun _ => 0)
      (listedTwice.core 0).spad ((listedTwice.core 0).ldAddr ⟨1, 0, 0⟩).toNat 4) := hload ⟨1, 0, 0⟩ rfl (by decide)
  rw [hword] at hone
  exact absurd (listedTwice_load.symm.trans (hone.trans listedTwice_word)) (by decide)

end Sys2Proof.Machine
end

/-! ## Remote answers, timeouts and fences (O42) -/

section

namespace Sys2Proof.Machine

open Sys2Proof Sys2Proof.Claims

/-! ### Fields of a register -/

/-- Two fields of a word that do not overlap. -/
theorem Fld.get_set_of_disjoint (f g : Fld) (w : W32) (v : Nat) (h : f.lo + f.width ≤ g.lo ∨ g.lo + g.width ≤ f.lo) :
    f.get (g.set w v) = f.get w := by
  refine Nat.eq_of_testBit_eq fun i => ?_
  simp only [Fld.get, Fld.set, Fld.mask, Nat.testBit_mod_two_pow, Nat.testBit_div_two_pow, BitVec.testBit_toNat,
    BitVec.getLsbD_or, BitVec.getLsbD_and, BitVec.getLsbD_not, BitVec.getLsbD_ofNat, Nat.testBit_mul_two_pow,
    Nat.testBit_two_pow_sub_one]
  by_cases hi : i < f.width
  · have hout : ¬ (g.lo ≤ i + f.lo ∧ i + f.lo - g.lo < g.width) := by omega
    by_cases hlo : g.lo ≤ i + f.lo
    · have hhi : ¬ i + f.lo - g.lo < g.width := fun hlt => hout ⟨hlo, hlt⟩
      by_cases hbit : i + f.lo < 32
      · simp [hi, hhi, hbit]
      · simp [hbit, BitVec.getLsbD_of_ge w _ (Nat.not_lt.1 hbit)]
    · by_cases hbit : i + f.lo < 32
      · simp [hi, hlo, hbit]
      · simp [hbit, BitVec.getLsbD_of_ge w _ (Nat.not_lt.1 hbit)]
  · simp [hi]

theorem State.getF_setF_of_disjoint (s : State) {f g : Fld} (v : Nat) (hoff : g.off = f.off)
    (h : f.lo + f.width ≤ g.lo ∨ g.lo + g.width ≤ f.lo) : (s.setF g v).getF f = s.getF f := by
  rw [State.getF, ← hoff, State.rd_setF_same, Fld.get_set_of_disjoint f g _ v h, hoff, State.getF]

theorem State.getF_bumpF_same (s : State) {f : Fld} (n : Nat) (h : f.lo + f.width ≤ 32) :
    (s.bumpF f n).getF f = incSat f.width (s.getF f) n := by
  have hpos : 0 < 2 ^ f.width := Nat.two_pow_pos _
  rw [State.bumpF, State.getF_setF_same s f _ h, Nat.mod_eq_of_lt]
  unfold incSat
  omega

/-! ### A register under the steps that count and log -/

section Register

variable {o : Nat}

theorem State.rd_bumpF_ne (s : State) {f : Fld} (n : Nat) (h : f.off ≠ o) : (s.bumpF f n).rd o = s.rd o :=
  State.rd_setF_ne s f _ h

theorem BelowLog.logFault (s : State) (f : XFault) (u : Nat) (b i : Bool) (off req : Nat) :
    BelowLog s (s.logFault f u b i off req) := .log s _

theorem LogFrame.logFault (s : State) (f : XFault) (u : Nat) (b i : Bool) (off req : Nat) :
    LogFrame s (s.logFault f u b i off req) := .log s _

/-- A register that is no error counter of a stack. -/
theorem State.rd_eccReport (s : State) (who : Acc) (col : Nat) (bad fixed : List Nat) (ho : o < 0xC00000)
    (hecc : ∀ n, rMemEcc n ≠ o) : (s.eccReport who col bad fixed).rd o = s.rd o := by
  have hfixed : ∀ (l : List Nat) (s : State), (s.countFixed who.isB l).rd o = s.rd o := fun l => by
    induction l with
    | nil => exact fun _ => rfl
    | cons w r ih =>
      exact fun s => (ih _).trans (((BelowLog.countCorr ..).rd o ho).trans (State.rd_bumpF_ne s 1 (hecc _)))
  have hbad : ∀ (l : List Nat) (s : State), (s.countBad l).rd o = s.rd o := fun l => by
    induction l with
    | nil => exact fun _ => rfl
    | cons w r ih => exact fun s => (ih _).trans (State.rd_bumpF_ne s 1 (hecc _))
  have hlog : ∀ (e : Tab Ecc) (l : List Nat) (s : State), (s.logBad e who l).rd o = s.rd o := fun e l => by
    induction l with
    | nil => exact fun _ => rfl
    | cons w r ih => exact fun s => (ih _).trans ((BelowLog.log ..).rd o ho)
  exact (hlog _ _ _).trans ((hbad _ _).trans (hfixed _ _))

theorem State.rd_memWrite (s : State) (who : Acc) (a : Nat) (l : List Byte) (ho : o < 0xC00000)
    (hecc : ∀ n, rMemEcc n ≠ o) : (s.memWrite who a l).rd o = s.rd o :=
  State.rd_eccReport s _ _ _ _ ho hecc

theorem State.dma_memWrite (s : State) (who : Acc) (a : Nat) (l : List Byte) : (s.memWrite who a l).dma = s.dma := by
  have h : (s.memWrite who a l).dma = (State.eccReport s who 256 _ _).dma := rfl
  rw [h, LogFrame.eccReport]

end Register

/-! ### Time until a deadline -/

/-- The device but for its registers, fabric time and the supplies: what no passing of time touches. -/
def State.timeless (s : State) : State := { s with reg := [], fab := State.reset.fab, pwr := State.reset.pwr }

theorem State.timeless_setF (s : State) (f : Fld) (v : Nat) : (s.setF f v).timeless = s.timeless := rfl

theorem State.timeless_vokShow (s : State) (q : Nat) : (s.vokShow q).timeless = s.timeless := State.timeless_setF ..

theorem State.rd_vokShow (s : State) {q o : Nat} (h : rPwrVq q ≠ o) : (s.vokShow q).rd o = s.rd o :=
  State.rd_setF_ne s (fPwrVqVok q) _ h

/-- VREQ of one quadrant takes a value. -/
theorem State.vreq_rules (s : State) {q : Nat} (hq : q < 8) (mv : Nat) :
    ((s.setF (fPwrVqVreq q) mv).vokShow q).timeless = s.timeless
      ∧ ∀ o, 0x100060 ≤ o → ((s.setF (fPwrVqVreq q) mv).vokShow q).rd o = s.rd o := by
  refine ⟨by rw [State.timeless_vokShow, State.timeless_setF], fun o ho => ?_⟩
  have hne : rPwrVq q ≠ o := by unfold rPwrVq; omega
  rw [State.rd_vokShow _ hne, State.rd_setF_ne s (fPwrVqVreq q) _ hne]

theorem State.putVreq_rules (s : State) (mv : Nat) :
    (s.putVreq mv).timeless = s.timeless ∧ ∀ o, 0x100060 ≤ o → (s.putVreq mv).rd o = s.rd o := by
  unfold State.putVreq
  have hfold : ∀ (l : List Nat) (t : State), (∀ q ∈ l, q < 8) → t.timeless = s.timeless
      ∧ (∀ o, 0x100060 ≤ o → t.rd o = s.rd o) →
      (l.foldl (fun t q => (t.setF (fPwrVqVreq q) mv).vokShow q) t).timeless = s.timeless
        ∧ ∀ o, 0x100060 ≤ o → (l.foldl (fun t q => (t.setF (fPwrVqVreq q) mv).vokShow q) t).rd o = s.rd o := by
    intro l
    induction l with
    | nil => exact fun t _ ht => ht
    | cons q l ih =>
      intro t hl ht
      obtain ⟨hkept, hrd⟩ := t.vreq_rules (hl q List.mem_cons_self) mv
      rw [List.foldl_cons]
      exact ih _ (fun p hp => hl p (List.mem_cons_of_mem q hp))
        ⟨hkept.trans ht.1, fun o ho => (hrd o ho).trans (ht.2 o ho)⟩
  exact hfold (List.range 8) s (fun q hq => List.mem_range.1 hq) ⟨rfl, fun _ _ => rfl⟩

theorem State.timeless_pwr (s : State) (p : PwrSt) : ({ s with pwr := p } : State).timeless = s.timeless := rfl

theorem State.rd_pwr (s : State) (p : PwrSt) (o : Nat) : ({ s with pwr := p } : State).rd o = s.rd o := rfl

/-- VREQ falls to the value that waits, if one does. -/
theorem State.vreqFall_cases (s : State) :
    s.vreqFall = s ∨ ∃ mv p, s.vreqFall = { s.putVreq mv with pwr := p } := by
  unfold State.vreqFall
  split
  · exact .inl rfl
  · exact .inr ⟨_, _, rfl⟩

theorem State.vreqFall_rules (s : State) :
    s.vreqFall.timeless = s.timeless ∧ ∀ o, 0x100060 ≤ o → s.vreqFall.rd o = s.rd o := by
  obtain h | ⟨mv, p, h⟩ := s.vreqFall_cases
  · rw [h]
    exact ⟨rfl, fun _ _ => rfl⟩
  · obtain ⟨hput, hrd⟩ := s.putVreq_rules mv
    rw [h, State.timeless_pwr]
    refine ⟨hput, fun o ho => ?_⟩
    rw [State.rd_pwr]
    exact hrd o ho

/-- The passing of time changes nothing but time, the counts of held tk and the supplies. -/
theorem State.passTime_rules (s : State) (n : Nat) :
    (s.passTime n).timeless = s.timeless ∧ ∀ o, 0x100060 ≤ o → (s.passTime n).rd o = s.rd o := by
  unfold State.passTime
  extract_lets s1
  have hs1 : ∀ o, 0x100060 ≤ o → s1.rd o = s.rd o := fun o ho =>
    (State.rd_wr_ne _ _ _ (by unfold rPwrHelde; omega)).trans (State.rd_wr_ne _ _ _ (by unfold rPwrHeldw; omega))
  have hs1' : s1.timeless = s.timeless := rfl
  clear_value s1
  obtain ⟨hfall, hrd⟩ :=
    ({ s1 with fab := { s1.fab with time := s1.fab.time + BitVec.ofNat 64 n } } : State).vreqFall_rules
  exact ⟨hfall.trans hs1', fun o ho => (hrd o ho).trans (hs1 o ho)⟩

theorem State.reach_rules (s : State) (t : Nat) :
    (s.reach t).timeless = s.timeless ∧ ∀ o, 0x100060 ≤ o → (s.reach t).rd o = s.rd o := by
  unfold State.reach
  split_ifs
  · exact s.passTime_rules _
  · exact ⟨rfl, fun _ _ => rfl⟩

/-! ### A channel that a remote access stops (R430) -/

section Channel

variable {o : Nat}

theorem State.chPut_rules (s : State) (ch : Nat) (x : DmaDesc) (e : DmaEnd) (r : XRes) :
    (s.chPut ch x e r).dma = s.dma
      ∧ ∀ o < 0xC00000, (∀ n, rMemEcc n ≠ o) → (s.chPut ch x e r).rd o = s.rd o := by
  unfold State.chPut
  dsimp only
  split
  · exact ⟨by rw [LogFrame.logFault], fun o ho _ => (BelowLog.logFault ..).rd o ho⟩
  · split_ifs
    · exact ⟨by rw [State.srcWrite, LogFrame.log], fun o ho _ => (BelowLog.log ..).rd o ho⟩
    · exact ⟨State.dma_memWrite .., fun o ho hecc => State.rd_memWrite s _ _ _ ho hecc⟩

theorem State.chMsix_rules (s : State) (ch : Nat) : (s.chMsix ch).dma = s.dma ∧ ∀ o, (s.chMsix ch).rd o = s.rd o := by
  unfold State.chMsix State.msix
  split
  · exact ⟨State.wr4_dma .., fun o => by rw [State.rd, State.wr4_reg]; rfl⟩
  · exact ⟨rfl, fun _ => rfl⟩

/-- The write of a stopped descriptor into its ring entry: the channel has no descriptor, and it gets none. -/
theorem State.chWrite_stop_rules (s : State) (ch : Fin 16) (x : DmaDesc) (hs : (s.chan ch).started = []) :
    let t := s.chWrite ch x .stop (·.chMsix ch)
    (t.chan ch).started = []
      ∧ ∀ o < 0xC00000, (∀ n, rMemEcc n ≠ o) → rXltMisscnt ≠ o → t.rd o = s.rd o := by
  intro t
  unfold t State.chWrite State.dmaXlate
  dsimp only
  split
  next s1 heq =>
    split at heq
    · cases heq
    · obtain rfl : _ = s1 := (Prod.mk.inj heq).2
      refine ⟨?_, fun o _ _ hmiss => State.rd_wr_ne _ _ _ hmiss⟩
      rw [State.setDesc, State.chan_setChan]
      show List.map _ (s.chan ch).started = []
      rw [hs]
      rfl
  next r s1 heq =>
    split at heq
    · obtain ⟨-, rfl⟩ := Prod.mk.inj heq
      obtain ⟨hdma, hrd⟩ := (s.chPut ch x .stop r).chMsix_rules ch
      obtain ⟨hput, hputrd⟩ := s.chPut_rules ch x .stop r
      refine ⟨?_, fun o ho hecc _ => (hrd o).trans (hputrd o ho hecc)⟩
      rw [State.chan, hdma, hput]
      exact hs
    · cases heq

end Channel

/-! ### An answer arrives (R527) -/

section Answer

variable {s : State} {p : Port} {ft : W64} {c : Cell} {r : List (W64 × Cell)}

theorem State.takeRem_answer (hin : (s.port p).remin = (ft, c) :: r) (hkind : cellFld c 0 4 = 4) :
    s.takeRem p 4 0 = (some (ft, c), s.setPort p { s.port p with remin := r }) := by
  rw [State.takeRem, hin]
  simp [hkind]

/-- No request waits for the answer. -/
theorem State.remRsp_stale (hin : (s.port p).remin = (ft, c) :: r) (hkind : cellFld c 0 4 = 4)
    (hhome : cellFld c 112 16 = s.physChip) (hnone : ∀ q ∈ s.rem.reqs, q.tag ≠ cellFld c 32 16) :
    s.remRsp p = (s.setPort p { s.port p with remin := r }).bumpF fFabRemcntStale 1 := by
  have hfind : (s.setPort p { s.port p with remin := r }).rem.reqs.find? (fun q => q.tag == cellFld c 32 16) = none :=
    List.find?_eq_none.2 fun q hq htag => hnone q hq (eq_of_beq htag)
  have hchip : ¬ cellFld c 112 16 ≠ (s.setPort p { s.port p with remin := r }).physChip := not_not.2 hhome
  simp only [State.remRsp, State.takeRem_answer hin hkind, if_neg hchip, hfind]

/-- The request that the answer names ends with its status. -/
theorem State.remRsp_match {q : RemReq} (hin : (s.port p).remin = (ft, c) :: r) (hkind : cellFld c 0 4 = 4)
    (hhome : cellFld c 112 16 = s.physChip) (hstatus : cellFld c 5 3 < 4)
    (hq : s.rem.reqs.find? (fun q => q.tag == cellFld c 32 16) = some q) :
    s.remRsp p = (s.setPort p { s.port p with remin := r }).remEnd q (cellFld c 5 3) c.payload := by
  have hfind : (s.setPort p { s.port p with remin := r }).rem.reqs.find? (fun q => q.tag == cellFld c 32 16) =
      some q := hq
  have hchip : ¬ cellFld c 112 16 ≠ (s.setPort p { s.port p with remin := r }).physChip := not_not.2 hhome
  simp only [State.remRsp, State.takeRem_answer hin hkind, if_neg hchip, hfind, if_pos hstatus]

/-- A member's answer to a HERD fence. -/
theorem State.remEnd_fence_answered {q : RemReq} {k : Core} (huse : q.use = .fence k) (s : State) (w : Payload) :
    s.remEnd q 0 w = (s.endTag q.tag).fenceGot k q.tag := by
  simp only [State.remEnd, huse, if_pos]

end Answer

theorem answers_complete (p : Port) (s : State) (ft : W64) (c : Cell) (r : List (W64 × Cell))
    (hin : (s.port p).remin = (ft, c) :: r) (hkind : cellFld c 0 4 = 4) (hhome : cellFld c 112 16 = s.physChip) :
    ((∀ q ∈ s.rem.reqs, q.tag ≠ cellFld c 32 16) → ∃ t, exec (.remrsp p) s = .next t
      ∧ t.getF fFabRemcntStale = incSat fFabRemcntStale.width (s.getF fFabRemcntStale) 1
      ∧ (t.port p).remin = r ∧ t.rem = s.rem ∧ SameStores s t ∧ t.dma = s.dma)
    ∧ ∀ q k f l, s.rem.reqs.find? (fun q => q.tag == cellFld c 32 16) = some q →
      q.use = .fence k → cellFld c 5 3 = 0 → (s.core k).fence = some f → f.asked = some l →
      ∃ t, exec (.remrsp p) s = .next t
        ∧ (t.core k).fence = some { f with asked := some (l.filter (· != q.tag)) }
        ∧ t.rem.reqs = s.rem.reqs.filter (fun r => r.tag != q.tag)
        ∧ (t.port p).remin = r ∧ t.mem = s.mem ∧ t.reg = s.reg := by
  have hexec : exec (.remrsp p) s = .next (s.remRsp p) := rfl
  constructor
  · intro hnone
    refine ⟨_, hexec, ?_⟩
    rw [State.remRsp_stale hin hkind hhome hnone]
    refine ⟨State.getF_bumpF_same _ 1 (by decide), ?_, rfl, ⟨rfl, rfl, rfl, rfl, rfl, rfl, rfl⟩, rfl⟩
    exact congrArg FabPort.remin (State.port_setPort s p { s.port p with remin := r })
  · intro q k f l hq huse hstatus hf hl
    refine ⟨_, hexec, ?_⟩
    rw [State.remRsp_match hin hkind hhome (by omega) hq, hstatus, State.remEnd_fence_answered huse]
    refine ⟨?_, rfl, ?_, rfl, rfl⟩
    · have hcore : (((s.setPort p { s.port p with remin := r }).endTag q.tag).core k).fence = some f := hf
      rw [State.fenceGot, State.core_modCore, hcore, Option.map_some, hl, Option.map_some]
    · exact congrArg FabPort.remin (State.port_setPort s p { s.port p with remin := r })

/-! ### A request times out (R527) -/

/-- The moment of the timeout comes, and the loss is counted. -/
theorem State.lost_rules (s : State) (n : Nat) :
    (s.reach n).countLost.timeless = s.timeless
      ∧ (s.reach n).countLost.getF fFabRemcntLost = incSat fFabRemcntLost.width (s.getF fFabRemcntLost) 1 := by
  obtain ⟨hkept, hrd⟩ := s.reach_rules n
  have hcount : (s.reach n).getF fFabRemcntLost = s.getF fFabRemcntLost := State.getF_of_rd_eq (hrd _ (by decide))
  exact ⟨hkept, by rw [State.countLost, State.getF_bumpF_same _ 1 (by decide), hcount]⟩

/-- An exception that becomes pending leaves the core's fence. -/
theorem Works.pendIn (s : State) (c : Nat) (j : JobSlot) (bit : Nat) (f : PendExc → PendExc) :
    Works CoreSt.fence c s (s.pendIn c j bit f) := by
  have hspad (s : State) (a : Nat) (l : List Byte) : Works CoreSt.fence c s (s.spadWrite c a l) :=
    (Works.spadWrite s a l).mono fun x y h => (congrArg CoreSt.fence h : x.unworked.fence = y.unworked.fence)
  unfold State.pendIn
  dsimp only
  split_ifs
  · exact Works.setCore rfl
  · exact Works.setCore rfl
  · refine Works.trans ?_ (hspad _ _ _)
    exact Works.setCore rfl
  · exact Works.setCore rfl
  · refine Works.trans ?_ (hspad _ _ _)
    exact Works.setCore rfl

theorem State.rd_fenceFail (s : State) (c : Nat) {o : Nat} (ho : o < 0xC00000) : (s.fenceFail c).rd o = s.rd o := by
  rw [State.fenceFail, (Works.pendIn _ c .a 2 _).below.rd o ho]
  rfl

theorem State.fenceFail_rules (s : State) (c : Nat) :
    ((s.fenceFail c).core c).fence = (s.core c).fence ∧ (s.fenceFail c).mem = s.mem := by
  have h := Works.pendIn s.takeFree.2.takeFree.2 c .a 2
    fun q => q.addProt (s.takeFree.1.toNat % 32, s.takeFree.2.takeFree.1)
  exact ⟨h.keeps.core, h.keeps.mem⟩

/-- The core of a HERD fence whose context is resident takes PROT; its fence stays. -/
theorem State.fenceFail_resident {s : State} {c : Nat} (hslot : (s.core c).slot = .a)
    (hbare : (s.core c).bare = false) :
    ((s.fenceFail c).core c).fence = (s.core c).fence ∧ ((s.fenceFail c).core c).pend.prot ≠ []
      ∧ (s.fenceFail c).rem = s.rem ∧ (s.fenceFail c).mem = s.mem := by
  have hheld : (s.takeFree.2.takeFree.2.core c).slot = .a ∧ ¬ (s.takeFree.2.takeFree.2.core c).bare := by
    refine ⟨hslot, fun h => ?_⟩
    have hkept : (s.takeFree.2.takeFree.2.core c).bare = (s.core c).bare := rfl
    rw [hkept, hbare] at h
    cases h
  rw [State.fenceFail, State.pendIn, if_pos hheld]
  refine ⟨by rw [State.core_setCore]; rfl, ?_, rfl, rfl⟩
  rw [State.core_setCore, PendExc.addProt]
  split_ifs with hmem
  · exact List.ne_nil_of_mem (List.contains_iff_mem.1 hmem)
  · exact List.append_ne_nil_of_right_ne_nil _ (List.cons_ne_nil _ _)

section Stop

variable {ch : Fin 16} {o : Nat}

/-- The state of a channel shows in its own status and in the summary, and nowhere else. -/
theorem State.rd_chShow (s : State) (stop : Bool) (hown : rDmaChStatus ch ≠ o) (hall : rDmaStatus ≠ o) :
    (s.chShow ch stop).rd o = s.rd o :=
  (State.rd_setB_ne _ _ _ hall).trans ((State.rd_setB_ne _ _ _ hall).trans (State.rd_setF_ne s _ _ hown))

/-- A channel that stops shows it, beside its code. -/
theorem State.chShow_stopped (s : State) :
    (s.chShow ch true).getF (fDmaChStatusState ch) = 2
      ∧ (s.chShow ch true).getF (fDmaChStatusCode ch) = s.getF (fDmaChStatusCode ch) := by
  have hall : rDmaStatus ≠ rDmaChStatus ch := by unfold rDmaStatus rDmaChStatus; omega
  have hrd : (s.chShow ch true).rd (rDmaChStatus ch) = (s.setF (fDmaChStatusState ch) 2).rd (rDmaChStatus ch) :=
    (State.rd_setB_ne _ _ _ hall).trans (State.rd_setB_ne _ _ _ hall)
  constructor
  · rw [State.getF_of_rd_eq (f := fDmaChStatusState ch) hrd, State.getF_setF_same _ _ _ (by simp [fDmaChStatusState])]
    rfl
  · rw [State.getF_of_rd_eq (f := fDmaChStatusCode ch) hrd, 
      State.getF_setF_of_disjoint s (f := fDmaChStatusCode ch) (g := fDmaChStatusState ch) _ rfl (.inr (by
        simp [fDmaChStatusState, fDmaChStatusCode]))]

/-- The registers and the descriptors of a channel that has stopped before its ring entry is written. -/
def State.halted (s : State) (ch : Fin 16) (x : DmaDesc) : State :=
  let s1 := (s.abandonReqs ch).setChan ch ⟨[], some (x.units, x.pois), none⟩
  ((s1.wr (rDmaChProg ch) (BitVec.ofNat 32 x.units)).setF (fDmaChStatusCode ch) x.stat).chShow ch true

theorem State.chStop_eq (s : State) (x : DmaDesc) :
    s.chStop ch x = ((s.halted ch x).log ⟨11, x.stat, unitChannel ch, (s.halted ch x).bitF (fDmaChCtlSlot ch), false,
      dUnitAddr x.desc x.units, x.units⟩).chWrite ch x .stop (·.chMsix ch) := rfl

theorem State.halted_rules (s : State) (x : DmaDesc) :
    (s.halted ch x).getF (fDmaChStatusState ch) = 2 ∧ (s.halted ch x).getF (fDmaChStatusCode ch) = x.stat % 2 ^ 8
      ∧ ((s.halted ch x).chan ch).started = []
      ∧ ∀ o, rDmaChStatus ch ≠ o → rDmaStatus ≠ o → rDmaChProg ch ≠ o → (s.halted ch x).rd o = s.rd o := by
  unfold State.halted
  obtain ⟨hstate, hcode⟩ := State.chShow_stopped (ch := ch)
    ((((s.abandonReqs ch).setChan ch ⟨[], some (x.units, x.pois), none⟩).wr (rDmaChProg ch)
      (BitVec.ofNat 32 x.units)).setF (fDmaChStatusCode ch) x.stat)
  refine ⟨hstate, hcode.trans (State.getF_setF_same _ _ _ (by simp [fDmaChStatusCode])), ?_, fun o hown hall hprog => ?_⟩
  · exact congrArg DmaCh.started (State.chan_setChan (s.abandonReqs ch) ch ⟨[], some (x.units, x.pois), none⟩)
  · rw [State.rd_chShow _ _ hown hall, State.rd_setF_ne _ _ _ hown, State.rd_wr_ne _ _ _ hprog]
    rfl

/-- The record of a stop and the write into the ring entry that follow. -/
theorem State.chWrite_log_rules (h : State) (e : ErrRec) (x : DmaDesc) (hnone : (h.chan ch).started = []) :
    (((h.log e).chWrite ch x .stop (·.chMsix ch)).chan ch).started = []
      ∧ ∀ o < 0xC00000, (∀ n, rMemEcc n ≠ o) → rXltMisscnt ≠ o →
        ((h.log e).chWrite ch x .stop (·.chMsix ch)).rd o = h.rd o := by
  have hempty : ((h.log e).chan ch).started = [] := by
    rw [State.chan, LogFrame.log]
    exact hnone
  obtain ⟨hstarted, hrd⟩ := (h.log e).chWrite_stop_rules ch x hempty
  exact ⟨hstarted, fun o ho hecc hmiss => (hrd o ho hecc hmiss).trans ((BelowLog.log h e).rd o ho)⟩

/-- A descriptor that stops its channel (R430): the channel shows it and has no descriptor left. -/
theorem State.chStop_rules (s : State) (x : DmaDesc) :
    (s.chStop ch x).getF (fDmaChStatusState ch) = 2 ∧ (s.chStop ch x).getF (fDmaChStatusCode ch) = x.stat % 2 ^ 8
      ∧ ((s.chStop ch x).chan ch).started = [] ∧ (s.chStop ch x).rd rFabRemcnt = s.rd rFabRemcnt := by
  obtain ⟨hstate, hcode, hnone, hrest⟩ := s.halted_rules (ch := ch) x
  have hch := ch.isLt
  rw [State.chStop_eq]
  obtain ⟨hstarted, hrd⟩ := (s.halted ch x).chWrite_log_rules ⟨11, x.stat, unitChannel ch,
    (s.halted ch x).bitF (fDmaChCtlSlot ch), false, dUnitAddr x.desc x.units, x.units⟩ x hnone
  have hstatus := hrd (rDmaChStatus ch) (by unfold rDmaChStatus; omega)
    (fun n => by unfold rMemEcc rDmaChStatus; omega) (by unfold rXltMisscnt rDmaChStatus; omega)
  have hlost := hrd rFabRemcnt (by decide) (fun n => by unfold rMemEcc rFabRemcnt; omega) (by decide)
  refine ⟨(State.getF_of_rd_eq hstatus).trans hstate, (State.getF_of_rd_eq hstatus).trans hcode, hstarted,
    hlost.trans (hrest _ ?_ (by decide) ?_)⟩
  · unfold rDmaChStatus rFabRemcnt; omega
  · unfold rDmaChProg rFabRemcnt; omega

theorem State.rd_chFront (s : State) : (s.chFront ch).rd rFabRemcnt = s.rd rFabRemcnt := by
  unfold State.chFront
  split
  next x _ _ =>
    split_ifs
    · obtain ⟨-, -, -, hrd⟩ := s.chStop_rules (ch := ch) x
      exact hrd
    · rfl
  · rfl

/-- The front descriptor of a channel ends REMOTE_LOST. -/
theorem State.dEnd_front {s : State} {x : DmaDesc} {l : List DmaDesc} (hfront : (s.chan ch).started = x :: l) :
    s.dEnd ch x 6 = (s.setDesc ch { x with stat := 6, waiting := false }).chStop ch
      { x with stat := 6, waiting := false } := by
  have hset : ((s.setDesc ch { x with stat := 6, waiting := false }).chan ch).started =
      { x with stat := 6, waiting := false } ::
        l.map fun y => if y.idx = x.idx then { x with stat := 6, waiting := false } else y := by
    rw [State.setDesc, State.chan_setChan]
    simp [hfront]
  rw [State.dEnd, State.chFront, hset]
  rfl

end Stop

/-- A request that ends REMOTE_LOST counts nowhere but where it was counted. -/
theorem State.rd_remEnd_lost (s : State) (q : RemReq) (w : Payload) :
    (s.remEnd q 6 w).rd rFabRemcnt = s.rd rFabRemcnt := by
  unfold State.remEnd
  dsimp only
  split
  · rfl
  · rw [if_neg (by decide), State.rd_fenceFail _ _ (by decide)]
    rfl
  · split
    · rfl
    · exact State.rd_chFront _

/-- The front descriptor of a channel whose remote access is lost stops the channel with REMOTE_LOST. -/
theorem State.remEnd_lost_dma {s : State} {q : RemReq} {ch : Fin 16} {x : DmaDesc} {l : List DmaDesc} (w : Payload)
    (huse : q.use = .dma ch x.idx) (hfront : (s.chan ch).started = x :: l) :
    (s.remEnd q 6 w).chStopped ch = true ∧ (s.remEnd q 6 w).getF (fDmaChStatusCode ch) = 6
      ∧ ((s.remEnd q 6 w).chan ch).started = [] := by
  have hget : (s.endTag q.tag).getDesc ch x.idx = some x := by
    have h : ((s.endTag q.tag).chan ch).started = x :: l := hfront
    rw [State.getDesc, h, List.find?_cons_of_pos (by simp)]
  have heq : s.remEnd q 6 w = (s.endTag q.tag).dEnd ch x 6 := by
    simp only [State.remEnd, huse, hget, OfNat.ofNat_ne_zero, Nat.reduceEqDiff, or_self, if_false]
  have hend : (s.endTag q.tag).dEnd ch x 6 = _ := State.dEnd_front (s := s.endTag q.tag) hfront
  rw [heq, hend]
  obtain ⟨hstate, hcode, hnone, -⟩ := State.chStop_rules (ch := ch)
    ((s.endTag q.tag).setDesc ch { x with stat := 6, waiting := false }) { x with stat := 6, waiting := false }
  exact ⟨by rw [State.chStopped, hstate]; rfl, hcode, hnone⟩

theorem State.remoteTimeout_eq {s : State} {tag : Nat} {q : RemReq}
    (hq : s.rem.reqs.find? (fun q => q.tag == tag) = some q) :
    s.remoteTimeout tag = (s.reach q.deadline.toNat).countLost.remEnd q 6 0 := by
  simp only [State.remoteTimeout, hq, State.remLost]

/-- The ended request's tag rests. -/
theorem State.mem_resting_endTag (s : State) (tag : Nat) : tag ∈ (s.endTag tag).rem.resting.map (·.1) := by
  simp [State.endTag]

/-- A HERD fence whose member does not answer. -/
theorem State.remEnd_lost_fence {s : State} {q : RemReq} {k : Core} (w : Payload) (huse : q.use = .fence k) :
    s.remEnd q 6 w = (s.endTag q.tag).fenceFail k := by
  simp only [State.remEnd, huse, if_neg (show ¬ (6 : Nat) = 0 by decide)]

theorem State.remEnd_dead {s : State} {q : RemReq} (status : Nat) (w : Payload) (huse : q.use = .dead) :
    s.remEnd q status w = s.endTag q.tag := by
  simp only [State.remEnd, huse]

/-- What a state has beside time, its registers and the supplies, it has in every state with the same rest. -/
theorem State.parts_of_timeless {s u : State} (h : u.timeless = s.timeless) :
    u.cores = s.cores ∧ u.mem = s.mem ∧ u.rem = s.rem ∧ u.dma = s.dma :=
  ⟨(congrArg State.cores h : u.timeless.cores = s.timeless.cores), (congrArg State.mem h : u.timeless.mem = _),
    (congrArg State.rem h : u.timeless.rem = _), (congrArg State.dma h : u.timeless.dma = _)⟩

theorem timeouts_end_requests (tag : BitVec 16) (s : State) :
    ((∀ q ∈ s.rem.reqs, q.tag ≠ tag.toNat) → exec (.remoteTimeout tag) s = .next s)
    ∧ ∀ q, s.rem.reqs.find? (fun q => q.tag == tag.toNat) = some q →
      ∃ t, exec (.remoteTimeout tag) s = .next t
        ∧ t.getF fFabRemcntLost = incSat fFabRemcntLost.width (s.getF fFabRemcntLost) 1
        ∧ (q.use = .dead → t.mem = s.mem ∧ t.rem.reqs = s.rem.reqs.filter (fun r => r.tag != q.tag)
            ∧ q.tag ∈ t.rem.resting.map (·.1))
        ∧ (∀ k, q.use = .fence k → (s.core k).slot = .a → (s.core k).bare = false →
            (t.core k).fence = (s.core k).fence ∧ (t.core k).pend.prot ≠ []
            ∧ t.rem.reqs = s.rem.reqs.filter (fun r => r.tag != q.tag) ∧ t.mem = s.mem)
        ∧ (∀ ch x l, q.use = .dma ch x.idx → (s.chan ch).started = x :: l →
            t.chStopped ch = true ∧ t.getF (fDmaChStatusCode ch) = 6 ∧ (t.chan ch).started = []) := by
  have hexec : exec (.remoteTimeout tag) s = .next (s.remoteTimeout tag.toNat) := rfl
  constructor
  · intro hnone
    have hfind : s.rem.reqs.find? (fun q => q.tag == tag.toNat) = none :=
      List.find?_eq_none.2 fun q hq htag => hnone q hq (eq_of_beq htag)
    rw [hexec]
    simp only [State.remoteTimeout, hfind]
  · intro q hq
    refine ⟨_, hexec, ?_⟩
    rw [State.remoteTimeout_eq hq]
    obtain ⟨hkept, hcount⟩ := s.lost_rules q.deadline.toNat
    generalize (s.reach q.deadline.toNat).countLost = u at hkept hcount
    obtain ⟨hcores, hmem, hrem, hdma⟩ := State.parts_of_timeless hkept
    have hcore (k : Nat) : u.core k = s.core k := by rw [State.core, hcores]; rfl
    have hreqs : (u.endTag q.tag).rem.reqs = s.rem.reqs.filter fun r => r.tag != q.tag := by
      rw [State.endTag, hrem]
    refine ⟨(State.getF_of_rd_eq (u.rd_remEnd_lost q 0)).trans hcount, ?_, ?_, ?_⟩
    · intro huse
      rw [State.remEnd_dead 6 0 huse]
      exact ⟨hmem, hreqs, u.mem_resting_endTag q.tag⟩
    · intro k huse hslot hbare
      have hends : (u.endTag q.tag).core k = s.core k := hcore k
      rw [State.remEnd_lost_fence 0 huse]
      obtain ⟨hfence, hprot, hfrem, hfmem⟩ := State.fenceFail_resident (s := u.endTag q.tag) (c := k)
        (by rw [hends]; exact hslot) (by rw [hends]; exact hbare)
      exact ⟨hfence.trans (congrArg CoreSt.fence hends), hprot, hfrem ▸ hreqs, hfmem.trans hmem⟩
    · intro ch x l huse hfront
      exact State.remEnd_lost_dma 0 huse (by rw [State.chan, hdma]; exact hfront)

/-! ### A fence completes (R190, R291, R529) -/

/-- The requests to the members leave the cores and the memory alone, one tag or place for each member. -/
theorem State.askFence_rules (c : Core) (tf : Nat) (l : List Nat) (s : State) :
    (s.askFence c tf l).1.cores = s.cores ∧ (s.askFence c tf l).1.mem = s.mem
      ∧ (s.askFence c tf l).2.1.length = l.length := by
  have hsend (s : State) (m : Nat) : (s.remSend (.fence c) 2 m tf 0).2.cores = s.cores
      ∧ (s.remSend (.fence c) 2 m tf 0).2.mem = s.mem := by
    unfold State.remSend State.queueCell
    dsimp only
    split
    · exact ⟨rfl, rfl⟩
    · split
      · exact ⟨rfl, rfl⟩
      next hqueue =>
        split at hqueue
        · cases hqueue
        · obtain rfl := Option.some.inj hqueue
          exact ⟨rfl, rfl⟩
  induction l generalizing s with
  | nil => exact ⟨rfl, rfl, rfl⟩
  | cons m r ih =>
    obtain ⟨hcores, hmem⟩ := hsend s m
    obtain ⟨ihcores, ihmem, ihlen⟩ := ih (s.remSend (.fence c) 2 m tf 0).2
    exact ⟨ihcores.trans hcores, ihmem.trans hmem, congrArg (· + 1) ihlen⟩

theorem fences_complete (c : Core) (s : State) :
    ((s.core c).fence = none → exec (.fenceComplete c) s = .next s)
    ∧ ∀ f, (s.core c).fence = some f →
      (s.fenceMet c f = false → exec (.fenceComplete c) s = .next s)
      ∧ (s.fenceMet c f = true →
        (f.kind ≠ 4 → ∃ t, exec (.fenceComplete c) s = .next t
          ∧ t.core c = { s.core c with fence := none } ∧ OnlyCore c s t)
        ∧ (∀ m l, f.kind = 4 → f.asked = some (m :: l) → exec (.fenceComplete c) s = .next s)
        ∧ (f.kind = 4 → f.asked = none → s.composed c f = false → exec (.fenceComplete c) s = .next s)
        ∧ (f.kind = 4 → f.asked = some [] ∨ (f.asked = none ∧ s.composed c f = true
            ∧ ((s.core c).lastComp = none ∨ s.fencePeers c = [])) →
          ∃ t, exec (.fenceComplete c) s = .next t
          ∧ t.core c = { s.core c with fence := none, lastComp := f.later } ∧ OnlyCore c s t)
        ∧ (f.kind = 4 → f.asked = none → s.composed c f = true → (s.core c).lastComp ≠ none →
          s.fencePeers c ≠ [] → ∃ t, exec (.fenceComplete c) s = .next t
            ∧ (∃ l, (t.core c).fence = some { f with asked := some l }
                ∧ l.length = (s.fencePeers c).length)
            ∧ t.mem = s.mem)) := by
  have hexec : exec (.fenceComplete c) s = .next (s.fenceComplete c) := rfl
  refine ⟨fun hnone => ?_, fun f hf => ⟨fun hmet => ?_, fun hmet => ⟨fun hkind => ?_, fun m l hkind hasked => ?_,
    fun hkind hasked hcomp => ?_, fun hkind hend => ?_, fun hkind hasked hcomp hlast hpeers => ?_⟩⟩⟩
  · rw [hexec]
    simp only [State.fenceComplete, hnone]
  · rw [hexec]
    simp [State.fenceComplete, hf, hmet]
  · have heq : s.fenceComplete c = s.modCore c fun x => { x with fence := none } := by
      simp [State.fenceComplete, hf, hmet, show f.kind ≠ 4#3 from hkind]
    exact ⟨_, hexec, by rw [heq, State.core_modCore], heq ▸ onlyCore_modCore ..⟩
  · rw [hexec]
    simp [State.fenceComplete, hf, hmet, hkind, hasked]
  · rw [hexec]
    simp [State.fenceComplete, hf, hmet, hkind, hasked, hcomp]
  · have heq : s.fenceComplete c = s.herdEnd c f := by
      obtain hasked | ⟨hasked, hcomp, hdone⟩ := hend
      · simp [State.fenceComplete, hf, hmet, hkind, hasked]
      · have hherd : s.herdDone c f = true := by
          simpa [State.herdDone, hcomp] using hdone
        simp [State.fenceComplete, hf, hmet, hkind, hasked, hcomp, hherd]
    exact ⟨_, hexec, by rw [heq, State.herdEnd, State.core_modCore], heq ▸ onlyCore_modCore ..⟩
  · have hherd : s.herdDone c f = false := by
      simp only [State.herdDone, List.isEmpty_eq_false_iff.2 hpeers, Option.isNone_eq_false_iff.2
        (Option.isSome_iff_ne_none.2 hlast), Bool.or_false, Bool.and_false]
    obtain ⟨hcores, hmem, hlen⟩ :=
      State.askFence_rules c (((s.core c).lastComp.getD 0).toNat % 2 ^ 48) (s.fencePeers c) s
    have hherdKind : ¬ f.kind ≠ 4 := not_not.2 hkind
    refine ⟨_, hexec, ?_⟩
    simp only [State.fenceComplete, hf, hmet, if_neg hherdKind, hasked, hcomp, hherd, not_true_eq_false, if_false,
      Bool.false_eq_true]
    generalize s.askFence c (((s.core c).lastComp.getD 0).toNat % 2 ^ 48) (s.fencePeers c) = q at hmem hlen
    split_ifs
    · exact ⟨⟨q.2.1, by rw [State.core_modCore], hlen⟩, hmem⟩
    · obtain ⟨hfence, hfmem⟩ := State.fenceFail_rules
        (q.1.modCore c fun x => { x with fence := some { f with asked := some q.2.1 } }) c
      exact ⟨⟨q.2.1, by rw [hfence, State.core_modCore], hlen⟩, hfmem.trans hmem⟩

/-- Settles O42, part by part: the answers, the timeouts and the fences. -/
theorem remoteAnswersAndFencesComplete : Obligations.RemoteAnswersAndFencesComplete :=
  ⟨answers_complete, timeouts_end_requests, fences_complete⟩

end Sys2Proof.Machine
end

/-! ## The mailboxes (O54) -/

section

namespace Sys2Proof.Machine

open Sys2Proof Sys2Proof.Claims

/-! ### What leaves the mailboxes alone

Logging, an access of device memory and the end of a link signal vectors, whose pending bits stand in one word of
BAR4, and count in registers. They leave the mailbox words, the line of requests, and the registers that the
mailboxes' answers speak of. -/

/-- The registers of the load switches and MGT_FWSTAT. -/
def Watched (o : Nat) : Prop := 0x100300 ≤ o ∧ o < 0x100320 ∨ o = rMgtFwstat

theorem not_watched_of_log {o : Nat} (hlo : 0xC00000 ≤ o) (hhi : o < 0xD00000) : ¬ Watched o := by
  unfold Watched rMgtFwstat
  omega

/-- The line of requests, the words of BAR4 but the pending bits, and the watched registers stand. -/
structure Hushed (s t : State) : Prop where
  posts : t.host.posts = s.host.posts
  box : ∀ (fn : Func) (o : Nat), o < 0x10000 → o ≠ 0x800 → t.rd4 fn o = s.rd4 fn o
  regs : ∀ o, Watched o → t.rd o = s.rd o

section Hushed

variable {s t u : State}

theorem Hushed.of_parts (hhost : t.host.posts = s.host.posts) (hbar : t.bar4 = s.bar4) (hreg : t.reg = s.reg) :
    Hushed s t :=
  ⟨hhost, fun fn o _ _ => by rw [State.rd4, hbar, State.rd4], fun o _ => by rw [State.rd, hreg, State.rd]⟩

theorem Hushed.refl (s : State) : Hushed s s := .of_parts rfl rfl rfl

theorem Hushed.trans (h : Hushed s t) (k : Hushed t u) : Hushed s u :=
  ⟨k.posts.trans h.posts, fun fn o ho hne => (k.box fn o ho hne).trans (h.box fn o ho hne),
    fun o ho => (k.regs o ho).trans (h.regs o ho)⟩

theorem Hushed.wr (s : State) {o : Nat} (v : W32) (h : ¬ Watched o) : Hushed s (s.wr o v) :=
  ⟨rfl, fun _ _ _ _ => rfl, fun _ hp => State.rd_wr_ne s o v fun e => h (e ▸ hp)⟩

theorem Hushed.sd (s : State) (d : SdSt) : Hushed s { s with sd := d } := .of_parts rfl rfl rfl

theorem Hushed.setCore (s : State) (c : Nat) (x : CoreSt) : Hushed s (s.setCore c x) := .of_parts rfl rfl rfl

theorem Hushed.setF (s : State) {f : Fld} (v : Nat) (h : ¬ Watched f.off) : Hushed s (s.setF f v) := .wr s _ h

theorem Hushed.wrList (l : List W32) :
    ∀ (s : State) (o : Nat), 0xC00000 ≤ o → o + 4 * l.length ≤ 0xD00000 → Hushed s (s.wrList o l) := by
  induction l with
  | nil => exact fun s _ _ _ => .refl s
  | cons v r ih =>
    intro s o hlo hhi
    rw [List.length_cons] at hhi
    exact (Hushed.wr s v (not_watched_of_log hlo (by omega))).trans (ih _ _ (by omega) (by omega))

theorem Hushed.msix (s : State) (fn : Func) (vec : Nat) : Hushed s (s.msix fn vec) := by
  unfold State.msix
  split
  · refine ⟨by rw [State.wr4_host], fun gn o ho hne => ?_, fun o _ => by rw [State.rd, State.wr4_reg, State.rd]⟩
    rw [State.rd4_wr4, if_neg]
    omega
  · exact .of_parts rfl rfl rfl

theorem Hushed.append (s : State) (e : ErrRec) : Hushed s (s.append e) := by
  have htail : s.getF fErrTailTail < 1024 := Nat.mod_lt _ (by decide)
  unfold State.append
  dsimp only
  split
  · refine .wr s _ (not_watched_of_log (le_rErrLog ..) ?_)
    unfold rLog rErrLog
    omega
  · split
    · exact (Hushed.wr s (o := rErrLost) _ (not_watched_of_log (by decide) (by decide))).trans
        (.setF _ _ (not_watched_of_log (by decide) (by decide)))
    · refine ((Hushed.wrList _ s _ (le_rErrLog ..) ?_).trans
        (.setF _ _ (not_watched_of_log (by decide) (by decide)))).trans (.msix _ _ _)
      have hwords (b : Bool) (time step : W64) : (e.words b time step).length = 8 := rfl
      rw [hwords]
      unfold rErrLog
      omega

theorem Hushed.sdFor (s : State) (e : ErrRec) : Hushed s (s.sdFor e) := by
  unfold State.sdFor
  split
  · exact .refl s
  · unfold State.sdQueue
    split_ifs
    · exact .refl s
    · exact .setF s _ (not_watched_of_log (by decide) (by decide))
    · exact Hushed.trans (.sd s _)
        (.setF (f := fErrSdstatQlevel) _ _ (not_watched_of_log (by decide) (by decide)))

theorem Hushed.log (s : State) (e : ErrRec) (hcls : e.cls < 0x1000) : Hushed s (s.log e) := by
  unfold State.log
  extract_lets s1
  have h1 : Hushed s s1 := by
    unfold s1
    split_ifs
    · exact .of_parts rfl rfl rfl
    · exact .refl s
  split_ifs
  · exact h1.trans (.append _ _)
  · refine ((h1.trans (.append _ _)).trans (.wr _ _ (not_watched_of_log (le_rErrClasscnt _) ?_))).trans (.sdFor _ _)
    unfold rErrClasscnt
    omega

theorem Hushed.countCorr (s : State) (mem u addr : Nat) (b : Bool) : Hushed s (s.countCorr mem u addr b) := by
  unfold State.countCorr
  dsimp only
  split_ifs
  · exact Hushed.trans (.sd s _) (.log _ _ (show 9 < 0x1000 by decide))
  · exact .sd s _

theorem not_watched_memEcc (n : Nat) : ¬ Watched (rMemEcc n) := by
  unfold Watched rMemEcc rMgtFwstat
  omega

theorem Hushed.eccReport (s : State) (who : Acc) (col : Nat) (bad fixed : List Nat) :
    Hushed s (s.eccReport who col bad fixed) := by
  have hfixed : ∀ (l : List Nat) (s : State), Hushed s (s.countFixed who.isB l) := fun l => by
    induction l with
    | nil => exact Hushed.refl
    | cons w r ih =>
      exact fun s => ((Hushed.setF s _ (not_watched_memEcc _)).trans (.countCorr _ _ _ _ _)).trans (ih _)
  have hbad : ∀ (l : List Nat) (s : State), Hushed s (s.countBad l) := fun l => by
    induction l with
    | nil => exact Hushed.refl
    | cons w r ih => exact fun s => (Hushed.setF s _ (not_watched_memEcc _)).trans (ih _)
  have hlog : ∀ (e : Tab Ecc) (l : List Nat) (s : State), Hushed s (s.logBad e who l) := fun e l => by
    induction l with
    | nil => exact Hushed.refl
    | cons w r ih => exact fun s => (Hushed.log s _ (show 9 < 0x1000 by decide)).trans (ih _)
  exact ((hfixed fixed s).trans (hbad bad _)).trans (hlog _ _ _)

theorem Hushed.memWrite (s : State) (who : Acc) (a : Nat) (l : List Byte) : Hushed s (s.memWrite who a l) :=
  (Hushed.eccReport s who 256 _ _).trans (.of_parts rfl rfl rfl)

theorem Hushed.memRead (s : State) (who : Acc) (col a n : Nat) : Hushed s (s.memRead who col a n).2 :=
  Hushed.eccReport s who col _ _

theorem Hushed.spadWrite (s : State) (c a : Nat) (l : List Byte) : Hushed s (s.spadWrite c a l) := by
  have hcorr : ∀ (mem : Nat) (l : List Nat) (s : State), Hushed s (s.corrWords c mem l) := fun mem l => by
    induction l with
    | nil => exact Hushed.refl
    | cons w r ih => exact fun s => (Hushed.countCorr s _ _ _ _).trans (ih _)
  have hlog : ∀ (mem : Nat) (l : List Nat) (s : State), Hushed s (s.logWords c mem l) := fun mem l => by
    induction l with
    | nil => exact Hushed.refl
    | cons w r ih => exact fun s => (Hushed.log s _ (show 9 < 0x1000 by decide)).trans (ih _)
  exact ((Hushed.setCore s c _).trans (hcorr 2 _ _)).trans (hlog 2 _ _)

theorem Hushed.pendIn (s : State) (c : Nat) (j : JobSlot) (bit : Nat) (f : PendExc → PendExc) :
    Hushed s (s.pendIn c j bit f) := by
  unfold State.pendIn
  dsimp only
  split_ifs
  · exact Hushed.setCore s c _
  · exact Hushed.setCore s c _
  · exact (Hushed.setCore s c _).trans (.spadWrite _ _ _ _)
  · exact Hushed.setCore s c _
  · exact (Hushed.setCore s c _).trans (.spadWrite _ _ _ _)

theorem Hushed.fenceFail (s : State) (c : Nat) : Hushed s (s.fenceFail c) := by
  have hfree : Hushed s s.takeFree.2.takeFree.2 := .of_parts rfl rfl rfl
  rw [State.fenceFail]
  exact hfree.trans (.pendIn _ c .a 2 _)

/-! ### A channel stops, a request is lost, a port goes DOWN -/

theorem Hushed.logFault (s : State) (f : XFault) (n : Nat) (b i : Bool) (off req : Nat) :
    Hushed s (s.logFault f n b i off req) := by
  refine .log s _ ?_
  have hcls : f.cls ≤ 4 := by
    unfold XFault.cls
    split <;> decide
  exact Nat.lt_of_le_of_lt hcls (by decide)

theorem Hushed.chPut (s : State) (ch : Nat) (x : DmaDesc) (e : DmaEnd) (r : XRes) : Hushed s (s.chPut ch x e r) := by
  unfold State.chPut
  dsimp only
  split
  · exact .logFault s _ _ _ _ _ _
  · split_ifs
    · exact .log s _ (show 10 < 0x1000 by decide)
    · exact .memWrite s _ _ _

theorem Hushed.setDesc (s : State) (ch : Nat) (x : DmaDesc) : Hushed s (s.setDesc ch x) := .of_parts rfl rfl rfl

theorem not_watched_dmaCh (n : Nat) : ¬ Watched (rDmaChStatus n) ∧ ¬ Watched (rDmaChProg n) := by
  unfold Watched rDmaChStatus rDmaChProg rMgtFwstat
  omega

theorem not_watched_low {o : Nat} (hlo : 0x100320 ≤ o) (hhi : o < 0xD00000) : ¬ Watched o := by
  unfold Watched rMgtFwstat
  omega

theorem Hushed.dmaXlate (s : State) (j : JobSlot) (va n : Nat) (write : Bool) (w : Waiter) :
    Hushed s (s.dmaXlate j va n write w).2 := by
  unfold State.dmaXlate
  split
  · exact .refl s
  · have hmiss : Hushed s s.countMiss := .wr s _ (not_watched_low (by decide) (by decide))
    exact hmiss.trans (.of_parts rfl rfl rfl)

theorem Hushed.chWrite (s : State) (ch : Fin 16) (x : DmaDesc) (e : DmaEnd) {k : State → State}
    (hk : ∀ u, Hushed u (k u)) : Hushed s (s.chWrite ch x e k) := by
  unfold State.chWrite
  dsimp only
  have h := Hushed.dmaXlate s (s.chSlot ch) (s.chEntry ch x.idx + (e.bytes x).1) (e.bytes x).2.length true (.back ch x e)
  split
  next s1 heq =>
    rw [heq] at h
    exact h.trans (.setDesc _ _ _)
  next r s1 heq =>
    rw [heq] at h
    exact (h.trans (.chPut _ _ _ _ _)).trans (hk _)

theorem Hushed.abandonReqs (s : State) (ch : Nat) : Hushed s (s.abandonReqs ch) := .of_parts rfl rfl rfl

theorem Hushed.chShow (s : State) (ch : Nat) (stop : Bool) : Hushed s (s.chShow ch stop) := by
  obtain ⟨hstatus, -⟩ := not_watched_dmaCh ch
  have hall : ¬ Watched rDmaStatus := not_watched_low (by decide) (by decide)
  exact ((Hushed.setF s (f := fDmaChStatusState ch) _ hstatus).trans (.setF _ _ hall)).trans (.setF _ _ hall)

theorem Hushed.chStop (s : State) (ch : Fin 16) (x : DmaDesc) : Hushed s (s.chStop ch x) := by
  obtain ⟨hstatus, hprog⟩ := not_watched_dmaCh ch
  have hset (u : State) (y : DmaCh) : Hushed u (u.setChan ch y) := .of_parts rfl rfl rfl
  have hhalt : Hushed s (s.halted ch x) :=
    ((((Hushed.abandonReqs s ch).trans (hset _ _)).trans (.wr _ _ hprog)).trans
      (.setF (f := fDmaChStatusCode ch) _ _ hstatus)).trans (.chShow _ _ _)
  rw [State.chStop_eq]
  exact (hhalt.trans (.log _ _ (show 11 < 0x1000 by decide))).trans (.chWrite _ _ _ _ fun u => .msix u _ _)

theorem Hushed.dEnd (s : State) (ch : Fin 16) (x : DmaDesc) (stat : Nat) : Hushed s (s.dEnd ch x stat) := by
  have hset := Hushed.setDesc s ch { x with stat := stat, waiting := false }
  unfold State.dEnd State.chFront
  refine hset.trans ?_
  split
  · split_ifs
    · exact .chStop _ _ _
    · exact .refl _
  · exact .refl _

theorem Hushed.remLost (s : State) (q : RemReq) : Hushed s (s.remLost q) := by
  have hcount : Hushed s s.countLost := .setF s _ (not_watched_low (by decide) (by decide))
  have hend (u : State) (tag : Nat) : Hushed u (u.endTag tag) := .of_parts rfl rfl rfl
  unfold State.remLost State.remEnd
  dsimp only
  refine (hcount.trans (hend _ q.tag)).trans ?_
  split
  · exact .refl _
  · rw [if_neg (by decide)]
    exact .fenceFail _ _
  · split
    · exact .refl _
    · rw [if_neg (by decide)]
      exact .dEnd _ _ _ _

theorem Hushed.loseTags (l : List Nat) : ∀ s : State, Hushed s (s.loseTags l) := by
  induction l with
  | nil => exact Hushed.refl
  | cons tag r ih =>
    intro s
    rw [State.loseTags]
    refine Hushed.trans ?_ (ih _)
    split
    · exact .remLost s _
    · exact .refl s

theorem Hushed.setPort (s : State) (p : Nat) (x : FabPort) : Hushed s (s.setPort p x) := .of_parts rfl rfl rfl

theorem Hushed.downPort (s : State) (p : Nat) : Hushed s (s.downPort p) := by
  have hstat : ¬ Watched (rFabPstat p) := by
    unfold Watched rFabPstat rPort rMgtFwstat
    split_ifs <;> omega
  have hcut (u : State) : Hushed u (u.cutLink p) := (Hushed.setPort u p _).trans (.loseTags _ _)
  exact ((Hushed.setF s (f := fFabPstatState p) _ hstat).trans (.setF (f := fFabPstatWarn p) _ _ hstat)).trans (hcut _)

theorem Hushed.haltPort (s : State) : Hushed s s.haltPort := by
  unfold State.haltPort
  split_ifs
  · exact .of_parts rfl rfl rfl
  · exact .refl s

theorem Hushed.unpower (s : State) (p : Nat) : Hushed s (s.unpower p) := by
  unfold State.unpower
  dsimp only
  split_ifs
  · exact .setPort s p _
  · exact ((Hushed.setPort s p _).trans (.downPort _ p)).trans (.haltPort _)
  · exact (Hushed.setPort s p _).trans (.downPort _ p)

theorem Hushed.optLeave (s : State) (q : Nat) : Hushed s (s.optLeave q) := by
  have hfold : ∀ (l : List Nat) (u : State), Hushed u (l.foldl (fun t k => t.unpower (4 * q + k)) u) := fun l => by
    induction l with
    | nil => exact Hushed.refl
    | cons k l ih => exact fun u => (Hushed.unpower u _).trans (ih _)
  unfold State.optLeave
  split_ifs
  · exact hfold _ s
  · exact .refl s

end Hushed

/-! ### The words of a mailbox -/

section Words

variable {s u : State} {fn : Func}

/-- Words at two places of BAR4. -/
theorem State.rd4_wr4_apart (s : State) (fn gn : Func) {o p : Nat} (v : W32) (ho : o < 0x10000) (hp : p < 0x10000)
    (h : o ≠ p) : (s.wr4 fn o v).rd4 gn p = s.rd4 gn p := by
  rw [State.rd4_wr4, if_neg]
  omega

theorem State.rd4_mbxSet (s : State) (fn gn : Func) (n : Nat) (b : Bool) {p : Nat} (hp : p < 0x10000)
    (h : mbxStatus ≠ p) : (s.mbxSet fn n b).rd4 gn p = s.rd4 gn p :=
  State.rd4_wr4_apart s fn gn _ (by decide) hp h

theorem State.mbxBit_mbxSet (s : State) (fn gn : Func) {n k : Nat} (b : Bool) (hk : k < 32) :
    (s.mbxSet fn n b).mbxBit gn k = if gn = fn ∧ k = n then b else s.mbxBit gn k := by
  unfold State.mbxBit State.mbxSet
  dsimp only
  rw [State.rd4_wr4]
  by_cases hfn : gn = fn
  · subst hfn
    rw [if_pos rfl]
    cases b
    · rw [if_neg Bool.false_ne_true, getLsbD_and_not_bit _ hk]
      by_cases hkn : k = n
      · simp [hkn]
      · simp [hkn]
    · rw [if_pos rfl, BitVec.getLsbD_or, getLsbD_and_not_bit _ hk, BitVec.getLsbD_ofNat, Nat.testBit_two_pow]
      by_cases hkn : k = n
      · simp [hkn, hkn ▸ hk]
      · simp [hkn, Ne.symm hkn]
  · have hval : fn.val * 65536 + mbxStatus ≠ gn.val * 65536 + mbxStatus := by
      have := Fin.val_ne_of_ne hfn
      omega
    rw [if_neg hval, if_neg fun h => hfn h.1]

theorem State.rd4_wr4List_ne (gn : Func) {p : Nat} (l : List W32) :
    ∀ (s : State) (off : Nat), (∀ k < l.length, fn.val * 65536 + (off + 4 * k) ≠ gn.val * 65536 + p) →
      (s.wr4List fn off l).rd4 gn p = s.rd4 gn p := by
  induction l with
  | nil => exact fun _ _ _ => rfl
  | cons v r ih =>
    intro s off h
    rw [State.wr4List, ih _ _ fun k hk => ?_, State.rd4_wr4, if_neg]
    · exact h 0 (by simp)
    · have := h (k + 1) (by simpa using hk)
      omega

theorem State.rd4_wr4List_at (l : List W32) :
    ∀ (s : State) (off k : Nat) (v : W32), l[k]? = some v → (s.wr4List fn off l).rd4 fn (off + 4 * k) = v := by
  induction l with
  | nil => exact fun _ _ k _ h => by simp at h
  | cons w r ih =>
    intro s off k v h
    rw [State.wr4List]
    cases k with
    | zero =>
      rw [State.rd4_wr4List_ne _ r _ _ fun k _ => by omega, Nat.mul_zero, Nat.add_zero, State.rd4_wr4_same]
      simpa using h
    | succ k =>
      rw [show off + 4 * (k + 1) = off + 4 + 4 * k by omega]
      exact ih _ _ k v (by simpa using h)

/-- `u` holds the request that a function of `s` has posted. -/
structure Asked (s u : State) (fn : Func) : Prop where
  busy : u.mbxBusy fn = true
  seq : u.rd4 fn (mbxReqBuf + 4) = s.rd4 fn (mbxReqBuf + 4)
  mask : u.rd4 fn 12 = s.rd4 fn 12

theorem Asked.refl (h : s.mbxBusy fn = true) : Asked s s fn := ⟨h, rfl, rfl⟩

theorem Asked.of_bar4 (h : s.mbxBusy fn = true) (hbar : u.bar4 = s.bar4) : Asked s u fn :=
  ⟨by rw [State.mbxBusy, State.mbxBit, State.rd4, hbar]; exact h, by rw [State.rd4, hbar, State.rd4],
    by rw [State.rd4, hbar, State.rd4]⟩

theorem Hushed.mbxBit (h : Hushed s u) (fn : Func) (k : Nat) : u.mbxBit fn k = s.mbxBit fn k := by
  rw [State.mbxBit, h.box fn mbxStatus (by decide) (by decide), State.mbxBit]

theorem Asked.hushed {s u t : State} (h : Asked s u fn) (k : Hushed u t) : Asked s t fn :=
  ⟨(k.mbxBit fn 0).trans h.busy, (k.box fn _ (by decide) (by decide)).trans h.seq,
    (k.box fn _ (by decide) (by decide)).trans h.mask⟩

/-- Another bit of MBX_STATUS than BUSY. -/
theorem Asked.mbxSet {n : Nat} (h : Asked s u fn) (gn : Func) (b : Bool) (hn : n ≠ 0) : Asked s (u.mbxSet gn n b) fn :=
  ⟨by rw [State.mbxBusy, State.mbxBit_mbxSet _ _ _ _ (by decide), if_neg fun e => hn e.2.symm]; exact h.busy,
    by rw [State.rd4_mbxSet _ _ _ _ _ (by decide) (by decide)]; exact h.seq,
    by rw [State.rd4_mbxSet _ _ _ _ _ (by decide) (by decide)]; exact h.mask⟩

/-- The words that an answer puts into a mailbox. -/
def State.written (u : State) (fn : Func) (r : Nat) (payload : List Byte) : State :=
  ((u.wr4List fn mbxRspBuf
    (BitVec.ofNat 32 (r + 65536 * payload.length) :: u.rd4 fn (mbxReqBuf + 4) :: wordsOf payload)).mbxSet
      fn 0 false).mbxSet fn 1 true

theorem State.rd4_mbxDefer (s : State) (fn gn : Func) (p : Nat) : (s.mbxDefer fn).rd4 gn p = s.rd4 gn p := rfl

theorem State.posts_mbxDefer (s : State) (fn : Func) : (s.mbxDefer fn).host.posts = s.host.posts.filter (· != fn.val) :=
  rfl

theorem State.mbxAnswer_busy (h : u.mbxBusy fn = true) (r : Nat) (payload : List Byte) :
    u.mbxAnswer fn r payload = ((u.written fn r payload).mbxDefer fn).msix fn 0 := by
  rw [State.mbxAnswer, if_pos h]
  rfl

theorem State.rd4_written (u : State) (r : Nat) (payload : List Byte) {p : Nat} (h : mbxStatus ≠ p) :
    (u.written fn r payload).rd4 fn p = (u.wr4List fn mbxRspBuf
      (BitVec.ofNat 32 (r + 65536 * payload.length) :: u.rd4 fn (mbxReqBuf + 4) :: wordsOf payload)).rd4 fn p := by
  have hset (s : State) (n : Nat) (b : Bool) : (s.mbxSet fn n b).rd4 fn p = s.rd4 fn p := State.rd4_wr4_ne s fn _ h
  rw [State.written, hset, hset]

/-- The word `k` of a response. -/
theorem State.rd4_written_at (u : State) (r : Nat) (payload : List Byte) {k : Nat} {v : W32}
    (hv : (BitVec.ofNat 32 (r + 65536 * payload.length) :: u.rd4 fn (mbxReqBuf + 4) :: wordsOf payload)[k]? = some v) :
    (u.written fn r payload).rd4 fn (mbxRspBuf + 4 * k) = v := by
  rw [State.rd4_written _ _ _ (by unfold mbxStatus mbxRspBuf; omega)]
  exact State.rd4_wr4List_at _ _ _ _ _ hv

/-- What stands below the response stays. -/
theorem State.rd4_written_below (u : State) (r : Nat) (payload : List Byte) {p : Nat} (hp : p < mbxRspBuf)
    (h : mbxStatus ≠ p) : (u.written fn r payload).rd4 fn p = u.rd4 fn p := by
  rw [State.rd4_written _ _ _ h]
  exact State.rd4_wr4List_ne _ _ _ _ fun k _ => by omega

theorem State.mbxBit_written (u : State) (r : Nat) (payload : List Byte) :
    (u.written fn r payload).mbxBit fn 0 = false ∧ (u.written fn r payload).mbxBit fn 1 = true := by
  rw [State.written, State.mbxBit_mbxSet _ _ _ _ (by decide), State.mbxBit_mbxSet _ _ _ _ (by decide),
    State.mbxBit_mbxSet _ _ _ _ (by decide), State.mbxBit_mbxSet _ _ _ _ (by decide)]
  simp

theorem State.msix_signals (s : State) (fn : Func) :
    ((s.rd4 fn 12).getLsbD 0 = true → ((s.msix fn 0).rd4 fn 0x800).getLsbD 0 = true)
      ∧ ((s.rd4 fn 12).getLsbD 0 = false → ∃ l, (s.msix fn 0).out = l ++ [.msix fn 0]) := by
  unfold State.msix
  refine ⟨fun h => ?_, fun h => ?_⟩
  · rw [if_pos h, State.rd4_wr4_same]
    simp
  · have hclear : ¬ (s.rd4 fn (16 * 0 + 12)).getLsbD 0 = true := fun e => by simp_all
    rw [if_neg hclear]
    exact ⟨s.out, rfl⟩

/-- A signal of vector 0 leaves what another place of the same BAR4 holds. -/
theorem State.rd4_msix_ne (s : State) (fn : Func) {p : Nat} (h : 0x800 ≠ p) : (s.msix fn 0).rd4 fn p = s.rd4 fn p := by
  unfold State.msix
  split
  · exact State.rd4_wr4_ne s fn _ h
  · rfl

/-- An answer to a request is its response. -/
theorem State.answered (h : Asked s u fn) (r : Nat) (payload : List Byte) :
    Answered s (u.mbxAnswer fn r payload) fn r payload := by
  obtain ⟨hbusy, hdone⟩ := u.mbxBit_written (fn := fn) r payload
  obtain ⟨hpend, hsend⟩ := ((u.written fn r payload).mbxDefer fn).msix_signals fn
  have hword {k : Nat} {v : W32} (hv : (BitVec.ofNat 32 (r + 65536 * payload.length) :: u.rd4 fn (mbxReqBuf + 4)
      :: wordsOf payload)[k]? = some v) :
      (((u.written fn r payload).mbxDefer fn).msix fn 0).rd4 fn (mbxRspBuf + 4 * k) = v := by
    rw [State.rd4_msix_ne _ _ (by unfold mbxRspBuf; omega), State.rd4_mbxDefer, u.rd4_written_at r payload hv]
  have hmask : ((u.written fn r payload).mbxDefer fn).rd4 fn 12 = s.rd4 fn 12 := by
    rw [State.rd4_mbxDefer, u.rd4_written_below r payload (by decide) (by decide), h.mask]
  have hbit (n : Nat) : (((u.written fn r payload).mbxDefer fn).msix fn 0).mbxBit fn n =
      (u.written fn r payload).mbxBit fn n := by
    rw [State.mbxBit, State.rd4_msix_ne _ _ (by decide), State.rd4_mbxDefer, State.mbxBit]
  rw [State.mbxAnswer_busy h.busy]
  refine ⟨hword (k := 0) rfl, (hword (k := 1) rfl).trans h.seq, fun k v hv => ?_, (hbit 0).trans hbusy,
    (hbit 1).trans hdone, ?_, fun hm => hpend (by rw [hmask]; exact hm), fun hm => hsend (by rw [hmask]; exact hm)⟩
  · have hplace : mbxRspBuf + 8 + 4 * k = mbxRspBuf + 4 * (k + 2) := by omega
    rw [hplace]
    exact hword hv
  · rw [(Hushed.msix _ fn 0).posts, State.posts_mbxDefer, List.mem_filter]
    exact fun h => absurd h.2 (by simp)

/-- What an answer leaves alone: everything but BAR4, the messages and the line of requests. -/
def Replied (u t : State) : Prop := t = { u with bar4 := t.bar4, out := t.out, host := t.host }

theorem Replied.trans {v : State} (h : Replied s u) (k : Replied u v) : Replied s v := by
  rw [Replied, k, h]

theorem Replied.of_onlyBar4 {t : State} (h : OnlyBar4 s t) : Replied s t := by
  rw [Replied, h]

theorem Replied.emit (s : State) (m : Out) : Replied s (s.emit m) := rfl

theorem Replied.wr4 (s : State) (fn : Func) (o : Nat) (v : W32) : Replied s (s.wr4 fn o v) :=
  .of_onlyBar4 (.wr4 s fn o v)

theorem Replied.wr4List (l : List W32) : ∀ (s : State) (off : Nat), Replied s (s.wr4List fn off l) := by
  induction l with
  | nil => exact fun _ _ => rfl
  | cons v r ih => exact fun s off => (Replied.wr4 s fn off v).trans (ih _ _)

theorem Replied.mbxSet (s : State) (fn : Func) (n : Nat) (b : Bool) : Replied s (s.mbxSet fn n b) :=
  .wr4 s fn mbxStatus _

theorem Replied.mbxDefer (s : State) (fn : Func) : Replied s (s.mbxDefer fn) := rfl

theorem Replied.msix (s : State) (fn : Func) (vec : Nat) : Replied s (s.msix fn vec) := by
  unfold State.msix
  split
  · exact .wr4 s fn _ _
  · exact .emit s _

theorem State.replied (u : State) (fn : Func) (r : Nat) (payload : List Byte) :
    Replied u (u.mbxAnswer fn r payload) := by
  by_cases hbusy : u.mbxBusy fn = true
  · rw [State.mbxAnswer_busy hbusy, State.written]
    exact ((((Replied.wr4List _ u _).trans (.mbxSet _ _ _ _)).trans (.mbxSet _ _ _ _)).trans
      (.mbxDefer _ fn)).trans (.msix _ _ _)
  · rw [State.mbxAnswer, if_neg hbusy]
    rfl

theorem Replied.reg {t : State} (h : Replied u t) : t.reg = u.reg := by rw [h]
theorem Replied.fuses {t : State} (h : Replied u t) : t.fuses = u.fuses := by rw [h]
theorem Replied.mgt {t : State} (h : Replied u t) : t.mgt = u.mgt := by rw [h]
theorem Replied.sameStores {t : State} (h : Replied u t) : SameStores u t := by
  rw [h]
  exact ⟨rfl, rfl, rfl, rfl, rfl, rfl, rfl⟩

/-- An answer without payload leaves the other bits of MBX_STATUS, of either function. -/
theorem State.mbxBit_mbxAnswer (u : State) (fn gn : Func) (r : Nat) {k : Nat} (hk : k < 32) (h0 : k ≠ 0) (h1 : k ≠ 1) :
    (u.mbxAnswer fn r []).mbxBit gn k = u.mbxBit gn k := by
  by_cases hbusy : u.mbxBusy fn = true
  · have hdefer (v : State) : (v.mbxDefer fn).mbxBit gn k = v.mbxBit gn k := rfl
    rw [State.mbxAnswer_busy hbusy, (Hushed.msix _ fn 0).mbxBit, hdefer, State.written,
      State.mbxBit_mbxSet _ _ _ _ hk, if_neg fun h => h1 h.2, State.mbxBit_mbxSet _ _ _ _ hk, if_neg fun h => h0 h.2,
      State.mbxBit, State.rd4_wr4List_ne, State.mbxBit]
    intro j hj
    have hshort : j < 2 := hj
    unfold mbxRspBuf mbxStatus
    omega
  · rw [State.mbxAnswer, if_neg hbusy]

end Words

end Sys2Proof.Machine
end

/-! ## The mailboxes: the line of requests and what turns a request away (O54) -/

section

namespace Sys2Proof.Machine

open Sys2Proof Sys2Proof.Claims

section Line

variable {s u t : State} {fn : Func}

theorem sameStores_trans (h : SameStores s t) (k : SameStores t u) : SameStores s u := by
  obtain ⟨hmem, hecc, hstg, hcores, hstks, hroutes, hpend⟩ := h
  obtain ⟨kmem, kecc, kstg, kcores, kstks, kroutes, kpend⟩ := k
  exact ⟨kmem.trans hmem, kecc.trans hecc, kstg.trans hstg, kcores.trans hcores, kstks.trans hstks,
    kroutes.trans hroutes, kpend.trans hpend⟩

/-! ### Reading a request -/

/-- The request is what its 64 words hold. -/
theorem State.mbxBytes_congr (h : ∀ k < 64, t.rd4 fn (mbxReqBuf + 4 * k) = s.rd4 fn (mbxReqBuf + 4 * k)) :
    t.mbxBytes fn = s.mbxBytes fn :=
  List.flatMap_congr fun k hk => by rw [h k (List.mem_range.1 hk)]

theorem State.mbxF_congr (h : t.mbxBytes fn = s.mbxBytes fn) (o n : Nat) : t.mbxF fn o n = s.mbxF fn o n := by
  rw [State.mbxF, h, State.mbxF]

theorem State.mbxTurned_congr (hbytes : t.mbxBytes fn = s.mbxBytes fn) (hfw : t.fwState = s.fwState) :
    t.mbxTurned fn = s.mbxTurned fn := by
  rw [State.mbxTurned, State.mbxNobody, State.mbxCmd, State.mbxF_congr hbytes, hfw, State.mbxTurned, State.mbxNobody,
    State.mbxCmd]

/-! ### A POST (R684, R688) -/

/-- A function joins the end of the line. -/
def State.lined (s : State) (fn : Func) : State :=
  { s with host := { s.host with posts := s.host.posts ++ [fn.val], postAt := Tab.ins s.host.postAt fn.val s.clock } }

/-- A request that takes its place in the line. -/
def State.queued (s : State) (fn : Func) : State := (s.mbxSet fn 0 true).lined fn

theorem State.rd4_lined (s : State) (fn gn : Func) (p : Nat) : (s.lined fn).rd4 gn p = s.rd4 gn p := rfl

theorem State.rd4_queued (s : State) (fn gn : Func) {p : Nat} (hp : p < 0x10000) (h : mbxStatus ≠ p) :
    (s.queued fn).rd4 gn p = s.rd4 gn p := by
  rw [State.queued, State.rd4_lined, State.rd4_mbxSet _ _ _ _ _ hp h]

section Idle

variable (hidle : s.mbxBusy fn = false)

include hidle

theorem State.mbxPost_hung (hhung : (s.queued fn).fwState = fwHung) :
    s.mbxPost fn = (s.queued fn).mbxAnswer fn mbxTimeout [] := by
  unfold State.mbxPost
  rw [if_neg (by simp [hidle])]
  extract_lets _ _ s2
  have hs2 : s2 = s.queued fn := rfl
  rw [hs2, if_pos hhung]

theorem State.mbxPost_waits (hhung : (s.queued fn).fwState ≠ fwHung)
    (hwait : (s.queued fn).mbxFirst fn = false ∨ mbxReserved ((s.queued fn).mbxCmd fn) = false) :
    s.mbxPost fn = s.queued fn := by
  unfold State.mbxPost
  rw [if_neg (by simp [hidle])]
  extract_lets _ _ s2
  have hs2 : s2 = s.queued fn := rfl
  rw [hs2, if_neg hhung]
  split
  next r hfirst _ =>
    rw [if_neg]
    obtain h | h := hwait
    · rw [h] at hfirst
      cases hfirst
    · simp [h]
  · rfl

theorem State.mbxPost_reserved {r : Nat} (hhung : (s.queued fn).fwState ≠ fwHung)
    (hfirst : (s.queued fn).mbxFirst fn = true) (hreserved : mbxReserved ((s.queued fn).mbxCmd fn) = true)
    (hturned : (s.queued fn).mbxTurned fn = some r) : s.mbxPost fn = (s.queued fn).mbxAnswer fn r [] := by
  unfold State.mbxPost
  rw [if_neg (by simp [hidle])]
  extract_lets _ _ s2
  have hs2 : s2 = s.queued fn := rfl
  rw [hs2, if_neg hhung]
  simp only [hfirst, hturned, if_pos hreserved]

end Idle

theorem Replied.lined (s : State) (fn : Func) : Replied s (s.lined fn) := rfl

theorem Replied.queued (s : State) (fn : Func) : Replied s (s.queued fn) :=
  (Replied.mbxSet s fn 0 true).trans (.lined _ fn)

theorem State.queued_asked (s : State) (fn : Func) : Asked s (s.queued fn) fn := by
  have hbit : (s.queued fn).mbxBit fn 0 = (s.mbxSet fn 0 true).mbxBit fn 0 := by
    rw [State.mbxBit, State.queued, State.rd4_lined, State.mbxBit]
  refine ⟨?_, s.rd4_queued fn fn (by decide) (by decide), s.rd4_queued fn fn (by decide) (by decide)⟩
  rw [State.mbxBusy, hbit, State.mbxBit_mbxSet _ _ _ _ (by decide), if_pos ⟨rfl, rfl⟩]

theorem State.mbxBytes_queued (s : State) (fn : Func) : (s.queued fn).mbxBytes fn = s.mbxBytes fn :=
  State.mbxBytes_congr fun k hk =>
    s.rd4_queued fn fn (by unfold mbxReqBuf; omega) (by unfold mbxReqBuf mbxStatus; omega)

theorem Replied.getF (h : Replied s t) (f : Fld) : t.getF f = s.getF f :=
  State.getF_of_rd_eq (by rw [State.rd, h.reg, State.rd])

theorem Replied.fwState (h : Replied s t) : t.fwState = s.fwState := by
  rw [State.fwState, h.getF, State.fwState]

theorem LogFrame.host (h : LogFrame s t) : t.host = s.host := by rw [h]

theorem State.posts_queued (s : State) (fn : Func) : (s.queued fn).host.posts = s.host.posts ++ [fn.val] := by
  have hlined (v : State) : (v.lined fn).host.posts = v.host.posts ++ [fn.val] := rfl
  rw [State.queued, hlined, State.mbxSet, State.wr4_host]

theorem State.out_queued (s : State) (fn : Func) : (s.queued fn).out = s.out := by
  have hlined (v : State) : (v.lined fn).out = v.out := rfl
  rw [State.queued, hlined, State.mbxSet, State.wr4_out]

/-- A POST while BUSY (R684): OVERRUN, and the record. -/
theorem post_while_busy (v : BitVec 32) (hbusy : s.mbxBusy fn = true) : ∃ t, exec (.mbxPost fn v) s = .next t
    ∧ t.mbxBit fn 2 = true ∧ t.mbxBit fn 0 = true ∧ t.host = s.host ∧ SameStores s t := by
  have hexec : exec (.mbxPost fn v) s = .next (s.mbxPost fn) := rfl
  have hpost : s.mbxPost fn =
      (s.mbxSet fn 2 true).log ⟨16, 0x10, unitFunc fn.val, false, false, s.mbxCmd fn, 0⟩ := by
    rw [State.mbxPost, if_pos hbusy]
  refine ⟨_, hexec, ?_⟩
  rw [hpost]
  have hlog := Hushed.log (s.mbxSet fn 2 true) ⟨16, 0x10, unitFunc fn.val, false, false, s.mbxCmd fn, 0⟩
    (show 16 < 0x1000 by decide)
  refine ⟨?_, ?_, ?_, ?_⟩
  · rw [hlog.mbxBit, State.mbxBit_mbxSet _ _ _ _ (by decide), if_pos ⟨rfl, rfl⟩]
  · rw [hlog.mbxBit, State.mbxBit_mbxSet _ _ _ _ (by decide), if_neg (by simp)]
    exact hbusy
  · rw [(LogFrame.log _ _).host, State.mbxSet, State.wr4_host]
  · exact sameStores_trans (Replied.mbxSet s fn 2 true).sameStores (LogFrame.log _ _).sameStores

/-- A POST of an idle mailbox (R684, R688): answered while HUNG, or where it is first and its command is reserved;
else it waits in the line. -/
theorem post_while_idle (v : BitVec 32) (hidle : s.mbxBusy fn = false) :
    (s.fwState = fwHung →
        ∃ t, exec (.mbxPost fn v) s = .next t ∧ Answered s t fn 7 [] ∧ SameStores s t ∧ t.reg = s.reg)
      ∧ (s.fwState ≠ fwHung →
        (∃ g, s.host.posts.head? = some g ∧ g ≠ fn.val) ∨ mbxReserved (s.mbxCmd fn) = false →
        ∃ t, exec (.mbxPost fn v) s = .next t ∧ t.mbxBit fn 0 = true
          ∧ t.host.posts = s.host.posts ++ [fn.val] ∧ t.out = s.out ∧ t.reg = s.reg ∧ SameStores s t)
      ∧ (s.fwState = fwRunning → s.host.posts = [] → mbxReserved (s.mbxCmd fn) = true →
        ∃ t, exec (.mbxPost fn v) s = .next t ∧ Answered s t fn 1 [] ∧ t.reg = s.reg) := by
  have hexec : exec (.mbxPost fn v) s = .next (s.mbxPost fn) := rfl
  have hasked := s.queued_asked fn
  have hqueued := Replied.queued s fn
  have hfw : (s.queued fn).fwState = s.fwState := hqueued.fwState
  have hcmd : (s.queued fn).mbxCmd fn = s.mbxCmd fn := State.mbxF_congr (s.mbxBytes_queued fn) 0 2
  have hanswer (r : Nat) := hqueued.trans ((s.queued fn).replied fn r [])
  refine ⟨fun hhung => ?_, fun hhung hwait => ?_, fun hrun hposts hreserved => ?_⟩
  · refine ⟨_, hexec, ?_⟩
    rw [State.mbxPost_hung hidle (hfw.trans hhung)]
    exact ⟨State.answered hasked 7 [], (hanswer 7).sameStores, (hanswer 7).reg⟩
  · refine ⟨_, hexec, ?_⟩
    rw [State.mbxPost_waits hidle (by rw [hfw]; exact hhung)]
    · exact ⟨hasked.busy, s.posts_queued fn, s.out_queued fn, hqueued.reg, hqueued.sameStores⟩
    · refine hwait.imp (fun ⟨g, hhead, hg⟩ => ?_) fun h => by rw [hcmd, h]
      rw [State.mbxFirst, s.posts_queued fn, List.head?_append, hhead]
      simp [hg]
  · have hfirst : (s.queued fn).mbxFirst fn = true := by
      rw [State.mbxFirst, s.posts_queued fn, hposts, hasked.busy]
      simp
    have hturned : (s.queued fn).mbxTurned fn = some mbxBadCmd := by
      rw [State.mbxTurned_congr (s.mbxBytes_queued fn) hfw, State.mbxTurned, State.mbxNobody, hrun]
      simp [hreserved]
    refine ⟨_, hexec, ?_⟩
    rw [State.mbxPost_reserved hidle (by rw [hfw, hrun]; decide) hfirst (by rw [hcmd]; exact hreserved) hturned]
    exact ⟨State.answered hasked 1 [], (hanswer 1).reg⟩

/-! ### A request without a response (R688) -/

theorem sameStores_of_timeless (h : t.timeless = s.timeless) : SameStores s t :=
  ⟨(congrArg State.mem h : t.timeless.mem = _), (congrArg State.memEcc h : t.timeless.memEcc = _),
    (congrArg State.staging h : t.timeless.staging = _), (congrArg State.cores h : t.timeless.cores = _),
    (congrArg State.stks h : t.timeless.stks = _), (congrArg State.routes h : t.timeless.routes = _),
    (congrArg State.pending h : t.timeless.pending = _)⟩

theorem bar4_of_timeless (h : t.timeless = s.timeless) : t.bar4 = s.bar4 :=
  (congrArg State.bar4 h : t.timeless.bar4 = s.timeless.bar4)

theorem State.mbxForget_rules (s : State) (fn : Func) : (s.mbxForget fn).bar4 = s.bar4 ∧ SameStores s (s.mbxForget fn) :=
  ⟨rfl, rfl, rfl, rfl, rfl, rfl, rfl, rfl⟩

theorem State.fwDrop_rules (s : State) : s.fwDrop.bar4 = s.bar4 ∧ s.fwDrop.host = s.host ∧ s.fwDrop.reg = s.reg
    ∧ s.fwDrop.fuses = s.fuses ∧ s.fwDrop.mgt = { s.mgt with fw := none } ∧ SameStores s s.fwDrop :=
  ⟨rfl, rfl, rfl, rfl, rfl, rfl, rfl, rfl, rfl, rfl, rfl, rfl⟩

theorem State.setF_rules (s : State) (f : Fld) (v : Nat) : (s.setF f v).bar4 = s.bar4 ∧ SameStores s (s.setF f v) :=
  ⟨rfl, rfl, rfl, rfl, rfl, rfl, rfl, rfl⟩

/-- The firmware is HUNG and the load in progress is dropped. -/
def State.hung (s : State) (fn : Func) : State := (s.mbxForget fn).fwDrop.setF fMgtFwstatState fwHung

theorem State.hung_rules (s : State) (fn : Func) :
    (s.hung fn).bar4 = s.bar4 ∧ (s.hung fn).fwState = fwHung ∧ SameStores s (s.hung fn) := by
  obtain ⟨hforget, hforgetS⟩ := s.mbxForget_rules fn
  obtain ⟨hdrop, -, -, -, -, hdropS⟩ := (s.mbxForget fn).fwDrop_rules
  obtain ⟨hset, hsetS⟩ := (s.mbxForget fn).fwDrop.setF_rules fMgtFwstatState fwHung
  rw [State.hung]
  exact ⟨(hset.trans hdrop).trans hforget, State.getF_setF_same _ _ _ (by decide),
    sameStores_trans (sameStores_trans hforgetS hdropS) hsetS⟩

theorem State.fwState_log (s : State) (e : ErrRec) (hcls : e.cls < 0x1000) : (s.log e).fwState = s.fwState :=
  State.getF_of_rd_eq (f := fMgtFwstatState) ((Hushed.log s e hcls).regs rMgtFwstat (.inr rfl))

theorem timeout_answers (fn : Func) (s : State) : (s.mbxBusy fn = false → exec (.mailboxTimeout fn) s = .next s)
    ∧ (s.mbxBusy fn = true → ∃ t, exec (.mailboxTimeout fn) s = .next t ∧ Answered s t fn 7 []
      ∧ t.fwState = fwHung ∧ SameStores s t) := by
  have hexec : exec (.mailboxTimeout fn) s = .next (s.mailboxTimeout fn) := rfl
  refine ⟨fun hidle => ?_, fun hbusy => ?_⟩
  · rw [hexec, State.mailboxTimeout, if_pos (by simp [hidle])]
  · refine ⟨_, hexec, ?_⟩
    rw [State.mailboxTimeout, if_neg (by simp [hbusy])]
    dsimp only
    rw [← State.hung]
    obtain ⟨htime, -⟩ : (s.reachFrom (Tab.look (fun _ => (0 : W64)) s.host.postAt fn.val) tenSeconds).timeless =
        s.timeless ∧ _ := State.reach_rules s _
    generalize s.reachFrom (Tab.look (fun _ => (0 : W64)) s.host.postAt fn.val) tenSeconds = s1 at htime
    obtain ⟨hbar, hhung, hstores⟩ := s1.hung_rules fn
    have hasked : Asked s (s1.hung fn) fn := .of_bar4 hbusy (hbar.trans (bar4_of_timeless htime))
    have hcls : (⟨16, 0x11, unitFunc fn.val, false, false, s.mbxCmd fn, 0⟩ : ErrRec).cls < 0x1000 :=
      show 16 < 0x1000 by decide
    generalize (⟨16, 0x11, unitFunc fn.val, false, false, s.mbxCmd fn, 0⟩ : ErrRec) = e at hcls
    have hreply := ((s1.hung fn).log e).replied fn mbxTimeout []
    refine ⟨State.answered (hasked.hushed (.log _ e hcls)) 7 [], ?_, ?_⟩
    · rw [hreply.fwState, State.fwState_log _ _ hcls, hhung]
    · exact sameStores_trans (sameStores_trans (sameStores_trans (sameStores_of_timeless htime) hstores)
        (LogFrame.log _ _).sameStores) hreply.sameStores

/-! ### The request that is served (R684-R687) -/

/-- An answer that turns a request away changes nothing but the mailbox. -/
theorem State.turned_away (hbusy : s.mbxBusy fn = true) (r : Nat) :
    Answered s (s.mbxAnswer fn r []) fn r [] ∧ (s.mbxAnswer fn r []).reg = s.reg
      ∧ (s.mbxAnswer fn r []).fuses = s.fuses ∧ SameStores s (s.mbxAnswer fn r []) := by
  have hreply := s.replied fn r []
  exact ⟨State.answered (.refl hbusy) r [], hreply.reg, hreply.fuses, hreply.sameStores⟩

theorem State.busy_of_mbxFirst (h : s.mbxFirst fn = true) : s.mbxBusy fn = true := by
  rw [State.mbxFirst, Bool.and_eq_true] at h
  exact h.1

section Serve

variable {cmd len : Nat} {may : Bool} {f : State → State}

theorem State.mbxServe_later (h : s.mbxFirst fn = false) : s.mbxServe fn cmd may len f = s := by
  rw [State.mbxServe, if_pos (by simp [h])]

theorem State.mbxServe_turned {r : Nat} (h : s.mbxFirst fn = true) (hr : s.mbxTurned fn = some r) :
    s.mbxServe fn cmd may len f = s.mbxAnswer fn r [] := by
  rw [State.mbxServe, if_neg (by simp [h]), hr]

variable (h : s.mbxFirst fn = true) (hr : s.mbxTurned fn = none)

include h hr

theorem State.mbxServe_other (hcmd : s.mbxCmd fn ≠ cmd) : s.mbxServe fn cmd may len f = s := by
  rw [State.mbxServe, if_neg (by simp [h]), hr]
  simp only [if_pos hcmd]

theorem State.mbxServe_denied (hcmd : s.mbxCmd fn = cmd) (hmay : may = false) :
    s.mbxServe fn cmd may len f = s.mbxAnswer fn mbxDenied [] := by
  rw [State.mbxServe, if_neg (by simp [h]), hr]
  simp [hcmd, hmay]

theorem State.mbxServe_badLen (hcmd : s.mbxCmd fn = cmd) (hmay : may = true)
    (hlen : 248 < s.mbxLen fn ∨ s.mbxLen fn < len) : s.mbxServe fn cmd may len f = s.mbxAnswer fn mbxBadArg [] := by
  rw [State.mbxServe, if_neg (by simp [h]), hr]
  simp only [hcmd, hmay, if_pos hlen]
  simp

end Serve

theorem State.mbxServe_served {cmd len : Nat} {f : State → State} (h : Served s fn cmd len) :
    s.mbxServe fn cmd true len f = f s := by
  obtain ⟨hfirst, hturned, hcmd, hmax, hmin⟩ := h
  rw [State.mbxServe, if_neg (by simp [hfirst]), hturned]
  simp only [hcmd]
  rw [if_neg (by simp), if_neg (by simp), if_neg (by omega)]

theorem State.busy_of_served {cmd len : Nat} (h : Served s fn cmd len) : s.mbxBusy fn = true :=
  State.busy_of_mbxFirst h.1

/-- Every mailbox command serves the request of its function under its number. -/
theorem exec_of_mbxRow {i : Instr} {clear refuse : Bool} {cmd len : Nat} {may : Bool}
    (hrow : MbxRow i fn clear refuse cmd may len) (hfw : cmd ≠ 2 ∨ s.mgt.fw = none) :
    ∃ f, exec i s = .next (s.mbxServe fn cmd may len f) := by
  obtain ⟨rfl, rfl, rfl, rfl⟩ | ⟨rfl, rfl, rfl, rfl⟩ | ⟨rfl, rfl, rfl, rfl⟩ | ⟨rfl, rfl, rfl, rfl⟩ |
    ⟨rfl, rfl, rfl, rfl⟩ | ⟨rfl, rfl, rfl, rfl⟩ | ⟨rfl, rfl, rfl, rfl⟩ | ⟨rfl, rfl, rfl, rfl⟩ |
    ⟨rfl, rfl, rfl, rfl⟩ | ⟨rfl, rfl, rfl, rfl⟩ | ⟨rfl, rfl, rfl, rfl⟩ := hrow
  case inr.inl =>
    refine ⟨fun s => s.fwRequest fn, ?_⟩
    have hexec : exec (.mbxFwLoad fn false) s = execMbxFwLoad fn false s := rfl
    have hnone : s.mgt.fw = none := hfw.resolve_left fun h => h rfl
    rw [hexec, execMbxFwLoad, hnone]
    rfl
  all_goals exact ⟨_, rfl⟩

theorem requests_turned_away (i : Instr) (fn : Func) (clear refuse : Bool) (cmd : Nat) (may : Bool) (len : Nat)
    (s : State) (hrow : MbxRow i fn clear refuse cmd may len) (hfw : cmd ≠ 2 ∨ s.mgt.fw = none) :
    (s.mbxFirst fn = false → exec i s = .next s)
    ∧ (s.mbxFirst fn = true →
      (∀ r, s.mbxTurned fn = some r → ∃ t, exec i s = .next t ∧ Answered s t fn r []
        ∧ t.reg = s.reg ∧ SameStores s t)
      ∧ (s.mbxTurned fn = none → s.mbxCmd fn ≠ cmd → exec i s = .next s)
      ∧ (s.mbxTurned fn = none → s.mbxCmd fn = cmd → may = false → ∃ t, exec i s = .next t
        ∧ Answered s t fn 3 [] ∧ t.reg = s.reg ∧ SameStores s t)
      ∧ (s.mbxTurned fn = none → s.mbxCmd fn = cmd → may = true →
        248 < s.mbxLen fn ∨ s.mbxLen fn < len → ∃ t, exec i s = .next t
          ∧ Answered s t fn 2 [] ∧ t.reg = s.reg ∧ SameStores s t)) := by
  obtain ⟨f, hexec⟩ := exec_of_mbxRow hrow hfw
  have haway (hfirst : s.mbxFirst fn = true) (r : Nat) (hserve : s.mbxServe fn cmd may len f = s.mbxAnswer fn r []) :
      ∃ t, exec i s = .next t ∧ Answered s t fn r [] ∧ t.reg = s.reg ∧ SameStores s t := by
    obtain ⟨hanswered, hreg, -, hstores⟩ := State.turned_away (State.busy_of_mbxFirst hfirst) r
    exact ⟨_, hserve ▸ hexec, hanswered, hreg, hstores⟩
  exact ⟨fun h => by rw [hexec, State.mbxServe_later h], fun h =>
    ⟨fun r hr => haway h r (State.mbxServe_turned h hr),
      fun hr hcmd => by rw [hexec, State.mbxServe_other h hr hcmd],
      fun hr hcmd hmay => haway h 3 (State.mbxServe_denied h hr hcmd hmay),
      fun hr hcmd hmay hlen => haway h 2 (State.mbxServe_badLen h hr hcmd hmay hlen)⟩⟩

/-- VERSION (R686). -/
theorem version_answers (fn : Func) (s : State) (h : Served s fn 1 0) : ∃ t, exec (.mbxVersion fn) s = .next t
    ∧ Answered s t fn 0 s.versionBytes ∧ t.reg = s.reg ∧ SameStores s t := by
  have hexec : exec (.mbxVersion fn) s =
      .next (s.mbxServe fn 1 true 0 fun s => s.mbxAnswer fn mbxOk s.versionBytes) := rfl
  rw [State.mbxServe_served h] at hexec
  have hreply := s.replied fn mbxOk s.versionBytes
  exact ⟨_, hexec, State.answered (.refl (State.busy_of_served h)) 0 _, hreply.reg, hreply.sameStores⟩

end Line

end Sys2Proof.Machine
end

/-! ## The mailboxes: loads of Jusia (O54) -/

section

namespace Sys2Proof.Machine

open Sys2Proof Sys2Proof.Claims

section Firmware

variable {s u t : State} {fn : Func}

/-! ### The state that the firmware shows (R688) -/

theorem State.setFw_rules (s : State) {st : Nat} (hst : st ≤ 3) :
    (s.setFw st).fwState = st ∧ Replied (s.setF fMgtFwstatState st) (s.setFw st)
      ∧ (∀ g : Func, (s.setFw st).mbxBit g 3 = decide (st = fwRunning))
      ∧ ∀ g : Func, Asked u s g → Asked u (s.setFw st) g := by
  have hreply : Replied (s.setF fMgtFwstatState st) (s.setFw st) := (Replied.mbxSet _ _ _ _).trans (.mbxSet _ _ _ _)
  refine ⟨?_, hreply, fun g => ?_, fun g hg => ?_⟩
  · rw [hreply.fwState, State.fwState, State.getF_setF_same _ _ _ (by decide), Nat.mod_eq_of_lt]
    show st < 4
    omega
  · rw [State.setFw, State.mbxBit_mbxSet _ _ _ _ (by decide), State.mbxBit_mbxSet _ _ _ _ (by decide)]
    fin_cases g <;> simp
  · have hset : Asked u (s.setF fMgtFwstatState st) g := ⟨hg.busy, hg.seq, hg.mask⟩
    exact (hset.mbxSet 0 _ (by decide)).mbxSet 1 _ (by decide)

theorem State.host_setFw (s : State) (st : Nat) : (s.setFw st).host = s.host := by
  rw [State.setFw, State.mbxSet, State.wr4_host, State.mbxSet, State.wr4_host, State.setF_host]

/-- The check of a Jusia image reads the fuses and IMG_KEYS alone. -/
theorem State.fwCheck_congr (h : t.fuses = s.fuses) (hkeys : t.rd rImgKeys = s.rd rImgKeys) (b : List Byte) :
    t.fwCheck b = s.fwCheck b := by
  have hvendor : t.getF fImgKeysVendor = s.getF fImgKeysVendor := State.getF_of_rd_eq hkeys
  have howner : t.getF fImgKeysOwner = s.getF fImgKeysOwner := State.getF_of_rd_eq hkeys
  have hrevoked : t.getF fImgKeysRevoked = s.getF fImgKeysRevoked := State.getF_of_rd_eq hkeys
  have hkey : t.keyOk = s.keyOk := by
    funext cls pub
    rw [State.keyOk, h, State.bitF, hvendor, howner, hrevoked, State.keyOk, State.bitF]
  have hsig : t.sigStatus = s.sigStatus := by
    funext msg g
    rw [State.sigStatus, hkey, State.sigStatus]
  rw [State.fwCheck, hsig, h, State.fwCheck]

/-- The version of a Jusia image is noted. -/
def State.versioned (s : State) (b : List Byte) : State :=
  { s with mgt := { s.mgt with
    version := BitVec.ofNat 32 (fieldLe b 12 4), svn := BitVec.ofNat 16 (fieldLe b 16 2) } }

theorem State.versioned_rules (s : State) (b : List Byte) :
    (s.versioned b).bar4 = s.bar4 ∧ SameStores s (s.versioned b) := ⟨rfl, rfl, rfl, rfl, rfl, rfl, rfl, rfl⟩

theorem Asked.same_bar4 {g : Func} (h : Asked s u g) (hbar : t.bar4 = u.bar4) : Asked s t g := by
  have hrd (p : Nat) : t.rd4 g p = u.rd4 g p := by rw [State.rd4, hbar, State.rd4]
  exact ⟨by rw [State.mbxBusy, State.mbxBit, hrd]; exact h.busy, (hrd _).trans h.seq, (hrd _).trans h.mask⟩

theorem State.sameStores_setFw (s : State) {st : Nat} (hst : st ≤ 3) : SameStores s (s.setFw st) := by
  obtain ⟨-, hreply, -, -⟩ := s.setFw_rules (u := s) hst
  exact sameStores_trans (s.setF_rules _ _).2 hreply.sameStores

/-- What a verified image shows. -/
theorem State.fwStart_rules (s : State) (b : List Byte) :
    (s.fwStart b).fwState = fwRunning ∧ (s.fwStart b).mgt = (s.versioned b).mgt
      ∧ (∀ g : Func, (s.fwStart b).mbxBit g 3 = true) ∧ SameStores s (s.fwStart b)
      ∧ ∀ g : Func, Asked u s g → Asked u (s.fwStart b) g := by
  have heq : s.fwStart b = (s.versioned b).setFw fwRunning := rfl
  obtain ⟨hbar, hstores⟩ := s.versioned_rules b
  obtain ⟨hstate, hreply, hbits, hasked⟩ := (s.versioned b).setFw_rules (u := u) (st := fwRunning) (by decide)
  rw [heq]
  exact ⟨hstate, by rw [hreply.mgt, State.setF_mgt], hbits,
    sameStores_trans hstores (State.sameStores_setFw _ (by decide)), fun g hg => hasked g (hg.same_bar4 hbar)⟩

/-! ### The end of a load from a drive (R689) -/

theorem Replied.fwAnswer (s : State) (f : FwLoad) (r : Nat) : Replied s (s.fwAnswer f r) := by
  unfold State.fwAnswer
  split
  · exact s.replied _ r []
  · rfl

theorem State.mbxBit_fwAnswer (s : State) (f : FwLoad) (r : Nat) (g : Func) :
    (s.fwAnswer f r).mbxBit g 3 = s.mbxBit g 3 := by
  unfold State.fwAnswer
  split
  · exact s.mbxBit_mbxAnswer _ g r (by decide) (by decide) (by decide)
  · rfl

theorem State.answered_fwAnswer {f : FwLoad} {g : Func} (hfn : f.fn = some g) (h : Asked u s g) (r : Nat) :
    Answered u (s.fwAnswer f r) g r [] := by
  rw [State.fwAnswer, hfn]
  exact State.answered h r []

/-- The firmware as it was before a load that has ended. -/
def State.fwBack (s : State) (f : FwLoad) : State := s.fwDrop.setFw f.was

theorem State.fwBack_rules (s : State) {f : FwLoad} (hwas : f.was ≤ 3) :
    (s.fwBack f).fwState = f.was ∧ (s.fwBack f).mgt = { s.mgt with fw := none } ∧ SameStores s (s.fwBack f)
      ∧ (∀ b, (s.fwBack f).fwCheck b = s.fwCheck b) ∧ ∀ g : Func, s.mbxBusy g = true → Asked s (s.fwBack f) g := by
  obtain ⟨hbar, -, hreg, hfuses, hmgt, hstores⟩ := s.fwDrop_rules
  obtain ⟨hstate, hreply, -, hasked⟩ := s.fwDrop.setFw_rules (u := s) hwas
  refine ⟨hstate, by rw [State.fwBack, hreply.mgt, State.setF_mgt, hmgt],
    sameStores_trans hstores (State.sameStores_setFw _ hwas), State.fwCheck_congr ?_ ?_,
    fun g hg => hasked g (.of_bar4 hg hbar)⟩
  · rw [State.fwBack, hreply.fuses, State.setF_fuses, hfuses]
  · have hne : fMgtFwstatState.off ≠ rImgKeys := by decide
    rw [State.fwBack, State.rd, hreply.reg, ← State.rd, State.rd_setF_ne _ _ _ hne, State.rd, hreg, ← State.rd]

/-- The state that a finished read of an image leaves, before the answer: `r` is the result of its check. -/
def State.fwJudged (s : State) (b : List Byte) (r : Nat) : State := if r = mbxOk then s.fwStart b else s

theorem fwLoad_ends (fn : Func) (auto : Bool) (f : FwLoad) (s : State) (hfw : s.mgt.fw = some f) (hwas : f.was ≤ 3) :
    (f.failed = false → s.useBusy NvmeUse.ofFw = true → exec (.mbxFwLoad fn auto) s = .next s)
      ∧ (f.failed = true ∨ s.useBusy NvmeUse.ofFw = false →
        ∃ t, exec (.mbxFwLoad fn auto) s = .next t ∧ t.mgt.fw = none ∧ SameStores s t
          ∧ (f.failed = true ∨ s.fwCheck f.bytes ≠ 0 → t.fwState = f.was ∧ t.mgt.version = s.mgt.version)
          ∧ (f.failed = false → s.fwCheck f.bytes = 0 → t.fwState = fwRunning
            ∧ t.mgt.version = BitVec.ofNat 32 (fieldLe f.bytes 12 4)
            ∧ t.mgt.svn = BitVec.ofNat 16 (fieldLe f.bytes 16 2)
            ∧ t.mbxBit 0 3 = true ∧ t.mbxBit 1 3 = true)
          ∧ ∀ g, f.fn = some g → s.mbxBusy g = true →
            Answered s t g (if f.failed then 8 else s.fwCheck f.bytes) []) := by
  have hexec : exec (.mbxFwLoad fn auto) s = .next (s.fwEnd f) := by
    have h : exec (.mbxFwLoad fn auto) s = execMbxFwLoad fn auto s := rfl
    rw [h, execMbxFwLoad, hfw]
  obtain ⟨hstate, hmgt, hstores, hcheck, hasked⟩ := s.fwBack_rules hwas
  refine ⟨fun hok hbusy => ?_, fun hend => ⟨_, hexec, ?_⟩⟩
  · rw [hexec, State.fwEnd, if_neg (by simp [hok]), if_pos hbusy]
  · cases hfailed : f.failed
    · have hdone : s.useBusy NvmeUse.ofFw = false := hend.resolve_left (by simp [hfailed])
      have heq : s.fwEnd f = ((s.fwBack f).fwJudged f.bytes (s.fwCheck f.bytes)).fwAnswer f (s.fwCheck f.bytes) := by
        rw [State.fwEnd, if_neg (by simp [hfailed]), if_neg (by simp [hdone])]
        dsimp only
        rw [State.fwTake, ← State.fwBack, hcheck]
        rfl
      rw [heq]
      have hreply := Replied.fwAnswer ((s.fwBack f).fwJudged f.bytes (s.fwCheck f.bytes)) f (s.fwCheck f.bytes)
      have hbits := State.mbxBit_fwAnswer ((s.fwBack f).fwJudged f.bytes (s.fwCheck f.bytes)) f (s.fwCheck f.bytes)
      rw [hreply.mgt, hreply.fwState, hbits, hbits]
      by_cases hr : s.fwCheck f.bytes = 0
      · obtain ⟨hrun, hversion, hfwbits, hstartS, hstartA⟩ := (s.fwBack f).fwStart_rules (u := s) f.bytes
        have hjudged : (s.fwBack f).fwJudged f.bytes (s.fwCheck f.bytes) = (s.fwBack f).fwStart f.bytes := if_pos hr
        have hmgt' : ((s.fwBack f).versioned f.bytes).mgt = { (s.fwBack f).mgt with
          version := BitVec.ofNat 32 (fieldLe f.bytes 12 4), svn := BitVec.ofNat 16 (fieldLe f.bytes 16 2) } := rfl
        rw [hmgt', hmgt] at hversion
        rw [hjudged] at hreply ⊢
        rw [hversion]
        refine ⟨rfl, sameStores_trans (sameStores_trans hstores hstartS) hreply.sameStores,
          fun h => (h.elim (by simp) fun h => absurd hr h), fun _ _ => ⟨hrun, rfl, rfl, hfwbits 0, hfwbits 1⟩,
          fun g hg hbusy => ?_⟩
        exact State.answered_fwAnswer hg (hstartA g (hasked g hbusy)) _
      · have hjudged : (s.fwBack f).fwJudged f.bytes (s.fwCheck f.bytes) = s.fwBack f := if_neg hr
        rw [hjudged] at hreply ⊢
        rw [hmgt]
        exact ⟨rfl, sameStores_trans hstores hreply.sameStores, fun _ => ⟨hstate, rfl⟩, fun _ h => absurd h hr,
          fun g hg hbusy => State.answered_fwAnswer hg (hasked g hbusy) _⟩
    · have heq : s.fwEnd f = (s.fwBack f).fwAnswer f mbxIoErr := by
        rw [State.fwEnd, if_pos hfailed]
        rfl
      rw [heq]
      have hreply := Replied.fwAnswer (s.fwBack f) f mbxIoErr
      rw [hreply.mgt, hmgt, hreply.fwState]
      exact ⟨rfl, sameStores_trans hstores hreply.sameStores, fun _ => ⟨hstate, rfl⟩, fun h => (by cases h),
        fun g hg hbusy => State.answered_fwAnswer hg (hasked g hbusy) _⟩

end Firmware

end Sys2Proof.Machine
end

/-! ## The mailboxes: the Reads of an image (O54) -/

section

namespace Sys2Proof.Machine

open Sys2Proof Sys2Proof.Claims

section Drive

variable {s t u : State} {n : Nat}

/-! ### What commands to a drive leave alone -/

/-- A step that sends commands to drives: their queue entries go into device memory. -/
structure Shipped (s t : State) : Prop where
  hushed : Hushed s t
  cores : t.cores = s.cores
  pending : t.pending = s.pending
  mgt : t.mgt = s.mgt
  loader : t.loader = s.loader
  rd : ∀ o < 0x500100, t.rd o = s.rd o

theorem Shipped.refl (s : State) : Shipped s s := ⟨.refl s, rfl, rfl, rfl, rfl, fun _ _ => rfl⟩

theorem Shipped.trans (h : Shipped s t) (k : Shipped t u) : Shipped s u :=
  ⟨h.hushed.trans k.hushed, k.cores.trans h.cores, k.pending.trans h.pending, k.mgt.trans h.mgt,
    k.loader.trans h.loader, fun o ho => (k.rd o ho).trans (h.rd o ho)⟩

theorem Shipped.setDrive (s : State) (n : Nat) (x : DriveSt) : Shipped s (s.setDrive n x) :=
  ⟨.of_parts rfl rfl rfl, rfl, rfl, rfl, rfl, fun _ _ => rfl⟩

theorem Shipped.emit (s : State) (m : Out) : Shipped s (s.emit m) :=
  ⟨.of_parts rfl rfl rfl, rfl, rfl, rfl, rfl, fun _ _ => rfl⟩

theorem LogFrame.mgt (h : LogFrame s t) : t.mgt = s.mgt := by rw [h]
theorem LogFrame.loader (h : LogFrame s t) : t.loader = s.loader := by rw [h]
theorem LogFrame.drives (h : LogFrame s t) : t.drives = s.drives := by rw [h]

/-- A write of device memory is its reports and its bytes. -/
theorem State.memWrite_parts (s : State) (who : Acc) (a : Nat) (l : List Byte) :
    ∃ v, LogFrame s v ∧ (s.memWrite who a l).cores = v.cores ∧ (s.memWrite who a l).pending = v.pending
      ∧ (s.memWrite who a l).mgt = v.mgt ∧ (s.memWrite who a l).loader = v.loader
      ∧ (s.memWrite who a l).drives = v.drives :=
  ⟨_, .eccReport s who 256 _ _, rfl, rfl, rfl, rfl, rfl⟩

theorem Shipped.memWrite (s : State) (who : Acc) (a : Nat) (l : List Byte) : Shipped s (s.memWrite who a l) := by
  obtain ⟨v, hlog, hcores, hpending, hmgt, hloader, -⟩ := s.memWrite_parts who a l
  refine ⟨.memWrite s who a l, hcores.trans hlog.cores, hpending.trans hlog.pending, hmgt.trans hlog.mgt,
    hloader.trans hlog.loader, fun o ho => s.rd_memWrite who a l (Nat.lt_trans ho (by decide)) fun k => ?_⟩
  unfold rMemEcc
  omega

theorem State.drives_memWrite (s : State) (who : Acc) (a : Nat) (l : List Byte) :
    (s.memWrite who a l).drives = s.drives := by
  obtain ⟨v, hlog, -, -, -, -, hdrives⟩ := s.memWrite_parts who a l
  exact hdrives.trans hlog.drives

/-! ### The commands of a drive, whether they wait or have been sent -/

/-- What a command asks of its drive, which its place in a queue does not change. -/
def NvmeCmd.order (c : NvmeCmd) : BitVec 16 × Nat × W64 × Nat × NvmeUse := (c.cid, c.opc, c.lba, c.blocks, c.use)

/-- The commands of a drive. -/
def DriveSt.orders (d : DriveSt) : List (BitVec 16 × Nat × W64 × Nat × NvmeUse) := d.cmds.map NvmeCmd.order

/-- Sending a command, where no two have the same number, leaves what the commands ask. -/
theorem State.nvmePlace_rules (s : State) {c : NvmeCmd} (hc : c ∈ (s.drive n).cmds)
    (hdistinct : ((s.drive n).cmds.map (·.cid)).Nodup) :
    Shipped s (s.nvmePlace n c) ∧ ((s.nvmePlace n c).drive n).orders = (s.drive n).orders
      ∧ ((s.nvmePlace n c).drive n).nextCid = (s.drive n).nextCid := by
  unfold State.nvmePlace
  extract_lets d k a c1 s1 sqe
  have hs1 : Shipped s s1 := .setDrive ..
  have hdrive : s1.drive n = _ := State.drive_setDrive s n _
  have horder : ∀ x ∈ d.cmds, (if x.cid = c.cid then c1 else x).order = x.order := by
    intro x hx
    split_ifs with hcid
    · obtain rfl : x = c := List.inj_on_of_nodup_map hdistinct hx hc hcid
      rfl
    · rfl
  have horders : (s1.drive n).orders = (s.drive n).orders := by
    rw [hdrive, DriveSt.orders, List.map_map]
    exact List.map_congr_left horder
  have hcid : (s1.drive n).nextCid = (s.drive n).nextCid := by
    rw [hdrive]
  clear_value s1
  have hmem (v : State) (a : Nat) (l : List Byte) : (v.memWrite .save a l).drive n = v.drive n := by
    rw [State.drive, State.drives_memWrite, State.drive]
  refine ⟨((hs1.trans (.memWrite _ _ _ _)).trans (.memWrite _ _ _ _)).trans (.emit _ _), ?_, ?_⟩
  · rw [State.emit_drive, hmem, hmem, horders]
  · rw [State.emit_drive, hmem, hmem, hcid]

theorem DriveSt.map_cid (d : DriveSt) : d.cmds.map (·.cid) = d.orders.map (·.1) := by
  rw [DriveSt.orders, List.map_map]
  rfl

theorem State.nvmePump_rules (k : Nat) (s : State) (hdistinct : ((s.drive n).orders.map (·.1)).Nodup) :
    Shipped s (s.nvmePump n k) ∧ ((s.nvmePump n k).drive n).orders = (s.drive n).orders
      ∧ ((s.nvmePump n k).drive n).nextCid = (s.drive n).nextCid := by
  induction k generalizing s with
  | zero => exact ⟨.refl s, rfl, rfl⟩
  | succ k ih =>
    rw [State.nvmePump]
    split
    · exact ⟨.refl s, rfl, rfl⟩
    next c hnext =>
      obtain ⟨hship, horders, hcid⟩ := s.nvmePlace_rules (n := n) (List.mem_of_find?_eq_some hnext)
        (by rw [DriveSt.map_cid]; exact hdistinct)
      obtain ⟨kship, korders, kcid⟩ := ih (s.nvmePlace n c) (by rw [horders]; exact hdistinct)
      exact ⟨hship.trans kship, korders.trans horders, kcid.trans hcid⟩

/-- The pump whatever the numbers are. -/
theorem Shipped.nvmePump (k : Nat) (s : State) : Shipped s (s.nvmePump n k) := by
  induction k generalizing s with
  | zero => exact .refl s
  | succ k ih =>
    rw [State.nvmePump]
    split
    · exact .refl s
    next c _ =>
      refine Shipped.trans ?_ (ih _)
      unfold State.nvmePlace
      extract_lets d j a c1 s1 sqe
      have hs1 : Shipped s s1 := .setDrive ..
      exact ((hs1.trans (.memWrite _ _ _ _)).trans (.memWrite _ _ _ _)).trans (.emit _ _)

theorem Shipped.nvmeIssue (s : State) (n opc : Nat) (lba : W64) (blocks : Nat) (fua : Bool) (addr : Option W64)
    (data : List Byte) (use : NvmeUse) : Shipped s (s.nvmeIssue n opc lba blocks fua addr data use) :=
  (Shipped.setDrive s n _).trans (.nvmePump 64 _)

theorem Shipped.readParts (lba : W64) (blocks : Nat) (addr : Nat → Option W64) (use : Nat → NvmeUse) (m : Nat) :
    ∀ (j : Nat) (s : State), Shipped s (s.readParts n lba blocks addr use m j) := by
  intro j
  induction j with
  | zero => exact Shipped.refl
  | succ j ih => exact fun s => (Shipped.nvmeIssue s _ _ _ _ _ _ _ _).trans (ih _)

/-- The Read of part `k` of an image. -/
def readOrder (cid : BitVec 16) (lba : W64) (blocks : Nat) (use : Nat → NvmeUse) (k : Nat) :
    BitVec 16 × Nat × W64 × Nat × NvmeUse :=
  (cid + BitVec.ofNat 16 k, opRead, lba + BitVec.ofNat 64 (32 * k), min 32 (blocks - 32 * k), use k)

theorem nodup_readOrders (cid : BitVec 16) (lba : W64) (blocks : Nat) (use : Nat → NvmeUse) {m : Nat} (hm : m ≤ 2 ^ 16) :
    (((List.range m).map (readOrder cid lba blocks use)).map (·.1)).Nodup := by
  rw [List.map_map]
  refine List.Nodup.map_on (fun i hi j hj h => ?_) List.nodup_range
  have hij : BitVec.ofNat 16 i = BitVec.ofNat 16 j := by simpa [readOrder] using h
  rw [List.mem_range] at hi hj
  have hval := congrArg BitVec.toNat hij
  rwa [BitVec.toNat_ofNat, BitVec.toNat_ofNat, Nat.mod_eq_of_lt (by omega), Nat.mod_eq_of_lt (by omega)] at hval

theorem State.nvmeIssue_rules (s : State) {cid : BitVec 16} (lba : W64) (blocks : Nat) (addr : Option W64)
    (use : Nat → NvmeUse) {k : Nat} (hk : k < 2 ^ 16)
    (horders : (s.drive n).orders = (List.range k).map (readOrder cid lba blocks use))
    (hcid : (s.drive n).nextCid = cid + BitVec.ofNat 16 k) :
    let t := s.nvmeIssue n opRead (lba + BitVec.ofNat 64 (32 * k)) (min 32 (blocks - 32 * k)) false addr [] (use k)
    (t.drive n).orders = (List.range (k + 1)).map (readOrder cid lba blocks use)
      ∧ (t.drive n).nextCid = cid + BitVec.ofNat 16 (k + 1) := by
  intro t
  unfold t State.nvmeIssue
  extract_lets d
  generalize hv : s.setDrive n _ = v
  have hdrive := congrArg (State.drive · n) hv
  rw [State.drive_setDrive] at hdrive
  have hvorders : (v.drive n).orders = (List.range (k + 1)).map (readOrder cid lba blocks use) := by
    rw [← hdrive, List.range_succ, List.map_append, ← horders, DriveSt.orders, List.map_append]
    rw [DriveSt.orders, List.map_singleton, List.map_singleton, NvmeCmd.order, readOrder, hcid]
  have hvcid : (v.drive n).nextCid = cid + BitVec.ofNat 16 (k + 1) := by
    rw [← hdrive]
    show (s.drive n).nextCid + 1 = _
    rw [hcid, BitVec.ofNat_add, BitVec.add_assoc]
    rfl
  obtain ⟨-, korders, kcid⟩ := v.nvmePump_rules 64 (by rw [hvorders]; exact nodup_readOrders _ _ _ _ (by omega))
  exact ⟨korders.trans hvorders, kcid.trans hvcid⟩

theorem State.readParts_rules {cid : BitVec 16} (lba : W64) (blocks : Nat) (addr : Nat → Option W64)
    (use : Nat → NvmeUse) {m : Nat} (hm : m ≤ 2 ^ 16) :
    ∀ (j : Nat) (s : State), j ≤ m → (s.drive n).orders = (List.range (m - j)).map (readOrder cid lba blocks use) →
      (s.drive n).nextCid = cid + BitVec.ofNat 16 (m - j) →
      ((s.readParts n lba blocks addr use m j).drive n).orders = (List.range m).map (readOrder cid lba blocks use) := by
  intro j
  induction j with
  | zero => exact fun s _ horders _ => horders
  | succ j ih =>
    intro s hj horders hcid
    obtain ⟨iorders, icid⟩ := s.nvmeIssue_rules lba blocks (addr (m - (j + 1))) use (by omega) horders hcid
    rw [show m - (j + 1) + 1 = m - j by omega] at iorders icid
    exact ih _ (by omega) iorders icid

/-- The Reads of a drive that has no other command. -/
theorem State.readParts_all (s : State) (lba : W64) (blocks : Nat) (addr : Nat → Option W64) (use : Nat → NvmeUse)
    {m : Nat} (hm : m ≤ 2 ^ 16) (hnone : (s.drive n).cmds = []) {k : Nat} (hk : k < m) :
    ∃ x ∈ ((s.readParts n lba blocks addr use m m).drive n).cmds, x.opc = opRead ∧ x.use = use k
      ∧ x.lba = lba + BitVec.ofNat 64 (32 * k) ∧ x.blocks = min 32 (blocks - 32 * k) := by
  have horders := State.readParts_rules (n := n) (cid := (s.drive n).nextCid) lba blocks addr use hm m s (Nat.le_refl m)
    (by rw [Nat.sub_self, DriveSt.orders, hnone]; rfl) (by rw [Nat.sub_self]; simp)
  have hin : readOrder (s.drive n).nextCid lba blocks use k ∈
      ((s.readParts n lba blocks addr use m m).drive n).orders := by
    rw [horders]
    exact List.mem_map_of_mem (List.mem_range.2 hk)
  obtain ⟨x, hx, horder⟩ := List.mem_map.1 hin
  obtain ⟨-, hopc, hlba, hblocks, huse⟩ : x.cid = _ ∧ x.opc = opRead ∧ x.lba = lba + BitVec.ofNat 64 (32 * k)
      ∧ x.blocks = min 32 (blocks - 32 * k) ∧ x.use = use k := by
    simpa [NvmeCmd.order, readOrder] using horder
  exact ⟨x, hx, hopc, huse, hlba, hblocks⟩

end Drive

/-! ### FW_LOAD (R689, R703) -/

section FwLoad

variable {s : State}

/-- A load of Jusia is noted. -/
def State.fwNoted (s : State) (f : FwLoad) : State := { s with mgt := { s.mgt with fw := some f } }

theorem State.fwNoted_rules (s : State) (f : FwLoad) : (s.fwNoted f).bar4 = s.bar4 ∧ (s.fwNoted f).host = s.host
    ∧ (s.fwNoted f).cores = s.cores ∧ (s.fwNoted f).pending = s.pending ∧ (s.fwNoted f).drives = s.drives :=
  ⟨rfl, rfl, rfl, rfl, rfl⟩

theorem State.fwBegin_rules (s : State) (fn : Option Func) (n : Nat) (lba : W64) (len : Option Nat)
    (hlen : len.getD (2 ^ 24) ≤ 2 ^ 24) :
    FwReading s (s.fwBegin fn n lba len) n lba (len.getD (2 ^ 24))
      ∧ (s.fwBegin fn n lba len).mgt = { s.mgt with fw := some ⟨fn, len, s.fwState, [], false⟩ }
      ∧ (s.fwBegin fn n lba len).mbxBit 0 0 = s.mbxBit 0 0 ∧ (s.fwBegin fn n lba len).host.posts = s.host.posts := by
  have heq : s.fwBegin fn n lba len = ((s.fwNoted ⟨fn, len, s.fwState, [], false⟩).setFw fwLoading).readParts n lba
      ((len.getD (2 ^ 24) + 4095) / 4096) (fun _ => none) .fw (((len.getD (2 ^ 24) + 4095) / 4096 + 31) / 32)
      (((len.getD (2 ^ 24) + 4095) / 4096 + 31) / 32) := rfl
  have hmgt : (s.fwNoted ⟨fn, len, s.fwState, [], false⟩).mgt =
      { s.mgt with fw := some ⟨fn, len, s.fwState, [], false⟩ } := rfl
  obtain ⟨hbar, hhost, hcores, hpending, hdrives⟩ := s.fwNoted_rules ⟨fn, len, s.fwState, [], false⟩
  rw [heq]
  generalize s.fwNoted ⟨fn, len, s.fwState, [], false⟩ = v at *
  generalize len.getD (2 ^ 24) = size at *
  have hsent := Shipped.readParts (n := n) lba ((size + 4095) / 4096) (fun _ => none) .fw
    (((size + 4095) / 4096 + 31) / 32) (((size + 4095) / 4096 + 31) / 32) (v.setFw fwLoading)
  have hall := State.readParts_all (n := n) (v.setFw fwLoading) lba ((size + 4095) / 4096) (fun _ => none) .fw
    (m := ((size + 4095) / 4096 + 31) / 32) (by omega)
  generalize (v.setFw fwLoading).readParts n lba ((size + 4095) / 4096) (fun _ => none) .fw
    (((size + 4095) / 4096 + 31) / 32) (((size + 4095) / 4096 + 31) / 32) = t at hsent hall
  obtain ⟨hstate, hreply, hbits, -⟩ := v.setFw_rules (u := v) (st := fwLoading) (by decide)
  have hset : (v.setFw fwLoading).cores = v.cores ∧ (v.setFw fwLoading).pending = v.pending
      ∧ (v.setFw fwLoading).drives = v.drives ∧ (v.setFw fwLoading).mgt = v.mgt := by
    rw [hreply]
    exact ⟨rfl, rfl, rfl, rfl⟩
  obtain ⟨hsetCores, hsetPending, hsetDrives, hsetMgt⟩ := hset
  have hbusy : (v.setFw fwLoading).mbxBit 0 0 = s.mbxBit 0 0 := by
    rw [State.setFw, State.mbxBit_mbxSet _ _ _ _ (by decide), if_neg (by simp), State.mbxBit_mbxSet _ _ _ _ (by decide),
      if_neg (by simp), State.mbxBit, State.setF_rd4, State.rd4, hbar, ← State.rd4, ← State.mbxBit]
  have hfw (g : Func) : t.mbxBit g 3 = false := by
    rw [hsent.hushed.mbxBit, hbits]
    rfl
  refine ⟨⟨?_, hfw 0, hfw 1, hsent.cores.trans (hsetCores.trans hcores),
    hsent.pending.trans (hsetPending.trans hpending), fun hnone k hk => ?_⟩, hsent.mgt.trans (hsetMgt.trans hmgt),
    (hsent.hushed.mbxBit 0 0).trans hbusy, ?_⟩
  · rw [State.fwState, State.getF_of_rd_eq (f := fMgtFwstatState) (hsent.hushed.regs rMgtFwstat (.inr rfl))]
    exact hstate
  · refine hall ?_ hk
    rw [State.drive, hsetDrives, hdrives]
    exact hnone
  · rw [hsent.hushed.posts, State.host_setFw, hhost]

theorem fwAuto_begins (fn : Func) (s : State) (hnone : s.mgt.fw = none) :
    (s.bitF fMgtStrapFwauto = false ∨ s.mgt.booted = true ∨ s.driveReady 0 = false →
        exec (.mbxFwLoad fn true) s = .next s)
      ∧ (s.bitF fMgtStrapFwauto = true → s.mgt.booted = false → s.driveReady 0 = true →
        ∃ t, exec (.mbxFwLoad fn true) s = .next t
        ∧ FwReading s t 0 0 (2 ^ 24) ∧ t.mgt.booted = true
        ∧ t.mgt.fw = some ⟨none, none, s.fwState, [], false⟩) := by
  have hexec : exec (.mbxFwLoad fn true) s = .next s.fwAuto := by
    have h : exec (.mbxFwLoad fn true) s = execMbxFwLoad fn true s := rfl
    rw [h, execMbxFwLoad, hnone]
    rfl
  refine ⟨fun hnot => ?_, fun hstrap hbooted hready => ⟨_, hexec, ?_⟩⟩
  · rw [hexec, State.fwAuto, if_neg]
    rintro ⟨hstrap, hbooted, hready⟩
    simp_all
  · rw [State.fwAuto, if_pos ⟨hstrap, by simp [hbooted], hready⟩]
    obtain ⟨hreading, hmgt, -, -⟩ := State.fwBegin_rules { s with mgt := { s.mgt with booted := true } } none 0 0 none
      (Nat.le_refl _)
    rw [hmgt]
    exact ⟨hreading, rfl, rfl⟩

/-- Memory without a codeword in error reads as it is, and reports nothing. -/
theorem State.memRead_good (h : s.memEcc = []) (who : Acc) (col a n : Nat) :
    (s.memRead who col a n).1.bytes = Tab.lookList (fun _ => 0) s.mem a n ∧ (s.memRead who col a n).1.bad = []
      ∧ (s.memRead who col a n).2 = s := by
  have hread : ramRead s.mem s.memEcc 8 a n = ⟨Tab.lookList (fun _ => 0) s.mem a n, [], []⟩ := by
    simp [ramRead, h, eccIn]
  rw [State.memRead, hread]
  exact ⟨rfl, rfl, rfl⟩

theorem State.fwJudged_bad {b : List Byte} {r : Nat} (h : r ≠ 0) : s.fwJudged b r = s := if_neg h

theorem State.fwJudged_ok (s : State) (b : List Byte) : s.fwJudged b 0 = s.fwStart b := if_pos rfl

theorem State.fwMemory_good (h : s.memEcc = []) {off len : Nat} (hrange : off + len ≤ memTop) :
    s.fwMemory off len = (s.fwCheck (Tab.lookList (fun _ => 0) s.mem off len),
      s.fwJudged (Tab.lookList (fun _ => 0) s.mem off len) (s.fwCheck (Tab.lookList (fun _ => 0) s.mem off len))) := by
  obtain ⟨hbytes, hbad, hstate⟩ := State.memRead_good h .other 256 off len
  rw [State.fwMemory, if_neg (Nat.not_lt.2 hrange)]
  dsimp only
  rw [if_pos hbad, hbytes, hstate]
  rfl

theorem exec_fwLoad_served (h : Served s 0 2 20) (hnone : s.mgt.fw = none) :
    exec (.mbxFwLoad 0 false) s = .next (s.fwRequest 0) := by
  have hexec : exec (.mbxFwLoad 0 false) s = execMbxFwLoad 0 false s := rfl
  have hserve : s.mbxServe 0 2 true 20 (fun s => s.fwRequest 0) = s.fwRequest 0 := State.mbxServe_served h
  rw [hexec, execMbxFwLoad, hnone]
  exact congrArg Host.Outcome.next hserve

/-- FW_LOAD of a request (R689). -/
theorem fwRequest_rules (s : State) (h : Served s 0 2 20) (hnone : s.mgt.fw = none) :
    let f (o n : Nat) : Nat := s.mbxF 0 o n
    let refused (t : State) (r : Nat) : Prop := Answered s t 0 r [] ∧ t.reg = s.reg ∧ t.fuses = s.fuses
      ∧ SameStores s t
    ∃ t, exec (.mbxFwLoad 0 false) s = .next t
      ∧ (s.armed = true → refused t 3)
      ∧ (s.armed = false → f 8 1 = 1 → f 9 1 ≤ 3 → f 24 4 ≤ 2 ^ 24 →
        (s.driveReady (f 9 1) = false → refused t 8)
        ∧ (s.driveReady (f 9 1) = true → FwReading s t (f 9 1) (BitVec.ofNat 64 (f 16 8)) (f 24 4)
          ∧ t.mgt.fw = some ⟨some 0, some (f 24 4), s.fwState, [], false⟩
          ∧ t.mbxBit 0 0 = true ∧ t.host.posts = s.host.posts))
      ∧ (s.armed = false → f 8 1 = 0 → f 24 4 ≤ 2 ^ 24 → s.memEcc = [] → f 16 8 + f 24 4 ≤ memTop →
        let img := Tab.lookList (fun _ => 0) s.mem (f 16 8) (f 24 4)
        (s.fwCheck img ≠ 0 → refused t (s.fwCheck img))
        ∧ (s.fwCheck img = 0 → Answered s t 0 0 [] ∧ t.fwState = fwRunning
          ∧ t.mgt.version = BitVec.ofNat 32 (fieldLe img 12 4)
          ∧ t.mgt.svn = BitVec.ofNat 16 (fieldLe img 16 2)
          ∧ t.mbxBit 0 3 = true ∧ t.mbxBit 1 3 = true)) := by
  intro f refused
  have hbusy := State.busy_of_served h
  have hsrc : s.mbxF 0 8 1 = f 8 1 := rfl
  have hdrive : s.mbxF 0 9 1 = f 9 1 := rfl
  have hoff : s.mbxF 0 16 8 = f 16 8 := rfl
  have hlen : s.mbxF 0 24 4 = f 24 4 := rfl
  clear_value f
  refine ⟨_, exec_fwLoad_served h hnone, fun harmed => ?_, fun harmed h1 hn hl => ⟨fun hready => ?_, fun hready => ?_⟩,
    fun harmed h0 hl hecc hrange => ?_⟩
  · rw [State.fwRequest, if_pos harmed]
    exact State.turned_away hbusy 3
  · simp only [State.fwRequest, harmed, hsrc, hdrive, hoff, hlen, h1, hready]
    rw [if_neg (by simp), if_neg (by omega), if_neg (by simp), if_neg (by simp)]
    exact State.turned_away hbusy 8
  · obtain ⟨hreading, hmgt, hbit, hposts⟩ :=
      s.fwBegin_rules (some 0) (f 9 1) (BitVec.ofNat 64 (f 16 8)) (some (f 24 4)) hl
    simp only [State.fwRequest, harmed, hsrc, hdrive, hoff, hlen, h1, hready]
    rw [if_neg (by simp), if_neg (by omega), if_neg (by simp), if_pos (by simp), hmgt, hbit, hposts]
    exact ⟨hreading, rfl, hbusy, rfl⟩
  · have heq : s.fwRequest 0 = (s.fwMemory (f 16 8) (f 24 4)).2.mbxAnswer 0 (s.fwMemory (f 16 8) (f 24 4)).1 [] := by
      simp only [State.fwRequest, harmed, hsrc, hdrive, hoff, hlen, h0]
      rw [if_neg (by simp), if_neg (by omega), if_pos (by simp)]
    rw [heq, State.fwMemory_good hecc hrange]
    dsimp only
    generalize Tab.lookList (fun _ => (0 : Byte)) s.mem (f 16 8) (f 24 4) = img
    refine ⟨fun hbad => ?_, fun hok => ?_⟩
    · rw [State.fwJudged_bad hbad]
      exact State.turned_away hbusy _
    · obtain ⟨hrun, hmgt, hbits, -, hasked⟩ := s.fwStart_rules (u := s) img
      rw [hok, State.fwJudged_ok]
      have hreply := (s.fwStart img).replied 0 0 []
      rw [hreply.fwState, hreply.mgt, hmgt, State.mbxBit_mbxAnswer _ _ _ _ (by decide) (by decide) (by decide),
        State.mbxBit_mbxAnswer _ _ _ _ (by decide) (by decide) (by decide)]
      exact ⟨State.answered (hasked 0 (.refl hbusy)) 0 [], hrun, rfl, rfl, hbits 0, hbits 1⟩

end FwLoad

end Sys2Proof.Machine
end

/-! ## The mailboxes: the power commands (O54) -/

section

namespace Sys2Proof.Machine

open Sys2Proof Sys2Proof.Claims

/-! ### OPT_POWER (R666) -/

section Switch

variable {s t u : State} {q : Nat}

/-- The supplies' record changes. -/
def State.withPwr (s : State) (p : PwrSt) : State := { s with pwr := p }

theorem State.rd_withPwr (s : State) (p : PwrSt) (o : Nat) : (s.withPwr p).rd o = s.rd o := rfl

/-- A step of switch `q`: the words of BAR4 but the pending bits stand, and so do the registers of the other
switches. -/
structure Switched (q : Nat) (s t : State) : Prop where
  box : ∀ (fn : Func) (o : Nat), o < 0x10000 → o ≠ 0x800 → t.rd4 fn o = s.rd4 fn o
  others : ∀ p < 4, p ≠ q → t.rd (rPwrOptCtl p) = s.rd (rPwrOptCtl p) ∧ t.rd (rPwrOptStat p) = s.rd (rPwrOptStat p)

theorem Switched.refl (s : State) : Switched q s s := ⟨fun _ _ _ _ => rfl, fun _ _ _ => ⟨rfl, rfl⟩⟩

theorem Switched.pwr (s : State) (p : PwrSt) : Switched q s (s.withPwr p) :=
  ⟨fun _ _ _ _ => rfl, fun _ _ _ => ⟨rfl, rfl⟩⟩

theorem Switched.trans (h : Switched q s t) (k : Switched q t u) : Switched q s u :=
  ⟨fun fn o ho hne => (k.box fn o ho hne).trans (h.box fn o ho hne), fun p hp hne =>
    ⟨(k.others p hp hne).1.trans (h.others p hp hne).1, (k.others p hp hne).2.trans (h.others p hp hne).2⟩⟩

theorem watched_opt {p : Nat} (hp : p < 4) : Watched (rPwrOptCtl p) ∧ Watched (rPwrOptStat p) := by
  unfold Watched rPwrOptCtl rPwrOptStat rMgtFwstat
  omega

theorem Hushed.switched (h : Hushed s t) : Switched q s t :=
  ⟨h.box, fun _ hp _ => ⟨h.regs _ (watched_opt hp).1, h.regs _ (watched_opt hp).2⟩⟩

theorem Switched.setCtl (s : State) {f : Fld} (v : Nat) (hf : f.off = rPwrOptCtl q) : Switched q s (s.setF f v) := by
  refine ⟨fun _ _ _ _ => rfl, fun _ _ hne => ⟨State.rd_setF_ne s f v ?_, State.rd_setF_ne s f v ?_⟩⟩ <;> rw [hf] <;>
    unfold rPwrOptCtl
  · omega
  · unfold rPwrOptStat
    omega

theorem Switched.setStat (s : State) {f : Fld} (v : Nat) (hf : f.off = rPwrOptStat q) : Switched q s (s.setF f v) := by
  refine ⟨fun _ _ _ _ => rfl, fun _ _ hne => ⟨State.rd_setF_ne s f v ?_, State.rd_setF_ne s f v ?_⟩⟩ <;> rw [hf] <;>
    unfold rPwrOptStat
  · unfold rPwrOptCtl
    omega
  · omega

theorem rPwrOptStat_ne_ctl (p q : Nat) : rPwrOptStat p ≠ rPwrOptCtl q := by
  unfold rPwrOptStat rPwrOptCtl
  omega

/-- A switch enters a state: its own EN stays. -/
theorem State.setOpt_rules (s : State) (hq : q < 4) {st : Nat} (hst : st < 8) (cause : Nat) :
    Switched q s (s.setOpt q st cause) ∧ (s.setOpt q st cause).opt q = st
      ∧ (s.setOpt q st cause).bitF (fPwrOptCtlEn q) = s.bitF (fPwrOptCtlEn q) := by
  have hleave := Hushed.optLeave s q
  refine ⟨(hleave.switched.trans (.setStat _ _ rfl)).trans (.setStat _ _ rfl), ?_, ?_⟩
  · have hstate : ((s.optLeave q).setF (fPwrOptStatState q) st).getF (fPwrOptStatState q) = st := by
      rw [State.getF_setF_same _ _ _ (by simp [fPwrOptStatState]), Nat.mod_eq_of_lt]
      exact hst
    have hcause : fPwrOptStatCause q = ⟨rPwrOptStat q, 3, 3⟩ := rfl
    rw [State.opt, State.setOpt, State.getF_setF_of_disjoint _ (f := fPwrOptStatState q) (g := fPwrOptStatCause q) _ rfl
      (.inl (by simp [fPwrOptStatState, hcause])), hstate]
  · have hrd : (s.setOpt q st cause).rd (rPwrOptCtl q) = s.rd (rPwrOptCtl q) := by
      rw [State.setOpt, State.rd_setF_ne _ _ _ (rPwrOptStat_ne_ctl q q), State.rd_setF_ne _ _ _ (rPwrOptStat_ne_ctl q q)]
      exact hleave.regs _ (watched_opt hq).1
    rw [State.bitF, State.getF_of_rd_eq (f := fPwrOptCtlEn q) hrd, State.bitF]

theorem State.retryShow_eq (s : State) (q : Nat) :
    s.retryShow q = (s.withPwr { s.pwr with retries := Tab.ins s.pwr.retries q (s.retriesOf q) }).setF
      (fPwrOptStatRetries q) (s.retriesOf q).length := rfl

theorem State.rd_retryShow (s : State) (q : Nat) : (s.retryShow q).rd (rPwrOptCtl q) = s.rd (rPwrOptCtl q) := by
  rw [State.retryShow_eq, State.rd_setF_ne _ _ _ (rPwrOptStat_ne_ctl q q), State.rd_withPwr]

theorem Switched.retryShow (s : State) (q : Nat) : Switched q s (s.retryShow q) := by
  have hset (v : State) (k : Nat) : Switched q v (v.setF (fPwrOptStatRetries q) k) := .setStat v k rfl
  rw [State.retryShow_eq]
  exact Switched.trans (t := s.withPwr { s.pwr with retries := Tab.ins s.pwr.retries q (s.retriesOf q) }) (.pwr s _)
    (hset _ _)

theorem State.retryShow_rules (s : State) (q : Nat) :
    Switched q s (s.retryShow q) ∧ (s.retryShow q).bitF (fPwrOptCtlEn q) = s.bitF (fPwrOptCtlEn q) :=
  ⟨.retryShow s q, by rw [State.bitF, State.getF_of_rd_eq (f := fPwrOptCtlEn q) (s.rd_retryShow q), State.bitF]⟩

theorem State.bitF_withPwr (s : State) (p : PwrSt) (f : Fld) : (s.withPwr p).bitF f = s.bitF f := rfl

/-- EN = 1 leaves the switch's state, or enters a state at once or after a retry. -/
theorem State.optEnable_cases (s : State) (q : Nat) :
    s.optEnable q = (s.setB (fPwrOptCtlEn q) true).retryShow q
      ∨ (∃ st < 8, ∃ cause, s.optEnable q = ((s.setB (fPwrOptCtlEn q) true).retryShow q).setOpt q st cause)
      ∨ ∃ p, s.optEnable q =
        ((((s.setB (fPwrOptCtlEn q) true).retryShow q).withPwr p).retryShow q).setOpt q optRamp 0 := by
  unfold State.optEnable
  dsimp only
  split
  · exact .inl rfl
  · split
    · exact .inr (.inl ⟨optRamp, by decide, 0, rfl⟩)
    · split
      · exact .inr (.inl ⟨optBlocked, by decide, _, rfl⟩)
      · exact .inr (.inr ⟨_, rfl⟩)

theorem State.optEnable_rules (s : State) (hq : q < 4) :
    Switched q s (s.optEnable q) ∧ (s.optEnable q).bitF (fPwrOptCtlEn q) = true := by
  have hen : Switched q s (s.setB (fPwrOptCtlEn q) true) := .setCtl s _ rfl
  have henBit : (s.setB (fPwrOptCtlEn q) true).bitF (fPwrOptCtlEn q) = true :=
    State.bitF_setB_same s _ true (by simp [fPwrOptCtlEn]) rfl
  obtain ⟨hshow, hshowBit⟩ := (s.setB (fPwrOptCtlEn q) true).retryShow_rules q
  have h1 := hen.trans hshow
  have h1Bit := hshowBit.trans henBit
  obtain heq | ⟨st, hst, cause, heq⟩ | ⟨p, heq⟩ := s.optEnable_cases q <;> rw [heq] <;>
    generalize (s.setB (fPwrOptCtlEn q) true).retryShow q = s1 at h1 h1Bit
  · exact ⟨h1, h1Bit⟩
  · obtain ⟨h, -, hkeep⟩ := s1.setOpt_rules hq hst cause
    exact ⟨h1.trans h, hkeep.trans h1Bit⟩
  · obtain ⟨hagain, hagainBit⟩ := (s1.withPwr p).retryShow_rules q
    obtain ⟨h, -, hkeep⟩ := ((s1.withPwr p).retryShow q).setOpt_rules hq (st := optRamp) (by decide) 0
    exact ⟨((h1.trans (.pwr s1 p)).trans hagain).trans h,
      hkeep.trans (hagainBit.trans ((s1.bitF_withPwr p _).trans h1Bit))⟩

/-- A switch that a mailbox command turns off. -/
theorem State.optOff_rules (s : State) (hq : q < 4) :
    Switched q s ((s.setB (fPwrOptCtlEn q) false).setOpt q optOff 0)
      ∧ ((s.setB (fPwrOptCtlEn q) false).setOpt q optOff 0).opt q = optOff
      ∧ ((s.setB (fPwrOptCtlEn q) false).setOpt q optOff 0).bitF (fPwrOptCtlEn q) = false := by
  obtain ⟨h, hopt, hbit⟩ := (s.setB (fPwrOptCtlEn q) false).setOpt_rules hq (st := optOff) (by decide) 0
  exact ⟨(Switched.setCtl s _ rfl).trans h, hopt,
    hbit.trans (State.bitF_setB_same s _ false (by simp [fPwrOptCtlEn]) rfl)⟩

theorem Switched.other (h : Switched q s t) {p : Nat} (hp : p < 4) (hne : p ≠ q) :
    t.bitF (fPwrOptCtlEn p) = s.bitF (fPwrOptCtlEn p) ∧ t.opt p = s.opt p := by
  obtain ⟨hctl, hstat⟩ := h.others p hp hne
  refine ⟨?_, ?_⟩
  · rw [State.bitF, State.getF_of_rd_eq (f := fPwrOptCtlEn p) hctl, State.bitF]
  · rw [State.opt, State.getF_of_rd_eq (f := fPwrOptStatState p) hstat, State.opt]

/-- The switches of an enable mask. -/
def State.optOns (s : State) (on : Nat) (l : List Nat) : State :=
  l.foldl (fun t q => if on.testBit q then t.optEnable q else t) s

/-- The switches of a disable mask. -/
def State.optOffs (s : State) (off : Nat) (l : List Nat) : State :=
  l.foldl (fun t q => if off.testBit q then (t.setB (fPwrOptCtlEn q) false).setOpt q optOff 0 else t) s

theorem State.optOns_rules (on : Nat) (l : List Nat) : ∀ s : State, (∀ q ∈ l, q < 4) →
    (∀ (fn : Func) (o : Nat), o < 0x10000 → o ≠ 0x800 → (s.optOns on l).rd4 fn o = s.rd4 fn o)
      ∧ ∀ p < 4, ((s.optOns on l).bitF (fPwrOptCtlEn p) = if p ∈ l ∧ on.testBit p = true then true
          else s.bitF (fPwrOptCtlEn p))
        ∧ (on.testBit p = false → (s.optOns on l).opt p = s.opt p) := by
  induction l with
  | nil => exact fun s _ => ⟨fun _ _ _ _ => rfl, fun _ _ => ⟨by simp [State.optOns], fun _ => rfl⟩⟩
  | cons q l ih =>
    intro s hl
    have hq : q < 4 := hl q List.mem_cons_self
    obtain ⟨ibox, iregs⟩ := ih (if on.testBit q then s.optEnable q else s) fun p hp => hl p (List.mem_cons_of_mem q hp)
    have hcons : s.optOns on (q :: l) = (if on.testBit q then s.optEnable q else s).optOns on l := rfl
    obtain ⟨hstep, hbit⟩ := s.optEnable_rules hq
    refine ⟨fun fn o ho hne => ?_, fun p hp => ⟨?_, fun hoff => ?_⟩⟩
    · rw [hcons, ibox fn o ho hne]
      split_ifs
      · exact hstep.box fn o ho hne
      · rfl
    · rw [hcons, (iregs p hp).1]
      by_cases hon : on.testBit p = true
      · by_cases hpl : p ∈ l
        · simp [hpl, hon]
        · by_cases hpq : p = q
          · subst hpq
            simp [hpl, hon, hbit]
          · have hother : (if on.testBit q then s.optEnable q else s).bitF (fPwrOptCtlEn p) = s.bitF (fPwrOptCtlEn p) := by
              split_ifs
              · exact (hstep.other hp hpq).1
              · rfl
            simp [hpl, hpq, hother]
      · have hother : (if on.testBit q then s.optEnable q else s).bitF (fPwrOptCtlEn p) = s.bitF (fPwrOptCtlEn p) := by
          split_ifs with honq
          · exact (hstep.other hp fun e => hon (e ▸ honq)).1
          · rfl
        simp [hon, hother]
    · rw [hcons, (iregs p hp).2 hoff]
      split_ifs with honq
      · exact (hstep.other hp fun e => by rw [e, honq] at hoff; cases hoff).2
      · rfl

theorem State.optOffs_rules (off : Nat) (l : List Nat) : ∀ s : State, (∀ q ∈ l, q < 4) →
    (∀ (fn : Func) (o : Nat), o < 0x10000 → o ≠ 0x800 → (s.optOffs off l).rd4 fn o = s.rd4 fn o)
      ∧ ∀ p < 4, ((s.optOffs off l).bitF (fPwrOptCtlEn p) = if p ∈ l ∧ off.testBit p = true then false
          else s.bitF (fPwrOptCtlEn p))
        ∧ (s.optOffs off l).opt p = if p ∈ l ∧ off.testBit p = true then optOff else s.opt p := by
  induction l with
  | nil => exact fun s _ => ⟨fun _ _ _ _ => rfl, fun _ _ => ⟨by simp [State.optOffs], by simp [State.optOffs]⟩⟩
  | cons q l ih =>
    intro s hl
    have hq : q < 4 := hl q List.mem_cons_self
    have hcons : s.optOffs off (q :: l) =
        (if off.testBit q then (s.setB (fPwrOptCtlEn q) false).setOpt q optOff 0 else s).optOffs off l := rfl
    obtain ⟨hstep, hopt, hbit⟩ := s.optOff_rules hq
    obtain ⟨ibox, iregs⟩ := ih (if off.testBit q then (s.setB (fPwrOptCtlEn q) false).setOpt q optOff 0 else s)
      fun p hp => hl p (List.mem_cons_of_mem q hp)
    generalize (s.setB (fPwrOptCtlEn q) false).setOpt q optOff 0 = v at hcons hstep hopt hbit ibox iregs
    refine ⟨fun fn o ho hne => ?_, fun p hp => ?_⟩
    · rw [hcons, ibox fn o ho hne]
      split_ifs
      · exact hstep.box fn o ho hne
      · rfl
    · obtain ⟨ibit, iopt⟩ := iregs p hp
      rw [hcons, ibit, iopt]
      by_cases hself : p = q ∧ off.testBit p = true
      · obtain ⟨rfl, hoff⟩ := hself
        simp [hoff, hopt, hbit]
      · have hkeep : (if off.testBit q then v else s).bitF (fPwrOptCtlEn p) = s.bitF (fPwrOptCtlEn p)
            ∧ (if off.testBit q then v else s).opt p = s.opt p := by
          split_ifs with hoff
          · exact hstep.other hp fun e => hself ⟨e, e ▸ hoff⟩
          · exact ⟨rfl, rfl⟩
        have hmem : (p ∈ q :: l ∧ off.testBit p = true) ↔ (p ∈ l ∧ off.testBit p = true) := by
          rw [List.mem_cons]
          tauto
        rw [hkeep.1, hkeep.2]
        simp only [hmem]
        exact ⟨trivial, trivial⟩

theorem State.mbxOptPower_ok {s : State} {fn : Func} (hon : s.mbxF fn 8 1 ≤ 15) (hoff : s.mbxF fn 9 1 ≤ 15)
    (hand : s.mbxF fn 8 1 &&& s.mbxF fn 9 1 = 0) : s.mbxOptPower fn false =
      ((s.optOns (s.mbxF fn 8 1) (List.range 4)).optOffs (s.mbxF fn 9 1) (List.range 4)).mbxAnswer fn mbxOk [] := by
  rw [State.mbxOptPower]
  dsimp only
  rw [if_neg (by omega), if_neg (by simp)]
  rfl

/-- OPT_POWER (R666, R686). -/
theorem optPower_rules (s : State) (refuse : Bool) (h : Served s 0 4 2) :
    let f (o n : Nat) : Nat := s.mbxF 0 o n
    let refused (t : State) (r : Nat) : Prop := Answered s t 0 r [] ∧ t.reg = s.reg ∧ t.fuses = s.fuses
      ∧ SameStores s t
    ∃ t, exec (.mbxOptPower 0 refuse) s = .next t
      ∧ (15 < f 8 1 ∨ 15 < f 9 1 ∨ f 8 1 &&& f 9 1 ≠ 0 → refused t 2)
      ∧ (f 8 1 ≤ 15 → f 9 1 ≤ 15 → f 8 1 &&& f 9 1 = 0 → (refuse = true → refused t 4)
        ∧ (refuse = false → Answered s t 0 0 [] ∧ ∀ q : Fin 4,
          t.bitF (fPwrOptCtlEn q) = (if (f 8 1).testBit q then true
            else if (f 9 1).testBit q then false else s.bitF (fPwrOptCtlEn q))
          ∧ ((f 9 1).testBit q = true → t.opt q = optOff)
          ∧ ((f 8 1).testBit q = false → (f 9 1).testBit q = false → t.opt q = s.opt q))) := by
  intro f refused
  have hbusy := State.busy_of_served h
  have hexec : exec (.mbxOptPower 0 refuse) s = .next (s.mbxServe 0 4 true 2 fun s => s.mbxOptPower 0 refuse) := rfl
  rw [State.mbxServe_served h] at hexec
  refine ⟨_, hexec, fun hbad => ?_, fun hon hoff hand => ⟨fun hrefuse => ?_, fun hrefuse => ?_⟩⟩
  · rw [State.mbxOptPower, if_pos hbad]
    exact State.turned_away hbusy 2
  · have hgood : ¬ (15 < s.mbxF 0 8 1 ∨ 15 < s.mbxF 0 9 1 ∨ s.mbxF 0 8 1 &&& s.mbxF 0 9 1 ≠ 0) := by
      rintro (h | h | h)
      · exact absurd hon (Nat.not_le.2 h)
      · exact absurd hoff (Nat.not_le.2 h)
      · exact h hand
    rw [State.mbxOptPower, if_neg hgood, if_pos hrefuse]
    exact State.turned_away hbusy 4
  · have hrange : ∀ q ∈ List.range 4, q < 4 := fun q hq => List.mem_range.1 hq
    rw [hrefuse, State.mbxOptPower_ok hon hoff hand]
    obtain ⟨hbox1, hregs1⟩ := State.optOns_rules (s.mbxF 0 8 1) (List.range 4) s hrange
    generalize s.optOns (s.mbxF 0 8 1) (List.range 4) = u at hbox1 hregs1
    obtain ⟨hbox2, hregs2⟩ := State.optOffs_rules (s.mbxF 0 9 1) (List.range 4) u hrange
    generalize u.optOffs (s.mbxF 0 9 1) (List.range 4) = v at hbox2 hregs2
    have hbox (o : Nat) (ho : o < 0x10000) (hne : o ≠ 0x800) : v.rd4 0 o = s.rd4 0 o :=
      (hbox2 0 o ho hne).trans (hbox1 0 o ho hne)
    have hasked : Asked s v 0 := ⟨by
      rw [State.mbxBusy, State.mbxBit, hbox _ (by decide) (by decide)]
      exact hbusy, hbox _ (by decide) (by decide), hbox _ (by decide) (by decide)⟩
    have hreply := v.replied 0 mbxOk []
    refine ⟨State.answered hasked 0 [], fun q => ?_⟩
    obtain ⟨hbit1, hopt1⟩ := hregs1 q q.isLt
    obtain ⟨hbit2, hopt2⟩ := hregs2 q q.isLt
    have hmem : q.val ∈ List.range 4 := List.mem_range.2 q.isLt
    rw [State.bitF, hreply.getF, ← State.bitF, State.opt, hreply.getF, ← State.opt, hbit2, hopt2, hbit1]
    refine ⟨?_, fun hoffq => if_pos ⟨hmem, hoffq⟩, fun honq hoffq => ?_⟩
    · have hboth (honq : (s.mbxF 0 8 1).testBit q = true) : (s.mbxF 0 9 1).testBit q = false := by
        have hbit : (s.mbxF 0 8 1 &&& s.mbxF 0 9 1).testBit q = false := by
          rw [show s.mbxF 0 8 1 &&& s.mbxF 0 9 1 = 0 from hand, Nat.zero_testBit]
        rwa [Nat.testBit_and, honq, Bool.true_and] at hbit
      show _ = if (s.mbxF 0 8 1).testBit q = true then true
        else if (s.mbxF 0 9 1).testBit q = true then false else s.bitF (fPwrOptCtlEn q)
      cases honq : (s.mbxF 0 8 1).testBit q
      · simp [hmem]
      · simp [hmem, hboth honq]
    · rw [if_neg (by simp [show (s.mbxF 0 9 1).testBit q = false from hoffq])]
      exact hopt1 honq

end Switch

end Sys2Proof.Machine
end

/-! ## The mailboxes: the limits, the keys and the grant (O54) -/

section

namespace Sys2Proof.Machine

open Sys2Proof Sys2Proof.Claims

section Commands

variable {s t u : State}

/-! ### CEILING (R658) -/

theorem State.bitF_setF_of_disjoint (s : State) {f g : Fld} (v : Nat) (hoff : g.off = f.off)
    (h : f.lo + f.width ≤ g.lo ∨ g.lo + g.width ≤ f.lo) : (s.setF g v).bitF f = s.bitF f := by
  rw [State.bitF, State.getF_setF_of_disjoint s v hoff h, State.bitF]

/-- Whether a condition of ceiling mode stands. -/
def State.ceilOn (s : State) : Bool := s.bitF fPwrCeilRstart || s.bitF fPwrCeilRdefault || s.bitF fPwrCeilRhalt

theorem State.ceilShow_rules (s : State) :
    (∀ f : Fld, f.off = rPwrCeil → 12 ≤ f.lo → s.ceilShow.getF f = s.getF f)
      ∧ s.ceilShow.bitF fPwrCeilCeiling = s.ceilOn
      ∧ s.ceilShow.getF fPwrCeilLimit = (if s.ceilOn = true then 400 else s.getF fPwrCeilSetlimit)
      ∧ OnlyRegs [rPwrCeil] s s.ceilShow := by
  have heq : s.ceilShow = (s.setB fPwrCeilCeiling s.ceilOn).setF fPwrCeilLimit
      (if s.ceilOn then 400 else s.getF fPwrCeilSetlimit) := rfl
  have hlimit : s.getF fPwrCeilSetlimit < 2 ^ 11 := Nat.mod_lt _ (by decide)
  rw [heq]
  refine ⟨fun f hoff hlo => ?_, ?_, ?_, ?_⟩
  · rw [State.getF_setF_of_disjoint _ _ hoff.symm (.inr (Nat.le_trans (by decide) hlo)), State.setB,
      State.getF_setF_of_disjoint _ _ hoff.symm (.inr (Nat.le_trans (by decide) hlo))]
  · rw [State.bitF_setF_of_disjoint (f := fPwrCeilCeiling) (g := fPwrCeilLimit) _ _ rfl (.inr (by decide)),
      State.bitF_setB_same s fPwrCeilCeiling s.ceilOn (by decide) rfl]
  · rw [State.getF_setF_same _ _ _ (by decide), Nat.mod_eq_of_lt]
    split_ifs
    · decide
    · exact hlimit
  · exact onlyRegs_mono (onlyRegs_trans (onlyRegs_setF s fPwrCeilCeiling _) (onlyRegs_setF _ fPwrCeilLimit _))
      (by simp [fPwrCeilCeiling, fPwrCeilLimit])

/-- SETLIMIT and RSTART as Jusia sets them. -/
def State.ceilSet (s : State) (w : Nat) (clear : Bool) : State :=
  if clear then (s.setF fPwrCeilSetlimit (min w (s.getF fPwrCapLimmax))).setB fPwrCeilRstart false
  else s.setF fPwrCeilSetlimit (min w (s.getF fPwrCapLimmax))

theorem State.ceilSet_rules (s : State) (w : Nat) (clear : Bool) :
    (s.ceilSet w clear).getF fPwrCeilSetlimit = min w (s.getF fPwrCapLimmax) % 2048
      ∧ (s.ceilSet w clear).bitF fPwrCeilRstart = (s.bitF fPwrCeilRstart && !clear)
      ∧ (s.ceilSet w clear).bitF fPwrCeilRdefault = s.bitF fPwrCeilRdefault
      ∧ (s.ceilSet w clear).bitF fPwrCeilRhalt = s.bitF fPwrCeilRhalt
      ∧ OnlyRegs [rPwrCeil] s (s.ceilSet w clear) := by
  have hset : (s.setF fPwrCeilSetlimit (min w (s.getF fPwrCapLimmax))).getF fPwrCeilSetlimit =
      min w (s.getF fPwrCapLimmax) % 2048 := State.getF_setF_same _ _ _ (by decide)
  have hkeep (f : Fld) (hoff : f.off = rPwrCeil) (h : f.lo + f.width ≤ 16) :
      (s.setF fPwrCeilSetlimit (min w (s.getF fPwrCapLimmax))).bitF f = s.bitF f :=
    State.bitF_setF_of_disjoint _ _ hoff.symm (.inl h)
  have honly := onlyRegs_setF s fPwrCeilSetlimit (min w (s.getF fPwrCapLimmax))
  unfold State.ceilSet
  generalize s.setF fPwrCeilSetlimit (min w (s.getF fPwrCapLimmax)) = v at hset hkeep honly
  cases clear
  · rw [if_neg (by simp), hkeep _ rfl (by decide), hkeep _ rfl (by decide), hkeep _ rfl (by decide)]
    exact ⟨hset, by simp, rfl, rfl, honly⟩
  · have hclear (f : Fld) (hoff : f.off = rPwrCeil) (h : 13 ≤ f.lo) :
        (v.setB fPwrCeilRstart false).getF f = v.getF f :=
      State.getF_setF_of_disjoint _ _ hoff.symm (.inr h)
    have hclearBit (f : Fld) (hoff : f.off = rPwrCeil) (h : 13 ≤ f.lo) :
        (v.setB fPwrCeilRstart false).bitF f = v.bitF f := by
      rw [State.bitF, hclear f hoff h, State.bitF]
    rw [if_pos rfl]
    refine ⟨(hclear _ rfl (by decide)).trans hset, ?_, (hclearBit _ rfl (by decide)).trans (hkeep _ rfl (by decide)),
      (hclearBit _ rfl (by decide)).trans (hkeep _ rfl (by decide)),
      onlyRegs_mono (onlyRegs_trans honly (onlyRegs_setF v fPwrCeilRstart 0))
        (by simp [fPwrCeilSetlimit, fPwrCeilRstart])⟩
    rw [State.bitF_setB_same v fPwrCeilRstart false (by decide) rfl, Bool.not_true, Bool.and_false]

theorem State.setCeiling_rules (s : State) (w : Nat) (clear : Bool) :
    let t := s.setCeiling w clear
    t.getF fPwrCeilSetlimit = min w (s.getF fPwrCapLimmax) % 2048
      ∧ t.bitF fPwrCeilRstart = (s.bitF fPwrCeilRstart && !clear)
      ∧ t.bitF fPwrCeilCeiling = (t.bitF fPwrCeilRstart || s.bitF fPwrCeilRdefault || s.bitF fPwrCeilRhalt)
      ∧ t.getF fPwrCeilLimit = (if (t.bitF fPwrCeilRstart || s.bitF fPwrCeilRdefault || s.bitF fPwrCeilRhalt) = true
          then 400 else t.getF fPwrCeilSetlimit)
      ∧ OnlyRegs [rPwrCeil] s t := by
  intro t
  have heq : t = (s.ceilSet w clear).ceilShow := rfl
  obtain ⟨hset, hstart, hdefault, hhalt, honly⟩ := s.ceilSet_rules w clear
  obtain ⟨hkeep, hceil, hlimit, hshow⟩ := (s.ceilSet w clear).ceilShow_rules
  have hrst : (s.ceilSet w clear).ceilShow.bitF fPwrCeilRstart = (s.ceilSet w clear).bitF fPwrCeilRstart := by
    rw [State.bitF, hkeep _ rfl (by decide), State.bitF]
  rw [State.ceilOn, hdefault, hhalt] at hceil hlimit
  rw [heq, hkeep _ rfl (by decide), hrst, hceil, hlimit]
  exact ⟨hset, hstart, rfl, rfl, onlyRegs_mono (onlyRegs_trans honly hshow) (by simp)⟩

/-- A reply to a step that changes registers alone. -/
theorem onlyRegs_replied {l : List Nat} (h : OnlyRegs l s u) (k : Replied u t) :
    OnlyRegs l s { t with bar4 := s.bar4, out := s.out, host := s.host } := by
  obtain ⟨hrd, hframe⟩ := h
  refine ⟨fun o ho => ?_, ?_⟩
  · rw [← hrd o ho, State.rd, State.rd, ← k.reg]
  · rw [k, hframe]

theorem ceiling_rules (s : State) (clear refuse : Bool) (h : Served s 0 3 2) :
    let f (o n : Nat) : Nat := s.mbxF 0 o n
    let refused (t : State) (r : Nat) : Prop := Answered s t 0 r [] ∧ t.reg = s.reg ∧ t.fuses = s.fuses
      ∧ SameStores s t
    ∃ t, exec (.mbxCeiling 0 clear refuse) s = .next t
      ∧ (refuse = true → refused t 4)
      ∧ (refuse = false → Answered s t 0 0 []
        ∧ t.getF fPwrCeilSetlimit = min (f 8 2) (s.getF fPwrCapLimmax) % 2048
        ∧ t.bitF fPwrCeilRstart = (s.bitF fPwrCeilRstart && !clear)
        ∧ (let on := t.bitF fPwrCeilRstart || s.bitF fPwrCeilRdefault || s.bitF fPwrCeilRhalt
          t.bitF fPwrCeilCeiling = on
          ∧ t.getF fPwrCeilLimit = if on = true then 400 else t.getF fPwrCeilSetlimit)
        ∧ OnlyRegs [rPwrCeil] s { t with bar4 := s.bar4, out := s.out, host := s.host }) := by
  intro f refused
  have hbusy := State.busy_of_served h
  have hexec : exec (.mbxCeiling 0 clear refuse) s =
      .next (s.mbxServe 0 3 true 2 fun s => s.mbxCeiling 0 clear refuse) := rfl
  rw [State.mbxServe_served h] at hexec
  refine ⟨_, hexec, fun hrefuse => ?_, fun hrefuse => ?_⟩
  · rw [State.mbxCeiling, if_pos hrefuse]
    exact State.turned_away hbusy 4
  · rw [State.mbxCeiling, if_neg (by simp [hrefuse])]
    obtain ⟨hset, hstart, hceil, hlimit, honly⟩ := s.setCeiling_rules (s.mbxF 0 8 2) clear
    have hasked : Asked s (s.setCeiling (s.mbxF 0 8 2) clear) 0 := .of_bar4 hbusy (by rw [honly.2])
    generalize s.setCeiling (s.mbxF 0 8 2) clear = v at *
    have hreply := v.replied 0 mbxOk []
    have hbit (g : Fld) : (v.mbxAnswer 0 mbxOk []).bitF g = v.bitF g := by
      rw [State.bitF, hreply.getF, State.bitF]
    simp only [hbit, hreply.getF]
    exact ⟨State.answered hasked 0 [], hset, hstart, ⟨hceil, hlimit⟩, onlyRegs_replied honly hreply⟩

/-! ### The keys (R348) -/

theorem State.showKeys_rules (s : State) : s.showKeys.getF fImgKeysOwner = s.fuses.owner.toNat
    ∧ s.showKeys.getF fImgKeysRevoked = s.fuses.revoked.toNat ∧ s.showKeys.fuses = s.fuses
    ∧ s.showKeys.bar4 = s.bar4 := by
  have heq : s.showKeys = (s.setF fImgKeysOwner s.fuses.owner.toNat).setF fImgKeysRevoked s.fuses.revoked.toNat := rfl
  rw [heq]
  refine ⟨?_, ?_, rfl, rfl⟩
  · rw [State.getF_setF_of_disjoint (f := fImgKeysOwner) (g := fImgKeysRevoked) _ _ rfl (.inl (by decide)),
      State.getF_setF_same _ _ _ (by decide), Nat.mod_eq_of_lt]
    exact s.fuses.owner.isLt
  · rw [State.getF_setF_same _ _ _ (by decide), Nat.mod_eq_of_lt]
    exact s.fuses.revoked.isLt

/-- The fuses are blown. -/
def State.blown (s : State) (fz : Fuses) : State := { s with fuses := fz }

theorem State.blown_rules (s : State) (fz : Fuses) : (s.blown fz).fuses = fz ∧ (s.blown fz).bar4 = s.bar4 := ⟨rfl, rfl⟩

/-- The answer to a request that blew fuses. -/
theorem State.answered_blown {fn : Func} (hbusy : s.mbxBusy fn = true) (fz : Fuses) :
    Answered s ((s.blown fz).showKeys.mbxAnswer fn mbxOk []) fn 0 []
      ∧ ((s.blown fz).showKeys.mbxAnswer fn mbxOk []).fuses = fz
      ∧ ((s.blown fz).showKeys.mbxAnswer fn mbxOk []).getF fImgKeysOwner = fz.owner.toNat
      ∧ ((s.blown fz).showKeys.mbxAnswer fn mbxOk []).getF fImgKeysRevoked = fz.revoked.toNat := by
  obtain ⟨howner, hrevoked, hfuses, hbar⟩ := (s.blown fz).showKeys_rules
  obtain ⟨hblown, hblownBar⟩ := s.blown_rules fz
  have hreply := (s.blown fz).showKeys.replied fn mbxOk []
  have hasked : Asked s (s.blown fz).showKeys fn := .of_bar4 hbusy (hbar.trans hblownBar)
  rw [hblown] at howner hrevoked hfuses
  exact ⟨State.answered hasked 0 [], hreply.fuses.trans hfuses, (hreply.getF _).trans howner,
    (hreply.getF _).trans hrevoked⟩

theorem keyProg_rules (s : State) (h : Served s 0 5 145) :
    let f (o n : Nat) : Nat := s.mbxF 0 o n
    let b := s.mbxBytes 0
    let refused (t : State) (r : Nat) : Prop := Answered s t 0 r [] ∧ t.reg = s.reg ∧ t.fuses = s.fuses
      ∧ SameStores s t
    ∃ t, exec (.mbxKeyProg 0) s = .next t
      ∧ (3 < f 8 1 → refused t 2)
      ∧ (f 8 1 ≤ 3 → s.vendorSigned (slice b 8 49) (slice b 57 96) = false → refused t 5)
      ∧ (f 8 1 ≤ 3 → s.vendorSigned (slice b 8 49) (slice b 57 96) = true →
        let held := s.fuses.owner.getLsbD (f 8 1) || s.fuses.revoked.getLsbD (f 8 1)
        (held = true → refused t 4)
        ∧ (held = false → Answered s t 0 0 []
          ∧ t.fuses.owner = s.fuses.owner ||| BitVec.ofNat 4 (2 ^ f 8 1)
          ∧ t.fuses.revoked = s.fuses.revoked ∧ t.getF fImgKeysOwner = t.fuses.owner.toNat
          ∧ t.fuses.keyHash = s.fuses.keyHash.set (f 8 1 + 1) (BitVec.ofNat 384 (beNat (slice b 9 48))))) := by
  intro f b refused
  have hbusy := State.busy_of_served h
  have hexec : exec (.mbxKeyProg 0) s = .next (s.mbxServe 0 5 true 145 fun s => s.keyProg 0) := rfl
  rw [State.mbxServe_served h] at hexec
  have hk : fieldLe (s.mbxBytes 0) 8 1 = f 8 1 := rfl
  have hb : s.mbxBytes 0 = b := rfl
  clear_value f b
  refine ⟨_, hexec, ?_⟩
  rw [State.keyProg]
  dsimp only
  rw [hk, hb]
  refine ⟨fun h3 => ?_, fun h3 hsig => ?_, fun h3 hsig => ⟨fun hheld => ?_, fun hheld => ?_⟩⟩
  · rw [if_pos h3]
    exact State.turned_away hbusy 2
  · rw [if_neg (Nat.not_lt.2 h3), if_pos (by simp [hsig])]
    exact State.turned_away hbusy 5
  · rw [if_neg (Nat.not_lt.2 h3), if_neg (by simp [hsig]), if_pos]
    · exact State.turned_away hbusy 4
    · simpa [BitVec.testBit_toNat] using hheld
  · rw [if_neg (Nat.not_lt.2 h3), if_neg (by simp [hsig]), if_neg]
    · obtain ⟨hanswered, hfuses, howner, -⟩ := State.answered_blown hbusy { s.fuses with
        owner := s.fuses.owner ||| BitVec.ofNat 4 (2 ^ f 8 1)
        keyHash := s.fuses.keyHash.set (f 8 1 + 1) (BitVec.ofNat 384 (beNat (slice b 9 48))) }
      rw [← State.blown, hfuses, howner]
      exact ⟨hanswered, rfl, rfl, rfl, rfl⟩
    · simpa [BitVec.testBit_toNat] using hheld

theorem keyRevoke_rules (s : State) (h : Served s 0 6 97) :
    let f (o n : Nat) : Nat := s.mbxF 0 o n
    let b := s.mbxBytes 0
    let refused (t : State) (r : Nat) : Prop := Answered s t 0 r [] ∧ t.reg = s.reg ∧ t.fuses = s.fuses
      ∧ SameStores s t
    ∃ t, exec (.mbxKeyRevoke 0) s = .next t
      ∧ (3 < f 8 1 → refused t 2)
      ∧ (f 8 1 ≤ 3 → s.vendorSigned (slice b 8 1) (slice b 9 96) = false → refused t 5)
      ∧ (f 8 1 ≤ 3 → s.vendorSigned (slice b 8 1) (slice b 9 96) = true → Answered s t 0 0 []
        ∧ t.fuses = { s.fuses with revoked := s.fuses.revoked ||| BitVec.ofNat 4 (2 ^ f 8 1) }
        ∧ t.getF fImgKeysRevoked = t.fuses.revoked.toNat) := by
  intro f b refused
  have hbusy := State.busy_of_served h
  have hexec : exec (.mbxKeyRevoke 0) s = .next (s.mbxServe 0 6 true 97 fun s => s.keyRevoke 0) := rfl
  rw [State.mbxServe_served h] at hexec
  have hk : fieldLe (s.mbxBytes 0) 8 1 = f 8 1 := rfl
  have hb : s.mbxBytes 0 = b := rfl
  clear_value f b
  refine ⟨_, hexec, ?_⟩
  rw [State.keyRevoke]
  dsimp only
  rw [hk, hb]
  refine ⟨fun h3 => ?_, fun h3 hsig => ?_, fun h3 hsig => ?_⟩
  · rw [if_pos h3]
    exact State.turned_away hbusy 2
  · rw [if_neg (Nat.not_lt.2 h3), if_pos (by simp [hsig])]
    exact State.turned_away hbusy 5
  · rw [if_neg (Nat.not_lt.2 h3), if_neg (by simp [hsig])]
    obtain ⟨hanswered, hfuses, -, hrevoked⟩ := State.answered_blown hbusy { s.fuses with
      revoked := s.fuses.revoked ||| BitVec.ofNat 4 (2 ^ f 8 1) }
    rw [← State.blown, hfuses, hrevoked]
    exact ⟨hanswered, rfl, rfl⟩

/-! ### SLOTB_GRANT (R399, R400) -/

/-- Words stored from a register on. -/
theorem State.rd_wrList_ne (l : List W32) {p : Nat} : ∀ (s : State) (o : Nat), (∀ k < l.length, o + 4 * k ≠ p) →
    (s.wrList o l).rd p = s.rd p := by
  induction l with
  | nil => exact fun _ _ _ => rfl
  | cons v r ih =>
    intro s o h
    rw [State.wrList, ih _ _ fun k hk => ?_, State.rd_wr_ne _ _ _ (by simpa using h 0 (by simp))]
    have := h (k + 1) (by simpa using hk)
    omega

theorem State.rd_wrList_at (l : List W32) :
    ∀ (s : State) (o k : Nat) (v : W32), l[k]? = some v → (s.wrList o l).rd (o + 4 * k) = v := by
  induction l with
  | nil => exact fun _ _ k _ h => by simp at h
  | cons w r ih =>
    intro s o k v h
    rw [State.wrList]
    cases k with
    | zero =>
      rw [State.rd_wrList_ne r _ _ fun k _ => by omega, Nat.mul_zero, Nat.add_zero, State.rd_wr_same]
      simpa using h
    | succ k =>
      rw [show o + 4 * (k + 1) = o + 4 + 4 * k by omega]
      exact ih _ _ k v (by simpa using h)

/-- The owners of the channels. -/
def State.chanGrant (s : State) (m : Nat) (l : List Nat) : State :=
  l.foldl (fun t n => t.setB (fDmaChCtlSlot n) (m.testBit n)) s

theorem State.chanGrant_rules (m : Nat) (l : List Nat) : ∀ s : State,
    (∀ n, (s.chanGrant m l).bitF (fDmaChCtlSlot n) = if n ∈ l then m.testBit n else s.bitF (fDmaChCtlSlot n))
      ∧ (∀ o < 0x400000, (s.chanGrant m l).rd o = s.rd o) ∧ (s.chanGrant m l).bar4 = s.bar4
      ∧ SameStores s (s.chanGrant m l) := by
  induction l with
  | nil => exact fun s => ⟨fun _ => by simp [State.chanGrant], fun _ _ => rfl, rfl, rfl, rfl, rfl, rfl, rfl, rfl, rfl⟩
  | cons n l ih =>
    intro s
    have hcons : s.chanGrant m (n :: l) = (s.setB (fDmaChCtlSlot n) (m.testBit n)).chanGrant m l := rfl
    obtain ⟨ibit, ird, ibar, istores⟩ := ih (s.setB (fDmaChCtlSlot n) (m.testBit n))
    obtain ⟨hbar, hstores⟩ := s.setF_rules (fDmaChCtlSlot n) (if m.testBit n then 1 else 0)
    rw [hcons]
    refine ⟨fun k => ?_, fun o ho => ?_, ibar.trans hbar, sameStores_trans hstores istores⟩
    · rw [ibit k]
      by_cases hkl : k ∈ l
      · simp [hkl]
      · by_cases hkn : k = n
        · subst hkn
          rw [if_neg hkl, if_pos List.mem_cons_self,
            State.bitF_setB_same s _ _ (by simp [fDmaChCtlSlot]) rfl]
        · have hoff : (fDmaChCtlSlot n).off ≠ (fDmaChCtlSlot k).off := by
            show rDmaChCtl n ≠ rDmaChCtl k
            unfold rDmaChCtl
            omega
          rw [if_neg hkl, if_neg (by simp [hkl, hkn]), State.bitF,
            State.getF_of_rd_eq (f := fDmaChCtlSlot k) (State.rd_setB_ne s _ _ hoff), State.bitF]
    · have hoff : (fDmaChCtlSlot n).off ≠ o := by
        show rDmaChCtl n ≠ o
        unfold rDmaChCtl
        omega
      rw [ird o ho, State.rd_setB_ne s _ _ hoff]

theorem State.wrList_rules (l : List W32) : ∀ (s : State) (o : Nat), (s.wrList o l).bar4 = s.bar4
    ∧ SameStores s (s.wrList o l) := by
  induction l with
  | nil => exact fun _ _ => ⟨rfl, rfl, rfl, rfl, rfl, rfl, rfl, rfl⟩
  | cons v r ih =>
    intro s o
    obtain ⟨hbar, hstores⟩ := ih (s.wr o v) (o + 4)
    have hwr : SameStores s (s.wr o v) := ⟨rfl, rfl, rfl, rfl, rfl, rfl, rfl⟩
    exact ⟨hbar.trans rfl, sameStores_trans hwr hstores⟩

theorem slotbGrant_rules (s : State) (h : Served s 0 7 66) :
    let f (o n : Nat) : Nat := s.mbxF 0 o n
    let refused (t : State) (r : Nat) : Prop := Answered s t 0 r [] ∧ t.reg = s.reg ∧ t.fuses = s.fuses
      ∧ SameStores s t
    ∃ t, exec (.mbxSlotbGrant 0) s = .next t
      ∧ (s.imgB ≠ none → refused t 4)
      ∧ (s.imgB = none → Answered s t 0 0 [] ∧ SameStores s t
        ∧ ∀ n < 16, t.rd (rXltBmap n) = BitVec.ofNat 32 (f (8 + 4 * n) 4)
          ∧ t.bitF (fDmaChCtlSlot n) = (f 72 2).testBit n) := by
  intro f refused
  have hbusy := State.busy_of_served h
  have hexec : exec (.mbxSlotbGrant 0) s = .next (s.mbxServe 0 7 true 66 fun s => s.slotbGrant 0) := rfl
  rw [State.mbxServe_served h] at hexec
  refine ⟨_, hexec, fun himg => ?_, fun himg => ?_⟩
  · rw [State.slotbGrant, if_pos (Option.isSome_iff_ne_none.2 himg)]
    exact State.turned_away hbusy 4
  · have heq : s.slotbGrant 0 = ((s.wrList (rXltBmap 0) ((List.range 16).map fun n =>
        BitVec.ofNat 32 (f (8 + 4 * n) 4))).chanGrant (f 72 2) (List.range 16)).mbxAnswer 0 mbxOk [] := by
      rw [State.slotbGrant, if_neg (by simp [himg])]
      rfl
    rw [heq]
    have hword (n : Nat) (hn : n < 16) := State.rd_wrList_at ((List.range 16).map fun n =>
      BitVec.ofNat 32 (f (8 + 4 * n) 4)) s (rXltBmap 0) n (BitVec.ofNat 32 (f (8 + 4 * n) 4)) (by simp [hn])
    obtain ⟨hbar, hstores⟩ := State.wrList_rules ((List.range 16).map fun n => BitVec.ofNat 32 (f (8 + 4 * n) 4)) s
      (rXltBmap 0)
    generalize s.wrList (rXltBmap 0) ((List.range 16).map fun n => BitVec.ofNat 32 (f (8 + 4 * n) 4)) = v at *
    obtain ⟨gbit, grd, gbar, gstores⟩ := State.chanGrant_rules (f 72 2) (List.range 16) v
    generalize v.chanGrant (f 72 2) (List.range 16) = w at *
    have hreply := w.replied 0 mbxOk []
    refine ⟨State.answered (.of_bar4 hbusy (gbar.trans hbar)) 0 [],
      sameStores_trans (sameStores_trans hstores gstores) hreply.sameStores, fun n hn => ⟨?_, ?_⟩⟩
    · rw [State.rd, hreply.reg, ← State.rd, grd _ (by unfold rXltBmap; omega)]
      exact hword n hn
    · rw [State.bitF, hreply.getF, ← State.bitF, gbit, if_pos (List.mem_range.2 hn)]

end Commands

end Sys2Proof.Machine
end

/-! ## The mailboxes: window refills (O54) -/

section

namespace Sys2Proof.Machine

open Sys2Proof Sys2Proof.Claims

section Refill

variable {s t u : State} {j : JobSlot}

/-! ### A walk of the page table reads memory and reports -/

/-- A step that reads device memory. -/
structure Reads (s t : State) : Prop where
  log : LogFrame s t
  hushed : Hushed s t

theorem Reads.refl (s : State) : Reads s s := ⟨.refl s, .refl s⟩

theorem Reads.trans (h : Reads s t) (k : Reads t u) : Reads s u := ⟨h.log.trans k.log, h.hushed.trans k.hushed⟩

theorem State.pte_rules (s : State) (a : Nat) : Reads s (s.pte a).2 ∧ (s.memEcc = [] → (s.pte a).2 = s) := by
  unfold State.pte
  split_ifs
  · exact ⟨.refl s, fun _ => rfl⟩
  · exact ⟨⟨.memRead .., .memRead ..⟩, fun h => (State.memRead_good h _ _ _ _).2.2⟩

theorem State.walkTop_rules (s : State) (j : JobSlot) (va : Nat) :
    Reads s (s.walkTop j va).2 ∧ (s.memEcc = [] → (s.walkTop j va).2 = s) := by
  have h := s.pte_rules (s.topAt j va)
  unfold State.walkTop
  split <;> rename_i heq <;> rw [heq] at h <;> exact h

theorem State.walkLow_rules (s : State) (p va : Nat) :
    Reads s (s.walkLow p va).2 ∧ (s.memEcc = [] → (s.walkLow p va).2 = s) := by
  have h := s.pte_rules (lowAt p va)
  unfold State.walkLow
  split <;> rename_i heq <;> rw [heq] at h <;> exact h

theorem State.walk_rules (s : State) (j : JobSlot) (va : Nat) :
    Reads s (s.walk j va).2 ∧ (s.memEcc = [] → (s.walk j va).2 = s) := by
  obtain ⟨hreads, hgood⟩ := s.walkTop_rules j va
  unfold State.walk
  split <;> rename_i heq <;> rw [heq] at hreads hgood
  · exact ⟨hreads, hgood⟩
  next p s1 =>
    obtain ⟨kreads, kgood⟩ := s1.walkLow_rules p va
    refine ⟨hreads.trans kreads, fun h => ?_⟩
    obtain rfl : s1 = s := hgood h
    exact kgood h

/-! ### The state of a window page (R407) -/

/-- The virtual offset of a window page. -/
def WinCfg.va (c : WinCfg) (p : Nat) : Nat := c.vbase + p * c.psize

theorem State.pageState_state (s : State) (j : JobSlot) (c : WinCfg) (p : Nat) :
    (s.pageState j c p).2 = (s.walk j (c.va p)).2 := by
  unfold State.pageState WinCfg.va
  split <;> rename_i heq
  · rw [heq]
  · dsimp only
    rw [heq]
    split_ifs <;> rfl

theorem State.pageState_fault {c : WinCfg} {p : Nat} {e : XFault} (h : (s.walk j (c.va p)).1 = .fault e) :
    (s.pageState j c p).1 = ⟨1, 0, false, false⟩ := by
  unfold WinCfg.va at h
  unfold State.pageState
  split <;> rename_i heq
  · rfl
  · rw [heq] at h
    cases h

theorem State.pageState_leaf {c : WinCfg} {p : Nat} {l : Leaf} (hgood : s.memEcc = [])
    (h : (s.walk j (c.va p)).1 = .leaf l) :
    (s.pageState j c p).1 = if c.big ∧ ¬ l.big then ⟨1, 0, false, false⟩
      else if stackOf (l.phys (c.va p)) ≠ c.stack ∨ ¬ s.isoOk (j == .b) (l.phys (c.va p)) c.psize then
        ⟨2, 0, false, false⟩
      else ⟨0, BitVec.ofNat 64 (l.phys (c.va p)), l.r, l.w⟩ := by
  have hstate := (s.walk_rules j (c.va p)).2 hgood
  unfold WinCfg.va at *
  unfold State.pageState
  split <;> rename_i heq <;> rw [heq] at h hstate
  · cases h
  · obtain rfl := WalkRes.leaf.inj h
    obtain rfl : _ = s := hstate
    dsimp only
    split_ifs <;> rfl

/-! ### A refill (R409, R412) -/

theorem State.refill_eq (s : State) (j : JobSlot) (w : Nat) (c : WinCfg) (p : Nat) :
    s.refill j w c p = ((s.walk j (c.va p)).2.setWinPage j w p (s.pageState j c p).1).setF (fWmiss j)
      (((s.walk j (c.va p)).2.setWinPage j w p (s.pageState j c p).1).missPages j) := by
  rw [State.refill, State.pageState_state]
  rfl

theorem State.setWinPage_rules (s : State) (j : JobSlot) (w p : Nat) (x : WinPage) :
    (s.setWinPage j w p x).winPage j w p = x
      ∧ (∀ k, k ≠ pageKey j w p → Tab.look (fun _ => WinPage.reset) (s.setWinPage j w p x).pages k =
          Tab.look (fun _ => WinPage.reset) s.pages k)
      ∧ (s.setWinPage j w p x).bar4 = s.bar4 ∧ (s.setWinPage j w p x).mem = s.mem
      ∧ (s.setWinPage j w p x).eps = s.eps ∧ (s.setWinPage j w p x).imgA = s.imgA
      ∧ (s.setWinPage j w p x).imgB = s.imgB ∧ (s.setWinPage j w p x).reg = s.reg :=
  ⟨Tab.look_put_same .., fun _ hk => Tab.look_put_ne _ _ _ _ (Ne.symm hk), rfl, rfl, rfl, rfl, rfl, rfl⟩

theorem fWmiss_off (j : JobSlot) : (fWmiss j).off = rXltWmiss := by
  cases j <;> rfl

/-- What holds an endpoint on a page: its configuration and its state. -/
theorem State.heldOn_congr (hA : t.imgA = s.imgA) (hB : t.imgB = s.imgB) (heps : t.eps = s.eps)
    (hphase : t.rd rPwrOppoint = s.rd rPwrOppoint) (c : WinCfg) (p : Nat) : t.heldOn j c p = s.heldOn j c p := by
  have hcfg (d n : Nat) : t.epCfg j d n = s.epCfg j d n := by
    have himg : t.image j = s.image j := by rw [State.image, hA, hB, State.image]
    rw [State.epCfg, himg, State.getF_of_rd_eq (f := fPwrOppointPhase) hphase, State.epCfg]
  have hep (d n : Nat) : t.ep j d n = s.ep j d n := by rw [State.ep, heps, State.ep]
  have hfault (d n : Nat) : t.heldFault j d n = s.heldFault j d n := by
    rw [State.heldFault, hcfg, hep, State.heldFault]
  have haddr (d n : Nat) (e : EpCfg) : t.epAddr j d n e = s.epAddr j d n e := by
    rw [State.epAddr, hep, State.epAddr]
  unfold State.heldOn
  simp only [hfault, haddr]

/-- A step that resolves faults of endpoints. -/
structure Resolves (j : JobSlot) (d : Nat) (s t : State) : Prop where
  bar4 : t.bar4 = s.bar4
  pages : t.pages = s.pages
  mem : t.mem = s.mem
  cfg : ∀ n, t.epCfg j d n = s.epCfg j d n
  stays : ∀ n, (s.ep j d n).fault = none → (t.ep j d n).fault = none

theorem Resolves.trans {d : Nat} (h : Resolves j d s t) (k : Resolves j d t u) : Resolves j d s u :=
  ⟨k.bar4.trans h.bar4, k.pages.trans h.pages, k.mem.trans h.mem, fun n => (k.cfg n).trans (h.cfg n),
    fun n hn => k.stays n (h.stays n hn)⟩

theorem Resolves.refl (d : Nat) (s : State) : Resolves j d s s := ⟨rfl, rfl, rfl, fun _ => rfl, fun _ h => h⟩

theorem Resolves.setFar (s : State) (d : Nat) (e : EpCfg) (b : Bool) : Resolves j d s (s.setFar j e b) := by
  unfold State.setFar
  split
  · exact ⟨rfl, rfl, rfl, fun _ => rfl, fun _ h => h⟩
  · exact .refl d s

theorem Resolves.setEp (s : State) (d n : Nat) :
    Resolves j d s (s.setEp j d n { s.ep j d n with fault := none })
      ∧ ((s.setEp j d n { s.ep j d n with fault := none }).ep j d n).fault = none := by
  have hep (k : Nat) : (s.setEp j d n { s.ep j d n with fault := none }).ep j d k =
      if epKey j d n = epKey j d k then { s.ep j d n with fault := none } else s.ep j d k := Tab.look_ins ..
  refine ⟨⟨rfl, rfl, rfl, fun _ => rfl, fun k hk => ?_⟩, ?_⟩
  · rw [hep]
    split_ifs
    · rfl
    · exact hk
  · rw [hep, if_pos rfl]

theorem State.resolve_rules (s : State) (d n : Nat) :
    Resolves j d s (s.resolve j d n) ∧ (s.epCfg j d n ≠ none → ((s.resolve j d n).ep j d n).fault = none) := by
  unfold State.resolve
  split
  next hnone => exact ⟨.refl d s, fun h => absurd hnone h⟩
  next e _ =>
    obtain ⟨hset, hfault⟩ := Resolves.setEp (j := j) s d n
    have hfar := Resolves.setFar (j := j) (s.setEp j d n { s.ep j d n with fault := none }) d e false
    exact ⟨hset.trans hfar, fun _ => hfar.stays n hfault⟩

theorem State.resolveAll_rules (d : Nat) (l : List Nat) : ∀ s : State,
    Resolves j d s (l.foldl (fun t n => t.resolve j d n) s)
      ∧ ∀ n ∈ l, s.epCfg j d n ≠ none → ((l.foldl (fun t n => t.resolve j d n) s).ep j d n).fault = none := by
  induction l with
  | nil => exact fun s => ⟨.refl d s, fun _ h => absurd h List.not_mem_nil⟩
  | cons n l ih =>
    intro s
    obtain ⟨hone, hfault⟩ := s.resolve_rules (j := j) d n
    obtain ⟨hall, hfaults⟩ := ih (s.resolve j d n)
    refine ⟨hone.trans hall, fun k hk hcfg => ?_⟩
    obtain rfl | hk := List.mem_cons.1 hk
    · exact hall.stays k (hfault hcfg)
    · exact hfaults k hk (by rw [hone.cfg]; exact hcfg)

theorem State.epCfg_of_heldOn {c : WinCfg} {p n : Nat} (h : n ∈ s.heldOn j c p) : s.epCfg j c.stack n ≠ none := by
  intro hnone
  have hfault : s.heldFault j c.stack n = none := by
    unfold State.heldFault
    rw [hnone]
  rw [State.heldOn, List.mem_filter, hfault] at h
  cases h.2

theorem State.refillPage_eq {w : Nat} {c : WinCfg} (hc : ((s.windowsOf j).getD [])[w]? = some c) (p : Nat) :
    s.refillPage j w p = if ((s.refill j w c p).winPage j w p).state = 0 then
        ((s.refill j w c p).heldOn j c p).foldl (fun t n => t.resolve j c.stack n) (s.refill j w c p)
      else s.refill j w c p := by
  rw [State.refillPage, hc]

/-- What a refill leaves: the page with its state, the other pages, and the endpoints that it frees. -/
theorem State.refillPage_rules {w : Nat} {c : WinCfg} (hc : ((s.windowsOf j).getD [])[w]? = some c) (p : Nat) :
    let t := s.refillPage j w p
    t.winPage j w p = (s.pageState j c p).1
      ∧ (∀ k, k ≠ pageKey j w p →
        Tab.look (fun _ => WinPage.reset) t.pages k = Tab.look (fun _ => WinPage.reset) s.pages k)
      ∧ t.bar4 = (s.walk j (c.va p)).2.bar4
      ∧ (s.memEcc = [] → t.mem = s.mem
        ∧ ((s.pageState j c p).1.state = 0 → ∀ n ∈ s.heldOn j c p, (t.ep j c.stack n).fault = none)) := by
  intro t
  obtain ⟨hpage, hothers, hbar, hmem, heps, hA, hB, hreg⟩ :=
    (s.walk j (c.va p)).2.setWinPage_rules j w p (s.pageState j c p).1
  have hset := s.refill_eq j w c p
  have hset_keeps (v : State) (k : Nat) : (v.setF (fWmiss j) k).winPage j w p = v.winPage j w p
      ∧ (v.setF (fWmiss j) k).pages = v.pages ∧ (v.setF (fWmiss j) k).bar4 = v.bar4
      ∧ (v.setF (fWmiss j) k).mem = v.mem ∧ (v.setF (fWmiss j) k).eps = v.eps
      ∧ (v.setF (fWmiss j) k).imgA = v.imgA ∧ (v.setF (fWmiss j) k).imgB = v.imgB :=
    ⟨rfl, rfl, rfl, rfl, rfl, rfl, rfl⟩
  obtain ⟨hreads, hgood⟩ := s.walk_rules j (c.va p)
  have hpages : (s.walk j (c.va p)).2.pages = s.pages := by rw [hreads.log]
  obtain ⟨kpage, kpages, kbar, kmem, keps, kA, kB⟩ := hset_keeps
    ((s.walk j (c.va p)).2.setWinPage j w p (s.pageState j c p).1)
    (((s.walk j (c.va p)).2.setWinPage j w p (s.pageState j c p).1).missPages j)
  rw [← hset] at kpage kpages kbar kmem keps kA kB
  have hheld (h : s.memEcc = []) : (s.refill j w c p).heldOn j c p = s.heldOn j c p := by
    have hs : (s.walk j (c.va p)).2 = s := hgood h
    refine State.heldOn_congr (kA.trans (hA.trans (by rw [hs]))) (kB.trans (hB.trans (by rw [hs])))
      (keps.trans (heps.trans (by rw [hs]))) ?_ c p
    have hne : (fWmiss j).off ≠ rPwrOppoint := by
      rw [fWmiss_off]
      decide
    rw [hset, State.rd_setF_ne _ _ _ hne, State.rd, hreg, hs, ← State.rd]
  have hrefilled : (s.refill j w c p).winPage j w p = (s.pageState j c p).1 := kpage.trans hpage
  have hkept (k : Nat) (hk : k ≠ pageKey j w p) : Tab.look (fun _ => WinPage.reset) (s.refill j w c p).pages k =
      Tab.look (fun _ => WinPage.reset) s.pages k := by
    rw [kpages, hothers k hk, hpages]
  have ht : t = _ := State.refillPage_eq hc p
  clear_value t
  subst ht
  rw [hrefilled]
  generalize s.refill j w c p = v at *
  split_ifs with hstate
  · obtain ⟨hall, hfaults⟩ := State.resolveAll_rules (j := j) c.stack (v.heldOn j c p) v
    refine ⟨?_, fun k hk => ?_, hall.bar4.trans (kbar.trans hbar), fun h => ⟨?_, fun _ n hn => ?_⟩⟩
    · rw [State.winPage, hall.pages, ← State.winPage, hrefilled]
    · rw [hall.pages, hkept k hk]
    · rw [hall.mem, kmem, hmem, hgood h]
    · have hn' : n ∈ v.heldOn j c p := by rw [hheld h]; exact hn
      exact hfaults n hn' (State.epCfg_of_heldOn hn')
  · exact ⟨hrefilled, hkept, kbar.trans hbar, fun h => ⟨by rw [kmem, hmem, hgood h], fun h0 => absurd h0 hstate⟩⟩

end Refill

end Sys2Proof.Machine
end

/-! ## The mailboxes: loads of job slot B, cores, windows and the I2C bus (O54) -/

section

namespace Sys2Proof.Machine

open Sys2Proof Sys2Proof.Claims

section Served

variable {s t u : State} {fn : Func}

/-! ### WIN_REFILL (R409) -/

theorem winRefill_frees (fn : Func) (c : WinCfg) (s : State) :
    let j := funcSlot fn
    let w := s.mbxF fn 8 2
    let p := s.mbxF fn 10 2
    let va := c.vbase + p * c.psize
    Served s fn 10 4 → ((s.windowsOf j).getD [])[w]? = some c → p < c.npage →
    ∃ t, exec (.mbxWinRefill fn false) s = .next t ∧ Answered s t fn 0 []
      ∧ (∀ k, k ≠ pageKey j w p →
          Tab.look (fun _ => WinPage.reset) t.pages k = Tab.look (fun _ => WinPage.reset) s.pages k)
      ∧ (s.memEcc = [] → t.mem = s.mem
        ∧ (∀ e, (s.walk j va).1 = .fault e → (t.winPage j w p).state = 1)
        ∧ ∀ l, (s.walk j va).1 = .leaf l →
          let ph := l.phys va
          (c.big = true → l.big = false → (t.winPage j w p).state = 1)
          ∧ (c.big = false ∨ l.big = true →
            (stackOf ph ≠ c.stack ∨ s.isoOk (j == .b) ph c.psize = false → (t.winPage j w p).state = 2)
            ∧ (stackOf ph = c.stack → s.isoOk (j == .b) ph c.psize = true →
              t.winPage j w p = ⟨0, BitVec.ofNat 64 ph, l.r, l.w⟩
              ∧ ∀ n ∈ s.heldOn j c p, (t.ep j c.stack n).fault = none))) := by
  intro j w p va h hc hp
  have hbusy := State.busy_of_served h
  have hexec : exec (.mbxWinRefill fn false) s = .next (s.mbxServe fn 10 true 4 fun s => s.winRefill fn false) := rfl
  rw [State.mbxServe_served h] at hexec
  have heq : s.winRefill fn false = (s.refillPage j w p).mbxAnswer fn mbxOk [] := by
    have hc' : ((s.windowsOf (funcSlot fn)).getD [])[s.mbxF fn 8 2]? = some c := hc
    rw [State.winRefill]
    simp only [hc']
    rw [if_neg (Nat.not_le.2 hp), if_neg (by simp)]
  obtain ⟨hpage, hothers, hbar, hgood⟩ := State.refillPage_rules hc p
  obtain ⟨hreads, -⟩ := s.walk_rules j (c.va p)
  have hasked : Asked s (s.refillPage j w p) fn := ((Asked.refl hbusy).hushed hreads.hushed).same_bar4 hbar
  generalize s.refillPage j w p = v at *
  have hreply := v.replied fn mbxOk []
  have hwin : (v.mbxAnswer fn mbxOk []).winPage j w p = v.winPage j w p := by
    rw [hreply]
    rfl
  have hpages : (v.mbxAnswer fn mbxOk []).pages = v.pages := by rw [hreply]
  have hmem : (v.mbxAnswer fn mbxOk []).mem = v.mem := by rw [hreply]
  have hep (n : Nat) : (v.mbxAnswer fn mbxOk []).ep j c.stack n = v.ep j c.stack n := by
    rw [hreply]
    rfl
  refine ⟨_, hexec, ?_⟩
  rw [heq]
  refine ⟨State.answered hasked 0 [], fun k hk => by rw [hpages, hothers k hk], fun hecc => ?_⟩
  obtain ⟨hvmem, hfree⟩ := hgood hecc
  rw [hwin, hpage, hmem]
  refine ⟨hvmem, fun e he => by rw [State.pageState_fault he], fun l hl => ⟨fun hbig hsmall => ?_, fun hfit =>
    ⟨fun hbad => ?_, fun hstack hiso => ?_⟩⟩⟩
  · rw [State.pageState_leaf hecc hl, if_pos ⟨hbig, by simp [hsmall]⟩]
  · have hnot : ¬ (c.big = true ∧ ¬ l.big = true) := by
      rintro ⟨hbig, hsmall⟩
      obtain h | h := hfit
      · rw [h] at hbig
        cases hbig
      · exact hsmall h
    have hbad' : stackOf (l.phys (c.va p)) ≠ c.stack ∨ ¬ s.isoOk (j == .b) (l.phys (c.va p)) c.psize = true :=
      hbad.imp_right fun h => by
        rw [WinCfg.va, h]
        simp
    rw [State.pageState_leaf hecc hl, if_neg hnot, if_pos hbad']
  · have hnot : ¬ (c.big = true ∧ ¬ l.big = true) := by
      rintro ⟨hbig, hsmall⟩
      obtain h | h := hfit
      · rw [h] at hbig
        cases hbig
      · exact hsmall h
    have hgood' : ¬ (stackOf (l.phys (c.va p)) ≠ c.stack ∨ ¬ s.isoOk (j == .b) (l.phys (c.va p)) c.psize = true) := by
      rintro (h | h)
      · exact h hstack
      · exact h hiso
    have hpresent := State.pageState_leaf hecc hl
    rw [if_neg hnot, if_neg hgood'] at hpresent
    rw [hpresent] at hfree ⊢
    exact ⟨rfl, fun n hn => by rw [hep, hfree rfl n hn]⟩

theorem winRefill_refuses (s : State) (refuse : Bool) (fn : Func) (h : Served s fn 10 4) :
    let cf := ((s.windowsOf (funcSlot fn)).getD [])[s.mbxF fn 8 2]?
    ∃ t, exec (.mbxWinRefill fn refuse) s = .next t
      ∧ (cf = none → Answered s t fn 2 [] ∧ t.reg = s.reg ∧ SameStores s t)
      ∧ ∀ c, cf = some c →
        (c.npage ≤ s.mbxF fn 10 2 → Answered s t fn 2 [] ∧ t.reg = s.reg ∧ SameStores s t)
        ∧ (s.mbxF fn 10 2 < c.npage → refuse = true → Answered s t fn 4 [] ∧ t.reg = s.reg ∧ SameStores s t) := by
  intro cf
  have hbusy := State.busy_of_served h
  have hexec : exec (.mbxWinRefill fn refuse) s = .next (s.mbxServe fn 10 true 4 fun s => s.winRefill fn refuse) := rfl
  rw [State.mbxServe_served h] at hexec
  have haway (r : Nat) (heq : s.winRefill fn refuse = s.mbxAnswer fn r []) :
      Answered s (s.winRefill fn refuse) fn r [] ∧ (s.winRefill fn refuse).reg = s.reg
        ∧ SameStores s (s.winRefill fn refuse) := by
    obtain ⟨hanswered, hreg, -, hstores⟩ := State.turned_away hbusy r
    rw [heq]
    exact ⟨hanswered, hreg, hstores⟩
  refine ⟨_, hexec, fun hnone => haway 2 ?_, fun c hc => ⟨fun hp => haway 2 ?_, fun hp hrefuse => haway 4 ?_⟩⟩
  · have hnone' : ((s.windowsOf (funcSlot fn)).getD [])[s.mbxF fn 8 2]? = none := hnone
    simp only [State.winRefill, hnone']
    rfl
  · have hc' : ((s.windowsOf (funcSlot fn)).getD [])[s.mbxF fn 8 2]? = some c := hc
    simp only [State.winRefill, hc', if_pos hp]
    rfl
  · have hc' : ((s.windowsOf (funcSlot fn)).getD [])[s.mbxF fn 8 2]? = some c := hc
    simp only [State.winRefill, hc', if_neg (Nat.not_le.2 hp), if_pos hrefuse]
    rfl

/-! ### CORE_RESUME (R222) -/

theorem coreResume_rules (s : State) (refuse : Bool) (h : Served s 0 9 2) :
    let f (o n : Nat) : Nat := s.mbxF 0 o n
    let refused (t : State) (r : Nat) : Prop := Answered s t 0 r [] ∧ t.reg = s.reg ∧ t.fuses = s.fuses
      ∧ SameStores s t
    let x := s.core (f 8 2)
    ∃ t, exec (.mbxCoreResume 0 refuse) s = .next t
      ∧ (255 < f 8 2 → refused t 2)
      ∧ (f 8 2 ≤ 255 → x.cfgA = none ∨ x.holdsA = true ∧ (x.stopped = false ∨ x.exc.toNat % 8 = 6) →
        refused t 3)
      ∧ (f 8 2 ≤ 255 → x.cfgA ≠ none → x.holdsA = true → x.stopped = true → x.exc.toNat % 8 ≠ 6 →
        (refuse = true ∨ s.stageOut .a (f 8 2) = true → refused t 4)
        ∧ (refuse = false → s.stageOut .a (f 8 2) = false → Answered s t 0 0 []
          ∧ t.core (f 8 2) = x.resume ∧ (∀ d, d ≠ f 8 2 → t.core d = s.core d)
          ∧ t.reg = s.reg ∧ t.mem = s.mem)) := by
  intro f refused x
  have hbusy := State.busy_of_served h
  have hexec : exec (.mbxCoreResume 0 refuse) s = .next (s.mbxServe 0 9 true 2 fun s => s.coreResume 0 refuse) := rfl
  rw [State.mbxServe_served h] at hexec
  have hc : s.mbxF 0 8 2 = f 8 2 := rfl
  have hx : s.core (f 8 2) = x := rfl
  clear_value x f
  refine ⟨_, hexec, ?_⟩
  simp only [State.coreResume]
  rw [hc, hx]
  refine ⟨fun hbig => ?_, fun hc255 hdeny => ?_, fun hc255 hcfg hlive hstop hexc => ⟨fun hrefuse => ?_,
    fun hrefuse hstage => ?_⟩⟩
  · rw [if_pos hbig]
    exact State.turned_away hbusy 2
  · rw [if_neg (Nat.not_lt.2 hc255), if_pos]
    · exact State.turned_away hbusy 3
    · obtain hnone | ⟨hlive, hrun | hbreak⟩ := hdeny
      · simp [hnone]
      · simp [hlive, hrun]
      · simp [hlive, hbreak]
  all_goals
    have hserved : ¬ (x.cfgA.isNone = true ∨ ¬ (if x.holdsA = true then x.stopped
        else !x.emptyA && (x.spadNat (csaSeq .a + 4) 1).testBit 2) = true ∨ (if x.holdsA = true then x.exc.toNat % 8
        else x.spadNat (csaSeq .a + 0x38) 1 % 8) = 6) := by
      simp [hlive, hstop, hexc, Option.isNone_iff_eq_none, hcfg]
  · rw [if_neg (Nat.not_lt.2 hc255), if_neg hserved, if_pos hrefuse]
    exact State.turned_away hbusy 4
  · rw [if_neg (Nat.not_lt.2 hc255), if_neg hserved, if_neg (by simp [hrefuse, hstage]), if_pos hlive]
    have hreply := (s.setCore (f 8 2) x.resume).replied 0 mbxOk []
    obtain ⟨hmem, -, -, hcores, -, -, -⟩ := hreply.sameStores
    have hcore (d : Nat) : ((s.setCore (f 8 2) x.resume).mbxAnswer 0 mbxOk []).core d =
        (s.setCore (f 8 2) x.resume).core d := by
      rw [State.core, hcores, ← State.core]
    have hasked : Asked s (s.setCore (f 8 2) x.resume) 0 := .of_bar4 hbusy rfl
    refine ⟨State.answered hasked 0 [], ?_, fun d hd => ?_, hreply.reg, hmem⟩
    · rw [hcore, State.core_setCore]
    · rw [hcore, State.core_setCore_ne _ _ _ (Ne.symm hd)]

/-! ### I2C_XFER (R695) -/

theorem i2cXfer_rules (s : State) (refuse : Bool) (h : Served s 0 11 3) :
    let f (o n : Nat) : Nat := s.mbxF 0 o n
    let refused (t : State) (r : Nat) : Prop := Answered s t 0 r [] ∧ t.reg = s.reg ∧ t.fuses = s.fuses
      ∧ SameStores s t
    ∃ t, exec (.mbxI2cXfer 0 refuse) s = .next t
      ∧ (127 < f 8 1 ∨ 32 < f 10 1 ∨ (f 10 1 = 0 ∧ 32 < f 9 1) ∨ (f 10 1 ≠ 0 ∧ 1 < f 9 1)
          ∨ (f 9 1 ≠ 0 ∧ f 2 2 < 4 + f 9 1) → refused t 2)
      ∧ (f 8 1 ≤ 127 → f 10 1 ≤ 32 → (if f 10 1 = 0 then f 9 1 ≤ 32 else f 9 1 ≤ 1) →
        (f 9 1 = 0 ∨ 4 + f 9 1 ≤ f 2 2) →
        (refuse = true → refused t 4)
        ∧ (refuse = false → s.i2cState = 3 → refused t 8)
        ∧ (refuse = false → s.i2cState ≠ 3 → (∀ g, s.mgt.tx ≠ some (.xfer g)) →
          t.mgt.xfer = some 0 ∧ t.mbxBit 0 0 = true ∧ t.host.posts = s.host.posts.filter (· != 0)
          ∧ t = { s with mgt := t.mgt, host := t.host })) := by
  intro f refused
  have hbusy := State.busy_of_served h
  have hexec : exec (.mbxI2cXfer 0 refuse) s = .next (s.mbxServe 0 11 true 3 fun s => s.i2cXfer 0 refuse) := rfl
  rw [State.mbxServe_served h] at hexec
  have haddr : s.mbxF 0 8 1 = f 8 1 := rfl
  have hw : s.mbxF 0 9 1 = f 9 1 := rfl
  have hr : s.mbxF 0 10 1 = f 10 1 := rfl
  have hlen : s.mbxLen 0 = f 2 2 := rfl
  clear_value f
  refine ⟨_, hexec, ?_⟩
  rw [State.i2cXfer]
  dsimp only
  rw [haddr, hw, hr, hlen]
  refine ⟨fun hbad => ?_, fun ha hread hwrite hfits => ?_⟩
  · rw [if_pos]
    · exact State.turned_away hbusy 2
    · split_ifs <;> omega
  · have hgood : ¬ (127 < f 8 1 ∨ 32 < f 10 1 ∨ (if f 10 1 = 0 then 32 < f 9 1 else 1 < f 9 1)
        ∨ (f 9 1 ≠ 0 ∧ f 2 2 < 4 + f 9 1)) := by
      split_ifs at hwrite ⊢ <;> omega
    rw [if_neg hgood]
    refine ⟨fun hrefuse => ?_, fun hrefuse hstuck => ?_, fun hrefuse hfree htx => ?_⟩
    · rw [if_pos hrefuse]
      exact State.turned_away hbusy 4
    · rw [if_neg (by simp [hrefuse]), if_pos hstuck]
      exact State.turned_away hbusy 8
    · rw [if_neg (by simp [hrefuse]), if_neg hfree]
      split
      next g htx' => exact absurd htx' (htx g)
      · exact ⟨rfl, hbusy, rfl, rfl⟩

end Served

end Sys2Proof.Machine
end

/-! ## The mailboxes: the load of job slot B, and the whole of O54 -/

section

namespace Sys2Proof.Machine

open Sys2Proof Sys2Proof.Claims

section Load

variable {s t u : State} {fn : Func}

/-! ### A load that Jusia starts (R331) -/

/-- Reading a pair of registers elsewhere. -/
theorem State.rd64_wr_ne (s : State) {o p : Nat} (v : W32) (hlo : o ≠ p) (hhi : o ≠ p + 4) :
    (s.wr o v).rd64 p = s.rd64 p := by
  rw [State.rd64, State.rd_wr_ne _ _ _ hlo, State.rd_wr_ne _ _ _ hhi, State.rd64]

theorem State.rd_wr64_ne (s : State) {o p : Nat} (v : W64) (hlo : o ≠ p) (hhi : o + 4 ≠ p) :
    (s.wr64 o v).rd p = s.rd p := by
  rw [State.wr64, State.rd_wr_ne _ _ _ hhi, State.rd_wr_ne _ _ _ hlo]

/-- IMG_CTL, the source and the length as a request sets them, `g` being its fields. -/
def State.sourceRegs (s : State) (g : Nat → Nat → Nat) : State :=
  ((s.wr rImgCtl (BitVec.ofNat 32 (16 * g 8 1 + 64 + 128 * g 10 1 + 256 * g 12 2))).wr64 rImgSrcLo
    (BitVec.ofNat 64 (g 16 8))).wr rImgLen (BitVec.ofNat 32 (g 24 4))

/-- The drive, the block and the time besides. -/
def State.loadRegs (s : State) (g : Nat → Nat → Nat) : State :=
  (((s.sourceRegs g).setF fImgDrvDrive (g 9 1)).wr64 rImgLbaLo (BitVec.ofNat 64 (g 32 8))).wr64 rImgApplytLo
    (BitVec.ofNat 64 (g 40 8))

theorem State.sourceRegs_rules (s : State) (g : Nat → Nat → Nat) :
    (s.sourceRegs g).rd rImgCtl = BitVec.ofNat 32 (16 * g 8 1 + 64 + 128 * g 10 1 + 256 * g 12 2)
      ∧ (s.sourceRegs g).rd64 rImgSrcLo = BitVec.ofNat 64 (g 16 8)
      ∧ (s.sourceRegs g).rd rImgLen = BitVec.ofNat 32 (g 24 4) := by
  unfold State.sourceRegs
  refine ⟨?_, ?_, State.rd_wr_same ..⟩
  · rw [State.rd_wr_ne _ _ _ (show rImgLen ≠ rImgCtl by decide),
      State.rd_wr64_ne _ _ (show rImgSrcLo ≠ rImgCtl by decide) (show rImgSrcLo + 4 ≠ rImgCtl by decide),
      State.rd_wr_same]
  · rw [State.rd64_wr_ne _ _ (show rImgLen ≠ rImgSrcLo by decide) (show rImgLen ≠ rImgSrcLo + 4 by decide),
      State.rd64_wr64_same]

theorem State.rd_loadRegs (s : State) (g : Nat → Nat → Nat) {p : Nat} (hp : p < rImgDrv) :
    (s.loadRegs g).rd p = (s.sourceRegs g).rd p := by
  have hset (v : State) : (v.setF fImgDrvDrive (g 9 1)).rd p = v.rd p := State.rd_setF_ne _ _ _ (Nat.ne_of_gt hp)
  have happly : rImgDrv < rImgApplytLo := by decide
  have hlba : rImgDrv < rImgLbaLo := by decide
  rw [State.loadRegs, State.rd_wr64_ne _ _ (by omega) (by omega), State.rd_wr64_ne _ _ (by omega) (by omega), hset]

theorem State.loadRegs_rules (s : State) (g : Nat → Nat → Nat) :
    (s.loadRegs g).rd rImgCtl = BitVec.ofNat 32 (16 * g 8 1 + 64 + 128 * g 10 1 + 256 * g 12 2)
      ∧ (s.loadRegs g).rd64 rImgSrcLo = BitVec.ofNat 64 (g 16 8)
      ∧ (s.loadRegs g).rd rImgLen = BitVec.ofNat 32 (g 24 4) := by
  obtain ⟨hctl, hsrc, hlen⟩ := s.sourceRegs_rules g
  refine ⟨(s.rd_loadRegs g (by decide)).trans hctl, ?_, (s.rd_loadRegs g (by decide)).trans hlen⟩
  rw [State.rd64, s.rd_loadRegs g (by decide), s.rd_loadRegs g (by decide), ← State.rd64, hsrc]

theorem onlyRegs_wr64 (s : State) (o : Nat) (v : W64) : OnlyRegs [o, o + 4] s (s.wr64 o v) := onlyRegs_wr_wr ..

/-- The registers of a load are all that a request sets at first. -/
theorem State.onlyRegs_loadRegs (s : State) (g : Nat → Nat → Nat) : ∃ l, OnlyRegs l s (s.loadRegs g) := by
  have hsource : OnlyRegs _ s (s.sourceRegs g) :=
    onlyRegs_trans (onlyRegs_trans (onlyRegs_wr s _ _) (onlyRegs_wr64 _ _ _)) (onlyRegs_wr _ _ _)
  exact ⟨_, onlyRegs_trans (onlyRegs_trans (onlyRegs_trans hsource (onlyRegs_setF _ _ _)) (onlyRegs_wr64 _ _ _))
    (onlyRegs_wr64 _ _ _)⟩

theorem OnlyRegs.others {l : List Nat} (h : OnlyRegs l s t) :
    t.bar4 = s.bar4 ∧ t.host = s.host ∧ SameStores s t := by
  rw [h.2]
  exact ⟨rfl, rfl, rfl, rfl, rfl, rfl, rfl, rfl, rfl⟩

/-- IMG_CTL as a request sets it: the source, and job slot B. -/
theorem imgCtl_fields {src opt variant : Nat} (hsrc : src ≤ 1) (hopt : opt ≤ 1) (hvariant : variant ≤ 4095) :
    fImgCtlSrc.get (BitVec.ofNat 32 (16 * src + 64 + 128 * opt + 256 * variant)) = src
      ∧ fImgCtlSlot.get (BitVec.ofNat 32 (16 * src + 64 + 128 * opt + 256 * variant)) = 1 := by
  have hsmall : 16 * src + 64 + 128 * opt + 256 * variant < 2 ^ 32 := by omega
  simp only [Fld.get, fImgCtlSrc, fImgCtlSlot, BitVec.toNat_ofNat, Nat.mod_eq_of_lt hsmall]
  omega

/-- The load that a request starts. -/
theorem State.driveLoad_rules (s : State) (l : Loader) (hl : s.loader = some l) :
    Hushed s (s.driveLoad l) ∧ (∀ o < 0x500100, (s.driveLoad l).rd o = s.rd o)
      ∧ (l.drive = false → s.driveLoad l = s)
      ∧ ∃ failed, (s.driveLoad l).loader = some { l with failed := failed } := by
  unfold State.driveLoad
  dsimp only
  split_ifs with hskip hready
  · exact ⟨.refl s, fun _ _ => rfl, fun _ => rfl, l.failed, hl⟩
  · have hship : Shipped s (s.imageReads l ((l.len.toNat + 0x1FFFF) / 0x20000) ((l.len.toNat + 0x1FFFF) / 0x20000)) :=
      .readParts _ _ _ _ _ _ s
    exact ⟨hship.hushed, hship.rd, fun h => absurd (.inl (by simp [h])) hskip, l.failed, hship.loader.trans hl⟩
  · exact ⟨.of_parts rfl rfl rfl, fun _ _ => rfl, fun h => absurd (.inl (by simp [h])) hskip, true, rfl⟩

/-- The loader as a start with the fields as they stand makes it. -/
def State.loaderNow (s : State) (via : Option Func) : Loader :=
  { drive := s.getF fImgCtlSrc == 1, slot := if s.bitF fImgCtlSlot then .b else .a
    force := s.bitF fImgCtlForceopt, variant := s.getF fImgCtlVariant
    src := s.rd64 rImgSrcLo, len := s.rd rImgLen
    drv := BitVec.ofNat 2 (s.getF fImgDrvDrive), lba := s.rd64 rImgLbaLo
    applyt := s.rd64 rImgApplytLo, viaMailbox := via, failed := false, bytes := [], img := none, pages := [] }

/-- READ, with the slot of the load shown. -/
def State.started (s : State) (via : Option Func) : State :=
  (s.setB fImgStatusSlot (s.bitF fImgCtlSlot)).loadTo (s.loaderNow via) imgRead

theorem State.started_rules (s : State) (via : Option Func) :
    (s.started via).imgState = imgRead ∧ (s.started via).bitF fImgStatusSlot = s.bitF fImgCtlSlot
      ∧ (s.started via).loader = some (s.loaderNow via) ∧ (s.started via).bar4 = s.bar4
      ∧ (s.started via).host = s.host ∧ SameStores s (s.started via) := by
  have heq : s.started via = ({ s.setB fImgStatusSlot (s.bitF fImgCtlSlot) with
    loader := some (s.loaderNow via) } : State).setF fImgStatusState imgRead := rfl
  refine ⟨?_, ?_, rfl, rfl, rfl, ⟨rfl, rfl, rfl, rfl, rfl, rfl, rfl⟩⟩
  · rw [heq, State.imgState, State.getF_setF_same _ _ _ (by decide)]
    rfl
  · rw [heq, State.bitF_setF_of_disjoint (f := fImgStatusSlot) (g := fImgStatusState) _ _ rfl (.inr (by decide))]
    exact State.bitF_setB_same s fImgStatusSlot _ (by decide) rfl

theorem slotbLoad_rules (s : State) (fn : Func) (h : Served s fn 8 40) (hsrc : s.mbxF fn 8 1 ≤ 1)
    (hdrive : s.mbxF fn 9 1 ≤ 3) (hopt : s.mbxF fn 10 1 ≤ 1) (hvariant : s.mbxF fn 12 2 ≤ 4095) :
    ∃ t, exec (.mbxSlotbLoad fn) s = .next t
      ∧ (s.imgState ≠ imgIdle → Answered s t fn 4 [] ∧ t.reg = s.reg ∧ SameStores s t)
      ∧ (s.imgState = imgIdle → t.imgState = imgRead ∧ t.bitF fImgStatusSlot = true
        ∧ t.mbxBit fn 0 = true ∧ fn.val ∉ t.host.posts ∧ (s.mbxF fn 8 1 = 0 → SameStores s t)
        ∧ ∃ l, t.loader = some l ∧ l.slot = .b ∧ l.drive = (s.mbxF fn 8 1 == 1)
          ∧ l.viaMailbox = some fn ∧ l.src = BitVec.ofNat 64 (s.mbxF fn 16 8)
          ∧ l.len = BitVec.ofNat 32 (s.mbxF fn 24 4)) := by
  have hbusy := State.busy_of_served h
  have hexec : exec (.mbxSlotbLoad fn) s = .next (s.mbxServe fn 8 true 40 fun s => s.slotbLoad fn) := rfl
  rw [State.mbxServe_served h] at hexec
  refine ⟨_, hexec, fun hbusyImg => ?_, fun hidle => ?_⟩
  · obtain ⟨hanswered, hreg, -, hstores⟩ := State.turned_away hbusy 4
    have heq : s.slotbLoad fn = s.mbxAnswer fn mbxRefused [] := by
      rw [State.slotbLoad]
      dsimp only
      rw [if_neg (by omega), if_pos hbusyImg]
    rw [heq]
    exact ⟨hanswered, hreg, hstores⟩
  · have heq : s.slotbLoad fn = (((s.loadRegs (s.mbxF fn)).mbxDefer fn).started (some fn)).driveLoad
        (((s.loadRegs (s.mbxF fn)).mbxDefer fn).loaderNow (some fn)) := by
      rw [State.slotbLoad]
      dsimp only
      rw [if_neg (by omega), if_neg (by simp [hidle])]
      rfl
    rw [heq]
    obtain ⟨hctl, hsrcReg, hlenReg⟩ := s.loadRegs_rules (s.mbxF fn)
    obtain ⟨hfsrc, hfslot⟩ := imgCtl_fields hsrc hopt hvariant
    obtain ⟨_, hregs⟩ := s.onlyRegs_loadRegs (s.mbxF fn)
    obtain ⟨hbar, hhost, hstores⟩ := OnlyRegs.others hregs
    generalize s.loadRegs (s.mbxF fn) = v at hctl hsrcReg hlenReg hbar hhost hstores ⊢
    have hnow : (v.mbxDefer fn).loaderNow (some fn) = v.loaderNow (some fn) := rfl
    obtain ⟨hstate, hslot, hloader, hstartBar, hstartHost, hstartStores⟩ := (v.mbxDefer fn).started_rules (some fn)
    have hslotB : (v.mbxDefer fn).bitF fImgCtlSlot = true := by
      have hget : (v.mbxDefer fn).getF fImgCtlSlot = fImgCtlSlot.get (v.rd rImgCtl) := rfl
      rw [State.bitF, hget, hctl, hfslot]
      rfl
    have hdefer : (v.mbxDefer fn).bar4 = v.bar4 ∧ SameStores v (v.mbxDefer fn) :=
      ⟨rfl, rfl, rfl, rfl, rfl, rfl, rfl, rfl⟩
    have hposts : fn.val ∉ (v.mbxDefer fn).host.posts := by
      rw [State.posts_mbxDefer, List.mem_filter]
      exact fun h => absurd h.2 (by simp)
    have hloaded : ((v.loaderNow (some fn)).slot = .b) ∧ (v.loaderNow (some fn)).drive = (s.mbxF fn 8 1 == 1)
        ∧ (v.loaderNow (some fn)).viaMailbox = some fn
        ∧ (v.loaderNow (some fn)).src = BitVec.ofNat 64 (s.mbxF fn 16 8)
        ∧ (v.loaderNow (some fn)).len = BitVec.ofNat 32 (s.mbxF fn 24 4) := by
      have hsrcF : v.getF fImgCtlSrc = s.mbxF fn 8 1 := by
        rw [State.getF, show fImgCtlSrc.off = rImgCtl from rfl, hctl, hfsrc]
      have hslotF : v.bitF fImgCtlSlot = true := hslotB
      refine ⟨?_, ?_, rfl, hsrcReg, hlenReg⟩
      · rw [State.loaderNow, hslotF]
        rfl
      · rw [State.loaderNow, hsrcF]
    rw [hnow] at hloader ⊢
    have hstartedBusy : Asked s ((v.mbxDefer fn).started (some fn)) fn :=
      .of_bar4 hbusy (hstartBar.trans (hdefer.1.trans hbar))
    generalize (v.mbxDefer fn).started (some fn) = w at *
    obtain ⟨hhush, hrd, hsame, failed, hl⟩ := w.driveLoad_rules _ hloader
    obtain ⟨lslot, ldrive, lvia, lsrc, llen⟩ := hloaded
    refine ⟨?_, ?_, (hstartedBusy.hushed hhush).busy, ?_, fun h0 => ?_, _, hl, lslot, ldrive, lvia, lsrc, llen⟩
    · rw [State.imgState, State.getF_of_rd_eq (f := fImgStatusState) (hrd _ (by decide))]
      exact hstate
    · rw [State.bitF, State.getF_of_rd_eq (f := fImgStatusSlot) (hrd _ (by decide)), ← State.bitF, hslot, hslotB]
    · rw [hhush.posts, hstartHost]
      exact hposts
    · rw [hsame (by rw [ldrive, h0]; rfl)]
      exact sameStores_trans (sameStores_trans hstores hdefer.2) hstartStores

end Load

/-- Settles O54, part by part: a POST, the timeout, what turns a request away, and each command with its effect. -/
theorem mailboxAnswersEachCommand : Obligations.MailboxAnswersEachCommand :=
  ⟨fun _ v _ => ⟨post_while_busy v, post_while_idle v⟩, timeout_answers, requests_turned_away, version_answers,
    winRefill_frees, fwLoad_ends, fwAuto_begins, fun s clear refuse => ⟨fwRequest_rules s, ceiling_rules s clear refuse,
      optPower_rules s refuse, keyProg_rules s, keyRevoke_rules s, slotbGrant_rules s, slotbLoad_rules s,
      coreResume_rules s refuse, winRefill_refuses s refuse, i2cXfer_rules s refuse⟩⟩

end Sys2Proof.Machine
end

/-! ## The word of a bundle (O4, O5) -/

section

namespace Sys2Proof.Machine

open Sys2Proof Sys2Proof.Claims

/-! ### Opcodes -/

/-- The decoders match an opcode by its number; the encoders write it as a field. -/
theorem opcode_of_toNat {n k : Nat} {c : BitVec n} (h : c.toNat = k) : c = BitVec.ofNat n k := by
  rw [← h, BitVec.ofNat_toNat, BitVec.setWidth_eq]

/-- SLI and SLUI have an opcode of three bits, and the upper bits of D stand in the other three (R237). -/
theorem immOpcode_iff (w : BitVec 24) (upper : Bool) :
    0x30 ≤ (w.extractLsb' 18 6).toNat ∧ w.getLsbD 21 = upper
      ↔ w.extractLsb' 21 3 = if upper then 0b111 else 0b110 := by
  have hbit : w.getLsbD 21 = (w.extractLsb' 18 6).getLsbD 3 := by simp
  have htop : w.extractLsb' 21 3 = (w.extractLsb' 18 6).extractLsb' 3 3 := by
    ext i hi
    simp only [BitVec.getElem_extractLsb', BitVec.getLsbD_extractLsb', ← Nat.add_assoc]
    simp [show 3 + i < 6 by omega]
  have hsix : ∀ (c : BitVec 6) (b : Bool),
      0x30 ≤ c.toNat ∧ c.getLsbD 3 = b ↔ c.extractLsb' 3 3 = if b then 0b111 else 0b110 := by decide
  rw [hbit, htop, hsix]

theorem decodeCtl_of_imm {w : BitVec 24} {upper : Bool}
    (h : w.extractLsb' 21 3 = if upper then 0b111 else 0b110) :
    decodeCtl w = if upper then .slui (FmtU.dec w) else .sli (FmtU.dec w) := by
  obtain ⟨hge, hbit⟩ := (immOpcode_iff w upper).2 h
  unfold decodeCtl
  split
  case h_36 => rw [if_pos hge, hbit]
  all_goals omega

/-! ### From the word to the operation and back

The opcode and the fields of a layout stand side by side, so putting together what the decoder took
apart gives the word; an undefined opcode keeps the word itself. -/

theorem encodeCtl_decodeCtl (w : BitVec 24) : encodeCtl (decodeCtl w) = w := by
  unfold decodeCtl
  split
  case h_36 =>
    split
    case isTrue hge =>
      have htop := (immOpcode_iff w _).1 ⟨hge, rfl⟩
      split at htop
      all_goals
        rename_i hbit
        simp only [hbit, Bool.false_eq_true, if_true, if_false, encodeCtl, FmtU.dec, ← htop,
          BitVec.extractLsb'_append_extractLsb'_eq_extractLsb']
        exact BitVec.extractLsb'_eq_self
    case isFalse => rfl
  all_goals
    rename_i hop
    simp only [encodeCtl, AluOp.code, MaskOp.code, BrOp.code, BitVec.ofNat_eq_ofNat, ← opcode_of_toNat hop,
      FmtR.dec, FmtM.dec, FmtK3.dec, FmtBR.dec, FmtBM.dec, BitVec.extractLsb'_append_extractLsb'_eq_extractLsb']
    exact BitVec.extractLsb'_eq_self

theorem encodeArr_decodeArr (w : BitVec 32) : encodeArr (decodeArr w) = w := by
  unfold decodeArr
  split
  case h_7 => rfl
  all_goals
    rename_i hop
    simp only [encodeArr, BitVec.ofNat_eq_ofNat, ← opcode_of_toNat hop, FmtAmac.dec, FmtAdrq.dec,
      FmtTileMove.dec, BitVec.extractLsb'_append_extractLsb'_eq_extractLsb']
    exact BitVec.extractLsb'_eq_self

theorem encodeVec_decodeVec (w : BitVec 40) : encodeVec (decodeVec w) = w := by
  unfold decodeVec
  split
  case h_39 => rfl
  all_goals
    rename_i hop
    simp only [encodeVec, LaneOp.code, MemOp.code, BitVec.ofNat_eq_ofNat, ← opcode_of_toNat hop, FmtL.dec,
      FmtVM.dec, FmtXfr.dec, FmtVtile.dec, FmtRed.dec, BitVec.extractLsb'_append_extractLsb'_eq_extractLsb']
    exact BitVec.extractLsb'_eq_self

theorem encodeStr_decodeStr (w : BitVec 24) : encodeStr (decodeStr w) = w := by
  unfold decodeStr
  split
  case h_6 => rfl
  all_goals
    rename_i hop
    simp only [encodeStr, BitVec.ofNat_eq_ofNat, ← opcode_of_toNat hop, FmtS.dec,
      BitVec.extractLsb'_append_extractLsb'_eq_extractLsb']
    exact BitVec.extractLsb'_eq_self

/-- Settles O5: each slot's word comes back from its operation, and the slots stand side by side. -/
theorem everyBundleWordIsEncoded : Obligations.EveryBundleWordIsEncoded := by
  intro w
  simp only [Bundle.encode, Bundle.decode, encodeCtl_decodeCtl, encodeArr_decodeArr, encodeVec_decodeVec,
    encodeStr_decodeStr, BitVec.extractLsb'_append_extractLsb'_eq_extractLsb']
  exact BitVec.extractLsb'_eq_self

/-! ### From the operation to the word and back

A layout's field is read where the encoder put it: whatever stands below it is passed by, and
whatever stands above it is cut off. The opcode is read in the same way, and names the operation. -/

theorem decodeCtl_encodeCtl (op : CtlOp) (h : op.undefd = false) : decodeCtl (encodeCtl op) = op := by
  cases op
  case undef => cases h
  case' sli f => rw [decodeCtl_of_imm (upper := false)]
  case' slui f => rw [decodeCtl_of_imm (upper := true)]
  case' alu o f => cases o
  case' mask o f => cases o
  case' br o f => cases o
  all_goals
    simp (disch := decide) only [encodeCtl, decodeCtl, AluOp.code, MaskOp.code, BrOp.code, FmtR.dec, FmtM.dec,
      FmtK3.dec, FmtBR.dec, FmtBM.dec, FmtU.dec, BitVec.extractLsb'_append_eq_of_le,
      BitVec.extractLsb'_append_eq_of_add_le, Nat.reduceSub, BitVec.extractLsb'_eq_self, BitVec.reduceToNat,
      Bool.false_eq_true, if_true, if_false]

theorem decodeArr_encodeArr (op : ArrOp) (h : op.undefd = false) : decodeArr (encodeArr op) = op := by
  cases op
  case undef => cases h
  all_goals
    simp (disch := decide) only [encodeArr, decodeArr, FmtAmac.dec, FmtAdrq.dec, FmtTileMove.dec,
      BitVec.extractLsb'_append_eq_of_le, BitVec.extractLsb'_append_eq_of_add_le, Nat.reduceSub,
      BitVec.extractLsb'_eq_self, BitVec.reduceToNat]

theorem decodeVec_encodeVec (op : VecOp) (h : op.undefd = false) : decodeVec (encodeVec op) = op := by
  cases op
  case undef => cases h
  case' lane o f => cases o
  case' mem o f => cases o
  all_goals
    simp (disch := decide) only [encodeVec, decodeVec, LaneOp.code, MemOp.code, FmtL.dec, FmtVM.dec, FmtXfr.dec,
      FmtVtile.dec, FmtRed.dec, BitVec.extractLsb'_append_eq_of_le, BitVec.extractLsb'_append_eq_of_add_le,
      Nat.reduceSub, BitVec.extractLsb'_eq_self, BitVec.reduceToNat]

theorem decodeStr_encodeStr (op : StrOp) (h : op.undefd = false) : decodeStr (encodeStr op) = op := by
  cases op
  case undef => cases h
  all_goals
    simp (disch := decide) only [encodeStr, decodeStr, FmtS.dec, BitVec.extractLsb'_append_eq_of_le,
      BitVec.extractLsb'_append_eq_of_add_le, Nat.reduceSub, BitVec.extractLsb'_eq_self, BitVec.reduceToNat]

/-- Settles O4: each slot's operation comes back from its word, and each slot's word is read where it was put. -/
theorem bundleWordRoundTrips : Obligations.BundleWordRoundTrips := by
  intro b hctl harr hvec hstr
  simp (disch := decide) only [Bundle.encode, Bundle.decode, BitVec.extractLsb'_append_eq_of_le,
    BitVec.extractLsb'_append_eq_of_add_le, Nat.reduceSub, BitVec.extractLsb'_eq_self]
  rw [decodeCtl_encodeCtl _ hctl, decodeArr_encodeArr _ harr, decodeVec_encodeVec _ hvec, decodeStr_encodeStr _ hstr]

end Sys2Proof.Machine
end

/-! ## VXFR and a table that lists a codeword twice (O14) -/

section

namespace Sys2Proof.Machine

open Sys2Proof Sys2Proof.Claims

/-! ### What a read of an SRAM and a block move give -/

/-- A byte that is read: 0 where its codeword is listed as uncorrectable, wherever in the table that is (R778). -/
theorem getElem?_ramRead (m : Tab Byte) (e : Tab Ecc) (cw a : Nat) {n i : Nat} (h : i < n) :
    (ramRead m e cw a n).bytes[i]?
      = some (if (a + i) / cw ∈ eccIn e cw a n Ecc.bad then 0 else Tab.look (fun _ => 0) m (a + i)) := by
  rw [ramRead]
  dsimp only
  split
  next hnone =>
    rw [List.isEmpty_iff.1 hnone, Tab.getElem?_lookList _ _ _ h, if_neg List.not_mem_nil]
  next =>
    rw [List.getElem?_mapIdx, Tab.getElem?_lookList _ _ _ h]
    simp

/-- A VXFR into the operand cache writes what it reads of the scratchpad (R254, R778). -/
theorem State.ocache_xfrEff (s : State) (c : Nat) (x : CoreSt) {f : FmtXfr} (hdir : f.dir = 0) :
    ((s.xfrEff c x f).core c).ocache = Tab.putList (fun _ => 0) (s.core c).ocache (x.sreg f.sc).toNat
      (ramRead (s.core c).spad (s.core c).spEcc 4 (x.sreg f.sp).toNat (xfrLen f)).bytes := by
  have hread := (sameCores_spadRead s c (x.sreg f.sp).toNat (xfrLen f)).core c
  obtain ⟨_, _, hwrite⟩ := sameCores_ocWrite (s.spadRead c (x.sreg f.sp).toNat (xfrLen f)).2 c (x.sreg f.sc).toNat
    (s.spadRead c (x.sreg f.sp).toNat (xfrLen f)).1.bytes
  rw [State.core_setCore] at hread
  rw [State.xfrEff, if_pos hdir, State.core_modCore, hwrite.core, State.core_setCore, hread]
  rfl

/-- The operand cache at the end of a bundle whose VXFR moves into it: the VXFR reads the scratchpad once the control
slot and the array slot have acted. -/
theorem State.ocache_perform_of_vxfr (s : State) (c : Nat) {b : Bundle} {f : FmtXfr} (hvec : b.vec = .vxfr f)
    (hdir : f.dir = 0) :
    ((s.perform c b).core c).ocache = Tab.putList (fun _ => 0) (s.core c).ocache ((s.core c).sreg f.sc).toNat
      (ramRead ((s.vecFrom c b).core c).spad ((s.vecFrom c b).core c).spEcc 4 ((s.core c).sreg f.sp).toNat
        (xfrLen f)).bytes := by
  rw [(CoreSt.vecStore_fields (s.vecStore_perform c b)).1, State.vecTo, hvec, State.vecEff,
    State.ocache_xfrEff _ _ _ hdir, (CoreSt.vecStore_fields (s.vecStore_vecFrom c b)).1, CoreSt.fetched_sreg,
    CoreSt.fetched_sreg]

/-! ### VXFR under a table of codewords that is not in canonical form

The statement's states are not bound to tables that list each codeword once, and a bundle reads the scratchpad with
its SLD before its VXFR. An SLD of a codeword that is listed with a single-bit error, and again as uncorrectable, passes
its check by the first condition; the correction then unlists the codeword, and the VXFR moves the bytes that the read
of the state before the issue gives as 0 (R777, R778). -/

/-- Core 0 runs a program of one bundle. Its scratchpad holds the byte 1 at address 0, in such a codeword. -/
def correctable : State :=
  { State.reset with
    cores := [(0, { CoreSt.reset with
      cfgA := some oneBundle, spad := [(0, 1)], spEcc := [(0, .single), (0, .double)] })] }

/-- The slots beside a VXFR: an SLD of S0 from address 0, and two no-operations. -/
def sldBeside : Others := ⟨0, 15, 0x340000, 0, 0, 0⟩

/-- VXFR of one block from scratchpad address 0 to cache address 0. -/
def oneBlock : FmtXfr := ⟨0, 0, 0, 0, 0⟩

/-- The bundle of both. -/
def moveBundle : Bundle := withVec sldBeside (.vxfr oneBlock)

theorem correctable_issues : Issues correctable 0 moveBundle := by
  refine ⟨?_, ?_, ?_, ?_, ?_, ?_, ?_⟩
  case refine_1 =>
    unfold Runs
    decide +kernel
  all_goals decide +kernel

/-- The byte read from the state before the issue is 0. -/
theorem correctable_read :
    (ramRead (correctable.core 0).spad (correctable.core 0).spEcc 4 0 0x1000).bytes[0]? = some 0 := by
  rw [getElem?_ramRead _ _ _ _ (by decide), if_pos (by decide +kernel)]

/-- The byte that the VXFR reads, after the SLD's correction, is 1. -/
theorem correctable_moved : Tab.look (fun _ => 0) ((correctable.perform 0 moveBundle).core 0).ocache 0 = 1 := by
  have haddr : ((correctable.core 0).sreg 0).toNat = 0 := by decide +kernel
  have hlen : xfrLen oneBlock = 0x1000 := by decide
  have hecc : ((correctable.vecFrom 0 moveBundle).core 0).spEcc = [] := by decide +kernel
  have hspad : ((correctable.vecFrom 0 moveBundle).core 0).spad = [(0, 1)] := by decide +kernel
  rw [State.ocache_perform_of_vxfr correctable 0 (f := oneBlock) rfl rfl, show oneBlock.sc = 0 from rfl,
    show oneBlock.sp = 0 from rfl, haddr, hlen, hecc, hspad, Tab.look_putList, if_pos (Nat.le_refl 0),
    getElem?_ramRead _ _ _ _ (by decide)]
  decide +kernel

/-- Refutes O14: VXFR does not copy what a read of the source range before the issue gives from every state in which it
issues. Where the table of codewords lists a codeword with a single-bit error and again as uncorrectable, an SLD in the
same bundle unlists it, and the cache gets 1 where that read gives 0. -/
theorem not_blockMoveCopiesItsRange : ¬ Obligations.BlockMoveCopiesItsRange := by
  unfold Obligations.BlockMoveCopiesItsRange
  intro h
  obtain ⟨t, hexec, hmove⟩ :=
    h (.vxfr 0 oneBlock sldBeside) correctable 0 moveBundle rfl correctable_issues
  have hperform : exec (.vxfr 0 oneBlock sldBeside) correctable = .next (correctable.perform 0 moveBundle) := by
    rw [exec_of_bundleOf (b := moveBundle) (c := 0) rfl]
    exact congrArg _ (State.issue_of_issues correctable_issues)
  obtain rfl : correctable.perform 0 moveBundle = t := Host.Outcome.next.inj (hperform.symm.trans hexec)
  obtain ⟨hcache, -⟩ := hmove oneBlock rfl (fun g hg => by cases hg)
  have hzero := (hcache rfl).2 0
  have haddr : ((correctable.core (0 : Core)).sreg 0).toNat = 0 := by decide +kernel
  rw [show oneBlock.sc = 0 from rfl, show oneBlock.sp = 0 from rfl, haddr,
    if_pos ⟨Nat.le_refl 0, by decide⟩] at hzero
  have hread : (ramRead (correctable.core 0).spad (correctable.core 0).spEcc 4 0 0x1000).bytes.getD 0 0 = 0 := by
    rw [List.getD_eq_getElem?_getD, correctable_read]
    rfl
  exact absurd ((correctable_moved.symm.trans hzero).trans hread) (by decide)

end Sys2Proof.Machine
end

/-! ## What the slots of a bundle leave of the streams (O17) -/

section

namespace Sys2Proof.Machine

open Sys2Proof Sys2Proof.Claims

/-! ### What the slots but the stream slot leave of the streams -/

/-- The ports of a core, with its resident job slot and the sections of both slots, which bind them. -/
def CoreSt.portSide (x : CoreSt) : Tab PortSt × JobSlot × Option CoreCfg × Option CoreCfg :=
  (x.ports, x.slot, x.cfgA, x.cfgB)

theorem CoreSt.portSide_fields {x y : CoreSt} (h : x.portSide = y.portSide) :
    x.ports = y.ports ∧ x.slot = y.slot ∧ x.cfgA = y.cfgA ∧ x.cfgB = y.cfgB := by
  simpa [CoreSt.portSide] using h

theorem CoreSt.portSide_setS (x : CoreSt) (n : BitVec 5) (v : W32) : (x.setS n v).portSide = x.portSide := by
  unfold CoreSt.setS
  split <;> rfl

theorem CoreSt.portSide_setM (x : CoreSt) (n : BitVec 3) (v : W64) : (x.setM n v).portSide = x.portSide := by
  unfold CoreSt.setM
  split <;> rfl

theorem CoreSt.portSide_seqNext (y x : CoreSt) (rnd : BitVec 1) (n : Nat) :
    (y.seqNext x rnd n).portSide = y.portSide := by
  unfold CoreSt.seqNext
  split <;> rfl

theorem CoreSt.portSide_issued (y x : CoreSt) (op : CtlOp) : (y.issued x op).portSide = y.portSide :=
  (congrArg CoreSt.portSide (CoreSt.unsequenced_advance y x op) :)

/-- Core `c` alone changes, and keeps its ports; no route changes. -/
structure Quiet (c : Nat) (s t : State) : Prop where
  keeps : Keeps CoreSt.portSide c s t
  routes : t.routes = s.routes

section Quiet

variable {c : Nat} {s t u : State}

theorem Quiet.refl (s : State) : Quiet c s s := ⟨.refl s, rfl⟩

theorem Quiet.trans (h : Quiet c s t) (k : Quiet c t u) : Quiet c s u :=
  ⟨h.keeps.trans k.keeps, k.routes.trans h.routes⟩

theorem Quiet.setCore {x : CoreSt} (h : x.portSide = (s.core c).portSide) : Quiet c s (s.setCore c x) :=
  ⟨.setCore h, rfl⟩

theorem Quiet.modCore {f : CoreSt → CoreSt} (h : ∀ x, (f x).portSide = x.portSide) : Quiet c s (s.modCore c f) :=
  Quiet.setCore (h _)

theorem Quiet.of_log (h : LogFrame s t) : Quiet c s t := ⟨h.sameCores.keeps, by rw [h]⟩

theorem Quiet.report (s : State) (mem : Nat) (fixed bad : List Nat) :
    Quiet c s ((s.corrWords c mem fixed).logWords c mem bad) :=
  .of_log ((LogFrame.corrWords c mem _ s).trans (LogFrame.logWords c mem _ _))

theorem Quiet.of_report {x : CoreSt} {mem : Nat} {fixed bad : List Nat}
    (ht : t = ((s.setCore c x).corrWords c mem fixed).logWords c mem bad) (h : x.portSide = (s.core c).portSide) :
    Quiet c s t := by
  rw [ht]
  exact (Quiet.setCore h).trans (Quiet.report ..)

theorem Quiet.fetchFix (s : State) (b : Bundle) : Quiet c s (s.fetchFix c b) :=
  Quiet.of_report (mem := 1) (bad := []) rfl rfl

theorem Quiet.spadRead (s : State) (a n : Nat) : Quiet c s (s.spadRead c a n).2 := Quiet.of_report rfl rfl

theorem Quiet.spadWrite (s : State) (a : Nat) (l : List Byte) : Quiet c s (s.spadWrite c a l) :=
  Quiet.of_report rfl rfl

theorem Quiet.ocRead (s : State) (a n : Nat) : Quiet c s (s.ocRead c a n).2 := Quiet.of_report rfl rfl

theorem Quiet.ocWrite (s : State) (a : Nat) (l : List Byte) : Quiet c s (s.ocWrite c a l) := Quiet.of_report rfl rfl

/-! #### The control slot and the array slot -/

theorem Quiet.done (s : State) (code : Byte) : Quiet c s ((s.post c code).doneMeaning c code) := by
  have hpost : Quiet c s (s.post c code) := by
    unfold State.post
    dsimp only
    split
    · exact Quiet.setCore rfl
    · refine Quiet.trans (Quiet.trans (Quiet.setCore ?_) ⟨(sameCores_setDieColl ..).keeps, rfl⟩)
        (.of_log (LogFrame.log _ _))
      rfl
  have hroutes : ((s.post c code).doneMeaning c code).routes = (s.post c code).routes := by
    unfold State.doneMeaning State.gateDone
    dsimp only
    split_ifs <;> rfl
  exact hpost.trans ⟨(sameCores_doneMeaning ..).keeps, hroutes⟩

theorem Quiet.ctlEff (s : State) (x : CoreSt) (op : CtlOp) : Quiet c s (s.ctlEff c x op) := by
  cases op with
  | sld f => exact (Quiet.spadRead ..).trans (Quiet.modCore fun y => CoreSt.portSide_setS ..)
  | sst f => exact Quiet.spadWrite ..
  | done f => exact Quiet.done s f.code
  | mask | mfill => exact Quiet.modCore fun y => CoreSt.portSide_setM ..
  | waitcal | brk =>
    rw [State.ctlEff]
    exact Quiet.modCore fun _ => rfl
  | alu | smfs | mpop | sli | slui => exact Quiet.modCore fun y => CoreSt.portSide_setS ..
  | cnop | br | bmany | bmnone | loop | setmode | fence | undef => exact Quiet.refl s

theorem Quiet.arrEff (s : State) (x : CoreSt) (op : ArrOp) : Quiet c s (s.arrEff c x op) := by
  cases op with
  | amac | adrq | adrw | aldt | astt =>
    rw [State.arrEff]
    exact Quiet.modCore fun _ => rfl
  | anop | undef => exact Quiet.refl s

/-! #### The vector slot -/

theorem Quiet.laneEff (s : State) (x : CoreSt) (o : LaneOp) (f : FmtL) : Quiet c s (s.laneEff c x o f) := by
  unfold State.laneEff
  split
  · exact Quiet.modCore fun y => CoreSt.portSide_setM ..
  · extract_lets rs d
    clear_value rs d
    refine Quiet.modCore fun y => ?_
    extract_lets z
    have hz : z.portSide = y.portSide := CoreSt.portSide_seqNext ..
    split_ifs
    · exact hz
    · exact hz

theorem Quiet.loadEff (s : State) (x : CoreSt) (o : MemOp) (f : FmtVM) : Quiet c s (s.loadEff c x o f) := by
  unfold State.loadEff
  extract_lets ws bad fixed d
  clear_value ws bad fixed d
  refine Quiet.trans (Quiet.modCore fun y => ?_) (Quiet.report ..)
  rfl

theorem Quiet.storeEff (s : State) (x : CoreSt) (o : MemOp) (f : FmtVM) : Quiet c s (s.storeEff c x o f) := by
  unfold State.storeEff
  extract_lets act el bs ws part bad fixed
  clear_value act el bs ws part bad fixed
  refine Quiet.trans (Quiet.modCore fun y => ?_) (Quiet.report ..)
  rfl

theorem Quiet.xfrEff (s : State) (x : CoreSt) (f : FmtXfr) : Quiet c s (s.xfrEff c x f) := by
  unfold State.xfrEff
  dsimp only
  split_ifs
  · exact ((Quiet.spadRead ..).trans (Quiet.ocWrite ..)).trans (Quiet.modCore fun _ => rfl)
  · exact (Quiet.ocRead ..).trans (Quiet.spadWrite ..)

theorem Quiet.readClasses (base stride n : Nat) (l : List Nat) :
    ∀ s : State, Quiet c s (s.readClasses c base stride n l).2 := by
  induction l with
  | nil => exact Quiet.refl
  | cons k l ih => exact fun s => ((Quiet.ocRead ..).trans (Quiet.ocRead ..)).trans (ih _)

theorem Quiet.tileArray (s : State) (x : CoreSt) (f : FmtVtile) (n tseq : Nat) :
    Quiet c s (s.tileArray c x f n tseq) := by
  unfold State.tileArray
  extract_lets mode u cls st cb q sat p s1 s2 s3
  have hread : Quiet c s u.2 := Quiet.readClasses ..
  have htiles : Quiet c u.2 s2 := by
    unfold s2
    split_ifs
    · exact (Quiet.ocWrite ..).trans (Quiet.ocWrite ..)
    · exact Quiet.ocWrite ..
  have hdesc : Quiet c s2 s3 := (Quiet.ocWrite ..).trans (Quiet.ocWrite ..)
  exact ((hread.trans htiles).trans hdesc).trans (Quiet.modCore fun _ => rfl)

theorem Quiet.tileArrays (x : CoreSt) (f : FmtVtile) (l : List Nat) :
    ∀ (s : State) (tseq : Nat), Quiet c s (s.tileArrays c x f tseq l) := by
  induction l with
  | nil => exact fun s _ => Quiet.refl s
  | cons n l ih => exact fun s tseq => (Quiet.tileArray s x f n tseq).trans (ih _ _)

theorem Quiet.vecEff (s : State) (x : CoreSt) (op : VecOp) : Quiet c s (s.vecEff c x op) := by
  cases op with
  | lane o f => exact Quiet.laneEff s x o f
  | mem o f =>
    cases o with
    | vld | vldx => exact Quiet.loadEff s x _ f
    | vst | vstx => exact Quiet.storeEff s x _ f
  | vxfr f => exact Quiet.xfrEff s x f
  | vtile f => exact (Quiet.tileArrays x f _ s _).trans (Quiet.modCore fun _ => CoreSt.portSide_seqNext ..)
  | rclr f =>
    rw [State.vecEff]
    refine Quiet.modCore fun y => ?_
    split_ifs <;> rfl
  | rget f => exact Quiet.modCore fun y => CoreSt.portSide_setS ..
  | rgetn f =>
    rw [State.vecEff]
    exact Quiet.modCore fun y => by rw [CoreSt.portSide_setS, CoreSt.portSide_setS]
  | vnop | undef => exact Quiet.refl s

/-! #### Before the stream slot, and after it -/

/-- The stream slot finds the ports and the routes as they were before the issue. -/
theorem Quiet.vecTo (s : State) (b : Bundle) : Quiet c s (s.vecTo c b) :=
  (((Quiet.fetchFix s b).trans (Quiet.ctlEff ..)).trans (Quiet.arrEff ..)).trans (Quiet.vecEff ..)

theorem Quiet.fenceEff (s : State) (x : CoreSt) (b : Bundle) : Quiet c s (s.fenceEff c x b) := by
  unfold State.fenceEff
  split
  · unfold State.startFence
    split_ifs <;> exact Quiet.modCore fun _ => rfl
  · exact Quiet.refl s

end Quiet

/-- The state after the stream slot of a bundle. -/
def State.strTo (s : State) (c : Nat) (b : Bundle) : State :=
  (s.vecTo c b).strEff c ((s.core c).fetched b) b.str

/-- What follows the stream slot leaves the ports and the routes to it. -/
theorem Quiet.perform (s : State) (c : Nat) (b : Bundle) : Quiet c (s.strTo c b) (s.perform c b) := by
  rw [State.perform_eq]
  exact (Quiet.fenceEff ..).trans (Quiet.modCore fun y => CoreSt.portSide_issued ..)

theorem State.reg_perform_strTo (s : State) (c : Nat) (b : Bundle) (r : RegName) :
    ((s.perform c b).core c).reg r = ((s.strTo c b).core c).reg r := by
  rw [State.core_perform]
  exact (congrArg Prod.fst (CoreSt.beside_issued ..)).trans (Keeps.beside_fenceEff ..).reg_of_beside.core

end Sys2Proof.Machine
end

/-! ## The stream slot (O17) -/

section

namespace Sys2Proof.Machine

open Sys2Proof Sys2Proof.Claims

/-! ### Ports and routes -/

theorem CoreSt.port_of_portSide {x y : CoreSt} (h : x.portSide = y.portSide) (p : Nat) : x.port p = y.port p := by
  obtain ⟨hports, -⟩ := CoreSt.portSide_fields h
  rw [CoreSt.port, hports, CoreSt.port]

theorem CoreSt.port_setPort_ne (x : CoreSt) {p q : Nat} (v : PortSt) (h : q ≠ p) :
    (x.setPort p v).port q = x.port q :=
  Tab.look_ins_ne _ _ _ _ h.symm

theorem CoreSt.bindIn_of_portSide {x y : CoreSt} (h : x.portSide = y.portSide) (plane p : Nat) :
    x.bindIn plane p = y.bindIn plane p := by
  obtain ⟨-, hslot, hA, hB⟩ := CoreSt.portSide_fields h
  rw [CoreSt.bindIn, CoreSt.cfg, hslot, hA, hB]
  rfl

theorem State.route_of_routes {s t : State} (h : t.routes = s.routes) (j : JobSlot) (r : Nat) :
    t.route j r = s.route j r := by
  rw [State.route, h, State.route]

theorem State.route_creditBack_ne (s : State) (j : JobSlot) {r r' : Nat} (h : r' ≠ r) :
    (s.creditBack j r).route j r' = s.route j r' :=
  Tab.look_ins_ne _ _ _ _ (by unfold routeKey; omega)

theorem State.creditsBack_creditBack (s : State) (j : JobSlot) (r r' : Nat) :
    ((s.creditBack j r).route j r').creditsBack
      = (s.route j r').creditsBack + if r = r' then 1 else 0 := by
  by_cases h : r = r'
  · subst h
    rw [if_pos rfl, State.creditBack, State.route_setRoute]
  · rw [if_neg h, State.route_creditBack_ne s j (Ne.symm h), Nat.add_zero]

/-- Each word of a list sends a credit back on its route (R277). -/
theorem State.creditsBack_creditsBack (j : JobSlot) (r : Nat) (l : List Nat) :
    ∀ s : State, ((s.creditsBack j l).route j r).creditsBack = (s.route j r).creditsBack + l.count r := by
  induction l with
  | nil => exact fun _ => rfl
  | cons k l ih =>
    intro s
    rw [State.creditsBack, ih, State.creditsBack_creditBack, List.count_cons]
    by_cases h : k = r
    · simp [h]
      omega
    · simp [h]

/-! ### The words that SRECV and SDROP take off a queue -/

theorem State.popWord_of_cons {s : State} {c p r : Nat} {w : SWord} {q : List (Nat × SWord)}
    (h : ((s.core c).port p).queue = (r, w) :: q) :
    s.popWord c p = (some w, (s.setCore c ((s.core c).setPort p
      { (s.core c).port p with queue := q, mid := !w.last })).creditBack (s.core c).slot r) := by
  simp only [State.popWord, h]

/-- A queue with a word marked LAST, at the first of those (R261). -/
theorem splitLast_of_last : ∀ l : List (Nat × SWord), (splitLast l).2.1 = true →
    ∃ ws w q, l = ws ++ w :: q ∧ (∀ u ∈ ws, u.2.last = false) ∧ w.2.last = true
      ∧ splitLast l = (ws ++ [w], true, q) := by
  intro l
  induction l with
  | nil => exact fun h => absurd h Bool.false_ne_true
  | cons a l ih =>
    intro h
    cases hlast : a.2.last with
    | true => exact ⟨[], a, l, rfl, by simp, hlast, by simp [splitLast, hlast]⟩
    | false =>
      simp only [splitLast, hlast, Bool.false_eq_true, if_false] at h
      obtain ⟨ws, w, q, rfl, hws, hw, hsplit⟩ := ih h
      refine ⟨a :: ws, w, q, rfl, ?_, hw, ?_⟩
      · rintro u (_ | ⟨_, hu⟩)
        · exact hlast
        · exact hws u hu
      · simp [splitLast, hlast, hsplit]

theorem State.dropWords_of_last {s : State} {c p : Nat} {ws q : List (Nat × SWord)} {w : Nat × SWord}
    (h : splitLast ((s.core c).port p).queue = (ws ++ [w], true, q)) :
    s.dropWords c p = (s.setCore c ((s.core c).setPort p
      { (s.core c).port p with queue := q, mid := !w.2.last })).creditsBack (s.core c).slot
        ((ws ++ [w]).map (·.1)) := by
  simp only [State.dropWords, h, List.getLast?_concat]

/-! ### What the checks before the issue say of the stream slot's port -/

section Statement

variable {s : State} {c : Nat} {b : Bundle} {f : FmtS}

/-- A bundle that issues raises no ILLEGAL in its stream slot (R234). -/
theorem CoreSt.strIll_of_issues (h : Issues s c b) : (s.core c).strIll b.str = none := by
  obtain ⟨-, -, -, -, -, hill, -⟩ := h
  simp only [State.illegalAt] at hill
  split_ifs at hill
  simp only [Option.orElse_eq_or, Option.or_eq_none_iff, Option.map_eq_none_iff] at hill
  obtain ⟨⟨-, hstr⟩, -⟩ := hill
  exact hstr

/-- A bundle that issues finds its stream operation free to go (R279). -/
theorem CoreSt.strHold_of_issues (h : Issues s c b) : (s.core c).strHold b.str = false := by
  obtain ⟨-, -, -, -, hholds, -⟩ := h
  simp only [CoreSt.holds, List.append_eq_nil_iff] at hholds
  obtain ⟨⟨⟨-, hstr⟩, -⟩, -⟩ := hholds
  simpa using hstr

theorem CoreSt.bind_of_strPort {x : CoreSt} {p : BitVec 5} {out : Bool} (h : x.strPort p out = true) :
    ∃ r, x.bind p.toNat = some r ∧ r.out = out := by
  unfold CoreSt.strPort at h
  split at h
  next r hbind => exact ⟨r, hbind, by simpa using (Bool.and_eq_true_iff.1 h).2⟩
  next => cases h

/-- The port of a bundle that issues is bound in the direction of its stream operation (R248). -/
theorem CoreSt.strPort_of_issues (h : Issues s c b) :
    (b.str = .srecv f ∨ b.str = .sdrop f → (s.core c).strPort f.port false = true)
      ∧ (b.str = .ssend f → (s.core c).strPort f.port true = true)
      ∧ (b.str = .slevel f → ((s.core c).bind f.port.toNat).isSome = true) := by
  have hall := firstFail_eq_none (CoreSt.strIll_of_issues h)
  simp only [List.mem_cons, List.not_mem_nil, or_false, forall_eq_or_imp, forall_eq, Bool.or_eq_false_iff] at hall
  obtain ⟨-, -, -, hport⟩ := hall
  refine ⟨?_, fun hstr => ?_, fun hstr => ?_⟩
  · rintro (hstr | hstr)
    all_goals
      rw [hstr] at hport
      simpa using hport
  · rw [hstr] at hport
    simpa using hport
  · rw [hstr] at hport
    simpa [Option.isSome_iff_ne_none] using hport

theorem CoreSt.srecv_of_issues (h : Issues s c b) (hstr : b.str = .srecv f) :
    ∃ r w q, ((s.core c).port f.port.toNat).queue = (r, w) :: q := by
  have hport := (CoreSt.strPort_of_issues h).1 (.inl hstr)
  have hhold := CoreSt.strHold_of_issues h
  rw [hstr] at hhold
  simp only [CoreSt.strHold, hport, Bool.true_and, List.isEmpty_eq_false_iff] at hhold
  obtain ⟨⟨r, w⟩, q, hq⟩ := List.exists_cons_of_ne_nil hhold
  exact ⟨r, w, q, hq⟩

theorem CoreSt.ssend_of_issues (h : Issues s c b) (hstr : b.str = .ssend f) :
    ∃ r, (s.core c).bind f.port.toNat = some r ∧ r.out = true
      ∧ ((s.core c).port f.port.toNat).queue.length < (s.core c).depth f.port.toNat := by
  have hport := (CoreSt.strPort_of_issues h).2.1 hstr
  have hhold := CoreSt.strHold_of_issues h
  rw [hstr] at hhold
  simp only [CoreSt.strHold, hport, Bool.true_and, CoreSt.free, beq_eq_false_iff_ne] at hhold
  obtain ⟨r, hbind, hout⟩ := CoreSt.bind_of_strPort hport
  exact ⟨r, hbind, hout, by omega⟩

theorem CoreSt.sdrop_of_issues (h : Issues s c b) (hstr : b.str = .sdrop f) :
    (splitLast ((s.core c).port f.port.toNat).queue).2.1 = true := by
  have hport := (CoreSt.strPort_of_issues h).1 (.inr hstr)
  have hhold := CoreSt.strHold_of_issues h
  rw [hstr] at hhold
  simpa only [CoreSt.strHold, hport, Bool.true_and, Bool.not_eq_false'] using hhold

theorem CoreSt.slevel_of_issues (h : Issues s c b) (hstr : b.str = .slevel f) :
    ∃ r, (s.core c).bind f.port.toNat = some r := by
  exact Option.isSome_iff_exists.1 ((CoreSt.strPort_of_issues h).2.2 hstr)

/-! ### The stream operations at the end of their bundle -/

/-- The ports and routes at the end of a bundle are those that the stream slot left. -/
theorem State.streams_perform (s : State) (c : Nat) (b : Bundle) :
    (∀ p, ((s.perform c b).core c).port p = ((s.strTo c b).core c).port p)
      ∧ ∀ j r, (s.perform c b).route j r = (s.strTo c b).route j r :=
  ⟨CoreSt.port_of_portSide (Quiet.perform s c b).keeps.core, State.route_of_routes (Quiet.perform s c b).routes⟩

/-- The state in which the stream slot acts has the streams of the state before the issue. -/
theorem State.streams_vecTo (s : State) (c : Nat) (b : Bundle) :
    (∀ p, ((s.vecTo c b).core c).port p = (s.core c).port p) ∧ ((s.vecTo c b).core c).slot = (s.core c).slot
      ∧ ∀ j r, (s.vecTo c b).route j r = s.route j r := by
  have hquiet : Quiet c s (s.vecTo c b) := Quiet.vecTo s b
  exact ⟨CoreSt.port_of_portSide hquiet.keeps.core, (CoreSt.portSide_fields hquiet.keeps.core).2.1,
    State.route_of_routes hquiet.routes⟩

/-- SRECV pops its port, sends the credit back and writes its register; a poisoned word is logged besides (R273). -/
theorem State.strEff_srecv {u : State} (x : CoreSt) {r : Nat} {w : SWord} {q : List (Nat × SWord)}
    (hq : ((u.core c).port f.port.toNat).queue = (r, w) :: q) :
    LogFrame (((u.setCore c ((u.core c).setPort f.port.toNat
      { (u.core c).port f.port.toNat with queue := q, mid := !w.last })).creditBack (u.core c).slot r).modCore c
        fun y => y.setV f.v w.data) (u.strEff c x (.srecv f)) := by
  simp only [State.strEff, State.popWord_of_cons hq]
  split_ifs
  · exact LogFrame.incompFor _ c
  · exact LogFrame.refl _

theorem State.perform_srecv (h : Issues s c b) (hstr : b.str = .srecv f) :
    ∃ r w q, ((s.core c).port f.port.toNat).queue = (r, w) :: q
      ∧ ((s.perform c b).core c).vreg f.v = w.data
      ∧ (((s.perform c b).core c).port f.port.toNat).queue = q
      ∧ ((s.perform c b).route (s.core c).slot r).creditsBack = (s.route (s.core c).slot r).creditsBack + 1
      ∧ (∀ p, p ≠ f.port.toNat → ((s.perform c b).core c).port p = (s.core c).port p)
      ∧ ∀ r', r' ≠ r → (s.perform c b).route (s.core c).slot r' = s.route (s.core c).slot r' := by
  obtain ⟨r, w, q, hq⟩ := CoreSt.srecv_of_issues h hstr
  obtain ⟨hport, hroute⟩ := s.streams_perform c b
  obtain ⟨hport', hslot, hroute'⟩ := s.streams_vecTo c b
  have heff := State.strEff_srecv ((s.core c).fetched b) (f := f) ((congrArg PortSt.queue (hport' _)).trans hq)
  rw [← hstr, ← State.strTo, hslot] at heff
  have hcore := heff.sameCores.core c
  rw [State.core_modCore, State.creditBack, State.setRoute_core, State.core_setCore] at hcore
  have hroutes := State.route_of_routes (t := s.strTo c b) (by rw [heff]) (s.core c).slot
  refine ⟨r, w, q, hq, ?_, ?_, ?_, fun p hp => ?_, fun r' hr => ?_⟩
  · rw [CoreSt.vreg_eq_of_reg (s.reg_perform_strTo c b (.v f.v)), hcore, CoreSt.vreg_setV_same]
  · rw [hport, hcore]
    exact congrArg PortSt.queue (CoreSt.port_setPort ..)
  · rw [hroute, hroutes, ← hroute']
    exact (State.creditsBack_creditBack _ _ r r).trans (by rw [if_pos rfl]; rfl)
  · rw [hport, hcore, ← hport']
    exact CoreSt.port_setPort_ne _ _ hp
  · rw [hroute, hroutes, ← hroute']
    exact State.route_creditBack_ne _ _ hr

theorem State.perform_ssend (h : Issues s c b) (hstr : b.str = .ssend f) :
    (s.perform c b).routes = s.routes
      ∧ (∀ p, p ≠ f.port.toNat → ((s.perform c b).core c).port p = (s.core c).port p)
      ∧ ∃ r, (s.core c).bind f.port.toNat = some r ∧ r.out = true
        ∧ ((s.core c).port f.port.toNat).queue.length < (s.core c).depth f.port.toNat
        ∧ (((s.perform c b).core c).port f.port.toNat).queue = ((s.core c).port f.port.toNat).queue
          ++ [(r.route, ⟨(s.core c).vreg f.v, f.last == 1, f.lend == 1, false, false, 0⟩)] := by
  obtain ⟨r, hbind, hout, hroom⟩ := CoreSt.ssend_of_issues h hstr
  obtain ⟨hport, -⟩ := s.streams_perform c b
  obtain ⟨hport', -, -⟩ := s.streams_vecTo c b
  have hto : s.strTo c b = (s.vecTo c b).modCore c fun y => y.pushWord (s.core c).splane f.port.toNat
      ⟨(s.core c).vreg f.v, f.last == 1, f.lend == 1, false, false, 0⟩ := by
    rw [State.strTo, hstr]
    rfl
  have hbind' : ((s.vecTo c b).core c).bindIn (s.core c).splane f.port.toNat = some r :=
    (CoreSt.bindIn_of_portSide (Quiet.vecTo s b).keeps.core ..).trans hbind
  refine ⟨?_, fun p hp => ?_, r, hbind, hout, hroom, ?_⟩
  · rw [(Quiet.perform s c b).routes, hto, State.modCore_routes, (Quiet.vecTo (c := c) s b).routes]
  · rw [hport, hto, State.core_modCore, ← hport']
    exact CoreSt.port_setPort_ne _ _ hp
  · rw [hport, hto, State.core_modCore, CoreSt.pushWord, CoreSt.port_setPort, hbind', hport']
    rfl

theorem State.perform_sdrop (h : Issues s c b) (hstr : b.str = .sdrop f) :
    ∃ ws w q, ((s.core c).port f.port.toNat).queue = ws ++ w :: q
      ∧ (∀ u ∈ ws, u.2.last = false) ∧ w.2.last = true
      ∧ (((s.perform c b).core c).port f.port.toNat).queue = q
      ∧ (∀ p, p ≠ f.port.toNat → ((s.perform c b).core c).port p = (s.core c).port p)
      ∧ ∀ r, ((s.perform c b).route (s.core c).slot r).creditsBack
          = (s.route (s.core c).slot r).creditsBack + (ws ++ [w]).countP fun u => u.1 == r := by
  obtain ⟨ws, w, q, hq, hws, hw, hsplit⟩ := splitLast_of_last _ (CoreSt.sdrop_of_issues h hstr)
  obtain ⟨hport, hroute⟩ := s.streams_perform c b
  obtain ⟨hport', hslot, hroute'⟩ := s.streams_vecTo c b
  have hto : s.strTo c b = (s.vecTo c b).dropWords c f.port.toNat := by
    rw [State.strTo, hstr]
    rfl
  rw [State.dropWords_of_last ((congrArg (fun p : PortSt => splitLast p.queue) (hport' _)).trans hsplit), hslot] at hto
  have hcore : (s.strTo c b).core c = ((s.vecTo c b).core c).setPort f.port.toNat
      { ((s.vecTo c b).core c).port f.port.toNat with queue := q, mid := !w.2.last } := by
    rw [hto, (sameCores_creditsBack ..).core, State.core_setCore]
  refine ⟨ws, w, q, hq, hws, hw, ?_, fun p hp => ?_, fun r => ?_⟩
  · rw [hport, hcore, CoreSt.port_setPort]
  · rw [hport, hcore, ← hport']
    exact CoreSt.port_setPort_ne _ _ hp
  · rw [hroute, hto, State.creditsBack_creditsBack, ← hroute', List.count, List.countP_map]
    rfl

theorem State.perform_slevel (h : Issues s c b) (hstr : b.str = .slevel f) :
    ((s.perform c b).core c).ports = (s.core c).ports ∧ (s.perform c b).routes = s.routes
      ∧ (f.v ≠ 0 → ∃ r, (s.core c).bind f.port.toNat = some r
        ∧ ((s.perform c b).core c).sreg f.v = BitVec.ofNat 32
          (if r.out then (s.core c).depth f.port.toNat - ((s.core c).port f.port.toNat).queue.length
            else ((s.core c).port f.port.toNat).queue.length)) := by
  obtain ⟨r, hbind⟩ := CoreSt.slevel_of_issues h hstr
  have hto : s.strTo c b = (s.vecTo c b).modCore c fun y =>
      y.setS f.v (BitVec.ofNat 32 ((s.core c).level f.port.toNat)) := by
    rw [State.strTo, hstr]
    rfl
  have hquiet : Quiet c s (s.perform c b) := by
    refine ((Quiet.vecTo s b).trans ?_).trans (Quiet.perform s c b)
    rw [hto]
    exact Quiet.modCore fun y => CoreSt.portSide_setS ..
  refine ⟨(CoreSt.portSide_fields hquiet.keeps.core).1, hquiet.routes, fun hv => ⟨r, hbind, ?_⟩⟩
  rw [CoreSt.sreg_eq_of_reg (s.reg_perform_strTo c b (.s f.v)), hto, State.core_modCore, CoreSt.sreg_setS_same _ hv,
    CoreSt.level, hbind]
  rfl

theorem State.perform_snop {z : FmtZ20} (hstr : b.str = .snop z) : Quiet c s (s.perform c b) := by
  refine (Quiet.vecTo s b).trans ?_
  have hto : s.strTo c b = s.vecTo c b := by
    rw [State.strTo, hstr]
    rfl
  rw [← hto]
  exact Quiet.perform s c b

end Statement

/-- Settles O17, operation by operation: the other slots leave the ports and the routes alone, and the checks before the
issue give the stream slot its word, its place or its binding. -/
theorem streamOperationsMoveWords : Obligations.StreamOperationsMoveWords := by
  unfold Obligations.StreamOperationsMoveWords
  intro i s c b hb h
  refine ⟨s.perform c b, by rw [exec_of_bundleOf hb, State.issue_of_issues h], fun f => State.perform_srecv h,
    fun f => State.perform_ssend h, fun f => State.perform_sdrop h, fun f => State.perform_slevel h, fun f hstr => ?_⟩
  have hquiet : Quiet c s (s.perform c b) := State.perform_snop hstr
  exact ⟨(CoreSt.portSide_fields hquiet.keeps.core).1, hquiet.routes⟩

end Sys2Proof.Machine
end

/-! ## Words and credits on a route (O27) -/

section

namespace Sys2Proof.Machine

open Sys2Proof Sys2Proof.Claims

/-! ### Steps of one core that leave the routes alone -/

/-- Core `c` alone changes, and keeps what `view` shows of it; no route changes. -/
structure Within {β : Type} (view : CoreSt → β) (c : Nat) (s t : State) : Prop where
  keeps : Keeps view c s t
  routes : t.routes = s.routes

section Within

variable {β γ : Type} {view : CoreSt → β} {c : Nat} {s t u : State}

theorem Within.refl (s : State) : Within view c s s := ⟨.refl s, rfl⟩

theorem Within.trans (h : Within view c s t) (k : Within view c t u) : Within view c s u :=
  ⟨h.keeps.trans k.keeps, k.routes.trans h.routes⟩

theorem Within.setCore {x : CoreSt} (h : view x = view (s.core c)) : Within view c s (s.setCore c x) :=
  ⟨.setCore h, rfl⟩

theorem Within.modCore {f : CoreSt → CoreSt} (h : ∀ x, view (f x) = view x) : Within view c s (s.modCore c f) :=
  .setCore (h _)

theorem Within.of_quiet (h : Quiet c s t) (hview : ∀ x y : CoreSt, x.portSide = y.portSide → view x = view y) :
    Within view c s t :=
  ⟨h.keeps.mono hview, h.routes⟩

theorem Within.of_log (h : LogFrame s t) : Within view c s t := ⟨h.sameCores.keeps, by rw [h]⟩

theorem Within.route (h : Within view c s t) (j : JobSlot) (r : Nat) : t.route j r = s.route j r :=
  State.route_of_routes h.routes j r

end Within

/-! ### Statistic taps (R169, R170) -/

section Taps

variable {c : Nat}

/-- The words that wait at each port of a core. -/
def CoreSt.queues (x : CoreSt) : Nat → List (Nat × SWord) := fun p => (x.port p).queue

theorem CoreSt.queues_of_portSide {x y : CoreSt} (h : x.portSide = y.portSide) : x.queues = y.queues :=
  funext fun p => congrArg PortSt.queue (CoreSt.port_of_portSide h p)

theorem CoreSt.queues_setPort (x : CoreSt) {p : Nat} {v : PortSt} (h : v.queue = (x.port p).queue) :
    (x.setPort p v).queues = x.queues := by
  funext q
  by_cases hq : q = p
  · subst hq
    rw [CoreSt.queues, CoreSt.port_setPort, h]
    rfl
  · rw [CoreSt.queues, CoreSt.port_setPort_ne x v hq]
    rfl

theorem Within.spadWrite (s : State) (a : Nat) (l : List Byte) : Within CoreSt.queues c s (s.spadWrite c a l) :=
  .of_quiet (Quiet.spadWrite s a l) fun _ _ => CoreSt.queues_of_portSide

theorem CoreSt.queues_setTap (x : CoreSt) (t : Nat) (v : TapSt) : (x.setTap t v).queues = x.queues := rfl

theorem Within.takeFree {β : Type} {view : CoreSt → β} (s : State) : Within view c s s.takeFree.2 :=
  ⟨(sameCores_takeFree s).keeps, rfl⟩

/-- A tap that sees a token takes no word from a port. -/
theorem Within.tapToken (s : State) (t : Nat) (cf : TapCfg) (tile : Bool) (ws : List SWord) :
    Within CoreSt.queues c s (s.tapToken c t cf tile ws) := by
  unfold State.tapToken
  extract_lets x tp clean s1 tp1
  have hfold : Within CoreSt.queues c s s1 := by
    unfold s1
    split
    · exact .refl s
    · split
      · exact .setCore (CoreSt.queues_setTap ..)
      · exact (Within.takeFree s).trans (.modCore fun _ => CoreSt.queues_setTap ..)
  clear_value s1
  split
  · exact (hfold.trans (.modCore fun _ => CoreSt.queues_setTap ..)).trans (.spadWrite ..)
  · exact hfold

theorem Within.tapAll (tile : Bool) (ws : List SWord) (l : List (Nat × TapCfg)) :
    ∀ s : State, Within CoreSt.queues c s (s.tapAll c tile ws l) := by
  induction l with
  | nil => exact .refl
  | cons t l ih => exact fun s => (Within.tapToken s t.1 t.2 tile ws).trans (ih _)

theorem Within.tapWord (s : State) (j : JobSlot) (p : Nat) (out tile : Bool) (w : SWord) :
    Within CoreSt.queues c s (s.tapWord j c p out tile w) := by
  unfold State.tapWord
  extract_lets x ts ws
  have hgather (l : List SWord) :
      Within CoreSt.queues c s (s.setCore c (x.setPort p { x.port p with tapWords := l })) :=
    .setCore (CoreSt.queues_setPort x rfl)
  split_ifs
  · exact .refl s
  · exact (hgather []).trans (.tapAll ..)
  · exact hgather ws
  · exact .refl s

end Taps

/-! ### A word leaves its source (R269, R275, R277) -/

section Send

variable {s t : State} {j : JobSlot} {r : Fin 4096} {o : Fin 16} {cf : RouteCfg} {w : SWord}

/-- A word that has left its source by a route took one credit and is in flight. -/
def State.sent (s : State) (j : JobSlot) (r : Nat) (w : SWord) : State :=
  s.setRoute j r { s.route j r with credits := (s.route j r).credits - 1, flight := (s.route j r).flight ++ [w] }

theorem State.sent_rules (h : t.routes = s.routes) (j : JobSlot) (r : Nat) (w : SWord) :
    ((t.sent j r w).route j r).flight = (s.route j r).flight ++ [w]
      ∧ ((t.sent j r w).route j r).credits = (s.route j r).credits - 1
      ∧ ((t.sent j r w).route j r).creditsBack = (s.route j r).creditsBack := by
  rw [State.sent, State.route_setRoute, State.route_of_routes h]
  exact ⟨rfl, rfl, rfl⟩

theorem State.stagingSent_self (s : State) (r : Nat) : s.stagingSent s r = false := by
  simp [State.stagingSent]

/-- In another offset, or without a credit, nothing leaves. -/
theorem exec_routeWordSend_of_barred (hcf : s.routeCfg j r = some cf)
    (h : cf.offs.getLsbD o = false ∨ (s.route j r).credits = 0) : exec (.routeWordSend j r o) s = .next s := by
  have hsend : s.routeSend j r o = s := by
    have hbarred : (!cf.offs.getLsbD o || (s.route j r).credits == 0) = true := by simpa using h
    rw [State.routeSend, hcf]
    exact if_pos hbarred
  have hexec : exec (.routeWordSend j r o) s
      = .next (if j = .a ∧ s.stagingSent (s.routeSend j r o) r then (s.routeSend j r o).collSent r
          else s.routeSend j r o) := rfl
  rw [hexec, hsend, State.stagingSent_self]
  simp

/-- A word that is ready at a source other than a staging region leaves. -/
theorem exec_routeWordSend_of_word (hcf : s.routeCfg j r = some cf) (hoff : cf.offs.getLsbD o = true)
    (hcredit : 0 < (s.route j r).credits) (hkind : epKind cf.src ≠ 2)
    (hword : s.sourceWord j r cf = (some w, t)) : exec (.routeWordSend j r o) s = .next (t.sent j r w) := by
  have hsend : s.routeSend j r o = t.sent j r w := by
    have hfree : ¬ (!cf.offs.getLsbD o || (s.route j r).credits == 0) = true := by
      simp only [hoff, Bool.not_true, Bool.false_or, beq_iff_eq]
      omega
    rw [State.routeSend, hcf]
    dsimp only
    rw [if_neg hfree, hword]
    rfl
  have hstaging : ¬ (j = .a ∧ s.stagingSent (s.routeSend j r o) r = true) := by
    rintro ⟨rfl, h⟩
    simp [State.stagingSent, hcf, hkind] at h
  have hexec : exec (.routeWordSend j r o) s
      = .next (if j = .a ∧ s.stagingSent (s.routeSend j r o) r then (s.routeSend j r o).collSent r
          else s.routeSend j r o) := rfl
  rw [hexec, if_neg hstaging, hsend]

variable {q : List SWord}

/-- A core's port gives the front word of its queue, which the taps see. -/
theorem State.sourceWord_port {l : List (Nat × SWord)} (hkind : epKind cf.src = 0)
    (hqueue : ((s.core (epIdx cf.src / 32)).port (epIdx cf.src % 32)).queue = (r.val, w) :: l)
    (hfault : ((s.core (epIdx cf.src / 32)).port (epIdx cf.src % 32)).fault = false)
    (hsends : (((s.core (epIdx cf.src / 32)).cfgOf j).map fun k => k.sends (epIdx cf.src % 32) r).getD false = true) :
    let x := s.core (epIdx cf.src / 32)
    s.sourceWord j r cf = (some w, (s.setCore (epIdx cf.src / 32) (x.setPort (epIdx cf.src % 32)
      { x.port (epIdx cf.src % 32) with queue := l })).tapWord j (epIdx cf.src / 32) (epIdx cf.src % 32) true
        cf.tile w) := by
  simp [State.sourceWord, hkind, hqueue, hfault, hsends]

theorem State.sourceWord_endpoint (hkind : epKind cf.src = 1)
    (hbuf : (s.ep j (epIdx cf.src / 240) (epIdx cf.src % 240)).buf = w :: q) :
    s.sourceWord j r cf = (some w, s.setEp j (epIdx cf.src / 240) (epIdx cf.src % 240)
      { s.ep j (epIdx cf.src / 240) (epIdx cf.src % 240) with buf := q }) := by
  simp [State.sourceWord, hkind, hbuf]

theorem State.sourceWord_channel {n : Nat} (hkind : 4 ≤ epKind cf.src)
    (hchan : s.chanOf r (epIdx cf.src) = some n) (hwords : (s.landing n).words = w :: q) :
    s.sourceWord j r cf = (some w, s.setLanding n
      (({ s.landing n with words := q } : ChanSt).refillDebt (s.chanDepth n))) := by
  unfold State.sourceWord
  split
  · omega
  · omega
  · omega
  · simp [hchan, hwords]

/-- Without a debt a channel's free place stays free. -/
theorem ChanSt.refillDebt_of_no_debt {x : ChanSt} (h : x.debts = 0) (depth : Nat) : x.refillDebt depth = x :=
  if_neg (by simp [h])

/-- A word leaves a core's port. -/
theorem port_sends (hcf : s.routeCfg j r = some cf) (hoff : cf.offs.getLsbD o = true)
    (hcredit : 0 < (s.route j r).credits) (c p : Nat) (w : SWord) (l : List (Nat × SWord))
    (hkind : epKind cf.src = 0) (hc : c = epIdx cf.src / 32) (hp : p = epIdx cf.src % 32)
    (hqueue : ((s.core c).port p).queue = (r.val, w) :: l) (hfault : ((s.core c).port p).fault = false)
    (hsends : (((s.core c).cfgOf j).map fun k => k.sends p r).getD false = true) :
    ∃ t, exec (.routeWordSend j r o) s = .next t
      ∧ ((t.core c).port p).queue = l
      ∧ (t.route j r).flight = (s.route j r).flight ++ [w]
      ∧ (t.route j r).credits = (s.route j r).credits - 1
      ∧ (t.route j r).creditsBack = (s.route j r).creditsBack
      ∧ (∀ d, d ≠ c → t.core d = s.core d) ∧ t.mem = s.mem := by
  subst hc hp
  have hword := State.sourceWord_port (j := j) hkind hqueue hfault hsends
  extract_lets x at hword
  set c := epIdx cf.src / 32
  set p := epIdx cf.src % 32
  set u := s.setCore c (x.setPort p { x.port p with queue := l }) with hu
  have htap : Within CoreSt.queues c u (u.tapWord j c p true cf.tile w) := .tapWord ..
  have hothers : ∀ d, d ≠ c → u.core d = s.core d := fun d hd => State.core_setCore_ne s c _ (Ne.symm hd)
  have hq : (u.core c).queues p = l := by
    rw [CoreSt.queues, hu, State.core_setCore, CoreSt.port_setPort]
  obtain ⟨hflight, hcredits, hback⟩ := State.sent_rules (s := s) (htap.routes.trans rfl) j r w
  exact ⟨_, exec_routeWordSend_of_word hcf hoff hcredit (by omega) hword,
    (congrFun htap.keeps.core p).trans hq, hflight, hcredits, hback,
    fun d hd => (htap.keeps.others d hd).trans (hothers d hd), htap.keeps.mem⟩

end Send

/-! ### A word and a credit arrive (R270, R274, R275, R277) -/

section Arrive

variable {s t u : State} {j : JobSlot} {r : Nat}

/-- What arrives leaves alone: the words in flight and the credits of its route, and device memory. -/
structure Lands (j : JobSlot) (r : Nat) (s t : State) : Prop where
  flight : (t.route j r).flight = (s.route j r).flight
  credits : (t.route j r).credits = (s.route j r).credits
  mem : t.mem = s.mem

theorem Lands.trans (h : Lands j r s t) (k : Lands j r t u) : Lands j r s u :=
  ⟨k.flight.trans h.flight, k.credits.trans h.credits, k.mem.trans h.mem⟩

theorem Lands.of_routes (h : t.routes = s.routes) (hmem : t.mem = s.mem) : Lands j r s t :=
  ⟨congrArg RouteSt.flight (State.route_of_routes h j r), congrArg RouteSt.credits (State.route_of_routes h j r),
    hmem⟩

theorem Lands.refl (s : State) : Lands j r s s := .of_routes rfl rfl

theorem Lands.setRoute {x : RouteSt} (hflight : x.flight = (s.route j r).flight)
    (hcredits : x.credits = (s.route j r).credits) : Lands j r s (s.setRoute j r x) :=
  ⟨by rw [State.route_setRoute, hflight], by rw [State.route_setRoute, hcredits], rfl⟩

theorem Lands.creditBack (h : Lands j r s t) : Lands j r s (t.creditBack j r) := h.trans (.setRoute rfl rfl)

theorem Lands.portArrive (s : State) (c p : Nat) (tile : Bool) (w : SWord) :
    Lands j r s (s.portArrive j c p r tile w) := by
  unfold State.portArrive
  extract_lets x q s1
  have hback : Lands j r s s1 := Lands.creditBack (.of_routes rfl rfl)
  split_ifs
  · exact hback.trans (.of_routes rfl rfl)
  · exact hback
  · have htap := Within.tapWord (c := c) (s.setCore c (x.setPort p { q with queue := q.queue ++ [(r, w)] })) j p false
      tile w
    exact .of_routes htap.routes htap.keeps.mem

theorem Lands.stageArrive (s : State) (n : Nat) (w : SWord) : Lands j r s (s.stageArrive j n r w) := by
  unfold State.stageArrive
  split
  · exact .refl s
  · split_ifs
    · exact Lands.creditBack (.of_routes rfl rfl)
    · exact Lands.creditBack (.of_routes rfl rfl)
    · exact .setRoute rfl rfl

theorem Lands.engineArrive (s : State) (p : Nat) (w : SWord) : Lands j r s (s.engineArrive j p r w) := by
  unfold State.engineArrive
  extract_lets x k owe
  split_ifs
  · exact Lands.creditBack (.of_routes rfl rfl)
  · exact .of_routes rfl rfl

theorem Lands.blockArrive (s : State) (b : Nat) (w : SWord) : Lands j r s (s.blockArrive j b r w) := by
  unfold State.blockArrive
  extract_lets left s1
  have hback : Lands j r s s1 := (Lands.refl s).creditBack
  split_ifs
  · exact hback.trans (.of_routes rfl rfl)
  · exact hback.trans (.setRoute rfl rfl)
  · exact hback.trans (.of_routes rfl rfl)

/-- A port that discards nothing holds the word that arrives last in its queue. -/
theorem State.queue_portArrive {c p : Nat} (h : ((s.core c).port p).discard = false) (tile : Bool) (w : SWord) :
    (((s.portArrive j c p r tile w).core c).port p).queue = ((s.core c).port p).queue ++ [(r, w)] := by
  unfold State.portArrive
  extract_lets x q s1
  rw [if_neg (by simp [q, x, h])]
  have htap := Within.tapWord (c := c) (s.setCore c (x.setPort p { q with queue := q.queue ++ [(r, w)] })) j p false
    tile w
  refine (congrFun htap.keeps.core p).trans ?_
  rw [CoreSt.queues, State.core_setCore, CoreSt.port_setPort]

variable {cf : RouteCfg} {w : SWord} {q : List SWord}

/-- The state in which the oldest word has left the words in flight. -/
def State.landed (s : State) (j : JobSlot) (r : Nat) (q : List SWord) : State :=
  s.setRoute j r { s.route j r with flight := q }

theorem State.routeArrive_port (hcf : s.routeCfg j r = some cf) (hflight : (s.route j r).flight = w :: q)
    (hkind : epKind cf.dst = 0) :
    s.routeArrive j r = (s.landed j r q).portArrive j (epIdx cf.dst / 32) (epIdx cf.dst % 32) r cf.tile w := by
  simp only [State.routeArrive, hcf, hflight, hkind]
  rfl

theorem State.routeArrive_endpoint (hcf : s.routeCfg j r = some cf) (hflight : (s.route j r).flight = w :: q)
    (hkind : epKind cf.dst = 1) :
    let e := s.ep j (epIdx cf.dst / 240) (epIdx cf.dst % 240)
    s.routeArrive j r = (s.landed j r q).setEp j (epIdx cf.dst / 240) (epIdx cf.dst % 240)
      { e with buf := e.buf ++ [w] } := by
  simp only [State.routeArrive, hcf, hflight, hkind]
  rfl

theorem State.routeArrive_sink (hcf : s.routeCfg j r = some cf) (hflight : (s.route j r).flight = w :: q)
    (hkind : epKind cf.dst = 3) :
    let e := s.sink j (epIdx cf.dst / 4) (epIdx cf.dst % 4)
    s.routeArrive j r = (s.landed j r q).setSink j (epIdx cf.dst / 4) (epIdx cf.dst % 4)
      { e with buf := e.buf ++ [(r, w)] } := by
  simp only [State.routeArrive, hcf, hflight, hkind]
  rfl

/-- Wherever the oldest word arrives, the words behind it stay in flight. -/
theorem Lands.routeArrive (hcf : s.routeCfg j r = some cf) (hflight : (s.route j r).flight = w :: q) :
    Lands j r (s.landed j r q) (s.routeArrive j r) := by
  unfold State.routeArrive
  rw [hcf, hflight]
  dsimp only
  split
  · exact .portArrive ..
  · exact .of_routes rfl rfl
  · exact .stageArrive ..
  · exact .of_routes rfl rfl
  · split
    · exact .engineArrive ..
    · exact .blockArrive ..

/-- The oldest word in flight reaches the destination of its route. -/
theorem word_arrives {r : Fin 4096} (hcf : s.routeCfg j r = some cf) (hflight : (s.route j r).flight = w :: q) :
    ∃ t, exec (.routeWordArrive j r) s = .next t
      ∧ (t.route j r).flight = q ∧ (t.route j r).credits = (s.route j r).credits
      ∧ t.mem = s.mem
      ∧ (epKind cf.dst = 0 → ((s.core (epIdx cf.dst / 32)).port (epIdx cf.dst % 32)).discard = false →
          ((t.core (epIdx cf.dst / 32)).port (epIdx cf.dst % 32)).queue
            = ((s.core (epIdx cf.dst / 32)).port (epIdx cf.dst % 32)).queue ++ [(r.val, w)])
      ∧ (epKind cf.dst = 1 → (t.ep j (epIdx cf.dst / 240) (epIdx cf.dst % 240)).buf
            = (s.ep j (epIdx cf.dst / 240) (epIdx cf.dst % 240)).buf ++ [w]
          ∧ t.cores = s.cores ∧ t.reg = s.reg)
      ∧ (epKind cf.dst = 3 → (t.sink j (epIdx cf.dst / 4) (epIdx cf.dst % 4)).buf
            = (s.sink j (epIdx cf.dst / 4) (epIdx cf.dst % 4)).buf ++ [(r.val, w)]
          ∧ t.cores = s.cores ∧ t.reg = s.reg) := by
  have hlands := Lands.routeArrive hcf hflight
  have hlanded : (s.landed j r q).route j r = { s.route j r with flight := q } := State.route_setRoute ..
  refine ⟨s.routeArrive j r, rfl, ?_, ?_, hlands.mem, fun hkind hdiscard => ?_, fun hkind => ?_, fun hkind => ?_⟩
  · rw [hlands.flight, hlanded]
  · rw [hlands.credits, hlanded]
  · rw [State.routeArrive_port hcf hflight hkind]
    exact State.queue_portArrive (s := s.landed j r q) hdiscard cf.tile w
  · rw [State.routeArrive_endpoint hcf hflight hkind, State.ep_setEp]
    exact ⟨rfl, rfl, rfl⟩
  · rw [State.routeArrive_sink hcf hflight hkind, State.sink_setSink]
    exact ⟨rfl, rfl, rfl⟩

theorem State.creditArrive_of_credit (h : 0 < (s.route j r).creditsBack) :
    s.creditArrive j r = s.setRoute j r { s.route j r with
      credits := (s.route j r).credits + 1, creditsBack := (s.route j r).creditsBack - 1 } :=
  if_neg (Nat.ne_of_gt h)

/-- A credit that sets out for the source reaches it. -/
theorem credit_arrives {r : Fin 4096} (h : 0 < (s.route j r).creditsBack) :
    ∃ t, exec (.creditReturn j r) s = .next t
      ∧ (t.route j r).credits = (s.route j r).credits + 1
      ∧ (t.route j r).creditsBack + 1 = (s.route j r).creditsBack
      ∧ (t.route j r).flight = (s.route j r).flight ∧ t = { s with routes := t.routes } := by
  refine ⟨s.creditArrive j r, rfl, ?_⟩
  rw [State.creditArrive_of_credit h, State.route_setRoute]
  exact ⟨rfl, Nat.sub_add_cancel h, rfl, rfl⟩

end Arrive

/-- Settles O27, part by part: what leaves a source, a credit's way back, and what reaches a destination. -/
theorem wordsCrossTheirRouteInOrder : Obligations.WordsCrossTheirRouteInOrder := by
  unfold Obligations.WordsCrossTheirRouteInOrder
  refine ⟨fun j r o s cf hcf => ⟨exec_routeWordSend_of_barred hcf, fun hoff hcredit => ⟨?port, ?endpoint, ?channel⟩,
    credit_arrives, fun hnone => congrArg _ (if_pos hnone)⟩, fun j r s cf w q => word_arrives⟩
  case port => exact port_sends hcf hoff hcredit
  case endpoint =>
    intro w q hkind hbuf
    have hword := State.sourceWord_endpoint (r := r) hkind hbuf
    refine ⟨_, exec_routeWordSend_of_word hcf hoff hcredit (by omega) hword, ?_⟩
    obtain ⟨hflight, hcredits, -⟩ := State.sent_rules (s := s) (t := s.setEp j _ _ _) rfl j r w
    exact ⟨congrArg EpSt.buf (State.ep_setEp ..), hflight, hcredits, rfl, rfl, rfl⟩
  case channel =>
    intro n w q hkind hchan hwords
    have hword := State.sourceWord_channel (j := j) (r := r) hkind hchan hwords
    refine ⟨_, exec_routeWordSend_of_word hcf hoff hcredit (by omega) hword, ?_⟩
    obtain ⟨hflight, hcredits, -⟩ := State.sent_rules (s := s) (t := s.setLanding n _) rfl j r w
    refine ⟨hflight, hcredits, fun hdebts => ?_, rfl, rfl, rfl⟩
    exact (congrArg ChanSt.words (State.landing_setLanding ..)).trans
      (congrArg ChanSt.words (ChanSt.refillDebt_of_no_debt (x := { s.landing n with words := q }) hdebts _))

end Sys2Proof.Machine
end

/-! ## Scratchpad sinks (O28) -/

section

namespace Sys2Proof.Machine

open Sys2Proof Sys2Proof.Claims

/-! ### A write of a sink (R270, R434) -/

/-- Reading after consecutive entries are written, by the range that they take. -/
theorem Tab.look_putList_getD {α : Type} [DecidableEq α] (d : Nat → α) (t : Tab α) (a : Nat) (l : List α)
    (e : α) (p : Nat) : Tab.look d (Tab.putList d t a l) p
      = if a ≤ p ∧ p < a + l.length then l.getD (p - a) e else Tab.look d t p := by
  rw [Tab.look_putList]
  by_cases hlo : a ≤ p
  · by_cases hhi : p < a + l.length
    · rw [if_pos hlo, if_pos ⟨hlo, hhi⟩, List.getD_eq_getElem?_getD, List.getElem?_eq_getElem (by omega)]
      rfl
    · rw [if_pos hlo, if_neg fun h => hhi h.2, List.getElem?_eq_none (by omega)]
      rfl
  · rw [if_neg hlo, if_neg fun h => hlo h.1]

section Put

variable {s : State} {j : JobSlot} {c k a : Nat} {l : List Byte}

/-- Core `c` alone changes, whatever changes in it, and no route. -/
abbrev OnlyAt (c : Nat) (s t : State) : Prop := Within (fun _ => ()) c s t

theorem Quiet.onlyAt {t : State} (h : Quiet c s t) : OnlyAt c s t := .of_quiet h fun _ _ _ => rfl

/-- An exception that becomes pending leaves the core's ports and the routes. -/
theorem Quiet.pendIn (s : State) (c : Nat) (j : JobSlot) (bit : Nat) (f : PendExc → PendExc) :
    Quiet c s (s.pendIn c j bit f) := by
  unfold State.pendIn
  dsimp only
  split_ifs
  · exact .setCore rfl
  · exact .setCore rfl
  · refine Quiet.trans ?_ (.spadWrite _ _ _)
    exact .setCore rfl
  · exact .setCore rfl
  · refine Quiet.trans ?_ (.spadWrite _ _ _)
    exact .setCore rfl

theorem LogFrame.sinkErr (s : State) (j : JobSlot) (c a : Nat) : LogFrame s (s.sinkErr j c a) := .log s _

theorem Within.sinkPut (s : State) (j : JobSlot) (c a : Nat) (l : List Byte) : OnlyAt c s (s.sinkPut j c a l) := by
  unfold State.sinkPut
  split_ifs
  · exact (Quiet.spadWrite s a l).onlyAt
  · exact ((Quiet.of_log (LogFrame.sinkErr s j c a)).trans (Quiet.pendIn ..)).onlyAt

theorem Works.sinks {β : Type} {view : CoreSt → β} {t : State} (h : Works view c s t) : t.sinks = s.sinks :=
  (congrArg State.sinks h.apart :)

theorem State.sinks_sinkPut (s : State) (j : JobSlot) (c a : Nat) (l : List Byte) :
    (s.sinkPut j c a l).sinks = s.sinks := by
  unfold State.sinkPut
  split_ifs
  · exact (Works.spadWrite s a l).sinks
  · exact (Works.pendIn _ c j 2 _).sinks.trans (by rw [LogFrame.sinkErr])

theorem State.sink_sinkPut (s : State) (j : JobSlot) (c k a : Nat) (l : List Byte) :
    (s.sinkPut j c a l).sink j c k = s.sink j c k := by
  rw [State.sink, State.sinks_sinkPut, State.sink]

/-- Inside the job slot's ranges the bytes are written, and no others. -/
theorem State.look_sinkPut (h : s.spadOk j c a l.length = true) (p : Nat) :
    Tab.look (fun _ => 0) ((s.sinkPut j c a l).core c).spad p
      = if a ≤ p ∧ p < a + l.length then l.getD (p - a) 0 else Tab.look (fun _ => 0) (s.core c).spad p := by
  rw [State.sinkPut, if_pos h, State.spadWrite_spad, Tab.look_putList_getD]

theorem PendExc.mem_addProt (p : PendExc) (e : Nat × W64) : e ∈ (p.addProt e).prot := by
  rw [PendExc.addProt]
  split_ifs with hmem
  · exact List.contains_iff_mem.1 hmem
  · exact List.mem_append_right _ (List.mem_singleton_self e)

/-- Outside them nothing is written: the step is incomplete, and the resident context takes a PROT. -/
theorem State.sinkPut_outside (h : s.spadOk .a c a l.length = false) (hslot : (s.core c).slot = .a)
    (hbare : (s.core c).bare = false) :
    ((s.sinkPut .a c a l).core c).spad = (s.core c).spad ∧ (s.sinkPut .a c a l).bwt.incomp = true
      ∧ (0x0101, BitVec.ofNat 64 a) ∈ ((s.sinkPut .a c a l).core c).pend.prot := by
  have hcore : (s.sinkErr .a c a).core c = s.core c := (LogFrame.sinkErr s .a c a).sameCores.core c
  have hheld : ((s.sinkErr .a c a).core c).slot = .a ∧ ¬ ((s.sinkErr .a c a).core c).bare = true := by
    rw [hcore, hbare]
    exact ⟨hslot, Bool.false_ne_true⟩
  rw [State.sinkPut, if_neg (by rw [h]; exact Bool.false_ne_true), State.pendIn, if_pos hheld, State.core_setCore]
  exact ⟨by rw [hcore], State.log_incomp rfl rfl s, PendExc.mem_addProt _ _⟩

end Put

/-! ### The front word of a sink's buffer (R274) -/

section Take

variable {s : State} {j : JobSlot} {c k r : Nat} {w : SWord} {q : List (Nat × SWord)} {cf : SinkCfg}

theorem Within.setSink {x : SinkSt} : OnlyAt c s (s.setSink j c k x) := ⟨⟨rfl, fun _ _ => rfl, rfl⟩, rfl⟩

theorem Within.sinkErr {a : Nat} : OnlyAt c s (s.sinkErr j c a) := .of_log (LogFrame.sinkErr ..)

theorem State.sink_sinkErr (s : State) (j : JobSlot) (c k a : Nat) :
    (s.sinkErr j c a).sink j c k = s.sink j c k := by
  rw [State.sink, LogFrame.sinkErr]
  rfl

theorem Within.sinkTile (s : State) (j : JobSlot) (c k : Nat) (cf : SinkCfg) (w : SWord) :
    OnlyAt c s (s.sinkTile j c k cf w) := by
  unfold State.sinkTile
  extract_lets x t i m s1 s2
  have hput : OnlyAt c s s2 := .sinkPut ..
  split_ifs
  · exact .setSink
  · exact (Within.setSink.trans .setSink).trans (.sinkPut ..)
  · exact Within.setSink.trans .sinkErr
  · exact hput.trans .setSink
  · exact (hput.trans .setSink).trans .sinkErr

/-- A word that is written leaves the words behind it in the buffer. -/
theorem State.buf_sinkTile (s : State) (j : JobSlot) (c k : Nat) (cf : SinkCfg) (w : SWord) :
    ((s.sinkTile j c k cf w).sink j c k).buf = (s.sink j c k).buf := by
  unfold State.sinkTile
  extract_lets x t i m s1 s2
  split_ifs
  · rw [State.sink_setSink]
  · rw [State.sink_sinkPut, State.sink_setSink]
  · rw [State.sink_sinkErr, State.sink_setSink]
  · rw [State.sink_setSink]
  · rw [State.sink_sinkErr, State.sink_setSink]

/-- A mantissa word is written at its place among the tiles, and counted. -/
theorem State.sinkTile_word (hdiscard : (s.sink j c k).discard = false) (hlast : w.last = false)
    (hwords : (s.sink j c k).words < 4 * (fmtBytes cf.fmt / 256)) :
    let x := s.sink j c k
    s.sinkTile j c k cf w
      = (s.sinkPut j c (cf.mbase + 256 * (x.tiles * (fmtBytes cf.fmt / 256) + x.words)) (Payload.bytes w.data)).setSink
          j c k { x with words := x.words + 1 } := by
  simp [State.sinkTile, hdiscard, hlast, hwords]

theorem fmtWords_pos (f : Nat) : 0 < fmtBytes f / 256 :=
  Nat.div_pos (Nat.le_trans (by decide) (Nat.mul_le_mul_left 512 Nat.one_le_two_pow)) (by decide)

/-- The word marked LAST after `m` whole tiles: its first `m` bytes are their scales. -/
theorem State.sinkTile_last {m : Nat} (hdiscard : (s.sink j c k).discard = false) (hlast : w.last = true)
    (hlo : 1 ≤ m) (hhi : m ≤ 4) (hwords : (s.sink j c k).words = m * (fmtBytes cf.fmt / 256)) :
    let x := s.sink j c k
    s.sinkTile j c k cf w
      = ((s.setSink j c k { x with words := 0 }).setSink j c k { x with words := 0, tiles := x.tiles + m }).sinkPut j c
          (cf.sbase + x.tiles) ((Payload.bytes w.data).take m) := by
  have hpos := fmtWords_pos cf.fmt
  simp [State.sinkTile, hdiscard, hlast, hwords, Nat.mul_div_cancel m hpos, hlo, hhi]

/-- The state in which the front word has left a sink's buffer, and its place sends a credit back. -/
def State.sinkFreed (s : State) (j : JobSlot) (c k r : Nat) (q : List (Nat × SWord)) : State :=
  (s.setSink j c k { s.sink j c k with buf := q }).creditBack j r

theorem State.sink_sinkFreed (s : State) (j : JobSlot) (c k r : Nat) (q : List (Nat × SWord)) :
    (s.sinkFreed j c k r q).sink j c k = { s.sink j c k with buf := q } := State.sink_setSink ..

theorem State.creditsBack_sinkFreed (s : State) (j : JobSlot) (c k r : Nat) (q : List (Nat × SWord)) :
    ((s.sinkFreed j c k r q).route j r).creditsBack = (s.route j r).creditsBack + 1 := by
  rw [State.sinkFreed, State.creditsBack_creditBack, if_pos rfl]
  rfl

theorem State.sinkTake_raw (hbuf : (s.sink j c k).buf = (r, w) :: q) (hcf : s.sinkCfg j c k = some cf)
    (htile : ((s.routeCfg j r).map (·.tile)).getD false = false) :
    let x := s.sink j c k
    s.sinkTake j c k = ((s.sinkFreed j c k r q).setSink j c k { x with buf := q, raw := x.raw + 256 }).sinkPut j c
      (cf.mbase + x.raw) (Payload.bytes w.data) := by
  unfold State.sinkTake
  dsimp only
  rw [hbuf, hcf]
  exact if_neg (by rw [htile]; exact Bool.false_ne_true)

theorem State.sinkTake_tile (hbuf : (s.sink j c k).buf = (r, w) :: q) (hcf : s.sinkCfg j c k = some cf)
    (htile : ((s.routeCfg j r).map (·.tile)).getD false = true) :
    s.sinkTake j c k = (s.sinkFreed j c k r q).sinkTile j c k cf w := by
  unfold State.sinkTake
  dsimp only
  rw [hbuf, hcf]
  exact if_pos htile

/-- Whatever its word is, a sink frees its place and works in its core alone. -/
theorem State.sinkTake_frees (hbuf : (s.sink j c k).buf = (r, w) :: q) (hcf : s.sinkCfg j c k = some cf) :
    OnlyAt c (s.sinkFreed j c k r q) (s.sinkTake j c k) ∧ ((s.sinkTake j c k).sink j c k).buf = q := by
  cases htile : ((s.routeCfg j r).map (·.tile)).getD false with
  | false =>
    rw [State.sinkTake_raw hbuf hcf htile, State.sink_sinkPut, State.sink_setSink]
    exact ⟨Within.setSink.trans (.sinkPut ..), rfl⟩
  | true =>
    rw [State.sinkTake_tile hbuf hcf htile, State.buf_sinkTile, State.sink_sinkFreed]
    exact ⟨.sinkTile .., rfl⟩

/-- Job slot A's word is the one that is written first (log entry 12). -/
theorem State.sinkWrite_of_cons (hbuf : (s.sink .a c k).buf = (r, w) :: q) : s.sinkWrite c k = s.sinkTake .a c k :=
  if_neg (by simp [hbuf])

end Take

/-- Settles O28: whatever the front word is, its place is freed; what is written goes by the word's token. -/
theorem sinkWritesItsNextPosition : Obligations.SinkWritesItsNextPosition := by
  unfold Obligations.SinkWritesItsNextPosition
  intro c k s r w q cf hbuf hcf x t tile
  have hexec : exec (.sinkWrite c k) s = .next (s.sinkTake .a c k) := by
    rw [← State.sinkWrite_of_cons hbuf]
    rfl
  have hlen : (Payload.bytes w.data).length = 256 := length_leBytes ..
  obtain ⟨honly, hleft⟩ := State.sinkTake_frees hbuf hcf
  refine ⟨_, hexec, hleft, ?credit, honly.keeps.mem, honly.keeps.others, fun htile hok => ?raw,
    fun htile hdiscard hlast hwords => ?word, fun htile hdiscard hlast m hlo hhi hwords hok => ?last,
    fun htile hok hslot hbare => ?outside⟩
  case credit => rw [honly.route, State.creditsBack_sinkFreed]
  case raw =>
    rw [State.sinkTake_raw hbuf hcf htile, State.sink_sinkPut, State.sink_setSink]
    refine ⟨rfl, fun p => ?_⟩
    rw [State.look_sinkPut (by rw [hlen]; exact hok), hlen]
    rfl
  case word =>
    intro a hok
    have hfreed := s.sink_sinkFreed .a c k r q
    have hword := State.sinkTile_word (s := s.sinkFreed .a c k r q) (j := .a) (c := c) (k := k) (cf := cf) (w := w)
      (by rw [hfreed]; exact hdiscard) hlast (by rw [hfreed]; exact hwords)
    rw [State.sinkTake_tile hbuf hcf htile, hword, State.sink_setSink, hfreed]
    refine ⟨rfl, rfl, fun p => ?_⟩
    refine (State.look_sinkPut (by rw [hlen]; exact hok) p).trans ?_
    rw [hlen]
    rfl
  case last =>
    have htake : ((Payload.bytes w.data).take m).length = m := by
      rw [List.length_take, hlen]
      omega
    have hfreed := s.sink_sinkFreed .a c k r q
    have hend := State.sinkTile_last (s := s.sinkFreed .a c k r q) (j := .a) (c := c) (k := k) (cf := cf) (w := w)
      (by rw [hfreed]; exact hdiscard) hlast hlo hhi (by rw [hfreed]; exact hwords)
    rw [State.sinkTake_tile hbuf hcf htile, hend, State.sink_sinkPut, State.sink_setSink, hfreed]
    refine ⟨rfl, rfl, fun p => ?_⟩
    rw [State.look_sinkPut (by rw [htake]; exact hok), htake]
    split_ifs with hp
    · rw [List.getD_eq_getElem?_getD, List.getElem?_take_of_lt (by omega), ← List.getD_eq_getElem?_getD]
    · rfl
  case outside =>
    rw [State.sinkTake_raw hbuf hcf htile]
    exact State.sinkPut_outside (by rw [hlen]; exact hok) hslot hbare

end Sys2Proof.Machine
end

/-! ## Completions (O29) -/

section

namespace Sys2Proof.Machine

open Sys2Proof Sys2Proof.Claims

/-! ### The collector (R299) -/

section Collect

variable {s t : State} {die : Nat}

/-- A collector serves each core of its die once. -/
theorem nodup_collOrder (die start : Nat) : (collOrder die start).Nodup := by
  refine List.Nodup.map_on (fun i hi k hk h => ?_) List.nodup_range
  rw [List.mem_range] at hi hk
  omega

/-- The cores and the collectors alone change. -/
def CollFrame (s t : State) : Prop := t = { s with cores := t.cores, coll := t.coll }

theorem CollFrame.trans {u : State} (h : CollFrame s t) (k : CollFrame t u) : CollFrame s u := by
  unfold CollFrame at *
  rw [k, h]

/-- The front completions of some cores leave them, in the order in which they are served. -/
theorem State.takeFrom_rules (die : Nat) (l : List Nat) : ∀ s : State, l.Nodup →
    ((s.takeFrom die l).dieColl die).queue = (s.dieColl die).queue ++ l.filterMap (fun c => (s.core c).fifo.head?)
      ∧ (∀ c ∈ l, ((s.takeFrom die l).core c).fifo = (s.core c).fifo.tail)
      ∧ (∀ c, c ∉ l → (s.takeFrom die l).core c = s.core c)
      ∧ CollFrame s (s.takeFrom die l) := by
  induction l with
  | nil => exact fun s _ => ⟨by simp [State.takeFrom], by simp, fun _ _ => rfl, rfl⟩
  | cons c l ih =>
    intro s hnodup
    obtain ⟨hc, hl⟩ := List.nodup_cons.1 hnodup
    cases hfifo : (s.core c).fifo with
    | nil =>
      have hstep : s.takeFrom die (c :: l) = s.takeFrom die l := by simp [State.takeFrom, hfifo]
      obtain ⟨hqueue, hin, hout, hframe⟩ := ih s hl
      rw [hstep]
      refine ⟨?_, fun d hd => ?_, fun d hd => hout d fun h => hd (List.mem_cons_of_mem c h), hframe⟩
      · rw [hqueue, List.filterMap_cons, hfifo]
        rfl
      · rcases List.mem_cons.1 hd with rfl | hd
        · rw [hout d hc, hfifo]
          rfl
        · exact hin d hd
    | cons e f =>
      set u := (s.setCore c { s.core c with fifo := f }).setDieColl die
        { s.dieColl die with queue := (s.dieColl die).queue ++ [e], start := (c + 1) % 128 } with hu
      have hstep : s.takeFrom die (c :: l) = u.takeFrom die l := by
        simp only [State.takeFrom, hfifo, hu]
      have hsame : u.core c = { s.core c with fifo := f } := State.core_setCore ..
      have hne : ∀ d, d ≠ c → u.core d = s.core d := fun d hd => State.core_setCore_ne s c _ (Ne.symm hd)
      have hcoll : (u.dieColl die).queue = (s.dieColl die).queue ++ [e] := by rw [hu, State.dieColl_setDieColl]
      have hfronts : l.filterMap (fun d => (u.core d).fifo.head?) = l.filterMap fun d => (s.core d).fifo.head? :=
        List.filterMap_congr fun d hd => by rw [hne d (ne_of_mem_of_not_mem hd hc)]
      have hmoved : CollFrame s u := rfl
      obtain ⟨hqueue, hin, hout, hframe⟩ := ih u hl
      rw [hstep]
      refine ⟨?_, fun d hd => ?_, fun d hd => ?_, hmoved.trans hframe⟩
      · rw [hqueue, hcoll, hfronts, List.filterMap_cons, hfifo]
        simp
      · rcases List.mem_cons.1 hd with rfl | hd
        · rw [hout d hc, hsame, hfifo]
          rfl
        · rw [hin d hd, hne d (ne_of_mem_of_not_mem hd hc)]
      · rw [List.mem_cons, not_or] at hd
        rw [hout d hd.2, hne d hd.1]

/-- Where no core of the die holds a completion any more, the collector starts anew, and changes nothing else. -/
theorem State.collect_rules (s : State) (die : Nat) :
    let d := s.dieColl die
    let t := s.takeFrom die (((collOrder die d.start).filter fun c => !(s.core c).fifo.isEmpty).take
      (min 8 (256 - d.queue.length)))
    ((s.collect die).dieColl die).queue = (t.dieColl die).queue ∧ (s.collect die).cores = t.cores
      ∧ CollFrame t (s.collect die) := by
  intro d t
  unfold State.collect
  dsimp only
  split
  · exact ⟨by rw [State.dieColl_setDieColl], rfl, rfl⟩
  · exact ⟨rfl, rfl, rfl⟩

/-- The collector of a die takes the front completions of the first cores that hold one. -/
theorem collector_takes (die : Die) (s : State) :
    let d := s.dieColl die
    let cs := ((collOrder die d.start).filter fun c => !(s.core c).fifo.isEmpty).take (min 8 (256 - d.queue.length))
    ∃ t, exec (.collectorTake die) s = .next t
      ∧ (t.dieColl die).queue = d.queue ++ cs.filterMap (fun c => (s.core c).fifo.head?)
      ∧ (∀ c ∈ cs, (t.core c).fifo = (s.core c).fifo.tail)
      ∧ (∀ c, c ∉ cs → t.core c = s.core c)
      ∧ t.mem = s.mem ∧ t.reg = s.reg ∧ t.out = s.out := by
  intro d cs
  have hnodup : cs.Nodup := ((nodup_collOrder die d.start).filter _).take
  obtain ⟨hqueue, hin, hout, hframe⟩ := State.takeFrom_rules die cs s hnodup
  obtain ⟨hcoll, hcores, hrest⟩ := State.collect_rules s die
  have hcore : ∀ c, (s.collect die).core c = (s.takeFrom die cs).core c := fun c => by
    rw [State.core, hcores]
    rfl
  have hall : CollFrame s (s.collect die) := hframe.trans hrest
  refine ⟨s.collect die, rfl, hcoll.trans hqueue, fun c hc => ?_, fun c hc => ?_, ?_, ?_, ?_⟩
  · rw [hcore, hin c hc]
  · rw [hcore, hout c hc]
  all_goals rw [hall]

end Collect

/-! ### The reporter (R300, R301, R682, R683) -/

section Report

variable {s : State} {e : CmpEntry}

/-- BAR4 and the messages of the device alone change. -/
def RingFrame (s t : State) : Prop := t = { s with bar4 := t.bar4, out := t.out }

theorem RingFrame.trans {s t u : State} (h : RingFrame s t) (k : RingFrame t u) : RingFrame s u := by
  unfold RingFrame at *
  rw [k, h]

theorem RingFrame.emit (s : State) (m : Out) : RingFrame s (s.emit m) := rfl

theorem RingFrame.wr4 (s : State) (fn : Func) (o : Nat) (v : W32) : RingFrame s (s.wr4 fn o v) := by
  cases s
  rfl

theorem RingFrame.msix (s : State) (fn : Func) (vec : Nat) : RingFrame s (s.msix fn vec) := by
  unfold State.msix
  split
  · exact .wr4 ..
  · exact .emit ..

theorem RingFrame.cringWrite (s : State) (e : CmpEntry) : RingFrame s (s.cringWrite e) :=
  ((RingFrame.emit s _).trans (.wr4 _ _ _ _)).trans (.msix _ _ _)

theorem State.dieColl_cringWrite (s : State) (e : CmpEntry) (d : Nat) : (s.cringWrite e).dieColl d = s.dieColl d := by
  rw [State.dieColl, RingFrame.cringWrite]
  rfl

/-- A message of the device leaves what BAR4 holds. -/
theorem State.rd4_emit (s : State) (m : Out) (fn : Func) (o : Nat) : (s.emit m).rd4 fn o = s.rd4 fn o := rfl

/-- The entry leaves for the place of TAIL, TAIL moves on, and vector 1 is sent, or is pending while it is masked. -/
theorem State.cringWrite_rules (s : State) (e : CmpEntry) :
    ((s.cringWrite e).rd4 e.fn 0x2014).toNat
        = ((s.rd4 e.fn 0x2014).toNat + 1) % 2 ^ ((s.rd4 e.fn 0x2008).toNat % 32) % 2 ^ 32
      ∧ ((s.rd4 e.fn 28).getLsbD 0 = false → (s.cringWrite e).out = s.out ++
          [.hostWrite ((s.rd4 e.fn 0x2004 ++ s.rd4 e.fn 0x2000)
            + BitVec.ofNat 64 (16 * (s.rd4 e.fn 0x2014).toNat)) e.bytes false, .msix e.fn 1])
      ∧ ((s.rd4 e.fn 28).getLsbD 0 = true → ((s.cringWrite e).rd4 e.fn 0x800).getLsbD 1 = true) := by
  set m : Out := .hostWrite ((s.rd4 e.fn 0x2004 ++ s.rd4 e.fn 0x2000)
    + BitVec.ofNat 64 (16 * (s.rd4 e.fn 0x2014).toNat)) e.bytes false with hm
  set u := (s.emit m).wr4 e.fn 0x2014
    (BitVec.ofNat 32 (((s.rd4 e.fn 0x2014).toNat + 1) % 2 ^ ((s.rd4 e.fn 0x2008).toNat % 32))) with hu
  have hwrite : s.cringWrite e = u.msix e.fn 1 := rfl
  have htail : (u.rd4 e.fn 0x2014).toNat
      = ((s.rd4 e.fn 0x2014).toNat + 1) % 2 ^ ((s.rd4 e.fn 0x2008).toNat % 32) % 2 ^ 32 := by
    rw [hu, State.rd4_wr4_same, BitVec.toNat_ofNat]
  have hmask : u.rd4 e.fn (16 * 1 + 12) = s.rd4 e.fn 28 := State.rd4_wr4_ne _ _ _ (by decide)
  rw [hwrite, State.msix, hmask]
  cases hvec : (s.rd4 e.fn 28).getLsbD 0 with
  | false =>
    rw [if_neg Bool.false_ne_true]
    refine ⟨by rw [State.rd4_emit, htail], fun _ => ?_, fun h => absurd h Bool.false_ne_true⟩
    rw [State.emit, hu, State.wr4_out, State.emit, List.append_assoc]
    rfl
  | true =>
    rw [if_pos rfl]
    refine ⟨?_, fun h => absurd h.symm Bool.false_ne_true, fun _ => ?_⟩
    · rw [State.rd4_wr4_ne _ _ _ (by decide), htail]
    · rw [State.rd4_wr4_same]
      simp

/-- The reporter works on one entry of its own side, the other side being empty. -/
theorem State.reportCy_of_single (hside : s.reporter.side = false) (hqueue : (s.dieColl 0).queue = [e])
    (hother : (s.dieColl 1).queue = []) :
    s.reportCy = ({ s with reporter := ⟨false, false, 0, false⟩ } : State).report 0 8 := by
  simp [State.reportCy, hside, hqueue, hother]

/-- At a full ring the reporter holds. -/
theorem State.report_full {n : Nat} (hqueue : (s.dieColl 0).queue = [e]) (hfull : s.cringFull e.fn = true) :
    s.report 0 (n + 1) = { s with reporter := { s.reporter with held := true } } := by
  simp [State.report, hqueue, hfull]

theorem State.report_nil {die : Nat} (h : (s.dieColl die).queue = []) (n : Nat) : s.report die n = s := by
  cases n with
  | zero => rfl
  | succ n => rw [State.report, h]

/-- A ring with room takes the entry, the only one that waits. -/
theorem State.report_room {n : Nat} (hqueue : (s.dieColl 0).queue = [e]) (hroom : s.cringFull e.fn = false) :
    s.report 0 (n + 2) = (s.setDieColl 0 { s.dieColl 0 with queue := [] }).cringWrite e := by
  have hempty : (((s.setDieColl 0 { s.dieColl 0 with queue := [] }).cringWrite e).dieColl 0).queue = [] := by
    rw [State.dieColl_cringWrite, State.dieColl_setDieColl]
  rw [State.report, hqueue]
  dsimp only
  rw [if_neg (by rw [hroom]; exact Bool.false_ne_true)]
  exact State.report_nil hempty _

/-- The completion that waits in the reporter's west queue, the east queue being empty. -/
theorem reporter_reports (s : State) (e : CmpEntry) (hside : s.reporter.side = false)
    (hqueue : (s.dieColl 0).queue = [e]) (hother : (s.dieColl 1).queue = []) :
    (s.cringFull e.fn = true → ∃ t, exec .completionReport s = .next t
      ∧ t.reporter.held = true ∧ t.coll = s.coll ∧ t.bar4 = s.bar4 ∧ t.out = s.out)
    ∧ (s.cringFull e.fn = false → ∃ t, exec .completionReport s = .next t
      ∧ (t.dieColl 0).queue = []
      ∧ (t.rd4 e.fn 0x2014).toNat
          = ((s.rd4 e.fn 0x2014).toNat + 1) % 2 ^ ((s.rd4 e.fn 0x2008).toNat % 32) % 2 ^ 32
      ∧ ((s.rd4 e.fn 28).getLsbD 0 = false → t.out = s.out ++
          [.hostWrite ((s.rd4 e.fn 0x2004 ++ s.rd4 e.fn 0x2000)
            + BitVec.ofNat 64 (16 * (s.rd4 e.fn 0x2014).toNat)) e.bytes false, .msix e.fn 1])
      ∧ ((s.rd4 e.fn 28).getLsbD 0 = true → (t.rd4 e.fn 0x800).getLsbD 1 = true)
      ∧ t.reg = s.reg ∧ t.cores = s.cores ∧ t.mem = s.mem) := by
  set u : State := { s with reporter := ⟨false, false, 0, false⟩ } with hu
  have hcy : s.reportCy = u.report 0 8 := State.reportCy_of_single hside hqueue hother
  have hexec : exec .completionReport s = .next (u.report 0 8) := congrArg Host.Outcome.next hcy
  refine ⟨fun hfull => ⟨_, hexec, ?_⟩, fun hroom => ⟨_, hexec, ?_⟩⟩
  · rw [State.report_full (s := u) (n := 7) hqueue hfull]
    exact ⟨rfl, rfl, rfl, rfl⟩
  · rw [State.report_room (s := u) (n := 6) hqueue hroom]
    set v := u.setDieColl 0 { u.dieColl 0 with queue := [] } with hv
    obtain ⟨htail, hsent, hmasked⟩ := v.cringWrite_rules e
    refine ⟨?_, htail, hsent, hmasked, ?_⟩
    · rw [State.dieColl_cringWrite, hv, State.dieColl_setDieColl]
    · rw [RingFrame.cringWrite]
      exact ⟨rfl, rfl, rfl⟩

end Report

/-- Settles O29: a collector takes each core's front entry once, and the reporter writes an entry while its ring has
room. -/
theorem completionsReachTheirRing : Obligations.CompletionsReachTheirRing := by
  unfold Obligations.CompletionsReachTheirRing
  exact ⟨collector_takes, reporter_reports⟩

end Sys2Proof.Machine
end

/-! ## A doorbell that names another function's channel (O39) -/

section

namespace Sys2Proof.Machine

open Sys2Proof Sys2Proof.Claims

/-! ### A record at an address of the form of a channel's TAIL

The statement says that a doorbell of a channel that its function does not own leaves `rDmaChTail k` as it was for
every number `k`, and not for the 16 channels alone. Such a doorbell is logged (R736), and the address that the form
gives for the number 0x201FC is that of a word of the log. -/

/-- Word 6 of the log's first record, the low half of its step number (R715). -/
theorem rDmaChTail_beyond_eq_rErrLog : rDmaChTail 0x201FC = rErrLog 0 6 := rfl

/-- PF1 owns channel 0, the log is empty, and job slot A is in step 1. -/
def strayBell : State := (State.reset.setB (fDmaChCtlSlot 0) true).wr rBwtStepLo 1

theorem strayBell_writeWaits : strayBell.writeWaits 0 = false := by decide +kernel

theorem strayBell_chFunc : strayBell.chFunc 0 ≠ 0 := by decide +kernel

/-- The record of PF0's doorbell carries the step number. -/
theorem strayBell_logs : strayBell.rd (rErrLog 0 6) = 0 ∧ (strayBell.doorbell 0 0 0 0).rd (rErrLog 0 6) = 1 := by
  decide +kernel

/-- Refutes O39: PF0's doorbell of a channel that PF1 owns does not leave the word at `rDmaChTail k` for every number
`k`. The record that it makes is written there for `k` = 0x201FC. -/
theorem not_hostReachesMemoryAndDoorbells : ¬ Obligations.HostReachesMemoryAndDoorbells := by
  unfold Obligations.HostReachesMemoryAndDoorbells
  rintro ⟨-, -, -, hbells⟩
  obtain ⟨-, -, hforeign, -⟩ := hbells 0 0 0 0 strayBell
  obtain ⟨t, hexec, -, htail⟩ := hforeign strayBell_writeWaits strayBell_chFunc
  obtain rfl : strayBell.doorbell 0 0 0 0 = t := Host.Outcome.next.inj hexec
  obtain ⟨hbefore, hafter⟩ := strayBell_logs
  have hkept := htail 0x201FC
  rw [rDmaChTail_beyond_eq_rErrLog, hbefore, hafter] at hkept
  exact absurd hkept (by decide)

end Sys2Proof.Machine
end

/-! ## What a memory slot keeps (O30) -/

section

namespace Sys2Proof.Machine

open Sys2Proof Sys2Proof.Claims

/-! ### What gives the groups of a slot their use (R285-R287) -/

section Plan

variable {s t u : State}

/-- The waiting commands, the images, the open windows and the phase in force: beside the place in the schedule, all
that says what a slot's groups do. -/
def State.plan (s : State) : List Instr × Option Image × Option Image × List Nat × W32 :=
  (s.pending, s.imgA, s.imgB, s.winOpen, s.rd rPwrOppoint)

theorem State.plan_eq_iff : t.plan = s.plan ↔ t.pending = s.pending ∧ t.imgA = s.imgA ∧ t.imgB = s.imgB
    ∧ t.winOpen = s.winOpen ∧ t.rd rPwrOppoint = s.rd rPwrOppoint := by
  simp [State.plan]

theorem State.image_of_plan (h : t.plan = s.plan) (j : JobSlot) : t.image j = s.image j := by
  obtain ⟨-, hA, hB, -, -⟩ := State.plan_eq_iff.1 h
  rw [State.image, hA, hB, State.image]

theorem State.phase_of_plan (h : t.plan = s.plan) : t.getF fPwrOppointPhase = s.getF fPwrOppointPhase := by
  obtain ⟨-, -, -, -, hphase⟩ := State.plan_eq_iff.1 h
  exact State.getF_of_rd_eq hphase

theorem State.schedOf_of_plan (h : t.plan = s.plan) (j : JobSlot) (d : Nat) : t.schedOf j d = s.schedOf j d := by
  rw [State.schedOf, State.image_of_plan h, State.phase_of_plan h, State.schedOf]

theorem State.schedLen_of_plan (h : t.plan = s.plan) (d : Nat) : t.schedLen d = s.schedLen d := by
  rw [State.schedLen, State.schedOf_of_plan h, State.schedLen]

theorem State.epCfg_of_plan (h : t.plan = s.plan) (j : JobSlot) (d n : Nat) : t.epCfg j d n = s.epCfg j d n := by
  rw [State.epCfg, State.image_of_plan h, State.phase_of_plan h, State.epCfg]

theorem State.slotUse_of_plan (h : t.plan = s.plan) (d g k : Nat) : t.slotUse d g k = s.slotUse d g k := by
  obtain ⟨-, hA, -, hwin, -⟩ := State.plan_eq_iff.1 h
  have hopen : t.windowOpen = s.windowOpen := by
    rw [State.windowOpen, State.openWindows, hA, hwin, State.windowOpen, State.openWindows]
  have howner : t.ownerA d g k = s.ownerA d g k := by
    rw [State.ownerA, State.schedOf_of_plan h, State.ownerA]
  have howner' : t.ownerB d g k = s.ownerB d g k := by
    rw [State.ownerB, State.schedOf_of_plan h, State.ownerB]
  rw [State.slotUse, howner, hopen, howner', State.slotUse]

/-! ### Steps that keep it -/

theorem State.plan_setF (s : State) {f : Fld} (v : Nat) (h : f.off ≠ rPwrOppoint) : (s.setF f v).plan = s.plan :=
  State.plan_eq_iff.2 ⟨rfl, rfl, rfl, rfl, State.rd_setF_ne s f v h⟩

theorem State.plan_bump (s : State) {o : Nat} (n : Nat) (h : o ≠ rPwrOppoint) : (s.bump o n).plan = s.plan :=
  State.plan_eq_iff.2 ⟨rfl, rfl, rfl, rfl, State.rd_wr_ne s o _ h⟩

theorem Works.plan {β : Type} {view : CoreSt → β} {c : Nat} (h : Works view c s t) : t.plan = s.plan :=
  State.plan_eq_iff.2 ⟨(congrArg State.pending h.apart :), (congrArg State.imgA h.apart :),
    (congrArg State.imgB h.apart :), (congrArg State.winOpen h.apart :), h.below.rd _ (by decide)⟩

theorem rMemEcc_ne_rPwrOppoint (n : Nat) : rMemEcc n ≠ rPwrOppoint := by
  unfold rMemEcc rPwrOppoint
  omega

theorem State.plan_eccReport (s : State) (who : Acc) (col : Nat) (bad fixed : List Nat) :
    (s.eccReport who col bad fixed).plan = s.plan := by
  have hrd := s.rd_eccReport who col bad fixed (o := rPwrOppoint) (by decide) rMemEcc_ne_rPwrOppoint
  refine State.plan_eq_iff.2 ⟨?_, ?_, ?_, ?_, hrd⟩ <;> rw [LogFrame.eccReport]

theorem State.plan_memRead (s : State) (who : Acc) (col off n : Nat) : (s.memRead who col off n).2.plan = s.plan :=
  State.plan_eccReport ..

theorem State.plan_memPut (s : State) (who : Acc) (off : Nat) (l : List Byte) (p : Bool) :
    (s.memPut who off l p).plan = s.plan := by
  have hwrite : (s.memWrite who off l).plan = s.plan := State.plan_eccReport s who 256 _ _
  cases p
  · exact hwrite
  · exact hwrite

theorem State.plan_slotWrites (l : List SlotWrite) : ∀ s : State, (s.slotWrites l).plan = s.plan := by
  induction l with
  | nil => exact fun _ => rfl
  | cons w l ih => exact fun s => (ih _).trans (State.plan_memPut ..)

end Plan

/-! ### The levels and ages of the background classes (R389-R391) -/

section Levels

variable {s t u : State} {d : Nat}

/-- The stacks and the levels of the background classes of stack `d` alone change. -/
structure Leveled (d : Nat) (s t : State) : Prop where
  frame : t = { s with reg := t.reg, stks := t.stks }
  rd : ∀ o, o ≠ rMemBglvl d → t.rd o = s.rd o

theorem Leveled.refl (s : State) : Leveled d s s := ⟨rfl, fun _ _ => rfl⟩

theorem Leveled.trans (h : Leveled d s t) (k : Leveled d t u) : Leveled d s u :=
  ⟨by rw [k.frame, h.frame], fun o ho => (k.rd o ho).trans (h.rd o ho)⟩

theorem Leveled.setStk (s : State) (x : StackSt) : Leveled d s (s.setStk d x) := ⟨rfl, fun _ _ => rfl⟩

theorem Leveled.setBgLevel (s : State) (c v : Nat) : Leveled d s (s.setBgLevel d c v) :=
  ⟨rfl, fun _ ho => State.rd_setF_ne s _ _ (Ne.symm ho)⟩

theorem Leveled.boostSave (s : State) (waiting : BitVec 112) : Leveled d s (s.boostSave d waiting) := by
  unfold State.boostSave
  extract_lets x old set b
  have hset (b l : Nat) : Leveled d s (set b l) := (Leveled.setStk s _).trans (.setBgLevel _ 3 l)
  split_ifs
  · exact hset ..
  · exact .refl s
  · exact hset ..

theorem Leveled.bgAge (s : State) (waiting : BitVec 112) (served : List Nat) (c : Nat) :
    Leveled d s (s.bgAge d waiting served c) := by
  unfold State.bgAge
  extract_lets x base boost a
  split_ifs
  · exact (Leveled.setStk s _).trans (.setBgLevel _ c _)
  · exact (Leveled.setStk s _).trans (.setBgLevel _ c _)
  · exact .refl s

theorem Leveled.bgAges (waiting : BitVec 112) (served l : List Nat) :
    ∀ s : State, Leveled d s (s.bgAges d waiting served l) := by
  induction l with
  | nil => exact .refl
  | cons c l ih => exact fun s => (Leveled.bgAge s waiting served c).trans (ih _)

theorem Leveled.plan (h : Leveled d s t) : t.plan = s.plan := by
  have hne : rPwrOppoint ≠ rMemBglvl d := by
    unfold rPwrOppoint rMemBglvl
    omega
  refine State.plan_eq_iff.2 ⟨?_, ?_, ?_, ?_, h.rd _ hne⟩ <;> rw [h.frame]

theorem Leveled.ep (h : Leveled d s t) (j : JobSlot) (e n : Nat) : t.ep j e n = s.ep j e n := by
  rw [State.ep, h.frame]
  rfl

theorem Leveled.route (h : Leveled d s t) (j : JobSlot) (r : Nat) : t.route j r = s.route j r := by
  rw [State.route, h.frame]
  rfl

/-- Isolation and the windows do not look at the levels. -/
theorem Leveled.imgXlate (h : Leveled d s t) (j : JobSlot) (e a n : Nat) (write : Bool) :
    t.imgXlate j e a n write = s.imgXlate j e a n write := by
  have hgrant : ∀ g, t.granted g = s.granted g := fun g => by
    by_cases hg : g < 512
    · have hne : rXltBmap (g / 32) ≠ rMemBglvl d := by
        unfold rXltBmap rMemBglvl
        omega
      rw [State.granted, h.rd _ hne, State.granted]
    · simp [State.granted, hg]
  have hiso : ∀ b off n, t.isoOk b off n = s.isoOk b off n := fun b off n => by
    simp only [State.isoOk, hgrant]
  have hpage : ∀ w p, t.winPage j w p = s.winPage j w p := fun w p => by
    rw [State.winPage, h.frame]
    rfl
  have hwindows : t.windowsOf j = s.windowsOf j := by
    rw [State.windowsOf, State.image_of_plan h.plan, State.windowsOf]
  simp only [State.imgXlate, hwindows, hiso, hpage]

end Levels

/-! ### What an endpoint's faults leave alone (R282, R411-R413) -/

section Fault

variable {s t u : State} {j : JobSlot} {d n : Nat}

/-- The plan of the slots stands, with device memory, and an endpoint keeps its place and its buffer. -/
structure Halts (j : JobSlot) (d n : Nat) (s t : State) : Prop where
  plan : t.plan = s.plan
  mem : t.mem = s.mem
  memEcc : t.memEcc = s.memEcc
  walk : (t.ep j d n).walk = (s.ep j d n).walk
  buf : (t.ep j d n).buf = (s.ep j d n).buf

theorem Halts.refl (s : State) : Halts j d n s s := ⟨rfl, rfl, rfl, rfl, rfl⟩

theorem Halts.trans (h : Halts j d n s t) (k : Halts j d n t u) : Halts j d n s u :=
  ⟨k.plan.trans h.plan, k.mem.trans h.mem, k.memEcc.trans h.memEcc, k.walk.trans h.walk, k.buf.trans h.buf⟩

theorem Halts.of_eps (hplan : t.plan = s.plan) (hmem : t.mem = s.mem) (hecc : t.memEcc = s.memEcc)
    (heps : t.eps = s.eps) : Halts j d n s t := by
  have hep : t.ep j d n = s.ep j d n := by rw [State.ep, heps, State.ep]
  exact ⟨hplan, hmem, hecc, congrArg EpSt.walk hep, congrArg EpSt.buf hep⟩

theorem Halts.of_works {β : Type} {view : CoreSt → β} {c : Nat} (h : Works view c s t) : Halts j d n s t :=
  .of_eps h.plan h.keeps.mem (congrArg State.memEcc h.apart :) (congrArg State.eps h.apart :)

theorem Halts.setEp {x : EpSt} (hwalk : x.walk = (s.ep j d n).walk) (hbuf : x.buf = (s.ep j d n).buf) :
    Halts j d n s (s.setEp j d n x) :=
  ⟨rfl, rfl, rfl, by rw [State.ep_setEp, hwalk], by rw [State.ep_setEp, hbuf]⟩

theorem Halts.logFault (s : State) (f : XFault) (u : Nat) (b i : Bool) (off req : Nat) :
    Halts j d n s (s.logFault f u b i off req) :=
  .of_works (Works.of_log (view := fun _ => ()) (c := 0) (LogFrame.logFault ..) (BelowLog.logFault ..))

theorem Halts.setFar (s : State) (e : EpCfg) (b : Bool) : Halts j d n s (s.setFar j e b) := by
  unfold State.setFar
  split
  · exact .of_eps rfl rfl rfl rfl
  · exact .refl s

theorem Halts.raiseFault (s : State) (e : EpCfg) : Halts j d n s (s.raiseFault j d n e) := by
  unfold State.raiseFault
  extract_lets x
  split
  · exact .refl s
  · split
    · exact .refl s
    · split
      · extract_lets s1
        have hraised : Halts j d n s s1 := by
          refine Halts.trans ?_ (.logFault _ _ _ _ _ _ _)
          exact .setEp rfl rfl
        split
        · exact hraised.trans (.of_works (Works.pendIn ..))
        · exact hraised.trans (.of_works (Works.pendIn ..))
      · refine Halts.trans ?_ (.logFault _ _ _ _ _ _ _)
        refine Halts.trans ?_ (.of_eps (State.plan_bump _ _ (by decide)) rfl rfl rfl)
        exact .setEp rfl rfl

theorem Halts.epFault (s : State) (e : EpCfg) (f : XFault) (va : Nat) : Halts j d n s (s.epFault j d n e f va) := by
  unfold State.epFault
  extract_lets x s1
  have hheld : Halts j d n s s1 := by
    refine Halts.trans ?_ (.setFar _ e true)
    refine Halts.trans ?_ (.of_eps (State.plan_setF _ _ (by decide)) rfl rfl rfl)
    exact .setEp rfl rfl
  split
  · exact hheld
  · exact hheld.trans (.raiseFault s1 e)

end Fault

/-! ### The accesses of an endpoint in a slot -/

section Accesses

variable {s : State} {j : JobSlot} {d n g : Nat} {e : EpCfg}

theorem State.plan_epRead (s : State) (j : JobSlot) (d n : Nat) (e : EpCfg) (a : EpAcc) (off : Nat) :
    (s.epRead j d n e a off).plan = s.plan := by
  have hread := s.plan_memRead (Acc.ofSlot j) 256 off 256
  unfold State.epRead
  cases a with
  | word a last => exact hread
  | scale a byte k place final =>
    dsimp only
    split
    · exact hread
    · exact hread

theorem State.plan_epWrite (s : State) (j : JobSlot) (d n : Nat) (e : EpCfg) (a : EpAcc) (off : Nat) (w : SWord) :
    (s.epWrite j d n e a off w).1.plan = s.plan := by
  unfold State.epWrite
  cases a with
  | word a last => rfl
  | scale a byte k place final => cases final <;> rfl

/-- What an endpoint does first in a slot: nothing, a fault, a read or a write. -/
theorem State.epAccesses_cases (s : State) (j : JobSlot) (d n g : Nat) (e : EpCfg) (k : Nat) :
    s.epAccesses j d n g e (k + 1) = (s, [])
      ∨ (∃ f va, s.epAccesses j d n g e (k + 1) = (s.epFault j d n e f va, []))
      ∨ (e.typ = 1 ∧ ∃ a off, s.epAccesses j d n g e (k + 1) = (s.epRead j d n e a off).epAccesses j d n g e k)
      ∨ (e.typ ≠ 1 ∧ ∃ a off w, s.epAccesses j d n g e (k + 1)
          = (((s.epWrite j d n e a off w).1.epAccesses j d n g e k).1,
            (s.epWrite j d n e a off w).2 :: ((s.epWrite j d n e a off w).1.epAccesses j d n g e k).2)) := by
  generalize haccess : s.epAccesses j d n g e (k + 1) = t
  rw [State.epAccesses] at haccess
  split at haccess
  · exact .inl haccess.symm
  · split at haccess
    · exact .inl haccess.symm
    · split at haccess
      · exact .inr (.inl ⟨_, _, haccess.symm⟩)
      · split at haccess
        · exact .inl haccess.symm
        · split at haccess
          · exact .inr (.inl ⟨_, _, haccess.symm⟩)
          · split at haccess
            next htyp => exact .inr (.inr (.inl ⟨htyp, _, _, haccess.symm⟩))
            next htyp =>
              split at haccess
              · exact .inl haccess.symm
              · exact .inr (.inr (.inr ⟨htyp, _, _, _, haccess.symm⟩))

theorem State.plan_epAccesses (j : JobSlot) (d n g : Nat) (e : EpCfg) (k : Nat) :
    ∀ s : State, (s.epAccesses j d n g e k).1.plan = s.plan := by
  induction k with
  | zero => exact fun _ => rfl
  | succ k ih =>
    intro s
    rcases s.epAccesses_cases j d n g e k with h | ⟨f, va, h⟩ | ⟨-, a, off, h⟩ | ⟨-, a, off, w, h⟩
    · rw [h]
    · rw [h]
      exact (Halts.epFault ..).plan
    · rw [h]
      exact (ih _).trans (State.plan_epRead ..)
    · rw [h]
      exact (ih _).trans (State.plan_epWrite ..)

/-- At most `k` reads of an endpoint: its walk goes on by no more than `k` accesses, the words that they give follow
in its buffer, and nothing is written. -/
structure EpReads (j : JobSlot) (d n k : Nat) (s t : State) : Prop where
  mem : t.mem = s.mem
  memEcc : t.memEcc = s.memEcc
  walk : (s.ep j d n).walk ≤ (t.ep j d n).walk ∧ (t.ep j d n).walk ≤ (s.ep j d n).walk + k
  buf : ∃ more, more.length ≤ k ∧ (t.ep j d n).buf = (s.ep j d n).buf ++ more

theorem EpReads.of_halts {t : State} (h : Halts j d n s t) (k : Nat) : EpReads j d n k s t :=
  ⟨h.mem, h.memEcc, by rw [h.walk]; omega, [], Nat.zero_le k, by rw [h.buf, List.append_nil]⟩

theorem EpReads.step {t u : State} {k : Nat} (h : EpReads j d n 1 s t) (l : EpReads j d n k t u) :
    EpReads j d n (k + 1) s u := by
  obtain ⟨more, hmore, hbuf⟩ := h.buf
  obtain ⟨rest, hrest, hbuf'⟩ := l.buf
  obtain ⟨hlo, hhi⟩ := h.walk
  obtain ⟨hlo', hhi'⟩ := l.walk
  refine ⟨l.mem.trans h.mem, l.memEcc.trans h.memEcc, ⟨by omega, by omega⟩, more ++ rest, ?_, ?_⟩
  · rw [List.length_append]
    omega
  · rw [hbuf', hbuf, List.append_assoc]

theorem LogFrame.ep {t : State} (h : LogFrame s t) (j : JobSlot) (d n : Nat) : t.ep j d n = s.ep j d n := by
  rw [State.ep, h]
  rfl

/-- The endpoint after the read of a word. -/
theorem State.ep_epRead_word (s : State) (j : JobSlot) (d n : Nat) (e : EpCfg) (a : Int) (last : Bool) (off : Nat) :
    let rd := (s.memRead (Acc.ofSlot j) 256 off 256).1
    (s.epRead j d n e (.word a last) off).ep j d n = { s.ep j d n with
      walk := (s.ep j d n).walk + 1
      buf := (s.ep j d n).buf ++ [⟨Payload.ofBytes rd.bytes, last, false, !rd.bad.isEmpty, false,
        if e.tile then e.t else 0⟩] } := by
  intro rd
  rw [State.epRead, State.ep_setEp, LogFrame.ep (LogFrame.memRead ..)]

/-- One read, after its reports: the walk goes on, and one word at most joins the buffer. -/
theorem EpReads.of_setEp {t : State} {x : EpSt} {more : List SWord} (h : LogFrame s t)
    (hwalk : x.walk = (t.ep j d n).walk + 1) (hbuf : x.buf = (t.ep j d n).buf ++ more) (hmore : more.length ≤ 1) :
    EpReads j d n 1 s (t.setEp j d n x) := by
  rw [h.ep] at hwalk hbuf
  refine ⟨h.mem, h.memEcc, ?_, more, hmore, ?_⟩
  · rw [State.ep_setEp, hwalk]
    exact ⟨Nat.le_succ _, Nat.le_refl _⟩
  · rw [State.ep_setEp, hbuf]

/-- A read changes no byte of memory and no codeword (R360). -/
theorem EpReads.epRead (s : State) (e : EpCfg) (a : EpAcc) (off : Nat) :
    EpReads j d n 1 s (s.epRead j d n e a off) := by
  have hread := LogFrame.memRead s (Acc.ofSlot j) 256 off 256
  unfold State.epRead
  cases a with
  | word a last => exact .of_setEp hread rfl rfl (Nat.le_refl 1)
  | scale a byte k place final =>
    dsimp only
    split
    · exact .of_setEp hread rfl rfl (Nat.le_refl 1)
    · exact .of_setEp hread rfl (List.append_nil _).symm (Nat.zero_le 1)

/-- A reader reads, and leaves no write for the end of the slot. -/
theorem EpReads.epAccesses (htyp : e.typ = 1) (k : Nat) :
    ∀ s : State, EpReads j d n k s (s.epAccesses j d n g e k).1 ∧ (s.epAccesses j d n g e k).2 = [] := by
  induction k with
  | zero => exact fun s => ⟨.of_halts (.refl s) 0, rfl⟩
  | succ k ih =>
    intro s
    rcases s.epAccesses_cases j d n g e k with h | ⟨f, va, h⟩ | ⟨-, a, off, h⟩ | ⟨hwriter, -⟩
    · rw [h]
      exact ⟨.of_halts (.refl s) _, rfl⟩
    · rw [h]
      exact ⟨.of_halts (.epFault ..) _, rfl⟩
    · rw [h]
      exact ⟨(EpReads.epRead ..).step (ih _).1, (ih _).2⟩
    · exact absurd htyp hwriter

/-- An access that the endpoint may make now: its walk stands in the slot's group, and nothing holds it. -/
structure MayAccess (s : State) (j : JobSlot) (d n g : Nat) (e : EpCfg) (a : Int) (last : Bool) (off : Nat) :
    Prop where
  next : e.access (s.ep j d n).walk = some (.word a last)
  low : 0 ≤ a
  high : a < (stackBytes : Int)
  group : groupOf a.toNat = g
  place : s.imgXlate j d a.toNat 256 (e.typ == 2) = .ok off
  fault : (s.ep j d n).fault = none
  walks : (s.ep j d n).abandoned = false
  ready : s.epReady j d n e = true

variable {a : Int} {last : Bool} {off : Nat}

theorem MayAccess.inStack (h : MayAccess s j d n g e a last off) :
    ¬ ((EpAcc.word a last).addr < 0 ∨ (stackBytes : Int) ≤ (EpAcc.word a last).addr) := by
  rw [not_or, Int.not_lt, Int.not_le]
  exact ⟨h.low, h.high⟩

theorem MayAccess.inGroup (h : MayAccess s j d n g e a last off) : ¬ groupOf (EpAcc.word a last).addr.toNat ≠ g :=
  not_not.2 h.group

theorem MayAccess.free (h : MayAccess s j d n g e a last off) :
    ¬ ((s.ep j d n).fault.isSome = true ∨ (s.ep j d n).abandoned = true ∨ ¬ s.epReady j d n e = true) := by
  simp [h.fault, h.walks, h.ready]

theorem MayAccess.placed (h : MayAccess s j d n g e a last off) :
    s.imgXlate j d (EpAcc.word a last).addr.toNat 256 (e.typ == 2) = .ok off := h.place

theorem State.epAccesses_read (h : MayAccess s j d n g e a last off) (htyp : e.typ = 1) (k : Nat) :
    s.epAccesses j d n g e (k + 1) = (s.epRead j d n e (.word a last) off).epAccesses j d n g e k := by
  rw [State.epAccesses, h.next]
  dsimp only
  rw [if_neg h.free, if_neg h.inStack, if_neg h.inGroup, h.placed]
  dsimp only
  rw [if_pos htyp]

theorem State.epAccesses_write {w : SWord} {q : List SWord} (h : MayAccess s j d n g e a last off) (htyp : e.typ = 2)
    (hbuf : (s.ep j d n).buf = w :: q) (k : Nat) :
    let r := s.epWrite j d n e (.word a last) off w
    s.epAccesses j d n g e (k + 1)
      = ((r.1.epAccesses j d n g e k).1, r.2 :: (r.1.epAccesses j d n g e k).2) := by
  rw [State.epAccesses, h.next]
  dsimp only
  rw [if_neg h.free, if_neg h.inStack, if_neg h.inGroup, h.placed]
  dsimp only
  rw [if_neg (by rw [htyp]; decide), hbuf]

/-- A writer without a word accesses nothing. -/
theorem State.epAccesses_starved (htyp : e.typ = 2) (hbuf : (s.ep j d n).buf = []) (k : Nat) :
    s.epAccesses j d n g e k = (s, []) := by
  cases k with
  | zero => rfl
  | succ k =>
    have hready : s.epReady j d n e = false := by simp [State.epReady, htyp, hbuf]
    rw [State.epAccesses]
    cases e.access (s.ep j d n).walk with
    | none => rfl
    | some a => simp [hready]

end Accesses

/-! ### The groups of a slot (R287, R371) -/

section Groups

variable {s : State} {d k g : Nat} {waiting : BitVec 112}

/-- A group with neither an endpoint nor a background class. -/
def State.groupIdle (s : State) (d k g : Nat) : Prop :=
  s.slotUse d g k = .none ∨ ∃ j, s.slotUse d g k = .eng j

theorem State.slotGroup_idle (h : s.groupIdle d k g) (e : SlotEnd) : s.slotGroup d k waiting g e = (s, e) := by
  rw [State.slotGroup]
  rcases h with h | ⟨j, h⟩
  · rw [h]
  · rw [h]

theorem State.slotGroups_idle (l : List Nat) (h : ∀ g ∈ l, s.groupIdle d k g) (e : SlotEnd) :
    s.slotGroups d k waiting e l = (s, e) := by
  induction l with
  | nil => rfl
  | cons g l ih =>
    rw [State.slotGroups, State.slotGroup_idle (h g List.mem_cons_self)]
    exact ih fun g hg => h g (List.mem_cons_of_mem _ hg)

theorem State.slotGroups_append (l m : List Nat) : ∀ (s : State) (e : SlotEnd),
    s.slotGroups d k waiting e (l ++ m)
      = (s.slotGroups d k waiting e l).1.slotGroups d k waiting (s.slotGroups d k waiting e l).2 m := by
  induction l with
  | nil => exact fun _ _ => rfl
  | cons g l ih => exact fun s e => ih _ _

/-- Where one group alone has an endpoint and no other a background class, the slot is that endpoint's. -/
theorem State.slotGroups_single {j : JobSlot} {n : Nat} {cf : EpCfg} (hg : g < 16) (huse : s.slotUse d g k = .ep j n)
    (hothers : ∀ g' < 16, g' ≠ g → s.groupIdle d k g') (hcf : s.epCfg j d n = some cf) :
    s.slotGroups d k waiting ⟨[], []⟩ (List.range 16)
      = ((s.epAccesses j d n g cf 3).1, ⟨(s.epAccesses j d n g cf 3).2, []⟩) := by
  obtain ⟨before, after, hrange⟩ := List.append_of_mem (List.mem_range.2 hg)
  have hnodup : (before ++ g :: after).Nodup := hrange ▸ List.nodup_range
  rw [List.nodup_append, List.nodup_cons] at hnodup
  obtain ⟨-, ⟨hafter, -⟩, hdisjoint⟩ := hnodup
  have hlt : ∀ g' ∈ before ++ g :: after, g' < 16 := fun g' h => List.mem_range.1 (hrange ▸ h)
  have hbefore : ∀ g' ∈ before, s.groupIdle d k g' := fun g' h =>
    hothers g' (hlt g' (List.mem_append_left _ h)) (hdisjoint g' h g List.mem_cons_self)
  have hplan := State.plan_epAccesses j d n g cf 3 s
  have hrest : ∀ g' ∈ after, (s.epAccesses j d n g cf 3).1.groupIdle d k g' := fun g' h => by
    rw [State.groupIdle, State.slotUse_of_plan hplan]
    exact hothers g' (hlt g' (List.mem_append_right _ (List.mem_cons_of_mem _ h))) fun he => hafter (he ▸ h)
  have hgroup : s.slotGroup d k waiting g ⟨[], []⟩
      = ((s.epAccesses j d n g cf 3).1, ⟨(s.epAccesses j d n g cf 3).2, []⟩) := by
    rw [State.slotGroup, huse]
    dsimp only
    rw [hcf]
    rfl
  rw [hrange, State.slotGroups_append, State.slotGroups_idle before hbefore, State.slotGroups, hgroup]
  exact State.slotGroups_idle after hrest _

theorem State.plan_scrub (d g k : Nat) : ∀ s : State, (s.scrub d g k).plan = s.plan := by
  induction k with
  | zero => exact fun _ => rfl
  | succ k ih => exact fun s => (ih _).trans (State.plan_memRead (s.setStk d _) .other 256 _ 256)

theorem State.plan_slotGroup (s : State) (d k : Nat) (waiting : BitVec 112) (g : Nat) (e : SlotEnd) :
    (s.slotGroup d k waiting g e).1.plan = s.plan := by
  unfold State.slotGroup
  split
  · rfl
  · rfl
  · split
    · rfl
    · dsimp only
      split
      · exact State.plan_scrub ..
      · rfl
  · split
    · rfl
    · exact State.plan_epAccesses ..

theorem State.plan_slotGroups (d k : Nat) (waiting : BitVec 112) (l : List Nat) : ∀ (s : State) (e : SlotEnd),
    (s.slotGroups d k waiting e l).1.plan = s.plan := by
  induction l with
  | nil => exact fun _ _ => rfl
  | cons g l ih => exact fun s e => (ih _ _).trans (State.plan_slotGroup ..)

end Groups

end Sys2Proof.Machine
end

/-! ## The memory slot (O30) -/

section

namespace Sys2Proof.Machine

open Sys2Proof Sys2Proof.Claims

/-! ### What a slot comes to -/

section Slot

variable {s t : State} {d g : Nat} {waiting : BitVec 112}

/-- The groups of a slot have performed their accesses, and what they leave to its end. -/
def State.slotMade (s : State) (d : Nat) (waiting : BitVec 112) : State × SlotEnd :=
  (s.boostSave d waiting).slotGroups d (s.stk d).sched waiting ⟨[], []⟩ (List.range 16)

/-- After its accesses and its writes a slot changes levels, ages and the stack alone. -/
theorem Leveled.slotRun (s : State) (d : Nat) (waiting : BitVec 112) :
    Leveled d ((s.slotMade d waiting).1.slotWrites (s.slotMade d waiting).2.writes) (s.slotRun d waiting) :=
  (Leveled.bgAges waiting (s.slotMade d waiting).2.served (List.range 7) _).trans (.setStk _ _)

theorem State.plan_slotMade (s : State) (d : Nat) (waiting : BitVec 112) :
    ((s.slotMade d waiting).1.slotWrites (s.slotMade d waiting).2.writes).plan = s.plan :=
  (State.plan_slotWrites _ _).trans ((State.plan_slotGroups ..).trans (Leveled.boostSave s waiting).plan)

theorem State.plan_slotRun (s : State) (d : Nat) (waiting : BitVec 112) : (s.slotRun d waiting).plan = s.plan :=
  (Leveled.slotRun s d waiting).plan.trans (s.plan_slotMade d waiting)

/-- The schedule moves on one entry, cyclically. -/
theorem State.sched_slotRun (s : State) (d : Nat) (waiting : BitVec 112) :
    ((s.slotRun d waiting).stk d).sched = ((s.stk d).sched + 1) % s.schedLen d := by
  set u := ((s.slotMade d waiting).1.slotWrites (s.slotMade d waiting).2.writes).bgAges d waiting
    (s.slotMade d waiting).2.served (List.range 7)
  have hlen : u.schedLen d = s.schedLen d :=
    State.schedLen_of_plan ((Leveled.bgAges waiting _ _ _).plan.trans (s.plan_slotMade d waiting)) d
  have hrun : s.slotRun d waiting = u.setStk d { u.stk d with
      sched := ((s.stk d).sched + 1) % u.schedLen d
      given := (List.range 16).map ((s.boostSave d waiting).givenOf d (s.stk d).sched waiting) } := rfl
  rw [hrun, State.stk_setStk, hlen]

/-- The levels that a slot raises first leave what each of its groups does. -/
theorem State.groupIdle_boostSave {k : Nat} (h : s.groupIdle d k g) : (s.boostSave d waiting).groupIdle d k g := by
  rw [State.groupIdle, State.slotUse_of_plan (Leveled.boostSave s waiting).plan]
  exact h

/-- A slot in which no group has an endpoint or a background class changes levels, ages and the stack alone. -/
theorem Leveled.slotRun_idle (h : ∀ g < 16, s.groupIdle d (s.stk d).sched g) : Leveled d s (s.slotRun d waiting) := by
  have hrun := Leveled.slotRun s d waiting
  have hmade : s.slotMade d waiting = (s.boostSave d waiting, ⟨[], []⟩) :=
    State.slotGroups_idle _ (fun g hg => State.groupIdle_boostSave (h g (List.mem_range.1 hg))) _
  rw [hmade] at hrun
  exact (Leveled.boostSave s waiting).trans hrun

variable {j : JobSlot} {n : Nat} {cf : EpCfg}

/-- A slot that one endpoint alone owns makes that endpoint's accesses. -/
theorem State.slotMade_single (hg : g < 16) (huse : s.slotUse d g (s.stk d).sched = .ep j n)
    (hothers : ∀ g' < 16, g' ≠ g → s.groupIdle d (s.stk d).sched g') (hcf : s.epCfg j d n = some cf) :
    let r := (s.boostSave d waiting).epAccesses j d n g cf 3
    s.slotMade d waiting = (r.1, ⟨r.2, []⟩) := by
  have hplan := (Leveled.boostSave (d := d) s waiting).plan
  refine State.slotGroups_single hg ?_ (fun g' h hne => State.groupIdle_boostSave (hothers g' h hne)) ?_
  · rw [State.slotUse_of_plan hplan, huse]
  · rw [State.epCfg_of_plan hplan, hcf]

end Slot

/-! ### The endpoint that owns a group -/

section Owner

variable {s t : State} {j : JobSlot} {d n g : Nat} {cf : EpCfg} {a : Int} {last : Bool} {off : Nat}
  {waiting : BitVec 112}

/-- What an endpoint may access does not depend on the levels. -/
theorem MayAccess.of_leveled (h : Leveled d s t) (m : MayAccess s j d n g cf a last off) :
    MayAccess t j d n g cf a last off where
  next := by rw [h.ep, m.next]
  low := m.low
  high := m.high
  group := m.group
  place := by rw [h.imgXlate, m.place]
  fault := by rw [h.ep, m.fault]
  walks := by rw [h.ep, m.walks]
  ready := by
    have hready : t.epReady j d n cf = s.epReady j d n cf := by
      rw [State.epReady, h.ep, h.route, State.epReady]
    rw [hready, m.ready]

/-- A reader sends the word of its walk last in its buffer, and accesses at most two words more. -/
theorem slot_reads (hg : g < 16) (huse : s.slotUse d g (s.stk d).sched = .ep j n)
    (hothers : ∀ g' < 16, g' ≠ g → s.groupIdle d (s.stk d).sched g') (hcf : s.epCfg j d n = some cf)
    (htyp : cf.typ = 1) (m : MayAccess s j d n g cf a last off) :
    let t := s.slotRun d waiting
    let rd := (s.memRead (Acc.ofSlot j) 256 off 256).1
    t.mem = s.mem ∧ t.memEcc = s.memEcc
      ∧ (s.ep j d n).walk + 1 ≤ (t.ep j d n).walk ∧ (t.ep j d n).walk ≤ (s.ep j d n).walk + 3
      ∧ ∃ more, more.length ≤ 2 ∧ (t.ep j d n).buf = (s.ep j d n).buf ++
          ⟨Payload.ofBytes rd.bytes, last, false, !rd.bad.isEmpty, false, if cf.tile then cf.t else 0⟩ :: more := by
  intro t rd
  have hboost : Leveled d s (s.boostSave d waiting) := .boostSave s waiting
  set u := s.boostSave d waiting
  have hrd : (u.memRead (Acc.ofSlot j) 256 off 256).1 = rd := by
    have hram : (u.memRead (Acc.ofSlot j) 256 off 256).1 = ramRead u.mem u.memEcc 8 off 256 := rfl
    rw [hram, hboost.frame]
    rfl
  have hfirst := u.ep_epRead_word j d n cf a last off
  have hread := EpReads.epRead (j := j) (d := d) (n := n) u cf (.word a last) off
  obtain ⟨hrest, hnone⟩ := EpReads.epAccesses (j := j) (d := d) (n := n) (g := g) htyp 2
    (u.epRead j d n cf (.word a last) off)
  have hmade := State.slotMade_single (waiting := waiting) hg huse hothers hcf
  dsimp only at hmade
  rw [State.epAccesses_read (m.of_leveled hboost) htyp 2, hnone] at hmade
  have hrun := Leveled.slotRun s d waiting
  rw [hmade] at hrun
  set v := ((u.epRead j d n cf (.word a last) off).epAccesses j d n g cf 2).1
  have hvt : Leveled d v t := hrun
  obtain ⟨more, hmore, hbuf⟩ := hrest.buf
  obtain ⟨hlo, hhi⟩ := hrest.walk
  rw [hfirst, hboost.ep] at hlo hhi hbuf
  rw [hvt.ep]
  refine ⟨?_, ?_, hlo, by omega, more, hmore, ?_⟩
  · rw [hvt.frame]
    exact (hrest.mem.trans hread.mem).trans (by rw [hboost.frame])
  · rw [hvt.frame]
    exact (hrest.memEcc.trans hread.memEcc).trans (by rw [hboost.frame])
  · rw [hbuf, hrd, List.append_assoc]
    rfl

/-- A write of memory leaves the endpoints and the routes. -/
theorem State.memPut_streams (s : State) (who : Acc) (off : Nat) (l : List Byte) (p : Bool) :
    (s.memPut who off l p).eps = s.eps ∧ (s.memPut who off l p).routes = s.routes := by
  have heps : (s.memWrite who off l).eps = (s.eccReport who 256 _ _).eps := rfl
  have hroutes : (s.memWrite who off l).routes = (s.eccReport who 256 _ _).routes := rfl
  have hkept : (s.memWrite who off l).eps = s.eps ∧ (s.memWrite who off l).routes = s.routes := by
    rw [heps, hroutes, LogFrame.eccReport]
    exact ⟨rfl, rfl⟩
  cases p
  · exact hkept
  · exact hkept

/-- A writer writes the one word that it received, and frees its place. -/
theorem slot_writes {w : SWord} (hg : g < 16) (huse : s.slotUse d g (s.stk d).sched = .ep j n)
    (hothers : ∀ g' < 16, g' ≠ g → s.groupIdle d (s.stk d).sched g') (hcf : s.epCfg j d n = some cf)
    (htyp : cf.typ = 2) (hword : (s.ep j d n).buf = [w]) (m : MayAccess s j d n g cf a last off) :
    let t := s.slotRun d waiting
    (t.ep j d n).buf = [] ∧ (t.ep j d n).walk = (s.ep j d n).walk + 1
      ∧ (t.route j cf.route).creditsBack = (s.route j cf.route).creditsBack + 1
      ∧ ∀ p, Tab.look (fun _ => 0) t.mem p
        = if off ≤ p ∧ p < off + 256 then (Payload.bytes w.data).getD (p - off) 0
          else Tab.look (fun _ => 0) s.mem p := by
  intro t
  have hboost : Leveled d s (s.boostSave d waiting) := .boostSave s waiting
  set u := s.boostSave d waiting
  have hbuf : (u.ep j d n).buf = [w] := by rw [hboost.ep, hword]
  set v := (u.setEp j d n { u.ep j d n with walk := (u.ep j d n).walk + 1, buf := [] }).creditBack j cf.route with hv
  have hwrite : u.epWrite j d n cf (.word a last) off w
      = (v, ⟨Acc.ofSlot j, off, Payload.bytes w.data, w.poison⟩) := by
    rw [hv, State.epWrite, hbuf]
    rfl
  have hep : v.ep j d n = { u.ep j d n with walk := (u.ep j d n).walk + 1, buf := [] } := State.ep_setEp ..
  have hstarved : v.epAccesses j d n g cf 2 = (v, []) := State.epAccesses_starved htyp (by rw [hep]) 2
  have hmade := State.slotMade_single (waiting := waiting) hg huse hothers hcf
  dsimp only at hmade
  rw [State.epAccesses_write (m.of_leveled hboost) htyp hbuf 2, hwrite, hstarved] at hmade
  have hrun := Leveled.slotRun s d waiting
  rw [hmade] at hrun
  set x := v.memPut (Acc.ofSlot j) off (Payload.bytes w.data) w.poison with hx
  have hxt : Leveled d x t := hrun
  have hlen : (Payload.bytes w.data).length = 256 := length_leBytes ..
  have hvmem : v.mem = s.mem := by
    have hum : v.mem = u.mem := rfl
    rw [hum, hboost.frame]
  have hvroute : (v.route j cf.route).creditsBack = (s.route j cf.route).creditsBack + 1 := by
    rw [hv, State.creditsBack_creditBack, if_pos rfl, ← hboost.route]
    rfl
  obtain ⟨hxeps, hxroutes⟩ := v.memPut_streams (Acc.ofSlot j) off (Payload.bytes w.data) w.poison
  have hxep : x.ep j d n = v.ep j d n := by rw [State.ep, hxeps, State.ep]
  have hxroute : x.route j cf.route = v.route j cf.route := State.route_of_routes hxroutes ..
  rw [hxt.ep, hxt.route, hxep, hxroute, hep]
  refine ⟨rfl, by rw [hboost.ep], hvroute, fun p => ?_⟩
  have htx : t.mem = x.mem := by rw [hxt.frame]
  rw [htx, State.memPut_mem, hvmem, Tab.look_putList_getD, hlen]

end Owner

/-- Settles O30: the plan of the slots stands, and what a slot does is what the group in use does. -/
theorem memorySlotPerformsTheSchedule : Obligations.MemorySlotPerformsTheSchedule := by
  unfold Obligations.MemorySlotPerformsTheSchedule
  intro d waiting s k
  obtain ⟨hpending, hA, hB, -, -⟩ := State.plan_eq_iff.1 (s.plan_slotRun d (waiting ||| s.walkBits d))
  refine ⟨s.slotRun d (waiting ||| s.walkBits d), rfl, s.sched_slotRun d _, hpending, hA, hB, fun hidle => ?_,
    fun j n g cf a last off hg huse hothers hcf hnext hlow hhigh hgroup hplace hfault hwalks => ?_⟩
  · rw [(Leveled.slotRun_idle hidle).frame]
    exact ⟨rfl, rfl, rfl, rfl, rfl, rfl⟩
  · have may (hready : s.epReady j d n cf = true) : MayAccess s j d n g cf a last off :=
      ⟨hnext, hlow, hhigh, hgroup, hplace, hfault, hwalks, hready⟩
    exact ⟨fun htyp hcredit => slot_reads hg huse hothers hcf htyp (may (by simp [State.epReady, htyp, hcredit])),
      fun w htyp hword => slot_writes hg huse hothers hcf htyp hword (may (by simp [State.epReady, htyp, hword]))⟩

end Sys2Proof.Machine
end

/-! ## The image control and a clutch that is reading (O31) -/

section

namespace Sys2Proof.Machine

open Sys2Proof Sys2Proof.Claims

/-! ### The words of a piece that is being read

DEFAULT in IDLE ends a clutch (R622), and the end discards what the reads in progress have brought: their routes
change, where the statement says that no route does. -/

/-- A clutch whose only piece is being read over route 0. -/
def readingClutch : Clutch where
  id := 1
  plan := [⟨0, 0, 0, 0xFFFFFFFF, 1, 0⟩]
  jsr := 0
  imageId := 0
  cstep := 0
  pieces := [(0, ⟨1, none, false, [], []⟩)]
  recs := []
  degraded := false
  poisoned := false
  huplow := false
  lastDrive := none
  sealStep := 0
  gone := []

/-- No load is in progress; the one word of that piece has arrived at the save port. -/
def clutchReads : State :=
  { State.reset with
    sav := { SavSt.reset with clutch := some readingClutch }
    routes := [(0, { RouteSt.reset with dst := [⟨1, true, false, false, false, 0⟩] })] }

/-- The word has arrived, and IMG_CTL.DEFAULT discards it. -/
theorem clutchReads_default_discards :
    (clutchReads.route .a 0).dst ≠ [] ∧ ((clutchReads.imgCtl 8).route .a 0).dst = [] := by decide +kernel

/-- Refutes O31: IMG_CTL.DEFAULT in IDLE does not leave the routes alone. It ends the clutch, and the word that has
arrived for the piece being read goes from the destination of its route. -/
theorem not_imageControlActsByItsState : ¬ Obligations.ImageControlActsByItsState := by
  unfold Obligations.ImageControlActsByItsState
  intro h
  obtain ⟨-, hcontrol⟩ := h .jusia 0 clutchReads (.inl rfl) rfl
  obtain ⟨-, -, -, hdefault⟩ := hcontrol rfl
  obtain ⟨t, hexec, -, ⟨-, -, -, -, -, hroutes, -⟩, -⟩ := hdefault rfl rfl
  obtain rfl : clutchReads.imgCtl 8 = t := Host.Outcome.next.inj hexec
  obtain ⟨hbefore, hafter⟩ := clutchReads_default_discards
  rw [State.route, hroutes] at hafter
  exact hbefore hafter

end Sys2Proof.Machine
end

/-! ## A drive's queue beyond memory (O50) -/

section

namespace Sys2Proof.Machine

open Sys2Proof Sys2Proof.Claims

/-! ### An error counter at the address of a drive's control register

The statement's states are not bound to queues that lie in memory. The error counters of the stack 0x30000 that
the address 3 * 2^52 names have the address of drive 0's control register. -/

theorem rMemEcc_beyond_eq_rSavDrvCtl : rMemEcc 0x30000 = rSavDrvCtl 0 := rfl

/-- Drive 0's controller has I/O queues, its own stand from 3 * 2^52 + 4 on, and the codeword that holds the first
bytes of the admin submission queue has a single-bit error. -/
def strayQueue : State :=
  ({ State.reset with
    memEcc := [(3 * 2 ^ 52 / 8, .single)]
    drives := [(0, { DriveSt.reset with paired := true })] } : State).wr64 rSavQbaseLo (3 * 2 ^ 52 + 4)

/-- The entry of the attachment's first command is written there, and its corrected error is counted beside EN. -/
theorem strayQueue_attach_counts :
    ((strayQueue.setB (fSavDrvCtlEn 0) true).attachDrive 0).rd (rMemEcc 0x30000) = 2 := by decide +kernel

/-- Refutes O50: a write of SAV_DRV0_CTL with EN and RESET does not leave EN set from every state. The attachment
that it begins writes into a queue beyond memory, and the error counted there clears EN. -/
theorem not_drivesAndHoldupFollowTheirEvents : ¬ Obligations.DrivesAndHoldupFollowTheirEvents := by
  unfold Obligations.DrivesAndHoldupFollowTheirEvents
  rintro ⟨hdrives, -⟩
  obtain ⟨hreset, -⟩ := hdrives 0 strayQueue
  obtain ⟨t, hexec, -, hen, -⟩ := hreset .jusia 1 (.inl rfl)
  obtain rfl : (strayQueue.setB (fSavDrvCtlEn 0) true).attachDrive 0 = t := Host.Outcome.next.inj hexec
  have hcount : ((strayQueue.setB (fSavDrvCtlEn 0) true).attachDrive 0).rd (fSavDrvCtlEn 0).off = 2 :=
    strayQueue_attach_counts
  have hclear : ((strayQueue.setB (fSavDrvCtlEn 0) true).attachDrive 0).bitF (fSavDrvCtlEn 0) = false := by
    rw [State.bitF, State.getF, hcount]
    decide
  exact absurd (hclear.symm.trans hen) (by decide)

end Sys2Proof.Machine
end

/-! ## The loader: how a load ends, and its stages (O32) -/

section

namespace Sys2Proof.Machine

open Sys2Proof Sys2Proof.Claims

section Load

variable {s t u : State} {l : Loader} {code : Nat}

/-! ### What tells the host -/

/-- A step that logs, signals and answers: the registers below the ERR block stand. -/
structure Announced (s t : State) : Prop where
  frame : t = { s with reg := t.reg, bar4 := t.bar4, out := t.out, sd := t.sd, bwt := t.bwt, host := t.host }
  rd : ∀ o < 0xC00000, t.rd o = s.rd o

theorem Announced.refl (s : State) : Announced s s := ⟨rfl, fun _ _ => rfl⟩

theorem Announced.trans (h : Announced s t) (k : Announced t u) : Announced s u :=
  ⟨by rw [k.frame, h.frame], fun o ho => (k.rd o ho).trans (h.rd o ho)⟩

theorem Announced.of_log (h : LogFrame s t) (k : BelowLog s t) : Announced s t := ⟨by rw [h], k.rd⟩

theorem Announced.of_replied (h : Replied s t) : Announced s t :=
  ⟨by rw [h], fun o _ => by rw [State.rd, h.reg, State.rd]⟩

theorem Announced.logImage (s : State) (l : Loader) (detail : Nat) : Announced s (s.logImage l detail) :=
  .of_log (.log s _) (.log s _)

theorem Announced.msix (s : State) (fn : Func) (vec : Nat) : Announced s (s.msix fn vec) :=
  .of_log (.msix s fn vec) (.msix s fn vec)

theorem Announced.sdYield (s : State) (held : Nat → Bool) : Announced s (s.sdYield held) := by
  unfold State.sdYield
  split
  · exact .refl s
  · split
    · exact .of_log rfl ((BelowLog.sd s _).trans ((BelowLog.setF (f := fErrStatusSdbusy) _ _ (by decide)).trans
        (.setF (f := fErrSdstatQlevel) _ _ (by decide))))
    · exact .refl s

theorem Announced.getF (h : Announced s t) {f : Fld} (hf : f.off < 0xC00000) : t.getF f = s.getF f :=
  State.getF_of_rd_eq (h.rd _ hf)

theorem Announced.rd64 (h : Announced s t) {o : Nat} (ho : o + 4 < 0xC00000) : t.rd64 o = s.rd64 o := by
  rw [State.rd64, h.rd _ ho, h.rd _ (by omega), State.rd64]

/-! ### The end of a load (R334, R336, R350) -/

/-- The images, the cores, device memory and the commands that wait. -/
def State.lasting (s : State) : Option Image × Option Image × Tab CoreSt × List Host.Cell × List Instr :=
  (s.imgA, s.imgB, s.cores, s.mem, s.pending)

theorem LogFrame.lasting (h : LogFrame s t) : t.lasting = s.lasting := by rw [h]; rfl

/-- No load, with the status of the last one. -/
def State.loadOver (s : State) (code : Nat) : State :=
  ((({ s.killCmds NvmeUse.ofImage with loader := none } : State).setF fImgStatusState imgIdle).setF
    fImgStatusCode code).setB fImgStatusDone true

theorem State.loadOver_status (s : State) (hcode : code < 256) : (s.loadOver code).getF fImgStatusState = 0
    ∧ (s.loadOver code).getF fImgStatusCode = code ∧ (s.loadOver code).getF fImgStatusDone = 1 := by
  unfold State.loadOver State.setB
  refine ⟨?_, ?_, State.getF_setF_same _ _ _ (by decide)⟩
  · rw [State.getF_setF_of_disjoint (f := fImgStatusState) (g := fImgStatusDone) _ _ rfl (by decide),
      State.getF_setF_of_disjoint (f := fImgStatusState) (g := fImgStatusCode) _ _ rfl (by decide),
      State.getF_setF_same _ _ _ (by decide)]
    rfl
  · rw [State.getF_setF_of_disjoint (f := fImgStatusCode) (g := fImgStatusDone) _ _ rfl (by decide),
      State.getF_setF_same _ _ _ (by decide)]
    exact Nat.mod_eq_of_lt hcode

theorem State.rd_loadOver (s : State) (code : Nat) {o : Nat} (ho : rImgStatus ≠ o) : (s.loadOver code).rd o = s.rd o := by
  unfold State.loadOver
  rw [State.rd_setB_ne _ _ _ ho, State.rd_setF_ne _ _ _ ho, State.rd_setF_ne _ _ _ ho]
  rfl

/-- Past the state and the status, the end of a load tells the host alone. -/
theorem Announced.endLoad (hl : s.loader = some l) (code : Nat) : Announced (s.loadOver code) (s.endLoad code) := by
  have hlog : Announced (s.loadOver code)
      (if code = 0 then s.loadOver code else (s.loadOver code).logImage l code) := by
    split_ifs
    · exact .refl _
    · exact .logImage ..
  have hsignal := hlog.trans (.msix _ 0 2)
  unfold State.endLoad
  rw [hl]
  dsimp only
  split
  · exact hsignal.trans (.of_replied (State.replied ..))
  · exact hsignal

theorem State.lasting_endLoad (hl : s.loader = some l) (code : Nat) : (s.endLoad code).lasting = s.lasting := by
  rw [(Announced.endLoad hl code).frame]
  rfl

/-- A load ends with its status from a state that has kept what the end keeps. -/
theorem loadEnded_endLoad (hl : u.loader = some l) (hcode : code < 256) (hu : u.lasting = s.lasting) :
    LoadEnded code s (u.endLoad code) := by
  have hend := Announced.endLoad hl code
  obtain ⟨hstate, hstatus, hdone⟩ := u.loadOver_status hcode
  have hlasting := (State.lasting_endLoad hl code).trans hu
  simp only [State.lasting, Prod.mk.injEq] at hlasting
  obtain ⟨himgA, himgB, hcores, hmem, hpending⟩ := hlasting
  refine ⟨?_, ?_, ?_, ?_, himgA, himgB, hcores, hmem, hpending⟩
  · rw [hend.frame]
    rfl
  · rw [hend.getF (by decide), hstate]
  · rw [hend.getF (by decide), hstatus]
  · rw [hend.getF (by decide), hdone]

/-- A load goes on: its state is shown. -/
theorem State.getF_loadTo (s : State) (l : Loader) {st : Nat} (hst : st < 16) :
    (s.loadTo l st).getF fImgStatusState = st :=
  (State.getF_setF_same _ _ _ (by decide)).trans (Nat.mod_eq_of_lt hst)

theorem State.loadTo_same (hl : s.loader = some l) (st : Nat) : s.loadTo l st = s.setF fImgStatusState st := by
  rw [State.loadTo, ← hl]

/-! ### The status codes (R350) -/

theorem firstBadCode_mem (c : List (Nat × Bool)) : firstBadCode c = 0 ∨ firstBadCode c ∈ c.map (·.1) := by
  induction c with
  | nil => exact .inl rfl
  | cons e c ih =>
    obtain ⟨k, ok⟩ := e
    rw [firstBadCode, List.map_cons]
    split_ifs
    · exact ih.imp_right (List.mem_cons_of_mem k)
    · exact .inr List.mem_cons_self

/-- A status is the code of a check. -/
theorem firstBadCode_lt {c : List (Nat × Bool)} {n : Nat} (hn : 0 < n) (h : ∀ k ∈ c.map (·.1), k < n) :
    firstBadCode c < n :=
  (firstBadCode_mem c).elim (fun hz => hz ▸ hn) (h _)

theorem headerStatus_lt (b : List Byte) (len : Nat) : headerStatus b len < 256 :=
  firstBadCode_lt (by decide) (show ∀ k ∈ [0x03, 0x04, 0x05, 0x06, 0x07], k < 256 by decide)

theorem State.sigStatus_lt (s : State) (msg g : List Byte) : s.sigStatus msg g < 256 := by
  unfold State.sigStatus
  dsimp only
  split_ifs <;> decide

theorem State.checkStatus_lt (s : State) (j : JobSlot) (b : List Byte) (variant : Nat) :
    s.checkStatus j b variant < 256 :=
  firstBadCode_lt (by decide) (show ∀ k ∈ [0x0B, 0x0C, 0x0D, 0x0E, 0x0F, 0x10, 0x11, 0x12, 0x13, 0x14, 0x15, 0x16, 0x17],
    k < 256 by decide)

/-! ### The stages (R331, R334) -/

theorem State.loadRead_eq (hl : s.loader = some l) (hst : s.imgState = 1) : s.loadRead =
    if ¬ l.rangeOk then s.endLoad 1 else if l.failed then s.endLoad 2
    else if s.useBusy NvmeUse.ofImage then s else s.readLoad l := by
  rw [State.loadRead, hl]
  exact if_neg (by rw [hst]; decide)

theorem State.loadAuth_eq (hl : s.loader = some l) (hst : s.imgState = 2) : s.loadAuth =
    let code := s.sigStatus (l.bytes.take (sigOff l.bytes)) (l.bytes.drop (sigOff l.bytes))
    if code ≠ 0 then s.endLoad code
    else if (l.img.map (·.debug)) = some true ∧ ¬ s.bitF fImgKeysDebug then s.endLoad 10
    else s.loadTo l imgCheck := by
  rw [State.loadAuth, hl]
  exact if_neg (by rw [hst]; decide)

theorem State.loadCheck_eq (hl : s.loader = some l) (hst : s.imgState = 3) : s.loadCheck =
    if s.checkStatus l.slot l.bytes l.variant = 0 then s.loadTo l imgStage
    else s.endLoad (s.checkStatus l.slot l.bytes l.variant) := by
  rw [State.loadCheck, hl]
  exact if_neg (by rw [hst]; decide)

/-- The pages of the image's windows, with the state after their walks. -/
def State.staged (s : State) (l : Loader) : Tab WinPage × State :=
  ((l.img.map (·.winPages)).getD []).foldl (stagePage l.slot) ([], s)

theorem State.loadStage_eq (hl : s.loader = some l) (hst : s.imgState = 4) :
    s.loadStage = (s.staged l).2.loadTo { l with pages := (s.staged l).1 } imgWait := by
  rw [State.loadStage, hl]
  exact if_neg (by rw [hst]; decide)

/-- The walks of the pages read memory. -/
theorem LogFrame.staged (s : State) (l : Loader) : LogFrame s (s.staged l).2 := by
  have hfold : ∀ (ps : List (Nat × WinCfg × Nat)) (a : Tab WinPage × State), LogFrame s a.2 →
      LogFrame s (ps.foldl (stagePage l.slot) a).2 := by
    intro ps
    induction ps with
    | nil => exact fun _ ha => ha
    | cons x ps ih =>
      intro a ha
      have hpage : LogFrame a.2 (stagePage l.slot a x).2 := by
        show LogFrame a.2 (a.2.pageState l.slot x.2.1 x.2.2).2
        rw [State.pageState_state]
        exact (State.walk_rules ..).1.log
      exact ih _ (ha.trans hpage)
  exact hfold _ _ (.refl s)

/-- READ, once the bytes can be read. -/
theorem State.readLoad_rules (s : State) (hl : s.loader = some l) :
    let m := (s.memRead .other 256 l.src.toNat l.len.toNat).1
    (m.bad ≠ [] → LoadEnded 2 s (s.readLoad l))
    ∧ (m.bad = [] → headerStatus m.bytes l.len.toNat ≠ 0 →
        LoadEnded (headerStatus m.bytes l.len.toNat) s (s.readLoad l))
    ∧ (m.bad = [] → headerStatus m.bytes l.len.toNat = 0 →
        (s.readLoad l).getF fImgStatusState = 2 ∧ (s.readLoad l).lasting = s.lasting
        ∧ (s.readLoad l).loader = some { l with
            bytes := m.bytes, img := if 0x80 ≤ m.bytes.length then some (readImage m.bytes) else none }) := by
  have hread := LogFrame.memRead s .other 256 l.src.toNat l.len.toNat
  unfold State.readLoad
  generalize s.memRead .other 256 l.src.toNat l.len.toNat = r at hread ⊢
  refine ⟨fun hbad => ?_, fun hgood hcode => ?_, fun hgood hcode => ?_⟩
  · rw [if_pos hbad]
    exact loadEnded_endLoad (hread.loader.trans hl) (by decide) hread.lasting
  · rw [if_neg (not_not.2 hgood)]
    dsimp only
    rw [if_neg hcode]
    exact loadEnded_endLoad rfl (headerStatus_lt ..) hread.lasting
  · rw [if_neg (not_not.2 hgood)]
    dsimp only
    rw [if_pos hcode]
    exact ⟨State.getF_loadTo _ _ (by decide), hread.lasting, rfl⟩

theorem loadRead_rules (hl : s.loader = some l) (hst : s.imgState = 1) : ∃ t, exec (.loadRead ()) s = .next t
    ∧ (l.rangeOk = false → LoadEnded 1 s t)
    ∧ (l.rangeOk = true → l.failed = true → LoadEnded 2 s t)
    ∧ (l.rangeOk = true → l.failed = false → s.useBusy NvmeUse.ofImage = true → t = s)
    ∧ (l.rangeOk = true → l.failed = false → s.useBusy NvmeUse.ofImage = false →
      let m := (s.memRead .other 256 l.src.toNat l.len.toNat).1
      (m.bad ≠ [] → LoadEnded 2 s t)
      ∧ (m.bad = [] → headerStatus m.bytes l.len.toNat ≠ 0 →
          LoadEnded (headerStatus m.bytes l.len.toNat) s t)
      ∧ (m.bad = [] → headerStatus m.bytes l.len.toNat = 0 →
          t.getF fImgStatusState = 2 ∧ t.mem = s.mem ∧ t.cores = s.cores ∧ t.imgA = s.imgA
          ∧ t.loader = some { l with
              bytes := m.bytes, img := if 0x80 ≤ m.bytes.length then some (readImage m.bytes) else none })) := by
  refine ⟨s.loadRead, rfl, fun hrange => ?_, fun hrange hfailed => ?_, fun hrange hfailed hbusy => ?_,
    fun hrange hfailed hbusy => ?_⟩ <;> rw [State.loadRead_eq hl hst]
  · rw [if_pos (by simp [hrange])]
    exact loadEnded_endLoad hl (by decide) rfl
  · rw [if_neg (by simp [hrange]), if_pos hfailed]
    exact loadEnded_endLoad hl (by decide) rfl
  · rw [if_neg (by simp [hrange]), if_neg (by simp [hfailed]), if_pos hbusy]
  · rw [if_neg (by simp [hrange]), if_neg (by simp [hfailed]), if_neg (by simp [hbusy])]
    obtain ⟨hbad, hheader, hgood⟩ := s.readLoad_rules hl
    refine ⟨hbad, hheader, fun hm hcode => ?_⟩
    obtain ⟨hstate, hlasting, hloader⟩ := hgood hm hcode
    simp only [State.lasting, Prod.mk.injEq] at hlasting
    obtain ⟨himgA, -, hcores, hmem, -⟩ := hlasting
    exact ⟨hstate, hmem, hcores, himgA, hloader⟩

theorem loadAuth_rules (hl : s.loader = some l) (hst : s.imgState = 2) : ∃ t, exec .loadAuth s = .next t
    ∧ (let code := s.sigStatus (l.bytes.take (sigOff l.bytes)) (l.bytes.drop (sigOff l.bytes))
      let dbg := (l.img.map (·.debug)) = some true ∧ s.bitF fImgKeysDebug = false
      (code ≠ 0 → LoadEnded code s t)
      ∧ (code = 0 → dbg → LoadEnded 10 s t)
      ∧ (code = 0 → ¬ dbg → t = s.setF fImgStatusState 3)) := by
  refine ⟨s.loadAuth, rfl, ?_⟩
  have hcode := s.sigStatus_lt (l.bytes.take (sigOff l.bytes)) (l.bytes.drop (sigOff l.bytes))
  rw [State.loadAuth_eq hl hst]
  generalize s.sigStatus (l.bytes.take (sigOff l.bytes)) (l.bytes.drop (sigOff l.bytes)) = code at hcode ⊢
  refine ⟨fun hbad => ?_, fun hgood hdebug => ?_, fun hgood hdebug => ?_⟩
  · rw [if_pos hbad]
    exact loadEnded_endLoad hl hcode rfl
  · rw [if_neg (not_not.2 hgood), if_pos (by simpa using hdebug)]
    exact loadEnded_endLoad hl (by decide) rfl
  · rw [if_neg (not_not.2 hgood), if_neg (by simpa using hdebug), State.loadTo_same hl]
    rfl

theorem loadCheck_rules (hl : s.loader = some l) (hst : s.imgState = 3) : ∃ t, exec .loadCheck s = .next t
    ∧ (s.checkStatus l.slot l.bytes l.variant ≠ 0 → LoadEnded (s.checkStatus l.slot l.bytes l.variant) s t)
    ∧ (s.checkStatus l.slot l.bytes l.variant = 0 → t = s.setF fImgStatusState 4) := by
  refine ⟨s.loadCheck, rfl, fun hbad => ?_, fun hgood => ?_⟩ <;> rw [State.loadCheck_eq hl hst]
  · rw [if_neg hbad]
    exact loadEnded_endLoad hl (s.checkStatus_lt ..) rfl
  · rw [if_pos hgood, State.loadTo_same hl]
    rfl

theorem loadStage_rules (hl : s.loader = some l) (hst : s.imgState = 4) : ∃ t, exec .loadStage s = .next t
    ∧ t.getF fImgStatusState = 5 ∧ t.mem = s.mem ∧ t.imgA = s.imgA ∧ t.imgB = s.imgB
    ∧ t.cores = s.cores ∧ (∃ pages, t.loader = some { l with pages := pages }) := by
  have hlasting : ((s.staged l).2.loadTo { l with pages := (s.staged l).1 } imgWait).lasting = s.lasting :=
    (LogFrame.staged s l).lasting
  simp only [State.lasting, Prod.mk.injEq] at hlasting
  obtain ⟨himgA, himgB, hcores, hmem, -⟩ := hlasting
  refine ⟨s.loadStage, rfl, ?_⟩
  rw [State.loadStage_eq hl hst]
  exact ⟨State.getF_loadTo _ _ (by decide), hmem, himgA, himgB, hcores, _, rfl⟩

/-- Settles O32, stage by stage; a stage whose state is not that of the load does nothing. -/
theorem loadRunsItsStagesInOrder : Obligations.LoadRunsItsStagesInOrder := by
  unfold Obligations.LoadRunsItsStagesInOrder
  intro s l hl
  refine ⟨loadRead_rules hl, loadAuth_rules hl, loadCheck_rules hl, loadStage_rules hl,
    fun hst => ?_, fun hst => ?_, fun hst => ?_, fun hst => ?_⟩ <;> refine congrArg Host.Outcome.next ?_
  · rw [State.loadRead, hl]
    exact if_pos hst
  · rw [State.loadAuth, hl]
    exact if_pos hst
  · rw [State.loadCheck, hl]
    exact if_pos hst
  · rw [State.loadStage, hl]
    exact if_pos hst

end Load

end Sys2Proof.Machine
end

/-! ## An image takes effect (O33) -/

section

namespace Sys2Proof.Machine

open Sys2Proof Sys2Proof.Claims

section Swap

variable {s t u : State} {l : Loader} {j : JobSlot}

/-! ### What a swap leaves alone -/

/-- Device memory, the commands that wait, the load and the images. -/
def State.swapView (s : State) : List Host.Cell × List Instr × Option Loader × Option Image × Option Image :=
  (s.mem, s.pending, s.loader, s.imgA, s.imgB)

/-- These and the cores. -/
def State.settled (s : State) :
    (List Host.Cell × List Instr × Option Loader × Option Image × Option Image) × Tab CoreSt := (s.swapView, s.cores)

theorem State.swapView_of_settled (h : t.settled = s.settled) : t.swapView = s.swapView := congrArg Prod.fst h

theorem State.cores_of_settled (h : t.settled = s.settled) : t.cores = s.cores := congrArg Prod.snd h

theorem LogFrame.settled (h : LogFrame s t) : t.settled = s.settled := by rw [h]; rfl

theorem State.settled_reach (s : State) (n : Nat) : (s.reach n).settled = s.settled :=
  (congrArg State.settled (s.reach_rules n).1 :)

/-- What a run of steps leaves as each of them does. -/
theorem State.view_foldl {α β : Type} (view : State → β) (f : State → α → State)
    (h : ∀ s x, view (f s x) = view s) (l : List α) : ∀ s, view (l.foldl f s) = view s := by
  induction l with
  | nil => exact fun _ => rfl
  | cons x l ih => exact fun s => (ih _).trans (h s x)

/-! ### The steps of a swap that touch no core -/

theorem State.settled_endClutch (s : State) (code : Nat) : (s.endClutch code).settled = s.settled := by
  have hread : ∀ (c : Clutch) (ps : List Nat) (s : State), (s.staleReads c ps).settled = s.settled := by
    intro c ps
    induction ps with
    | nil => exact fun _ => rfl
    | cons p ps ih =>
      intro s
      have hone : (s.staleRead c p).settled = s.settled := by
        unfold State.staleRead
        split <;> rfl
      exact (ih _).trans hone
  unfold State.endClutch
  split
  · rfl
  · split_ifs
    · exact (LogFrame.msix _ 0 4).settled.trans (hread _ _ s)
    · exact (LogFrame.log _ _).settled.trans (hread _ _ s)

theorem State.settled_bwtSwap (s : State) : s.bwtSwap.settled = s.settled := by
  unfold State.bwtSwap
  extract_lets s1
  have h1 : s1.settled = s.settled := by
    unfold s1
    split_ifs <;> rfl
  clear_value s1
  split_ifs <;> exact h1

theorem State.settled_wr64 (s : State) (o : Nat) (v : W64) : (s.wr64 o v).settled = s.settled := rfl

theorem State.settled_putCal (s : State) (n : Nat) (x : CalSt) : (s.putCal n x).settled = s.settled := rfl

theorem State.settled_dropCals (s : State) (j : JobSlot) : (s.dropCals j).settled = s.settled := by
  unfold State.dropCals
  refine State.view_foldl State.settled _ (fun s n => ?_) _ s
  split_ifs
  · exact State.settled_putCal s n _
  · rfl

theorem State.settled_armCals (s : State) (j : JobSlot) (i : Image) : (s.armCals j i).settled = s.settled := by
  unfold State.armCals
  refine State.view_foldl State.settled _ (fun s c => ?_) _ s
  exact State.settled_putCal s c.comp _

theorem State.settled_startRoutes (s : State) (j : JobSlot) (i : Image) : (s.startRoutes j i).settled = s.settled := by
  unfold State.startRoutes
  refine State.view_foldl State.settled _ (fun s r => ?_) _ s
  split <;> rfl

theorem State.settled_setLock (s : State) : s.setLock.settled = s.settled := by
  unfold State.setLock
  split
  · rfl
  · exact (State.settled_putCal _ 63 _).trans ((State.settled_putCal _ 62 _).trans (LogFrame.setB _ _ _).settled)

theorem State.settled_setRole (s : State) (source : Bool) : (s.setRole source).settled = s.settled := by
  unfold State.setRole
  dsimp only
  split
  · exact (State.settled_setLock _).trans (LogFrame.setB _ _ _).settled
  · exact (LogFrame.setB _ _ _).settled

theorem State.settled_herdApply (s : State) : s.herdApply.settled = s.settled := by
  unfold State.herdApply
  extract_lets s1
  have h1 : s1.settled = s.settled := rfl
  clear_value s1
  rw [State.view_foldl State.settled _ (fun s k => ?_), State.view_foldl State.settled _ (fun s h => ?_), h1]
  · unfold State.showHerd
    split <;> rfl
  · unfold State.showColl
    split <;> rfl

theorem State.settled_muleApply (s : State) : s.muleApply.settled = s.settled := by
  unfold State.muleApply
  rw [State.view_foldl State.settled _ (fun s t => ?_)]
  · rfl
  · rfl

theorem State.settled_secondApply (s : State) : s.secondApply.settled = s.settled := by
  unfold State.secondApply
  extract_lets s0 groups s1
  have h1 : s1.settled = s.settled := rfl
  clear_value s1 groups
  rw [State.view_foldl State.settled _ (fun s g => ?_), h1]
  rfl

theorem LogFrame.ceilShow (s : State) : LogFrame s s.ceilShow := by
  unfold State.ceilShow
  exact (LogFrame.setB _ _ _).trans (.setF _ _ _)

theorem State.settled_units (s : State) (chans : Tab ChanSt) (ports : Tab FabPort) (stks : Tab StackSt) :
    ({ s with chans := chans, ports := ports, stks := stks } : State).settled = s.settled := rfl

/-- The units of job slot A begin anew beside the cores. -/
theorem State.settled_unitsA (s : State) : s.unitsA.settled = s.settled := by
  unfold State.unitsA
  extract_lets s1 s2
  have h1 : s1.settled = s.settled :=
    (LogFrame.setF _ _ _).settled.trans ((State.settled_secondApply _).trans ((State.settled_muleApply _).trans
      (State.settled_herdApply s)))
  have h2 : s2.settled = s1.settled := ((LogFrame.setB s1 fPwrCeilRdefault _).trans (.ceilShow _)).settled
  exact (State.settled_units s2 _ _ _).trans (h2.trans h1)

/-! ### The cores take their sections (R339) -/

theorem CoreSt.cfgs_freshCtx (x : CoreSt) : x.freshCtx.cfgA = x.cfgA ∧ x.freshCtx.cfgB = x.cfgB :=
  ⟨(congrArg CoreSt.cfgA (CoreSt.sansFeeders_feedersToBase ..) :),
    (congrArg CoreSt.cfgB (CoreSt.sansFeeders_feedersToBase ..) :)⟩

theorem CoreSt.cfgA_swapIn (x : CoreSt) (cf : Option CoreCfg) : (x.swapIn .a cf).cfgA = cf := by
  unfold CoreSt.swapIn
  rw [if_pos rfl]
  extract_lets y
  have hy : y.cfgA = cf := rfl
  clear_value y
  split
  · exact (CoreSt.cfgs_freshCtx y).1.trans hy
  · exact hy

theorem CoreSt.cfgB_swapIn (x : CoreSt) (cf : Option CoreCfg) : (x.swapIn .b cf).cfgB = cf := by
  unfold CoreSt.swapIn
  rw [if_neg (show ¬ JobSlot.b = JobSlot.a by decide)]
  extract_lets y
  have hy : y.cfgB = cf := rfl
  clear_value y
  split
  · exact (CoreSt.cfgs_freshCtx y).2.trans hy
  · exact hy

/-- A core after each core of a list has changed. -/
theorem State.core_foldl_modCore (f : Nat → CoreSt → CoreSt) {c : Nat} (l : List Nat) (hl : l.Nodup) (hc : c ∈ l) :
    ∀ s : State, (l.foldl (fun t c => t.modCore c (f c)) s).core c = f c (s.core c) := by
  have hother : ∀ (l : List Nat), c ∉ l → ∀ s : State,
      (l.foldl (fun t c => t.modCore c (f c)) s).core c = s.core c := by
    intro l
    induction l with
    | nil => exact fun _ _ => rfl
    | cons d l ih =>
      intro hd s
      rw [List.mem_cons, not_or] at hd
      rw [List.foldl_cons, ih hd.2, State.core_modCore_ne _ _ _ (Ne.symm hd.1)]
  induction l with
  | nil => exact absurd hc List.not_mem_nil
  | cons d l ih =>
    intro s
    rw [List.nodup_cons] at hl
    rw [List.foldl_cons]
    by_cases hdc : d = c
    · subst hdc
      rw [hother l hl.1, State.core_modCore]
    · rw [ih hl.2 ((List.mem_cons.1 hc).resolve_left (Ne.symm hdc)), State.core_modCore_ne _ _ _ hdc]

theorem State.core_swapCores (s : State) (j : JobSlot) (cs : List CoreCfg) {c : Nat} (hc : c < 256) :
    (s.swapCores j cs).core c = (s.core c).swapIn j (cs.find? fun d => d.core == c) :=
  State.core_foldl_modCore (fun c x => x.swapIn j (cs.find? fun d => d.core == c)) (List.range 256) List.nodup_range
    (List.mem_range.2 hc) s

theorem State.swapView_swapCores (s : State) (j : JobSlot) (cs : List CoreCfg) :
    (s.swapCores j cs).swapView = s.swapView := by
  unfold State.swapCores
  refine State.view_foldl State.swapView _ (fun s c => ?_) _ s
  rfl

theorem State.swapView_applyRetired (s : State) : s.applyRetired.swapView = s.swapView := by
  unfold State.applyRetired
  extract_lets s1
  have h1 : s1.swapView = s.swapView := by
    refine State.view_foldl State.swapView _ (fun s c => ?_) _ s
    rfl
  clear_value s1
  exact h1

/-! ### The swap (R337-R340) -/

/-- Job slot B's image goes, and nothing else that a swap keeps. -/
theorem State.swapView_unloadSlotB (s : State) :
    s.unloadSlotB.swapView = (s.mem, s.pending, s.loader, s.imgA, none) := by
  unfold State.unloadSlotB
  extract_lets s1 s2
  have h1 : s1.swapView = s.swapView :=
    (State.swapView_swapCores _ _ _).trans ((State.swapView_of_settled (State.settled_dropCals _ _)).trans rfl)
  clear_value s1
  have h2 : s2.swapView = (s1.mem, s1.pending, s1.loader, s1.imgA, none) := rfl
  clear_value s2
  simp only [State.swapView, Prod.mk.injEq] at h1
  obtain ⟨hmem, hpending, hloader, himgA, -⟩ := h1
  rw [hmem, hpending, hloader, himgA] at h2
  exact h2

/-- What makes way for an image of job slot A. -/
def State.yieldA (s : State) (keep : Bool) : State :=
  ((((if s.imgB.isSome ∧ ¬ keep then s.unloadSlotB else s).endClutch 1).bwtSwap.applyRetired).dropSlot .a).dropCals .a

theorem State.yieldA_rules (s : State) (keep : Bool) : (s.yieldA keep).mem = s.mem
    ∧ (s.yieldA keep).pending = s.pending ∧ (s.yieldA keep).loader = s.loader
    ∧ (s.imgB = none → (s.yieldA keep).imgB = none) := by
  unfold State.yieldA
  have h1 : ∃ v, (if s.imgB.isSome ∧ ¬ keep then s.unloadSlotB else s) = v ∧ v.mem = s.mem ∧ v.pending = s.pending
      ∧ v.loader = s.loader ∧ (s.imgB = none → v.imgB = none) := by
    have hunload := s.swapView_unloadSlotB
    simp only [State.swapView, Prod.mk.injEq] at hunload
    obtain ⟨hmem, hpending, hloader, -, himgB⟩ := hunload
    split_ifs
    · exact ⟨_, rfl, hmem, hpending, hloader, fun _ => himgB⟩
    · exact ⟨_, rfl, rfl, rfl, rfl, id⟩
  obtain ⟨v, hv, hmem, hpending, hloader, himgB⟩ := h1
  rw [hv]
  have h2 : (((v.endClutch 1).bwtSwap.applyRetired.dropSlot .a).dropCals .a).swapView = v.swapView :=
    (State.swapView_of_settled (State.settled_dropCals _ _)).trans ((State.swapView_applyRetired _).trans
      (State.swapView_of_settled ((State.settled_bwtSwap _).trans (State.settled_endClutch _ _))))
  generalize ((v.endClutch 1).bwtSwap.applyRetired.dropSlot .a).dropCals .a = w at *
  simp only [State.swapView, Prod.mk.injEq] at h2
  obtain ⟨kmem, kpending, kloader, -, kimgB⟩ := h2
  exact ⟨kmem.trans hmem, kpending.trans hpending, kloader.trans hloader, fun h => kimgB.trans (himgB h)⟩

/-- The image stands in job slot A, with its tables. -/
def State.placeA (s : State) (i : Option Image) (variant : Nat) (pages : Tab WinPage) : State :=
  { s with
    imgA := i, winOpen := [], logical := (i.bind (·.chipmap)).map fun m => m.table variant
    fabApplied := i.bind fun x => x.tables variant
    pages := pages.foldl (fun t e => Tab.ins t e.1 e.2) s.pages }

theorem State.swapView_placeA (s : State) (i : Option Image) (variant : Nat) (pages : Tab WinPage) :
    (s.placeA i variant pages).swapView = (s.mem, s.pending, s.loader, i, s.imgB) := rfl

/-- Its cores take their sections, unless it awaits its number. -/
def State.takeA (s : State) (i : Option Image) : State :=
  s.swapCores .a (if (i.bind (·.chipmap)).isSome && s.logChip.isNone then [] else (i.map (·.cores)).getD [])

theorem State.cfgA_takeA (s : State) {i : Option Image} (hmap : i.bind (·.chipmap) = none) {c : Nat} (hc : c < 256) :
    ((s.takeA i).core c).cfgA = ((i.map (·.cores)).getD []).find? fun d => d.core == c := by
  rw [State.takeA, State.core_swapCores s .a _ hc, CoreSt.cfgA_swapIn, hmap]
  rfl

/-- Its routes, comparators and polls begin, and it sets the time role. -/
def State.beginA (s : State) (i : Option Image) : State :=
  ((match i with
    | some x => (s.startRoutes .a x).armCals .a x
    | none => s).startPolls (i.bind (·.mgmt))).setRole (((i.bind (·.mgmt)).map fun (m : MgmtCfg) => m.source).getD false)

theorem State.settled_startPolls (s : State) (m : Option MgmtCfg) : (s.startPolls m).settled = s.settled := rfl

theorem State.settled_beginA (s : State) (i : Option Image) : (s.beginA i).settled = s.settled := by
  unfold State.beginA
  refine (State.settled_setRole _ _).trans ((State.settled_startPolls _ _).trans ?_)
  cases i with
  | none => rfl
  | some x => exact (State.settled_armCals (s.startRoutes .a x) .a x).trans (State.settled_startRoutes s .a x)

/-- Job slot A has image `i`, the default image where that is none, with its IMAGE_ID, and its cores have its
sections unless it awaits its number. -/
structure TookA (i : Option Image) (s t : State) : Prop where
  mem : t.mem = s.mem
  pending : t.pending = s.pending
  loader : t.loader = s.loader
  imgA : t.imgA = i
  imgB : s.imgB = none → t.imgB = none
  id : t.rd64 rImgIdaLo = (i.map (·.id)).getD 0
  cores : i.bind (·.chipmap) = none → ∀ c < 256,
    (t.core c).cfgA = ((i.map (·.cores)).getD []).find? fun d => d.core == c

/-- The swap in its steps. -/
theorem State.swapA_eq (s : State) (i : Option Image) (variant : Nat) (pages : Tab WinPage) : ∃ keep v x m,
    v = s.yieldA keep ∧ x = ((v.placeA i variant pages).takeA i).beginA i
    ∧ s.swapA i variant pages = (x.unitsA.wr64 rImgIdaLo ((i.map (·.id)).getD 0)).setF (fWmiss .a) m := by
  unfold State.swapA
  extract_lets keep s1 s2 s3 standby s4 s5 s6
  exact ⟨keep, s2, s6, s6.missPages .a, rfl, rfl, rfl⟩

theorem State.tookA_swapA (s : State) (i : Option Image) (variant : Nat) (pages : Tab WinPage) :
    TookA i s (s.swapA i variant pages) := by
  obtain ⟨keep, v, x, m, hv, hx, heq⟩ := s.swapA_eq i variant pages
  rw [heq]
  obtain ⟨gmem, gpending, gloader, gimgB⟩ := hv ▸ s.yieldA_rules keep
  have hcores := fun hmap c => (v.placeA i variant pages).cfgA_takeA (i := i) hmap (c := c)
  have hview : ((v.placeA i variant pages).takeA i).swapView = (v.mem, v.pending, v.loader, i, v.imgB) :=
    (State.swapView_swapCores _ _ _).trans (v.swapView_placeA i variant pages)
  generalize (v.placeA i variant pages).takeA i = w at *
  have hunits : x.unitsA.settled = w.settled := (State.settled_unitsA _).trans (hx ▸ w.settled_beginA i)
  generalize x.unitsA = y at *
  have hwrites : ((y.wr64 rImgIdaLo ((i.map (·.id)).getD 0)).setF (fWmiss .a) m).settled = w.settled :=
    (LogFrame.setF _ _ _).settled.trans ((y.settled_wr64 _ _).trans hunits)
  have hid : ((y.wr64 rImgIdaLo ((i.map (·.id)).getD 0)).setF (fWmiss .a) m).rd64 rImgIdaLo = (i.map (·.id)).getD 0 := by
    rw [State.setF, State.rd64_wr_ne _ _ (by decide) (by decide), State.rd64_wr64_same]
  generalize (y.wr64 rImgIdaLo ((i.map (·.id)).getD 0)).setF (fWmiss .a) m = z at *
  have kview := (State.swapView_of_settled hwrites).trans hview
  simp only [State.swapView, Prod.mk.injEq] at kview
  obtain ⟨hmem, hpending, hloader, himgA, himgB⟩ := kview
  refine ⟨hmem.trans gmem, hpending.trans gpending, hloader.trans gloader, himgA, fun h => himgB.trans (gimgB h), hid,
    fun hmap c hc => ?_⟩
  rw [← hcores hmap c hc, State.core, State.core, State.cores_of_settled hwrites]

theorem TookA.defPend {i : Option Image} (h : TookA i s t) (b : Bool) : TookA i s { t with defPend := b } :=
  ⟨h.mem, h.pending, h.loader, h.imgA, h.imgB, h.id, h.cores⟩

/-- Job slot B has image `i`, with its IMAGE_ID and its sections. -/
structure TookB (i : Image) (s t : State) : Prop where
  mem : t.mem = s.mem
  pending : t.pending = s.pending
  loader : t.loader = s.loader
  imgA : t.imgA = s.imgA
  imgB : t.imgB = some i
  id : t.rd64 rImgIdbLo = i.id
  loaded : t.getF fXltStatusBloaded = 1
  cores : ∀ c < 256, (t.core c).cfgB = i.cores.find? fun d => d.core == c

theorem State.tookB_swapB (s : State) (i : Image) (pages : Tab WinPage) : TookB i s (s.swapB i pages) := by
  unfold State.swapB
  extract_lets s1 s2 s3
  have h1 : s1.swapView = s.swapView := State.swapView_of_settled (State.settled_dropCals _ _)
  clear_value s1
  have h2 : s2.swapView = (s1.mem, s1.pending, s1.loader, s1.imgA, some i) := rfl
  have h3 : s3.settled = (s2.swapCores .b i.cores).settled :=
    (State.settled_armCals _ _ _).trans (State.settled_startRoutes _ _ _)
  have hview : s3.swapView = (s1.mem, s1.pending, s1.loader, s1.imgA, some i) :=
    (State.swapView_of_settled h3).trans ((State.swapView_swapCores s2 .b _).trans h2)
  simp only [State.swapView, Prod.mk.injEq] at hview h1
  obtain ⟨hmem, hpending, hloader, himgA, himgB⟩ := hview
  obtain ⟨kmem, kpending, kloader, kimgA, -⟩ := h1
  refine ⟨hmem.trans kmem, hpending.trans kpending, hloader.trans kloader, himgA.trans kimgA, himgB, ?_, ?_,
    fun c hc => ?_⟩
  · rw [State.setF, State.rd64_wr_ne _ _ (by decide) (by decide), State.setB, State.setF,
      State.rd64_wr_ne _ _ (by decide) (by decide), State.rd64_wr64_same]
  · rw [State.getF_of_rd_eq (f := fXltStatusBloaded) (State.rd_setF_ne _ _ _ (by decide))]
    exact State.getF_setF_same _ _ _ (by decide)
  · have hcore : (s3.core c).cfgB = i.cores.find? fun d => d.core == c := by
      rw [State.core, State.cores_of_settled h3, ← State.core, State.core_swapCores s2 .b _ hc, CoreSt.cfgB_swapIn]
    exact hcore

/-! ### The end of a swap -/

theorem LogFrame.showDigest (s : State) (l : Loader) : LogFrame s (s.showDigest l) := by
  unfold State.showDigest
  split_ifs
  · exact .refl s
  · exact .wrList _ _ _

theorem State.rd_showDigest (s : State) (l : Loader) {o : Nat} (ho : ∀ k < 12, rImgDigest 0 + 4 * k ≠ o) :
    (s.showDigest l).rd o = s.rd o := by
  unfold State.showDigest
  split_ifs
  · rfl
  · exact State.rd_wrList_ne _ _ _ (by simpa using ho)

/-- The load of an image that has taken its job slot ends well. -/
structure SwapOver (s t : State) : Prop where
  ended : t.loader = none ∧ t.getF fImgStatusState = 0 ∧ t.getF fImgStatusCode = 0 ∧ t.getF fImgStatusDone = 1
  lasting : t.lasting = s.lasting
  rd : ∀ o < 0xC00000, rImgStatus ≠ o → (∀ k < 12, rImgDigest 0 + 4 * k ≠ o) → t.rd o = s.rd o

theorem SwapOver.endLoad (hl : s.loader = some l) : SwapOver s ((s.showDigest l).endLoad 0) := by
  have hdigest := LogFrame.showDigest s l
  have hl' : (s.showDigest l).loader = some l := hdigest.loader.trans hl
  obtain ⟨hloader, hstate, hcode, hdone, -⟩ := loadEnded_endLoad (code := 0) hl' (by decide) rfl
  refine ⟨⟨hloader, hstate, hcode, hdone⟩, (State.lasting_endLoad hl' 0).trans hdigest.lasting, fun o ho hst hdig => ?_⟩
  rw [(Announced.endLoad hl' 0).rd o ho, State.rd_loadOver _ _ hst, State.rd_showDigest _ _ hdig]

theorem SwapOver.announced (h : SwapOver s t) (k : Announced t u) : SwapOver s u := by
  obtain ⟨hloader, hstate, hcode, hdone⟩ := h.ended
  refine ⟨⟨?_, ?_, ?_, ?_⟩, ?_, fun o ho hst hdig => (k.rd o ho).trans (h.rd o ho hst hdig)⟩
  · rw [k.frame]
    exact hloader
  · rw [k.getF (by decide), hstate]
  · rw [k.getF (by decide), hcode]
  · rw [k.getF (by decide), hdone]
  · rw [← h.lasting, k.frame]
    rfl

theorem SwapOver.rd64 (h : SwapOver s t) {o : Nat} (ho : o + 4 < 0xC00000) (hlo : rImgStatus ≠ o)
    (hhi : rImgStatus ≠ o + 4) (hdig : ∀ k < 12, rImgDigest 0 + 4 * k ≠ o ∧ rImgDigest 0 + 4 * k ≠ o + 4) :
    t.rd64 o = s.rd64 o := by
  rw [State.rd64, h.rd _ ho hhi fun k hk => (hdig k hk).2, h.rd _ (by omega) hlo fun k hk => (hdig k hk).1, State.rd64]

/-! ### IMAGE_SWAP (R337, R338, R340) -/

section ImageSwap

variable {i : Image}

/-- The time that passes until the swap. -/
def State.swapTime (s : State) (l : Loader) : State :=
  s.reach (if l.applyt = 0 then s.nextFrame else l.applyt.toNat)

theorem State.settled_swapTime (s : State) (l : Loader) : (s.swapTime l).settled = s.settled := s.settled_reach _

theorem State.loader_swapTime (s : State) (l : Loader) : (s.swapTime l).loader = s.loader :=
  congrArg (fun v => v.1.2.2.1) (s.settled_swapTime l)

theorem State.lasting_swapTime (s : State) (l : Loader) : (s.swapTime l).lasting = s.lasting :=
  congrArg (fun v => (v.1.2.2.2.1, v.1.2.2.2.2, v.2, v.1.1, v.1.2.1)) (s.settled_swapTime l)

theorem State.imageSwap_waits (hl : s.loader = some l) (himg : l.img = some i) (hslot : l.slot = .b)
    (hbusy : s.bResident = true ∨ s.windowOpen = true) : s.imageSwap = s := by
  rw [State.imageSwap, hl]
  dsimp only
  rw [himg]
  exact if_pos (.inr ⟨hslot, hbusy⟩)

/-- The swap of a load in WAIT, where job slot B is not in use if it is for that one. -/
theorem State.imageSwap_eq (hl : s.loader = some l) (himg : l.img = some i) (hst : s.imgState = 5)
    (hfree : l.slot = .b → s.bResident = false ∧ s.windowOpen = false) : s.imageSwap =
    if i.partImg then
      if s.okBase l.slot i then (s.swapTime l).partialSwap l i else (s.swapTime l).endLoad 0x16
    else if s.slotIdle l.slot then
      (((if l.slot = .a then (s.swapTime l).swapA (some i) l.variant l.pages
        else (s.swapTime l).swapB i l.pages).showDigest l).endLoad 0).sdYield fun c => i.cores.any fun k => k.core == c
    else if l.applyt = 0 then s
    else (s.swapTime l).endLoad 0x18 := by
  rw [State.imageSwap, hl]
  dsimp only
  rw [himg]
  refine if_neg ?_
  rintro (hwait | ⟨hslot, hbusy⟩)
  · exact hwait (by rw [hst]; rfl)
  · obtain ⟨hresident, hopen⟩ := hfree hslot
    simp [hresident, hopen] at hbusy

theorem imageSwap_busy (hl : s.loader = some l) (himg : l.img = some i) (hst : s.imgState = 5)
    (hfull : i.partImg = false) (hbusy : s.slotIdle l.slot = false)
    (hfree : l.slot = .b → s.bResident = false ∧ s.windowOpen = false) :
    (l.applyt = 0 → exec .imageSwap s = .next s)
    ∧ (l.applyt ≠ 0 → ∃ t, exec .imageSwap s = .next t ∧ LoadEnded 0x18 s t) := by
  have heq := State.imageSwap_eq hl himg hst hfree
  rw [if_neg (by simp [hfull]), if_neg (by simp [hbusy])] at heq
  refine ⟨fun h0 => congrArg Host.Outcome.next (heq.trans (if_pos h0)), fun h0 => ⟨s.imageSwap, rfl, ?_⟩⟩
  rw [heq, if_neg h0]
  exact loadEnded_endLoad ((s.loader_swapTime l).trans hl) (by decide) (s.lasting_swapTime l)

theorem imageSwap_idle (hl : s.loader = some l) (himg : l.img = some i) (hst : s.imgState = 5)
    (hfull : i.partImg = false) (hidle : s.slotIdle l.slot = true)
    (hfree : l.slot = .b → s.bResident = false ∧ s.windowOpen = false) :
    ∃ t, exec .imageSwap s = .next t
      ∧ t.loader = none ∧ t.getF fImgStatusState = 0 ∧ t.getF fImgStatusCode = 0
      ∧ t.getF fImgStatusDone = 1 ∧ t.mem = s.mem ∧ t.pending = s.pending
      ∧ (l.slot = .a → t.imgA = some i ∧ t.rd64 rImgIdaLo = i.id
        ∧ (i.chipmap = none → ∀ c < 256, (t.core c).cfgA = i.cores.find? fun d => d.core == c))
      ∧ (l.slot = .b → t.imgB = some i ∧ t.imgA = s.imgA
        ∧ t.rd64 rImgIdbLo = i.id
        ∧ t.getF fXltStatusBloaded = 1
        ∧ ∀ c < 256, (t.core c).cfgB = i.cores.find? fun d => d.core == c) := by
  refine ⟨s.imageSwap, rfl, ?_⟩
  rw [State.imageSwap_eq hl himg hst hfree, if_neg (by simp [hfull]), if_pos hidle]
  have htime := s.lasting_swapTime l
  have hl' := (s.loader_swapTime l).trans hl
  simp only [State.lasting, Prod.mk.injEq] at htime
  obtain ⟨himgA, -, -, hmem, hpending⟩ := htime
  generalize s.swapTime l = v at *
  cases hslot : l.slot with
  | a =>
    rw [if_pos rfl]
    have htook := v.tookA_swapA (some i) l.variant l.pages
    generalize v.swapA (some i) l.variant l.pages = w at *
    have hover := (SwapOver.endLoad (htook.loader.trans hl')).announced (.sdYield _ fun c => i.cores.any fun k => k.core == c)
    generalize ((w.showDigest l).endLoad 0).sdYield (fun c => i.cores.any fun k => k.core == c) = t at *
    obtain ⟨hloader, hstate, hcode, hdone⟩ := hover.ended
    have hlasting := hover.lasting
    simp only [State.lasting, Prod.mk.injEq] at hlasting
    obtain ⟨timgA, -, tcores, tmem, tpending⟩ := hlasting
    refine ⟨hloader, hstate, hcode, hdone, tmem.trans (htook.mem.trans hmem),
      tpending.trans (htook.pending.trans hpending), fun _ => ⟨timgA.trans htook.imgA, ?_, fun hmap c hc => ?_⟩,
      fun h => absurd h (by decide)⟩
    · rw [hover.rd64 (by decide) (by decide) (by decide) (by decide), htook.id]
      rfl
    · rw [State.core, tcores, ← State.core]
      exact htook.cores hmap c hc
  | b =>
    rw [if_neg (by decide)]
    have htook := v.tookB_swapB i l.pages
    generalize v.swapB i l.pages = w at *
    have hover := (SwapOver.endLoad (htook.loader.trans hl')).announced (.sdYield _ fun c => i.cores.any fun k => k.core == c)
    generalize ((w.showDigest l).endLoad 0).sdYield (fun c => i.cores.any fun k => k.core == c) = t at *
    obtain ⟨hloader, hstate, hcode, hdone⟩ := hover.ended
    have hlasting := hover.lasting
    simp only [State.lasting, Prod.mk.injEq] at hlasting
    obtain ⟨timgA, timgB, tcores, tmem, tpending⟩ := hlasting
    refine ⟨hloader, hstate, hcode, hdone, tmem.trans (htook.mem.trans hmem),
      tpending.trans (htook.pending.trans hpending), fun h => absurd h (by decide),
      fun _ => ⟨timgB.trans htook.imgB, timgA.trans (htook.imgA.trans himgA), ?_, ?_, fun c hc => ?_⟩⟩
    · rw [hover.rd64 (by decide) (by decide) (by decide) (by decide), htook.id]
    · rw [State.getF_of_rd_eq (f := fXltStatusBloaded) (hover.rd rXltStatus (by decide) (by decide) (by decide)),
        htook.loaded]
    · rw [State.core, tcores, ← State.core]
      exact htook.cores c hc

theorem imageSwap_badBase (hl : s.loader = some l) (himg : l.img = some i) (hst : s.imgState = 5)
    (hpart : i.partImg = true) (hbase : s.okBase l.slot i = false) (hslot : l.slot = .a) :
    ∃ t, exec .imageSwap s = .next t ∧ LoadEnded 0x16 s t := by
  refine ⟨s.imageSwap, rfl, ?_⟩
  rw [State.imageSwap_eq hl himg hst fun h => absurd (hslot.symm.trans h) (by decide), if_pos hpart, if_neg (by simp [hbase])]
  exact loadEnded_endLoad ((s.loader_swapTime l).trans hl) (by decide) (s.lasting_swapTime l)

end ImageSwap

/-! ### CORE_SWITCH (R342, R343) -/

section CoreSwitch

variable {c : Nat} {cf : CoreCfg}

/-- A core that takes the section that waits: its sequencer begins anew, and its vector state stays. -/
theorem CoreSt.switchIn_rules (x : CoreSt) (cf : CoreCfg) : let y := x.switchIn .a cf
    y.cfgA = some cf ∧ y.nextA = none ∧ y.pc = 0 ∧ y.stopped = false ∧ y.sregs = [] ∧ y.mregs = []
      ∧ y.vregs = x.vregs ∧ y.ocache = x.ocache ∧ y.arrays = x.arrays := by
  intro y
  have hy : y.sansFeeders = _ := CoreSt.sansFeeders_feedersToBase ..
  exact ⟨(congrArg CoreSt.cfgA hy :), (congrArg CoreSt.nextA hy :), (congrArg CoreSt.pc hy :),
    (congrArg CoreSt.stopped hy :), (congrArg CoreSt.sregs hy :), (congrArg CoreSt.mregs hy :),
    (congrArg CoreSt.vregs hy :), (congrArg CoreSt.ocache hy :), (congrArg CoreSt.arrays hy :)⟩

/-- Core `c` has switched, none of its ports being inside a token. -/
def State.switched (s : State) (j : JobSlot) (c : Nat) (cf : CoreCfg) : State :=
  (s.switchSinks j c (((s.core c).cfg.map (·.sinks)).getD []) cf.sinks).modCore c fun y => y.switchIn j cf

theorem State.settled_switchSinks (s : State) (j : JobSlot) (c : Nat) (old new : List SinkCfg) :
    (s.switchSinks j c old new).settled = s.settled := by
  refine State.view_foldl State.settled _ (fun s k => ?_) _ s
  split_ifs <;> rfl

theorem State.switched_rules (s : State) (j : JobSlot) (c : Nat) (cf : CoreCfg) : let t := s.switched j c cf
    t.core c = (s.core c).switchIn j cf ∧ (∀ d, d ≠ c → t.core d = s.core d) ∧ t.swapView = s.swapView := by
  have hsinks := s.settled_switchSinks j c (((s.core c).cfg.map (·.sinks)).getD []) cf.sinks
  unfold State.switched
  generalize s.switchSinks j c (((s.core c).cfg.map (·.sinks)).getD []) cf.sinks = v at *
  have hcore (d : Nat) : v.core d = s.core d := by rw [State.core, State.cores_of_settled hsinks, State.core]
  have hview : (v.modCore c fun y => y.switchIn j cf).swapView = v.swapView := rfl
  refine ⟨?_, fun d hd => ?_, hview.trans (State.swapView_of_settled hsinks)⟩
  · rw [State.core_modCore, hcore]
  · rw [State.core_modCore_ne _ _ _ (Ne.symm hd), hcore]

/-- The end of a partial load changes no core. -/
theorem State.partialDone_rules (hl : s.loader = some l) : (s.partialDone l).cores = s.cores
    ∧ (s.partialDone l).mem = s.mem ∧ (l.img.isSome = true → (s.partialDone l).loader = none
      ∧ (s.partialDone l).getF fImgStatusState = 0 ∧ (s.partialDone l).getF fImgStatusCode = 0) := by
  unfold State.partialDone
  split
  next hnone => exact ⟨rfl, rfl, fun h => by simp [hnone] at h⟩
  next i _ =>
    extract_lets s1
    have h1 : s1.cores = s.cores ∧ s1.mem = s.mem ∧ s1.loader = s.loader := by
      unfold s1
      split_ifs <;> exact ⟨rfl, rfl, rfl⟩
    obtain ⟨hcores, hmem, hloader⟩ := h1
    clear_value s1
    have hover := SwapOver.endLoad (s := s1.wr64 (if l.slot = .a then rImgIdaLo else rImgIdbLo) i.id)
      (hloader.trans hl)
    have hlasting := hover.lasting
    simp only [State.lasting, Prod.mk.injEq] at hlasting
    obtain ⟨-, -, kcores, kmem, -⟩ := hlasting
    obtain ⟨hnone, hstate, hcode, -⟩ := hover.ended
    exact ⟨kcores.trans hcores, kmem.trans hmem, fun _ => ⟨hnone, hstate, hcode⟩⟩

/-- A core with a section that waits in PENDING. -/
theorem State.coreSwitch_eq (hl : s.loader = some l) (hslot : l.slot = .a) (hst : s.imgState = 6)
    (hnext : (s.core c).nextA = some cf) (hx : (s.core c).slot = .a) (hbare : (s.core c).bare = false)
    (hswitching : (s.core c).switching = false) : s.coreSwitch c =
    if ¬ (s.core c).quiet then s
    else if (s.core c).cutPorts ≠ [] ∧ ¬ l.force then s
    else
      let s3 := ((s.cutTokens l.slot c (s.core c).cutPorts).switchSinks l.slot c
        (((s.core c).cfg.map (·.sinks)).getD []) cf.sinks).modCore c fun y => y.switchIn l.slot cf
      if s3.coresWait l.slot then s3 else s3.partialDone l := by
  have hof : (s.core c).nextOf l.slot = some cf := by rw [hslot]; exact hnext
  have hguard : (s.imgState ≠ imgPending ∨ (s.core c).slot ≠ l.slot ∨ (s.core c).bare = true
      ∨ (s.core c).switching = true ∨ ¬ (s.core c).quiet = true) ↔ ¬ (s.core c).quiet = true := by
    simp [hst, hx, hslot, hbare, hswitching, imgPending]
  rw [State.coreSwitch, hl]
  dsimp only
  rw [hof]
  dsimp only
  simp only [hguard]

theorem coreSwitch_rules {c : Core} (hl : s.loader = some l) (hslot : l.slot = .a) (hst : s.imgState = 6)
    (hnext : (s.core c).nextA = some cf) (hx : (s.core c).slot = .a) (hbare : (s.core c).bare = false)
    (hswitching : (s.core c).switching = false) :
    ((s.core c).quiet = false → exec (.coreSwitch c) s = .next s)
    ∧ ((s.core c).cutPorts ≠ [] → l.force = false → exec (.coreSwitch c) s = .next s)
    ∧ ((s.core c).quiet = true → (s.core c).cutPorts = [] → ∃ t, exec (.coreSwitch c) s = .next t
      ∧ (t.core c).cfgA = some cf ∧ (t.core c).nextA = none ∧ (t.core c).pc = 0
      ∧ (t.core c).stopped = false ∧ (t.core c).sregs = [] ∧ (t.core c).mregs = []
      ∧ (t.core c).vregs = (s.core c).vregs ∧ (t.core c).ocache = (s.core c).ocache
      ∧ (t.core c).arrays = (s.core c).arrays
      ∧ (∀ d, d ≠ c.val → t.core d = s.core d) ∧ t.mem = s.mem
      ∧ (t.coresWait .a = false → l.img.isSome = true →
          t.loader = none ∧ t.getF fImgStatusState = 0 ∧ t.getF fImgStatusCode = 0)) := by
  have heq := State.coreSwitch_eq hl hslot hst hnext hx hbare hswitching
  refine ⟨fun hquiet => ?_, fun hcut hforce => ?_, fun hquiet hcut => ⟨s.coreSwitch c, rfl, ?_⟩⟩
  · exact congrArg Host.Outcome.next (heq.trans (if_pos (by simp [hquiet])))
  · refine congrArg Host.Outcome.next (heq.trans ?_)
    rw [if_pos (c := (s.core c).cutPorts ≠ [] ∧ ¬ l.force = true) ⟨hcut, by simp [hforce]⟩, ite_self]
  · rw [if_neg (by simp [hquiet]), if_neg (by simp [hcut]), hcut, hslot] at heq
    have hdone : s.coreSwitch c = if (s.switched .a c cf).coresWait .a then s.switched .a c cf
        else (s.switched .a c cf).partialDone l := heq
    obtain ⟨hcore, hothers, hview⟩ := s.switched_rules .a c cf
    have hrules := (s.core c).switchIn_rules cf
    rw [← hcore] at hrules
    simp only [State.swapView, Prod.mk.injEq] at hview
    obtain ⟨hmem, -, hloader, -, -⟩ := hview
    rw [hdone]
    generalize s.switched .a c cf = v at *
    obtain ⟨kcores, kmem, kended⟩ := State.partialDone_rules (hloader.trans hl)
    obtain ⟨h1, h2, h3, h4, h5, h6, h7, h8, h9⟩ := hrules
    split_ifs with hwait
    · exact ⟨h1, h2, h3, h4, h5, h6, h7, h8, h9, hothers, hmem, fun h => by simp [hwait] at h⟩
    · have kcore (d : Nat) : (v.partialDone l).core d = v.core d := by rw [State.core, kcores, State.core]
      rw [kcore]
      exact ⟨h1, h2, h3, h4, h5, h6, h7, h8, h9, fun d hd => (kcore d).trans (hothers d hd), kmem.trans hmem,
        fun _ => kended⟩

end CoreSwitch

/-! ### The default image (R346) -/

theorem State.toDefault_eq (s : State) : ∃ v : State, v.mem = s.mem ∧ v.imgB = none
    ∧ s.toDefault = { v.swapA none 0 [] with defPend := false } := by
  have hunload := s.swapView_unloadSlotB
  simp only [State.swapView, Prod.mk.injEq] at hunload
  obtain ⟨hmem, -, -, -, himgB⟩ := hunload
  rw [State.toDefault]
  split_ifs with hB
  · exact ⟨s.unloadSlotB, hmem, himgB, rfl⟩
  · exact ⟨s, rfl, by simpa using hB, rfl⟩

theorem State.toDefault_rules (s : State) : s.toDefault.imgA = none ∧ s.toDefault.imgB = none
    ∧ s.toDefault.defPend = false ∧ s.toDefault.rd64 rImgIdaLo = 0 ∧ s.toDefault.mem = s.mem
    ∧ ∀ c < 256, (s.toDefault.core c).cfgA = none := by
  obtain ⟨v, hmem, himgB, heq⟩ := s.toDefault_eq
  have htook := (v.tookA_swapA none 0 []).defPend false
  have hdef : s.toDefault.defPend = false := by rw [heq]
  rw [← heq] at htook
  exact ⟨htook.imgA, htook.imgB himgB, hdef, htook.id, htook.mem.trans hmem, htook.cores rfl⟩

theorem defaultImageApply_rules (s : State) :
    (s.defPend = false ∨ s.slotIdle .a = false → exec .defaultImageApply s = .next s)
    ∧ (s.defPend = true → s.slotIdle .a = true → ∃ t, exec .defaultImageApply s = .next t
      ∧ t.imgA = none ∧ t.imgB = none ∧ t.defPend = false ∧ t.rd64 rImgIdaLo = 0
      ∧ t.mem = s.mem ∧ ∀ c < 256, (t.core c).cfgA = none) := by
  refine ⟨fun hwait => congrArg Host.Outcome.next (if_neg ?_), fun hpend hidle =>
    ⟨(s.reach s.nextFrame).toDefault, congrArg Host.Outcome.next (if_pos ⟨hpend, hidle⟩), ?_⟩⟩
  · rintro ⟨hpend, hidle⟩
    simp [hpend, hidle] at hwait
  · obtain ⟨himgA, himgB, hdef, hid, hmem, hcores⟩ := (s.reach s.nextFrame).toDefault_rules
    have hreach : (s.reach s.nextFrame).mem = s.mem := congrArg (fun v => v.1.1) (s.settled_reach s.nextFrame)
    exact ⟨himgA, himgB, hdef, hid, hmem.trans hreach, hcores⟩

end Swap

/-- Settles O33: the swap of a full and of a partial image, the switch of a core, and the default image. -/
theorem imageTakesEffectInAnIdleSlot : Obligations.ImageTakesEffectInAnIdleSlot := by
  unfold Obligations.ImageTakesEffectInAnIdleSlot
  refine ⟨fun s l i hl himg hst => ⟨fun hslot hbusy => ?_, imageSwap_busy hl himg hst, imageSwap_idle hl himg hst,
    imageSwap_badBase hl himg hst⟩, fun c s l cf => coreSwitch_rules, defaultImageApply_rules⟩
  exact congrArg Host.Outcome.next (State.imageSwap_waits hl himg hslot hbusy)

end Sys2Proof.Machine
end
